-- ==== Sys2Proof/Word.lean ====
section
/-! DEFINITION. The word types of the Nalig 7 block. -/

namespace Sys2Proof

/-- One byte. -/
abbrev Byte := BitVec 8

/-- The bits of one FP32 value, or one 32-bit register of a VXE lane. -/
abbrev W32 := BitVec 32

/-- A 64-bit word: generator state, descriptors' fields, arm words. -/
abbrev W64 := BitVec 64

/-- The 512 bytes of one cistern row or one memory row (R150): byte i in bits 8i+7 to 8i. -/
abbrev Row := BitVec 4096

/-- A 64 B submission descriptor, table descriptor or stream entry (R8). -/
abbrev Desc := BitVec 512

/-- A 32 B completion or event record, and a 32 B engine descriptor (R8). -/
abbrev Rec := BitVec 256

end Sys2Proof
end

