-- ==== Sys2Proof/Syntax.lean ====
section
/-! DEFINITION. The commands of the block and their operands. What the block's environment supplies at a step (a
measured value, the outcome of a self-test, a read that proves uncorrectable, bytes that the host has stored in its
own memory, a message from a fabric peer) is an operand of the command. -/

namespace Sys2Proof

/-- Bytes that the host has stored in its own memory before a doorbell write: address and value. -/
abbrev Cells := List (Nat × Byte)

/-- What the reads of one cistern read path meet in a step: rows whose read is corrected (R154), and rows whose read
is uncorrectable (R155). -/
structure Upsets where
  corrected : List Nat
  lost : List Nat
  deriving DecidableEq, Repr

/-- Outcomes of the steps of RESET (R479): the DMCs' start-up checks, the PLL's lock, the firmware slots' digests, and
the width and rate to which each host link trains (width 0: it does not train). -/
structure StartUp where
  dmc0 : Bool
  dmc1 : Bool
  pll : Bool
  slotA : Bool
  slotB : Bool
  width0 : Nat
  rate0 : Nat
  width1 : Nat
  rate1 : Nat
  deriving DecidableEq, Repr

/-- Outcomes of the self-tests (R480 to R482): physical cores that fail, the words that generator banks put out in the test of
R108 where they are not those of the design (core, bank: 0 VXE, 1 GTU, 2 GXE, words),
physical cores of which a VXE half fails with the half's number, slices that used spare rows, and the failed block of
selftest_summary (0 none). -/
structure SelfTests where
  failed : List Nat
  generator : List (Nat × Nat × List W64)
  halves : List (Nat × Nat)
  spareSlices : Nat
  block : Nat
  deriving DecidableEq, Repr

/-- What the sensors read at the end of a governor window (R30, R40, R43): the mean die-rail power of the window in µW,
the hottest junction sensor of each die in m°C with the sensor's number, the 24 optical engine cases in m°C, the input
voltage in mV, the input current in mA and the coolant temperatures in m°C. -/
structure WindowEnd where
  rail0 : Nat
  rail1 : Nat
  junction0 : Nat
  junction1 : Nat
  sensor0 : Nat
  sensor1 : Nat
  cases : List Nat
  volt : Nat
  amp : Nat
  inlet : Nat
  outlet : Nat
  deriving DecidableEq, Repr

/-- How a transfer of a memory channel fares (R337 to R339): the interface checks it fails before it succeeds, and, as masks of
the units of its granule, those that the controller's check of the stored code corrects, those that the memory's on-die ECC reports
as corrected, those that the reading unit's check corrects, and those that are found uncorrectable. -/
structure TransferCheck where
  failures : Nat
  corrected : Nat
  ondie : Nat
  second : Nat
  uncorrectable : Nat
  deriving DecidableEq, Repr

/-- A message of the fabric (R368 to R385), whole: class, kind and the fields that its rules name. -/
structure FabMsg where
  cls : Nat
  kind : Nat
  src : Nat
  dst : Nat
  tag : Nat
  flags : Nat
  table : Nat
  row : Nat
  addr : Nat
  count : Nat
  mark : Nat
  step : Nat
  status : Nat
  data : List Byte
  deriving DecidableEq, Repr

/-- A codeword as the decoder of a receive lane sees it (R359, R360): the physical lane, the framing word, and how many of its
symbols differ from those sent. -/
structure Codeword where
  lane : Nat
  framing : Nat
  errors : Nat
  deriving DecidableEq, Repr

/-- The fields of the link header that flits of both kinds carry (Table 5 of 11): the acknowledgement, the credits returned to one VC,
and the requests and acknowledgements of spare lanes. -/
structure LinkHeader where
  ackSeq : Nat
  ackValid : Bool
  nak : Bool
  creditVc : Nat
  credits : Nat
  spareReq : Option Nat
  spareAck : Bool
  deriving DecidableEq, Repr

/-- A data flit as its receiver sees it (R364 to R366): link header, sequence number, VC, first_slot, CRC, the messages that end in it,
and the codewords of the lanes where a new codeword period begins with it. -/
structure Flit where
  head : LinkHeader
  seq : Nat
  vc : Nat
  firstSlot : Nat
  crcOk : Bool
  msgs : List FabMsg
  code : List Codeword
  deriving DecidableEq, Repr

/-- A control flit (R364): link header, the next sequence number to be sent, CRC, and the codewords of the lanes where a new codeword
period begins with it. -/
structure CtlFlit where
  head : LinkHeader
  seq : Nat
  crcOk : Bool
  code : List Codeword
  deriving DecidableEq, Repr

/-- A PCIe configuration write, or a host write of the MSI-X table (R420, R438, R493). -/
inductive CfgWrite where
  | vfEnable (on : Bool)
  | numVfs (n : Nat)
  | completionTimeout (v : Nat)
  | msixMask (fn : Nat) (vector : Nat) (masked : Bool)
  /-- Address and data of an entry of the MSI-X table. -/
  | msixEntry (fn : Nat) (vector : Nat) (addr : Nat) (data : Nat)
  | msixControl (fn : Nat) (enable : Bool) (masked : Bool)
  /-- Power management: D3hot, or D0. -/
  | powerState (fn : Nat) (d3hot : Bool)
  /-- A register of the advanced error reporting capability. -/
  | aer (fn : Nat) (reg : Nat) (value : Nat)
  /-- The bus on which a link's functions are, and BAR0 of a function there. -/
  | bus (link : Nat) (number : Nat)
  | bar (link : Nat) (fn : Nat) (addr : Nat)
  deriving DecidableEq, Repr

/-- The commands of the block, one constructor for each row of the table of operations and events. -/
inductive Instr where
  /-- R473: SYS_RESET_N held low for at least 1 µs returns the module to RESET from any state, stops every derived clock and loses every undecided group. -/
  | sysResetAssert
  /-- R479: The rising edge of SYS_RESET_N starts bring-up: fuses are read, the DMC start-up checks run, the PLL locks, the host links train and firmware is loaded. -/
  | sysResetRelease (o : StartUp)
  /-- R473: A fall of PWR_GOOD returns the module to RESET and releases every output on J2. -/
  | pwrGoodFall
  /-- R24: Loss of lock of the root PLL with a valid reference: the DMCs stop all derived clocks, record the event, assert the interrupt and return the module to RESET. -/
  | pllLossOfLock
  /-- R42: A junction sensor at 110 °C or more, or an optical engine case at 90 °C or more, stops the die's derived clocks and holds the die in RESET. -/
  | thermalStop (die : Nat) (optics : Bool) (sensor : Nat) (reading : Nat)
  /-- R475: Once every item of RESET is complete, the device enters SELFTEST. -/
  | resetComplete
  /-- R480: Once every self-test of Table 3 has ended, the device enters TRAINING, or it stays in SELFTEST if a block other than a core failed. -/
  | selftestCompleteAll (o : SelfTests)
  /-- R483: A memory range finishes its JEDEC training, applies the repair record, marks any channel that failed training three times, and waits in self-refresh. -/
  | rangeTrained (range : Nat) (failed : Nat)
  /-- R484: When every range has trained, all ranges leave self-refresh together and are written with zeros and valid check bits. -/
  | trainingZeroFill
  /-- R485: An optical engine completes calibration and its loopback lane test, and any failed active lane is replaced by the spare in the lane map. -/
  | opticsCalibrated (engine : Nat) (failTx : Nat) (failRx : Nat)
  /-- R475: Once every range is zero-filled and every engine is calibrated, and no hold point applies, the device enters READY. -/
  | readyEntry
  /-- R478: A write to hold_point selects a hold point, or, with the value 0, releases the hold so that bring-up continues. -/
  | holdPointWrite (acc : Nat) (v : Nat)
  /-- R477: The state request SERVE, accepted only in READY, enters SERVING, ends shared-tick mode, starts link training and starts dispatch. -/
  | serve (acc : Nat)
  /-- R477: The state request QUIESCE, accepted in SERVING when no partition is ACTIVE and no PF queue pair is enabled, takes every link DOWN and enters READY. -/
  | quiesce (acc : Nat)
  /-- R28: A unit asks its die's governor for a draw permit, which is granted and added to held when its size is at or below headroom. -/
  | permitRequest (die : Nat) (n : Nat)
  /-- R29: The other die's governor receives a request for a loan of the shortfall over the bridge, and lends it, moving allotment, if the loan is within its headroom. -/
  | loanRequest (die : Nat)
  /-- R29: The borrowing governor receives the lender's answer and either grants the waiting request or keeps it at the head of the queue. -/
  | loanReply (die : Nat)
  /-- R29: Every 1 µs, a governor whose head request is waiting asks the other die for the loan again. -/
  | loanRetry (die : Nat)
  /-- R34: A returned permit is subtracted from held, which may allow waiting requests to be granted or a loan to be asked again. -/
  | permitReturn (die : Nat) (n : Nat)
  /-- R33: A request that has waited longer than permit_timeout raises the permit timeout detector once and stays queued. -/
  | permitTimeout (die : Nat)
  /-- R30: At each 100 µs window end, floor is updated, allotment is rebalanced toward equal headroom and the hot or cool state of the die is judged. -/
  | governorWindowEnd (o : WindowEnd)
  /-- R38: A new package budget takes effect within 10 µs and is split so that each die's headroom changes by the same amount. -/
  | packageBudgetWrite (acc : Nat) (v : Nat)
  /-- R39: Every 1 µs the input power is sampled at the 48 V input as the mean over that microsecond. -/
  | powerSample (mw : Nat)
  /-- R39: Samples above the budget for more than 1 ms without a break raise the over-budget event and stop both governors from granting or lending. -/
  | overBudget
  /-- R39: After 100 µs of samples at or below the budget without a break, the governors resume granting. -/
  | overBudgetClear
  /-- R25: An MXE, GTU or VXE that has been idle for 64 cc gates its clock. -/
  | engineGate (core : Nat) (engine : Nat)
  /-- R25: A cistern bank with no access for 4,096 cc enters retention. -/
  | bankRetention (core : Nat) (bank : Nat)
  /-- R25: A reservoir slice with no access for 16,384 noc cycles enters retention. -/
  | sliceRetention (die : Nat) (slice : Nat)
  /-- R35: With 384 cc of the running segment left, the CSQ chooses what runs next, requests the next segment's permit and ungates its engines and banks. -/
  | segmentLookahead (core : Nat)
  /-- R36: A segment starts once its permit has been granted, and its schedule entries then issue at their fixed cycles. -/
  | segmentStart (core : Nat) (up : Upsets)
  /-- R175: At the end of a segment the CSQ takes the check, sync, weir and next steps that the segment record calls for. -/
  | segmentEnd (core : Nat)
  /-- R178: When every token of sync_mask is signalled, the CSQ aborts on an error or fault bit, or else joins staged writes to their groups, clears the tokens and opens a new retry span. -/
  | syncPoint (core : Nat)
  /-- R184: Once the waits, any reload and the permit are complete, the CSQ retries the aborted span from its first segment. -/
  | spanRetry (core : Nat)
  /-- R119: An MXE tile descriptor multiplies A by B into a rill slot and occupies the array for its issue cycles. -/
  | mxeTile (core : Nat) (up : Upsets)
  /-- R124: A GTU descriptor with the LSTM template evaluates the LSTM cell on a tile and writes the state and the output. -/
  | gtuLstm (core : Nat) (up : Upsets)
  /-- R124: A GTU descriptor with the GRU template evaluates the GRU cell. -/
  | gtuGru (core : Nat) (up : Upsets)
  /-- R124: A GTU descriptor with the MGU phase A template computes f, and writes f to the aux handle and f ⊙ h to the out handle. -/
  | gtuMguPhaseA (core : Nat) (up : Upsets)
  /-- R124: A GTU descriptor with the MGU phase B template computes n and h'. -/
  | gtuMguPhaseB (core : Nat) (up : Upsets)
  /-- R124: A GTU descriptor with the SRU template evaluates the SRU cell. -/
  | gtuSru (core : Nat) (up : Upsets)
  /-- R129: A GTU descriptor with template 5 applies a gate program of up to 16 operations to every element of the tile. -/
  | gtuGateProgram (core : Nat) (up : Upsets)
  /-- R127: A GTU descriptor with the intake template copies c_in and h_in to c_out and h_out, substituting the initial state where the step-0 reset bit is set. -/
  | gtuIntake (core : Nat) (up : Upsets)
  /-- R139: A VXE pass descriptor runs its element program over E elements through its bound streams. -/
  | vxePass (core : Nat) (up : Upsets)
  /-- R143: A GXE lookup command starts one thread per index, which resolves and fetches the rows and pools them into bags in index order. -/
  | gxeLookup (core : Nat) (up : Upsets)
  /-- R144: A GXE scatter command sends each gradient row to the home reservoir or the home module for atomic addition under its job group. -/
  | gxeScatter (core : Nat) (up : Upsets)
  /-- R142: The narrow reads of a lookup thread return, and the thread moves on to ORDER and POOL. -/
  | gxeRowReadReturn (core : Nat) (thread : Nat) (up : Upsets) (ue : List Nat)
  /-- R272: The acknowledgement of a scatter addition reaches its thread, its flags are ORed into the data handle, and the token is signalled once every thread is acknowledged. -/
  | scatterAck (core : Nat) (thread : Nat) (up : Upsets)
  /-- R393: A scatter thread that waited in SEND for update-area space or quota makes its addition when room appears. -/
  | scatterSendResume (core : Nat)
  /-- R145: A DMV descriptor with op 0 copies rows between the cistern, the reservoir and device addresses. -/
  | dmvCopy (core : Nat) (up : Upsets) (ue : List Nat)
  /-- R145: A DMV descriptor with op 1 zero-fills its destination rows. -/
  | dmvZeroFill (core : Nat) (up : Upsets) (ue : List Nat)
  /-- R88: A DMV descriptor with op 2 imports MXFP4 blocks as an N4F tensor with shift bytes. -/
  | mxImport (core : Nat) (up : Upsets) (ue : List Nat)
  /-- R146: Once the last descriptor of a chain has been issued, the DMV totals the chain's bytes, requests any permit and starts the chain. -/
  | dmvChainStart (core : Nat) (up : Upsets) (ue : List Nat)
  /-- R146: A DMV descriptor completes when every destination row has been written or staged, and it signals its token. -/
  | dmvDescriptorComplete (core : Nat) (k : Nat)
  /-- R154: The scrub unit writes a corrected cistern row back in a free bank cycle, unless the row has been written first. -/
  | scrubWriteBack (core : Nat)
  /-- R156: Every 65,536 cc the patrol scrubber reads one row of each awake bank, and reloads an uncorrectable resident read-only row. -/
  | patrolScrub (core : Nat) (up : Upsets)
  /-- R172: The last manifest load of a binding completes, and the context becomes runnable. -/
  | bindingComplete (ctx : Nat) (ue : List Nat)
  /-- R188: The zero-fill of rows given up by a context completes, and its handle table entries are released. -/
  | zeroFillComplete (ctx : Nat)
  /-- R201: The stream command CREATE makes a stream entry valid, with its fields from the command and a pending reset. -/
  | streamCreate (fn : Nat) (q : Nat)
  /-- R193: The stream command RESET adds 1 to reset_req where no reset is yet pending for the next chunk. -/
  | streamReset (fn : Nat) (q : Nat)
  /-- R221: The stream command MOVE waits while the stream is RUNNING, then sets MOVING and copies the current block to the new location. -/
  | move (fn : Nat) (q : Nat)
  /-- R221: A MOVE copy ends and opens a group that writes the new location and generation, or, on an uncorrectable row, leaves the stream HELD. -/
  | moveCopyComplete (stream : Nat) (ue : List Nat)
  /-- R201: The stream command SET changes the deadline for chunks that become ready after its group opens. -/
  | stSet (fn : Nat) (q : Nat)
  /-- R218: The stream command RESUME requeues or discards the aborted chunk of a HELD stream, and sets it IDLE. -/
  | resume (fn : Nat) (q : Nat)
  /-- R222: The stream command DELETE waits while the stream is RUNNING or MOVING, then discards its chunks, releases its ring slots and invalidates the entry. -/
  | delete (fn : Nat) (q : Nat)
  /-- R202: A waiting stream command takes effect once its stream leaves the state that blocked it. -/
  | streamCommandResume (stream : Nat)
  /-- R205: A host-submitted chunk descriptor queues a chunk stamped with its submission time. -/
  | chunkDescriptor (fn : Nat) (q : Nat)
  /-- R203: A front-end core writes a feature frame into a stream's ring, or the frame is dropped as an overrun, and the chunk becomes ready at its last frame. -/
  | featureFrame (stream : Nat)
  /-- R207: batch_window µs after the first chunk's ready_time, batch formation proceeds with fewer than W_b chunks. -/
  | batchWindowExpiry (stack : Nat) (ue : List Nat)
  /-- R207: When the stack can take a batch and enough chunks are eligible, the stream controller forms a batch by due_time. -/
  | batchForm (stack : Nat) (ue : List Nat)
  /-- R210: A waiting write to a full exchange row, or a read of an empty one, completes once the row's full bit allows it. -/
  | exchangeRowAccess (core : Nat) (up : Upsets) (ue : List Nat)
  /-- R215: When every invocation has passed its final weir point and the output ring has room, the controller writes state and outputs, opens one group and posts the records. -/
  | batchCommit (stack : Nat)
  /-- R219: At due_time, a chunk whose record has not been posted raises the deadline miss detector, is counted and is marked late. -/
  | deadlineMiss (stream : Nat)
  /-- R197: A write to a stack's enable sets whether it takes batches, and writing 1 clears halted. -/
  | stackEnableWrite (acc : Nat) (stack : Nat) (v : Nat)
  /-- R216: The host writes out_head to report consumed ring positions, which may release a commit that waits for room. -/
  | outHeadWrite (acc : Nat) (stack : Nat) (v : Nat)
  /-- R216: A write to out_base or out_entries resets out_head and the output position to 0. -/
  | outRingConfigWrite (acc : Nat) (stack : Nat) (sub : Nat) (v : Nat)
  /-- R227: A running rate domain produces a sample tick at its computed control cycle. -/
  | sampleTick (domain : Nat)
  /-- R228: Every M-th sample tick is a frame tick, which advances the frame count and stops a domain whose stop is pending. -/
  | frameTick (domain : Nat)
  /-- R229: Writing start_mode 0 stops the domain after its next frame tick. -/
  | domainStopRequest (acc : Nat) (domain : Nat)
  /-- R229: Writing start_mode 1 arms the domain to start on the first valid PPS edge at least 400 control cycles later. -/
  | domainArmPps (acc : Nat) (domain : Nat)
  /-- R229: Writing start_mode 2 arms the domain to start at control cycle start_at, or 4 cycles after the write if start_at is too close. -/
  | domainArmAt (acc : Nat) (domain : Nat)
  /-- R229: At control cycle start_at, an armed domain starts or re-anchors with its new t0. -/
  | domainStartAt (domain : Nat)
  /-- R230: A detected PPS edge is judged valid or rejected, starts domains armed in mode 1, and corrects the period of locked domains. -/
  | ppsEdge (high : Bool)
  /-- R467: No valid PPS edge for 1.1 s while a domain has pps_lock set raises the timing detector. -/
  | ppsLoss
  /-- R232: A write to shared_tick enters shared-tick mode, or ends it so that each domain returns to its own period. -/
  | sharedTickWrite (acc : Nat) (v : Nat)
  /-- R233: The host advances the producer index of an ingress ring through its doorbell. -/
  | ingressTailWrite (part : Nat) (die : Nat) (v : Nat) (cells : Cells)
  /-- R234: The stream controller takes an ingress entry, checks its routing, reads its payload and writes the samples into the channel buffers. -/
  | ingressEntry (part : Nat) (die : Nat) (ue : List Nat)
  /-- R246: At a stream's frame tick, the intake advances its state, runs the loop or slip, and writes the input frame to the front-end exchange rows. -/
  | streamFrameTick (stream : Nat)
  /-- R240: stop_frames consecutive frame ticks with no sample written fix the end sample, and lead-out begins. -/
  | stopTimeout (stream : Nat)
  /-- R236: At least every 100 frames, and when the stream stops, the controller writes the intake running state back to the record. -/
  | intakeStateWriteback (stream : Nat)
  /-- R233: The host advances the consumer index of an egress ring. -/
  | egressHeadWrite (part : Nat) (die : Nat) (v : Nat)
  /-- R249: A write to the table descriptor window is applied as a sluice group, and removes replicas and relocations where R253 requires. -/
  | tableDescriptorWrite (acc : Nat) (offset : Nat) (bytes : List Byte)
  /-- R262: Every sketch_decay ms, every counter of every sketch slot is shifted right by 1. -/
  | sketchDecay
  /-- R263: A read of hot_list returns the selected hot list and empties it. -/
  | hotListRead (acc : Nat)
  /-- R257: A write to mapout_add adds a (table, page) entry to the mapped-out list as a sluice group, or returns range if the list is full. -/
  | mapoutAdd (acc : Nat) (v : Nat)
  /-- R257: A write to mapout_remove removes a (table, page) entry from the mapped-out list. -/
  | mapoutRemove (acc : Nat) (v : Nat)
  /-- R267: The row command PROMOTE locks each listed row, copies it into replica slots with its write-set versions, and opens one group. -/
  | promote (fn : Nat) (q : Nat) (ue : List Nat)
  /-- R267: The row command DEMOTE stages the removal of the listed rows' replicas and opens one group. -/
  | demote (fn : Nat) (q : Nat)
  /-- R267: The row command MIGRATE locks each row, copies its newest committed version to the new address and stages relocation entries. -/
  | migrate (fn : Nat) (q : Nat) (ue : List Nat)
  /-- R267: The row command UNMIGRATE moves rows back to base + r × S and removes their relocation entries. -/
  | unmigrate (fn : Nat) (q : Nat) (ue : List Nat)
  /-- R273: Once the previous window of the table is decided, the apply core locks the rows, applies the optimiser to the accumulators and stages the new rows and state. -/
  | applyWindow (job : Nat) (ue : List Nat)
  /-- R303: When every invocation of a job has passed its final weir point, its applies complete, two-die groups are prepared and the decision latches. -/
  | jobFinalCommit (job : Nat)
  /-- R304: The other die receives PREPARE for a two-die group and answers READY once its parts are staged, or FAILED. -/
  | prepare (group : Nat)
  /-- R304: The coordinator receives READY or FAILED and latches the decision. -/
  | prepareAnswer (group : Nat)
  /-- R284: The mark keeper receives a request from die 1 for a mark and assigns it. -/
  | markRequest (group : Nat)
  /-- R285: Die 1 receives the new published mark from the keeper and updates its copy of P. -/
  | publishedMarkUpdate
  /-- R296: Every 64 noc cycles the two sluice controllers exchange their oldest pins over the bridge. -/
  | oldestPinExchange
  /-- R294: The sluice command PIN holds the slot at the P of its die for the issuing partition. -/
  | pin (fn : Nat) (q : Nat)
  /-- R294: The sluice command UNPIN frees the slot. -/
  | unpin (fn : Nat) (q : Nat)
  /-- R294: The sluice command MARK reports P and changes nothing. -/
  | mark (fn : Nat) (q : Nat)
  /-- R299: A die with eligible committed versions and no drain batch running drains up to 4,096 of them to memory and to the replicas under a permit. -/
  | drain (die : Nat)
  /-- R301: A staging that waited for write-set space proceeds once drains have freed enough. -/
  | stagingResume (die : Nat)
  /-- R309: The home accepts an update parcel into its update area and acknowledges it. -/
  | parcel (m : FabMsg)
  /-- R309: The source receives the acknowledgement of an accumulated parcel, with its flags. -/
  | parcelAck (m : FabMsg) (up : Upsets)
  /-- R309: A home receives COMMIT or DISCARD for a job's parcels. -/
  | verdict (m : FabMsg)
  /-- R310: A module receives another module's closed step C and re-runs the advance of pending turns. -/
  | closedStep (m : FabMsg)
  /-- R380: A home discards the parcels of an aborted retry span. -/
  | withdraw (m : FabMsg)
  /-- R311: A pooled home applies a turn (s, m) once every module of update_set has closed step s or timed out. -/
  | turnApply (table : Nat) (ue : List Nat)
  /-- R311: A module whose closed step stays below s for step_timeout is treated as closed for s. -/
  | stepTimeout (module : Nat)
  /-- R310: A write to step_close raises the steps closed by the driver, and a lower value is ignored. -/
  | stepCloseWrite (acc : Nat) (v : Nat)
  /-- R313: A receiving module installs a replica refresh as a version under a local mark in a refresh-receiver group. -/
  | refresh (m : FabMsg)
  /-- R381: The target stages a replica slot and its directory entry in a refresh-receiver group, opens it and acknowledges it. -/
  | replicaInstall (m : FabMsg)
  /-- R381: The target removes a replica in a refresh-receiver group and acknowledges it. -/
  | replicaRemove (m : FabMsg)
  /-- R314: Every audit_interval ms the home compares each replica with the home copy and settles differences under Table 9. -/
  | audit (table : Nat) (row : Nat)
  /-- R317: Writing sluice_begin opens a dictionary sluice for the accessor. -/
  | sluiceBegin (acc : Nat) (v : Nat)
  /-- R317: Writing sluice_commit checks quiescence and limits and applies every staged entry at one mark. -/
  | sluiceCommit (acc : Nat) (v : Nat)
  /-- R318: Writing sluice_abort discards the open sluice, whose status becomes ABORTED. -/
  | sluiceAbort (acc : Nat) (v : Nat)
  /-- R318: A sluice left open for dict_sluice_timeout is discarded with status TIMED_OUT. -/
  | dictSluiceTimeout (acc : Nat)
  /-- R323: A memory channel with no request for 1 µs enters its power-down mode. -/
  | channelPowerDown (range : Nat) (channel : Nat)
  /-- R332: A memory channel issues the oldest request whose bank is ready, subject to ageing. -/
  | memoryRequest (range : Nat) (channel : Nat) (check : TransferCheck)
  /-- R333: A write-combining line held for wcb_age is written to memory. -/
  | wcbAgeExpiry (range : Nat) (line : Nat)
  /-- R341: The controller's patrol scrubber reads every unit of its range once in each scrub_hours. -/
  | memoryPatrol (range : Nat) (unit : Nat)
  /-- R344: ROW_REPAIR copies a row aside, blocks its bank, performs post-package repair and writes the row back. -/
  | rowRepair (acc : Nat)
  /-- R344: The repair ends, the bank is unblocked, and the result is recorded and raised. -/
  | rowRepairComplete (lost : List Nat)
  /-- R345: PAGE_REMAP copies each page holding the row to the current last page and writes a remap entry. -/
  | pageRemap (acc : Nat)
  /-- R344: QUERY_SPARES reports the spare rows left in the bank of the location word. -/
  | querySpares (acc : Nat)
  /-- R338: CLEAR_SUSPECT clears the suspect mark of a channel. -/
  | clearSuspect (acc : Nat)
  /-- R347: PLAN computes the new layout of a range without the masked channels and reports planned_size. -/
  | plan (acc : Nat)
  /-- R349: START runs the reflow: a pre-pass to the parking area, then the main pass from the highest index down. -/
  | start (acc : Nat)
  /-- R347: CANCEL discards a plan that has not yet started. -/
  | cancel (acc : Nat)
  /-- R349: A reflow step reads index L into the step buffer and writes every granule whose new location is at L. -/
  | reflowStep (ue : List Nat)
  /-- R353: After the last step, the new channels, remap table and size are installed, and the repair record and status are written. -/
  | reflowDone
  /-- R354: A write to port_dr shifts the bits into the selected data register of the stack's IEEE 1500 port and keeps the bits shifted out. -/
  | portDrWrite (acc : Nat) (offset : Nat) (bytes : List Byte)
  /-- R493: A host read with no completion within the programmed completion timeout is treated as an error completion. -/
  | hostReadTimeout (fn : Nat) (q : Nat)
  /-- R361: A receive lane fails on loss of signal or lock, or on too many errors, and sparing starts or the spare is marked failed. -/
  | laneFail (engine : Nat) (lane : Nat)
  /-- R365: A receiver accepts a data flit in sequence or discards it and sends a NAK, then consumes or forwards its messages. -/
  | dataFlit (engine : Nat) (f : Flit)
  /-- R364: A control flit delivers acknowledgements, a NAK, credits and spare requests or acknowledgements. -/
  | controlFlit (engine : Nat) (f : CtlFlit)
  /-- R365: After 2 µs without progress of ack_seq, the sender replays its held flits. -/
  | replayTimeout (engine : Nat)
  /-- R365: The receiver sends an acknowledgement at least every 64 data flits or 200 ns. -/
  | ackTimer (engine : Nat)
  /-- R367: No ack_seq progress for 100 µs while flits are held takes the link DOWN. -/
  | ackProgressTimeout (engine : Nat)
  /-- R367: Every 1 s, a DOWN link with its enable bit set retrains. -/
  | linkRetrain (engine : Nat)
  /-- R486: Link training completes the lane-number exchange, codeword lock and deskew, and the link comes UP. -/
  | linkUp (engine : Nat) (peer : Nat) (lanesOk : Bool)
  /-- R367: A write to link_enable permits engines to train, or takes down those whose bit is cleared. -/
  | linkEnableWrite (acc : Nat) (v : Nat)
  /-- R377: A change of route table or trunk entries takes effect, and ordered messages are held until earlier ones are answered. -/
  | routeTableWrite (acc : Nat) (offset : Nat) (bytes : List Byte)
  /-- R378: A message still waiting for a route after fabric_timeout is unreachable and is handled by class. -/
  | fabricTimeout (id : Nat)
  /-- R376: The sender receives the last delivered sequence number of a DOWN link and moves the later held flits. -/
  | linkReport (engine : Nat) (seq : Nat)
  /-- R379: The home serves a remote row read from its write set, memory or its own replica slot. -/
  | rowRead (m : FabMsg) (lost : List Nat)
  /-- R379: The requester receives a row and the mark of its version. -/
  | rowData (m : FabMsg) (up : Upsets)
  /-- R382: A destination serves a class-3 or class-4 READ of 512 B rows within its fabric windows. -/
  | read (m : FabMsg) (lost : List Nat)
  /-- R312: A destination stages a class-3 or class-4 WRITE, a remote job-group write opening as its own group, and acknowledges it. -/
  | write (m : FabMsg)
  /-- R382: The requester receives the rows of a READ. -/
  | readData (m : FabMsg) (up : Upsets) (ue : List Nat)
  /-- R370: The source receives the acknowledgement of an ordered request. -/
  | ack (m : FabMsg) (up : Upsets) (ue : List Nat)
  /-- R385: A module serves a peer dictionary read of permitted entries as of its P. -/
  | dictRead (m : FabMsg)
  /-- R385: The requester receives the value of a peer dictionary read. -/
  | dictData (m : FabMsg)
  /-- R389: partition_op CREATE makes a NONE partition ACTIVE and clears its counters and account. -/
  | partitionCreate (acc : Nat) (part : Nat)
  /-- R390: partition_op TEARDOWN stops queues, kills contexts, deletes streams, releases pins and tables, and resets the partition to NONE. -/
  | teardown (acc : Nat) (part : Nat)
  /-- R397: The context command CREATE binds a program image on a core and makes the context IDLE. -/
  | contextCreate (fn : Nat) (q : Nat)
  /-- R397: The context command KILL ends the context from any state and zero-fills its rows. -/
  | kill (fn : Nat) (q : Nat)
  /-- R397: The context command SWAP swaps out out_context and then restores the incoming context. -/
  | swap (fn : Nat) (q : Nat)
  /-- R397: The context command SWITCH makes a READY context run from the running context's next weir point. -/
  | switch (fn : Nat) (q : Nat)
  /-- R411: The context command EXPORT copies the image of a SWAPPED context saved between invocations. -/
  | ctxExport (fn : Nat) (q : Nat)
  /-- R411: The context command IMPORT creates a SWAPPED context from an image. -/
  | ctxImport (fn : Nat) (q : Nat)
  /-- R404: The last spilled row reaches its controller, the permit is returned, the overlapping rows are zero-filled and the context becomes SWAPPED. -/
  | spillComplete (ctx : Nat) (up : Upsets)
  /-- R406: A restore finishes binding and reloading, and the context becomes READY or IDLE. -/
  | restoreComplete (ctx : Nat) (ue : List Nat)
  /-- R413: When every resident context of a core has been blocked for all_blocked_threshold and a qualifying SWAPPED context waits, ALL_BLOCKED is raised. -/
  | allBlocked (core : Nat)
  /-- R415: Every 100 µs, energy is estimated per account from activity counts. -/
  | energyEstimate
  /-- R415: Every 10 s, the DMC compares the accounts with the measured input energy and rescales the coefficients. -/
  | energyCalibration
  /-- R416: A write to snapshot_select latches every counter of the chosen account at one noc cycle per die. -/
  | snapshot (acc : Nat) (account : Nat)
  /-- R425: The host writes SQ_TAIL to advance the submission producer index of a queue pair. -/
  | sqTailWrite (fn : Nat) (q : Nat) (v : Nat) (cells : Cells)
  /-- R437: The host writes CQ_HEAD to free completion slots, which may release waiting records. -/
  | cqHeadWrite (fn : Nat) (q : Nat) (v : Nat)
  /-- R427: A fetch of up to 16 descriptors returns, and the queue engine dispatches them in index order to their units. -/
  | descriptorFetch (fn : Nat) (q : Nat)
  /-- R431: A job descriptor, or a linked run of them, queues one invocation per descriptor after checking the contexts. -/
  | job (fn : Nat) (q : Nat)
  /-- R432: Before segment 0, the CSQ loads the argument rows, and the job ends ABORTED with cause argument if the load fails. -/
  | argumentLoad (core : Nat) (ue : List Nat)
  /-- R432: After a COMPLETED decision and P passing its marks, the CSQ stores the result rows. -/
  | resultStore (job : Nat) (up : Upsets)
  /-- R433: A job abort ends the target job ABORTED with cause driver if its decision has not latched. -/
  | jobAbort (fn : Nat) (q : Nat)
  /-- R430: A nop descriptor has no effect beyond its completion. -/
  | nop (fn : Nat) (q : Nat)
  /-- R435: The completion collector accepts a record into its buffer, in order, for its CQ. -/
  | completionRecordAccept (die : Nat)
  /-- R436: The collector writes a batch of records, then the producer index, then any due MSI-X message. -/
  | cqWrite (fn : Nat) (q : Nat)
  /-- R438: coalesce_time µs after the first unsignalled record, the queue pair's vector is signalled. -/
  | coalesceTimeout (fn : Nat) (q : Nat)
  /-- R426: A write to a queue pair's enable checks the addresses and enables the pair, or stops dispatch when 0 is written. -/
  | queueEnable (acc : Nat) (fn : Nat) (q : Nat) (v : Nat)
  /-- R422: A host link leaves DL_Up, and its roles and die traffic fail over to the other link with unacknowledged requests reissued. -/
  | hostLinkDown (link : Nat) (reissued : Nat)
  /-- R422: A host link returns to DL_Up, and the host link event is raised. -/
  | hostLinkUp (link : Nat) (width : Nat) (rate : Nat)
  /-- R450: An error, Unsupported Request or poisoned completion for a fetch or record write stops its queue pair. -/
  | hostErrorCompletion (fn : Nat) (q : Nat)
  /-- R423: A Function Level Reset of a VF disables its queues and kills its contexts, and one of the PF tears down every partition. -/
  | functionLevelReset (fn : Nat)
  /-- R443: DICT_CTRL go with op 1 reads a dictionary value through the mailbox. -/
  | dictCtrlRead (fn : Nat) (idx : Nat) (sub : Nat) (offset : Nat) (len : Nat)
  /-- R443: DICT_CTRL go with op 2 writes a dictionary value through the mailbox, or stages it in an open sluice. -/
  | dictCtrlWrite (fn : Nat) (idx : Nat) (sub : Nat) (offset : Nat) (bytes : List Byte)
  /-- R442: A write to a dictionary entry that has no row of its own stores the value as a group of its own. -/
  | dictionaryWrite (acc : Nat) (idx : Nat) (sub : Nat) (offset : Nat) (bytes : List Byte)
  /-- R440: A read of an RC entry by the PF or the management endpoint clears it. -/
  | rcRead (acc : Nat) (idx : Nat) (sub : Nat)
  /-- R479: Configuring a function's event queue posts the last record of each detector raised before READY. -/
  | eventEntriesWrite (acc : Nat) (fn : Nat) (v : Nat)
  /-- R444: The management endpoint takes its I3C dynamic address by ENTDAA. -/
  | entdaa (addr : Nat)
  /-- R444: The MCTP control command Set Endpoint ID sets the endpoint ID. -/
  | setEndpointId (op : Nat) (eid : Nat)
  /-- R444: The MCTP control command Get Endpoint ID returns the endpoint ID. -/
  | getEndpointId
  /-- R444: The MCTP control command Get MCTP Version Support returns the versions supported. -/
  | getMctpVersionSupport (ty : Nat)
  /-- R444: The MCTP control command Get Message Type Support returns the message types supported. -/
  | getMessageTypeSupport
  /-- R444: The MCTP control command Get Vendor Defined Message Support returns the vendor message support. -/
  | getVendorDefinedMessageSupport (sel : Nat)
  /-- R445: The MCTP vendor message READ reads a dictionary entry for management. -/
  | mctpRead (req : Nat) (idx : Nat) (sub : Nat) (offset : Nat) (len : Nat)
  /-- R445: The MCTP vendor message WRITE writes a dictionary entry for management. -/
  | mctpWrite (req : Nat) (idx : Nat) (sub : Nat) (offset : Nat) (bytes : List Byte)
  /-- R464: The PLDM command RequestUpdate begins a firmware transfer. -/
  | requestUpdate
  /-- R464: The PLDM command PassComponentTable passes the components of the image. -/
  | passComponentTable (comps : List (Nat × Nat))
  /-- R464: The PLDM command UpdateComponent transfers a component into the inactive slot. -/
  | updateComponent (comp : Nat)
  /-- R464: The PLDM command TransferComplete ends the transfer. -/
  | transferComplete (ok : Bool)
  /-- R464: The PLDM command VerifyComplete reports the check of the image's digest against its signed manifest. -/
  | verifyComplete (ok : Bool)
  /-- R464: The PLDM command ApplyComplete ends the writing of the inactive slot. -/
  | applyComplete (ok : Bool)
  /-- R465: The PLDM command ActivateFirmware starts activation of the new image. -/
  | activateFirmware (compatible : Bool)
  /-- R456: The service op ROTATE moves a logical core onto its cluster's spare at its next weir point. -/
  | rotate (acc : Nat)
  /-- R456: The hand-over copy completes, one group writes the core map, and the vacated core is zero-filled and self-tested. -/
  | handoverComplete (up : Upsets)
  /-- R458: The service op REPLACE moves a logical core whose physical core is FAULTED onto the cluster's spare. -/
  | replace (acc : Nat)
  /-- R458: The service op SELFTEST runs in-field self-test on a SPARE or FAILED core. -/
  | serviceSelftest (acc : Nat)
  /-- R458: The service op RETIRE makes a SPARE core FAILED. -/
  | retire (acc : Nat)
  /-- R458: The service op CLEAR_FUSE clears the VXE fuse record of a SPARE core. -/
  | clearFuse (acc : Nat)
  /-- R461: The service op DMC_SWITCH swaps the active and standby roles of the DMCs. -/
  | dmcSwitch (acc : Nat)
  /-- R465: The service op ACTIVATE_FW starts firmware activation from the PF. -/
  | activateFw (acc : Nat) (compatible : Bool)
  /-- R459: A core's in-field self-test ends, and the core becomes SPARE, SPARE with 32 lanes, or FAILED.
The words are those that generator banks put out in the test of R108 where they are not those of the design (bank: 0 VXE, 1 GTU, 2 GXE,
words). -/
  | coreSelftestComplete (phys : Nat) (result : Nat) (words : List (Nat × List W64))
  /-- R460: Every 1 ms the active DMC sends its heartbeat with its mirrored state to the standby. -/
  | heartbeat
  /-- R461: The standby DMC misses 4 heartbeats and takes over the management endpoint. -/
  | heartbeatTimeout
  /-- R465: Activation switches the next firmware component to the new code. -/
  | componentSwitch
  /-- R466: A component that does not report ready within 100 ms of its switch starts a rollback. -/
  | componentReadyTimeout
  /-- R470: A write of an arm word to inject_arm arms or disarms injection for a detector. -/
  | injectArm (acc : Nat) (det : Nat) (v : Nat)
  /-- R488: TRST_N asynchronously resets the test access port. -/
  | tapReset
  /-- R488: The TAP instruction BYPASS selects the bypass register. -/
  | bypass
  /-- R488: The TAP instruction IDCODE selects the identification register. -/
  | idcode
  /-- R488: The TAP instruction SAMPLE/PRELOAD samples or preloads the boundary register. -/
  | samplePreload (bits : Nat)
  /-- R488: The TAP instruction EXTEST drives the boundary register while SYS_RESET_N is low, and otherwise acts as BYPASS. -/
  | extest
  /-- R488: The TAP instruction CLAMP acts only while SYS_RESET_N is low, and otherwise as BYPASS. -/
  | clamp
  /-- R488: The TAP instruction HIGHZ releases the outputs only while SYS_RESET_N is low, and otherwise acts as BYPASS. -/
  | highz
  /-- R362: Once the receiver has deskewed the spare physical lane by its codeword counter, it switches the failed logical lane to physical lane 8 at a codeword boundary and sends spare_ack. -/
  | spareSwitch (engine : Nat) (tx : Bool)
  /-- R470: A lane that an injection on the lane loss detector treated as dead returns to service by the sparing sequence after 1 s. -/
  | injectedLaneReturn (engine : Nat) (lane : Nat)
  /-- R453: An enabled optical link that has not come UP within 2 s of entry to SERVING, or of the setting of its link_enable bit, sets DEGRADED cause bit 3. -/
  | linkUpTimeout (engine : Nat)
  /-- R467: The active DMC finds that the standby DMC has failed, marks it failed, sets DEGRADED cause bit 5 and raises the DMC detector with cause 1. -/
  | standbyLost
  /-- R273: The update-path converter finishes an apply window, after which its sluice group may be prepared and its decision latched. -/
  | applyWindowComplete (job : Nat)
  /-- R299: The writes of a drain batch to memory and to the replicas complete, the drained versions are removed from the write sets and the drain permit is returned. -/
  | drainBatchComplete (die : Nat)
  /-- R220: The last state slice of a non-resident batch is staged, the state wait is counted and the batch's invocations may start. -/
  | lastSliceStaged (stack : Nat)
  /-- R345: The copy of a retired page to the last page ends, the remap entry is written, the size falls and the waiting accesses proceed. -/
  | pageRemapComplete (lost : List Nat)
  /-- R436: The completion of the collector's zero-length read on another link arrives, and the job's completion record may then be posted. -/
  | zeroLengthReadComplete (fn : Nat) (q : Nat)
  /-- R420: A PCIe configuration write, such as one to the SR-IOV control or NumVFs of the PF, takes effect on both links. -/
  | configurationWrite (o : CfgWrite)
  /-- R446: A PLDM for Base Specification (type 0) request over MCTP is answered by the active DMC. -/
  | pldmBaseRequest (bytes : List Byte)
  /-- R446: A PLDM for Platform Monitoring and Control (type 2) request reads the numeric sensors of 0x2010 or the state sensor of the device state and DEGRADED. -/
  | pldmPlatformRequest (sensor : Nat)
  deriving DecidableEq, Repr

end Sys2Proof
end

