-- ==== Sys2Proof/Decode.lean ====
section
/-! DEFINITION. Commands from words: the table of commands gives no row any bits. -/

namespace Sys2Proof

/-- The command that a word spells by the table's bits. No row of the table has a field or a bit of its own, so that no
word spells a command. -/
def decodeTableWord (_nbits _w : Nat) : Option Instr := none

end Sys2Proof
end

