-- ==== Sys2Proof/Config.lean ====
section
/-! DEFINITION. The free values: what the manual leaves open. None has a body, so nothing can be proved of its value.
The first argument of a numbered draw is the free-value counter of State (log entry 6). -/

namespace Sys2Proof.Config

/-- Sign and payload of a NaN result: R136 says only that NaNs are quiet and propagate (log entry 7). -/
opaque nanBits : W32 → W32 → W32 → W32

/-- Which zero min and max give for +0 and −0 (R135; log entry 7). -/
opaque zeroPick : W32 → W32 → Bool

/-- rsqrt within 1 ulp (Table 15 of 04; log entry 8). -/
opaque rsqrtCand : W32 → W32

/-- exp2 within 2 ulp for normal results (Table 15 of 04; log entry 8). -/
opaque exp2Cand : W32 → W32

/-- log2 within the error of Table 15 of 04 (log entry 8). -/
opaque log2Cand : W32 → W32

/-- The logistic function within 2^−21 (R125; log entry 8). -/
opaque sigmaCand : W32 → W32

/-- tanh of a magnitude, within 2^−18 (R125; log entry 8). -/
opaque tanhCand : W32 → W32

/-- A value of the ASRC filter from one rate to another: tap k ÷ 128, phase k mod 128. The taps' values are not given (R242; log
entry 9). -/
opaque asrcTap : Nat → Nat → Nat → W32

/-- A candidate for the FP32 sum of samples weighted by a filter that is interpolated linearly between two phases, at a fraction in units
of 2^−32: the order of its additions and their roundings are not given (R242; log entry 9). -/
opaque asrcSum : List (W32 × W32 × W32 × Nat) → W32

/-- First element of a vector or matrix of a GTU handle of a number of rows: 0 c, 1 h, 2 to 5 p0 to p3, 6 h0, 7 c0,
8 the aux tile. R131 names one handle for several vectors and states no order (log entry 13). -/
opaque gtuBase : Nat → Nat → Nat

/-- Elements of a batch row in a GTU out handle of a number of rows and a format: R131 gives the handle and not its row length (log
entry 13). -/
opaque gtuOutLen : Nat → Nat → Nat

/-- The controller's own mapping (R329; log entry 10): of the 128 DRAM rows that share a channel's part of a physical page, the one
that holds a 32 B unit, by range, channel and channel offset ÷ 32. -/
opaque rowSlot : Nat → Nat → Nat → Nat

/-- The numbers that the controller gives its banks and rows, by range and channel: a row's own number is combined with this one
(R329; log entry 10). -/
opaque rowKey : Nat → Nat → Nat

/-- The spare rows that a bank has as made, by bits 63 to 49 of a location word (R344; log entry 10). -/
opaque spareRows : Nat → Nat

/-- Contents of a data register of a stack's test port before anything is shifted into it, by stack and instruction: the
instruction set is the stack's (R354; log entry 69). -/
opaque portReg : Nat → Nat → Nat

/-- Contents of a row and of a handle entry, and a rill word, that an unpredictable result leaves (R9, R12; log entry 65). The
operands are the free-value counter and a place. -/
opaque freeRow : Nat → Nat → Row
opaque freeWord : Nat → Nat → W32

/-- An element of a row of a table whose row format is a reserved code, by the code, the row's bytes and the element (R9; log
entry 65). -/
opaque reservedElem : Nat → List Byte → Nat → W32

/-- The layer of an image whose conversion window is one with a layer of another image: Degil splits windows over cores and
R71, R80 give no field that says which (log entry 34). The operands are the first image's id, its layer, and the other image's
id. -/
opaque sharedLayer : Nat → Nat → Nat → Option Nat

/-- A free value of 64 bits, one for each value of the free-value counter (log entry 6). -/
opaque freeValue : Nat → W64

/-- The values the fuses hold: identity, JEP106 code, version strings (R447, R488; log entry 3). -/
opaque fusedBytes : Nat → List Byte

/-- The version string of a firmware image, by the draw of the free-value counter at which it was verified (R447, R471: it is
the image's own; log entry 3). -/
opaque imageVersion : Nat → List Byte

/-- The unit that owns gating_enable is quiescent at a control cycle: R43 makes the entry RWQ and names no owning unit (log
entry 33). -/
opaque gatingQuiet : Nat → Bool

/-- Energy in mJ of an account's activity over one estimate, from the rise of its counts and the scale in force: the coefficients are
common to every account, and R415 gives no value (log entry 11). -/
opaque energyOf : List Nat → W32 → Nat

/-- Static and idle energy in mJ of an estimate, by its number (R415; log entry 11). -/
opaque idleEnergy : Nat → Nat

/-- The calibration factor that the DMC computes from the accounts' sum and the measured energy (R415; log entry 11). -/
opaque energyScale : Nat → Nat → W32 → W32

/-- A completed response body of PLDM for Base Specification, which DSP0240 defines and the manual does not
(R446; log entry 12). -/
opaque pldmBase : List Byte → List Byte

/-- The version entries with which the endpoint answers Get MCTP Version Support for a message type: the standards number them,
and the manual does not (R444; log entry 12). -/
opaque mctpVersions : Nat → List Byte

/-- What a register of a VXE lane holds before the pass's program writes it, and after a reserved opcode (R132 and R135
give no value; log entry 14). The operands are the free-value counter, the element, and the register's number, to which a
reserved opcode at place i of the program adds 32 × (i + 1). -/
opaque vxeReg : Nat → Nat → Nat → W32

/-- Row of a stack's exchange area for a core, a kind of contents and an index: Degil fixes the layout (R210; log entry
25). -/
opaque exchangeRow : Nat → Nat → Nat → Nat → Nat

end Sys2Proof.Config
end

