-- ==== Sys2Proof/Machine/Bits.lean ====
section
/-! DEFINITION. Bit fields, byte order, wrapping counts and saturating counts (R8). -/

namespace Sys2Proof.Machine

/-- Field [hi:lo] of a word, as a number (R8). -/
def fld {n : Nat} (w : BitVec n) (hi lo : Nat) : Nat := (w.toNat >>> lo) % 2 ^ (hi + 1 - lo)

/-- Bit i of a word. -/
def bitAt {n : Nat} (w : BitVec n) (i : Nat) : Bool := w.toNat.testBit i

/-- Place v in field [hi:lo] of a word under construction, whose other fields are added likewise. -/
def put (hi lo v : Nat) : Nat := (v % 2 ^ (hi + 1 - lo)) <<< lo

/-- Bytes, least significant first (R8), as a number. -/
def leNat : List Byte → Nat
  | [] => 0
  | b :: bs => b.toNat + 256 * leNat bs

/-- The n low bytes of v, least significant first (R8). -/
def leBytes : Nat → Nat → List Byte
  | 0, _ => []
  | n + 1, v => BitVec.ofNat 8 v :: leBytes n (v / 256)

/-- The bytes of a word, least significant first. -/
def wordBytes {n : Nat} (w : BitVec n) : List Byte := leBytes (n / 8) w.toNat

/-- Bit i of a mask held as a number. -/
def maskBit (m i : Nat) : Bool := m.testBit i

/-- A mask with bit i set. -/
def maskSet (m i : Nat) : Nat := m ||| (1 <<< i)

/-- A mask with bit i clear. -/
def maskClear (m i : Nat) : Nat := if m.testBit i then m - (1 <<< i) else m

/-- The bits set below bit n of a mask, counted. -/
def maskCount : Nat → Nat → Nat
  | 0, _ => 0
  | n + 1, m => (if m.testBit n then 1 else 0) + maskCount n m

/-- The places of the bits set below n, rising. -/
def maskList (n m : Nat) : List Nat := (List.range n).filter fun i => m.testBit i

/-- Division rounded up. -/
def ceilDiv (a b : Nat) : Nat := (a + b - 1) / b

/-- A count that stays at its greatest value. -/
def satAdd (width v n : Nat) : Nat := min (v + n) (2 ^ width - 1)

/-- The two's-complement value of an n-bit number. -/
def signed (n v : Nat) : Int := if v % 2 ^ n < 2 ^ (n - 1) then (v % 2 ^ n : Nat) else (v % 2 ^ n : Nat) - (2 ^ n : Int)

/-- An integer in n-bit two's complement. -/
def unsigned (n : Nat) (v : Int) : Nat := (v % (2 ^ n : Int)).toNat

def boolNat (b : Bool) : Nat := if b then 1 else 0

/-- The signed difference a − b of two n-bit positions (R237). -/
def posDiff (n a b : Nat) : Int := signed n (a + 2 ^ n - b % 2 ^ n)

/-- v held between lo and hi (02: clamp). -/
def clampInt (v lo hi : Int) : Int := max lo (min v hi)

/-- The first element of a list that meets p, and the list without it. -/
def takeFirst {α : Type} (p : α → Bool) : List α → Option (α × List α)
  | [] => none
  | a :: as => if p a then some (a, as) else (takeFirst p as).map fun r => (r.1, a :: r.2)

end Sys2Proof.Machine
end

