-- ==== Sys2Proof/Machine/Float.lean ====
section
/-! DEFINITION. Exact values and their rounding: FP32, BF16 and FP16 (R136, R65, R117, R274).
A finite value is ± m × 2^e, kept exactly; each operation forms its exact result and rounds it once. -/

namespace Sys2Proof.Machine

/-- A value: NaN, an infinity, or a signed magnitude m × 2^e with the sign of zero kept. -/
inductive FV where
  | nan
  | inf (neg : Bool)
  | fin (neg : Bool) (m : Nat) (e : Int)
  deriving DecidableEq, Repr

/-- A number of bits of a magnitude. -/
def bitLen (m : Nat) : Nat := if m = 0 then 0 else Nat.log2 m + 1

/-- A binary float format: exponent bits and fraction bits, with subnormals, infinities and NaNs. -/
structure Fmt where
  ebits : Nat
  fbits : Nat
  deriving DecidableEq, Repr

def fmtF32 : Fmt := ⟨8, 23⟩
def fmtBF16 : Fmt := ⟨8, 7⟩
def fmtF16 : Fmt := ⟨5, 10⟩
/-- E8M3 (Table 6 of 02). -/
def fmtE8M3 : Fmt := ⟨8, 3⟩

def Fmt.bias (f : Fmt) : Int := (2 ^ (f.ebits - 1) : Nat) - 1
/-- Weight of the last fraction bit of a subnormal. -/
def Fmt.emin (f : Fmt) : Int := 1 - f.bias - f.fbits

/-- The value that a pattern of the format holds. -/
def Fmt.decode (f : Fmt) (w : Nat) : FV :=
  let frac := w % 2 ^ f.fbits
  let ex := (w >>> f.fbits) % 2 ^ f.ebits
  let neg := (w >>> (f.fbits + f.ebits)) % 2 = 1
  if ex = 2 ^ f.ebits - 1 then (if frac = 0 then .inf neg else .nan)
  else if ex = 0 then .fin neg frac f.emin
  else .fin neg (2 ^ f.fbits + frac) (f.emin + (ex - 1 : Nat))

/-- Ties of a rounding to nearest. -/
inductive Ties where
  | even
  | away
  deriving DecidableEq, Repr

/-- m × 2^e (plus something below m's last bit, where sticky) rounded to the format's grid:
the integer on the grid, the grid's weight, and whether the rounding changed the value. -/
def Fmt.grid (f : Fmt) (ties : Ties) (m : Nat) (e : Int) (sticky : Bool) : Nat × Int × Bool :=
  let te : Int := max (e + bitLen m - (f.fbits + 1)) f.emin
  if te ≤ e then (m <<< (e - te).toNat, te, sticky)
  else
    let sh := (te - e).toNat
    let q := m >>> sh
    let r := m % 2 ^ sh
    let half := 2 ^ (sh - 1)
    let up := half < r || (r = half && (sticky || ties = .away || q % 2 = 1))
    (if up then q + 1 else q, te, sticky || r ≠ 0)

/-- Flag bits of Table 16 of 04. -/
def flagInvalid : Nat := 1
def flagDivZero : Nat := 2
def flagOverflow : Nat := 4
def flagUnderflow : Nat := 8
def flagInexact : Nat := 16
def flagNanInput : Nat := 32
def flagSaturated : Nat := 64
def flagSrcMxe : Nat := 256
def flagSrcGtu : Nat := 512
def flagSrcVxe : Nat := 1024
def flagSrcGxe : Nat := 2048

/-- The pattern of ± q × 2^te, q on the format's grid, with the flags that overflow and inexactness give
(Table 16 of 04). A finite value beyond the range becomes an infinity. -/
def Fmt.encode (f : Fmt) (neg : Bool) (q : Nat) (te : Int) (inexact : Bool) : Nat × Nat :=
  let s := boolNat neg <<< (f.fbits + f.ebits)
  let full := 2 ^ (f.fbits + 1)
  let (q, te) := if q = full then (q / 2, te + 1) else (q, te)
  let ix := if inexact then flagInexact else 0
  if q < 2 ^ f.fbits then (s + q, ix ||| (if inexact then flagUnderflow else 0))
  else
    let ex := (te - f.emin).toNat + 1
    if 2 ^ f.ebits - 1 ≤ ex then
      (s + ((2 ^ f.ebits - 1) <<< f.fbits), flagInexact ||| flagOverflow)
    else (s + (ex <<< f.fbits) + (q - 2 ^ f.fbits), ix)

/-- Round a finite magnitude to the format: pattern and flags. -/
def Fmt.round (f : Fmt) (ties : Ties) (neg : Bool) (m : Nat) (e : Int) (sticky : Bool := false) : Nat × Nat :=
  if m = 0 && !sticky then (boolNat neg <<< (f.fbits + f.ebits), 0)
  else
    let (q, te, ix) := f.grid ties m e sticky
    f.encode neg q te ix

/-- A quiet NaN whose sign and payload are free (log entry 7). -/
def qnan (a b c : W32) : W32 := 0x7FC00000#32 ||| (Config.nanBits a b c &&& 0x803FFFFF#32)

/-- A NaN pattern of the format without a payload choice: R59's pattern. -/
def Fmt.nanPattern (f : Fmt) : Nat := ((2 ^ (f.ebits + 1) - 1) <<< (f.fbits - 1))

def dec32 (w : W32) : FV := fmtF32.decode w.toNat

def FV.isNan : FV → Bool
  | .nan => true
  | _ => false

def FV.isInf : FV → Bool
  | .inf _ => true
  | _ => false

def FV.isZero : FV → Bool
  | .fin _ m _ => m = 0
  | _ => false

def FV.neg? : FV → Bool
  | .nan => false
  | .inf s => s
  | .fin s _ _ => s

def FV.negate : FV → FV
  | .nan => .nan
  | .inf s => .inf (!s)
  | .fin s m e => .fin (!s) m e

def FV.abs : FV → FV
  | .nan => .nan
  | .inf _ => .inf false
  | .fin _ m e => .fin false m e

/-- Exact product; 0 × ∞ is invalid (Table 16 of 04). -/
def FV.mul : FV → FV → FV × Bool
  | .nan, _ => (.nan, false)
  | _, .nan => (.nan, false)
  | .inf s, .inf t => (.inf (s != t), false)
  | .inf s, .fin t m _ => if m = 0 then (.nan, true) else (.inf (s != t), false)
  | .fin s m _, .inf t => if m = 0 then (.nan, true) else (.inf (s != t), false)
  | .fin s m e, .fin t n f => (.fin (s != t) (m * n) (e + f), false)

/-- Signed integer of ± m. -/
def sgn (neg : Bool) (m : Nat) : Int := if neg then -(m : Int) else m

/-- Exact sum; ∞ − ∞ is invalid. An exactly zero sum is −0 only when both terms are −0 (R117, R136). -/
def FV.add : FV → FV → FV × Bool
  | .nan, _ => (.nan, false)
  | _, .nan => (.nan, false)
  | .inf s, .inf t => if s = t then (.inf s, false) else (.nan, true)
  | .inf s, .fin _ _ _ => (.inf s, false)
  | .fin _ _ _, .inf t => (.inf t, false)
  | .fin s m e, .fin t n f =>
    let g := min e f
    let v := sgn s (m <<< (e - g).toNat) + sgn t (n <<< (f - g).toNat)
    if v = 0 then (.fin (s && t) 0 g, false) else (.fin (v < 0) v.natAbs g, false)

/-- A rounded FP32 result with its flags. Its operands name the free NaN. -/
def round32 (v : FV × Bool) (a b c : W32) : W32 × Nat :=
  match v with
  | (.nan, bad) => (qnan a b c, if bad then flagInvalid else 0)
  | (.inf s, _) => (BitVec.ofNat 32 (boolNat s <<< 31 + 0x7F800000), 0)
  | (.fin s m e, _) => let (w, fl) := fmtF32.round .even s m e; (BitVec.ofNat 32 w, fl)

/-- nan_input of Table 16 of 04: an operand was NaN. -/
def nanIn (l : List W32) : Nat := if l.any fun w => (dec32 w).isNan then flagNanInput else 0

def fadd (a b : W32) : W32 × Nat :=
  let (r, f) := round32 ((dec32 a).add (dec32 b)) a b 0
  (r, f ||| nanIn [a, b])

def fneg (a : W32) : W32 := a ^^^ 0x80000000#32

def fsub (a b : W32) : W32 × Nat :=
  let (r, f) := round32 ((dec32 a).add (dec32 b).negate) a b 0
  (r, f ||| nanIn [a, b])

def fmul (a b : W32) : W32 × Nat :=
  let (r, f) := round32 ((dec32 a).mul (dec32 b)) a b 0
  (r, f ||| nanIn [a, b])

/-- a × b + c formed exactly, invalid where either step is. -/
def FV.fma (a b c : FV) : FV × Bool :=
  let (p, bad) := a.mul b
  let (r, bad2) := p.add c
  (r, bad || bad2)

/-- a × b + c with one rounding (R136). -/
def ffma (a b c : W32) : W32 × Nat :=
  let (r, f) := round32 (FV.fma (dec32 a) (dec32 b) (dec32 c)) a b c
  (r, f ||| nanIn [a, b, c])

/-- c − a × b with one rounding (R136). -/
def ffnma (a b c : W32) : W32 × Nat :=
  let (r, f) := round32 (FV.fma (dec32 a).negate (dec32 b) (dec32 c)) a b c
  (r, f ||| nanIn [a, b, c])

/-- Quotient of finite magnitudes to 2^−k below the first bit, with its sticky bit. -/
def divMag (m : Nat) (e : Int) (n : Nat) (f : Int) (k : Nat) : Nat × Int × Bool :=
  let sh := k + bitLen n
  let q := (m <<< sh) / n
  (q, e - f - sh, (m <<< sh) % n ≠ 0)

/-- Quotient of two values in a format, correctly rounded, with the flags of Table 16 of 04; none is a NaN result. -/
def fdivIn (f : Fmt) (a b : FV) : Option Nat × Nat :=
  let infP := fun s => boolNat s <<< (f.fbits + f.ebits) + ((2 ^ f.ebits - 1) <<< f.fbits)
  match a, b with
  | .nan, _ => (none, 0)
  | _, .nan => (none, 0)
  | .inf _, .inf _ => (none, flagInvalid)
  | .inf s, .fin t _ _ => (some (infP (s != t)), 0)
  | .fin s _ _, .inf t => (some (boolNat (s != t) <<< (f.fbits + f.ebits)), 0)
  | .fin s m e, .fin t n g =>
    if n = 0 then (if m = 0 then (none, flagInvalid) else (some (infP (s != t)), flagDivZero))
    else
      let (q, te, st) := divMag m e n g (f.fbits + 4)
      let (w, fl) := f.round .even (s != t) q te st
      (some w, fl)

def fdiv (a b : W32) : W32 × Nat :=
  match fdivIn fmtF32 (dec32 a) (dec32 b) with
  | (none, fl) => (qnan a b 0, fl ||| nanIn [a, b])
  | (some w, fl) => (BitVec.ofNat 32 w, fl)

/-- The greatest r below 2^(k) × its caller's bound with r × r ≤ n, found bit by bit from bit k − 1. -/
def isqrtAux : Nat → Nat → Nat → Nat
  | 0, _, r => r
  | k + 1, n, r =>
    let t := r + 2 ^ k
    isqrtAux k n (if t * t ≤ n then t else r)

/-- Integer square root. -/
def isqrt (n : Nat) : Nat := isqrtAux (bitLen n / 2 + 1) n 0

/-- Square root in a format, correctly rounded; none is a NaN result. -/
def fsqrtIn (f : Fmt) (a : FV) : Option Nat × Nat :=
  match a with
  | .nan => (none, 0)
  | .inf s => if s then (none, flagInvalid) else (some ((2 ^ f.ebits - 1) <<< f.fbits), 0)
  | .fin s m e =>
    if m = 0 then (some (boolNat s <<< (f.fbits + f.ebits)), 0)
    else if s then (none, flagInvalid)
    else
      let sh := 2 * (f.fbits + 4)
      let (m, e) := if e % 2 = 0 then (m <<< sh, e - sh) else (m <<< (sh + 1), e - (sh + 1))
      let r := isqrt m
      let (w, fl) := f.round .even false r (e / 2) (r * r ≠ m)
      (some w, fl)

def fsqrt (a : W32) : W32 × Nat :=
  match fsqrtIn fmtF32 (dec32 a) with
  | (none, fl) => (qnan a 0 0, fl ||| nanIn [a])
  | (some w, fl) => (BitVec.ofNat 32 w, fl)

/-- The order of two values that are not NaN. -/
def FV.lt : FV → FV → Bool
  | .nan, _ => false
  | _, .nan => false
  | .inf s, .inf t => s && !t
  | .inf s, .fin _ _ _ => s
  | .fin _ _ _, .inf t => !t
  | .fin s m e, .fin t n f =>
    let g := min e f
    sgn s (m <<< (e - g).toNat) < sgn t (n <<< (f - g).toNat)

def FV.eqv : FV → FV → Bool
  | .nan, _ => false
  | _, .nan => false
  | a, b => !(a.lt b) && !(b.lt a)

def FV.le (a b : FV) : Bool := a.lt b || a.eqv b

/-- min and max of Tables 10 and 15 of 04: NaN if either is NaN; which zero is free (log entry 7). -/
def fminmax (isMax : Bool) (a b : W32) : W32 × Nat :=
  let x := dec32 a
  let y := dec32 b
  if x.isNan || y.isNan then (qnan a b 0, flagNanInput)
  else if x.lt y then (if isMax then b else a, 0)
  else if y.lt x then (if isMax then a else b, 0)
  else (if Config.zeroPick a b then a else b, 0)

/-- The integer nearest to a finite value, ties away from zero (02: round_ta). -/
def roundTa (neg : Bool) (m : Nat) (e : Int) : Int :=
  if 0 ≤ e then sgn neg (m <<< e.toNat)
  else
    let k := (-e).toNat
    sgn neg ((m + 2 ^ (k - 1)) >>> k)

/-- The integer part of a finite value. -/
def truncI (neg : Bool) (m : Nat) (e : Int) : Int :=
  if 0 ≤ e then sgn neg (m <<< e.toNat) else sgn neg (m >>> (-e).toNat)

/-- Round down. -/
def floorI (neg : Bool) (m : Nat) (e : Int) : Int :=
  if 0 ≤ e then sgn neg (m <<< e.toNat)
  else
    let k := (-e).toNat
    if neg then -(((m + 2 ^ k - 1) >>> k : Nat) : Int) else ((m >>> k : Nat) : Int)

/-- Round up. -/
def ceilI (neg : Bool) (m : Nat) (e : Int) : Int := -(floorI (!neg) m e)

/-- An integer as FP32, ties to even. -/
def ofInt32 (v : Int) : W32 × Nat :=
  let (w, fl) := fmtF32.round .even (v < 0) v.natAbs 0
  (BitVec.ofNat 32 w, fl)

/-- FP32 to I32 of Table 15 of 04 (cvt sub 0 and 2): saturating; NaN gives 0 and sets invalid. -/
def f2i (trunc : Bool) (a : W32) : W32 × Nat :=
  match dec32 a with
  | .nan => (0, flagInvalid ||| flagNanInput)
  | .inf s => (if s then 0x80000000#32 else 0x7FFFFFFF#32, flagSaturated)
  | .fin s m e =>
    let v := if trunc then truncI s m e else roundTa s m e
    let c := clampInt v (-(2 ^ 31)) (2 ^ 31 - 1)
    let exact := 0 ≤ e || m % 2 ^ (-e).toNat = 0
    (BitVec.ofInt 32 c, (if c ≠ v then flagSaturated else 0) ||| (if exact && c = v then 0 else flagInexact))

/-- rnd of Table 15 of 04: floor, ceil, trunc or round_ta as an FP32 value. -/
def frnd (sub : Nat) (a : W32) : W32 × Nat :=
  match dec32 a with
  | .nan => (qnan a 0 0, flagNanInput)
  | .inf _ => (a, 0)
  | .fin s m e =>
    let v := if sub = 0 then floorI s m e else if sub = 1 then ceilI s m e
      else if sub = 2 then truncI s m e else roundTa s m e
    let exact := 0 ≤ e || m % 2 ^ (-e).toNat = 0
    if v = 0 then (if s then 0x80000000#32 else 0, if exact then 0 else flagInexact)
    else ((ofInt32 v).1, if exact then 0 else flagInexact)

/-- BF16 of an FP32 value by the rules of R65: ties away, saturating; the flags, and whether it clipped. A NaN passes with the upper
half of its bits and the quiet bit set: which of the BF16 NaNs it gives is not stated (DESIGN CHOICE, log entry 66). -/
def toBF16 (a : W32) : BitVec 16 × Nat × Bool :=
  match dec32 a with
  | .nan => (BitVec.ofNat 16 ((a.toNat >>> 16) ||| 0x40), flagNanInput, false)
  | .inf _ => (BitVec.ofNat 16 (a.toNat >>> 16), 0, false)
  | .fin s m e =>
    let (w, fl) := fmtBF16.round .away s m e
    if fl &&& flagOverflow ≠ 0 then
      (BitVec.ofNat 16 (boolNat s <<< 15 + 0x7F7F), flagSaturated ||| flagInexact, true)
    else (BitVec.ofNat 16 w, fl &&& flagInexact, false)

/-- FP32 of a BF16 pattern, exact. -/
def ofBF16 (w : Nat) : W32 := BitVec.ofNat 32 ((w % 2 ^ 16) <<< 16)

/-- FP32 of an FP16 weight, exact (R260). -/
def ofF16 (w : Nat) : W32 :=
  match fmtF16.decode w with
  | .nan => qnan (BitVec.ofNat 32 w) 0 0
  | .inf s => BitVec.ofNat 32 (boolNat s <<< 31 + 0x7F800000)
  | .fin s m e => BitVec.ofNat 32 (fmtF32.round .even s m e).1

end Sys2Proof.Machine
end

