-- ==== Sys2Proof/Machine/Transc.lean ====
section
/-! DEFINITION. The functions whose value the manual gives only within an error: rsqrt, exp2, log2 (Table 15 of 04),
sigma and tanh (R125); and the twiddle table (R138). The result is the free candidate of Config where it meets the
stated bound, and the correctly rounded value otherwise (log entry 8). References are computed in fixed point with 100
fraction bits. -/

namespace Sys2Proof.Machine

/-- ln 2 × 2^100. -/
def fixLn2 : Nat := 878668439483319573618263538048
/-- log2 e × 2^100. -/
def fixLog2e : Nat := 1828833234529184422442202814989
/-- π / 2048 × 2^100. -/
def fixPi2048 : Nat := 1944551666501805353363452692

/-- Σ t^k / k! from term k on, t and the result in units of 2^−100; the first argument is the fuel. -/
def expSeries : Nat → Nat → Nat → Nat → Nat
  | 0, _, _, _ => 0
  | fuel + 1, k, term, t => term + expSeries fuel (k + 1) ((term * t / (k + 1)) >>> 100) t

/-- 2^f for f in [0, 1), in units of 2^−100. -/
def exp2Fix (f : Nat) : Nat := if f = 0 then 2 ^ 100 else expSeries 40 0 (2 ^ 100) ((f * fixLn2) >>> 100)

/-- Fraction bits of log2 of v in [1, 2), by repeated squaring. -/
def log2Bits : Nat → Nat → Nat → Nat
  | 0, _, acc => acc
  | k + 1, v, acc =>
    let w := (v * v) >>> 100
    if 2 ^ 101 ≤ w then log2Bits k (w / 2) (2 * acc + 1) else log2Bits k w (2 * acc)

/-- |a × 2^e − b × 2^f| ≤ k × 2^g. -/
def withinErr (a : Int) (e : Int) (b : Int) (f : Int) (k : Nat) (g : Int) : Bool :=
  let h := min (min e f) g
  let x := a * 2 ^ (e - h).toNat - b * 2 ^ (f - h).toNat
  decide (x.natAbs ≤ k * 2 ^ (g - h).toNat)

/-- The candidate where it is finite and within k × 2^g of ± b × 2^f, else the reference. -/
def bounded (cand ref : W32) (neg : Bool) (b : Nat) (f : Int) (k : Nat) (g : Int) : W32 :=
  match dec32 cand with
  | .fin s m e => if withinErr (sgn s m) e (sgn neg b) f k g then cand else ref
  | _ => ref

/-- A magnitude m × 2^e in units of 2^−100, cut below. -/
def toFix (m : Nat) (e : Int) : Nat := if 0 ≤ e + 100 then m <<< (e + 100).toNat else m >>> (-(e + 100)).toNat

/-- Root r of the reciprocal of m × 2^e, as r × 2^(t/2), with whether it is exact: the reciprocal has 120 bits and its
root 60. -/
def rsqrtParts (m : Nat) (e : Int) : Nat × Int × Bool :=
  let sh := 120 + bitLen m + (if (e + bitLen m) % 2 = 0 then 0 else 1)
  let q := (1 <<< sh) / m
  let r := isqrt q
  (r, -e - (sh : Int), r * r * m = 1 <<< sh)

/-- 2^(± m × 2^e) as y × 2^(n − 100) with y in units of 2^−100, and whether it is exact. -/
def exp2Parts (s : Bool) (m : Nat) (e : Int) : Nat × Int × Bool :=
  let z := toFix m e
  let n : Int := if s then -(((z + 2 ^ 100 - 1) >>> 100 : Nat) : Int) else ((z >>> 100 : Nat) : Int)
  let f := if s then (2 ^ 100 - z % 2 ^ 100) % 2 ^ 100 else z % 2 ^ 100
  (exp2Fix f, n, f = 0 && (m = 0 || 0 ≤ e || m % 2 ^ (-e).toNat = 0))

/-- log2 of m × 2^e in units of 2^−60, and whether it is exact. -/
def log2Parts (m : Nat) (e : Int) : Int × Bool :=
  let l := bitLen m
  let v := m <<< (101 - l)
  ((e + l - 1) * 2 ^ 60 + log2Bits 60 v 0, v = 2 ^ 100)

/-- 1 / sqrt(ra) within 1 ulp, with the special cases of Table 15 of 04. -/
def frsqrt (a : W32) : W32 × Nat :=
  match dec32 a with
  | .nan => (qnan a 0 0, flagNanInput)
  | .inf s => if s then (qnan a 0 0, flagInvalid) else (0, 0)
  | .fin s m e =>
    if m = 0 then (BitVec.ofNat 32 (boolNat s <<< 31 + 0x7F800000), flagDivZero)
    else if s then (qnan a 0 0, flagInvalid)
    else
      let (r, t, exact) := rsqrtParts m e
      let (g, te, _) := fmtF32.grid .even r (t / 2) true
      let (w, _) := fmtF32.encode false g te true
      (bounded (Config.rsqrtCand a) (BitVec.ofNat 32 w) false r (t / 2) 1 te, if exact then 0 else flagInexact)

/-- 2^ra, within 2 ulp for normal results. -/
def fexp2 (a : W32) : W32 × Nat :=
  match dec32 a with
  | .nan => (qnan a 0 0, flagNanInput)
  | .inf s => (if s then 0 else 0x7F800000#32, 0)
  | .fin s m e =>
    if 10 ≤ e + bitLen m && m ≠ 0 then
      (if s then (0, flagUnderflow ||| flagInexact) else (0x7F800000#32, flagOverflow ||| flagInexact))
    else
      let (y, n, exact) := exp2Parts s m e
      let (w, fl) := fmtF32.round .even false y (n - 100) (!exact)
      let (_, te, _) := fmtF32.grid .even y (n - 100) (!exact)
      if fl &&& flagOverflow ≠ 0 then (BitVec.ofNat 32 w, fl)
      else if w < 0x800000 then (Config.exp2Cand a, fl ||| flagUnderflow ||| flagInexact)
      else (bounded (Config.exp2Cand a) (BitVec.ofNat 32 w) false y (n - 100) 2 te, fl)

/-- log2(ra): absolute error at most 2^−22 for ra in [0.5, 2], else within 2 ulp. -/
def flog2 (a : W32) : W32 × Nat :=
  match dec32 a with
  | .nan => (qnan a 0 0, flagNanInput)
  | .inf s => if s then (qnan a 0 0, flagInvalid) else (0x7F800000#32, 0)
  | .fin s m e =>
    if m = 0 then (0xFF800000#32, flagDivZero)
    else if s then (qnan a 0 0, flagInvalid)
    else
      let ex : Int := e + bitLen m - 1
      let (r, exact) := log2Parts m e
      let (w, _) := fmtF32.round .even (r < 0) r.natAbs (-60) (!exact)
      let (_, te, _) := fmtF32.grid .even r.natAbs (-60) (!exact)
      let ref := BitVec.ofNat 32 w
      let near := ex = 0 || ex = -1 || (ex = 1 && exact)
      (bounded (Config.log2Cand a) ref (r < 0) r.natAbs (-60) (if near then 1 else 2) (if near then -22 else te),
        if exact then 0 else flagInexact)

/-- e^z in units of 2^−100, z in the same units. -/
def expFix (z : Nat) : Nat :=
  let t := (z * fixLog2e) >>> 100
  exp2Fix (t % 2 ^ 100) <<< (t >>> 100)

def one32 : W32 := 0x3F800000#32

/-- The candidate lies in [0, 1] and within 2^g of b × 2^−100 (R125). -/
def unitOk (cand : W32) (b : Nat) (g : Int) : Bool :=
  match dec32 cand with
  | .fin false m e => (dec32 cand).le (.fin false 1 0) && withinErr (m : Int) e b (-100) 1 g
  | _ => false

/-- A value in [0, 1], in units of 2^−100, correctly rounded. -/
def unitRef (b : Nat) : W32 := BitVec.ofNat 32 (fmtF32.round .even false b (-100) true).1

/-- A test holds for every number below n. -/
def allBelow (f : Nat → Bool) : Nat → Bool
  | 0 => true
  | n + 1 => f n && allBelow f n

/-- σ of ± m × 2^e, in units of 2^−100. -/
def sigFix (s : Bool) (m : Nat) (e : Int) : Nat :=
  let p := expFix (toFix m e)
  let r := (p <<< 100) / (2 ^ 100 + p)
  if s then 2 ^ 100 - r else r

/-- tanh of m × 2^e, in units of 2^−100. -/
def tanhFix (m : Nat) (e : Int) : Nat :=
  let p := expFix (2 * toFix m e)
  ((p - 2 ^ 100) <<< 100) / (p + 2 ^ 100)

/-- Pattern i of the magnitudes of one sign. -/
def signed32 (s : Bool) (i : Nat) : W32 := BitVec.ofNat 32 (boolNat s <<< 31 + i)

/-- The candidate of σ at magnitude pattern i of a sign; σ(0) is 0.5. -/
def sigCand (s : Bool) (i : Nat) : Nat := if i = 0 then 0x3F000000 else (Config.sigmaCand (signed32 s i)).toNat

/-- The free σ meets R125 as a function: over the whole domain [−16, 16) it keeps the bound and is non-decreasing. -/
def sigmaMeets : Bool :=
  let near (s : Bool) (i : Nat) : Bool := match dec32 (signed32 s i) with
    | .fin _ m e => unitOk (Config.sigmaCand (signed32 s i)) (sigFix s m e) (-21)
    | _ => false
  allBelow (fun i => near false (i + 1) && decide (sigCand false i ≤ sigCand false (i + 1))) 0x417FFFFF
    && allBelow (fun i => near true (i + 1) && decide (sigCand true (i + 1) ≤ sigCand true i)) 0x41800000

/-- The candidate of tanh at magnitude pattern i; tanh(0) is 0. -/
def tanhCandAt (i : Nat) : Nat := if i = 0 then 0 else (Config.tanhCand (signed32 false i)).toNat

/-- The free tanh meets R125 as a function over the magnitudes below 8. -/
def tanhMeets : Bool :=
  let near (i : Nat) : Bool := match dec32 (signed32 false i) with
    | .fin _ m e => unitOk (Config.tanhCand (signed32 false i)) (tanhFix m e) (-18)
    | _ => false
  allBelow (fun i => near (i + 1) && decide (tanhCandAt i ≤ tanhCandAt (i + 1))) 0x40FFFFFF

/-- Underflow of an inexact result: it is subnormal or zero (Table 16 of 04). -/
def tinyFlag (w : W32) : Nat := if w.toNat / 2 ^ 23 % 256 = 0 then flagUnderflow else 0

/-- The logistic function (R125): the free function where it meets the rule as a whole, else the correctly rounded value (log
entry 8). -/
def fsig (a : W32) : W32 × Nat :=
  match dec32 a with
  | .nan => (qnan a 0 0, flagNanInput)
  | .inf s => (if s then 0 else one32, 0)
  | .fin s m e =>
    if m = 0 then (0x3F000000#32, 0)
    else if (dec32 a).lt (.fin true 16 0) then (0, flagInexact ||| flagUnderflow)
    else if (FV.fin false 16 0).le (dec32 a) then (one32, flagInexact)
    else
      let w := if sigmaMeets then Config.sigmaCand a else unitRef (sigFix s m e)
      (w, flagInexact ||| tinyFlag w)

/-- tanh, odd by construction (R125). -/
def ftanh (a : W32) : W32 × Nat :=
  match dec32 a with
  | .nan => (qnan a 0 0, flagNanInput)
  | .inf s => (if s then fneg one32 else one32, 0)
  | .fin s m e =>
    if m = 0 then (a, 0)
    else
      let mag : W32 :=
        if (FV.fin false 8 0).le (.fin false m e) then one32
        else if tanhMeets then Config.tanhCand (a &&& 0x7FFFFFFF#32)
        else unitRef (tanhFix m e)
      (if s then fneg mag else mag, flagInexact ||| tinyFlag mag)

/-- Alternating series for cos and sin: terms from x^j / j! on, in units of 2^−100. -/
def trigSeries : Nat → Nat → Nat → Nat → Int
  | 0, _, _, _ => 0
  | fuel + 1, j, term, x2 => (term : Int) - trigSeries fuel (j + 2) (((term * x2) >>> 100) / ((j + 1) * (j + 2))) x2

/-- cos φ and sin φ for φ = r × π / 2048, 0 ≤ r < 1024, in units of 2^−100. -/
def cosSinFix (r : Nat) : Int × Int :=
  let x := r * fixPi2048
  let x2 := (x * x) >>> 100
  if r = 0 then (2 ^ 100, 0) else (trigSeries 30 0 (2 ^ 100) x2, trigSeries 30 1 x x2)

/-- A fixed-point value correctly rounded to FP32. -/
def fixTo32 (v : Int) : W32 :=
  if v = 0 then 0
  else BitVec.ofNat 32 (fmtF32.round .even (v < 0) v.natAbs (-100) (decide (v.natAbs ≠ 2 ^ 100))).1

/-- Entry k of the twiddle table: (cos θ, −sin θ) with θ = 2π k / 4096 (R138). -/
def twiddle (k : Nat) : W32 × W32 :=
  let k := k % 4096
  let (c, s) := cosSinFix (k % 1024)
  let (cc, ss) := match k / 1024 with
    | 0 => (c, s)
    | 1 => (-s, c)
    | 2 => (-c, -s)
    | _ => (s, -c)
  (fixTo32 cc, fixTo32 (-ss))

end Sys2Proof.Machine
end

