-- ==== Sys2Proof/Machine/Asrc.lean ====
section
/-! DEFINITION. The sample-rate converter's filter (07: R242, Table 9): its taps, and its weighted sum in FP32. -/

namespace Sys2Proof.Machine

/-! ### The taps (R242; log entry 9) -/

/-- cos and sin of 2π n ÷ d, in units of 2^−100. -/
def turnCosSin (n d : Nat) : Int × Int :=
  let q := 4 * (n % d) / d
  let x := 4 * (n % d) % d * (1024 * fixPi2048) / d
  let x2 := (x * x) >>> 100
  let c := trigSeries 30 0 (2 ^ 100) x2
  let s := trigSeries 30 1 x x2
  if q = 0 then (c, s) else if q = 1 then (-s, c) else if q = 2 then (-c, -s) else (s, -c)

/-- Sum of y^j ÷ (j!)² from a term j on, in units of 2^−100. -/
def besselSum : Nat → Nat → Nat → Nat → Nat
  | 0, _, _, _ => 0
  | fuel + 1, j, term, y => term + besselSum fuel (j + 1) (((term * y) >>> 100) / ((j + 1) * (j + 1))) y

/-- The modified Bessel function I0 at twice the square root of y, in units of 2^−100. -/
def besselFix (y : Nat) : Nat := besselSum 60 0 (2 ^ 100) y

/-- The reference filter: a sinc with its edge at 0.45 of the lower rate under a Kaiser window of parameter 7.5, over 48 samples of the
lower rate with 128 phases each. Value k, for a conversion from a rate to another. -/
def asrcRef (src dst k : Nat) : W32 :=
  let m := max k 3072 - min k 3072
  let sinc : Int := if m = 0 then 9 * 2 ^ 100 / 10
    else (turnCosSin (9 * m) 2560).2 * 128 * 2 ^ 100 / ((m * 2048 * fixPi2048 : Nat) : Int)
  let full := 225 * 2 ^ 100 / 16
  let win := besselFix (full * (3072 * 3072 - m * m) / (3072 * 3072))
  fixTo32 (sinc * win * (min src dst : Nat) / ((besselFix full * max src 1 : Nat) : Int))

/-- A finite FP32 value in units of 2^−100; none for another. -/
def fix100 (w : W32) : Option Int :=
  match dec32 w with
  | .fin s m e => some (if s then -(toFix m e : Int) else toFix m e)
  | _ => none

/-- The square of the response of a filter of 6,145 values at j ÷ 1,024 of the lower rate, in units of 2^−200. -/
def asrcPower (tap : Nat → Int) (j : Nat) : Int :=
  let p := (List.range 6145).foldl (fun a k =>
    let t := turnCosSin (j * k) (128 * 1024)
    (a.1 + tap k * t.1 / 2 ^ 100, a.2 + tap k * t.2 / 2 ^ 100)) ((0, 0) : Int × Int)
  p.1 * p.1 + p.2 * p.2

/-- The free taps meet Table 9 of 07: they are finite and symmetric, which gives the group delay of 24 samples; the response lies within
±0.05 dB of the gain from 0 to 0.4 of the lower rate, and 75 dB below it from 0.5 on. -/
def asrcMeets (src dst : Nat) : Bool :=
  let tap (k : Nat) : Int := (fix100 (Config.asrcTap src dst k)).getD 0
  let gain : Int := 128 * 2 ^ 100 * (min src dst : Nat) / (max src 1 : Nat)
  allBelow (fun k => (fix100 (Config.asrcTap src dst k)).isSome && decide (tap k = tap (6144 - k))) 6145
    && allBelow (fun j => decide (98856 * gain * gain ≤ 100000 * asrcPower tap j) && decide (100000 * asrcPower tap j ≤ 101158 * gain * gain)) 410
    && allBelow (fun j => decide (31622777 * asrcPower tap (512 + j) ≤ gain * gain)) 65025

/-- Value k of the filter from a rate to another: the free one where the free filter meets Table 9 as a whole, else the reference. -/
def asrcTapAt (src dst k : Nat) : W32 := if asrcMeets src dst then Config.asrcTap src dst k else asrcRef src dst k

/-! ### The sum -/

/-- The weight between two phases at a fraction in units of 2^−32, exactly. -/
def asrcWeight (a b : W32) (f : Nat) : FV :=
  ((dec32 a).add ((((dec32 b).add (dec32 a).negate).1.mul (.fin false f (-32))).1)).1

/-- The exact weighted sum, and the sum of the magnitudes of what enters it. -/
def asrcExact : List (W32 × W32 × W32 × Nat) → FV × FV
  | [] => (.fin false 0 0, .fin false 0 0)
  | (x, a, b, f) :: l =>
    let r := asrcExact l
    let m := ((dec32 x).abs.mul ((dec32 a).abs.add (dec32 b).abs).1).1
    ((((dec32 x).mul (asrcWeight a b f)).1.add r.1).1, (m.add r.2).1)

/-- The weighted sum of Table 9 in FP32. Neither the order of its additions nor their roundings are given: the result is free within what
n terms of FP32 arithmetic can differ by, and is the correctly rounded sum where the free value lies outside (log entry 9). -/
def asrcSum (l : List (W32 × W32 × W32 × Nat)) : W32 :=
  let (v, m) := asrcExact l
  let cand := Config.asrcSum l
  let slack := (m.mul (.fin false (l.length + 4) (-22))).1
  let near := !(dec32 cand).isNan && !(dec32 cand).isInf && ((dec32 cand).add v.negate).1.abs.le slack
  match v with
  | .fin _ _ _ => if near then cand else (round32 (v, false) 0 0 0).1
  | _ => (round32 (v, false) 0 0 0).1

end Sys2Proof.Machine
end

