-- ==== Sys2Proof/Machine/Dict.lean ====
section
/-! DEFINITION. The object dictionary's entries: index, subindex, type, access right, default (R439; the tables of
R43, R91, R109, R197, R226, R248, R282, R316, R319, R355, R387, R417, R418, R447, R448, R471, R490). -/

namespace Sys2Proof.Machine

/-- The data types of 00 and R439. -/
inductive DType where
  | bool
  | u8
  | u16
  | u32
  | u64
  | i32
  | i64
  | f32
  | str
  | blob
  deriving DecidableEq, Repr

/-- The access rights of 00. -/
inductive Access where
  | ro
  | rw
  | wo
  | rc
  | rwq
  deriving DecidableEq, Repr

/-- One line of a dictionary table: the indices lo to hi, the subindices slo to shi. size is the greatest size of an
STR or BLOB in bytes, and fixed says that the size never changes (R439). -/
structure DictRow where
  lo : Nat
  hi : Nat
  slo : Nat
  shi : Nat
  ty : DType
  acc : Access
  dflt : Nat
  size : Nat
  fixed : Bool
  name : String
  deriving DecidableEq, Repr

/-- Dictionary lines, part 0. -/
def dictRows0 : List DictRow := [
  ⟨0x1000, 0x1000, 0x01, 0x01, .u16, .ro, 8151, 0, true, "vendor_id"⟩,
  ⟨0x1000, 0x1000, 0x02, 0x02, .u16, .ro, 31332, 0, true, "device_id"⟩,
  ⟨0x1000, 0x1000, 0x03, 0x03, .str, .ro, 0, 10, false, "part_number"⟩,
  ⟨0x1000, 0x1000, 0x04, 0x04, .str, .ro, 0, 64, false, "serial_number"⟩,
  ⟨0x1000, 0x1000, 0x05, 0x05, .u16, .ro, 0, 0, true, "hw_revision"⟩,
  ⟨0x1000, 0x1000, 0x06, 0x06, .str, .ro, 0, 64, false, "fw_version"⟩,
  ⟨0x1000, 0x1000, 0x07, 0x07, .u8, .ro, 0, 0, true, "fw_slot"⟩,
  ⟨0x1000, 0x1000, 0x08, 0x08, .u16, .ro, 256, 0, true, "dictionary_version"⟩,
  ⟨0x1100, 0x1100, 0x01, 0x01, .u32, .ro, 0, 0, true, "entry_count"⟩,
  ⟨0x1100, 0x1100, 0x02, 0x02, .u64, .ro, 0, 0, true, "denied"⟩,
  ⟨0x1101, 0x1101, 0x01, 0x01, .u32, .rw, 0, 0, true, "describe_select"⟩,
  ⟨0x1101, 0x1101, 0x02, 0x02, .blob, .ro, 0, 16, true, "describe"⟩,
  ⟨0x1110, 0x1110, 0x01, 0x01, .bool, .wo, 0, 0, true, "sluice_begin"⟩,
  ⟨0x1110, 0x1110, 0x02, 0x02, .bool, .wo, 0, 0, true, "sluice_commit"⟩,
  ⟨0x1110, 0x1110, 0x03, 0x03, .bool, .wo, 0, 0, true, "sluice_abort"⟩,
  ⟨0x1110, 0x1110, 0x04, 0x04, .u8, .ro, 0, 0, true, "sluice_status"⟩,
  ⟨0x1110, 0x1110, 0x05, 0x05, .u64, .ro, 0, 0, true, "sluice_mark"⟩,
  ⟨0x1110, 0x1110, 0x06, 0x06, .u32, .ro, 0, 0, true, "staged_entries"⟩,
  ⟨0x1200, 0x1200, 0x01, 0x01, .u8, .ro, 0, 0, true, "device_state"⟩,
  ⟨0x1200, 0x1200, 0x02, 0x02, .bool, .ro, 0, 0, true, "degraded"⟩,
  ⟨0x1200, 0x1200, 0x03, 0x03, .u8, .wo, 0, 0, true, "state_request"⟩,
  ⟨0x1200, 0x1200, 0x04, 0x04, .u8, .ro, 0, 0, true, "request_status"⟩,
  ⟨0x1200, 0x1200, 0x05, 0x05, .u8, .rw, 0, 0, true, "hold_point"⟩,
  ⟨0x1200, 0x1200, 0x06, 0x06, .u8, .ro, 0, 0, true, "held"⟩,
  ⟨0x1200, 0x1200, 0x07, 0x07, .u64, .ro, 0, 0, true, "state_time"⟩,
  ⟨0x1200, 0x1200, 0x08, 0x08, .u32, .ro, 0, 0, true, "bring_up_ms"⟩,
  ⟨0x1200, 0x1200, 0x09, 0x09, .u32, .ro, 0, 0, true, "selftest_summary"⟩,
  ⟨0x1200, 0x1200, 0x0A, 0x0A, .blob, .ro, 0, 32, true, "training_failed"⟩,
  ⟨0x1200, 0x1200, 0x0B, 0x0B, .u32, .ro, 0, 0, true, "optics_calibrated"⟩,
  ⟨0x1200, 0x1200, 0x0C, 0x0C, .u8, .ro, 0, 0, true, "reset_cause"⟩,
  ⟨0x1200, 0x1200, 0x0D, 0x0D, .blob, .ro, 0, 32, true, "training_lost_writes"⟩,
  ⟨0x2000, 0x2000, 0x01, 0x01, .u16, .rw, 750, 0, true, "package_budget"⟩,
  ⟨0x2000, 0x2000, 0x02, 0x02, .u16, .ro, 750, 0, true, "budget_in_force"⟩,
  ⟨0x2000, 0x2000, 0x03, 0x03, .u8, .rw, 4, 0, true, "guard_fraction"⟩,
  ⟨0x2000, 0x2000, 0x04, 0x04, .u32, .rw, 100, 0, true, "permit_timeout"⟩,
  ⟨0x2000, 0x2000, 0x05, 0x05, .u32, .rw, 256, 0, true, "hbm_stream_threshold"⟩,
  ⟨0x2000, 0x2000, 0x06, 0x06, .u32, .rw, 256, 0, true, "fabric_bulk_threshold"⟩,
  ⟨0x2000, 0x2000, 0x07, 0x07, .u8, .rw, 100, 0, true, "thermal_soft_limit"⟩,
  ⟨0x2001, 0x2002, 0x01, 0x01, .u16, .ro, 375, 0, true, "allotment"⟩,
  ⟨0x2001, 0x2002, 0x02, 0x02, .u16, .ro, 0, 0, true, "floor"⟩]

/-- Dictionary lines, part 1. -/
def dictRows1 : List DictRow := [
  ⟨0x2001, 0x2002, 0x03, 0x03, .u16, .ro, 0, 0, true, "held"⟩,
  ⟨0x2001, 0x2002, 0x04, 0x04, .u64, .ro, 0, 0, true, "grants"⟩,
  ⟨0x2001, 0x2002, 0x05, 0x05, .u64, .rc, 0, 0, true, "waits"⟩,
  ⟨0x2001, 0x2002, 0x06, 0x06, .u64, .rc, 0, 0, true, "wait_time"⟩,
  ⟨0x2001, 0x2002, 0x07, 0x07, .u32, .rc, 0, 0, true, "max_wait"⟩,
  ⟨0x2001, 0x2002, 0x08, 0x08, .u64, .ro, 0, 0, true, "loans_given"⟩,
  ⟨0x2001, 0x2002, 0x09, 0x09, .u64, .rc, 0, 0, true, "segment_hold_cc"⟩,
  ⟨0x2003, 0x2003, 0x01, 0x01, .u8, .ro, 6, 0, true, "permit_size"⟩,
  ⟨0x2003, 0x2003, 0x02, 0x02, .u8, .ro, 12, 0, true, "permit_size"⟩,
  ⟨0x2003, 0x2003, 0x03, 0x03, .u8, .ro, 8, 0, true, "permit_size"⟩,
  ⟨0x2003, 0x2003, 0x04, 0x04, .u8, .ro, 4, 0, true, "permit_size"⟩,
  ⟨0x2010, 0x2010, 0x01, 0x01, .u32, .ro, 0, 0, true, "input_voltage"⟩,
  ⟨0x2010, 0x2010, 0x02, 0x02, .u32, .ro, 0, 0, true, "input_current"⟩,
  ⟨0x2010, 0x2010, 0x03, 0x03, .u32, .ro, 0, 0, true, "input_power"⟩,
  ⟨0x2010, 0x2010, 0x04, 0x04, .i32, .ro, 0, 0, true, "coolant_inlet"⟩,
  ⟨0x2010, 0x2010, 0x05, 0x05, .i32, .ro, 0, 0, true, "coolant_outlet"⟩,
  ⟨0x2010, 0x2010, 0x06, 0x07, .i32, .ro, 0, 0, true, "junction_max"⟩,
  ⟨0x2010, 0x2010, 0x08, 0x08, .i32, .ro, 0, 0, true, "optics_case_max"⟩,
  ⟨0x2100, 0x2100, 0x01, 0x01, .bool, .ro, 0, 0, true, "root_pll_locked"⟩,
  ⟨0x2100, 0x2100, 0x02, 0x02, .bool, .ro, 0, 0, true, "refclk_present"⟩,
  ⟨0x2100, 0x2100, 0x03, 0x03, .u64, .ro, 0, 0, true, "control_cycle_count"⟩,
  ⟨0x2100, 0x2100, 0x04, 0x04, .bool, .rwq, 1, 0, true, "gating_enable"⟩,
  ⟨0x3000, 0x3000, 0x01, 0x01, .u16, .rw, 24, 0, true, "scrub_hours"⟩,
  ⟨0x3000, 0x3000, 0x02, 0x02, .u16, .rw, 16, 0, true, "row_ce_threshold"⟩,
  ⟨0x3000, 0x3000, 0x03, 0x03, .u16, .rw, 1000, 0, true, "wcb_age"⟩,
  ⟨0x3000, 0x3000, 0x04, 0x04, .u16, .rw, 2000, 0, true, "age_limit"⟩,
  ⟨0x3000, 0x3000, 0x05, 0x05, .u8, .rw, 25, 0, true, "reflow_share"⟩,
  ⟨0x3000, 0x3000, 0x06, 0x06, .u8, .ro, 8, 0, true, "retry_limit"⟩,
  ⟨0x3001, 0x3001, 0x01, 0x01, .u64, .ro, 0, 0, true, "corrected"⟩,
  ⟨0x3001, 0x3001, 0x02, 0x02, .u64, .ro, 0, 0, true, "uncorrectable"⟩,
  ⟨0x3001, 0x3001, 0x03, 0x03, .u64, .ro, 0, 0, true, "retries"⟩,
  ⟨0x3001, 0x3001, 0x04, 0x04, .u64, .ro, 0, 0, true, "retry_failures"⟩,
  ⟨0x3001, 0x3001, 0x05, 0x05, .u64, .ro, 0, 0, true, "unmapped_accesses"⟩,
  ⟨0x3001, 0x3001, 0x06, 0x06, .u64, .ro, 0, 0, true, "poisoned_units"⟩,
  ⟨0x3001, 0x3001, 0x07, 0x07, .u64, .ro, 0, 0, true, "ondie_corrected"⟩,
  ⟨0x3010, 0x3013, 0x01, 0x01, .u64, .ro, 0x900000000, 0, true, "range_size"⟩,
  ⟨0x3010, 0x3013, 0x02, 0x02, .u32, .ro, 0xffffffff, 0, true, "channels_active"⟩,
  ⟨0x3010, 0x3013, 0x03, 0x03, .u32, .ro, 0, 0, true, "channels_suspect"⟩,
  ⟨0x3010, 0x3013, 0x04, 0x04, .u16, .ro, 0, 0, true, "pages_retired"⟩,
  ⟨0x3010, 0x3013, 0x05, 0x05, .u8, .ro, 0, 0, true, "remap_entries"⟩]

/-- Dictionary lines, part 2. -/
def dictRows2 : List DictRow := [
  ⟨0x3010, 0x3013, 0x06, 0x06, .blob, .ro, 0, 512, true, "remap_table"⟩,
  ⟨0x3010, 0x3013, 0x07, 0x07, .blob, .ro, 0, 4096, false, "retired_rows"⟩,
  ⟨0x3010, 0x3013, 0x08, 0x08, .u16, .ro, 0, 0, true, "poison_count"⟩,
  ⟨0x3010, 0x3013, 0x09, 0x09, .u8, .ro, 0, 0, true, "state"⟩,
  ⟨0x3018, 0x301B, 0x01, 0x01, .u64, .ro, 0x6000000000, 0, true, "range_size"⟩,
  ⟨0x3018, 0x301B, 0x02, 0x02, .u32, .ro, 0xffffff, 0, true, "channels_active"⟩,
  ⟨0x3018, 0x301B, 0x03, 0x03, .u32, .ro, 0, 0, true, "channels_suspect"⟩,
  ⟨0x3018, 0x301B, 0x04, 0x04, .u16, .ro, 0, 0, true, "pages_retired"⟩,
  ⟨0x3018, 0x301B, 0x05, 0x05, .u8, .ro, 0, 0, true, "remap_entries"⟩,
  ⟨0x3018, 0x301B, 0x06, 0x06, .blob, .ro, 0, 512, true, "remap_table"⟩,
  ⟨0x3018, 0x301B, 0x07, 0x07, .blob, .ro, 0, 4096, false, "retired_rows"⟩,
  ⟨0x3018, 0x301B, 0x08, 0x08, .u16, .ro, 0, 0, true, "poison_count"⟩,
  ⟨0x3018, 0x301B, 0x09, 0x09, .u8, .ro, 0, 0, true, "state"⟩,
  ⟨0x3100, 0x3100, 0x01, 0x01, .u64, .rw, 0, 0, true, "repair_target"⟩,
  ⟨0x3100, 0x3100, 0x02, 0x02, .u8, .wo, 0, 0, true, "repair_op"⟩,
  ⟨0x3100, 0x3100, 0x03, 0x03, .u8, .ro, 0, 0, true, "repair_status"⟩,
  ⟨0x3100, 0x3100, 0x04, 0x04, .u8, .ro, 0, 0, true, "spares_left"⟩,
  ⟨0x3120, 0x3120, 0x01, 0x01, .u16, .rw, 0, 0, true, "channel_select"⟩,
  ⟨0x3120, 0x3120, 0x02, 0x02, .u64, .ro, 0, 0, true, "ch_corrected"⟩,
  ⟨0x3120, 0x3120, 0x03, 0x03, .u64, .ro, 0, 0, true, "ch_uncorrectable"⟩,
  ⟨0x3120, 0x3120, 0x04, 0x04, .u64, .ro, 0, 0, true, "ch_retries"⟩,
  ⟨0x3120, 0x3120, 0x05, 0x05, .u64, .ro, 0, 0, true, "ch_retry_failures"⟩,
  ⟨0x3120, 0x3120, 0x06, 0x06, .u16, .ro, 0, 0, true, "ch_rows_repaired"⟩,
  ⟨0x3200, 0x3200, 0x01, 0x01, .u8, .rw, 0, 0, true, "mapout_unit"⟩,
  ⟨0x3200, 0x3200, 0x02, 0x02, .u32, .rw, 0, 0, true, "mapout_channels"⟩,
  ⟨0x3200, 0x3200, 0x03, 0x03, .u64, .rw, 0, 0, true, "parking_addr"⟩,
  ⟨0x3200, 0x3200, 0x04, 0x04, .u8, .wo, 0, 0, true, "mapout_op"⟩,
  ⟨0x3200, 0x3200, 0x05, 0x05, .u8, .ro, 0, 0, true, "mapout_status"⟩,
  ⟨0x3200, 0x3200, 0x06, 0x06, .u64, .ro, 0, 0, true, "planned_size"⟩,
  ⟨0x3200, 0x3200, 0x07, 0x07, .u32, .ro, 0, 0, true, "boundary"⟩,
  ⟨0x3200, 0x3200, 0x08, 0x08, .u64, .ro, 0, 0, true, "reflow_poisoned"⟩,
  ⟨0x3200, 0x3200, 0x09, 0x09, .u32, .ro, 0, 0, true, "reflow_time"⟩,
  ⟨0x3300, 0x3300, 0x01, 0x01, .u8, .rw, 0, 0, true, "port_stack"⟩,
  ⟨0x3300, 0x3300, 0x02, 0x02, .u32, .rwq, 0, 0, true, "port_ir"⟩,
  ⟨0x3300, 0x3300, 0x03, 0x03, .u16, .rwq, 0, 0, true, "port_dr_length"⟩,
  ⟨0x3300, 0x3300, 0x04, 0x04, .blob, .rwq, 0, 512, false, "port_dr"⟩,
  ⟨0x3300, 0x3300, 0x05, 0x05, .u8, .ro, 0, 0, true, "port_status"⟩,
  ⟨0x4000, 0x4000, 0x01, 0x01, .f32, .rw, 0x3c800000, 0, true, "tau_mse"⟩,
  ⟨0x4000, 0x4000, 0x02, 0x02, .f32, .rw, 0x3b800000, 0, true, "tau_clip"⟩,
  ⟨0x4000, 0x4000, 0x03, 0x03, .u8, .rw, 2, 0, true, "guard_band"⟩]

/-- Dictionary lines, part 3. -/
def dictRows3 : List DictRow := [
  ⟨0x4000, 0x4000, 0x04, 0x04, .bool, .rw, 1, 0, true, "widen_enable"⟩,
  ⟨0x4001, 0x4001, 0x01, 0x01, .u64, .ro, 0, 0, true, "windows_checked"⟩,
  ⟨0x4001, 0x4001, 0x02, 0x02, .u64, .ro, 0, 0, true, "elements_converted"⟩,
  ⟨0x4001, 0x4001, 0x03, 0x03, .u64, .ro, 0, 0, true, "elements_clipped"⟩,
  ⟨0x4001, 0x4001, 0x04, 0x04, .u64, .ro, 0, 0, true, "groups_invalid"⟩,
  ⟨0x4001, 0x4001, 0x05, 0x05, .u64, .ro, 0, 0, true, "scale_overrides"⟩,
  ⟨0x4001, 0x4001, 0x06, 0x06, .u64, .ro, 0, 0, true, "widen_n8"⟩,
  ⟨0x4001, 0x4001, 0x07, 0x07, .u64, .ro, 0, 0, true, "widen_bf16"⟩,
  ⟨0x4001, 0x4001, 0x08, 0x08, .u64, .ro, 0, 0, true, "widen_suppressed"⟩,
  ⟨0x4001, 0x4001, 0x09, 0x09, .u64, .ro, 0, 0, true, "clip_windows"⟩,
  ⟨0x4001, 0x4001, 0x0A, 0x0A, .u64, .ro, 0, 0, true, "mx_blocks"⟩,
  ⟨0x4001, 0x4001, 0x0B, 0x0B, .u64, .ro, 0, 0, true, "mx_blocks_invalid"⟩,
  ⟨0x4001, 0x4001, 0x0C, 0x0C, .u64, .ro, 0, 0, true, "t2_reserved"⟩,
  ⟨0x4010, 0x401F, 0x01, 0x01, .u64, .ro, 0, 0, true, "widen_n8"⟩,
  ⟨0x4010, 0x401F, 0x02, 0x02, .u64, .ro, 0, 0, true, "widen_bf16"⟩,
  ⟨0x4010, 0x401F, 0x03, 0x03, .u64, .ro, 0, 0, true, "scale_overrides"⟩,
  ⟨0x4010, 0x401F, 0x04, 0x04, .u64, .ro, 0, 0, true, "elements_clipped"⟩,
  ⟨0x4010, 0x401F, 0x05, 0x05, .u64, .ro, 0, 0, true, "groups_invalid"⟩,
  ⟨0x4010, 0x401F, 0x06, 0x06, .u64, .ro, 0, 0, true, "clip_windows"⟩,
  ⟨0x4800, 0x4800, 0x01, 0x01, .u64, .ro, 0, 0, true, "draws"⟩,
  ⟨0x4800, 0x4800, 0x02, 0x02, .u64, .ro, 0, 0, true, "jumps"⟩,
  ⟨0x4800, 0x4800, 0x03, 0x03, .u64, .ro, 0, 0, true, "jump_cc"⟩,
  ⟨0x4800, 0x4800, 0x04, 0x04, .u32, .ro, 0, 0, true, "bank_selftest_fail"⟩,
  ⟨0x4810, 0x481F, 0x01, 0x01, .u64, .rw, 0, 0, true, "partition_seed"⟩,
  ⟨0x4810, 0x481F, 0x02, 0x02, .u64, .ro, 0, 0, true, "draws"⟩,
  ⟨0x5000, 0x5000, 0x01, 0x01, .u32, .ro, 0, 0, true, "streams_valid"⟩,
  ⟨0x5000, 0x5000, 0x02, 0x02, .u64, .ro, 0, 0, true, "chunks_completed"⟩,
  ⟨0x5000, 0x5000, 0x03, 0x03, .u64, .ro, 0, 0, true, "chunks_aborted"⟩,
  ⟨0x5000, 0x5000, 0x04, 0x04, .u64, .ro, 0, 0, true, "chunks_discarded"⟩,
  ⟨0x5000, 0x5000, 0x05, 0x05, .u64, .ro, 0, 0, true, "deadline_misses"⟩,
  ⟨0x5000, 0x5000, 0x06, 0x06, .u64, .ro, 0, 0, true, "state_waits"⟩,
  ⟨0x5000, 0x5000, 0x07, 0x07, .u64, .ro, 0, 0, true, "state_wait_time"⟩,
  ⟨0x5000, 0x5000, 0x08, 0x08, .u64, .ro, 0, 0, true, "reset_steps"⟩,
  ⟨0x5000, 0x5000, 0x09, 0x09, .u64, .ro, 0, 0, true, "overruns"⟩,
  ⟨0x5000, 0x5000, 0x0A, 0x0A, .u64, .ro, 0, 0, true, "batches"⟩,
  ⟨0x5000, 0x5000, 0x0B, 0x0B, .u64, .ro, 0, 0, true, "batch_rows"⟩,
  ⟨0x5000, 0x5000, 0x0C, 0x0C, .u32, .rc, 0, 0, true, "turnaround_max"⟩,
  ⟨0x5001, 0x5001, 0x01, 0x01, .u16, .rw, 0, 0, true, "window_select"⟩,
  ⟨0x5001, 0x5001, 0x02, 0x02, .blob, .ro, 0, 64, true, "window_entry"⟩,
  ⟨0x5010, 0x501F, 0x01, 0x01, .u64, .ro, 0, 0, true, "chunks_completed"⟩]

/-- Dictionary lines, part 4. -/
def dictRows4 : List DictRow := [
  ⟨0x5010, 0x501F, 0x02, 0x02, .u64, .ro, 0, 0, true, "deadline_misses"⟩,
  ⟨0x5010, 0x501F, 0x03, 0x03, .u64, .ro, 0, 0, true, "state_waits"⟩,
  ⟨0x5010, 0x501F, 0x04, 0x04, .u64, .ro, 0, 0, true, "overruns"⟩,
  ⟨0x5100, 0x511F, 0x01, 0x01, .bool, .rw, 0, 0, true, "enable"⟩,
  ⟨0x5100, 0x511F, 0x02, 0x02, .u8, .rwq, 0, 0, true, "partition"⟩,
  ⟨0x5100, 0x511F, 0x03, 0x03, .u8, .rwq, 4, 0, true, "steps"⟩,
  ⟨0x5100, 0x511F, 0x04, 0x04, .u16, .rwq, 256, 0, true, "batch_width"⟩,
  ⟨0x5100, 0x511F, 0x05, 0x05, .u8, .rwq, 6, 0, true, "layers"⟩,
  ⟨0x5100, 0x511F, 0x06, 0x06, .blob, .rwq, 0, 64, false, "layer_cores"⟩,
  ⟨0x5100, 0x511F, 0x07, 0x07, .blob, .rwq, 0, 64, false, "cores"⟩,
  ⟨0x5100, 0x511F, 0x08, 0x08, .blob, .rwq, 0, 64, false, "frontend_cores"⟩,
  ⟨0x5100, 0x511F, 0x09, 0x09, .u16, .rwq, 0, 0, true, "slice_rows"⟩,
  ⟨0x5100, 0x511F, 0x0A, 0x0A, .bool, .rwq, 0, 0, true, "resident"⟩,
  ⟨0x5100, 0x511F, 0x0B, 0x0B, .u8, .rwq, 2, 0, true, "frame_rows"⟩,
  ⟨0x5100, 0x511F, 0x0C, 0x0C, .u64, .rwq, 0, 0, true, "feat_base"⟩,
  ⟨0x5100, 0x511F, 0x0D, 0x0D, .u8, .rwq, 2, 0, true, "out_rows"⟩,
  ⟨0x5100, 0x511F, 0x0E, 0x0E, .u64, .rwq, 0, 0, true, "out_base"⟩,
  ⟨0x5100, 0x511F, 0x0F, 0x0F, .u32, .rwq, 0, 0, true, "out_entries"⟩,
  ⟨0x5100, 0x511F, 0x10, 0x10, .u16, .rwq, 0, 0, true, "queue"⟩,
  ⟨0x5100, 0x511F, 0x11, 0x11, .u32, .rwq, 0, 0, true, "exchange_base"⟩,
  ⟨0x5100, 0x511F, 0x12, 0x12, .u32, .rwq, 0, 0, true, "exchange_rows"⟩,
  ⟨0x5100, 0x511F, 0x13, 0x13, .u16, .rw, 20, 0, true, "batch_window"⟩,
  ⟨0x5100, 0x511F, 0x14, 0x14, .bool, .ro, 0, 0, true, "halted"⟩,
  ⟨0x5100, 0x511F, 0x15, 0x15, .u64, .ro, 0, 0, true, "batches"⟩,
  ⟨0x5100, 0x511F, 0x16, 0x16, .u32, .rw, 0, 0, true, "out_head"⟩,
  ⟨0x5100, 0x511F, 0x17, 0x17, .u64, .ro, 0, 0, true, "out_waits"⟩,
  ⟨0x5800, 0x5800, 0x01, 0x01, .bool, .rw, 0, 0, true, "shared_tick"⟩,
  ⟨0x5800, 0x5800, 0x02, 0x02, .bool, .ro, 1, 0, true, "shared_active"⟩,
  ⟨0x5800, 0x5800, 0x03, 0x03, .u64, .ro, 0, 0, true, "pps_last"⟩,
  ⟨0x5800, 0x5800, 0x04, 0x04, .u32, .ro, 0, 0, true, "pps_interval"⟩,
  ⟨0x5800, 0x5800, 0x05, 0x05, .bool, .ro, 0, 0, true, "pps_valid"⟩,
  ⟨0x5800, 0x5800, 0x06, 0x06, .u32, .rc, 0, 0, true, "pps_rejects"⟩,
  ⟨0x5800, 0x5800, 0x07, 0x07, .u64, .rw, 0, 0, true, "intake_base"⟩,
  ⟨0x5801, 0x5801, 0x01, 0x01, .u64, .ro, 0, 0, true, "packets"⟩,
  ⟨0x5801, 0x5801, 0x02, 0x02, .u64, .ro, 0, 0, true, "misrouted"⟩,
  ⟨0x5801, 0x5801, 0x03, 0x03, .u64, .ro, 0, 0, true, "late"⟩,
  ⟨0x5801, 0x5801, 0x04, 0x04, .u64, .ro, 0, 0, true, "overflow"⟩,
  ⟨0x5801, 0x5801, 0x05, 0x05, .u64, .ro, 0, 0, true, "lost"⟩,
  ⟨0x5801, 0x5801, 0x06, 0x06, .u64, .ro, 0, 0, true, "bad_samples"⟩,
  ⟨0x5801, 0x5801, 0x07, 0x07, .u64, .ro, 0, 0, true, "slips"⟩]

/-- Dictionary lines, part 5. -/
def dictRows5 : List DictRow := [
  ⟨0x5801, 0x5801, 0x08, 0x08, .u64, .ro, 0, 0, true, "clamps"⟩,
  ⟨0x5801, 0x5801, 0x09, 0x09, .u64, .ro, 0, 0, true, "egress_drops"⟩,
  ⟨0x5810, 0x582F, 0x01, 0x01, .u32, .rwq, 25000, 0, true, "div_n"⟩,
  ⟨0x5810, 0x582F, 0x02, 0x02, .u32, .rwq, 0, 0, true, "div_f"⟩,
  ⟨0x5810, 0x582F, 0x03, 0x03, .u16, .rwq, 160, 0, true, "frame_div"⟩,
  ⟨0x5810, 0x582F, 0x04, 0x04, .u32, .rwq, 16000, 0, true, "nominal_rate"⟩,
  ⟨0x5810, 0x582F, 0x05, 0x05, .bool, .rwq, 0, 0, true, "pps_lock"⟩,
  ⟨0x5810, 0x582F, 0x06, 0x06, .u8, .rw, 0, 0, true, "start_mode"⟩,
  ⟨0x5810, 0x582F, 0x07, 0x07, .u64, .rw, 0, 0, true, "start_at"⟩,
  ⟨0x5810, 0x582F, 0x08, 0x08, .bool, .ro, 0, 0, true, "running"⟩,
  ⟨0x5810, 0x582F, 0x09, 0x09, .u64, .ro, 0, 0, true, "start_cycle"⟩,
  ⟨0x5810, 0x582F, 0x0A, 0x0A, .u64, .ro, 0, 0, true, "frame_count"⟩,
  ⟨0x5810, 0x582F, 0x0B, 0x0B, .u32, .rc, 0, 0, true, "lock_clamps"⟩,
  ⟨0x5810, 0x582F, 0x0C, 0x0C, .u64, .ro, 0x61a8000000, 0, true, "period_in_force"⟩,
  ⟨0x5880, 0x589F, 0x01, 0x01, .u64, .rwq, 0, 0, true, "base"⟩,
  ⟨0x5880, 0x589F, 0x02, 0x02, .u32, .rwq, 0, 0, true, "entries"⟩,
  ⟨0x5880, 0x589F, 0x03, 0x03, .u32, .ro, 0, 0, true, "consumed"⟩,
  ⟨0x58A0, 0x58BF, 0x01, 0x01, .u64, .rwq, 0, 0, true, "base"⟩,
  ⟨0x58A0, 0x58BF, 0x02, 0x02, .u32, .rwq, 0, 0, true, "entries"⟩,
  ⟨0x58A0, 0x58BF, 0x03, 0x03, .u64, .rwq, 0, 0, true, "payload_base"⟩,
  ⟨0x58A0, 0x58BF, 0x04, 0x04, .u32, .rwq, 0, 0, true, "slot_bytes"⟩,
  ⟨0x58A0, 0x58BF, 0x05, 0x05, .u32, .ro, 0, 0, true, "produced"⟩,
  ⟨0x6000, 0x6000, 0x01, 0x01, .u16, .ro, 0, 0, true, "tables_valid"⟩,
  ⟨0x6000, 0x6000, 0x02, 0x02, .u8, .rwq, 24, 0, true, "replica_mib"⟩,
  ⟨0x6000, 0x6000, 0x03, 0x03, .u8, .rwq, 8, 0, true, "update_mib"⟩,
  ⟨0x6000, 0x6000, 0x04, 0x04, .u16, .rw, 100, 0, true, "sketch_decay"⟩,
  ⟨0x6001, 0x6001, 0x01, 0x01, .u16, .rw, 0, 0, true, "table_select"⟩,
  ⟨0x6001, 0x6001, 0x02, 0x02, .blob, .rw, 0, 64, true, "table_descriptor"⟩,
  ⟨0x6002, 0x6002, 0x01, 0x01, .u16, .rw, 0, 0, true, "hot_select"⟩,
  ⟨0x6002, 0x6002, 0x02, 0x02, .blob, .rc, 0, 512, true, "hot_list"⟩,
  ⟨0x6003, 0x6003, 0x01, 0x01, .u16, .ro, 0, 0, true, "mapout_count"⟩,
  ⟨0x6003, 0x6003, 0x02, 0x02, .u64, .wo, 0, 0, true, "mapout_add"⟩,
  ⟨0x6003, 0x6003, 0x03, 0x03, .u64, .wo, 0, 0, true, "mapout_remove"⟩,
  ⟨0x6003, 0x6003, 0x04, 0x04, .blob, .ro, 0, 8192, false, "mapout_list"⟩,
  ⟨0x6010, 0x6010, 0x01, 0x01, .u64, .ro, 0, 0, true, "lookups"⟩,
  ⟨0x6010, 0x6010, 0x02, 0x02, .u64, .ro, 0, 0, true, "replica_reads"⟩,
  ⟨0x6010, 0x6010, 0x03, 0x03, .u64, .ro, 0, 0, true, "write_set_reads"⟩,
  ⟨0x6010, 0x6010, 0x04, 0x04, .u64, .ro, 0, 0, true, "remote_reads"⟩,
  ⟨0x6010, 0x6010, 0x05, 0x05, .u64, .ro, 0, 0, true, "idx_sentinel"⟩,
  ⟨0x6010, 0x6010, 0x06, 0x06, .u64, .ro, 0, 0, true, "idx_range"⟩]

/-- Dictionary lines, part 6. -/
def dictRows6 : List DictRow := [
  ⟨0x6010, 0x6010, 0x07, 0x07, .u64, .ro, 0, 0, true, "idx_mapped"⟩,
  ⟨0x6010, 0x6010, 0x08, 0x08, .u64, .ro, 0, 0, true, "idx_uncorrectable"⟩,
  ⟨0x6010, 0x6010, 0x09, 0x09, .u64, .ro, 0, 0, true, "empty_bags"⟩,
  ⟨0x6010, 0x6010, 0x0A, 0x0A, .u64, .ro, 0, 0, true, "scatter_rows"⟩,
  ⟨0x6010, 0x6010, 0x0B, 0x0B, .u64, .ro, 0, 0, true, "scatter_dropped"⟩,
  ⟨0x6010, 0x6010, 0x0C, 0x0C, .u64, .ro, 0, 0, true, "grad_underflow"⟩,
  ⟨0x6010, 0x6010, 0x0D, 0x0D, .u64, .ro, 0, 0, true, "grad_overflow"⟩,
  ⟨0x6010, 0x6010, 0x0E, 0x0E, .u64, .ro, 0, 0, true, "update_invalid"⟩,
  ⟨0x6010, 0x6010, 0x0F, 0x0F, .u64, .ro, 0, 0, true, "update_area_waits"⟩,
  ⟨0x6010, 0x6010, 0x10, 0x10, .u64, .ro, 0, 0, true, "update_windows"⟩,
  ⟨0x6010, 0x6010, 0x11, 0x11, .u64, .ro, 0, 0, true, "hot_inserts"⟩,
  ⟨0x6010, 0x6010, 0x12, 0x12, .u64, .ro, 0, 0, true, "hot_evictions"⟩,
  ⟨0x6010, 0x6010, 0x13, 0x13, .u32, .ro, 0, 0, true, "replicas"⟩,
  ⟨0x6010, 0x6010, 0x14, 0x14, .u32, .ro, 0, 0, true, "relocations"⟩,
  ⟨0x6010, 0x6010, 0x15, 0x15, .u64, .ro, 0, 0, true, "rows_skipped"⟩,
  ⟨0x6020, 0x602F, 0x01, 0x01, .u64, .ro, 0, 0, true, "lookups"⟩,
  ⟨0x6020, 0x602F, 0x02, 0x02, .u64, .ro, 0, 0, true, "default_rows"⟩,
  ⟨0x6020, 0x602F, 0x03, 0x03, .u64, .ro, 0, 0, true, "scatter_rows"⟩,
  ⟨0x6020, 0x602F, 0x04, 0x04, .u64, .ro, 0, 0, true, "update_windows"⟩,
  ⟨0x6800, 0x6800, 0x01, 0x01, .u8, .rwq, 32, 0, true, "write_set_mib"⟩,
  ⟨0x6800, 0x6800, 0x02, 0x02, .u64, .ro, 0, 0, true, "published_mark"⟩,
  ⟨0x6800, 0x6800, 0x03, 0x03, .u64, .ro, 0, 0, true, "oldest_pin"⟩,
  ⟨0x6800, 0x6800, 0x04, 0x04, .u64, .ro, 0, 0, true, "window_stalls"⟩,
  ⟨0x6800, 0x6800, 0x05, 0x05, .u32, .rw, 1000, 0, true, "dict_sluice_timeout"⟩,
  ⟨0x6800, 0x6800, 0x06, 0x06, .u32, .rw, 10000, 0, true, "step_timeout"⟩,
  ⟨0x6800, 0x6800, 0x07, 0x07, .u32, .rw, 1000, 0, true, "audit_interval"⟩,
  ⟨0x6800, 0x6800, 0x08, 0x08, .u64, .ro, 0, 0, true, "groups_opened"⟩,
  ⟨0x6800, 0x6800, 0x09, 0x09, .u64, .ro, 0, 0, true, "groups_aborted"⟩,
  ⟨0x6800, 0x6800, 0x0A, 0x0A, .u64, .ro, 0, 0, true, "two_die_groups"⟩,
  ⟨0x6800, 0x6800, 0x0B, 0x0B, .u64, .ro, 0, 0, true, "limit_failures"⟩,
  ⟨0x6800, 0x6800, 0x0C, 0x0C, .u64, .ro, 0, 0, true, "late_aborts"⟩,
  ⟨0x6800, 0x6800, 0x0D, 0x0D, .u64, .ro, 0, 0, true, "unpinned_reads"⟩,
  ⟨0x6800, 0x6800, 0x0E, 0x0E, .u64, .ro, 0, 0, true, "consistency_faults"⟩,
  ⟨0x6800, 0x6800, 0x0F, 0x0F, .u64, .ro, 0, 0, true, "replica_refreshed"⟩,
  ⟨0x6800, 0x6800, 0x10, 0x10, .u64, .ro, 0, 0, true, "home_refreshed"⟩,
  ⟨0x6800, 0x6800, 0x11, 0x11, .u64, .ro, 0, 0, true, "parcels"⟩,
  ⟨0x6800, 0x6800, 0x12, 0x12, .u64, .ro, 0, 0, true, "late_parcels"⟩,
  ⟨0x6800, 0x6800, 0x13, 0x13, .u64, .ro, 0, 0, true, "step_timeouts"⟩,
  ⟨0x6800, 0x6800, 0x14, 0x14, .u8, .ro, 24, 0, true, "general_mib"⟩,
  ⟨0x6801, 0x6802, 0x01, 0x01, .u64, .ro, 0, 0, true, "write_set_bytes"⟩]

/-- Dictionary lines, part 7. -/
def dictRows7 : List DictRow := [
  ⟨0x6801, 0x6802, 0x02, 0x02, .u32, .ro, 0, 0, true, "versions"⟩,
  ⟨0x6801, 0x6802, 0x03, 0x03, .u32, .ro, 0, 0, true, "pending_versions"⟩,
  ⟨0x6801, 0x6802, 0x04, 0x04, .u16, .ro, 0, 0, true, "groups_pending"⟩,
  ⟨0x6801, 0x6802, 0x05, 0x05, .u16, .ro, 0, 0, true, "pins_held"⟩,
  ⟨0x6801, 0x6802, 0x06, 0x06, .u32, .ro, 0, 0, true, "oldest_pin_age"⟩,
  ⟨0x6801, 0x6802, 0x07, 0x07, .u64, .ro, 0, 0, true, "drained"⟩,
  ⟨0x6801, 0x6802, 0x08, 0x08, .u64, .ro, 0, 0, true, "drain_batches"⟩,
  ⟨0x6801, 0x6802, 0x09, 0x09, .u64, .rc, 0, 0, true, "full_waits"⟩,
  ⟨0x6801, 0x6802, 0x0A, 0x0A, .u64, .rc, 0, 0, true, "full_wait_time"⟩,
  ⟨0x6803, 0x6803, 0x01, 0x01, .u16, .rw, 0, 0, true, "pin_select"⟩,
  ⟨0x6803, 0x6803, 0x02, 0x02, .u64, .ro, 0, 0, true, "pin_entry"⟩,
  ⟨0x6810, 0x6810, 0x01, 0x01, .u64, .rw, 0, 0, true, "update_set"⟩,
  ⟨0x6810, 0x6810, 0x02, 0x02, .u32, .rw, 0, 0, true, "step_close"⟩,
  ⟨0x6810, 0x6810, 0x03, 0x03, .u32, .ro, 0, 0, true, "closed_step"⟩,
  ⟨0x6810, 0x6810, 0x04, 0x04, .u32, .ro, 0, 0, true, "turn_step"⟩,
  ⟨0x6810, 0x6810, 0x05, 0x05, .u8, .ro, 0, 0, true, "turn_module"⟩,
  ⟨0x6820, 0x682F, 0x01, 0x01, .u64, .ro, 0, 0, true, "groups_opened"⟩,
  ⟨0x6820, 0x682F, 0x02, 0x02, .u64, .ro, 0, 0, true, "groups_aborted"⟩,
  ⟨0x6820, 0x682F, 0x03, 0x03, .u64, .ro, 0, 0, true, "full_waits"⟩,
  ⟨0x6820, 0x682F, 0x04, 0x04, .u16, .ro, 0, 0, true, "pins_held"⟩,
  ⟨0x7000, 0x7000, 0x01, 0x01, .u16, .ro, 0, 0, true, "partitions_active"⟩,
  ⟨0x7000, 0x7000, 0x02, 0x02, .u32, .rw, 10, 0, true, "all_blocked_threshold"⟩,
  ⟨0x7000, 0x7000, 0x03, 0x03, .u16, .ro, 0, 0, true, "contexts_active"⟩,
  ⟨0x7000, 0x7000, 0x04, 0x04, .u64, .ro, 0, 0, true, "swap_outs"⟩,
  ⟨0x7000, 0x7000, 0x05, 0x05, .u64, .ro, 0, 0, true, "restores"⟩,
  ⟨0x7000, 0x7000, 0x06, 0x06, .u64, .ro, 0, 0, true, "switches"⟩,
  ⟨0x7000, 0x7000, 0x07, 0x07, .u32, .rc, 0, 0, true, "preempt_max"⟩,
  ⟨0x7001, 0x7001, 0x01, 0x01, .u8, .rw, 0, 0, true, "partition_select"⟩,
  ⟨0x7001, 0x7001, 0x02, 0x02, .u8, .wo, 0, 0, true, "partition_op"⟩,
  ⟨0x7010, 0x701F, 0x01, 0x01, .u8, .ro, 0, 0, true, "state"⟩,
  ⟨0x7010, 0x701F, 0x02, 0x02, .u64, .rwq, 0, 0, true, "cores"⟩,
  ⟨0x7010, 0x701F, 0x03, 0x03, .u32, .rw, 250, 0, true, "quantum"⟩,
  ⟨0x7010, 0x701F, 0x04, 0x04, .blob, .rwq, 0, 128, true, "windows"⟩,
  ⟨0x7010, 0x701F, 0x05, 0x06, .u32, .rwq, 0, 0, true, "quota"⟩,
  ⟨0x7010, 0x701F, 0x07, 0x08, .u32, .ro, 0, 0, true, "quota_used"⟩,
  ⟨0x7010, 0x701F, 0x09, 0x09, .u64, .rwq, 0, 0, true, "save_base"⟩,
  ⟨0x7010, 0x701F, 0x0A, 0x0A, .u64, .rwq, 0, 0, true, "save_bytes"⟩,
  ⟨0x7010, 0x701F, 0x0B, 0x0B, .u64, .ro, 0, 0, true, "quota_waits"⟩,
  ⟨0x7010, 0x701F, 0x0C, 0x0C, .u64, .ro, 0, 0, true, "all_blocked"⟩,
  ⟨0x7040, 0x7040, 0x01, 0x01, .u16, .rw, 0, 0, true, "context_select"⟩]

/-- Dictionary lines, part 8. -/
def dictRows8 : List DictRow := [
  ⟨0x7040, 0x7040, 0x02, 0x02, .blob, .ro, 0, 32, true, "context_record"⟩,
  ⟨0x7040, 0x7040, 0x03, 0x03, .blob, .ro, 0, 64, true, "context_handles"⟩,
  ⟨0x7100, 0x713F, 0x01, 0x01, .blob, .ro, 0, 4096, false, "resident"⟩,
  ⟨0x7100, 0x713F, 0x02, 0x02, .blob, .ro, 0, 4096, false, "swapped"⟩,
  ⟨0x7100, 0x713F, 0x03, 0x03, .u16, .ro, 65535, 0, true, "running"⟩,
  ⟨0x7100, 0x713F, 0x04, 0x04, .u16, .ro, 8192, 0, true, "free_rows"⟩,
  ⟨0x7100, 0x713F, 0x05, 0x05, .u8, .ro, 64, 0, true, "lanes"⟩,
  ⟨0x7800, 0x7800, 0x01, 0x01, .u8, .rw, 0, 0, true, "snapshot_select"⟩,
  ⟨0x7800, 0x7800, 0x02, 0x02, .blob, .ro, 0, 128, true, "snapshot"⟩,
  ⟨0x7800, 0x7800, 0x03, 0x03, .u64, .ro, 0, 0, true, "snapshot_mark"⟩,
  ⟨0x7800, 0x7800, 0x04, 0x04, .u64, .ro, 0, 0, true, "snapshot_time"⟩,
  ⟨0x7800, 0x7800, 0x05, 0x05, .f32, .ro, 0x3f800000, 0, true, "energy_scale"⟩,
  ⟨0x7810, 0x7820, 0x01, 0x05, .u64, .ro, 0, 0, true, "busy_cc"⟩,
  ⟨0x7810, 0x7820, 0x06, 0x07, .u64, .ro, 0, 0, true, "fast_bytes"⟩,
  ⟨0x7810, 0x7820, 0x08, 0x09, .u64, .ro, 0, 0, true, "large_bytes"⟩,
  ⟨0x7810, 0x7820, 0x0A, 0x0B, .u64, .ro, 0, 0, true, "fabric_bytes"⟩,
  ⟨0x7810, 0x7820, 0x0C, 0x0D, .u64, .ro, 0, 0, true, "host_bytes"⟩,
  ⟨0x7810, 0x7820, 0x0E, 0x0E, .u64, .ro, 0, 0, true, "energy_mj"⟩,
  ⟨0x7810, 0x7820, 0x0F, 0x0F, .u64, .ro, 0, 0, true, "swap_outs"⟩,
  ⟨0x7810, 0x7820, 0x10, 0x10, .u64, .ro, 0, 0, true, "switches"⟩,
  ⟨0x8000, 0x8000, 0x01, 0x01, .u8, .rwq, 0, 0, true, "module_id"⟩,
  ⟨0x8000, 0x8000, 0x02, 0x02, .u32, .rw, 0xffffff, 0, true, "link_enable"⟩,
  ⟨0x8000, 0x8000, 0x03, 0x03, .u32, .rw, 100, 0, true, "fabric_timeout"⟩,
  ⟨0x8000, 0x8000, 0x04, 0x04, .u16, .rw, 16, 0, true, "lane_ucw_limit"⟩,
  ⟨0x8000, 0x8000, 0x05, 0x05, .f32, .rw, 0x38d1b717, 0, true, "lane_ser_limit"⟩,
  ⟨0x8000, 0x8000, 0x06, 0x06, .u32, .ro, 0, 0, true, "route_epoch"⟩,
  ⟨0x8000, 0x8000, 0x07, 0x07, .u64, .ro, 0, 0, true, "ordered_holds"⟩,
  ⟨0x8001, 0x8001, 0x01, 0x06, .u64, .ro, 0, 0, true, "tx_bytes"⟩,
  ⟨0x8002, 0x8002, 0x01, 0x06, .u64, .ro, 0, 0, true, "rx_bytes"⟩,
  ⟨0x8003, 0x8003, 0x01, 0x01, .u64, .ro, 0, 0, true, "replays"⟩,
  ⟨0x8003, 0x8003, 0x02, 0x02, .u64, .ro, 0, 0, true, "crc_errors"⟩,
  ⟨0x8003, 0x8003, 0x03, 0x03, .u32, .ro, 0, 0, true, "spare_switches"⟩,
  ⟨0x8003, 0x8003, 0x04, 0x04, .u32, .ro, 0, 0, true, "link_downs"⟩,
  ⟨0x8003, 0x8003, 0x05, 0x05, .u64, .ro, 0, 0, true, "unreachable"⟩,
  ⟨0x8003, 0x8003, 0x06, 0x06, .u64, .ro, 0, 0, true, "refresh_dropped"⟩,
  ⟨0x8003, 0x8003, 0x07, 0x07, .u64, .ro, 0, 0, true, "denied"⟩,
  ⟨0x8010, 0x8027, 0x01, 0x01, .u8, .ro, 0, 0, true, "link_state"⟩,
  ⟨0x8010, 0x8027, 0x02, 0x02, .u16, .ro, 0, 0, true, "peer"⟩,
  ⟨0x8010, 0x8027, 0x03, 0x03, .u64, .ro, 0x76543210, 0, true, "lane_map"⟩,
  ⟨0x8010, 0x8027, 0x04, 0x04, .u32, .ro, 0, 0, true, "failed_lanes"⟩]

/-- Dictionary lines, part 9. -/
def dictRows9 : List DictRow := [
  ⟨0x8010, 0x8027, 0x05, 0x05, .u64, .ro, 0, 0, true, "corrected_symbols"⟩,
  ⟨0x8010, 0x8027, 0x06, 0x06, .u64, .ro, 0, 0, true, "uncorrectable_cw"⟩,
  ⟨0x8010, 0x8027, 0x07, 0x07, .u64, .ro, 0, 0, true, "link_replays"⟩,
  ⟨0x8010, 0x8027, 0x08, 0x08, .u32, .ro, 0, 0, true, "rtt"⟩,
  ⟨0x8030, 0x8030, 0x01, 0x08, .u32, .rw, 0, 0, true, "trunk"⟩,
  ⟨0x8040, 0x8040, 0x01, 0x01, .blob, .rw, 0, 128, true, "route_table"⟩,
  ⟨0x8050, 0x8050, 0x01, 0x10, .u16, .rwq, 4096, 0, true, "credit_slots"⟩,
  ⟨0x8051, 0x8051, 0x01, 0x01, .u8, .rw, 8, 0, true, "class_weight"⟩,
  ⟨0x8051, 0x8051, 0x02, 0x02, .u8, .rw, 4, 0, true, "class_weight"⟩,
  ⟨0x8051, 0x8051, 0x03, 0x03, .u8, .rw, 2, 0, true, "class_weight"⟩,
  ⟨0x8051, 0x8051, 0x04, 0x04, .u8, .rw, 4, 0, true, "class_weight"⟩,
  ⟨0x8051, 0x8051, 0x05, 0x05, .u8, .rw, 2, 0, true, "class_weight"⟩,
  ⟨0x8051, 0x8051, 0x06, 0x06, .u8, .rw, 1, 0, true, "class_weight"⟩,
  ⟨0x8060, 0x806F, 0x01, 0x01, .u64, .rw, 0, 0, true, "window_base"⟩,
  ⟨0x8060, 0x806F, 0x02, 0x02, .u64, .rw, 0, 0, true, "window_size"⟩,
  ⟨0x8060, 0x806F, 0x03, 0x03, .u64, .rw, 0, 0, true, "window_modules"⟩,
  ⟨0x8060, 0x806F, 0x04, 0x04, .u8, .rw, 0, 0, true, "window_rights"⟩,
  ⟨0x9000, 0x9000, 0x01, 0x01, .u32, .rw, 0, 0, true, "event_mask"⟩,
  ⟨0x9000, 0x9000, 0x02, 0x02, .u32, .rw, 1000, 0, true, "event_holdoff"⟩,
  ⟨0x9000, 0x9000, 0x03, 0x03, .bool, .rc, 0, 0, true, "alert_pending"⟩,
  ⟨0x9000, 0x9000, 0x04, 0x04, .u64, .ro, 0, 0, true, "events_posted"⟩,
  ⟨0x9001, 0x901A, 0x01, 0x01, .u64, .ro, 0, 0, true, "count"⟩,
  ⟨0x9001, 0x901A, 0x02, 0x02, .blob, .ro, 0, 32, true, "last_event"⟩,
  ⟨0x9001, 0x901A, 0x03, 0x03, .u64, .rw, 0, 0, true, "inject_arm"⟩,
  ⟨0x9001, 0x901A, 0x04, 0x04, .u32, .ro, 0, 0, true, "injections"⟩,
  ⟨0xA000, 0xA000, 0x01, 0x01, .u32, .ro, 0, 0, true, "degraded_causes"⟩,
  ⟨0xA000, 0xA000, 0x02, 0x02, .u8, .wo, 0, 0, true, "service_op"⟩,
  ⟨0xA000, 0xA000, 0x03, 0x03, .u8, .rw, 0, 0, true, "target_logical"⟩,
  ⟨0xA000, 0xA000, 0x04, 0x04, .u8, .rw, 0, 0, true, "target_physical"⟩,
  ⟨0xA000, 0xA000, 0x05, 0x05, .u8, .ro, 0, 0, true, "service_status"⟩,
  ⟨0xA000, 0xA000, 0x06, 0x06, .u8, .ro, 0, 0, true, "clusters_without_spare"⟩,
  ⟨0xA000, 0xA000, 0x07, 0x07, .u64, .ro, 0, 0, true, "rotations"⟩,
  ⟨0xA010, 0xA010, 0x01, 0x40, .u8, .ro, 0, 0, true, "core_map"⟩,
  ⟨0xA020, 0xA020, 0x01, 0x01, .u8, .ro, 0, 0, true, "active_dmc"⟩,
  ⟨0xA020, 0xA020, 0x02, 0x02, .u8, .ro, 0, 0, true, "dmc_state"⟩,
  ⟨0xA020, 0xA020, 0x03, 0x03, .u8, .ro, 1, 0, true, "dmc_state"⟩,
  ⟨0xA020, 0xA020, 0x04, 0x04, .u32, .ro, 0, 0, true, "takeovers"⟩,
  ⟨0xA020, 0xA020, 0x05, 0x06, .u64, .ro, 0, 0, true, "lost_mark_low / high"⟩,
  ⟨0xA030, 0xA030, 0x01, 0x02, .str, .ro, 0, 64, false, "slot_version"⟩,
  ⟨0xA030, 0xA030, 0x03, 0x03, .u8, .ro, 0, 0, true, "fw_state"⟩]

/-- Dictionary lines, part 10. -/
def dictRows10 : List DictRow := [
  ⟨0xA030, 0xA030, 0x04, 0x04, .u8, .ro, 0, 0, true, "fw_step"⟩,
  ⟨0xA030, 0xA030, 0x05, 0x05, .u32, .ro, 0, 0, true, "activations"⟩,
  ⟨0xA100, 0xA147, 0x01, 0x01, .u8, .ro, 0, 0, true, "phys_state"⟩,
  ⟨0xA100, 0xA147, 0x02, 0x02, .u8, .ro, 0, 0, true, "logical"⟩,
  ⟨0xA100, 0xA147, 0x03, 0x03, .u8, .ro, 64, 0, true, "lanes"⟩,
  ⟨0xA100, 0xA147, 0x04, 0x04, .u64, .ro, 0, 0, true, "last_selftest"⟩,
  ⟨0xA100, 0xA147, 0x05, 0x05, .u8, .ro, 3, 0, true, "selftest_result"⟩,
  ⟨0xA100, 0xA147, 0x06, 0x06, .u16, .ro, 0, 0, true, "faults"⟩,
  ⟨0xA100, 0xA147, 0x07, 0x07, .u32, .ro, 0, 0, true, "spare_hours"⟩,
  ⟨0xB000, 0xB000, 0x01, 0x02, .u8, .ro, 0, 0, true, "link_state"⟩,
  ⟨0xB000, 0xB000, 0x03, 0x04, .u8, .ro, 0, 0, true, "link_width"⟩,
  ⟨0xB000, 0xB000, 0x05, 0x06, .u8, .ro, 0, 0, true, "link_rate"⟩,
  ⟨0xB000, 0xB000, 0x07, 0x07, .u32, .ro, 0, 0, true, "failovers"⟩,
  ⟨0xB000, 0xB000, 0x08, 0x08, .u64, .ro, 0, 0, true, "reissued"⟩,
  ⟨0xB000, 0xB000, 0x09, 0x09, .u64, .ro, 0, 0, true, "fetch_errors"⟩,
  ⟨0xB010, 0xB020, 0x01, 0x01, .u64, .rwq, 0, 0, true, "event_base"⟩,
  ⟨0xB010, 0xB020, 0x02, 0x02, .u32, .rwq, 0, 0, true, "event_entries"⟩,
  ⟨0xB010, 0xB020, 0x03, 0x03, .u64, .rwq, 0, 0, true, "event_tail_addr"⟩,
  ⟨0xB010, 0xB020, 0x04, 0x04, .u32, .rw, 0, 0, true, "event_head"⟩,
  ⟨0xB010, 0xB020, 0x05, 0x05, .u64, .ro, 0, 0, true, "event_overflows"⟩,
  ⟨0xB010, 0xB020, 0x06, 0x07, .u64, .rwq, 0, 0, true, "egress_tail_addr"⟩,
  ⟨0xB010, 0xB020, 0x08, 0x08, .u8, .rwq, 1, 0, true, "egress_vector"⟩,
  ⟨0xB100, 0xB20F, 0x01, 0x01, .u64, .rwq, 0, 0, true, "sq_base"⟩,
  ⟨0xB100, 0xB20F, 0x02, 0x02, .u32, .rwq, 64, 0, true, "sq_entries"⟩,
  ⟨0xB100, 0xB20F, 0x03, 0x03, .u64, .rwq, 0, 0, true, "cq_base"⟩,
  ⟨0xB100, 0xB20F, 0x04, 0x04, .u32, .rwq, 64, 0, true, "cq_entries"⟩,
  ⟨0xB100, 0xB20F, 0x05, 0x05, .u64, .rwq, 0, 0, true, "cq_tail_addr"⟩,
  ⟨0xB100, 0xB20F, 0x06, 0x06, .u8, .rwq, 1, 0, true, "vector"⟩,
  ⟨0xB100, 0xB20F, 0x07, 0x07, .u8, .rwq, 0, 0, true, "home_link"⟩,
  ⟨0xB100, 0xB20F, 0x08, 0x08, .bool, .rw, 0, 0, true, "enable"⟩,
  ⟨0xB100, 0xB20F, 0x09, 0x09, .u8, .rw, 1, 0, true, "weight"⟩,
  ⟨0xB100, 0xB20F, 0x0A, 0x0A, .u8, .rw, 0, 0, true, "coalesce_count"⟩,
  ⟨0xB100, 0xB20F, 0x0B, 0x0B, .u16, .rw, 0, 0, true, "coalesce_time"⟩,
  ⟨0xB100, 0xB20F, 0x0C, 0x0C, .u32, .ro, 0, 0, true, "sq_head"⟩,
  ⟨0xB100, 0xB20F, 0x0D, 0x0D, .u32, .ro, 0, 0, true, "cq_tail"⟩,
  ⟨0xB100, 0xB20F, 0x0E, 0x0E, .u32, .ro, 0, 0, true, "outstanding"⟩,
  ⟨0xB100, 0xB20F, 0x0F, 0x0F, .u64, .ro, 0, 0, true, "cq_full_waits"⟩,
  ⟨0xB100, 0xB20F, 0x10, 0x10, .u8, .ro, 0, 0, true, "queue_status"⟩]

/-- Every line of the dictionary tables, by rising index and subindex. -/
def dictRows : List DictRow :=
  dictRows0 ++ dictRows1 ++ dictRows2 ++ dictRows3 ++ dictRows4 ++ dictRows5 ++ dictRows6 ++ dictRows7 ++ dictRows8 ++ dictRows9 ++ dictRows10

/-- Size in bytes of a scalar type (R439); 0 for STR and BLOB. -/
def DType.bytes : DType → Nat
  | .bool => 1
  | .u8 => 1
  | .u16 => 2
  | .u32 => 4
  | .u64 => 8
  | .i32 => 4
  | .i64 => 8
  | .f32 => 4
  | .str => 0
  | .blob => 0

/-- Greatest size of the entry's value. -/
def DictRow.maxSize (r : DictRow) : Nat := if r.ty.bytes = 0 then r.size else r.ty.bytes

/-- The line of an entry. -/
def dictFind (idx sub : Nat) : Option DictRow :=
  dictRows.find? fun r => r.lo ≤ idx && idx ≤ r.hi && r.slo ≤ sub && sub ≤ r.shi

/-- Number of entries of the dictionary (0x1100.01). -/
def entryCount : Nat := dictRows.foldl (fun a r => a + (r.hi + 1 - r.lo) * (r.shi + 1 - r.slo)) 0

/-- Core address code of a core (R455): die in bit 6, cluster in bits 5:4, slot in bits 3:0. -/
def coreCode (die cluster slot : Nat) : Nat := 64 * die + 16 * cluster + slot

/-- Core address code of logical core l after reset (R4). -/
def resetCode (l : Nat) : Nat := coreCode (l / 32) (l / 8 % 4) (l % 8)

/-- Key of an entry in the register map. -/
def dkey (idx sub : Nat) : Nat := 256 * idx + sub

/-- Key of an accessor's own copy of an entry (R441, R316): 0 the PF, p + 1 the VF of partition p, 17 management. -/
def akey (acc idx sub : Nat) : Nat := 0x1000000 * acc + dkey idx sub

/-- Default of a scalar entry (the tables; R4 for the core map). -/
def regDefault (key : Nat) : Nat :=
  let idx := key / 256 % 65536
  let sub := key % 256
  if idx = 0xA010 then resetCode (sub - 1)
  else if 0xA100 ≤ idx && idx ≤ 0xA147 && sub = 1 then (if idx % 256 % 9 = 8 then 1 else 0)
  else if 0xA100 ≤ idx && idx ≤ 0xA147 && sub = 2 then
    (let p := idx % 256; if p % 9 = 8 then 0xFF else p / 36 * 32 + p % 36 / 9 * 8 + p % 9)
  else if idx = 0x5810 && sub = 8 then 1
  else match dictFind idx sub with
    | some r => r.dflt
    | none => 0

/-- Width in bits of a scalar entry. -/
def regBits (key : Nat) : Nat :=
  match dictFind (key / 256 % 65536) (key % 256) with
  | some r => if r.ty = .bool then 1 else 8 * r.ty.bytes
  | none => 64

end Sys2Proof.Machine
end

