-- ==== Sys2Proof/Machine/Rand.lean ====
section
/-! DEFINITION. Lane generators and random blocks (03). -/

namespace Sys2Proof.Machine

/-- Advance a generator one step (R93). -/
def genStep (w : W64 × W64) : W64 × W64 :=
  let t := w.1
  let u := w.2
  let t := t ^^^ (t <<< 23)
  let t := t ^^^ (t >>> 17)
  let t := t ^^^ u ^^^ (u >>> 26)
  (u, t)

/-- Output word of a state (R93). -/
def genOut (w : W64 × W64) : W64 := ((w.1 + w.2) * 0x9E3779B97F4A7C15#64).rotateLeft 29

/-- The keyed mix of R97. -/
def mix64 (z : W64) : W64 :=
  let z := (z ^^^ (z >>> 30)) * 0xBF58476D1CE4E5B9#64
  let z := (z ^^^ (z >>> 27)) * 0x94D049BB133111EB#64
  z ^^^ (z >>> 31)

/-- Starting state of block b (R97); the all-zero state never occurs (R92). -/
def blockState (seed tid : W64) (b : Nat) : W64 × W64 :=
  let h := mix64 (seed ^^^ mix64 tid)
  let w0 := mix64 (h ^^^ BitVec.ofNat 64 b)
  let w1 := mix64 (w0 ^^^ h ^^^ 0x3C6EF372FE94F82B#64)
  if w0 = 0 && w1 = 0 then (1, w1) else (w0, w1)

/-- The state k steps on (R95). -/
def genIter : Nat → W64 × W64 → W64 × W64
  | 0, w => w
  | k + 1, w => genIter k (genStep w)

/-- Word k of a block's sequence (R95). -/
def blockWord (seed tid : W64) (b k : Nat) : W64 := genOut (genIter k (blockState seed tid b))

/-- The W-bit draw of element index idx (R94, R96). -/
def draw (seed tid : W64) (idx w : Nat) : Nat :=
  let b := idx / 4096
  let p := idx % 4096 * w
  let lo := (blockWord seed tid b (p / 64)).toNat
  let hi := if p % 64 + w ≤ 64 then 0 else (blockWord seed tid b (p / 64 + 1)).toNat
  ((lo + hi <<< 64) >>> (p % 64)) % 2 ^ w

/-- The tensor id of a draw (R97). -/
def tensorId (number count : Nat) : W64 := BitVec.ofNat 64 ((number % 2 ^ 16) <<< 48 + count % 2 ^ 48)

/-- The tensor id of an update window of table t (R100). -/
def updateTensorId (t updateCount : Nat) : W64 := tensorId (0xF000 + t) updateCount

/-! ### Banks (R92, R101, R102) -/

/-- The jump of a generator to a word offset: the matrices L^(2^m) for the 1 bits m of the offset, m from 0 to 12 (R102). -/
def genJump (k : Nat) (w : W64 × W64) : W64 × W64 :=
  (List.range 13).foldl (fun w m => if k.testBit m then genIter (2 ^ m) w else w) w

/-- A bank of generators: their states at the words of the current window and of the next (R101). -/
structure Bank where
  cur : List (W64 × W64)
  nxt : List (W64 × W64)
  deriving DecidableEq, Repr

/-- A bank of n generators that no draw has placed: the state is one that occurs, not the all-zero one (R92; log entry 4). -/
def Bank.init (n : Nat) : Bank := { cur := List.replicate n (1, 0), nxt := List.replicate n (1, 0) }

/-- A bank of n generators in the self-test: seeded with seed 0, tensor id 0 and block 0, generator i at word 63 i (R108). -/
def Bank.tested (n : Nat) : Bank :=
  let cur := (List.range n).map fun i => genJump (63 * i) (blockState 0 0 0)
  { cur := cur, nxt := cur.map (genIter n) }

/-- Generator i of n is placed at word k0 + i of a block (R102), with the window after it. -/
def Bank.place (n : Nat) (seed tid : W64) (b k0 : Nat) : Bank :=
  let cur := (List.range n).map fun i => genJump (k0 + i) (blockState seed tid b)
  { cur := cur, nxt := cur.map (genIter n) }

/-- The stride matrix L^n is applied to every generator: the next window becomes the current one (R101). -/
def Bank.advance (k : Bank) : Bank := { cur := k.nxt, nxt := k.nxt.map (genIter k.nxt.length) }

/-- A bank that has advanced a number of times. -/
def Bank.run : Nat → Bank → Bank
  | 0, k => k
  | t + 1, k => Bank.run t k.advance

/-- A bank of n generators after draws of width w for the elements from first to last: placed at the first word of the block of
the last element that it needs, 0 where a block boundary was crossed, and advanced past each window whose bits are all taken
(R101 to R103). -/
def Bank.after (n : Nat) (seed tid : W64) (first last w : Nat) : Bank :=
  let b := last / 4096
  let from' := if first / 4096 = b then first % 4096 * w / 64 else 0
  Bank.run (((last % 4096 + 1) * w - 64 * from') / (64 * max n 1)) (Bank.place n seed tid b from')

/-- Number of 1 bits. -/
def popcount (n : Nat) : Nat := maskCount 13 n

/-- Cycles of a jump to word k0 in a bank of n generators (R102): 8 + 16 × the greatest popcount in the bank. -/
def jumpCost (n k0 : Nat) : Nat :=
  8 + 16 * ((List.range n).foldl (fun a i => max a (popcount (k0 + i))) 0)

end Sys2Proof.Machine
end

