-- ==== Sys2Proof/Machine/Narrow.lean ====
section
/-! DEFINITION. The narrow codes: packing, expansion, conversion, the scale guard and the statistics (02). -/

namespace Sys2Proof.Machine

/-- The narrow codes of Table 1 of 02. -/
inductive Code where
  | n4
  | n4u
  | n4f
  | n3
  | t2
  | n8
  | n8u
  deriving DecidableEq, Repr

/-- Width in bits (R48). -/
def Code.width : Code → Nat
  | .n4 => 4
  | .n4u => 4
  | .n4f => 4
  | .n3 => 3
  | .t2 => 2
  | .n8 => 8
  | .n8u => 8

/-- The codes read against a zero point (R54). -/
def Code.ranged : Code → Bool
  | .n4u => true
  | .n8u => true
  | _ => false

/-- Greatest shift in range (Table 5 of 02). -/
def Code.smax : Code → Int
  | .n4 => 124
  | .n4u => 124
  | .n4f => 125
  | .n3 => 125
  | .t2 => 127
  | .n8 => 120
  | .n8u => 120

/-- Twice the conversion limit (Table 9 of 02). -/
def Code.limit2 : Code → Nat
  | .n4 => 15
  | .n3 => 7
  | .t2 => 3
  | .n4f => 14
  | .n8 => 255
  | .n4u => 29
  | .n8u => 509

/-- Largest code (Table 9 of 02). -/
def Code.largest : Code → Int
  | .n4 => 7
  | .n3 => 3
  | .t2 => 1
  | .n4f => 6
  | .n8 => 127
  | .n4u => 15
  | .n8u => 255

/-- Smallest code (Table 9 of 02). -/
def Code.smallest : Code → Int
  | .n4 => -8
  | .n3 => -4
  | .t2 => -1
  | .n4f => -6
  | .n8 => -128
  | .n4u => 0
  | .n8u => 0

/-- Zero-point maximum (Table 9 of 02). -/
def Code.zmax : Code → Int
  | .n4u => 15
  | .n8u => 255
  | _ => 0

/-- Bytes of a group of g elements (R51). -/
def Code.groupBytes (c : Code) (g : Nat) : Nat := g * c.width / 8

/-- Whole groups in a 512 B row (R51). -/
def Code.groupsPerRow (c : Code) (g : Nat) : Nat := 512 / c.groupBytes g

/-- The shift that a shift byte other than 0x80 holds (Table 4 of 02). -/
def shiftOf (byte : Nat) : Int := signed 8 byte

/-- The shift byte is not 0x80 and lies in range for the code (R55). -/
def shiftOk (c : Code) (byte : Nat) : Bool := byte % 256 ≠ 0x80 && decide (shiftOf byte ≤ c.smax)

/-- Halves of the N4F magnitude with index i (Table 2 of 02). -/
def n4fHalves (i : Nat) : Nat :=
  match i % 8 with
  | 0 => 0
  | 1 => 1
  | 2 => 2
  | 3 => 3
  | 4 => 4
  | 5 => 6
  | 6 => 8
  | _ => 12

/-- The exact value of a code's pattern in a group with shift s and zero point zp, and whether the pattern is the
reserved one of T2 (R54, R49, R59). -/
def codeValue (c : Code) (pat : Nat) (s : Int) (zp : Nat) : FV × Bool :=
  let int (v : Int) : FV := .fin (decide (v < 0)) v.natAbs s
  match c with
  | .n4 => (int (signed 4 pat), false)
  | .n3 => (int (signed 3 pat), false)
  | .n8 => (int (signed 8 pat), false)
  | .n4u => (int ((pat % 16 : Nat) - (zp : Int)), false)
  | .n8u => (int ((pat % 256 : Nat) - (zp : Int)), false)
  | .t2 => if pat % 4 = 2 then (int 0, true) else (int (signed 2 pat), false)
  | .n4f =>
    let h := n4fHalves pat
    (.fin (h ≠ 0 && pat.testBit 3) h (s - 1), false)

/-- An element of a group as it is expanded: NaN in an invalid group (R59); the flags and the T2 reserved count. -/
def expandElem (c : Code) (byte zp pat : Nat) : FV × Nat × Nat :=
  if shiftOk c byte then
    let (v, bad) := codeValue c pat (shiftOf byte) zp
    (v, if bad then flagInvalid else 0, boolNat bad)
  else (.nan, flagInvalid, 0)

/-- Pattern of an integer code. -/
def intPattern (c : Code) (q : Int) : Nat := unsigned c.width q

/-- A finite FP32 value in units of 2^−149. -/
def fixed149 : FV → Int
  | .fin s m e => sgn s (m <<< (e + 149).toNat)
  | _ => 0

/-- The smallest shift at least s with m < limit × 2^s, or the greatest in range (R61). -/
def shiftSearch : Nat → Nat → Nat → Int → Int
  | 0, _, _, s => s
  | fuel + 1, m, lim2, s => if 2 * m < lim2 <<< (s + 149).toNat then s else shiftSearch fuel m lim2 (s + 1)

/-- What the first pass finds: the largest magnitude or the range, and the least value (R61). -/
def firstPass (c : Code) (xs : List FV) : Nat × Int :=
  let vs := xs.map fixed149
  let lo := vs.foldl min 0
  let hi := vs.foldl max 0
  (if c.ranged then (hi - lo).toNat else vs.foldl (fun a v => max a v.natAbs) 0, lo)

/-- Zero point at a shift for the least value lo (R61, R68). -/
def zeroPoint (c : Code) (lo s : Int) : Nat :=
  if c.ranged then (min (ceilDiv (-lo).toNat (2 ^ (s + 149).toNat) : Int) c.zmax).toNat else 0

/-- Present shift and zero point (R61). -/
def presentScale (c : Code) (xs : List FV) : Int × Nat :=
  let (m, lo) := firstPass c xs
  let s : Int := if m = 0 then 0 else shiftSearch (c.smax + 127).toNat m c.limit2 (-127)
  (s, zeroPoint c lo s)

/-- Index of the N4F magnitude nearest to m × 2^e, ties away from zero. -/
def n4fNearest (m : Nat) (e : Int) : Nat :=
  let ge (k : Nat) : Bool :=
    if 0 ≤ e then decide (k ≤ (4 * m) <<< e.toNat) else decide (k <<< (-e).toNat ≤ 4 * m)
  ([1, 3, 5, 7, 10, 14, 20].filter ge).length

/-- Round to nearest: pattern and clipped (R63, R64). -/
def convertRn (c : Code) (x : FV) (s : Int) (zp : Nat) : Nat × Bool :=
  match x with
  | .fin neg m e =>
    if c = .n4f then
      let i := n4fNearest m (e - s)
      let clipped := if 0 ≤ e - s then decide (7 ≤ m <<< (e - s).toNat) else decide (7 <<< (s - e).toNat ≤ m)
      (i + (if neg && i ≠ 0 then 8 else 0), clipped)
    else
      let q := roundTa neg m (e - s) + zp
      (intPattern c (clampInt q c.smallest c.largest), q > c.largest || q < c.smallest)
  | _ => (0, false)

/-- m × 2^e below k. -/
def magBelow (m : Nat) (e : Int) (k : Nat) : Bool :=
  if 0 ≤ e then decide (m <<< e.toNat < k) else decide (m < k <<< (-e).toNat)

/-- Stochastic rounding with a 24-bit draw: pattern and clipped (R66). -/
def convertSr (c : Code) (x : FV) (s : Int) (d : Nat) : Nat × Bool :=
  match x with
  | .fin neg m e =>
    let l := e - s
    let lu : Int := if c = .n4f then (if magBelow m l 2 then -1 else if magBelow m l 4 then 0 else 1) else 0
    let cut : Nat := if m = 0 then 0 else (lu - l).toNat
    let cb := min 24 cut
    let sh := l - (lu - cb)
    let t := if 0 ≤ sh then m <<< sh.toNat else m >>> (-sh).toNat
    let v := (t + d >>> (24 - cb)) >>> cb
    if c = .n4f then
      let h := v <<< (lu + 1).toNat
      let h' := min h 12
      let i := ([1, 2, 3, 4, 6, 8, 12].filter fun k => decide (k ≤ h')).length
      (i + (if neg && i ≠ 0 then 8 else 0), 12 < h)
    else
      let top := if neg then c.smallest.natAbs else c.largest.natAbs
      (intPattern c (sgn neg (min v top)), top < v)
  | _ => (0, false)

/-- A learned shift, with its learned zero point where one is given (R68). -/
structure Learned where
  shift : Int
  zero : Option Nat
  deriving DecidableEq, Repr

/-- One converted group. -/
structure GroupOut where
  patterns : List Nat
  shift : Nat
  zero : Nat
  flags : Nat
  clipped : Nat
  override : Bool
  invalid : Bool
  values : List FV
  deriving DecidableEq, Repr

/-- The scale guard (R68): shift, zero point, override. -/
def scaleGuard (c : Code) (xs : List FV) (l : Option Learned) (g : Nat) : Int × Nat × Bool :=
  let (sp, zp) := presentScale c xs
  match l with
  | none => (sp, zp, false)
  | some ll =>
    if (ll.shift - sp).natAbs ≤ g && decide (-127 ≤ ll.shift) && decide (ll.shift ≤ c.smax) then
      (ll.shift, (if c.ranged then ll.zero.getD (zeroPoint c (firstPass c xs).2 ll.shift) else 0), false)
    else (sp, zp, true)

def FV.isFin : FV → Bool
  | .fin _ _ _ => true
  | _ => false

/-- Convert one group: round to nearest, or, for a symmetric code, stochastically with one draw an element and the shift of the
first pass (R60 to R68, R90). -/
def convertGroup (c : Code) (ws : List W32) (l : Option Learned) (g : Nat) (draws : Option (List Nat)) : GroupOut :=
  let draws := if c.ranged then none else draws
  let l := if draws.isSome then none else l
  let xs := ws.map dec32
  if xs.any fun x => !x.isFin then
    { patterns := ws.map fun _ => 0, shift := 0x80, zero := 0,
      flags := flagInvalid ||| (if xs.any FV.isNan then flagNanInput else 0),
      clipped := 0, override := false, invalid := true, values := [] }
  else
    let (s, zp, ov) := scaleGuard c xs l g
    let outs : List (Nat × Bool) := match draws with
      | none => xs.map fun x => convertRn c x s zp
      | some ds => (xs.zip ds).map fun p => convertSr c p.1 s p.2
    let vals := outs.map fun o => (codeValue c o.1 s zp).1
    let nclip := (outs.filter fun o => o.2).length
    let inexact := (xs.zip vals).any fun p => !(p.1.eqv p.2)
    { patterns := outs.map fun o => o.1, shift := unsigned 8 s, zero := zp,
      flags := (if 0 < nclip then flagSaturated else 0) ||| (if inexact then flagInexact else 0),
      clipped := nclip, override := ov, invalid := false, values := vals }

/-- The partial sums of one block: index, squared error, power (R70, R71). -/
structure BlockSum where
  block : Nat
  err : W32
  pow : W32
  deriving DecidableEq, Repr

/-- Add an exact term to an FP32 partial sum with one rounding (R70). -/
def addTerm (acc : W32) (t : FV) : W32 := (round32 ((dec32 acc).add t) 0 0 0).1

/-- Exact square. -/
def FV.square : FV → FV
  | .fin _ m e => .fin false (m * m) (2 * e)
  | v => v

/-- Partial sums of a block's elements, in element order from +0 (R71). -/
def blockSums : List (FV × FV) → W32 × W32 → W32 × W32
  | [], a => a
  | (x, y) :: r, (e, p) => blockSums r (addTerm e ((x.add y.negate).1.square), addTerm p x.square)

/-- One round of the pairwise tree over indexed entries: those of indices 2i and 2i + 1 are added; an entry without its partner
is carried up unchanged (R71). -/
def treeRound : List (Nat × W32) → List (Nat × W32)
  | [] => []
  | [a] => [(a.1 / 2, a.2)]
  | a :: b :: r =>
    if a.1 / 2 = b.1 / 2 then (a.1 / 2, (fadd a.2 b.2).1) :: treeRound r else (a.1 / 2, a.2) :: treeRound (b :: r)

/-- The pairwise tree in block-index order; the first argument is the fuel. -/
def treeSum : Nat → List (Nat × W32) → W32
  | 0, l => (l.headD (0, 0)).2
  | fuel + 1, l =>
    match l with
    | [] => 0
    | [a] => a.2
    | l => treeSum fuel (treeRound l)

/-- The combined squared error and power of blocks in index order (R70, R71). -/
def sumErr (sums : List BlockSum) : W32 := treeSum 40 (sums.map fun b => (b.block, b.err))
def sumPow (sums : List BlockSum) : W32 := treeSum 40 (sums.map fun b => (b.block, b.pow))

/-- The check of R72 on the sums: relative MSE where it applies, then the clip share. -/
def windowFails (useMse : Bool) (tauMse tauClip : W32) (sums : List BlockSum) (n clip : Nat) : Bool :=
  let e := sumErr sums
  let p := sumPow sums
  (useMse && !(dec32 p).isZero && (((dec32 tauMse).mul (dec32 p)).1.lt (dec32 e)))
    || (((dec32 tauClip).mul (.fin false n 0)).1.lt (.fin false clip 0))

/-- A scale byte of MXFP4 as a shift byte (R88), and whether the block is invalid. -/
def mxShift (e : Nat) : Nat × Bool :=
  if e ≤ 0xFC then (unsigned 8 ((e : Int) - 127), false) else (0x80, true)

/-- Expansion pattern E8M3 of a value (R58): exact for every in-range value. -/
def toE8M3 : FV → Nat
  | .nan => 0x7FC
  | .inf s => boolNat s <<< 11 + 0x7F8
  | .fin s m e => (fmtE8M3.round .even s m e).1

/-- Expansion pattern BF16 of a value (R58). -/
def toBF16Pattern : FV → Nat
  | .nan => 0x7FC0
  | .inf s => boolNat s <<< 15 + 0x7F80
  | .fin s m e => (fmtBF16.round .even s m e).1

end Sys2Proof.Machine
end

