-- ==== Sys2Proof/Machine/State.lean ====
section
/-! DEFINITION. The state of the block: every register, queue, table, counter, mode and pin that the manual gives it,
as plain data, and the machine right after reset. -/

namespace Sys2Proof.Machine

/-- Why a step stops: no command of the block does. A reserved code, a malformed image and the driver's misuse give results that
are unpredictable within the issuing partition (R9, R12): they are next states with free values (log entry 65). -/
inductive Fault where
  deriving DecidableEq, Repr

/-- Why a command has no meaning. -/
inductive Refusal where
  /-- Raised by the dispatch alone, for a row of the table that has no meaning yet. Safe. -/
  | notModelled (mnemonic : String)
  deriving DecidableEq, Repr

/-- One value for each die. -/
structure Two (α : Type) where
  d0 : α
  d1 : α
  deriving DecidableEq, Repr

/-! ### Device state, pins and bring-up (15) -/

/-- The device states (R475). -/
inductive DevState where
  | reset
  | selftest
  | training
  | ready
  | serving
  deriving DecidableEq, Repr

/-- Pins and bring-up progress (R45, R472 to R485). -/
structure Top where
  dev : DevState
  pwrGood : Bool
  sysResetN : Bool
  /-- MOD_ALERT_N held by a bring-up that cannot go on (R479, R482). -/
  stuck : Bool
  /-- Every item of RESET is complete (R479). -/
  resetDone : Bool
  /-- Ranges trained, by bit: 0 to 3 the stacks, 4 to 7 the groups (R483). -/
  trained : Nat
  zeroFilled : Bool
  /-- Optical engines whose calibration has ended (R485). -/
  calibrated : Nat
  /-- Hold point 2 has been passed (R478). -/
  passed2 : Bool
  /-- Control cycles spent held, and the cycle at which the present hold began (R478, R490). -/
  heldCycles : Nat
  heldFrom : Nat
  /-- Dies stopped under R42. -/
  stopped : Two Bool
  /-- Fused halves of the VXEs, bit 2p + h for half h of physical core p (R17); kept through reset. -/
  fuses : Nat
  /-- Fused permit sizes in watts (R27, R479); kept through reset. -/
  fusedPermits : List Nat
  deriving DecidableEq, Repr

/-! ### Power (01) -/

/-- The permit classes (R27), in the order of R31. -/
inductive PClass where
  | drain
  | mxe
  | hbm
  | fabric
  deriving DecidableEq, Repr

/-- Who asks for a permit (R27): the CSQ or the DMV of a physical core, the DMV for a context's spill, or the sluice
controller of a die. -/
inductive Issuer where
  | csq (phys : Nat)
  | dmv (phys : Nat)
  | spill (ctx : Nat)
  | sluice (die : Nat)
  deriving DecidableEq, Repr

structure Permit where
  cls : PClass
  issuer : Issuer
  deriving DecidableEq, Repr

/-- A request for a permit (R31, R33): arrival, whether the first check needed a loan, whether its timeout was raised,
and the control cycle before which an injection holds it. -/
structure Ask where
  permit : Permit
  arrived : Nat
  loanCase : Option Bool
  raised : Bool
  notBefore : Nat
  deriving DecidableEq, Repr

/-- The governor of one die (R28 to R34, R40): amounts in µW. -/
structure Governor where
  floor : Nat
  held : List Permit
  /-- Sum over the window of held × control cycles, and the cycle of its last change (R28). -/
  heldSum : Nat
  heldSince : Nat
  windowStart : Nat
  queue : List Ask
  /-- Requests and returned permits on their way to the governor. -/
  asks : List Permit
  returns : List Permit
  /-- Requests whose operation ended before the grant: a request is never cancelled (R33), so the grant is returned at
  once (R34). -/
  unwanted : List Permit
  /-- A loan asked for and not yet answered, and the answer on its way back (R29). -/
  loanAsk : Option Nat
  loanAnswer : Option Bool
  hot : Bool
  /-- The cause of R41 holds. -/
  optHot : Bool
  /-- Hot by an injection alone (Table 7 of 14). -/
  injHot : Bool
  deriving DecidableEq, Repr

structure Power where
  gov : Two Governor
  /-- Granting is stopped under R39, and until this cycle by an injection. -/
  haltedBudget : Bool
  haltedUntil : Nat
  runAbove : Nat
  runBelow : Nat
  sampleSum : Nat
  sampleCount : Nat
  /-- Reservoir slices in retention, bit 4d + slice, and the control cycle of their last access (R25). -/
  sliceRet : Nat
  sliceUse : SMap Nat
  /-- The counts of each account at the last energy estimate; what the accounts have been given since the last calibration, in mJ, and the
  input energy measured since, in units of 10^-4 mJ (R415). -/
  acctSeen : SMap (List Nat)
  energyGiven : Nat
  energyIn : Nat
  deriving DecidableEq, Repr

/-- The budget and its division (R27, R38, R40), in µW. -/
structure Alloc where
  budget : Int
  allot0 : Int
  allot1 : Int
  withheld0 : Int
  withheld1 : Int
  deriving DecidableEq, Repr

/-! ### Cores (03, 04, 05) -/

/-- States of a rill slot (R121). -/
inductive SlotState where
  | free
  | filling
  | ready
  | draining
  deriving DecidableEq, Repr

/-- A rill slot: its FP32 elements, its flag word and its consumer (R118, R121, R140). -/
structure Slot where
  st : SlotState
  cells : SMap W32
  flags : Nat
  gtu : Bool
  deriving DecidableEq, Repr

/-- A token (R110): work outstanding, its error and fault bits, whether an error had a cause other than an injection (R185), and the
rows whose uncorrectable reads set the error bit (R184). -/
structure Token where
  work : Nat
  error : Bool
  real : Bool
  fault : Bool
  rows : List Nat
  deriving DecidableEq, Repr

/-- A conversion window (R60, R70 to R73): the layer, the groups converted, the block sums, the counts, and the thresholds read
at its start. -/
structure Window where
  layer : Nat
  groups : Nat
  sums : List BlockSum
  elements : Nat
  clipped : Nat
  overrides : Nat
  tauMse : W32
  tauClip : W32
  guard : Nat
  widen : Bool
  /-- An injection was armed when the window opened and its first group has not been converted; an injection has made that group
  an override (Table 7 of 14). -/
  pending : Bool
  injOverride : Bool
  /-- Blocks that its groups span, those of invalid groups among them (R71). -/
  blocks : Nat
  deriving DecidableEq, Repr

/-- Where the CSQ stands (R173 to R184). -/
inductive Phase where
  /-- No context runs. -/
  | idle
  /-- At a segment boundary, before the next segment starts (R36). -/
  | hold
  /-- Inside a segment. -/
  | run
  /-- At a sync point (R178). -/
  | sync
  /-- After an abort, before the retry (R184). -/
  | retry
  /-- At a check point, while other cores convert parts of the layer's window (R80). -/
  | check
  deriving DecidableEq, Repr

/-- The sequencer of a core. -/
structure Csq where
  phase : Phase
  ctx : Nat
  seg : Nat
  issued : Nat
  segStart : Nat
  holdFrom : Nat
  /-- The lookahead of the running segment has been taken; the context chosen to run after the weir point (R35, R400). -/
  looked : Bool
  chosen : Option Nat
  /-- The context began to run at this cycle (R400). -/
  ranFrom : Nat
  /-- Layer being run, with its input and output widths (R176). -/
  layer : Option Nat
  inW : Nat
  outW : Nat
  /-- Retry span (R178, R184, R380): its number in the job, its first segment with the layer state there, and whether it has been retried. -/
  spanNo : Nat
  spanSeg : Nat
  spanLayer : Option Nat
  spanIn : Nat
  spanOut : Nat
  spanWindow : Option Window
  spanUses : List Nat
  retried : Bool
  /-- Variants selected in the span: layer, input and output width (R81). -/
  kept : List (Nat × Nat × Nat)
  /-- Layers of the span whose windows, split over cores, have been decided: a retry does not decide them again (R80, R81). -/
  decided : List Nat
  /-- Handle entries as they stood before the span changed them (R181). -/
  undo : List (Nat × Rec)
  /-- Physical rows to reload before the retry (R184), and the cause of the last abort (R185). -/
  reload : List Nat
  cause : Nat
  /-- SWITCH pending for the core (R400). -/
  switchTo : Option Nat
  /-- The present invocation is to be cancelled at the next boundary, with this cause (R492). -/
  cancel : Option Nat
  /-- Output handles of the random uses since the layer's launch or the segment's start (R99). -/
  uses : List Nat
  /-- ALL_BLOCKED has been raised (R413). -/
  said : Bool
  /-- The core has been found faulted (R185). -/
  faulted : Bool
  /-- The present abort was injected (R470). -/
  injRetry : Bool
  deriving DecidableEq, Repr

/-- A DMV descriptor that has been issued (R145, R146): its number on the core, its relocated word, its partition and
context, the job under which it was issued, the token it signals, by the key of its retry span (R183), whether it has
started, its chain, whether it closes its chain, the permits with which its chain began, once it has, and the rows still to
be moved. -/
structure DmvItem where
  id : Nat
  desc : Rec
  part : Nat
  ctx : Nat
  job : Option Nat
  token : Nat
  started : Bool
  chain : Nat
  last : Bool
  permits : Option (List Permit)
  left : List Nat
  deriving DecidableEq, Repr

/-- The states of a GXE thread (R142). -/
inductive ThreadState where
  | resolve
  | fetch
  | send
  | order
  | pool
  deriving DecidableEq, Repr

/-- Where a thread's row comes from, once resolved (R255): the zero row, a device address, a replica or a write set with
its bytes, or another module. -/
inductive RowSrc where
  | zero
  | mem (addr : Nat)
  | bytes (l : List Byte)
  | remote (module addr : Nat)
  deriving DecidableEq, Repr

/-- A GXE thread (R142, R143): its command, position of its index in the command, index, row read, whether that is the
default row, weight, source, and the bytes that have arrived. A scatter thread holds its gradient row in bytes. -/
structure Thread where
  id : Nat
  cmd : Nat
  st : ThreadState
  pos : Nat
  idx : Nat
  row : Nat
  dflt : Bool
  weight : W32
  src : RowSrc
  data : List Byte
  flags : Nat
  /-- What a scatter thread in SEND waits for, and has been counted: 0 nothing, 1 to begin a group, 2 the update area, 3 the quota. -/
  wait : Nat
  deriving DecidableEq, Repr

/-- A bag being pooled (R143, R261): its first position, its end, the next position to pool, its accumulator, and
whether its vector has been written. A bag cut by an uncorrectable offset has no positions (R155). -/
structure Bag where
  first : Nat
  stop : Nat
  next : Nat
  acc : List W32
  written : Bool
  deriving DecidableEq, Repr

/-- A GXE command in progress (R141, R143): its number on the core, its relocated word, its partition, context, job and
retry span (R380), its bags, the next index position to start, its table's descriptor, its flags, and whether its table may be
used (R254). -/
structure GxeCmd where
  id : Nat
  desc : Rec
  part : Nat
  ctx : Nat
  job : Option Nat
  span : Nat
  bags : List (Nat × Bag)
  next : Nat
  table : Desc
  flags : Nat
  usable : Bool
  deriving DecidableEq, Repr

/-- One physical core. -/
structure Core where
  /-- Cistern rows, ownership tags (0 unowned, p + 1 owned by partition p), rows queued for write-back (R150, R154, R158). -/
  rows : SMap Row
  tags : SMap Nat
  writeBack : List Nat
  /-- Next patrol row of each bank (R156). -/
  patrol : SMap Nat
  /-- Clock gates of MXE, GTU, VXE and banks in retention, as masks, with the last use of each (R25): 0 to 2 engines,
  4 to 7 banks. -/
  gated : Nat
  retained : Nat
  lastUse : SMap Nat
  handles : SMap Rec
  rill : SMap Slot
  /-- Tokens by 32 × tag of the retry span whose work named them + token (R110, R183). -/
  tokens : SMap Token
  /-- Tiles of h' waiting for their group: unit base and elements (R128). -/
  gtuBuf : List (Nat × List W32)
  csq : Csq
  window : Option Window
  /-- The generators of the VXE's lanes, of the GTU's lane pairs and of the GXE converter, as the last draws left them (R92,
  R101). -/
  vxeBank : Bank
  gtuBank : Bank
  gxeBank : Bank
  dmv : List DmvItem
  dmvNext : Nat
  /-- Control cycle of the last change of whether the DMV and the GXE have work, for their busy counts (R414). -/
  busyFrom : Nat
  gxe : List GxeCmd
  threads : List Thread
  gxeNext : Nat
  deriving DecidableEq, Repr

/-! ### Contexts and jobs (12, 13) -/

/-- The context states (Table 3 of 12). -/
inductive CtxState where
  | free
  | binding
  | idle
  | ready
  | running
  | spilling
  | swapped
  | restoring
  | faulted
  | killing
  deriving DecidableEq, Repr

/-- One invocation of a job (R431, R432). -/
structure Invocation where
  job : Nat
  ctx : Nat
  argAddr : Nat
  resAddr : Nat
  argRows : Nat
  resRows : Nat
  argHandle : Nat
  resHandle : Nat
  loaded : Bool
  finished : Bool
  stored : Bool
  deriving DecidableEq, Repr

/-- A context (R395, R401, R409). -/
structure Ctx where
  st : CtxState
  part : Nat
  core : Nat
  rowBase : Nat
  handleBase : Nat
  header : Desc
  decls : List Nat
  manifest : List Nat
  image : Nat
  weightBase : Nat
  seed : W64
  weir : Nat
  /-- Segment at which it resumes, and whether it is inside an invocation (R406, R409). -/
  seg : Nat
  mid : Bool
  /-- Jobs whose invocations are queued, oldest first; the one it runs (R395). -/
  queue : List Nat
  job : Option Nat
  tagFault : Bool
  /-- The manifest has been loaded; the cistern rows that do not hold its contents, because a load failed or because they have been
  cleared or bound anew since (R401). -/
  loaded : Bool
  gone : List Nat
  intact : Bool
  /-- Save address of its image (R404). -/
  save : Nat
  /-- Handle swaps that wait for the end of its invocation (Table 2 of 09). -/
  swaps : List (Nat × Nat)
  /-- Dynamic fields of its handles, by number within the image, as its invocation found them (R217). -/
  undo : List (Nat × Rec)
  /-- The layer + 1 that produced the flag word of a handle, by its number within the image (R140). -/
  flagged : SMap Nat
  /-- Its invocation is cancelled while it is swapped out: it takes the cancel before its next segment (R217). -/
  cancelled : Bool
  /-- A KILL acts once its invocation has ended (Table 5 of 12). -/
  dying : Bool
  readyFrom : Nat
  blockedFrom : Nat
  blocked : Bool
  deriving DecidableEq, Repr

/-- How far a context command has come (R397, R399, R404, R406): blocked by an earlier command; waiting for a weir point,
or for the context to run; spilling; restoring; binding; zero-filling. -/
inductive OpPhase where
  | blocked
  | weir
  | spill
  | restore
  | bind
  | clear
  deriving DecidableEq, Repr

/-- A context command that has been dispatched and has not completed (R399): its function, queue, sq_head after dispatch,
descriptor, phase, and the control cycle of its acceptance. -/
structure CtxOp where
  fn : Nat
  queue : Nat
  head : Nat
  desc : Desc
  phase : OpPhase
  since : Nat
  deriving DecidableEq, Repr

/-- How a job ended (R307). -/
inductive Decision where
  | completed
  | aborted (cause : Nat)
  | killed
  deriving DecidableEq, Repr

/-- A job (R431). -/
structure Job where
  id : Nat
  fn : Nat
  queue : Nat
  tag : Nat
  irq : Bool
  sqHead : Nat
  part : Nat
  step : Nat
  invs : List Invocation
  decision : Option Decision
  flags : Nat
  tagFault : Bool
  storeFault : Bool
  remoteFault : Bool
  /-- Marks of its groups: highest mark, and the mask of groups opened. -/
  mark : Nat
  opened : Nat
  /-- Homes that hold parcels of the job, and its next retry-span number (R309, R380). -/
  homes : List Nat
  spanNext : Nat
  /-- Host links that carried its host-memory writes (R436). -/
  links : Nat
  /-- Its groups have asked for their applies (R303 step 2). -/
  asked : Bool
  posted : Bool
  /-- The stack whose batch it is (R208), and the flag words of its contexts' last output handles (Table 9 of 06). -/
  stack : Option Nat
  outs : SMap Nat
  /-- Its function has been reset: no record is posted any more (R423). -/
  silent : Bool
  deriving DecidableEq, Repr

/-! ### Host interface (13) -/

/-- The chunk whose output record a record is (R219, R223): its number, stream, ready and due times, and whether its miss has been
raised. -/
structure ChunkRef where
  id : Nat
  stream : Nat
  ready : Nat
  due : Nat
  missed : Bool
  inj : Bool
  deriving DecidableEq, Repr

/-- A completion record on its way to its CQ (R434, R435): its fields of Table 7 of 13, the mark that P must pass first
(R305), the link of a zero-length read that is awaited (R436), and whether its wait has been counted (R437). -/
structure CRec where
  fn : Nat
  queue : Nat
  irq : Bool
  mark : Nat
  tag : Nat
  result : Nat
  ctx : Nat
  sqHead : Nat
  flags : Nat
  bits : Nat
  cause : Nat
  status : Nat
  kind : Nat
  /-- The mark that P must pass on both dies before the record is posted (R305). -/
  needMark : Option Nat
  flush : Bool
  held : Bool
  /-- The low 128 bits of a record whose layout is its own (chunk output records). -/
  raw : Option Rec
  chunk : Option ChunkRef
  /-- Counts in the pair's outstanding descriptors (R426). -/
  counts : Bool
  /-- The unit that produces it (R437): 0 a sluice controller, 9 a stream controller, else the unit that serves the descriptor's kind. -/
  unit : Nat
  deriving DecidableEq, Repr

/-- A queue pair beyond its dictionary entries (R425 to R428, R437, R438). -/
structure QPair where
  tail : Nat
  cqHead : Nat
  /-- Descriptors fetched and not yet dispatched, oldest first. -/
  fetched : List Desc
  /-- Records written since the vector was last signalled, and the cycle of the first. -/
  unsignalled : Nat
  unsignalledFrom : Nat
  /-- The pair has been enabled, and has not stopped on an error since: its records are written (R426, R450). -/
  live : Bool
  deriving DecidableEq, Repr

/-- The dictionary mailbox of a function (Tables 12 to 15 of 13). -/
structure Mailbox where
  addr : Nat
  offset : Nat
  status : Nat
  size : Nat
  data : List Byte
  deriving DecidableEq, Repr

structure HostIf where
  pairs : SMap QPair
  /-- Records produced and not yet accepted, and records accepted, by die (R435, R437). -/
  made : Two (List CRec)
  accepted : Two (List CRec)
  /-- Link that each event and egress role uses (R421, R422). -/
  eventLink : Nat
  /-- Producer index of each function's event queue (R449). -/
  eventProd : SMap Nat
  mailbox : SMap Mailbox
  /-- MSI-X masks and pending bits by function, and messages sent by function and vector (R438). -/
  msixMask : SMap Nat
  msixPending : SMap Nat
  msixSent : SMap Nat
  vfEnable : Bool
  numVfs : Nat
  completionTimeout : Nat
  /-- MSI-X control of each function: bit 0 enable, bit 1 function mask; its table, address and data by 32 × function + vector; and the
  messages sent, oldest first (Tables 1 and 2 of 13). -/
  msixCtl : SMap Nat
  msixTable : SMap (Nat × Nat)
  messages : List (Nat × Nat)
  /-- Functions in D3hot, error reporting registers by function and register, bus number of each link, and BAR0 by 32 × link + function
  (R419, R420). -/
  d3hot : Nat
  aer : SMap Nat
  buses : SMap Nat
  bars : SMap Nat
  /-- Queue engines: the pair whose turn it is, and the fetches left in it, by die (R427). -/
  turns : Two (Nat × Nat)
  /-- Event records and egress tails (16 × die + partition) that wait for a host link (R421). -/
  events : List (Nat × Rec)
  tails : List Nat
  deriving DecidableEq, Repr

/-! ### Management, detectors, service, firmware (13, 14) -/

/-- A dictionary request over MCTP (Table 16 of 13): its request number, the entry, the byte offset, and the bytes of a WRITE
or the length of a READ. -/
structure MctpReq where
  req : Nat
  idx : Nat
  sub : Nat
  offset : Nat
  len : Nat
  bytes : Option (List Byte)
  deriving DecidableEq, Repr

/-- The management endpoint (R444 to R446): dynamic address, endpoint ID, PLDM events and responses sent, oldest first. -/
structure Mgmt where
  addr : Option Nat
  eid : Nat
  events : List Rec
  responses : List (List Byte)
  /-- In-band interrupts signalled, and transmission units of 64 B sent (R444). -/
  ibis : Nat
  units : Nat
  /-- A dictionary write of management that is not yet decided: its request number and its entry (R445). -/
  waiting : Option (Nat × Nat)
  /-- Requests that arrived while one was being served, oldest first (R445). -/
  queue : List MctpReq
  deriving DecidableEq, Repr

/-- A record raised before READY (R479): detector, record, and the function besides the PF to which R469 posts it. -/
structure PreRec where
  det : Nat
  record : Rec
  fn : Option Nat
  posted : List Nat
  deriving DecidableEq, Repr

/-- A rotation or a replacement in progress (R456, R458). -/
structure Handover where
  logical : Nat
  target : Nat
  /-- The copy has begun. -/
  copying : Bool
  replace : Bool
  /-- The weir point at which the rotation takes the core has been passed (step 2 of R456). -/
  taken : Bool
  deriving DecidableEq, Repr

structure Avail where
  /-- Cycle after that of each detector's last posting (R469). -/
  lastPost : SMap Nat
  preReady : List PreRec
  handover : Option Handover
  /-- Cores whose self-test runs, and the one whose service operation it is (R455, R459). -/
  testing : List Nat
  serviceTest : Option Nat
  /-- Heartbeats missed in a row by the standby, and the injection that stops them (R461). -/
  missed : Nat
  muted : Bool
  /-- The die-stop record kept through reset (R463). -/
  dieStop : Option Rec
  /-- Control cycle at which each link bit was enabled in SERVING, plus 1 (R453). -/
  linkFrom : SMap Nat
  /-- Lanes that an injection treats as dead: of 16e + lane, the control cycle of the injection, plus 1 (R470). -/
  injectedLanes : SMap Nat
  deriving DecidableEq, Repr

/-- A firmware transfer or activation (R464 to R466). -/
structure Firmware where
  /-- Slots that hold a valid image, by bit. -/
  valid : Nat
  /-- The slot choice kept in flash. -/
  slot : Nat
  /-- PLDM transfer: 0 none, 1 requested, 2 table passed, 3 component under way, 4 transferred, 5 verified, 6 applied. -/
  transfer : Nat
  comps : List (Nat × Nat)
  /-- Components switched by the activation in progress (R465). -/
  switched : Nat
  /-- An activation is under way, and whether the service op ACTIVATE_FW started it (R464). -/
  activating : Bool
  byService : Bool
  /-- Images written since manufacture into slots A and B, as draws of their version strings; none the first image. -/
  versionA : Option Nat
  versionB : Option Nat
  deriving DecidableEq, Repr

/-- The test access port (R488). -/
structure Tap where
  ir : Nat
  boundary : Nat
  driving : Bool
  released : Bool
  deriving DecidableEq, Repr

/-! ### The two memory tiers (10) -/

/-- What a request of a memory channel does: a read, a write of a combining line, the read of a unit that a part of it then changes
(R335), a read of the patrol scrubber (R341). -/
inductive ReqKind where
  | read
  | write
  | rmw
  | scrub
  deriving DecidableEq, Repr

/-- A request of a memory channel (R331): the range and the granule of it that it names, the mask of the granule's units that it
carries, the control cycle at which it joined its queue, and of a read, the mask of the units that its reader's answer finds
uncorrectable (R339). -/
structure MemReq where
  kind : ReqKind
  narrow : Bool
  range : Nat
  granule : Nat
  units : Nat
  arrived : Nat
  lost : Nat
  deriving DecidableEq, Repr

/-- A memory channel (R323, R331, R332, R337, R338): its two queues, together in order of arrival; the requests that wait in the NoC
because their queue is full; power-down; the control cycle of its last request; its reissues of the last second, with the control
cycle of each transfer; and the counters of 0x3120. -/
structure Channel where
  queue : List MemReq
  waiting : List MemReq
  asleep : Bool
  lastUse : Nat
  reissues : List (Nat × Nat)
  corrected : Nat
  uncorrectable : Nat
  retries : Nat
  failures : Nat
  repaired : Nat
  deriving DecidableEq, Repr

/-- A line of a write-combining buffer (R333): granule address, valid units, control cycle of its first write. -/
structure Line where
  granule : Nat
  units : Nat
  since : Nat
  deriving DecidableEq, Repr

/-- A layout computed by PLAN (R347): channels to leave out, channels, remap table, retired rows, size. -/
structure Plan where
  mask : Nat
  active : Nat
  remap : SMap Nat
  retired : List W64
  size : Nat
  deriving DecidableEq, Repr

/-- A reflow in progress (R349, R350): remapped pages still to park, index L of the next step plus 1, control cycle of its
start; the address of the parking area, and the pages parked in it, in order. -/
structure Reflow where
  park : List Nat
  next : Nat
  since : Nat
  area : Nat
  parked : List Nat
  deriving DecidableEq, Repr

/-- A repair operation in progress (R344, R345): its op, its location word, the pages left to retire, whether the bank is blocked,
and the units (address ÷ 32) of the row that have been read since, which the row's copy therefore holds. -/
structure Repair where
  op : Nat
  loc : W64
  pages : List Nat
  blocked : Bool
  seen : List Nat
  deriving DecidableEq, Repr

/-- A range beyond its dictionary entries (R330, R338, R340, R345, R351): remap table, retired rows, poisoned units (their
addresses ÷ 32), corrected reads of DRAM rows, rows whose event has been raised, plan, reflow, repair, and the spare rows used of
each bank, by bits 63 to 49 of a location word (R344). -/
structure Range where
  remap : SMap Nat
  retired : List W64
  poison : List Nat
  rowCe : SMap (List Nat)
  failing : List Nat
  plan : Option Plan
  reflow : Option Reflow
  repair : Option Repair
  spares : SMap Nat
  deriving DecidableEq, Repr

structure Tiers where
  /-- Ranges 0 to 3 the stacks, 4 to 7 the groups; channels by 32 × range + channel. -/
  ranges : SMap Range
  chans : SMap Channel
  /-- Lines of each controller: 0 to 3 the stacks, 4 to 27 the packages (R333), oldest first. -/
  lines : SMap (List Line)
  /-- Bytes of the reservoirs' general areas: die × 2^27 + offset (R320). -/
  resv : SMap Byte
  /-- Data registers of the stacks' test ports, by 4 × instruction + stack (R354). -/
  ports : SMap Nat
  deriving DecidableEq, Repr

/-! ### Sluice groups, marks, pins and write sets (09) -/

/-- Issuer of a group (Table 1 of 09). -/
inductive GIssuer where
  | job (job slot : Nat)
  | stream (stack : Nat)
  | command
  | dict (acc : Nat)
  /-- The open dictionary sluice of an accessor, until its commit write. -/
  | sluice (acc : Nat)
  | home (step src : Nat)
  | refresh
  deriving DecidableEq, Repr

/-- A directory entry (R264, R265): the marks at which a group adds and removes it, the replica's contents and mark, the
home copy's address. -/
structure DirEntry where
  table : Nat
  row : Nat
  since : Nat
  gone : Option Nat
  replica : Option (List Byte × Nat)
  reloc : Option Nat
  deriving DecidableEq, Repr

/-- Contents of a group that no write set holds (Table 2 of 09). -/
inductive Item where
  /-- Bits of a stream entry under a mask. -/
  | stream (n : Nat) (mask value : Desc)
  | table (t : Nat) (d : Desc)
  /-- update_count of a table goes up by 1 (R273). -/
  | count (t : Nat)
  | replica (die table row : Nat) (data : List Byte) (mark : Nat)
  | dropReplica (die table row : Nat)
  /-- The relocation of a row, or its removal, on both dies. -/
  | reloc (table row : Nat) (dest : Option Nat) (mark : Nat)
  /-- A module's replica of a row of this module, with the mark last sent, or its removal (R381). -/
  | holder (table row module : Nat) (mark : Option Nat)
  | mapAdd (table page : Nat)
  | mapRemove (table page : Nat)
  | swap (core ctx a b : Nat)
  | dict (acc idx sub offset : Nat) (bytes : List Byte)
  deriving DecidableEq, Repr

/-- How far a group has come (R292, R303, R304): it waits to begin while 4,096 others are undecided; begun, PREPARE under way,
answered, its mark asked of the keeper. -/
inductive GPhase where
  | queued
  | begun
  | prepare
  | answered (ready : Bool)
  | marking
  deriving DecidableEq, Repr

/-- An undecided sluice group, or one whose mark has not been assigned (R287 to R292, R303, R304). -/
structure Group where
  id : Nat
  issuer : GIssuer
  die : Nat
  part : Option Nat
  items : List Item
  failed : Bool
  /-- A part of it could not be staged on a die that has stopped (R42). -/
  lost : Bool
  phase : GPhase
  /-- Its decision has been delayed, and counted (R286). -/
  stalled : Bool
  /-- The record that its issuer posts once it has opened (R305). -/
  after : Option CRec
  /-- Row locks that its issuer holds (R268). -/
  locks : List (Nat × Nat)
  deriving DecidableEq, Repr

/-- A pin slot (Table 4 of 09): whether it holds a pin, its mark, its owner, when it was taken, and the queue pair (16 × function +
queue) or the job with whose outcome it is released (R294). A released slot keeps its mark and its owner. -/
structure Pin where
  held : Bool
  mark : Nat
  owner : Nat
  since : Nat
  withQueue : Option Nat
  withJob : Option Nat
  deriving DecidableEq, Repr

/-- A row version in a write set (R297): pending with no mark, committed with one. home is the die that drains it, 2 where
another module is the row's home; copy marks one held for a replica only; span is the physical core and token key of the
work that staged it, until its sync point (R144, R178). -/
structure Version where
  grp : Nat
  mark : Option Nat
  table : Nat
  row : Nat
  state : Bool
  data : List Byte
  home : Nat
  copy : Bool
  /-- The home module's mark of a refresh (R313). -/
  sent : Option Nat
  span : Option (Nat × Nat)
  /-- Offset and length of the bytes that blocks have written, where those are not the whole row (R278). -/
  wrote : List (Nat × Nat)
  deriving DecidableEq, Repr

/-- A plain block (R288): bytes by device address, or in a reservoir by die × 2^27 + offset. -/
structure Block where
  grp : Nat
  resv : Bool
  cells : List (Nat × Byte)
  part : Nat
  span : Option (Nat × Nat)
  deriving DecidableEq, Repr

/-- A staging that waits for space in a write set (R301), to begin its group (R292), or behind an earlier one of its row: its versions
and blocks with the die of each, since when, the control cycle before which an injection holds it, its partition, and whether it was
space that it found too little of. -/
structure StageWait where
  versions : List (Nat × Version)
  blocks : List (Nat × Block)
  since : Nat
  notBefore : Nat
  part : Nat
  full : List Nat
  /-- The descriptor of a DMV whose write waits: physical core and number (R146). -/
  item : Option (Nat × Nat)
  deriving DecidableEq, Repr

/-- A drain batch (R299): rows with the mark that each drains, and the control cycle of its start. -/
structure Drain where
  rows : List (Nat × Nat × Bool × Nat)
  since : Nat
  deriving DecidableEq, Repr

/-- Additions of one retry span to an accumulator (R272): physical core and token key. -/
structure AccPart where
  core : Nat
  tok : Nat
  sums : List Int
  invalid : Bool
  count : Nat
  deriving DecidableEq, Repr

/-- An accumulator row (R272), in a group of this module; parcels of another module are kept under a group of their own
(R309). -/
structure Accum where
  grp : Nat
  /-- Number of the source's job plus 1 where the rows come in parcels of another module that are not yet committed (R309), else 0. -/
  job : Nat
  table : Nat
  row : Nat
  sums : List Int
  invalid : Bool
  count : Nat
  parts : List AccPart
  deriving DecidableEq, Repr

/-- A dictionary sluice of an accessor (R316): its group, the staged writes in order, and the control cycle of its begin. -/
structure DictSluice where
  grp : Nat
  staged : List (Nat × Nat × Nat × List Byte)
  since : Nat
  deriving DecidableEq, Repr

/-- An apply window asked for or running (R273, R308): its group and table, the job or the turn it serves, the rows it
locks, and whether it runs, has written everything, or has failed. -/
structure Apply where
  grp : Nat
  table : Nat
  job : Option Nat
  rows : List Nat
  started : Bool
  done : Bool
  failed : Bool
  deriving DecidableEq, Repr

/-- Updates of another module (R309 to R311): step, module, job, group here, verdict once it has come, the control cycle
since when only closed steps are awaited. -/
structure Turn where
  step : Nat
  src : Nat
  job : Nat
  grp : Nat
  verdict : Option Bool
  since : Nat
  late : Bool
  deriving DecidableEq, Repr

structure Sluice where
  lastMark : Nat
  p : Two Nat
  groups : List Group
  nextGroup : Nat
  /-- Pins by 4,096 × die + slot. -/
  pins : SMap (Option Pin)
  /-- Oldest pin of the other die, as each die last heard it (R296). -/
  peerPin : Two Nat
  versions : Two (List Version)
  blocks : Two (List Block)
  waits : Two (List StageWait)
  /-- The write-set full event may be raised (R301). -/
  armed : Two Bool
  drain : Two (Option Drain)
  /-- Row locks: table, row, group that holds it (R268, R273). -/
  locks : List (Nat × Nat × Nat)
  accums : Two (List Accum)
  applies : List Apply
  dicts : SMap (Option DictSluice)
  /-- Closed step of each module, plus 1, and modules timed out for a step (R310, R311). -/
  closed : SMap Nat
  timedOut : List (Nat × Nat)
  turns : List Turn
  /-- The last turn applied, as step and module; and the step and the module alone awaited by the first pending turn, with the control
  cycle since when (R311). -/
  lastTurn : Option (Nat × Nat)
  awaited : Option (Nat × Nat × Nat)
  /-- Parcels that wait for space, each counted once (R272). -/
  parcelWaits : List (FabMsg × Nat)
  /-- Stream entry writes and handle swaps of die 1, with their marks, that P has not reached there (R285). -/
  later : List (Nat × Item)
  deriving DecidableEq, Repr

/-! ### Tables (08) -/

/-- An entry of the mapped-out list (R257), with the marks at which groups add and remove it. -/
structure Mapped where
  table : Nat
  page : Nat
  since : Nat
  gone : Option Nat
  deriving DecidableEq, Repr

/-- A hot-list entry (Table 4 of 08), with its table. -/
structure Hot where
  table : Nat
  row : Nat
  estimate : Nat
  replicated : Bool
  deriving DecidableEq, Repr

structure Tables where
  /-- Descriptors of each table with the marks from which they hold, newest first (R249, R288). -/
  desc : SMap (List (Nat × Desc))
  dir : Two (List DirEntry)
  mapped : List Mapped
  /-- Counter c of row i of a slot: ((256 × die + slot) × 4 + i) × 2,048 + c (R262). -/
  sketch : SMap Nat
  /-- Hot list of 256 × die + slot, oldest entry first. -/
  hot : SMap (List Hot)
  /-- Modules that hold a replica of a row of this module, by 2^32 × table + row, with the mark last sent (R269). -/
  holders : SMap (List (Nat × Nat))
  /-- Mark of the version that the home copy of a row carries, by 2^32 × table + row (R267, R314). -/
  homeMark : SMap Nat
  /-- Row commands that wait for a row lock: function, queue, sq_head after dispatch, descriptor (R268, R428). -/
  waiting : List (Nat × Nat × Nat × Desc)
  deriving DecidableEq, Repr

/-! ### The fabric (11) -/

/-- What a message that this module originated serves (Table 9 of 11): nothing that waits for it; a GXE thread's row; a
scatter thread's parcel; rows of a DMV descriptor; a job-group write of a job; a refresh; an install or a removal of a row
command; a stream's state (0 staging, 1 the copy of a MOVE, 2 a commit write); a verdict or an announcement; an argument row
of a job's context, by its row in the cistern; a result row of a job (R432); the report of an engine's link (R376). -/
inductive MsgFor where
  | none
  | row (core thread : Nat)
  | parcel (core thread : Nat)
  | dmv (core item : Nat)
  | jobWrite (job : Nat)
  | refresh
  | rowCmd (grp : Nat)
  | state (stream kind : Nat)
  | verdict
  | load (job ctx row : Nat)
  | result (job : Nat)
  | report (engine : Nat)
  /-- Bytes that a unit reads from another module before its command goes on: the device address and the count. -/
  | fetch (addr size : Nat)
  deriving DecidableEq, Repr

/-- A message on its way out (R366, R370, R375 to R378): its number; trunk, dateline bit, engine and VC on arrival where it is
forwarded; the control cycle since when it waits, and whether it is unreachable (R376). -/
structure OutMsg where
  id : Nat
  msg : FabMsg
  use : MsgFor
  own : Bool
  inTrunk : Option Nat
  inBit : Bool
  inBuf : Option (Nat × Nat)
  since : Nat
  dead : Bool
  deriving DecidableEq, Repr

/-- A flit held for replay (R365), with the messages that end in it; its VC, the slots of it that are in use, its first_slot and the other
fields of its link header (R364), its content (Table 4 of 11), and the control cycle in which it was sent. -/
structure HeldFlit where
  seq : Nat
  msgs : List OutMsg
  replays : Nat
  vc : Nat
  used : Nat
  firstSlot : Nat
  head : LinkHeader
  content : List Byte
  cycle : Nat
  deriving DecidableEq, Repr

/-- A receive lane (R359 to R361): its codeword counter, none before the first codeword; whether its codeword of the period in progress
is uncorrectable; and the codewords of the last 1 ms that had errors, each with its control cycle and its symbol errors. -/
structure LaneRx where
  counter : Option Nat
  bad : Bool
  log : List (Nat × Nat)
  deriving DecidableEq, Repr

/-- A link (R359 to R367). -/
structure Link where
  /-- Receive lanes, by physical lane. -/
  lanes : SMap LaneRx
  held : List HeldFlit
  nextSeq : Nat
  lastRecv : Nat
  nakSent : Bool
  /-- Flits held when the link went DOWN, which wait for LINK_REPORT; and the report is still to come (R376). -/
  past : List HeldFlit
  awaiting : Bool
  /-- Data flits accepted since the last acknowledgement; the control cycles of the last progress of ack_seq, of the last replay, and
  of the link's coming UP (R365, R367, R359). -/
  unacked : Nat
  progress : Nat
  replayAt : Nat
  upAt : Nat
  /-- Slots that each VC may still take, and slots to return by VC (R366). -/
  credits : SMap Nat
  owed : SMap Nat
  /-- Class whose turn it is, and the slots that each class may still send in it (R369). -/
  turn : Nat
  deficit : SMap Nat
  /-- Logical lane that waits for the spare: of the receive and of the transmit direction (R362). -/
  rxSpare : Option Nat
  txSpare : Option Nat
  /-- The other end has acknowledged the switch that it asked for (R362). -/
  txAcked : Bool
  /-- A data flit has been accepted since the link came UP: ack_seq is valid (R364). -/
  received : Bool
  /-- Control cycle at which the link went DOWN (R367). -/
  downAt : Nat
  /-- The control flits that were sent last. -/
  sentCtl : List CtlFlit
  deriving DecidableEq, Repr

/-- Bytes of another module that a unit has asked for (R326): the device address, the count, and the pieces that have come, each with
its number, its status (0 its bytes, 1 unmapped, 2 lost) and its bytes; whether a command has used them. -/
structure Fetch where
  addr : Nat
  size : Nat
  parts : List (Nat × Nat × List Byte)
  used : Bool
  deriving DecidableEq, Repr

structure Fabric where
  links : SMap Link
  waiting : List OutMsg
  /-- Requests sent and not yet answered. -/
  sent : List OutMsg
  nextId : Nat
  /-- Messages that have arrived for this module, and the engine and VC whose buffer each of them takes up (R366). -/
  arrived : List FabMsg
  buffers : List (FabMsg × Nat × Nat)
  /-- Changes of routes in progress, each by the ordered messages that must be answered first, with their destinations (R377); the
  ordered set of each trunk, and its members whose link has been DOWN since (R375). -/
  holds : List (List (Nat × Nat))
  ordered : SMap Nat
  lapsed : SMap Nat
  /-- Enabled links that did not come UP in 2 s (R453). -/
  late : Nat
  /-- Bytes of other modules asked for, and those, as addresses and counts, that the command in hand still lacks (R326). -/
  fetched : List Fetch
  wanted : List (Nat × Nat)
  deriving DecidableEq, Repr

/-! ### Streams (06) -/

/-- A chunk is queued, running, or held with its stream (R206, R218). -/
inductive ChunkState where
  | queued
  | running
  | held
  deriving DecidableEq, Repr

/-- A model-rate frame of a stream (R203, R238 to R247): the control cycle of its tick; whether it starts an utterance; its
kind, 0 lead-in, 1 data, 2 lead-out, 3 pad; whether it is the first or the last one of its activity that egress carries;
the slip taken in it, 0 none, 1 a drop, 2 a repeat; the ratio deviation under which it was read; the number of its activity and
the configuration in force for it. -/
structure FrameInfo where
  tick : Nat
  utt : Bool
  kind : Nat
  first : Bool
  last : Bool
  slip : Nat
  dev : Int
  act : Nat
  cfg : Desc
  deriving DecidableEq, Repr

/-- A chunk (Table 6 of 06), with its number, its state, whether its deadline miss has been raised (R219), whether an injection gave its
due time, and whether its state was not resident at its launch (R215). -/
structure Chunk where
  id : Nat
  stream : Nat
  st : ChunkState
  ready : Nat
  due : Nat
  resets : Nat
  inc : Nat
  first : Nat
  idle : Nat
  /-- Ring slots that it holds. -/
  slots : Nat
  /-- The frames of its steps that are not idle. -/
  frames : List FrameInfo
  host : Bool
  missed : Bool
  inj : Bool
  waited : Bool
  deriving DecidableEq, Repr

/-- A row of a batch (R208): its chunk and stream; generation, state_ptr, residency, cur and reset_req as recorded at
launch; its reset steps; whether it was dropped from the batch (R209). -/
structure BRow where
  chunk : Nat
  stream : Nat
  gen : Nat
  ptr : Nat
  res : Nat
  cur : Nat
  req : Nat
  resets : Nat
  dropped : Bool
  /-- Rows of its state that have arrived from another module (R209, R384). -/
  came : List Nat
  deriving DecidableEq, Repr

/-- A batch (R207, R208): its job, rows, class, the writes to exchange rows still to be made (die, row, contents), the
control cycle at which staging began, whether its invocations have been started, whether its new state has been written,
whether it waited for the output ring (R216), its commit group, and the output of each row by step. -/
structure Batch where
  job : Nat
  rows : List BRow
  resident : Bool
  stage : List (Nat × Nat × List Byte)
  since : Nat
  launched : Bool
  wrote : Bool
  waited : Bool
  /-- Its commit group, begun at launch (R287), and that group once it is being decided. -/
  own : Nat
  grp : Option Nat
  outs : List (List (List Byte))
  deriving DecidableEq, Repr

/-- A feature ring (R203, R204): frames stored since CREATE, slots in use, the stored frames of the chunk being cut,
whether the first chunk has been cut, and the frames whose feature frames have not been written. -/
structure Ring where
  next : Nat
  used : Nat
  frames : List FrameInfo
  later : Bool
  ticks : List FrameInfo
  deriving DecidableEq, Repr

/-- A MOVE in progress (R221): its command, whether the stream was HELD, whether a row of the copy has failed, and
whether its writes to another module have been sent. -/
structure MoveOp where
  stream : Nat
  fn : Nat
  queue : Nat
  head : Nat
  desc : Desc
  held : Bool
  failed : Bool
  copied : Bool
  deriving DecidableEq, Repr

/-! ### Rate domains and intake (07) -/

/-- A rate domain beyond its dictionary entries (R227 to R232): number and position, in 2^-24 control cycles, of its next
sample tick; the control cycle of its last frame tick; whether it stops at its next frame tick; the cycle of the write
that armed it on PPS, and the cycle at which it starts; whether it was last started in mode 1, and the valid edges since its anchor; whether it
re-anchors at the next valid edge; the sample ticks of a shared frame that have passed. -/
structure Domain where
  next : Nat
  at' : Nat
  lastFrame : Nat
  stopping : Bool
  armed : Option Nat
  start : Option Nat
  /-- The start that a valid edge has brought about, 4 cycles after it (R230, R232). -/
  edgeAt : Option Nat
  anchored : Bool
  edges : Nat
  again : Bool
  shared : Nat
  deriving DecidableEq, Repr

/-- The intake of a stream (R236 to R247): its configuration as read at its start, the running state of Table 6, and what
the rules need beside it. -/
structure Intake where
  cfg : Desc
  st : Nat
  rp : Nat
  frontier : Nat
  q0 : Nat
  dev : Int
  integ : Int
  packets : Nat
  lost : Nat
  late : Nat
  overflow : Nat
  drops : Nat
  repeats : Nat
  clamps : Nat
  egressPos : Nat
  idle : Nat
  blockSlips : Nat
  blockFrame : Nat
  /-- An activity has begun since CREATE (R239). -/
  later : Bool
  /-- A sample has been written since the last frame tick (R240). -/
  written : Bool
  /-- Arrival time and end position of the packet with the latest arrival time (R243). -/
  rx : Nat
  rxEnd : Nat
  /-- Position after the end sample (R240). -/
  stop : Option Nat
  /-- Utterance starts not yet met, oldest first (R241). -/
  utts : List Nat
  /-- Lead-out frames made, and the frame number after that of the last tick served, 0 none. -/
  leadOut : Nat
  served : Nat
  /-- The first data frame has been made; the number of the present activity, and of the one whose egress entry was written
  last, 0 none (R247). -/
  begun : Bool
  act : Nat
  sent : Nat
  /-- Frames since the running state was written back (R236). -/
  since : Nat
  /-- The latest source samples of each channel, and the latest model-rate samples and the fraction of the position of each
  egress channel, as the converters hold them (R242, R244, R247). -/
  hist : List (List W32)
  outHist : List (List W32)
  outFrac : Nat
  deriving DecidableEq, Repr

structure Streams where
  /-- Stream entries (Table 1 of 06). -/
  entries : SMap Desc
  /-- Chunks not yet ended, in the order in which they became ready. -/
  chunks : List Chunk
  nextChunk : Nat
  rings : SMap Ring
  /-- Batches of each stack, oldest first. -/
  batches : SMap (List Batch)
  /-- Output position of each stack (R216). -/
  outPos : SMap Nat
  /-- Full exchange rows: 2^18 × die + row of the reservoir (R210). -/
  full : List Nat
  /-- Stacks whose exchange rows are cancelled (R217). -/
  cancelled : List Nat
  /-- Stream commands that wait: function, queue, sq_head after dispatch, descriptor (R202). -/
  waiting : List (Nat × Nat × Nat × Desc)
  moves : List MoveOp
  /-- Input frames on their way to the exchange rows of a stack: die, row, contents (R246). -/
  frameOut : List (Nat × Nat × List Byte)
  domains : SMap Domain
  /-- Level of PPS_IN, the control cycle since which it has that level, and that of its last detected edge (R230). -/
  ppsHigh : Bool
  ppsSince : Nat
  ppsEdge : Option Nat
  /-- The loss of valid edges has been raised (0x901A); an injection has made the last edge not valid (R470). -/
  ppsLost : Bool
  ppsInj : Bool
  /-- Intakes of streams; producer index of each ingress ring and consumer index of each egress ring, by 2 × partition + die. -/
  intakes : SMap Intake
  ingress : SMap Nat
  egress : SMap Nat
  deriving DecidableEq, Repr

/-! ### The state -/

structure State where
  /-- Commands that wait, oldest first. -/
  pending : List Instr
  /-- The control-cycle counter (R23). -/
  now : Nat
  /-- The free-value counter: the model's own (log entry 6). -/
  free : Nat
  top : Top
  alloc : Alloc
  pow : Power
  /-- Scalar dictionary entries, and STR and BLOB entries, by key (R439). -/
  regs : SMap Nat
  blobs : SMap (List Byte)
  /-- Bytes at device addresses: the two tiers and host memory (R324). -/
  mem : List Host.Cell
  cores : SMap Core
  ctxs : SMap Ctx
  jobs : List Job
  nextJob : Nat
  /-- Context commands in progress, oldest first (R399). -/
  ctxOps : List CtxOp
  tiers : Tiers
  sl : Sluice
  tab : Tables
  fab : Fabric
  strm : Streams
  host : HostIf
  mgmt : Mgmt
  av : Avail
  fw : Firmware
  tap : Tap
  deriving DecidableEq, Repr

/-! ### Values at reset -/

def Governor.init : Governor :=
  { floor := 0, held := [], heldSum := 0, heldSince := 0, windowStart := 0, queue := [], asks := [], returns := [], unwanted := [],
    loanAsk := none, loanAnswer := none, hot := false, optHot := false, injHot := false }

def Power.init : Power :=
  { gov := ⟨Governor.init, Governor.init⟩, haltedBudget := false, haltedUntil := 0, runAbove := 0, runBelow := 0,
    sampleSum := 0, sampleCount := 0, sliceRet := 0, sliceUse := [], acctSeen := [], energyGiven := 0, energyIn := 0 }

/-- 750 W, 375 W a die (R43). -/
def Alloc.init : Alloc :=
  { budget := 750000000, allot0 := 375000000, allot1 := 375000000, withheld0 := 0, withheld1 := 0 }

def Slot.init : Slot := { st := .free, cells := [], flags := 0, gtu := false }

def Token.init : Token := { work := 0, error := false, real := false, fault := false, rows := [] }

def Csq.init : Csq :=
  { phase := .idle, ctx := 0, seg := 0, issued := 0, segStart := 0, holdFrom := 0, looked := false, chosen := none,
    ranFrom := 0, layer := none, inW := 0, outW := 0, spanNo := 0, spanSeg := 0, spanLayer := none, spanIn := 0, spanOut := 0,
    spanWindow := none, spanUses := [], kept := [], decided := [], retried := false, undo := [], reload := [], cause := 0, switchTo := none, cancel := none,
    uses := [], said := false, faulted := false, injRetry := false }

/-- A core after reset: every row zero and unowned (R158), every slot FREE (R121), nothing outstanding. -/
def Core.init : Core :=
  { rows := [], tags := [], writeBack := [], patrol := [], gated := 0, retained := 0, lastUse := [], handles := [],
    rill := [], tokens := [], gtuBuf := [], csq := Csq.init, window := none, vxeBank := Bank.init 64, gtuBank := Bank.init 64,
    gxeBank := Bank.init 16, dmv := [], dmvNext := 0, busyFrom := 0, gxe := [], threads := [],
    gxeNext := 0 }

/-- A core with its cistern zero-filled and nothing outstanding: the generators of its banks keep their states (R92, R189). -/
def Core.blank (c : Core) : Core := { Core.init with vxeBank := c.vxeBank, gtuBank := c.gtuBank, gxeBank := c.gxeBank }

/-- A spare core: gated, its cistern in retention (R25). -/
def Core.spare : Core := { Core.init with gated := 7, retained := 15 }

def Ctx.init : Ctx :=
  { st := .free, part := 0, core := 0, rowBase := 0, handleBase := 0, header := 0, decls := [], manifest := [],
    image := 0, weightBase := 0, seed := 0, weir := 0xFFFF, seg := 0, mid := false, queue := [], job := none,
    tagFault := false, loaded := false, gone := [], intact := false, save := 0, swaps := [], undo := [], flagged := [], cancelled := false, dying := false, readyFrom := 0, blockedFrom := 0, blocked := false }

def QPair.init : QPair := { tail := 0, cqHead := 0, fetched := [], unsignalled := 0, unsignalledFrom := 0, live := false }

def Mailbox.init : Mailbox := { addr := 0, offset := 0, status := 0, size := 0, data := [] }

/-- MSI-X vectors are masked after reset, as the PCIe capability gives (log entry 5). -/
def msixReset : Nat := 2 ^ 17 - 1

def HostIf.init : HostIf :=
  { pairs := [], made := ⟨[], []⟩, accepted := ⟨[], []⟩, eventLink := 0, eventProd := [], mailbox := [], msixMask := [],
    msixPending := [], msixSent := [], vfEnable := false, numVfs := 0, completionTimeout := 0,
    msixCtl := [], msixTable := [], messages := [], d3hot := 0, aer := [], buses := [], bars := [], turns := ⟨(0, 0), (0, 0)⟩,
    events := [], tails := [] }

def Mgmt.init : Mgmt := { addr := none, eid := 0, events := [], responses := [], ibis := 0, units := 0, waiting := none, queue := [] }

def Avail.init : Avail :=
  { lastPost := [], preReady := [], handover := none, testing := [], serviceTest := none, missed := 0, muted := false,
    dieStop := none, linkFrom := [], injectedLanes := [] }

def Firmware.init : Firmware :=
  { valid := 3, slot := 0, transfer := 0, comps := [], switched := 0, activating := false, byService := false, versionA := none, versionB := none }

/-- IDCODE is the reset default of the instruction register (Table 4 of 15). -/
def Tap.init : Tap := { ir := 1, boundary := 0, driving := false, released := false }

def Top.init : Top :=
  { dev := .reset, pwrGood := true, sysResetN := false, stuck := false, resetDone := false, trained := 0,
    zeroFilled := false, calibrated := 0, passed2 := false, heldCycles := 0, heldFrom := 0,
    stopped := ⟨false, false⟩, fuses := 0, fusedPermits := [6, 12, 8, 4] }

/-- The cores after reset: slot 8 of each cluster is a spare (R4, R25). -/
def coresReset : SMap Core := (List.range 8).map fun c => (9 * c + 8, Core.spare)

def Channel.init : Channel :=
  { queue := [], waiting := [], asleep := false, lastUse := 0, reissues := [], corrected := 0, uncorrectable := 0,
    retries := 0, failures := 0, repaired := 0 }

def Range.init : Range :=
  { remap := [], retired := [], poison := [], rowCe := [], failing := [],
    plan := none, reflow := none, repair := none, spares := [] }

def Tiers.init : Tiers := { ranges := [], chans := [], lines := [], resv := [], ports := [] }

/-- Marks restart at 0 (R284). -/
def Sluice.init : Sluice :=
  { lastMark := 0, p := ⟨0, 0⟩, groups := [], nextGroup := 0, pins := [], peerPin := ⟨0, 0⟩, versions := ⟨[], []⟩,
    blocks := ⟨[], []⟩, waits := ⟨[], []⟩, armed := ⟨true, true⟩, drain := ⟨none, none⟩, locks := [],
    accums := ⟨[], []⟩, applies := [], dicts := [], closed := [], timedOut := [], turns := [], lastTurn := none, awaited := none,
    parcelWaits := [], later := [] }

def Tables.init : Tables := { desc := [], dir := ⟨[], []⟩, mapped := [], sketch := [], hot := [], holders := [], homeMark := [], waiting := [] }

def LaneRx.init : LaneRx := { counter := none, bad := false, log := [] }

def Link.init : Link :=
  { lanes := [], held := [], nextSeq := 0, lastRecv := 4095, nakSent := false, past := [], awaiting := false, unacked := 0, progress := 0,
    replayAt := 0, upAt := 0, credits := [], owed := [],
    turn := 0, deficit := [],
    rxSpare := none, txSpare := none, txAcked := false, received := false, downAt := 0, sentCtl := [] }

def Fabric.init : Fabric :=
  { links := [], waiting := [], sent := [], nextId := 0, arrived := [], buffers := [], holds := [], ordered := [], lapsed := [], late := 0,
    fetched := [], wanted := [] }

def Ring.init : Ring := { next := 0, used := 0, frames := [], later := false, ticks := [] }

/-- A domain that has not started; domain 0 ticks from control cycle 0, at which the root PLL locks (R229). -/
def Domain.init : Domain :=
  { next := 0, at' := 0, lastFrame := 0, stopping := false, armed := none, start := none, edgeAt := none, anchored := false, edges := 0,
    again := false,
    shared := 0 }

/-- CREATE clears the running state (R236). -/
def Intake.init : Intake :=
  { cfg := 0, st := 0, rp := 0, frontier := 0, q0 := 0, dev := 0, integ := 0, packets := 0, lost := 0, late := 0, overflow := 0,
    drops := 0, repeats := 0, clamps := 0, egressPos := 0, idle := 0, blockSlips := 0, blockFrame := 0, later := false,
    written := false, rx := 0, rxEnd := 0, stop := none, utts := [], leadOut := 0, served := 0, begun := false, act := 0, sent := 0,
    since := 0, hist := [], outHist := [], outFrac := 0 }

def Streams.init : Streams :=
  { entries := [], chunks := [], nextChunk := 0, rings := [], batches := [], outPos := [], full := [], cancelled := [],
    waiting := [], moves := [], frameOut := [], domains := [], ppsHigh := false, ppsSince := 0, ppsEdge := none, ppsLost := false, ppsInj := false, intakes := [], ingress := [], egress := [] }

/-- The machine right after reset: SYS_RESET_N low, PWR_GOOD high (log entry 3). -/
def State.reset : State :=
  { pending := [], now := 0, free := 0, top := Top.init, alloc := Alloc.init, pow := Power.init, regs := [], blobs := [],
    mem := [], cores := coresReset, ctxs := [], jobs := [], nextJob := 0, ctxOps := [],
    tiers := Tiers.init, sl := Sluice.init, tab := Tables.init,
    fab := Fabric.init,
    strm := Streams.init,
    host := HostIf.init, mgmt := Mgmt.init, av := Avail.init, fw := Firmware.init, tap := Tap.init }

end Sys2Proof.Machine
end

