-- ==== Sys2Proof/Machine/Ops.lean ====
section
/-! DEFINITION. The named operations over registers, memory, cores, permits, detectors, interrupts and records. -/

namespace Sys2Proof.Machine

/-! ### By die -/

def Two.get {α : Type} (t : Two α) (d : Nat) : α := if d = 0 then t.d0 else t.d1

def Two.set {α : Type} (t : Two α) (d : Nat) (a : α) : Two α := if d = 0 then { t with d0 := a } else { t with d1 := a }

def Two.mod {α : Type} (t : Two α) (d : Nat) (f : α → α) : Two α := t.set d (f (t.get d))

/-! ### Dictionary registers -/

/-- The index of the entry of a ring: two in a partition, one per die (R233, R451). -/
def ringIdx (base part die : Nat) : Nat := base + 2 * part + die

/-- The scalar entry idx.sub. -/
def State.reg (s : State) (idx sub : Nat) : Nat := SMap.get (regDefault (dkey idx sub)) s.regs (dkey idx sub)

/-- An accessor's own copy of the scalar entry idx.sub (R441, R316). -/
def State.areg (s : State) (acc idx sub : Nat) : Nat := SMap.get (regDefault (akey acc idx sub)) s.regs (akey acc idx sub)

/-- Store a scalar entry, cut to its width. -/
def State.setReg (s : State) (idx sub v : Nat) : State :=
  { s with regs := SMap.set (regDefault (dkey idx sub)) s.regs (dkey idx sub) (v % 2 ^ regBits (dkey idx sub)) }

def State.setAreg (s : State) (acc idx sub v : Nat) : State :=
  { s with regs := SMap.set (regDefault (akey acc idx sub)) s.regs (akey acc idx sub) (v % 2 ^ regBits (dkey idx sub)) }

/-- Add to a counter. -/
def State.bump (s : State) (idx sub n : Nat) : State := s.setReg idx sub (s.reg idx sub + n)

/-- Raise a greatest-value entry. -/
def State.regMax (s : State) (idx sub v : Nat) : State := if s.reg idx sub < v then s.setReg idx sub v else s

def stringBytes (t : String) : List Byte := t.toList.map fun c => BitVec.ofNat 8 c.toNat

/-- Default of an STR or BLOB entry: as many zero bytes as the table states, else empty; the fused strings (log entry 3). -/
def blobDefault (key : Nat) : List Byte :=
  let idx := key / 256 % 65536
  let sub := key % 256
  if idx = 0x1000 && sub = 3 then stringBytes "NLG7-A64-L"
  else if idx = 0x1000 && sub = 4 then Config.fusedBytes 0
  else if idx = 0x1000 && sub = 6 then Config.fusedBytes 1
  else if idx = 0xA030 then Config.fusedBytes (sub + 1)
  else match dictFind idx sub with
    | some r => if r.fixed then List.replicate r.size 0 else []
    | none => []

def State.blob (s : State) (idx sub : Nat) : List Byte := SMap.get (blobDefault (dkey idx sub)) s.blobs (dkey idx sub)

def State.setBlob (s : State) (idx sub : Nat) (v : List Byte) : State :=
  { s with blobs := SMap.set (blobDefault (dkey idx sub)) s.blobs (dkey idx sub) v }

/-- Byte i of every run of mask.length bytes keeps the bits of mask's byte i: reserved fields read 0 (R9). -/
def keepBits (mask : List Nat) (bs : List Byte) : List Byte :=
  bs.zipIdx.map fun x => x.1 &&& BitVec.ofNat 8 (mask.getD (x.2 % mask.length) 0)

/-- Replace the bytes from offset on. -/
def putBytes (old : List Byte) (offset : Nat) (new : List Byte) : List Byte :=
  let old := if old.length < offset then old ++ List.replicate (offset - old.length) 0 else old
  old.take offset ++ new ++ old.drop (offset + new.length)

/-- Bit b of a BLOB's mask of 32-bit words: word w (R490). -/
def State.setBlobBit (s : State) (idx sub w b : Nat) : State :=
  let v := s.blob idx sub
  let x := (v.getD (4 * w + b / 8) 0).toNat
  s.setBlob idx sub (putBytes v (4 * w + b / 8) [BitVec.ofNat 8 (maskSet x (b % 8))])

def State.blobBit (s : State) (idx sub w b : Nat) : Bool :=
  ((s.blob idx sub).getD (4 * w + b / 8) 0).toNat.testBit (b % 8)

/-! ### Memory bytes -/

/-- The byte at a device address; an address that nothing has written reads 0 (log entry 2). -/
def State.byteAt (s : State) (a : Nat) : Byte := SMap.get 0 s.mem a

def State.setByte (s : State) (a : Nat) (v : Byte) : State := { s with mem := SMap.set 0 s.mem a v }

/-- n bytes from address a on. -/
def State.bytesAt (s : State) (a n : Nat) : List Byte := (List.range n).map fun i => s.byteAt (a + i)

/-- Store bytes from address a on, in a list of cells. -/
def memPut : List Host.Cell → Nat → List Byte → List Host.Cell
  | m, _, [] => m
  | m, a, b :: bs => memPut (SMap.set 0 m a b) (a + 1) bs

def State.putBytesAt (s : State) (a : Nat) (bs : List Byte) : State := { s with mem := memPut s.mem a bs }

/-- The host's own stores into its memory: only host-memory addresses (R327). -/
def hostStores : List Host.Cell → Cells → List Host.Cell
  | m, [] => m
  | m, (a, b) :: cs => hostStores (if 2 ^ 51 ≤ a && a < 2 ^ 52 then SMap.set 0 m a b else m) cs

/-- The 512 B row at a device address. -/
def State.rowAt (s : State) (a : Nat) : Row := BitVec.ofNat 4096 (leNat (s.bytesAt a 512))

def State.putRowAt (s : State) (a : Nat) (r : Row) : State := s.putBytesAt a (wordBytes r)

/-! ### Time (R20, R23) -/

/-- Microseconds in control cycles. -/
def usCycles (n : Nat) : Nat := 400 * n

/-- Core cycles of the control-cycle counter. -/
def State.cc (s : State) : Nat := 4 * s.now

/-- Nanoseconds of a number of control cycles. -/
def cyclesNs (n : Nat) : Nat := 5 * n / 2

/-! ### Core numbers (R2 to R4, R455) -/

/-- Physical core of a core address code. -/
def codePhys (c : Nat) : Nat := 36 * (c / 64 % 2) + 9 * (c / 16 % 4) + c % 16

/-- Core address code of a physical core. -/
def physCode (p : Nat) : Nat := coreCode (p / 36) (p % 36 / 9) (p % 9)

/-- Physical core that the core map gives for logical core l (R3). -/
def State.physOf (s : State) (l : Nat) : Nat := codePhys (s.reg 0xA010 (l + 1))

/-- Logical core mapped to physical core p; 0xFF none. -/
def State.logicalOf (s : State) (p : Nat) : Nat := s.reg (0xA100 + p) 2

/-- Lanes of the VXE of a physical core (R17, R471). -/
def State.lanes (s : State) (p : Nat) : Nat := s.reg (0xA100 + p) 3

def State.core (s : State) (p : Nat) : Core := SMap.get Core.init s.cores p

def State.setCore (s : State) (p : Nat) (c : Core) : State := { s with cores := SMap.set Core.init s.cores p c }

def State.modCore (s : State) (p : Nat) (f : Core → Core) : State := s.setCore p (f (s.core p))

def State.modCsq (s : State) (p : Nat) (f : Csq → Csq) : State := s.modCore p fun c => { c with csq := f c.csq }

def State.ctx (s : State) (x : Nat) : Ctx := SMap.get Ctx.init s.ctxs x

def State.setCtx (s : State) (x : Nat) (c : Ctx) : State := { s with ctxs := SMap.set Ctx.init s.ctxs x c }

def State.modCtx (s : State) (x : Nat) (f : Ctx → Ctx) : State := s.setCtx x (f (s.ctx x))

def State.job? (s : State) (j : Nat) : Option Job := s.jobs.find? fun x => x.id = j

def State.modJob (s : State) (j : Nat) (f : Job → Job) : State :=
  { s with jobs := s.jobs.map fun x => if x.id = j then f x else x }

/-! ### Permits (R27 to R34) -/

/-- Row of permit_size that holds a class's size (R27, R43). -/
def PClass.sub : PClass → Nat
  | .mxe => 1
  | .hbm => 2
  | .fabric => 3
  | .drain => 4

/-- Order of classes that arrive in one noc cycle (R31). -/
def PClass.order : PClass → Nat
  | .drain => 0
  | .mxe => 1
  | .hbm => 2
  | .fabric => 3

/-- Size of a class in µW. -/
def State.permitSize (s : State) (c : PClass) : Nat := 1000000 * s.reg 0x2003 c.sub

/-- Die whose governor an issuer asks. -/
def State.issuerDie (s : State) : Issuer → Nat
  | .csq p => p / 36
  | .dmv p => p / 36
  | .spill x => (s.ctx x).core / 32
  | .sluice d => d

def State.gov (s : State) (d : Nat) : Governor := s.pow.gov.get d

def State.setGov (s : State) (d : Nat) (g : Governor) : State := { s with pow := { s.pow with gov := s.pow.gov.set d g } }

/-- The issuer holds the permit: a grant of it has not been handed back (R34, R36). -/
def Governor.grants (g : Governor) (p : Permit) : Bool := decide (g.returns.count p < g.held.count p)

/-- A request for the permit is on its way or queued. -/
def Governor.asked (g : Governor) (p : Permit) : Bool := g.asks.contains p || g.queue.any fun a => a.permit = p

def State.holdsPermit (s : State) (p : Permit) : Bool := (s.gov (s.issuerDie p.issuer)).grants p

/-- A unit sends a request for a permit to its die's governor, unless it holds the permit or has already asked. -/
def State.askPermit (s : State) (p : Permit) : State :=
  let d := s.issuerDie p.issuer
  let g := s.gov d
  if g.grants p then s
  else if g.asked p then s.setGov d { g with unwanted := g.unwanted.erase p }
  else s.setGov d { g with asks := g.asks ++ [p] }

/-- A unit returns a permit it holds; one it has asked for is returned when it is granted, since a request is never cancelled
(R33, R34). -/
def State.returnPermit (s : State) (p : Permit) : State :=
  let d := s.issuerDie p.issuer
  let g := s.gov d
  if g.grants p then s.setGov d { g with returns := g.returns ++ [p] }
  else if g.asked p && !g.unwanted.contains p then s.setGov d { g with unwanted := g.unwanted ++ [p] }
  else s

/-! ### Interrupts (R438) -/

/-- A function may send the message of a vector: MSI-X is enabled, neither function nor vector is masked, and the function is in D0
(R438; log entry 5). -/
def State.vectorOpen (s : State) (fn vec : Nat) : Bool :=
  SMap.get 0 s.host.msixCtl fn = 1 && !maskBit s.host.d3hot fn && !maskBit (SMap.get msixReset s.host.msixMask fn) vec

/-- Signal a vector of a function: a masked vector sets its pending bit, another one sends its message. -/
def State.signal (s : State) (fn vec : Nat) : State :=
  let h := s.host
  if s.vectorOpen fn vec then
    { s with host := { h with
        msixSent := SMap.mod 0 h.msixSent (32 * fn + vec) fun n => n + 1,
        messages := h.messages ++ [SMap.get (0, 0) h.msixTable (32 * fn + vec)] } }
  else { s with host := { h with msixPending := SMap.mod 0 h.msixPending fn fun m => maskSet m vec } }

/-- The pending messages of a function that may be sent now are sent. -/
def State.sendPending (s : State) (fn : Nat) : State :=
  (List.range 17).foldl (fun (s : State) v =>
    if maskBit (SMap.get 0 s.host.msixPending fn) v && s.vectorOpen fn v then
      State.signal { s with host := { s.host with msixPending := SMap.mod 0 s.host.msixPending fn fun m => maskClear m v } } fn v
    else s) s

/-- Signal a vector that a function has named: one that it does not have leaves free which of its 17 vectors, if any, is signalled
(R12, R438; log entry 65). -/
def State.signalVec (s : State) (fn vec : Nat) : State :=
  if vec < 17 then s.signal fn vec
  else
    let v := (Config.freeValue s.free).toNat % 18
    let s := { s with free := s.free + 1 }
    if v = 17 then s else s.signal fn v

/-! ### Windows (R391) -/

def pageSize : Nat := 2 ^ 21

/-- Entry i of a partition's windows (Table 2 of 12). -/
def State.window (s : State) (part i : Nat) : Nat := leNat (((s.blob (0x7010 + part) 4).drop (16 * i)).take 16)

/-- The access lies wholly within one valid window whose rights allow it; host memory is not subject to windows (R391). -/
def State.inWindows (s : State) (part a n : Nat) (write : Bool) : Bool :=
  2 ^ 51 ≤ a || (List.range 8).any fun i =>
    let w := s.window part i
    wfld' w 112 112 = 1 && wfld' w (if write then 114 else 113) (if write then 114 else 113) = 1
      && wfld' w 51 0 ≤ a && a + n ≤ wfld' w 51 0 + pageSize * wfld' w 103 64
where
  wfld' (w hi lo : Nat) : Nat := (w >>> lo) % 2 ^ (hi + 1 - lo)

/-! ### Detectors and events (R467 to R470) -/

/-- What a raise of a detector records (Table 6 of 14). -/
structure Raise where
  det : Nat
  sev : Nat
  cause : Nat := 0
  detail : Nat := 0
  aux : Nat := 0
  ctx : Nat := 0xFFF
  core : Nat := 0xFF
  phys : Option Nat := none
  injected : Bool := false
  suppressed : Bool := false
  overflow : Bool := false
  part : Option Nat := none
  deriving DecidableEq, Repr

/-- The record of a raise (R468), with the detector's count after it and the control cycle. -/
def Raise.record (r : Raise) (count time : Nat) : Rec :=
  BitVec.ofNat 256
    (put 255 192 r.detail + put 191 128 time + put 127 96 r.aux + put 95 80 r.det + put 79 64 count
      + put 63 52 r.ctx + put 47 40 r.core + put 39 39 (boolNat r.phys.isSome)
      + put 38 32 (r.phys.getD 0) + put 31 24 r.cause + put 23 23 (boolNat r.injected)
      + put 22 22 (boolNat r.suppressed) + put 21 21 (boolNat r.overflow) + put 20 20 (boolNat r.part.isSome)
      + put 15 12 (r.part.getD 0) + put 11 8 r.sev + put 7 0 0x22)

/-- READY or SERVING. -/
def State.isUp (s : State) : Bool := s.top.dev = .ready || s.top.dev = .serving

/-- Store bytes for a function: those of a virtual function only inside the windows of its partition, or in host memory; what
lies outside is treated as unmapped, is dropped and is counted (R12, R328, R391). -/
def State.putFor (s : State) (fn a : Nat) (bs : List Byte) : State :=
  if fn = 0 || s.inWindows (fn - 1) a bs.length true then s.putBytesAt a bs else s.bump 0x3001 5 1

/-- Write an event record to the event queue of a function, or count its overflow (R449, R469); vector 0 is signalled. -/
def State.putEvent (s : State) (fn : Nat) (r : Rec) : State :=
  let i := 0xB010 + fn
  let n := s.reg i 2
  let prod := SMap.get 0 s.host.eventProd fn
  let used := (prod + 2 ^ 32 - s.reg i 4) % 2 ^ 32
  if n = 0 || n ≤ used then s.bump i 5 1
  else
    let s := s.putFor fn (s.reg i 1 + 32 * (prod % n)) (wordBytes r)
    let p := (prod + 1) % 2 ^ 32
    let s := { s with host := { s.host with eventProd := SMap.set 0 s.host.eventProd fn p } }
    let s := s.putFor fn (s.reg i 3) (leBytes 4 p)
    (s.bump 0x9000 4 1).signal fn 0

/-- The link of the events and of the egress tails is up (R421, R422). -/
def State.eventLinkUp (s : State) : Bool := s.reg 0xB000 (1 + s.host.eventLink) = 2

/-- Post an event record to a function: one for a queue in host memory waits while no link can carry it (R421). -/
def State.postEvent (s : State) (fn : Nat) (r : Rec) : State :=
  if 2 ^ 51 ≤ s.reg (0xB010 + fn) 1 && !s.eventLinkUp && s.reg (0xB010 + fn) 2 ≠ 0 then
    { s with host := { s.host with events := s.host.events ++ [(fn, r)] } }
  else s.putEvent fn r

/-- A message of n bytes goes to management, in units of 64 B, with an in-band interrupt (R444). -/
def Mgmt.sent (m : Mgmt) (n : Nat) : Mgmt := { m with ibis := m.ibis + 1, units := m.units + ceilDiv n 64 }

/-- Send a record of severity 2 or more to management, as a PLDM event message (R446, R469). -/
def State.toManagement (s : State) (sev : Nat) (r : Rec) : State :=
  if 2 ≤ sev then { s with mgmt := { s.mgmt.sent 32 with events := s.mgmt.events ++ [r] } } else s

/-- Post a record to the PF, to the partition's function and to management (R469). -/
def State.postRecord (s : State) (r : Raise) (ev : Rec) : State :=
  let s := (s.toManagement r.sev ev).postEvent 0 ev
  match r.part with
  | some p => s.postEvent (p + 1) ev
  | none => s

/-- Before READY no queue takes a record: the last one of each detector is held (R479). -/
def State.holdRecord (s : State) (r : Raise) (ev : Rec) : State :=
  { s with av := { s.av with preReady :=
      (s.av.preReady.filter fun x => x.det ≠ r.det) ++ [⟨r.det, ev, r.part.map (· + 1), []⟩] } }

/-- The detector's bit is set in event_mask: it posts nothing (R469). -/
def State.eventMasked (s : State) (det : Nat) : Bool := maskBit (s.reg 0x9000 1) (det % 0x1000)

/-- A record of the detector is posted now: the holdoff counts from here. -/
def State.notePosted (s : State) (det : Nat) : State :=
  { s with av := { s.av with lastPost := SMap.set 0 s.av.lastPost det (s.now + 1) } }

/-- The detector's previous record was posted less than event_holdoff ago (R469). -/
def State.inHoldoff (s : State) (det : Nat) : Bool :=
  let last := SMap.get 0 s.av.lastPost det
  last ≠ 0 && decide (s.now + 1 - last < usCycles (s.reg 0x9000 2))

/-- Raise a detector (R467, R469). -/
def State.raise (s : State) (r : Raise) : State :=
  let s := s.bump r.det 1 1
  let ev := r.record (s.reg r.det 1) s.now
  let s := s.setBlob r.det 2 (wordBytes ev)
  let s := if 3 ≤ r.sev then s.setReg 0x9000 3 1 else s
  if !s.isUp then
    let s := s.holdRecord r ev
    if s.eventMasked r.det then s else s.toManagement r.sev ev
  else if s.eventMasked r.det || s.inHoldoff r.det then s
  else (s.postRecord r ev).notePosted r.det

/-- An injection is armed for the detector's operation that target and site select (R470, Table 8 of 14). -/
def State.armed (s : State) (det target site : Nat) : Bool :=
  let w := s.reg det 3
  s.isUp && w / 2 ^ 16 % 2 ^ 16 ≠ 0 && w / 2 ^ 48 = target && w / 2 ^ 40 % 256 = site

/-- Use up one injection of a detector (R470). -/
def State.consume (s : State) (det : Nat) : State :=
  (s.setReg det 3 ((s.reg det 3 / 65536 - 1) * 65536 + s.reg det 3 % 65536)).bump det 4 1

/-- Set or clear a bit of degraded_causes; every change of DEGRADED sets alert_pending (R453, R469). -/
def State.setCause (s : State) (bit : Nat) (on : Bool) : State :=
  let old := s.reg 0xA000 1
  let new := if on then maskSet old bit else maskClear old bit
  let s := s.setReg 0xA000 1 new
  if decide (old = 0) ≠ decide (new = 0) then s.setReg 0x9000 3 1 else s

/-- DEGRADED (R453). -/
def State.degraded (s : State) : Bool := s.reg 0xA000 1 ≠ 0

/-! ### Completion records (R434 to R437) -/

/-- Index of queue pair q of function f (R448). -/
def pairIdx (f q : Nat) : Nat := 0xB100 + 16 * f + q

def State.pair (s : State) (f q : Nat) : QPair := SMap.get QPair.init s.host.pairs (16 * f + q)

def State.setPair (s : State) (f q : Nat) (p : QPair) : State :=
  { s with host := { s.host with pairs := SMap.set QPair.init s.host.pairs (16 * f + q) p } }

/-- A record with empty fields for a queue pair. -/
def CRec.blank (f q tag : Nat) : CRec :=
  { fn := f, queue := q, irq := false, mark := 0, tag := tag, result := 0, ctx := 0, sqHead := 0, flags := 0, bits := 0,
    cause := 0, status := 0, kind := 0x20, needMark := none, flush := false, held := false, raw := none, chunk := none, counts := true, unit := 0 }

/-- The 32 bytes of a completion record posted at a control cycle (Table 7 of 13). -/
def CRec.encode (r : CRec) (time : Nat) : Rec :=
  match r.raw with
  | some w =>
    match r.chunk with
    | some c => if c.due < 2 ^ 64 - 1 && (c.missed || c.due < time) then BitVec.ofNat 256 (maskSet w.toNat 38) else w
    | none => w
  | none => BitVec.ofNat 256
      (put 255 208 r.mark + put 207 192 r.tag + put 191 160 r.result + put 159 148 r.ctx + put 147 144 r.queue
        + put 143 128 r.sqHead + put 127 116 r.flags + put 115 113 r.bits + put 95 64 time + put 15 12 r.cause
        + put 11 8 r.status + put 7 0 r.kind)

/-- A unit produces a record: it goes to the collector of the pair's home link (R421, R435). -/
def State.produce (s : State) (r : CRec) : State :=
  let d := s.reg (pairIdx r.fn r.queue) 7
  { s with host := { s.host with made := s.host.made.mod d fun l => l ++ [r] } }

/-- Tag, irq, fence and kind of a descriptor (Table 3 of 13). -/
def descTag (d : Desc) : Nat := fld d 511 496
def descIrq (d : Desc) : Bool := bitAt d 486
def descFence (d : Desc) : Bool := bitAt d 487
def descKind (d : Desc) : Nat := fld d 455 448

/-- Status codes (Table 9 of 13). -/
def stCompleted : Nat := 0
def stAborted : Nat := 1
def stFault : Nat := 2
def stState : Nat := 3
def stKilled : Nat := 4
def stNoSpace : Nat := 5
def stLimit : Nat := 6
def stError : Nat := 7

/-- Context of a job descriptor and of a context command (Table 5 of 13, Table 4 of 12). -/
def descCtx (d : Desc) : Nat := if descKind d = 1 then fld d 263 252 else if descKind d = 3 then fld d 248 237 else 0

/-- The record of a descriptor that ends with a status; the result of a context command is its context (Table 8 of 13). -/
def State.complete (s : State) (f q : Nat) (d : Desc) (sqHead status : Nat) (mark : Option Nat := none) : State :=
  s.produce { CRec.blank f q (descTag d) with
    irq := descIrq d, sqHead := sqHead % 65536, status := status, mark := mark.getD 0, needMark := mark, ctx := descCtx d,
    unit := descKind d, result := if descKind d = 3 then descCtx d else 0 }

/-! ### Accounts (R414) -/

/-- Add to counter sub of account a (0 to 15 a partition, 16 the system account). -/
def State.charge (s : State) (a sub n : Nat) : State := if n = 0 then s else s.bump (0x7810 + a) sub n

end Sys2Proof.Machine
end

