-- ==== Sys2Proof/Machine/Power.lean ====
section
/-! DEFINITION. The two power governors, the budget, heat, and clock gating (01). Amounts are in µW. -/

namespace Sys2Proof.Machine

/-- The budget in force: the package budget less any amount withheld (R27, R40). -/
def Alloc.inForce (a : Alloc) : Int := a.budget - a.withheld0 - a.withheld1

def Alloc.allot (a : Alloc) (d : Nat) : Int := if d = 0 then a.allot0 else a.allot1

def Alloc.withheld (a : Alloc) (d : Nat) : Int := if d = 0 then a.withheld0 else a.withheld1

/-- Move allotment from die d to the other die (R29, R30). -/
def Alloc.move (a : Alloc) (d : Nat) (x : Int) : Alloc :=
  if d = 0 then { a with allot0 := a.allot0 - x, allot1 := a.allot1 + x }
  else { a with allot0 := a.allot0 + x, allot1 := a.allot1 - x }

/-- Withhold an amount from die d (R40). -/
def Alloc.withhold (a : Alloc) (d : Nat) (x : Int) : Alloc :=
  if d = 0 then { a with allot0 := a.allot0 - x, withheld0 := a.withheld0 + x }
  else { a with allot1 := a.allot1 - x, withheld1 := a.withheld1 + x }

/-- Return the whole amount withheld from die d (R40). -/
def Alloc.release (a : Alloc) (d : Nat) : Alloc :=
  if d = 0 then { a with allot0 := a.allot0 + a.withheld0, withheld0 := 0 }
  else { a with allot1 := a.allot1 + a.withheld1, withheld1 := 0 }

/-- A new package budget: each die's headroom changes by the same amount (R38). -/
def Alloc.rebudget (a : Alloc) (b : Int) : Alloc :=
  let x := (b - a.budget) / 2
  { a with budget := b, allot0 := a.allot0 + x, allot1 := a.allot1 + (b - a.budget - x) }

/-- Sum of the sizes of the permits held on die d (R27). -/
def State.held (s : State) (d : Nat) : Nat := (s.gov d).held.foldl (fun a p => a + s.permitSize p.cls) 0

/-- The guard of each die (R27): the budget in force × the guard fraction (in units of 0.5 %) ÷ 2. -/
def State.guard (s : State) : Int := s.alloc.inForce * s.reg 0x2000 3 / 400

/-- headroom(d) (R27). -/
def State.headroom (s : State) (d : Nat) : Int := s.alloc.allot d - (s.gov d).floor - s.held d - s.guard

/-- Granting is stopped (R39). -/
def State.halted (s : State) : Bool := s.pow.haltedBudget || s.now < s.pow.haltedUntil

/-- Change the held permits of die d, with the window's sum of held × time kept (R28). -/
def State.setHeld (s : State) (d : Nat) (l : List Permit) : State :=
  let g := s.gov d
  s.setGov d { g with held := l, heldSum := g.heldSum + s.held d * (s.now - g.heldSince), heldSince := s.now }

/-- Count a request granted later than R32 gives for its case (R33). When a wait enters the counters is not stated: here with
its grant, when its duration is known; a late request that still waits is not yet counted (DESIGN CHOICE, log entry 63). -/
def State.countWait (s : State) (d : Nat) (a : Ask) : State :=
  let w := s.now - a.arrived
  if (if a.loanCase = some true then 80 else 20) < w then
    (((s.bump (0x2001 + d) 5 1).bump (0x2001 + d) 6 (cyclesNs w)).regMax (0x2001 + d) 7 (cyclesNs w))
  else s

/-- The grant of a permit whose operation has ended goes straight back (R33, R34). -/
def Governor.sendBack (g : Governor) (p : Permit) : Governor :=
  if g.unwanted.contains p then { g with unwanted := g.unwanted.erase p, returns := g.returns ++ [p] } else g

/-- Grant the head of the queue of die d: its size is added to held(d) (R28, R32). -/
def State.grant (s : State) (d : Nat) (a : Ask) (rest : List Ask) : State :=
  let s := s.setHeld d ((s.gov d).held ++ [a.permit])
  let s := s.setGov d ({ s.gov d with queue := rest }.sendBack a.permit)
  (s.bump (0x2001 + d) 4 1).countWait d a

/-- Serve the queue of die d in arrival order (R28, R29, R31, R33); the first argument is the fuel. After a cut of the budget
R38 speaks of headroom above the head's size, reached by returns; the model grants by R28 in that state too, at headroom
equal to the size, and also where a loan or the rebalance of R30 brings it (DESIGN CHOICE, log entry 63). -/
def State.serveLoop : Nat → State → Nat → State
  | 0, s, _ => s
  | fuel + 1, s, d =>
    match (s.gov d).queue with
    | [] => s
    | a :: rest =>
      if s.top.stopped.get d || s.now < a.notBefore || s.halted then s
      else
        let h := s.headroom d
        let size : Int := s.permitSize a.permit.cls
        let a := { a with loanCase := some (a.loanCase.getD (decide (h < size))) }
        if size ≤ h then State.serveLoop fuel (s.grant d a rest) d
        else
          let g := s.gov d
          let ask := match g.loanAsk with
            | some x => some x
            | none => if s.top.stopped.get (1 - d) then none else some (size - h).toNat
          s.setGov d { g with queue := a :: rest, loanAsk := ask }

def State.serveDie (s : State) (d : Nat) : State := State.serveLoop ((s.gov d).queue.length + 1) s d

def State.serveBoth (s : State) : State := (s.serveDie 0).serveDie 1

/-- Place a request among those that arrive in the same noc cycle, by class (R31). -/
def insertAsk (a : Ask) : List Ask → List Ask
  | [] => [a]
  | b :: l => if a.permit.cls.order < b.permit.cls.order then a :: b :: l else b :: insertAsk a l

/-- The first n requests on their way reach the governor of die d in one noc cycle (R28, R31). An armed injection of the
permit timeout holds the first of them (Table 7 of 14). -/
def State.doPermitRequest (s : State) (d n : Nat) : State :=
  let g := s.gov d
  let inj := s.armed 0x900A d 0 && g.asks.length ≠ 0 && n ≠ 0
  let hold := s.now + usCycles (s.reg 0x2000 4 + 1)
  let s := if inj then s.consume 0x900A else s
  let new := (g.asks.take n).zipIdx.map fun p =>
    ({ permit := p.1, arrived := s.now, loanCase := none, raised := false,
       notBefore := if inj && p.2 = 0 then hold else 0 } : Ask)
  let s := s.setGov d { g with asks := g.asks.drop n, queue := g.queue ++ new.foldl (fun l a => insertAsk a l) [] }
  s.serveDie d

/-- PERMIT_REQUEST. -/
def execPermitRequest (d n : Nat) (s : State) : Host.Outcome State Fault Refusal := .next (s.doPermitRequest d n)

/-- The governor of die d judges the loan that the other die asks for (R29). -/
def State.doLoanRequest (s : State) (d : Nat) : State :=
  let b := 1 - d
  let g := s.gov b
  match g.loanAsk, g.loanAnswer with
  | some x, none =>
    if !s.halted && !s.top.stopped.get d && decide ((x : Int) ≤ s.headroom d) then
      let s := { s with alloc := s.alloc.move d x }
      (s.bump (0x2001 + d) 8 1).setGov b { g with loanAnswer := some true }
    else s.setGov b { g with loanAnswer := some false }
  | _, _ => s

/-- LOAN_REQUEST. -/
def execLoanRequest (d : Nat) (s : State) : Host.Outcome State Fault Refusal := .next (s.doLoanRequest d)

/-- The answer to a loan reaches die d: the head is granted, or waits (R29). -/
def State.doLoanReply (s : State) (d : Nat) : State :=
  let g := s.gov d
  match g.loanAnswer with
  | none => s
  | some ok =>
    let s := s.setGov d { g with loanAsk := none, loanAnswer := none }
    if ok then s.serveDie d else s

/-- LOAN_REPLY. -/
def execLoanReply (d : Nat) (s : State) : Host.Outcome State Fault Refusal := .next (s.doLoanReply d)

/-- LOAN_RETRY: a waiting head is looked at again, and its loan is asked for again (R29). -/
def execLoanRetry (d : Nat) (s : State) : Host.Outcome State Fault Refusal := .next (s.serveDie d)

/-- The first n returned permits reach the governor of die d: each is subtracted from held(d); the waiting requests of
both dies are looked at again (R29, R34). -/
def State.doPermitReturn (s : State) (d n : Nat) : State :=
  let g := s.gov d
  let s := s.setHeld d ((g.returns.take n).foldl (fun l p => l.erase p) g.held)
  let s := s.setGov d { s.gov d with returns := g.returns.drop n }
  (s.serveDie d).serveDie (1 - d)

/-- PERMIT_RETURN. -/
def execPermitReturn (d n : Nat) (s : State) : Host.Outcome State Fault Refusal := .next (s.doPermitReturn d n)

/-- The permit timeout of a request: the detector is raised once and the request stays queued (R33). -/
def State.raiseTimeouts (s : State) (d : Nat) : List Ask → State × List Ask
  | [] => (s, [])
  | a :: l =>
    let late := !a.raised && decide (usCycles (s.reg 0x2000 4) < s.now - a.arrived)
    let s' := if late then
        s.raise { det := 0x900A, sev := 0, cause := a.permit.cls.sub - 1, detail := d, aux := (s.now - a.arrived) / 400,
                  injected := a.notBefore ≠ 0 }
      else s
    let r := State.raiseTimeouts s' d l
    (r.1, { a with raised := a.raised || late } :: r.2)

def State.doPermitTimeout (s : State) (d : Nat) : State :=
  let r := s.raiseTimeouts d (s.gov d).queue
  r.1.setGov d { r.1.gov d with queue := r.2 }

/-- PERMIT_TIMEOUT. -/
def execPermitTimeout (d : Nat) (s : State) : Host.Outcome State Fault Refusal := .next (s.doPermitTimeout d)

/-- The floor of die d at a window end (R28): the mean die-rail power less the mean of held(d), never less than 0. -/
def State.windowFloor (s : State) (d rail : Nat) : State :=
  let g := s.gov d
  let span := s.now - g.windowStart
  let total := g.heldSum + s.held d * (s.now - g.heldSince)
  let mean := if span = 0 then s.held d else total / span
  s.setGov d { g with floor := rail - mean, heldSum := 0, heldSince := s.now, windowStart := s.now }

/-- The rebalance toward equal headroom (R30): never more than the giver's headroom, nothing to a die that withholds. -/
def State.rebalance (s : State) : State :=
  let h0 := s.headroom 0
  let h1 := s.headroom 1
  let giver := if h1 < h0 then 0 else 1
  let x := min (((if giver = 0 then h0 - h1 else h1 - h0)) / 2) (max (if giver = 0 then h0 else h1) 0)
  if 0 < x && s.alloc.withheld (1 - giver) = 0 && !s.top.stopped.get 0 && !s.top.stopped.get 1 then
    { s with alloc := s.alloc.move giver x }
  else s

/-- The hot or cool state of die d at a window end, with what it withholds or returns (R40, R41). R40 does not say which
readings between two window ends count: hot and cool are judged from the single reading of each sensor at the window end,
and the withheld amount is released at the same window end that finds the die cool (DESIGN CHOICE, log entry 63). -/
def State.judgeHeat (s : State) (d junction sensor : Nat) (cases : List Nat) : State :=
  let g := s.gov d
  let soft := 1000 * s.reg 0x2000 7
  let opt := cases.any (fun c => 82000 < c) || (g.optHot && cases.any fun c => 79000 < c)
  let real := decide (soft < junction) || opt
  let inj := !real && s.armed 0x900C d 0
  let still := g.hot && !g.injHot && (decide (soft - 3000 < junction) || opt)
  let s := if inj then s.consume 0x900C else s
  if s.top.stopped.get d then s
  else if real || inj || still then
    let room := s.alloc.allot d - max (s.held d : Int) 150000000
    let x := min (s.alloc.budget / 20) room
    let s := if 0 < x then { s with alloc := s.alloc.withhold d x } else s
    let s := s.setGov d { s.gov d with hot := true, optHot := opt, injHot := inj && !still }
    if !g.hot || inj then
      let byJunction := decide (soft < junction) || !opt
      s.raise { det := 0x900C, sev := 0, cause := if byJunction then 0 else 1, detail := sensor,
                aux := if byJunction then junction else cases.foldl max 0, injected := inj }
    else s
  else if g.hot then
    { s.setGov d { s.gov d with hot := false, optHot := opt, injHot := false } with alloc := s.alloc.release d }
  else s.setGov d { s.gov d with optHot := opt }

/-- The sensors' entries at a window end (R39, R43). -/
def State.storeSensors (s : State) (o : WindowEnd) : State :=
  let s := if s.pow.sampleCount = 0 then s else s.setReg 0x2010 3 (s.pow.sampleSum / s.pow.sampleCount)
  let s := { s with pow := { s.pow with sampleSum := 0, sampleCount := 0 } }
  let s := (s.setReg 0x2010 1 o.volt).setReg 0x2010 2 o.amp
  let s := (s.setReg 0x2010 4 o.inlet).setReg 0x2010 5 o.outlet
  let s := (s.setReg 0x2010 6 o.junction0).setReg 0x2010 7 o.junction1
  s.setReg 0x2010 8 (o.cases.foldl max 0)

/-- An armed injection of the over-budget detector stops granting for 100 µs from a window end (Table 7 of 14). -/
def State.injectOver (s : State) : State :=
  if s.armed 0x900B 0 0 && !s.pow.haltedBudget then
    let s := s.consume 0x900B
    let s := { s with pow := { s.pow with haltedUntil := s.now + usCycles 100 } }
    s.raise { det := 0x900B, sev := 0, aux := s.reg 0x2010 3 / 1000, injected := true }
  else s

/-- The end of a 100 µs window: floors, rebalance, heat (R28, R30, R39 to R41). -/
def State.doWindowEnd (s : State) (o : WindowEnd) : State :=
  if s.reg 0x2100 1 = 0 then s
  else
    let s := s.storeSensors o
    let s := (s.windowFloor 0 o.rail0).windowFloor 1 o.rail1
    let s := s.rebalance
    let s := s.judgeHeat 0 o.junction0 o.sensor0 (o.cases.take 12)
    let s := s.judgeHeat 1 o.junction1 o.sensor1 (o.cases.drop 12)
    s.injectOver.serveBoth

/-- GOVERNOR_WINDOW_END. -/
def execGovernorWindowEnd (o : WindowEnd) (s : State) : Host.Outcome State Fault Refusal := .next (s.doWindowEnd o)

/-- Access refused by Table 11 of 13: counted, nothing changes (R440). -/
def State.deny (s : State) : State := s.bump 0x1100 2 1

/-- The PF or the management endpoint. -/
def isOwner (acc : Nat) : Bool := acc = 0 || acc = 17

/-- A new package budget in watts (R38). -/
def State.setBudget (s : State) (v : Nat) : State :=
  State.serveBoth { s with alloc := s.alloc.rebudget (1000000 * (v % 65536) : Nat) }

/-- One sample of the input power in mW (R39): the runs above, and at or below, the budget in force. -/
def State.doPowerSample (s : State) (mw : Nat) : State :=
  let excess := decide (s.alloc.inForce < (1000 * mw : Nat))
  { s with pow := { s.pow with
      sampleSum := s.pow.sampleSum + mw, sampleCount := s.pow.sampleCount + 1,
      runAbove := if excess then s.pow.runAbove + 1 else 0, runBelow := if excess then 0 else s.pow.runBelow + 1 } }

/-- POWER_SAMPLE. -/
def execPowerSample (mw : Nat) (s : State) : Host.Outcome State Fault Refusal := .next (s.doPowerSample mw)

/-- OVER_BUDGET: more than 1 ms of samples above the budget stops granting and lending (R39). -/
def execOverBudget (s : State) : Host.Outcome State Fault Refusal :=
  .next (if 1000 < s.pow.runAbove && !s.pow.haltedBudget then
      State.raise { s with pow := { s.pow with haltedBudget := true } }
        { det := 0x900B, sev := 0, aux := s.reg 0x2010 3 / 1000 }
    else s)

/-- OVER_BUDGET_CLEAR: 100 µs of samples at or below the budget resume granting (R39). -/
def execOverBudgetClear (s : State) : Host.Outcome State Fault Refusal :=
  .next (if 100 ≤ s.pow.runBelow && s.pow.haltedBudget then
      State.serveBoth { s with pow := { s.pow with haltedBudget := false } }
    else s)

/-! ### Gating and retention (R25, R26) -/

/-- Gate an engine (0 MXE, 1 GTU, 2 VXE) of a physical core that has been idle for 64 cc. -/
def execEngineGate (p e : Nat) (s : State) : Host.Outcome State Fault Refusal :=
  .next (if s.reg 0x2100 4 = 1 && e < 3 && 64 ≤ s.cc - SMap.get 0 (s.core p).lastUse e then
      s.modCore p fun c => { c with gated := maskSet c.gated e }
    else s)

/-- A bank with no access for 4,096 cc enters retention. -/
def execBankRetention (p b : Nat) (s : State) : Host.Outcome State Fault Refusal :=
  .next (if s.reg 0x2100 4 = 1 && b < 4 && 4096 ≤ s.cc - SMap.get 0 (s.core p).lastUse (4 + b) then
      s.modCore p fun c => { c with retained := maskSet c.retained b }
    else s)

/-- A reservoir slice with no access for 16,384 noc cycles enters retention. -/
def execSliceRetention (d sl : Nat) (s : State) : Host.Outcome State Fault Refusal :=
  .next (if sl < 4 && d < 2 && 16384 ≤ 3 * (s.now - SMap.get 0 s.pow.sliceUse (4 * d + sl)) then
      { s with pow := { s.pow with sliceRet := maskSet s.pow.sliceRet (4 * d + sl) } }
    else s)

/-- An access wakes a bank and dates its use. -/
def State.useBank (s : State) (p b : Nat) : State :=
  s.modCore p fun c => { c with retained := maskClear c.retained b, lastUse := SMap.set 0 c.lastUse (4 + b) s.cc }

/-- Work ungates an engine and dates its use. -/
def State.useEngine (s : State) (p e : Nat) : State :=
  s.modCore p fun c => { c with gated := maskClear c.gated e, lastUse := SMap.set 0 c.lastUse e s.cc }

end Sys2Proof.Machine
end

