-- ==== Sys2Proof/Machine/Cistern.lean ====
section
/-! DEFINITION. Cistern rows, ownership tags, the handle table, upsets, and the elements of handles (05, 04 R133, R491). -/

namespace Sys2Proof.Machine

/-- Rows of a cistern (R150). -/
def cisternRows : Nat := 8192

/-- The row's tag names partition part (R158, R159). -/
def Core.owns (c : Core) (part r : Nat) : Bool := SMap.get 0 c.tags r = part + 1

/-- What a read of row r for partition part returns: zeros where the tag does not name it (R159). -/
def Core.view (c : Core) (part r : Nat) : Row := if c.owns part r then SMap.get 0 c.rows r else 0

/-- Write a row for partition part: dropped where the tag does not name it (R159); a write supersedes a pending
write-back (R154). -/
def Core.write (c : Core) (part r : Nat) (v : Row) : Core :=
  if c.owns part r then { c with rows := SMap.set 0 c.rows r v, writeBack := c.writeBack.filter (· ≠ r) } else c

/-- Zero-fill a row and clear its owned bit (R188). -/
def Core.clear (c : Core) (r : Nat) : Core :=
  { c with rows := SMap.set 0 c.rows r 0, tags := SMap.set 0 c.tags r 0, writeBack := c.writeBack.filter (· ≠ r) }

def Core.clearRows (c : Core) (l : List Nat) : Core := l.foldl Core.clear c

/-- n rows from a base, modulo 8,192 (R160). -/
def rowRun (base n : Nat) : List Nat := (List.range n).map fun i => (base + i) % cisternRows

/-- A transfer or a zero-fill wakes the banks of the rows that it accesses (R25). -/
def State.useRows (s : State) (p : Nat) (rows : List Nat) : State :=
  (List.range 4).foldl (fun s b => if rows.any fun r => r % 4 = b then s.useBank p b else s) s

/-- Zero-fill rows of a core (R188). -/
def State.zeroRowsOf (s : State) (p : Nat) (rows : List Nat) : State := (s.modCore p fun c => c.clearRows rows).useRows p rows

/-! ### Retry spans and token keys (R110, R183) -/

/-- Tag of the open retry span: its number in the job, and whether it is the retry. -/
def Csq.tag (q : Csq) : Nat := q.spanNo + 2 ^ 31 * boolNat q.retried

/-- Key of a token named by work of a retry span; the span and the token of a key. -/
def tokenKey (span t : Nat) : Nat := 32 * span + t % 32
def tokenSpan (k : Nat) : Nat := k / 32
def tokenNo (k : Nat) : Nat := k % 32

/-! ### Handle table (R162) -/

def Core.handle (c : Core) (h : Nat) : Rec := SMap.get 0 c.handles h

def hBase (e : Rec) : Nat := fld e 12 0
def hRows (e : Rec) : Nat := fld e 41 28
def hValid (e : Rec) : Bool := bitAt e 42
def hResident (e : Rec) : Bool := bitAt e 43
def hRetain (e : Rec) : Bool := bitAt e 44
def hRo (e : Rec) : Bool := bitAt e 45
def hOwner (e : Rec) : Nat := fld e 49 46
def hWidth (e : Rec) : Nat := fld e 51 50
def hFlags (e : Rec) : Nat := fld e 71 60
def hElements (e : Rec) : Nat := fld e 103 72
def hCount (e : Rec) : Nat := fld e 151 104

/-- Replace field [hi:lo] of a word. -/
def setFld {n : Nat} (w : BitVec n) (hi lo v : Nat) : BitVec n :=
  BitVec.ofNat n (w.toNat - fld w hi lo <<< lo + put hi lo v)

/-- Change a handle entry's dynamic fields, with the entry as the span found it kept for an abort (R181). -/
def Core.touch (c : Core) (h : Nat) (f : Rec → Rec) : Core :=
  let e := c.handle h
  let undo := if c.csq.undo.any (fun p => p.1 = h) then c.csq.undo else c.csq.undo ++ [(h, e)]
  { c with handles := SMap.set 0 c.handles h (f e), csq := { c.csq with undo := undo } }

/-- OR a flag word into a handle's flag word (R140). -/
def Core.orFlags (c : Core) (h fl : Nat) : Core :=
  if h = 0xFF then c else c.touch h fun e => setFld e 71 60 (hFlags e ||| (fl % 4096))

/-- Work of the running context writes the flag words of handles: the layer that it belongs to produced them (R140). -/
def State.flagsBy (s : State) (p : Nat) (hs : List Nat) : State :=
  let q := (s.core p).csq
  match q.layer with
  | some l => s.modCtx q.ctx fun x => { x with
      flagged := (hs.filter (· ≠ 0xFF)).foldl (fun m h => SMap.set 0 m ((h + 256 - x.handleBase) % 256) (l + 1)) x.flagged }
  | none => s

/-! ### Reads of rows (R152 to R155) -/

/-- A cistern correctable error in a row of a context and its partition, where there are any: counted, and the row is queued for
write-back, also where it is injected (R154, R470; Table 6 of 14). -/
def State.correctRow (s : State) (p r : Nat) (owner : Option (Nat × Nat)) (inj : Bool) : State :=
  let s := s.raise { det := 0x9001, sev := 1, detail := r, aux := r % 4, core := s.logicalOf p, phys := some (physCode p),
                     ctx := (owner.map (·.1)).getD 0xFFF, part := owner.map (·.2), injected := inj }
  s.modCore p fun c => { c with writeBack := (c.writeBack.filter (· ≠ r)) ++ [r] }

/-- An uncorrectable read by a unit (0 MXE, GTU or VXE, 1 CSQ, 2 DMV, 3 GXE, 4 patrol). -/
def State.loseRow (s : State) (p r unit : Nat) (owner : Option (Nat × Nat)) (inj : Bool) : State :=
  s.raise { det := 0x9002, sev := 2, cause := unit, detail := r, core := s.logicalOf p, phys := some (physCode p),
            ctx := (owner.map (·.1)).getD 0xFFF, part := owner.map (·.2), injected := inj }

/-- The context that a read of a row for a partition concerns, and the partition: the running one for the engines and the sequencer,
else the one of the partition whose window holds the row (Table 6 of 14). -/
def State.rowOwner (s : State) (p part unit r : Nat) : Option (Nat × Nat) :=
  if unit ≤ 1 then some ((s.core p).csq.ctx, part)
  else some (((s.ctxs.find? fun q => q.2.st ≠ .free && s.physOf q.2.core = p && q.2.part = part
    && (r + cisternRows - q.2.rowBase) % cisternRows < fld q.2.header 143 128).map fun q => q.1).getD 0xFFF, part)

/-- The reads of rows that a unit makes for a partition in one step: effects of corrected and uncorrectable words on
rows whose tag names the partition (R154, R155, R159), and the first uncorrectable row. An armed injection of 0x9001 or
0x9002 acts on the first such row (Table 7 of 14). -/
def State.readRows (s : State) (p part unit : Nat) (rows : List Nat) (up : Upsets) : State × Option Nat :=
  let own := (rows.filter fun r => (s.core p).owns part r).eraseDups
  let s := rows.eraseDups.foldl (fun s r => s.useBank p (r % 4)) s
  let l := s.logicalOf p
  let fixed := own.filter fun r => up.corrected.contains r
  let who (r : Nat) : Option (Nat × Nat) := s.rowOwner p part unit r
  let s := fixed.foldl (fun s r => s.correctRow p r (who r) false) s
  let s := match own with
    | r :: _ => if fixed.isEmpty && s.armed 0x9001 l 0 then (s.consume 0x9001).correctRow p r (who r) true else s
    | [] => s
  match own.find? fun r => up.lost.contains r with
  | some r => (s.loseRow p r unit (who r) false, some r)
  | none =>
    match own with
    | r :: _ =>
      if s.armed 0x9002 l unit then ((s.consume 0x9002).loseRow p r unit (who r) true, some r) else (s, none)
    | [] => (s, none)

/-- The reads of rows one by one: every uncorrectable row (R155). -/
def State.readEach : State → Nat → Nat → Nat → List Nat → Upsets → State × List Nat
  | s, _, _, _, [], _ => (s, [])
  | s, p, part, unit, r :: l, up =>
    let a := s.readRows p part unit [r] up
    let b := State.readEach a.1 p part unit l up
    (b.1, a.2.toList ++ b.2)

/-- Some row's tag does not name the partition (R159). -/
def Core.foreign (c : Core) (part : Nat) (rows : List Nat) : Bool := rows.any fun r => !c.owns part r

/-! ### Relocation (R160) -/

def Ctx.row (x : Ctx) (r : Nat) : Nat := (x.rowBase + r) % cisternRows
def Ctx.hnd (x : Ctx) (h : Nat) : Nat := if h = 0xFF then 0xFF else (x.handleBase + h) % 256

/-! ### Elements of handles (R133, R491) -/

/-- Byte i of a row. -/
def rowByte (r : Row) (i : Nat) : Nat := (r.toNat >>> (8 * i)) % 256

/-- Bits of a row: n bits from bit i on. -/
def rowBits (r : Row) (i n : Nat) : Nat := (r.toNat >>> i) % 2 ^ n

/-- Replace n bits of a row from bit i on. -/
def setRowBits (r : Row) (i n v : Nat) : Row :=
  BitVec.ofNat 4096 (r.toNat - rowBits r i n <<< i + (v % 2 ^ n) <<< i)

/-- The narrow code of a format code (Table 2 of 04). -/
def fmtCode : Nat → Option Code
  | 0 => some .n4
  | 1 => some .n4u
  | 2 => some .n4f
  | 3 => some .n3
  | 4 => some .t2
  | 5 => some .n8
  | 6 => some .n8u
  | _ => none

/-- Group size of a group size code (Table 3 of 04). -/
def groupSize (g : Nat) : Nat := 32 <<< (g % 4)

/-- Row of handle entry e that holds byte offset off. -/
def hRow (e : Rec) (off : Nat) : Nat := (hBase e + off / 512) % cisternRows

/-- Byte off of a handle. -/
def Core.hByte (c : Core) (part : Nat) (e : Rec) (off : Nat) : Nat := rowByte (c.view part (hRow e off)) (off % 512)

/-- Row and bit of the code at position pos of a grouped tensor (R50, R51). -/
def codePlace (cd : Code) (g pos : Nat) : Nat × Nat :=
  let k := pos / g
  (k / cd.groupsPerRow g, 8 * cd.groupBytes g * (k % cd.groupsPerRow g) + cd.width * (pos % g))

/-- FP32 of an exact value that FP32 holds. -/
def exact32 : FV → W32
  | .nan => qnan 0 0 0
  | .inf s => BitVec.ofNat 32 (boolNat s <<< 31 + 0x7F800000)
  | .fin s m e => BitVec.ofNat 32 (fmtF32.round .even s m e).1

/-- The rows that a load of position pos of handle h reads, and its FP32 value with flags and T2 reserved count. -/
def Core.loadElem (c : Core) (part h fmt g pos : Nat) : List Nat × W32 × Nat × Nat :=
  let e := c.handle h
  match fmtCode fmt with
  | some cd =>
    let (r, b) := codePlace cd g pos
    let row := (hBase e + r) % cisternRows
    let k := pos / g
    let e1 := c.handle ((h + 1) % 256)
    let e2 := c.handle ((h + 2) % 256)
    let zp := if cd.ranged then c.hByte part e2 k else 0
    let (v, fl, t2) := expandElem cd (c.hByte part e1 k) zp (rowBits (c.view part row) b cd.width)
    ([row, hRow e1 k] ++ (if cd.ranged then [hRow e2 k] else []), exact32 v, fl, t2)
  | none =>
    if fmt = 7 then
      let row := hRow e (2 * pos)
      ([row], ofBF16 (rowBits (c.view part row) (8 * (2 * pos % 512)) 16), 0, 0)
    else
      let row := hRow e (4 * pos)
      ([row], BitVec.ofNat 32 (rowBits (c.view part row) (8 * (4 * pos % 512)) 32), 0, 0)

/-- Change n bits at a row and bit of a handle. -/
def Core.setBits (c : Core) (part row bit n v : Nat) : Core := c.write part row (setRowBits (c.view part row) bit n v)

/-- Store an FP32 word at position pos of a handle. -/
def Core.store32 (c : Core) (part h pos : Nat) (v : W32) : Core :=
  c.setBits part (hRow (c.handle h) (4 * pos)) (8 * (4 * pos % 512)) 32 v.toNat

def Core.store16 (c : Core) (part h pos v : Nat) : Core :=
  c.setBits part (hRow (c.handle h) (2 * pos)) (8 * (2 * pos % 512)) 16 v

/-- Store one byte of a handle. -/
def Core.storeByte (c : Core) (part h off v : Nat) : Core :=
  c.setBits part (hRow (c.handle h) off) (8 * (off % 512)) 8 v

/-- Store the patterns of a whole group k with its shift and zero point (R491). -/
def Core.storeGroup (c : Core) (part h : Nat) (cd : Code) (g k : Nat) (o : GroupOut) : Core :=
  let e := c.handle h
  let c := o.patterns.zipIdx.foldl (fun c p =>
    let (r, b) := codePlace cd g (k * g + p.2)
    c.setBits part ((hBase e + r) % cisternRows) b cd.width p.1) c
  let c := c.storeByte part ((h + 1) % 256) k o.shift
  if cd.ranged then c.storeByte part ((h + 2) % 256) k o.zero else c

/-- The FP32 word at position pos of an FP32 handle. -/
def Core.word (c : Core) (part h pos : Nat) : W32 :=
  let off := 4 * pos
  BitVec.ofNat 32 (rowBits (c.view part (hRow (c.handle h) off)) (8 * (off % 512)) 32)

/-! ### Banks (R101 to R103, R109) -/

/-- Store the bank of a unit: 0 the VXE, 1 the GTU, 2 the GXE converter. -/
def Core.setBank (c : Core) (u : Nat) (b : Bank) : Core :=
  if u = 0 then { c with vxeBank := b } else if u = 1 then { c with gtuBank := b } else { c with gxeBank := b }

/-- The self-test has run the generator test on a core with n lanes: every bank holds what the test leaves (R108, R92). -/
def Core.testBanks (c : Core) (n : Nat) : Core :=
  { c with vxeBank := Bank.tested n, gtuBank := Bank.tested 64, gxeBank := Bank.tested 16 }

/-- A tile's draws of width w, of the elements from first to last: the unit's n generators jump and run, and the draws, the
jump and the block reloads are counted (R101 to R103, R109). -/
def State.runBank (s : State) (p u n : Nat) (seed tid : W64) (first last w part draws reloads : Nat) : State :=
  let s := s.modCore p fun c => c.setBank u (Bank.after n seed tid first last w)
  let s := (s.bump 0x4800 1 draws).bump (0x4810 + part) 2 draws
  (s.bump 0x4800 2 1).bump 0x4800 3 (jumpCost n (first % 4096 * w / 64) + 8 * reloads)

/-! ### Scrub (R154, R156, R157) -/

/-- SCRUB_WRITE_BACK: the oldest queued row is written back; its contents are those that stage 4 gives. -/
def execScrubWriteBack (p : Nat) (s : State) : Host.Outcome State Fault Refusal :=
  .next (match (s.core p).writeBack with
    | [] => s
    | r :: l => (s.modCore p fun c => { c with writeBack := l }).useBank p (r % 4))

end Sys2Proof.Machine
end

