-- ==== Sys2Proof/Machine/Lanes.lean ====
section
/-! DEFINITION. The coding of a physical lane of Quiwen Link: stripes, blocks, framing words and RS(544,514) codewords (11: R359 to
R361). -/

namespace Sys2Proof.Machine

/-- Connector, row and column of the fibre of a physical lane of an engine, to transmit or to receive (R356, Table 1 of 11). -/
def laneFibre (e lane : Nat) (tx : Bool) : Nat × Nat × Nat :=
  let f := 18 * (e % 4) + 2 * lane + boolNat (!tx)
  (e / 4, f / 12, f % 12)

/-- The framing word of a codeword: bit i is the framing bit of block i (R359). An idle spare names lane 0xF. -/
def framingWord (lane counter : Nat) : Nat := 0xA7 + lane % 16 * 2 ^ 8 + counter % 256 * 2 ^ 12

/-- The bytes of a flit that a logical lane carries (R359). -/
def flitStripe (flit : List Byte) (lane : Nat) : List Byte := (flit.drop (32 * lane)).take 32

/-- Block i of a codeword: its framing bit, then 256 bits of a flit (R359). -/
def laneBlock (framing i : Nat) (stripe : List Byte) : Nat := boolNat (framing.testBit i) + 2 * (leNat stripe % 2 ^ 256)

/-- The 5,140 message bits of a lane's codeword: the blocks of 20 flits, the first one lowest (R359; the order of the bits is
DEDUCED, log entry 69). -/
def laneMessage (lane counter : Nat) (flits : List (List Byte)) : Nat :=
  ((List.range 20).map fun i =>
    laneBlock (framingWord lane counter) i (flitStripe (flits.getD i []) lane) * 2 ^ (257 * i)).sum

/-- The framing word and the 20 stripes that a codeword's message holds. -/
def messageFraming (m : Nat) : Nat := ((List.range 20).map fun i => m / 2 ^ (257 * i) % 2 * 2 ^ i).sum
def messageStripe (m i : Nat) : List Byte := leBytes 32 (m / 2 ^ (257 * i + 1) % 2 ^ 256)

/-- The 514 symbols of a message (R359). -/
def messageSymbols (m : Nat) : List Nat := (List.range 514).map fun i => m / 2 ^ (10 * i) % 1024

/-- A product of two symbols: the field of the code of IEEE 802.3, x^10 + x^3 + 1 (PRESUMED, log entry 69). -/
def symMul (a b : Nat) : Nat :=
  let p := (List.range 10).foldl (fun r i => if b.testBit i then r ^^^ (a % 1024 * 2 ^ i) else r) 0
  (List.range 9).foldl (fun r i => if r.testBit (18 - i) then r ^^^ (0x409 * 2 ^ (8 - i)) else r) p

/-- The generator polynomial, lowest coefficient first and without its leading one: the product of x + α^j, j from 0 to 29
(PRESUMED, log entry 69). -/
def rsGenerator : List Nat :=
  ((List.range 30).foldl (fun (g : List Nat × Nat) _ =>
    ((0 :: g.1).zipWith (· ^^^ ·) ((g.1 ++ [0]).map fun c => symMul c g.2), symMul g.2 2)) ([1], 1)).1.take 30

/-- The 30 parity symbols of a message, highest power first: the remainder of the message, shifted by 30 places. -/
def rsParity (symbols : List Nat) : List Nat :=
  (symbols.foldl (fun (r : List Nat) x =>
    let f := x ^^^ r.getLastD 0
    (0 :: r.dropLast).zipWith (· ^^^ ·) (rsGenerator.map fun g => symMul g f)) (List.replicate 30 0)).reverse

/-- The codeword that a physical lane carries for a logical lane, over one period of 25.6 ns: 544 symbols of 10 bits (R359). -/
def laneCodeword (lane counter : Nat) (flits : List (List Byte)) : List Nat :=
  let m := messageSymbols (laneMessage lane counter flits)
  m ++ rsParity m

/-- The link header of a flit: 96 bits (Table 5 of 11). kind is 0 for data and 1 for control. -/
def headerWord (h : LinkHeader) (seq kind vc firstSlot : Nat) : Nat :=
  put 95 84 seq + put 83 72 h.ackSeq + put 71 71 (boolNat h.ackValid) + put 70 70 (boolNat h.nak) + put 69 68 kind + put 67 64 vc
    + put 63 60 h.creditVc + put 59 48 h.credits + put 47 44 firstSlot + put 43 40 (h.spareReq.getD 15) + put 39 39 (boolNat h.spareAck)

/-- CRC-32 of bytes: the IEEE 802.3 polynomial, least significant bit first, with ones at the start and a complement at the end (Table 4
of 11; the order of the bits is PRESUMED as IEEE 802.3 has it, log entry 69). -/
def crc32 (bytes : List Byte) : Nat :=
  bytes.foldl (fun c b => (List.range 8).foldl (fun c _ => if c.testBit 0 then c / 2 ^^^ 0xEDB88320 else c / 2) (c ^^^ b.toNat))
    0xFFFFFFFF ^^^ 0xFFFFFFFF

/-- The 256 bytes of a flit: link header, 15 slots of content, CRC-32 (Table 4 of 11). -/
def flitBytes (header : Nat) (content : List Byte) : List Byte :=
  let body := leBytes 12 header ++ (content ++ List.replicate 240 0).take 240
  body ++ leBytes 4 (crc32 body)

/-- Symbols that a lane carries in 1 ms: 544 in each 25.6 ns. -/
def symbolsPerMs : Nat := 21250000

/-- A ratio lies above a limit. -/
def ratioAbove (n d : Nat) (limit : FV) : Bool :=
  match limit with
  | .nan => false
  | .inf neg => neg
  | .fin neg m e =>
    if neg && m ≠ 0 then true
    else if 0 ≤ e then d * m * 2 ^ e.toNat < n
    else d * m < n * 2 ^ (-e).toNat

end Sys2Proof.Machine
end

