-- ==== Sys2Proof/Machine/Memory.lean ====
section
/-! DEFINITION. The device address space, the two memory tiers, their errors, repair, map-out and reflow (10). -/

namespace Sys2Proof.Machine

/-! ### The address map (R324 to R328) -/

/-- Index of a range's entries: ranges 0 to 3 are the stacks, 4 to 7 the groups. -/
def rangeIdx (u : Nat) : Nat := if u < 4 then 0x3010 + u else 0x3018 + (u - 4)

def rangeBase (u : Nat) : Nat := if u < 4 then u * 2 ^ 36 else 2 ^ 40 + (u - 4) * 2 ^ 39

/-- Channels of a whole range and bytes of a channel (R321, R325). -/
def rangeChans (u : Nat) : Nat := if u < 4 then 32 else 24
def chanBytes (u : Nat) : Nat := if u < 4 then 0x48000000 else 2 ^ 34

/-- Die of a range (Table 1 of 01). -/
def rangeDie (u : Nat) : Nat := u % 4 / 2

def State.rangeSize (s : State) (u : Nat) : Nat := s.reg (rangeIdx u) 1
def State.active (s : State) (u : Nat) : Nat := s.reg (rangeIdx u) 2

/-- Where an address lies. -/
inductive Place where
  | range (u off : Nat)
  | remote (k a : Nat)
  | host (h : Nat)
  | none
  deriving DecidableEq, Repr

/-- The local part of the map: the two tiers' ranges as far as they are mapped. -/
def State.localPlace (s : State) (a : Nat) : Place :=
  if a < 2 ^ 38 then
    (if a % 2 ^ 36 < s.rangeSize (a / 2 ^ 36) then .range (a / 2 ^ 36) (a % 2 ^ 36) else .none)
  else if 2 ^ 40 ≤ a && a < 2 ^ 40 + 2 ^ 41 then
    let u := 2 + a / 2 ^ 39
    if a % 2 ^ 39 < s.rangeSize u then .range u (a % 2 ^ 39) else .none
  else .none

/-- This module's number (R371). -/
def State.me (s : State) : Nat := s.reg 0x8000 1

/-- Where a device address lies (R324, R326, R327). -/
def State.place (s : State) (a : Nat) : Place :=
  if 2 ^ 48 ≤ a && a < 2 ^ 49 then
    let k := a / 2 ^ 42 - 64
    let l := a % 2 ^ 42
    if k = s.me then s.localPlace l else .remote k l
  else if 2 ^ 51 ≤ a && a < 2 ^ 52 then .host (a % 2 ^ 51)
  else s.localPlace a

/-- The n bytes from an address on lie in one mapped range, in host memory, or in one remote module. -/
def State.mapped (s : State) (a n : Nat) : Bool :=
  match s.place a, s.place (a + n - 1) with
  | .range u _, .range v _ => u = v
  | .remote k _, .remote l _ => k = l
  | .host _, .host _ => true
  | _, _ => false

/-- The access is allowed: mapped, and inside the windows of the partition that makes it, if one does (R328). -/
def State.allows (s : State) (part : Option Nat) (a n : Nat) (write : Bool) : Bool :=
  s.mapped a n && (match part with
    | some p => s.inWindows p a n write
    | none => true)

/-- An unmapped access is counted (R328). -/
def State.unmapped (s : State) : State := s.bump 0x3001 5 1

/-! ### Interleave (R329) -/

/-- Number and channel of an active channel. -/
def activeList (mask : Nat) : List Nat := maskList 32 mask

/-- Channel and channel offset of an offset of a range under a layout (R329). -/
def locateIn (active : Nat) (remap : SMap Nat) (off : Nat) : Nat × Nat :=
  let p := off / pageSize
  let q := SMap.get p remap p
  let b := q * pageSize + off % pageSize
  let l := activeList active
  let n := l.length
  if n = 0 then (0, 0) else (l.getD (b / 256 % n) 0, b / 256 / n * 256 + b % 256)

def State.range (s : State) (u : Nat) : Range := SMap.get Range.init s.tiers.ranges u

def State.modRange (s : State) (u : Nat) (f : Range → Range) : State :=
  { s with tiers := { s.tiers with ranges := SMap.mod Range.init s.tiers.ranges u f } }

/-- The layout that serves an offset of a range, active channels and remap table: while a reflow runs, the new one where the new
location is at an index above the boundary (R350). -/
def State.layout (s : State) (u off : Nat) : Nat × SMap Nat :=
  let r := s.range u
  match r.plan, r.reflow with
  | some p, some f => if f.next ≤ (locateIn p.active p.remap off).2 / 256 then (p.active, p.remap) else (s.active u, r.remap)
  | _, _ => (s.active u, r.remap)

/-- Channel and channel offset of an offset of a range, also while a reflow runs (R350). -/
def State.locate (s : State) (u off : Nat) : Nat × Nat := locateIn (s.layout u off).1 (s.layout u off).2 off

/-- Where an offset of a range is served: in the parking area while a reflow runs, the page is parked there, and its new location has
not yet been written; at its own place otherwise (R349, R350). -/
def State.servedAt (s : State) (u off : Nat) : Nat × Nat :=
  let r := s.range u
  match r.plan, r.reflow with
  | some p, some f =>
    let k := f.parked.idxOf (off / pageSize)
    if f.parked.length ≤ k || f.next ≤ (locateIn p.active p.remap off).2 / 256 then (u, off)
    else match s.localPlace (f.area + k * pageSize + off % pageSize) with
      | .range v o => (v, o)
      | _ => (u, off)
  | _, _ => (u, off)

/-- The n bytes of a range from an offset on. -/
def State.rangeBytes (s : State) (u off n : Nat) : List Byte :=
  if (s.range u).reflow.isNone then s.bytesAt (rangeBase u + off) n
  else (List.range n).map fun i => s.byteAt (rangeBase (s.servedAt u (off + i)).1 + (s.servedAt u (off + i)).2)

/-- The n bytes that lie at a device address, of a range of this module or of the host's memory; an access by this module's own
number is local (R326). -/
def State.peek (s : State) (a n : Nat) : List Byte :=
  match s.place a with
  | .range u off => s.rangeBytes u off n
  | _ => s.bytesAt a n

/-- The page whose data a page's physical locations hold under a remap table, of an address space of a size: the source of the entry
that targets it, else itself where it is neither redirected nor at or above the size (R330). -/
def pageHeld (remap : SMap Nat) (size q : Nat) : Option Nat :=
  match remap.find? fun e => e.2 = q with
  | some e => some e.1
  | none => if size ≤ q * pageSize || remap.any (fun e => e.1 = q) then none else some q

/-- The physical page that holds a channel offset under a layout (R329). -/
def pageAt (active c o : Nat) : Nat :=
  (o / 256 * (activeList active).length + (activeList active).idxOf c) * 256 / pageSize

/-- The number of the DRAM row, among those of a channel, that holds a channel offset under a layout. The controller's mapping keeps
a row within one physical page: a remap may put any page's data into the next physical page, so a row of two would hold data
of pages that are not consecutive (R329, R330; log entry 10). -/
def rowOf (u c active o : Nat) : Nat := pageAt active c o * 128 + Config.rowSlot u c (o / 32) % 128

/-- The channel offsets of the 32 B units of a DRAM row: they lie among the channel's granules of its physical page (R329). -/
def rowUnits (u c active v : Nat) : List Nat :=
  let n := (activeList active).length
  let i := (activeList active).idxOf c
  let first (q : Nat) : Nat := (pageSize / 256 * q + n - 1 - i) / n
  let g := first (v / 128)
  ((List.range (8 * (first (v / 128 + 1) - g))).map fun k => 256 * g + 32 * k).filter fun o => rowOf u c active o = v

/-- The address pages whose data lie at channel offsets under a layout. -/
def pagesOf (c active : Nat) (remap : SMap Nat) (size : Nat) (offs : List Nat) : List Nat :=
  (offs.filterMap fun o => pageHeld remap size (pageAt active c o)).eraseDups

/-- The address pages whose data lie in a DRAM row under a layout (R329, Table 6 of 10). -/
def pagesOfRow (u c v active : Nat) (remap : SMap Nat) (size : Nat) : List Nat :=
  pagesOf c active remap size (rowUnits u c active v)

/-- The lowest of some pages, and whether the page after it is one of them. -/
def lowPage (l : List Nat) : Nat × Bool :=
  let p := (l.min?).getD 0
  (p, l.contains (p + 1))

/-- The location word of a DRAM row, by its channel's own number of it and the pages whose data lie in it (Table 6 of 10). -/
def rowWord (u c v : Nat) (pages : List Nat) : Nat :=
  let w := v ^^^ (Config.rowKey u c % 2 ^ 25)
  let (page, spans) := lowPage pages
  put 63 62 (u / 4) + put 61 60 (u % 4) + put 59 55 c + put 54 49 (w >>> 19) + put 48 30 w + put 29 12 page
    + put 11 11 (boolNat spans)

/-- Location word of an offset of a range (Table 6 of 10). -/
def State.locWord (s : State) (u off : Nat) : Nat :=
  let (c, o) := s.locate u off
  let v := rowOf u c (s.layout u off).1 o
  rowWord u c v (pagesOfRow u c v (s.layout u off).1 (s.layout u off).2 (s.rangeSize u))

/-- The location word of one unit's record: its own page, whatever other page its row holds (R341, R351). -/
def State.unitWord (s : State) (u off : Nat) : Nat :=
  let w := s.locWord u off
  w / 2 ^ 30 * 2 ^ 30 + put 29 12 (off / pageSize) + (if off / pageSize = w / 2 ^ 12 % 2 ^ 18 then w % 2 ^ 12 else 0)

/-- The channel's own number of the DRAM row that a location word names. -/
def wordRow (u c w : Nat) : Nat := (w / 2 ^ 30 % 2 ^ 25) ^^^ (Config.rowKey u c % 2 ^ 25)

/-- Location word of a channel alone. -/
def chanWord (u c : Nat) : Nat := put 63 62 (u / 4) + put 61 60 (u % 4) + put 59 55 c

/-! ### Channels -/

def State.chan (s : State) (u c : Nat) : Channel := SMap.get Channel.init s.tiers.chans (32 * u + c)

def State.modChan (s : State) (u c : Nat) (f : Channel → Channel) : State :=
  { s with tiers := { s.tiers with chans := SMap.mod Channel.init s.tiers.chans (32 * u + c) f } }

/-- A request joins its queue, of 64 entries; where it is full, or earlier requests wait for it, the request waits in the NoC
(R331). -/
def Channel.arrive (now : Nat) (c : Channel) (q : MemReq) : Channel :=
  if (c.queue.filter fun x => x.narrow = q.narrow).length < 64 && !(c.waiting.any fun x => x.narrow = q.narrow) then
    { c with queue := c.queue ++ [{ q with arrived := now }] }
  else { c with waiting := c.waiting ++ [q] }

/-- The requests that wait join their queues, in order, as far as there is room. -/
def Channel.refill (now : Nat) (c : Channel) : Channel := c.waiting.foldl (Channel.arrive now) { c with waiting := [] }

/-- A request on units of the granule of an offset goes to the channel that serves it, which leaves power-down (R323, R331); of a
read, lost holds the units that its reader's answer finds uncorrectable. -/
def State.request (s : State) (u off : Nat) (kind : ReqKind) (narrow : Bool) (units : Nat) (lost : Nat := 0) : State :=
  let (v, o) := s.servedAt u off
  s.modChan v (s.locate v o).1 fun c =>
    { c.arrive s.now ⟨kind, narrow, u, off / 256, units, s.now, lost⟩ with asleep := false, lastUse := s.now }

/-- Controller of a channel: the stack, or the package (R321, R333). -/
def ctlOf (u c : Nat) : Nat := if u < 4 then u else 4 + 6 * (u - 4) + c / 4

/-- Controllers of a range. -/
def ctlsOf (u : Nat) : List Nat := if u < 4 then [u] else (List.range 6).map fun i => 4 + 6 * (u - 4) + i

def ctlLines (u : Nat) : Nat := if u < 4 then 1024 else 256

def State.lines (s : State) (k : Nat) : List Line := SMap.get [] s.tiers.lines k

def State.setLines (s : State) (k : Nat) (l : List Line) : State :=
  { s with tiers := { s.tiers with lines := SMap.set [] s.tiers.lines k l } }

/-- The controller that holds the line of a granule of a range, and the line: lines are kept by device address, also where a reflow
has since moved the granule (R333, R350). -/
def State.lineAt (s : State) (u g : Nat) : Option (Nat × Line) :=
  (ctlsOf u).findSome? fun k => ((s.lines k).find? fun x => x.granule = rangeBase u / 256 + g).map fun x => (k, x)

/-- The units of a granule of a range that a combining line holds. -/
def State.lineUnits (s : State) (u g : Nat) : Nat :=
  match s.lineAt u g with
  | some x => x.2.units
  | none => 0

/-- Merge units into the line of a granule (R333). -/
def mergeLine (g units now : Nat) : List Line → List Line
  | [] => [⟨g, units, now⟩]
  | l :: ls => if l.granule = g then { l with units := l.units ||| units } :: ls else l :: mergeLine g units now ls

/-- A line is written to memory: its valid units only (R333). -/
def State.writeLine (s : State) (u : Nat) (x : Line) : State :=
  s.request u (x.granule * 256 - rangeBase u) .write false x.units

/-- A write to units of one granule enters the write-combining buffer; a full line, or the oldest of a buffer more than
75 % full, is written to memory (R333). -/
def State.combine (s : State) (u off units : Nat) : State :=
  let k := match s.lineAt u (off / 256) with
    | some x => x.1
    | none => ctlOf u (s.locate u off).1
  let l := mergeLine ((rangeBase u + off) / 256) units s.now (s.lines k)
  let full := l.filter fun x => x.units = 255
  let l := l.filter fun x => x.units ≠ 255
  let old := if 3 * ctlLines u < 4 * l.length then l.take 1 else []
  let s := s.setLines k (l.drop old.length)
  (full ++ old).foldl (fun s x => s.writeLine u x) s

/-- Take a unit out of the requests of a kind that its channel has not issued. -/
def State.clearUnit (s : State) (kind : ReqKind) (u off : Nat) : State :=
  let (v, o) := s.servedAt u off
  let clear (q : MemReq) : MemReq :=
    if q.kind = kind && q.range = u && q.granule = off / 256 then { q with units := maskClear q.units (off % 256 / 32) } else q
  let tidy (l : List MemReq) : List MemReq := (l.map clear).filter fun q => q.units ≠ 0
  s.modChan v (s.locate v o).1 fun c => { c with queue := tidy c.queue, waiting := tidy c.waiting }

/-- Another access reaches a unit: a read-modify-write of it that is still queued has been carried out before, with a good read
(R334, R335). -/
def State.coverUnit (s : State) (u off : Nat) : State := s.clearUnit .rmw u off

/-- A write of the unit is queued and not yet issued. -/
def State.writeQueued (s : State) (u off : Nat) : Bool :=
  let (v, o) := s.servedAt u off
  let c := s.chan v (s.locate v o).1
  (c.queue ++ c.waiting).any fun q => q.kind = .write && q.range = u && q.granule = off / 256 && q.units.testBit (off % 256 / 32)

/-- The unit is held by a combining line. -/
def State.inLine (s : State) (u off : Nat) : Bool := (s.lineUnits u (off / 256)).testBit (off % 256 / 32)

/-- Take a unit out of its granule's line, and out of the writes made of it: its write's bytes are lost (R335). -/
def State.dropFromLine (s : State) (u off : Nat) : State :=
  let s := s.clearUnit .write u off
  match s.lineAt u (off / 256) with
  | some (k, x) =>
    s.setLines k (((s.lines k).map fun y => if y.granule = x.granule then { y with units := maskClear y.units (off % 256 / 32) } else y).filter
      fun y => y.units ≠ 0)
  | none => s

/-! ### Poison, uncorrectable and corrected reads (R337 to R342) -/

/-- The memory detector (0x9006); degrades: it sets the DEGRADED cause of ranges. -/
def State.memEvent (s : State) (cause : Nat) (loc aux : Nat) (inj ovf : Bool := false) (degrades : Bool := false) : State :=
  s.raise { det := 0x9006, sev := if degrades then 3 else if cause = 7 then 1 else 2, cause := cause, detail := loc, aux := aux,
            injected := inj, overflow := ovf }

/-- Set the poison list of a range. -/
def State.setPoison (s : State) (u : Nat) (l : List Nat) : State :=
  (s.modRange u fun r => { r with poison := l }).setReg (rangeIdx u) 8 l.length

/-- Poison the unit at offset off of a range; a full list leaves it zeros (R340). -/
def State.poisonUnit (s : State) (u off : Nat) : State :=
  let a := (rangeBase u + off) / 32
  let l := (s.range u).poison
  if l.contains a then s
  else
    let s := s.bump 0x3001 6 1
    if 4096 ≤ l.length then
      (s.putBytesAt (32 * a) (List.replicate 32 0)).memEvent 2 (s.locWord u off) (off % pageSize) false true
    else s.setPoison u (l ++ [a])

/-- The channel failed training (R483). -/
def State.untrained (s : State) (u c : Nat) : Bool := s.blobBit 0x1200 10 u c

/-- A read of the unit at an offset of a range, where it is served, is uncorrectable whatever the read itself finds: its die
stopped, its channel failed training, or it is poisoned (R339, R340, R483). -/
def State.unitLost (s : State) (u off : Nat) : Bool :=
  (s.range u).poison.contains ((rangeBase u + off) / 32) || s.untrained u (s.locate u off).1 || s.top.stopped.get (rangeDie u)

/-- A DRAM row is failing: one event for it (R342). -/
def State.failRow (s : State) (u off : Nat) : State :=
  let w := s.locWord u off
  let k := w >>> 30
  if (s.range u).failing.contains k then s
  else (s.modRange u fun r => { r with failing := r.failing ++ [k] }).memEvent 1 w 0

/-- Count an uncorrectable read (R339); own: not by poison alone, so that its row fails (R342). -/
def State.countLost (s : State) (u off : Nat) (own : Bool) : State :=
  let s := s.bump 0x3001 2 1
  let s := s.modChan u (s.locate u off).1 fun c => { c with uncorrectable := c.uncorrectable + 1 }
  if own then s.failRow u off else s

/-- Count a corrected read towards row_ce_threshold within 24 h (R342). -/
def State.countCorrected (s : State) (u off : Nat) : State :=
  let s := s.bump 0x3001 1 1
  let s := s.modChan u (s.locate u off).1 fun c => { c with corrected := c.corrected + 1 }
  let k := s.locWord u off >>> 30
  let day := usCycles 86400000000
  let l := ((SMap.get [] (s.range u).rowCe k).filter fun t => s.now < t + day) ++ [s.now]
  let s := s.modRange u fun r => { r with rowCe := SMap.set [] r.rowCe k l }
  if s.reg 0x3000 2 ≤ l.length then s.failRow u off else s

/-- An injection of the memory detector armed on a channel: its target is bits 63:49 of a location word, of which the tier,
unit and channel select (Table 7 of 14). -/
def State.armedChan (s : State) (u c site : Nat) : Bool :=
  let w := s.reg 0x9006 3
  s.isUp && w / 2 ^ 16 % 2 ^ 16 ≠ 0 && w / 2 ^ 54 % 2 ^ 9 = chanWord u c / 2 ^ 55 && w / 2 ^ 40 % 256 = site

/-- An injection of the parity detector armed on a channel: its target names the channel as channel_select does (0x3120.01;
DEDUCED). -/
def State.armedParity (s : State) (u c site : Nat) : Bool :=
  let w := s.reg 0x9007 3
  s.isUp && w / 2 ^ 16 % 2 ^ 16 ≠ 0 && w / 2 ^ 48 = 2 ^ 14 * (u / 4) + 2 ^ 12 * (u % 4) + c && w / 2 ^ 40 % 256 = site

/-- A read found uncorrectable or its row failing by an injection: the row is failing from then on (R342); the record names
the failing row, or the uncorrectable read where the row was failing already (DEDUCED). -/
def State.injectFail (s : State) (u off : Nat) : State :=
  let w := s.locWord u off
  let k := w >>> 30
  let known := (s.range u).failing.contains k
  let s := if known then s else s.modRange u fun r => { r with failing := r.failing ++ [k] }
  s.memEvent (if known then 6 else 1) w 0 true

/-- Injections of 0x9006 on the next read of a channel: whether the read becomes uncorrectable. -/
def State.injectRead (s : State) (u off : Nat) : State × Bool :=
  let c := (s.locate u off).1
  let w := s.locWord u off
  if s.armedChan u c 0 then (((s.consume 0x9006).memEvent 7 w 0 true).countCorrected u off, false)
  else if s.armedChan u c 1 then (((s.consume 0x9006).injectFail u off).countLost u off false, true)
  else if s.armedChan u c 2 then ((s.consume 0x9006).injectFail u off, false)
  else (s, false)

/-- A good read of a unit of the row under repair: the row's copy holds it (R344). -/
def State.noteSeen (s : State) (u off : Nat) : State :=
  match (s.range u).repair with
  | some r =>
    if r.blocked && s.locWord u off / 2 ^ 30 = r.loc.toNat / 2 ^ 30 then
      s.modRange u fun x => { x with repair := some { r with seen := r.seen ++ [(rangeBase u + off) / 32] } }
    else s
  | none => s

/-- Judge the units of a read of a range: the state, and the units found uncorrectable. A unit that a combining line or a queued
write holds gives that write's bytes (R333, R334); lost holds the units (address ÷ 32) of which the read itself proves that they
are uncorrectable, by its checks or because its transfer fails (R337, R339). -/
def State.judgeUnits (s : State) (u : Nat) (lost : List Nat) : List Nat → State × List Nat
  | [] => (s, [])
  | off :: l =>
    let a := (rangeBase u + off) / 32
    let (v, o) := s.servedAt u off
    if (s.inLine u off || s.writeQueued u off) && !s.top.stopped.get (rangeDie v) then (s.coverUnit u off).judgeUnits u lost l
    else if lost.contains a || s.unitLost v o then
      let r := (s.countLost v o (lost.contains a)).judgeUnits u lost l
      (r.1, a :: r.2)
    else
      let i := s.injectRead v o
      let r := (i.1.noteSeen v o).judgeUnits u lost l
      (r.1, if i.2 then a :: r.2 else r.2)

/-- Offsets of the 32 B units, or of the 256 B granules, that n bytes from off on touch. -/
def spansOf (size off n : Nat) : List Nat :=
  (List.range ((off + n - 1) / size + 1 - off / size)).map fun i => (off / size + i) * size

/-- Of a granule, the units that n bytes from an offset on touch. -/
def granuleUnits (off n g : Nat) : Nat :=
  (List.range 8).foldl (fun m i => if 256 * g + 32 * i < off + n && off < 256 * g + 32 * i + 32 then maskSet m i else m) 0

/-- Of some units (address ÷ 32), the mask of those that lie in the granule of an offset of a range. -/
def unitMask (u off : Nat) (l : List Nat) : Nat :=
  (List.range 8).foldl (fun m i => if l.contains ((rangeBase u + off / 256 * 256) / 32 + i) then maskSet m i else m) 0

/-- Put the requests of a read into the queues: 32 B reads into the narrow one, granules into the wide one; of the units that a
combining line holds, the memory is not read (R331, R333). lost holds the units that its answer finds uncorrectable. -/
def State.requestRead (s : State) (u off n : Nat) (narrow : Bool) (lost : List Nat) : State :=
  (spansOf (if narrow then 32 else 256) off n).foldl (fun s o =>
    let m := granuleUnits (if narrow then o else off) (if narrow then 32 else n) (o / 256)
    let m := (maskList 8 m).foldl (fun k i => if (s.lineUnits u (o / 256)).testBit i then k else maskSet k i) 0
    if m = 0 then s else s.request u o .read narrow m (unitMask u o lost &&& m)) s

/-- What a read gives: its bytes, the units that are uncorrectable, and whether it was refused (R328). -/
structure ReadOut where
  bytes : List Byte
  lost : List Nat
  refused : Bool
  deriving DecidableEq, Repr

/-- The subindices of an account's bytes read and written at a place (Table 12 of 12). -/
def chargeSub (p : Place) (write : Bool) : Nat :=
  match p with
  | .range u _ => (if u < 4 then 6 else 8) + boolNat write
  | .host _ => 0x0C + boolNat write
  | _ => if write then 0x0A else 0x0B

/-- A write to a unit of a channel that failed training is dropped; its lost-write bit is set (R483). -/
def State.dropWrite (s : State) (u c : Nat) : State := s.setBlobBit 0x1200 13 u c

/-- Write the bytes of one 32 B unit, or of part of one, where the unit is served (R333, R335, R340, R350, R483). A part of a unit
that no combining line holds takes a read of the unit; the bytes are lost where that read is uncorrectable, as it is of a poisoned
unit, unless a queued write covers that. -/
def State.writeUnit (s : State) (u off : Nat) (bs : List Byte) : State :=
  let (v, o) := s.servedAt u off
  let c := (s.locate v o).1
  let a := (rangeBase v + o) / 32
  let unit := 1 <<< (off % 256 / 32)
  if s.top.stopped.get (rangeDie v) then s
  else if s.untrained v c then s.dropWrite v c
  else
    let s := s.coverUnit u off
    if bs.length = 32 then
      let s := s.combine u (off / 256 * 256) unit
      (if (s.range v).poison.contains a then s.setPoison v ((s.range v).poison.filter (· ≠ a)) else s).putBytesAt (rangeBase v + o) bs
    else if s.inLine u off then (s.combine u (off / 256 * 256) unit).putBytesAt (rangeBase v + o) bs
    else
      let good := s.writeQueued u off || !(s.range v).poison.contains a
      let s := s.request u (off / 256 * 256) .rmw false unit
      if good then (s.combine u (off / 256 * 256) unit).putBytesAt (rangeBase v + o) bs else s

/-- Cut bytes from an offset on into runs that do not cross a multiple of 32; the first argument is the fuel. -/
def unitRuns : Nat → Nat → List Byte → List (Nat × List Byte)
  | 0, _, _ => []
  | fuel + 1, off, bs =>
    if bs.isEmpty then []
    else
      let k := 32 - off % 32
      (off, bs.take k) :: unitRuns fuel (off + k) (bs.drop k)

/-- Write bytes of a range from an offset on. -/
def State.writeRange (s : State) (u off : Nat) (bs : List Byte) : State :=
  (unitRuns (bs.length + 1) off bs).foldl (fun s r => s.writeUnit u r.1 r.2) s

/-! ### Reservoir bytes (R320) -/

/-- Bytes of a die's general area. -/
def State.generalBytes (s : State) : Nat := 2 ^ 20 * (88 - s.reg 0x6800 1 - s.reg 0x6000 2 - s.reg 0x6000 3)

def resvKey (die off : Nat) : Nat := die * 2 ^ 27 + off

def State.resvBytes (s : State) (die off n : Nat) : List Byte :=
  (List.range n).map fun i => SMap.get 0 s.tiers.resv (resvKey die off + i)

/-- Put bytes into a reservoir, from a key on; the slices wake (R25). -/
def resvPut : SMap Byte → Nat → List Byte → SMap Byte
  | m, _, [] => m
  | m, k, b :: bs => resvPut (SMap.set 0 m k b) (k + 1) bs

def State.useSlice (s : State) (die off : Nat) : State :=
  let k := 4 * die + off / 512 % 4
  { s with pow := { s.pow with sliceRet := maskClear s.pow.sliceRet k, sliceUse := SMap.set 0 s.pow.sliceUse k s.now } }

/-- An access to n bytes of a reservoir wakes each slice that holds one of its rows (R25). -/
def State.useSlices (s : State) (die off n : Nat) : State :=
  (List.range (min 4 ((off + n - 1) / 512 - off / 512 + 1))).foldl (fun s i => s.useSlice die (off + 512 * i)) s

def State.putResv (s : State) (die off : Nat) (bs : List Byte) : State :=
  { s.useSlices die off bs.length with tiers := { s.tiers with resv := resvPut s.tiers.resv (resvKey die off) bs } }

/-! ### Channel commands -/

/-- CHANNEL_POWER_DOWN: no request for 1 µs (R323). -/
def execChannelPowerDown (u c : Nat) (s : State) : Host.Outcome State Fault Refusal :=
  .next (if (s.chan u c).queue.isEmpty && (s.chan u c).waiting.isEmpty && usCycles 1 ≤ s.now - (s.chan u c).lastUse && maskBit (s.active u) c then
      s.modChan u c fun x => { x with asleep := true }
    else s)

/-- A request's bank is blocked by a row repair (R344). -/
def State.bankBlocked (s : State) (u : Nat) (q : MemReq) : Bool :=
  match (s.range u).repair with
  | some r =>
    let (v, o) := s.servedAt q.range (256 * q.granule)
    r.blocked && v = u && decide (s.locWord u o / 2 ^ 49 = r.loc.toNat / 2 ^ 49)
  | none => false

/-- The oldest request whose bank is ready; none where an aged request stands before it (R332). -/
def State.pickRequest (s : State) (u : Nat) : List MemReq → Option (MemReq × List MemReq)
  | [] => none
  | q :: l =>
    if !s.bankBlocked u q then some (q, l)
    else if s.reg 0x3000 4 ≤ cyclesNs (s.now - q.arrived) then none
    else (s.pickRequest u l).map fun r => (r.1, q :: r.2)

/-- A channel becomes suspect (R338). -/
def State.suspect (s : State) (u c : Nat) : State :=
  let i := rangeIdx u
  if maskBit (s.reg i 3) c then s
  else (s.setReg i 3 (maskSet (s.reg i 3) c)).memEvent 0 (chanWord u c) 0

/-- Reissues of a transfer (R337, R338): counted; more than a thousand in any one second make the channel suspect. -/
def State.reissue (s : State) (u c n : Nat) : State :=
  if n = 0 then s
  else
    let s := s.bump 0x3001 3 n
    let s := s.modChan u c fun x =>
      { x with retries := x.retries + n,
               reissues := (x.reissues.filter fun r => s.now < r.1 + usCycles 1000000) ++ [(s.now, n)] }
    if 1000 < ((s.chan u c).reissues.map (·.2)).sum then s.suspect u c else s

/-- Offsets in its range of the units of a request. -/
def MemReq.offs (q : MemReq) : List Nat := (maskList 8 q.units).map fun i => 256 * q.granule + 32 * i

/-- The reissues of a transfer under its interface checks, with the event of each transfer that has some; an injection of the
parity detector adds its own (R337, Table 7 of 14). -/
def State.retried (s : State) (u c : Nat) (q : MemReq) (k : TransferCheck) : State :=
  let own := min k.failures 8
  let at' := s.servedAt q.range (256 * q.granule)
  let w := s.locWord at'.1 at'.2
  if own ≠ 0 then (s.raise { det := 0x9007, sev := 1, detail := w, aux := own }).reissue u c own
  else match ((List.range 8).map (· + 1)).find? fun n => s.armedParity u c n with
    | some n => ((s.consume 0x9007).raise { det := 0x9007, sev := 1, detail := w, aux := n, injected := true }).reissue u c n
    | none => s

/-- A transfer fails after 8 failed reissues (R337); a read's failure is in its reader's answer, which finds all of its units
uncorrectable then. -/
def MemReq.fails (q : MemReq) (k : TransferCheck) : Bool := 8 < k.failures && (q.kind ≠ .read || q.lost = q.units)

/-- A unit found uncorrectable by a transfer: a unit that a write has changed in part is poisoned, and the write's bytes are lost
(R335); a unit that the scrubber reads is reported and left as it is (R341); any other read has been answered so, and counted, with
its reader (R339). -/
def State.failUnit (s : State) (q : MemReq) (off : Nat) (own : Bool) : State :=
  let (v, o) := s.servedAt q.range off
  match q.kind with
  | .rmw => ((s.countLost v o own).dropFromLine q.range off).poisonUnit v o
  | .scrub => (s.countLost v o own).memEvent 6 (s.unitWord v o) (o % pageSize)
  | _ => s

/-- What the checks of R339 find at a unit that a transfer has read: on a stack the controller corrects, and the corrected unit is
written back; on a group the package's on-die ECC does, and its reports are the corrected reads; the reading unit's second check
corrects what the way to it has changed. -/
def State.readUnit (s : State) (q : MemReq) (k : TransferCheck) (off : Nat) : State :=
  let (v, o) := s.servedAt q.range off
  let i := off % 256 / 32
  let s := if k.ondie.testBit i then s.bump 0x3001 7 1 else s
  let s := if k.second.testBit i then
      (s.bump 0x3001 1 1).modChan v (s.locate v o).1 fun c => { c with corrected := c.corrected + 1 }
    else s
  if k.uncorrectable.testBit i then s.failUnit q off true
  else if v < 4 && k.corrected.testBit i then (s.countCorrected v o).combine q.range (off / 256 * 256) (1 <<< i)
  else if 4 ≤ v && k.ondie.testBit i then s.countCorrected v o
  else s

/-- A read by the controller itself, of the scrubber or of a unit to be changed in part: also a unit that is uncorrectable already is
found so, and an injection takes effect where the read itself finds nothing (R335, R341, R470, Table 7 of 14). -/
def State.ownRead (s : State) (q : MemReq) (k : TransferCheck) (off : Nat) : State :=
  let (v, o) := s.servedAt q.range off
  let i := off % 256 / 32
  if s.unitLost v o then s.failUnit q off false
  else if k.uncorrectable.testBit i || k.corrected.testBit i || k.ondie.testBit i then s.readUnit q k off
  else match s.injectRead v o with
    | (s, false) => s.readUnit q k off
    | (s, true) => if q.kind = .rmw then (s.dropFromLine q.range off).poisonUnit v o else s

/-- A unit of a combining line is written to memory: that ends its poison (R340); a write to a channel that failed training is
dropped (R483). -/
def State.writtenUnit (s : State) (q : MemReq) (off : Nat) : State :=
  let (v, o) := s.servedAt q.range off
  let a := (rangeBase v + o) / 32
  let c := (s.locate v o).1
  if s.untrained v c then s.dropWrite v c
  else if (s.range v).poison.contains a then s.setPoison v ((s.range v).poison.filter (· ≠ a))
  else s

/-- The transfer of a request under its interface checks (R337): failed reissues fail it; a failed read is uncorrectable, and a
failed write poisons every unit it carried. -/
def State.transfer (s : State) (u c : Nat) (q : MemReq) (k : TransferCheck) : State :=
  let s := s.retried u c q k
  if q.fails k then
    let s := (((s.bump 0x3001 4 1).modChan u c fun x => { x with failures := x.failures + 1 })).suspect u c
    q.offs.foldl (fun s off =>
      let (v, o) := s.servedAt q.range off
      match q.kind with
      | .write => s.poisonUnit v o
      | _ => s.failUnit q off true) s
  else q.offs.foldl (fun s off =>
    match q.kind with
    | .write => s.writtenUnit q off
    | .read => if q.lost.testBit (off % 256 / 32) then s else s.readUnit q k off
    | _ => s.ownRead q k off) s

/-- MEMORY_REQUEST: a channel issues a request (R332, R337). -/
def execMemoryRequest (u c : Nat) (k : TransferCheck) (s : State) : Host.Outcome State Fault Refusal :=
  .next (match s.pickRequest u (s.chan u c).queue with
    | some (q, l) =>
      (s.modChan u c fun x => { Channel.refill s.now { x with queue := l } with asleep := false, lastUse := s.now }).transfer u c q k
    | none => s)

/-- WCB_AGE_EXPIRY: the line of a granule of a range has been held for wcb_age (R333). The operand is the granule's number in the
range. -/
def execWcbAgeExpiry (u g : Nat) (s : State) : Host.Outcome State Fault Refusal :=
  .next (match s.lineAt u g with
    | some (k, x) =>
      if s.reg 0x3000 3 ≤ cyclesNs (s.now - x.since) then
        (s.setLines k ((s.lines k).filter fun y => y.granule ≠ x.granule)).writeLine u x
      else s
    | none => s)

/-- MEMORY_PATROL: the patrol scrubber reads one unit, as wide traffic; what it finds is handled when the channel issues the read
(R341). -/
def execMemoryPatrol (u unit : Nat) (s : State) : Host.Outcome State Fault Refusal :=
  .next (
    let off := 32 * unit
    if s.rangeSize u ≤ off || !s.isUp || (s.lineUnits u (off / 256)).testBit (off % 256 / 32) then s
    else (s.charge 16 (chargeSub (.range u off) false) 32).request u off .scrub false (1 <<< (off % 256 / 32)))

/-! ### Repair (R343 to R346) -/

/-- Range and channel of a location word. -/
def locRange (w : Nat) : Nat := w / 2 ^ 62 % 2 * 4 + w / 2 ^ 60 % 4
def locChan (w : Nat) : Nat := w / 2 ^ 55 % 32
def locPage (w : Nat) : Nat := w / 2 ^ 12 % 2 ^ 18
def locPages (w : Nat) : List Nat := locPage w :: (if w.testBit 11 then [locPage w + 1] else [])

def State.setRangeState (s : State) (u v : Nat) : State := s.setReg (rangeIdx u) 9 v

/-- A repair operation ends with a status: recorded, and its event raised (R343). -/
def State.repairDone (s : State) (w status : Nat) : State :=
  let u := locRange w
  let s := (s.modRange u fun r => { r with repair := none }).setReg 0x3100 3 status
  let s := if s.reg (rangeIdx u) 9 = 1 then s.setRangeState u 0 else s
  s.memEvent 3 w status

/-- Begin a repair operation of the target's range, or answer busy (R343). -/
def State.beginRepair (s : State) (f : State → Nat → Nat → State) : State :=
  let w := s.reg 0x3100 1
  let u := locRange w
  if s.reg (rangeIdx u) 9 ≠ 0 then s.setReg 0x3100 3 5
  else f s w u

/-- Spare rows left in the bank of a location word (R344). -/
def State.sparesLeft (s : State) (w : Nat) : Nat :=
  Config.spareRows (w / 2 ^ 49) - SMap.get 0 (s.range (locRange w)).spares (w / 2 ^ 49)

/-- The op ROW_REPAIR: the bank is blocked until the repair ends; without a spare row nothing changes (R344). -/
def State.rowRepair (s : State) : State :=
  s.beginRepair fun s w u =>
    if s.sparesLeft w = 0 then s.repairDone w 3
    else
      ((s.modRange u fun r => { r with repair := some ⟨1, BitVec.ofNat 64 w, [], true, []⟩ }).setRangeState u 1).setReg
        0x3100 3 1

/-- A range whose repair operation has an op. -/
def State.repairing (s : State) (op : Nat) : Option (Nat × Repair) :=
  (List.range 8).findSome? fun u =>
    match (s.range u).repair with
    | some r => if r.op = op then some (u, r) else none
    | none => none

/-- Bytes that a repair or a reflow moves within the tiers, to the account of the device (R414). -/
def State.chargeMove (s : State) (u v n : Nat) : State :=
  (s.charge 16 (chargeSub (.range u 0) false) n).charge 16 (chargeSub (.range v 0) true) n

/-- A unit found uncorrectable by a copy: counted, and poisoned at its destination (Table 5 of 10). -/
def State.loseUnit (s : State) (u off : Nat) : State := (s.countLost u off true).poisonUnit u off

/-- Of some units (address ÷ 32), the offsets of those that lie in a range. -/
def State.unitsIn (s : State) (u : Nat) (l : List Nat) : List Nat :=
  (l.filter fun a => rangeBase u ≤ 32 * a && 32 * a - rangeBase u < s.rangeSize u).map fun a => 32 * a - rangeBase u

/-- Requests of a copy by the controller for the granules of a range at some offsets, as wide traffic (R331). A read carries every
unit, and its answer the poisoned ones; a write carries the others, and is dropped where its channel failed training (R483). -/
def State.copyTraffic (s : State) (u : Nat) (write : Bool) (offs : List Nat) : State :=
  offs.foldl (fun s o =>
    let bad := unitMask u o (s.range u).poison
    let c := (s.locate u o).1
    if !write then s.request u o .read false 255 bad
    else if s.untrained u c then s.dropWrite u c
    else if bad = 255 then s
    else s.request u o .write false (255 - bad)) s

/-- Offsets in a range of the granules of the DRAM row that a location word names, as far as they hold data (R329). -/
def State.rowGranules (s : State) (u w : Nat) : List Nat :=
  let c := locChan w
  let act := s.active u
  ((rowUnits u c act (wordRow u c w)).filterMap fun o =>
    let b := (o / 256 * (activeList act).length + (activeList act).idxOf c) * 256
    (pageHeld (s.range u).remap (s.rangeSize u) (b / pageSize)).map fun p => p * pageSize + b % pageSize).eraseDups

/-- ROW_REPAIR_COMPLETE: the row has taken a spare one of its bank, and is written back from the holding buffer; its units that were
uncorrectable in the copy are poisoned (R344). A unit that an access has read since was good in the copy. -/
def execRowRepairComplete (lost : List Nat) (s : State) : Host.Outcome State Fault Refusal :=
  .next (match s.repairing 1 with
    | none => s
    | some (u, r) =>
      let w := r.loc.toNat
      let bad := (s.unitsIn u lost).filter fun o =>
        s.locWord u o / 2 ^ 30 = w / 2 ^ 30 && !r.seen.contains ((rangeBase u + o) / 32)
      let s := bad.foldl (fun s o => s.loseUnit u o) s
      let s := (s.copyTraffic u false (s.rowGranules u w)).copyTraffic u true (s.rowGranules u w)
      let s := s.modChan u (locChan w) fun c => { c with repaired := c.repaired + 1 }
      let s := s.modRange u fun x => { x with failing := x.failing.filter (· ≠ w >>> 30),
                                              spares := SMap.mod 0 x.spares (w / 2 ^ 49) (· + 1) }
      s.repairDone w 2)

/-- Retire pages in order (R345, R346): the remap table and the size, in bytes, after them. A page whose physical locations are the
target of an entry gives that entry a new target; the last page's data, where they lie elsewhere by an entry, make that entry's
target the place that is taken (DEDUCED; log entry 69). -/
def retirePages : List Nat → SMap Nat → Nat → SMap Nat × Nat
  | [], m, size => (m, size)
  | p :: ps, m, size =>
    let t := size / pageSize - 1
    let place := SMap.get t m t
    let p := (pageHeld m size p).getD p
    if p = t then retirePages ps (SMap.erase m t) (size - pageSize)
    else if t < p then retirePages ps m size
    else retirePages ps (SMap.insert (SMap.erase m t) p place) (size - pageSize)

/-- Install a page's retirement (R345). -/
def State.retirePage (s : State) (u p : Nat) : State :=
  let (m, size) := retirePages [p] (s.range u).remap (s.rangeSize u)
  let i := rangeIdx u
  let s := s.modRange u fun r => { r with remap := m }
  let s := ((s.setReg i 1 size).bump i 4 1).setReg i 5 m.length
  s.setPoison u ((s.range u).poison.filter fun a => 32 * a - rangeBase u < size)

/-- Pages whose copy is not needed are retired at once; the first page that needs a copy waits for it (R345). -/
def State.retireNext (s : State) (u w : Nat) : List Nat → State
  | [] =>
    let s := s.modRange u fun r => { r with retired := (r.retired ++ [BitVec.ofNat 64 w]).take 128 }
    s.repairDone w 2
  | p :: ps =>
    if p = s.rangeSize u / pageSize - 1 then (s.retirePage u p).retireNext u w ps
    else s.modRange u fun r => { r with repair := some ⟨2, BitVec.ofNat 64 w, p :: ps, false, []⟩ }

/-- The op PAGE_REMAP retires each page that holds the target row's data (R345, R346). -/
def State.pageRemap (s : State) : State :=
  s.beginRepair fun s w u =>
    let (m, _) := retirePages (locPages w) (s.range u).remap (s.rangeSize u)
    if 64 < m.length then s.repairDone w 4
    else ((s.setRangeState u 1).setReg 0x3100 3 1).retireNext u w (locPages w)

/-- Offsets of the granules of a page. -/
def pageGranules (p : Nat) : List Nat := (List.range (pageSize / 256)).map fun i => p * pageSize + 256 * i

/-- Offsets of the units of a page that read as uncorrectable whatever their read finds: poisoned, of a channel that failed training,
or all of them where the die has stopped (R339, R483). -/
def State.lostInPage (s : State) (u p : Nat) : List Nat :=
  if s.blob 0x1200 10 = [] && !s.top.stopped.get (rangeDie u) then
    (s.unitsIn u (s.range u).poison).filter fun o => o / pageSize = p
  else ((List.range (pageSize / 32)).map fun i => p * pageSize + 32 * i).filter fun o => s.unitLost u o

/-- PAGE_REMAP_COMPLETE: the copy of a page ends; units that read as uncorrectable are poisoned (R345). -/
def execPageRemapComplete (lost : List Nat) (s : State) : Host.Outcome State Fault Refusal :=
  .next (match s.repairing 2 with
    | none => s
    | some (u, r) =>
      match r.pages with
      | [] => s
      | p :: ps =>
        let own := (s.unitsIn u lost).filter fun o => o / pageSize = p
        let bad := (s.lostInPage u p).filter fun o => !own.contains o
        let s := own.foldl (fun s o => s.loseUnit u o) s
        let s := bad.foldl (fun s o => (s.countLost u o false).poisonUnit u o) s
        let s := (s.chargeMove u u pageSize).copyTraffic u false (pageGranules p)
        ((s.retirePage u p).copyTraffic u true (pageGranules p)).retireNext u r.loc.toNat ps)

/-- The op QUERY_SPARES: the spare rows left in the bank (R344). -/
def State.querySpares (s : State) : State :=
  s.beginRepair fun s w _ => (s.setReg 0x3100 4 (s.sparesLeft w % 256)).repairDone w 2

/-- The op CLEAR_SUSPECT (R338). -/
def State.clearSuspect (s : State) : State :=
  s.beginRepair fun s w u =>
    let i := rangeIdx u
    (s.setReg i 3 (maskClear (s.reg i 3) (locChan w))).repairDone w 2

/-! ### Map-out and reflow (R347 to R353) -/

/-- Range named by mapout_unit. -/
def State.mapoutRange (s : State) : Nat := s.reg 0x3200 1 % 8

/-- Place a page in rising order. -/
def insertPages (p : Nat) : List Nat → List Nat
  | [] => [p]
  | q :: l => if p < q then p :: q :: l else if p = q then q :: l else q :: insertPages p l

/-- The layout that PLAN computes (R347): none where it would leave no channel. The cells of a retired row keep their places in the
channel; the words that name them are those of the rows that hold them under the new layout. -/
def State.planOf (s : State) (u mask : Nat) : Option Plan :=
  let act := (activeList (s.active u)).foldl (fun m c => if maskBit mask c then m else maskSet m c) 0
  let n := (activeList act).length
  if n = 0 then none
  else
    let keep := (s.range u).retired.filter fun w => !maskBit mask (locChan w.toNat)
    let cells (w : W64) : List Nat := rowUnits u (locChan w.toNat) (s.active u) (wordRow u (locChan w.toNat) w.toNat)
    let pages := keep.foldl (fun l w =>
      (pagesOf (locChan w.toNat) act [] (n * chanBytes u) (cells w)).foldl (fun l p => insertPages p l) l) []
    let (m, size) := retirePages pages [] (n * chanBytes u)
    let named (w : W64) : List W64 :=
      let c := locChan w.toNat
      ((cells w).map fun o => rowOf u c act o).eraseDups.map fun v =>
        BitVec.ofNat 64 (rowWord u c v (pagesOfRow u c v act [] (n * chanBytes u)))
    some ⟨mask, act, m, (keep.flatMap named).take 128, size⟩

/-- The op PLAN (R347). -/
def State.planReflow (s : State) : State :=
  let u := s.mapoutRange
  if s.reg (rangeIdx u) 9 ≠ 0 then s.setReg 0x3200 5 5
  else match s.planOf u (s.reg 0x3200 2) with
    | none => s.setReg 0x3200 5 4
    | some p =>
      if 64 < p.remap.length then s.setReg 0x3200 5 4
      else
        let s := s.modRange u fun r => { r with plan := some p }
        ((s.setReg 0x3200 6 p.size).setReg 0x3200 5 1).setRangeState u 2

/-- The op START runs the reflow of a planned range (R349). -/
def State.startReflow (s : State) : State :=
  let u := s.mapoutRange
  if s.reg (rangeIdx u) 9 ≠ 2 then s.setReg 0x3200 5 5
  else
    let r := s.range u
    let s := s.modRange u fun x =>
      { x with reflow := some ⟨r.remap.map (·.1), chanBytes u / 256, s.now, s.reg 0x3200 3, []⟩ }
    ((s.setReg 0x3200 5 2).setReg 0x3200 7 (chanBytes u / 256)).setRangeState u 3

/-- The op CANCEL discards a plan that has not yet started (R347). -/
def State.cancelPlan (s : State) : State :=
  let u := s.mapoutRange
  if s.reg (rangeIdx u) 9 ≠ 2 then s.setReg 0x3200 5 5
  else ((s.modRange u fun r => { r with plan := none }).setReg 0x3200 5 0).setRangeState u 0

/-- The range whose reflow runs. -/
def State.reflowing (s : State) : Option (Nat × Plan × Reflow) :=
  (List.range 8).findSome? fun u =>
    match (s.range u).plan, (s.range u).reflow with
    | some p, some f => some (u, p, f)
    | _, _ => none

/-- Offset of the range whose new location is granule b of the interleave: the source of a remap target, the page itself,
or none where nothing lies there. -/
def planOffset (p : Plan) (b : Nat) : Option Nat :=
  (pageHeld p.remap p.size (256 * b / pageSize)).map fun q => q * pageSize + 256 * b % pageSize

/-- A unit's old contents are uncorrectable: it is poisoned at its new place, counted and reported (R351). -/
def State.reflowLost (s : State) (u off : Nat) (own : Bool) : State :=
  let (v, o) := s.servedAt u off
  let s := s.countLost v o own
  ((s.poisonUnit u off).bump 0x3200 8 1).memEvent 4 (s.unitWord u off) (off % pageSize)

/-- The channel failed training and has lost no write since: its units hold the zeros of TRAINING (R351, R483). -/
def State.zeroChan (s : State) (u c : Nat) : Bool := s.untrained u c && !s.blobBit 0x1200 13 u c

/-- A unit of the step, taken from the parking area or from its old location: written poisoned where its old contents read as
uncorrectable; one of a channel that failed training and has lost no write is written as zeros (R349, R351). A write to a channel that
failed training is dropped (R483). -/
def State.reflowUnit (s : State) (p : Plan) (u off : Nat) (lost : List Nat) : State :=
  let (v, o) := s.servedAt u off
  let c := (locateIn (s.active v) (s.range v).remap o).1
  let c' := (locateIn p.active p.remap off).1
  let a := (rangeBase v + o) / 32
  if s.untrained u c' then s.dropWrite u c'
  else if s.untrained v c then (if s.zeroChan v c then s else s.reflowLost u off false)
  else if (s.range v).poison.contains a then s.reflowLost u off false
  else if lost.contains a then s.reflowLost u off true
  else if v = u && o = off then s
  else s.putBytesAt (rangeBase u + off) (s.bytesAt (rangeBase v + o) 32)

/-- A unit of a page that is parked: its bytes go to the parking area, poisoned where it is uncorrectable (R349, Table 5 of 10), and
zeros where its channel failed training and has lost no write (R351). -/
def State.parkUnit (s : State) (u off v o : Nat) (lost : List Nat) : State :=
  let a := (rangeBase u + off) / 32
  let own := lost.contains a
  if s.zeroChan u (s.locate u off).1 then s.writeUnit v o (List.replicate 32 0)
  else if own || s.unitLost u off then
    let s := (s.countLost u off own).poisonUnit v o
    s.setPoison u ((s.range u).poison.filter (· ≠ a))
  else s.writeUnit v o (s.bytesAt (rangeBase u + off) 32)

/-- A page of the pre-pass: copied to the parking area, and served from there from then on (R349). -/
def State.parkPage (s : State) (u p : Nat) (f : Reflow) (lost : List Nat) : State :=
  let base := f.area + f.parked.length * pageSize
  let s := s.copyTraffic u false (pageGranules p)
  let s := (List.range (pageSize / 32)).foldl (fun s i =>
    match s.localPlace (base + 32 * i) with
    | .range v o => s.parkUnit u (p * pageSize + 32 * i) v o lost
    | _ => s) s
  let s := match s.localPlace base with
    | .range v _ => s.chargeMove u v pageSize
    | _ => s
  s.modRange u fun r => { r with reflow := some { f with park := f.park.drop 1, parked := f.parked ++ [p] } }

/-- REFLOW_STEP: one page of the pre-pass, or one step of the main pass (R349, R350). -/
def execReflowStep (lost : List Nat) (s : State) : Host.Outcome State Fault Refusal :=
  .next (match s.reflowing with
    | none => s
    | some (u, p, f) =>
      match f.park with
      | page :: _ => s.parkPage u page f lost
      | [] =>
        if f.next = 0 then s
        else
          let n := (activeList p.active).length
          let offs := (List.range n).filterMap fun i => planOffset p ((f.next - 1) * n + i)
          let units := offs.flatMap fun o => (List.range 8).map fun k => o + 32 * k
          let s := units.foldl (fun s o => s.reflowUnit p u o lost) (s.copyTraffic u false offs)
          let s := s.chargeMove u u (256 * offs.length)
          let s := (s.modRange u fun r => { r with reflow := some { f with next := f.next - 1 } }).setReg 0x3200 7 (f.next - 1)
          s.copyTraffic u true offs)

/-- Some range has fewer active channels than a whole range (Table 2 of 14). -/
def State.judgeRanges (s : State) : State :=
  s.setCause 2 ((List.range 8).any fun u => decide ((activeList (s.active u)).length < rangeChans u))

/-- The planned layout is installed, and the suspect marks of the masked channels are cleared (R353). Rows are counted and reported by
the names of the layout that serves (R329, R342). -/
def State.installPlan (s : State) (u : Nat) (p : Plan) : State :=
  let i := rangeIdx u
  let s := s.modRange u fun r => { r with plan := none, reflow := none, remap := p.remap, retired := p.retired, failing := [], rowCe := [] }
  let s := ((s.setReg i 1 p.size).setReg i 2 p.active).setReg i 5 p.remap.length
  let s := s.setReg i 4 (((activeList p.active).length * chanBytes u - p.size) / pageSize)
  let s := s.setReg i 3 ((activeList p.mask).foldl maskClear (s.reg i 3))
  s.setPoison u ((s.range u).poison.filter fun a => 32 * a - rangeBase u < p.size)

/-- REFLOW_DONE: the new layout is installed (R353). -/
def execReflowDone (s : State) : Host.Outcome State Fault Refusal :=
  .next (match s.reflowing with
    | none => s
    | some (u, p, f) =>
      if f.next ≠ 0 || !f.park.isEmpty then s
      else
        let t := (((s.installPlan u p).setReg 0x3200 5 3).setReg 0x3200 9 ((s.now - f.since) / usCycles 1000)).setRangeState u 0
        t.judgeRanges.memEvent 5 (chanWord u 0) 3 false false (!maskBit (s.reg 0xA000 1) 2 && maskBit (t.judgeRanges.reg 0xA000 1) 2))

/-! ### The repair port (R354) -/

/-- The stack of the port is quiescent. -/
def State.portQuiet (s : State) : Bool := !s.isUp || s.active (s.reg 0x3300 1 % 4) = 0

/-- A write to port_dr shifts its bits, the lowest first, into the data register that port_ir selects, as many as the register is
long at most; the bits shifted out are kept (R354). What an instruction of the stack's own set does with its register is the stack's
(log entry 69). -/
def State.portShift (s : State) (bytes : List Byte) : State :=
  let stack := s.reg 0x3300 1 % 4
  let ir := s.reg 0x3300 2
  let len := max (s.reg 0x3300 3) 1
  let n := min (8 * bytes.length) len
  let old := SMap.get (Config.portReg stack ir) s.tiers.ports (4 * ir + stack) % 2 ^ len
  let all := old + leNat bytes % 2 ^ n * 2 ^ len
  let s := { s with tiers := { s.tiers with ports := SMap.insert s.tiers.ports (4 * ir + stack) (all / 2 ^ n) } }
  (s.setBlob 0x3300 4 (leBytes (ceilDiv n 8) (all % 2 ^ n))).setReg 0x3300 5 2

end Sys2Proof.Machine
end

