-- ==== Sys2Proof/Machine/Fabric.lean ====
section
/-! DEFINITION. Quiwen Link: lanes, links, flits, routes and the sending of messages (11: R358 to R378). -/

namespace Sys2Proof

/-- Slots of a message: a 16 B header and its content (Table 6 of 11). -/
def FabMsg.slots (m : FabMsg) : Nat := 1 + Machine.ceilDiv m.data.length 16

/-- The header of a message (Table 6 of 11). -/
def FabMsg.headerWord (m : FabMsg) : Nat :=
  Machine.put 127 76 m.addr + Machine.put 75 60 m.tag + Machine.put 59 52 m.slots + Machine.put 51 47 m.kind
    + Machine.put 46 44 m.cls + Machine.put 43 40 m.status + Machine.put 39 34 m.src + Machine.put 33 28 m.dst
    + Machine.put 27 16 m.table + (if m.kind = 1 then m.flags % 2 else 0)

/-- The bytes of a message: its header, and its content in whole slots (Table 6 of 11). -/
def FabMsg.bytes (m : FabMsg) : List Byte :=
  (Machine.leBytes 16 m.headerWord ++ m.data ++ List.replicate 15 0).take (16 * m.slots)

/-- The type is a response (Table 7 of 11): 0 data, 1 acknowledgement. -/
def FabMsg.response (m : FabMsg) : Option Nat :=
  if m.kind = 0x02 || m.kind = 0x0D || m.kind = 0x0F then some 0
  else if m.kind = 0x04 || m.kind = 0x11 || m.kind = 0x12 then some 1
  else none

/-- The response to a request. -/
def FabMsg.reply (m : FabMsg) (me kind status : Nat) : FabMsg :=
  { m with kind := kind, src := me, dst := m.src, status := status, addr := 0, data := [] }

end Sys2Proof

namespace Sys2Proof.Machine

def State.link (s : State) (e : Nat) : Link := SMap.get Link.init s.fab.links e

def State.setLink (s : State) (e : Nat) (l : Link) : State :=
  { s with fab := { s.fab with links := SMap.set Link.init s.fab.links e l } }

def State.modLink (s : State) (e : Nat) (f : Link → Link) : State := s.setLink e (f (s.link e))

/-- Entry sub of engine e. -/
def State.eng (s : State) (e sub : Nat) : Nat := s.reg (0x8010 + e) sub
def State.setEng (s : State) (e sub v : Nat) : State := s.setReg (0x8010 + e) sub v

/-- Slots of a VC are to be returned to the sender (R366). -/
def Fabric.owe (f : Fabric) (e vc n : Nat) : Fabric :=
  { f with links := SMap.mod Link.init f.links e fun l => { l with owed := SMap.mod 0 l.owed vc fun c => c + n } }

/-- The buffer of an arrived message is free again (R366). -/
def Fabric.consume (f : Fabric) (m : FabMsg) : Fabric :=
  let f := { f with arrived := f.arrived.erase m }
  match takeFirst (fun b : FabMsg × Nat × Nat => b.1 = m) f.buffers with
  | some (b, l) => Fabric.owe { f with buffers := l } b.2.1 b.2.2 m.slots
  | none => f

/-- The buffer of a forwarded message is free again (R366). -/
def Fabric.leave (f : Fabric) (o : OutMsg) : Fabric :=
  match o.inBuf with
  | some (e, vc) => f.owe e vc o.msg.slots
  | none => f

def State.linkIsUp (s : State) (e : Nat) : Bool := s.eng e 1 = 2

/-- Lane loss (0x9009). -/
def State.laneEvent (s : State) (cause e lane : Nat) (inj : Bool := false) : State :=
  s.raise { det := 0x9009, sev := if cause = 2 then 3 else 1, cause := cause, detail := e * 256 + lane, injected := inj }

/-! ### Messages -/

/-- The class is ordered (Table 7 of 11). -/
def classOrdered (c : Nat) : Bool := c = 1 || c = 2 || c = 4 || c = 5

/-- An empty message of a class and type to a module. -/
def State.msgTo (s : State) (cls kind dst : Nat) : FabMsg :=
  { cls := cls, kind := kind, src := s.me, dst := dst, tag := 0, flags := 0, table := 0, row := 0, addr := 0, count := 0,
    mark := 0, step := 0, status := 0, data := [] }

/-! ### Routes (R372 to R375) -/

def State.route (s : State) (dst : Nat) : Nat := leNat (((s.blob 0x8040 1).drop (2 * dst)).take 2)

def State.trunk (s : State) (t : Nat) : Nat := s.reg 0x8030 (t + 1)

def trunkValid (w : Nat) : Bool := w.testBit 31
def trunkDim (w : Nat) : Nat := w / 2 ^ 29 % 4
def trunkDateline (w : Nat) : Bool := w.testBit 28
def trunkEngines (w : Nat) : List Nat := maskList 24 w

/-- Trunk of the route to a module. -/
def State.routeTrunk (s : State) (dst : Nat) : Option Nat :=
  let r := s.route dst
  if r.testBit 15 && !r.testBit 14 && trunkValid (s.trunk (r % 8)) then some (r % 8) else none

/-- Dateline bit with which a message leaves on a trunk: 0 at its source (R373). -/
def State.datelineBit (s : State) (o : OutMsg) (t : Nat) : Bool :=
  let w := s.trunk t
  !o.own && (
  let kept := match o.inTrunk with
    | some i => o.inBit && trunkDim (s.trunk i) = trunkDim w
    | none => false
  kept || trunkDateline w)

/-- VC of a message (R368). -/
def vcOf (m : FabMsg) (bit : Bool) : Nat :=
  (match m.response with
    | some k => 12 + 2 * k
    | none => 2 * m.cls) + boolNat bit

/-- Of UP links, the one with the most free credits on a VC; ties go to the lower engine (R375). -/
def State.bestLink (s : State) (vc : Nat) : List Nat → Option Nat
  | [] => none
  | e :: l =>
    match s.bestLink vc l with
    | none => if s.linkIsUp e then some e else none
    | some b =>
      if s.linkIsUp e && SMap.get 0 (s.link b).credits vc ≤ SMap.get 0 (s.link e).credits vc then some e else some b

/-- Link of a trunk that a message takes. A member of the ordered set that has been DOWN since the trunk entry took effect takes no
ordered message (R375). -/
def State.pickLink (s : State) (t : Nat) (m : FabMsg) (vc : Nat) : Option Nat :=
  let all := trunkEngines (s.trunk t)
  if classOrdered m.cls then
    let set := all.filter fun e => maskBit (SMap.get 0 s.fab.ordered t) e
    if set.isEmpty then none
    else
      let k := (m.src + m.dst + m.cls) % set.length
      (set.drop k ++ set.take k).find? fun e => s.linkIsUp e && !maskBit (SMap.get 0 s.fab.lapsed t) e
  else s.bestLink vc all

/-- Slots that the last flit of a link still has for a VC: messages of one VC are packed back to back into its flits, and a flit stays
open for the control cycle in which it is sent (Table 6 of 11; log entry 69). -/
def Link.room (l : Link) (vc now : Nat) : Nat :=
  match l.held.getLast? with
  | some f => if f.vc = vc && f.cycle = now && f.replays = 0 then 15 - f.used else 0
  | none => 0

/-- Flits that a message of n slots adds to those that a link holds. -/
def Link.newFlits (l : Link) (vc now n : Nat) : Nat := ceilDiv (n - l.room vc now) 15

/-- Credits to return, as the link header holds them: of one VC in a flit, and at most 4,095 slots (Table 5 of 11). -/
def Link.returns (l : Link) : List (Nat × Nat) :=
  l.owed.flatMap fun p => (List.range (ceilDiv p.2 4095)).map fun i => (p.1, min 4095 (p.2 - 4095 * i))

/-- The link header of a flit of this end, with the credits of a VC (R364). -/
def Link.head (l : Link) (nak ack : Bool) (r : Nat × Nat) : LinkHeader :=
  { ackSeq := l.lastRecv, ackValid := l.received, nak := nak, creditVc := r.1, credits := r.2, spareReq := l.rxSpare, spareAck := ack }

/-- Put a message on a link: it takes the slots that the open flit has left, and its further flits take the next sequence numbers; it
ends in the last of them. The header of a new flit acknowledges, and returns the credits of one VC (R364 to R366; that a data flit's
header carries the acknowledgement of R365 is DEDUCED, log entry 69). -/
def Link.pack (l : Link) (vc now : Nat) (o : OutMsg) : Link :=
  let n := o.msg.slots
  let room := l.room vc now
  let k := l.newFlits vc now n
  let fill (f : HeldFlit) : HeldFlit :=
    { f with used := f.used + min room n, firstSlot := min f.firstSlot f.used, content := f.content ++ o.msg.bytes.take (16 * room),
             msgs := if k = 0 then f.msgs ++ [o] else f.msgs }
  let open' := if room = 0 then l.held else l.held.dropLast ++ (l.held.getLast?.map fill).toList
  let fresh := (List.range k).map fun i =>
    ({ seq := (l.nextSeq + i) % 4096, msgs := if i + 1 = k then [o] else [], replays := 0, vc := vc,
       used := min 15 (n - room - 15 * i), firstSlot := if i = 0 && room = 0 then 0 else 15,
       head := l.head false false (l.returns.getD i (0, 0)),
       content := (o.msg.bytes.drop (16 * (room + 15 * i))).take 240, cycle := now } : HeldFlit)
  { l with held := open' ++ fresh, nextSeq := (l.nextSeq + k) % 4096,
           progress := if l.held.isEmpty then now else l.progress,
           unacked := if k = 0 then l.unacked else 0,
           owed := (l.returns.take k).foldl (fun w r => SMap.mod 0 w r.1 fun c => c - r.2) l.owed }

/-- The 256 bytes of a flit that is held, and of a control flit (Table 4 of 11). -/
def HeldFlit.bytes (f : HeldFlit) : List Byte := flitBytes (headerWord f.head f.seq 0 f.vc f.firstSlot) f.content
def ctlBytes (f : CtlFlit) : List Byte := flitBytes (headerWord f.head f.seq 1 0 15) []

/-- Send a message on a link (R365, R366). -/
def State.transmit (s : State) (e vc : Nat) (o : OutMsg) : State :=
  let l := (s.link e).pack vc s.now { o with inBuf := none }
  let s := s.setLink e { l with credits := SMap.mod 0 l.credits vc fun c => c - o.msg.slots }
  let s := { s with fab := s.fab.leave o }
  let s := s.bump 0x8001 (o.msg.cls + 1) o.msg.data.length
  if o.own && o.msg.response.isNone then { s with fab := { s.fab with sent := s.fab.sent ++ [o] } } else s

/-- An UP link to the same neighbour as engine e. -/
def State.otherLink (s : State) (e : Nat) : Option Nat :=
  (List.range 24).find? fun k => k ≠ e && s.linkIsUp k && s.eng k 2 / 256 = s.eng e 2 / 256

/-- A message of the same ordered flow comes before this one (R370). -/
def flowBlocked (before : List OutMsg) (o : OutMsg) : Bool :=
  classOrdered o.msg.cls && before.any fun k =>
    !k.dead && k.msg.cls = o.msg.cls && k.msg.src = o.msg.src && k.msg.dst = o.msg.dst && k.msg.response = o.msg.response

/-- The messages of the flits that wait for LINK_REPORT: new messages of their flows come after them (R370, R376). -/
def Fabric.past (f : Fabric) : List OutMsg := f.links.flatMap fun p => p.2.past.flatMap fun h => h.msgs

/-- A change of routes holds the message: one to its destination that was sent before is still to be answered (R377). -/
def Fabric.holdsMsg (f : Fabric) (o : OutMsg) : Bool :=
  o.own && classOrdered o.msg.cls && o.msg.response.isNone &&
    f.holds.any fun c => c.any (fun q => q.1 = o.msg.dst) && !c.any fun q => q.2 = o.id

/-- A link takes a message on a VC: it has the credits, and its replay buffer has the space (R365, R366). -/
def State.linkTakes (s : State) (e vc : Nat) (o : OutMsg) : Option (Nat × Nat) :=
  let l := s.link e
  if o.msg.slots ≤ SMap.get 0 l.credits vc && l.held.length + l.newFlits vc s.now o.msg.slots ≤ 2048 then some (e, vc) else none

/-- The link and VC on which a waiting message can leave now: it has a route, an UP link, credits and replay space (R365, R366,
R375). The report of a DOWN link goes over another link to the same neighbour, on VC 14 (R376). -/
def State.exitOf (s : State) (o : OutMsg) : Option (Nat × Nat) :=
  if o.dead || s.fab.holdsMsg o || flowBlocked s.fab.past o then none
  else match o.use with
    | .report e => (s.otherLink e).bind fun k => s.linkTakes k 14 o
    | _ => (s.routeTrunk o.msg.dst).bind fun t =>
      let vc := vcOf o.msg (s.datelineBit o t)
      (s.pickLink t o.msg vc).bind fun e => s.linkTakes e vc o

/-- Send what can be sent, in order of waiting; a message that stays holds back later ones of its own ordered flow
(R370). -/
def State.pumpList (s : State) (kept : List OutMsg) : List OutMsg → State × List OutMsg
  | [] => (s, kept)
  | o :: l =>
    match (if flowBlocked kept o then none else s.exitOf o) with
    | some (e, vc) => (s.transmit e vc o).pumpList kept l
    | none => s.pumpList (kept ++ [o]) l

/-- Of the messages that wait, those that can leave now, each with its link and VC. -/
def State.leaving (s : State) (kept : List OutMsg) : List OutMsg → List (OutMsg × Nat × Nat)
  | [] => []
  | o :: l =>
    match (if flowBlocked kept o then none else s.exitOf o) with
    | some x => (o, x) :: s.leaving (kept ++ [o]) l
    | none => s.leaving (kept ++ [o]) l

/-- Deficit round-robin among the classes of a link (R369): head gives the slots of the message that a class would send next. The
class whose turn it is sends while its deficit covers its message; else it gains its weight and the turn passes on. The
first argument is the fuel: the slots of a message are at most 255, and a weight is at least 1. -/
def drrPick (weight : Nat → Nat) (head : Nat → Option Nat) : Nat → Nat → SMap Nat → Nat × SMap Nat
  | 0, t, d => (t, d)
  | n + 1, t, d =>
    match head t with
    | none => drrPick weight head n ((t + 1) % 6) (SMap.erase d t)
    | some k =>
      if k ≤ SMap.get 0 d t then (t, SMap.set 0 d t (SMap.get 0 d t - k))
      else drrPick weight head n ((t + 1) % 6) (SMap.mod 0 d t fun c => c + max (weight t) 1)

/-- Requests leave one at a time, on each link by the turns of their classes (R369); the first argument is the fuel. -/
def State.pumpTurns : Nat → State → List OutMsg → State × List OutMsg
  | 0, s, l => (s, l)
  | n + 1, s, l =>
    match s.leaving [] l with
    | [] => (s, l)
    | (o, e, vc) :: rest =>
      let mine := (o, e, vc) :: rest.filter fun x => x.2.1 = e
      let head (c : Nat) : Option Nat := (mine.find? fun x => x.1.msg.cls = c).map fun x => x.1.msg.slots
      let (c, d) := drrPick (fun c => s.reg 0x8051 (c + 1)) head 1600 (s.link e).turn (s.link e).deficit
      let x := (mine.find? fun x => x.1.msg.cls = c).getD (o, e, vc)
      let s := s.modLink e fun k => { k with turn := c, deficit := d }
      State.pumpTurns n (s.transmit e x.2.2 x.1) (l.filter fun y => y.id ≠ x.1.id)

/-- The messages that wait leave: responses and reports first, in order, then requests by the turns of their classes (R369). -/
def State.pump (s : State) : State :=
  let r := s.pumpList [] (s.fab.waiting.filter fun o => o.msg.response.isSome)
  let rest := s.fab.waiting.filter fun o => o.msg.response.isNone
  let q := State.pumpTurns rest.length r.1 rest
  { q.1 with fab := { q.1.fab with waiting := r.2 ++ q.2 } }

/-- Send a message of this module; a request takes a fresh tag (R368). -/
def State.send (s : State) (m : FabMsg) (use : MsgFor) : State :=
  let id := s.fab.nextId
  let m := if m.response.isNone then { m with tag := id % 65536 } else m
  let o : OutMsg := { id := id, msg := m, use := use, own := true, inTrunk := none, inBit := false, inBuf := none,
                      since := s.now, dead := false }
  let s := { s with fab := { s.fab with nextId := id + 1, waiting := s.fab.waiting ++ [o] } }
  (if s.fab.holdsMsg o then s.bump 0x8000 7 1 else s).pump

/-- The request that a response answers, taken off the list of those sent. -/
def State.answered (s : State) (m : FabMsg) : State × Option OutMsg :=
  match takeFirst (fun o : OutMsg => o.msg.tag = m.tag && o.msg.dst = m.src) s.fab.sent with
  | some (o, l) => ({ s with fab := { s.fab with sent := l } }, some o)
  | none => (s, none)

/-! ### Route changes (R377) -/

/-- Messages that have been answered, or have been found unreachable, hold nothing back any more: a change all of whose earlier messages
are gone is complete, and route_epoch rises for it (R377). -/
def State.releaseHolds (s : State) : State :=
  if s.fab.holds.isEmpty then s
  else
    let live (q : Nat × Nat) : Bool := s.fab.sent.any (fun o => o.id = q.2) || s.fab.waiting.any fun o => o.id = q.2
    let left := s.fab.holds.map fun c => c.filter live
    let s := { s with fab := { s.fab with holds := left.filter fun c => !c.isEmpty } }
    (s.bump 0x8000 6 (left.filter fun c => c.isEmpty).length).pump

/-- The ordered set of each trunk whose entry takes effect: its members whose link is UP (R375). -/
def State.newOrdered (s : State) (t : Nat) : State :=
  let m := (trunkEngines (s.trunk t)).foldl (fun m e => if s.linkIsUp e then maskSet m e else m) 0
  { s with fab := { s.fab with ordered := SMap.set 0 s.fab.ordered t m, lapsed := SMap.erase s.fab.lapsed t } }

/-- A change of routes or trunks takes effect: old is the state before it. For the destinations whose route or ordered set changes, the
ordered messages sent and not yet answered hold back those not yet sent (R377). -/
def State.routesChanged (s old : State) (trunks : List Nat) : State :=
  let s := trunks.foldl State.newOrdered s
  let moved := (List.range 64).filter fun d =>
    s.route d ≠ old.route d || match s.routeTrunk d with
      | some t => trunks.contains t && SMap.get 0 s.fab.ordered t ≠ SMap.get 0 old.fab.ordered t
      | none => false
  let before := (s.fab.sent.filter fun o => moved.contains o.msg.dst && classOrdered o.msg.cls).map fun o => (o.msg.dst, o.id)
  let f := { s.fab with holds := s.fab.holds ++ [before] }
  let fresh := s.fab.waiting.filter fun o => f.holdsMsg o && !s.fab.holdsMsg o
  ({ s with fab := f }.bump 0x8000 7 fresh.length).releaseHolds

/-- Store bytes of the route table; the reserved bits of an entry read 0 (R9, R372). -/
def State.writeRoutes (s : State) (offset : Nat) (bytes : List Byte) : State :=
  s.setBlob 0x8040 1 (keepBits [7, 192] ((putBytes (s.blob 0x8040 1) offset bytes).take 128))

/-! ### Links going UP and DOWN (R363, R367, R376) -/

/-- The DEGRADED cause of links that are late (Table 2 of 14). -/
def State.judgeLinks (s : State) : State := s.setCause 3 (s.fab.late ≠ 0)

/-- Verdicts and announcements never time out (R378). -/
def neverTimesOut (m : FabMsg) : Bool := m.kind = 0x05 || m.kind = 0x06

/-- The messages of the flits that a DOWN link holds are treated as unreachable: those of this module at their source, the others are
counted; verdicts and announcements wait on (R376, R378). -/
def State.loseHeld (s : State) (e : Nat) : State :=
  let lost := ((s.link e).past ++ (s.link e).held).flatMap fun f => f.msgs
  let back (o : OutMsg) : OutMsg := if neverTimesOut o.msg then { o with since := s.now } else { o with dead := true }
  let s := s.modLink e fun l => { l with held := [], past := [], awaiting := false }
  let s := { s with fab := { s.fab with
    sent := s.fab.sent.filter fun o => !lost.any fun x => x.id = o.id,
    waiting := (lost.filter fun o => o.own || neverTimesOut o.msg).map back ++ s.fab.waiting } }
  (lost.filter fun o => !o.own && !neverTimesOut o.msg).foldl (fun s _ => s.bump 0x8003 5 1) s

/-- Links to the neighbour of engine e that are DOWN: what they hold is lost where no link to it is left to report over. -/
def State.stranded (s : State) (e : Nat) : List Nat :=
  (List.range 24).filter fun k => !s.linkIsUp k && s.eng k 2 / 256 = s.eng e 2 / 256

/-- Members of ordered sets lapse with their link (R375). -/
def State.lapse (s : State) (e : Nat) : State :=
  { s with fab := { s.fab with lapsed := (List.range 8).foldl (fun m t =>
      if maskBit (SMap.get 0 s.fab.ordered t) e then SMap.mod 0 m t fun k => maskSet k e else m) s.fab.lapsed } }

/-- The report of engine e's link waits to leave (R376). -/
def State.report (s : State) (e : Nat) : State :=
  let m := { s.msgTo 0 0x12 (s.eng e 2 / 256) with tag := s.eng e 2 % 32, count := (s.link e).lastRecv }
  let o : OutMsg := { id := s.fab.nextId, msg := m, use := .report e, own := true, inTrunk := none, inBit := false, inBuf := none,
                      since := s.now, dead := false }
  { s with fab := { s.fab with nextId := s.fab.nextId + 1, waiting := s.fab.waiting ++ [o] } }

/-- The report belongs to one of some links. -/
def reportOf (es : List Nat) (o : OutMsg) : Bool :=
  match o.use with
  | .report k => es.contains k
  | _ => false

/-- Take a link DOWN: the held flits wait for LINK_REPORT, or are unreachable where no other link to the neighbour is UP;
the last sequence number received is reported over another link (R376). -/
def State.linkDrop (s : State) (e : Nat) : State :=
  if s.eng e 1 = 0 then s
  else
    let was := s.linkIsUp e
    let s := (s.setEng e 1 0).modLink e fun l => { l with downAt := s.now }
    if !was then s
    else
      let s := (s.lapse e).modLink e fun l => { l with past := l.past ++ l.held, held := [], awaiting := true }
      match s.otherLink e with
      | some _ => (s.report e).pump
      | none =>
        let es := s.stranded e
        let s := es.foldl State.loseHeld s
        { s with fab := { s.fab with waiting := s.fab.waiting.filter fun o => !reportOf es o } }

/-- A link goes DOWN under R367: counted, and the lane loss event is raised. -/
def State.linkDown (s : State) (e : Nat) (inj : Bool := false) : State :=
  if s.linkIsUp e then ((s.linkDrop e).bump 0x8003 4 1).laneEvent 2 e 0 inj else s.linkDrop e

/-- Lanes marked failed in a direction: 0 transmit, 1 receive. -/
def State.failedLanes (s : State) (e dir : Nat) : Nat := s.eng e 4 / 2 ^ (16 * dir) % 512

/-- Two failed lanes in one direction keep the link DOWN (R363, R485). -/
def State.laneBlocked (s : State) (e : Nat) : Bool :=
  1 < maskCount 9 (s.failedLanes e 0) || 1 < maskCount 9 (s.failedLanes e 1)

/-- Start training an enabled link that is DOWN, in SERVING, on a die that has not stopped (R463, R486). -/
def State.startTraining (s : State) (e : Nat) : State :=
  if s.top.dev = .serving && !s.top.stopped.get (e / 12) && maskBit (s.reg 0x8000 2) e && s.eng e 1 = 0 && !s.laneBlocked e
      && maskBit (s.reg 0x1200 11) e then
    s.setEng e 1 1
  else s

/-- LINK_RETRAIN: a DOWN link retrains 1 s after it went DOWN (R367). -/
def execLinkRetrain (e : Nat) (s : State) : Host.Outcome State Fault Refusal :=
  .next (if usCycles 1000000 ≤ s.now - (s.link e).downAt then s.startTraining e else s)

/-- The receive half of the lane map after training: every lane on its own place, but for one that has failed and has the spare
(R362, R471, R485; log entry 69). -/
def State.trainedLanes (s : State) (e : Nat) : Nat :=
  let bad := s.failedLanes e 1
  ((List.range 8).map fun l => (if maskBit bad l && !maskBit bad 8 then 8 else l) * 2 ^ (4 * l)).sum

/-- Store the receive half of the lane map. -/
def State.mapLanes (s : State) (e : Nat) : State := s.setEng e 3 (s.eng e 3 % 2 ^ 32 + s.trainedLanes e * 2 ^ 32)

/-- A link begins with fresh sequence numbers, and with the credits of the credit entries (R366). The flits that wait for LINK_REPORT
wait on (R376). -/
def State.freshLink (s : State) (e : Nat) : State :=
  let cr := (List.range 16).foldl (fun m v => SMap.set 0 m v (s.reg 0x8050 (v + 1))) []
  s.setLink e { Link.init with credits := cr, progress := s.now, replayAt := s.now, upAt := s.now, past := (s.link e).past,
                               awaiting := (s.link e).awaiting }

/-- LINK_UP: training completes, or finds a lane on another number (R358, R486). -/
def execLinkUp (e peer : Nat) (lanesOk : Bool) (s : State) : Host.Outcome State Fault Refusal :=
  .next (
    if s.eng e 1 ≠ 1 then s
    else if !lanesOk then
      (((s.setEng e 1 0).setEng e 4 (maskSet (s.eng e 4) 31)).modLink e fun l => { l with downAt := s.now }).laneEvent 4 e 0
    else
      let s := if s.eng e 2 / 256 = peer / 256 then s else s.loseHeld e
      let s := ((s.freshLink e).setEng e 1 2).setEng e 2 peer
      let s := s.mapLanes e
      let s := { s.setEng e 8 (Config.freeValue s.free).toNat with free := s.free + 1 }
      let old (o : OutMsg) : OutMsg := if o.inBuf.any fun b => b.1 = e then { o with inBuf := none } else o
      let s := { s with fab := { s.fab with late := maskClear s.fab.late e, waiting := s.fab.waiting.map old,
                                            buffers := s.fab.buffers.filter fun b => b.2.1 ≠ e },
                         av := { s.av with injectedLanes := s.av.injectedLanes.filter fun q => q.1 / 16 ≠ e } }
      s.judgeLinks.pump)

/-- Store link_enable: cleared bits take links DOWN, set bits start training (R367, R486). -/
def State.writeLinkEnable (s : State) (v : Nat) : State :=
  let old := s.reg 0x8000 2
  let s := s.setReg 0x8000 2 v
  let s := (List.range 24).foldl (fun s e =>
    if maskBit v e then
      (if maskBit old e then s
       else State.startTraining { s with av := { s.av with linkFrom := SMap.set 0 s.av.linkFrom e (s.now + 1) } } e)
    else
      let s := if maskBit old e then s.linkDown e else s
      { s with fab := { s.fab with late := maskClear s.fab.late e } }) s
  s.judgeLinks

/-- LINK_UP_TIMEOUT (R453). -/
def execLinkUpTimeout (e : Nat) (s : State) : Host.Outcome State Fault Refusal :=
  .next (
    let from' := SMap.get 0 s.av.linkFrom e
    if s.top.dev = .serving && maskBit (s.reg 0x8000 2) e && !s.linkIsUp e && from' ≠ 0
        && usCycles 2000000 ≤ s.now + 1 - from' then
      State.judgeLinks { s with fab := { s.fab with late := maskSet s.fab.late e } }
    else s)

/-- The message that brought a report is consumed (R366). -/
def State.takeReport (s : State) (e seq : Nat) : State :=
  match s.fab.arrived.find? fun m => m.kind = 0x12 && m.tag = e && m.count = seq with
  | some m => { s with fab := s.fab.consume m }
  | none => s

/-- LINK_REPORT: the flits after the last one delivered move, in order, ahead of new messages. A report that finds the link UP here says
that the other end has taken it DOWN (R376). -/
def execLinkReport (e seq : Nat) (s : State) : Host.Outcome State Fault Refusal :=
  .next (
    let s := s.takeReport e seq
    let s := if s.linkIsUp e && !(s.link e).awaiting then s.linkDown e else s
    let later := (s.link e).past.filter fun f => (f.seq + 4096 - seq) % 4096 ≠ 0 && (f.seq + 4096 - seq) % 4096 ≤ 2048
    let msgs := later.flatMap fun f => f.msgs
    let s := s.modLink e fun l => { l with past := [], awaiting := false }
    let s := { s with fab := { s.fab with
      sent := s.fab.sent.filter fun o => !msgs.any fun x => x.id = o.id,
      waiting := msgs.map (fun o : OutMsg => { o with since := s.now }) ++ s.fab.waiting } }
    let s := if msgs.any fun o => classOrdered o.msg.cls then s.laneEvent 3 e 0 else s
    s.pump)

/-! ### Flits (R364 to R367) -/

/-- A control flit of this end, with the credits of a VC (R364). -/
def Link.ctlFlit (l : Link) (nak ack : Bool) (r : Nat × Nat) : CtlFlit :=
  { seq := l.nextSeq, crcOk := true, code := [], head := l.head nak ack r }

/-- Send the acknowledgement, a NAK, the credits to return, and a request or an acknowledgement of the spare, in as many control flits
as the credits take (R362, R364 to R366). -/
def State.sendCtl (s : State) (e : Nat) (nak : Bool) (ack : Bool := false) : State :=
  s.modLink e fun l =>
    { l with unacked := 0, owed := [],
             sentCtl := match l.returns with
               | [] => [l.ctlFlit nak ack (0, 0)]
               | r :: rs => l.ctlFlit nak ack r :: rs.map (l.ctlFlit false ack) }

/-- A message that ends in an accepted flit: consumed where it is addressed to this module, forwarded otherwise (R371). -/
def State.takeMsg (s : State) (e vc : Nat) (m : FabMsg) : State :=
  if m.dst = s.me then
    let s := s.bump 0x8002 (m.cls + 1) m.data.length
    { s with fab := { s.fab with arrived := s.fab.arrived ++ [m], buffers := s.fab.buffers ++ [(m, e, vc)] } }
  else
    let t := (List.range 8).find? fun t => trunkValid (s.trunk t) && (trunkEngines (s.trunk t)).contains e
    { s with fab := { s.fab with nextId := s.fab.nextId + 1, waiting := s.fab.waiting ++
        [{ id := s.fab.nextId, msg := m, use := .none, own := false, inTrunk := t, inBit := vc % 2 = 1, inBuf := some (e, vc),
           since := s.now, dead := false }] } }

/-- Detector of codewords and CRC (0x9008). -/
def State.crcEvent (s : State) (cause e lane : Nat) (inj : Bool) : State :=
  s.raise { det := 0x9008, sev := 1, cause := cause, detail := e * 256 + lane, injected := inj }

/-- A flit that cannot be accepted: one NAK for the gap (R365). -/
def State.refuseFlit (s : State) (e : Nat) : State :=
  if (s.link e).nakSent then s else (s.sendCtl e true).modLink e fun l => { l with nakSent := true }

/-- The spare of a direction is in use: 0 transmit, 1 receive. -/
def State.spareUsed (s : State) (e dir : Nat) : Bool :=
  (List.range 8).any fun l => s.eng e 3 / 2 ^ (32 * dir + 4 * l) % 16 = 8

/-- An injected lane is dead: sparing is asked for, and a direction whose spare has failed takes the link DOWN (R362, R363). -/
def State.deadLane (s : State) (e l : Nat) : State :=
  if maskBit (s.failedLanes e 1) 8 then s.linkDown e true
  else
    let s := { s with av := { s.av with injectedLanes := SMap.set 0 s.av.injectedLanes (16 * e + l) (s.now + 1) } }
    (s.modLink e fun x => { x with rxSpare := some l }).sendCtl e false

/-- An injection on a lane at a flit (Table 7 of 14): the lane is treated as dead; refused while the spare is in use. -/
def State.injectLane (s : State) (e : Nat) : State :=
  match (List.range 8).find? fun l => s.armed 0x9009 e l with
  | some l => if s.spareUsed e 1 || (s.link e).rxSpare.isSome then s else (s.consume 0x9009).deadLane e l
  | none => s

/-! ### Codewords (R359 to R363) -/

/-- Logical lane that a direction carries on a physical lane. -/
def State.lanesOn (s : State) (e dir phys : Nat) : Option Nat :=
  (List.range 8).find? fun l => s.eng e 3 / 2 ^ (32 * dir + 4 * l) % 16 = phys

def State.laneRx (s : State) (e p : Nat) : LaneRx := SMap.get LaneRx.init (s.link e).lanes p

def State.setLaneRx (s : State) (e p : Nat) (x : LaneRx) : State :=
  s.modLink e fun l => { l with lanes := SMap.set LaneRx.init l.lanes p x }

/-- The transmit lane map and the codeword counter: a physical lane carries its logical lane, and the spare also the lane that the other
end asks to move to it, or an idle codeword with lane 0xF (R359, R361, R362). -/
def State.txLane (s : State) (e p : Nat) : Option Nat :=
  match s.lanesOn e 0 p with
  | some l => some l
  | none => if p = 8 && !maskBit (s.failedLanes e 0) 8 then some ((s.link e).txSpare.getD 0xF) else none

/-- Codewords begun since the link came UP, modulo 256: one in each 25.6 ns, and 2.5 ns in a control cycle (R359). -/
def State.txCounter (s : State) (e : Nat) : Nat := (s.now - (s.link e).upAt) * 25 / 256 % 256

/-- The codeword that a physical lane of a link sends in this codeword period, over the 20 flits of the period (R359). -/
def State.txCodeword (s : State) (e p : Nat) (flits : List (List Byte)) : Option (List Nat) :=
  (s.txLane e p).map fun l => laneCodeword l (s.txCounter e) (if l = 0xF then [] else flits)

/-- A receive lane fails (R361 to R363). The spare is used from the moment at which a lane waits for it. -/
def State.failLane (s : State) (e lane : Nat) : State :=
  if 8 < lane || maskBit (s.failedLanes e 1) lane then s
  else
    let spareGood := !maskBit (s.failedLanes e 1) 8 && !s.spareUsed e 1 && (s.link e).rxSpare.isNone
    let s := (s.setEng e 4 (maskSet (s.eng e 4) (16 + lane))).setLaneRx e lane LaneRx.init
    match s.lanesOn e 1 lane with
    | none =>
      if lane ≠ 8 then s
      else if (s.link e).rxSpare.isSome then s.linkDown e
      else s.laneEvent 1 e lane
    | some l =>
      if spareGood then (s.modLink e fun x => { x with rxSpare := some l }).sendCtl e false
      else s.linkDown e

/-- The logical lanes that a physical lane's framing words may name: its own; on the spare, 0xF while it is idle, and the lane that
moves onto it (R359, R361, R362). A lane that the spare has replaced carries none. -/
def State.framedLanes (s : State) (e p : Nat) : List Nat :=
  match s.lanesOn e 1 p with
  | some l => [l]
  | none => if p = 8 then 0xF :: (s.link e).rxSpare.toList else []

/-- Some receive lane in use is more than two codeword periods, 51.2 ns, away from a counter (R359). -/
def State.skewed (s : State) (e counter : Nat) : Bool :=
  (List.range 8).any fun l =>
    match (s.laneRx e (s.eng e 3 / 2 ^ (32 + 4 * l) % 16)).counter with
    | some k => decide (2 < min ((counter + 256 - k) % 256) ((k + 256 - counter) % 256))
    | none => false

/-- The decoder takes a codeword of a lane: up to 15 symbol errors are corrected and counted; with more it is uncorrectable, and its
stripes of the period's flits are passed on as they are (R360). The lane fails where its framing word is not the one that follows,
where it cannot be aligned, or where the codewords of the last 1 ms exceed lane_ucw_limit or lane_ser_limit (R359, R361). An
injection makes the codeword uncorrectable (Table 7 of 14). -/
def State.takeCodeword (s : State) (e : Nat) (w : Codeword) : State :=
  let names := s.framedLanes e w.lane
  if 8 < w.lane || maskBit (s.failedLanes e 1) w.lane || names.isEmpty then s
  else
    let x := s.laneRx e w.lane
    let inj := w.errors ≤ 15 && s.armed 0x9008 e w.lane
    let s := if inj then s.consume 0x9008 else s
    let n := if inj then 16 else w.errors
    let next := match x.counter with
      | some k => (k + 1) % 256
      | none => w.framing / 2 ^ 12 % 256
    let log := (x.log.filter fun r => s.now < r.1 + usCycles 1000) ++ (if n = 0 then [] else [(s.now, n)])
    if 15 < n then
      let s := s.setLaneRx e w.lane { counter := x.counter.map fun _ => next, bad := true, log := log }
      let s := (s.setEng e 6 (s.eng e 6 + 1)).crcEvent 0 e w.lane inj
      if s.reg 0x8000 4 < (log.filter fun r => 15 < r.2).length then s.failLane e w.lane else s
    else
      let framed := names.any fun l => w.framing = framingWord l next
      let s := s.setEng e 5 (s.eng e 5 + n)
      let lost := !framed || s.skewed e next
      let s := s.setLaneRx e w.lane { counter := some next, bad := lost, log := log }
      if lost || ratioAbove ((log.filter fun r => r.2 ≤ 15).map (·.2)).sum symbolsPerMs (dec32 (BitVec.ofNat 32 (s.reg 0x8000 5))) then
        s.failLane e w.lane
      else s

/-- A stripe of the flits of the period in progress is not good: of a lane whose codeword is uncorrectable, or of one that waits for
the spare (R360, R362). -/
def State.stripeBad (s : State) (e : Nat) : Bool :=
  (List.range 8).any fun l =>
    (s.laneRx e (s.eng e 3 / 2 ^ (32 + 4 * l) % 16)).bad || (s.link e).rxSpare == some l

/-- A flit fails its CRC: counted, reported and refused (R365). -/
def State.badFlit (s : State) (e : Nat) : State := ((s.bump 0x8003 2 1).crcEvent 1 e 0 false).refuseFlit e

/-- Resend every held flit (R365); a flit replayed 16 times takes the link DOWN (R367). -/
def State.replay (s : State) (e : Nat) : State :=
  let s := (s.bump 0x8003 1 1).setEng e 7 (s.eng e 7 + 1)
  let s := s.modLink e fun l => { l with held := l.held.map fun f => { f with replays := f.replays + 1 }, replayAt := s.now }
  if (s.link e).held.any fun f => 16 ≤ f.replays then s.linkDown e else s

/-- Drop the held flits up to an acknowledged sequence number. -/
def ackHeld (seq : Nat) (l : List HeldFlit) : List HeldFlit :=
  if l.any fun f => f.seq = seq then (l.dropWhile fun f => f.seq ≠ seq).drop 1 else l

/-- Logical lane that a header asks to move to the spare; none where it is there already. -/
def State.spareAsked (s : State) (e : Nat) (h : LinkHeader) : Option Nat :=
  match h.spareReq with
  | some i => if s.lanesOn e 0 8 = some (i % 8) then none else some (i % 8)
  | none => none

/-- What a link header tells the sender: flits acknowledged, credits of a VC returned, the spare asked for, and a switch to it made
(Table 5 of 11). -/
def State.readHeader (s : State) (e : Nat) (h : LinkHeader) : State :=
  let ask := s.spareAsked e h
  s.modLink e fun l =>
    let held := if h.ackValid then ackHeld (h.ackSeq % 4096) l.held else l.held
    { l with held := held, progress := if held.length < l.held.length then s.now else l.progress,
             credits := SMap.mod 0 l.credits (h.creditVc % 16) fun c => c + h.credits % 4096,
             txSpare := if ask.isSome then ask else l.txSpare,
             txAcked := h.spareAck || (l.txAcked && ask.isNone) }

/-- The header of a good flit; a NAK asks for the replay (R365). -/
def State.takeHeader (s : State) (e : Nat) (h : LinkHeader) : State :=
  let s := s.readHeader e h
  if h.nak then s.replay e else s

/-- DATA_FLIT (R365). -/
def execDataFlit (e : Nat) (f : Flit) (s : State) : Host.Outcome State Fault Refusal :=
  .next (
    if !s.linkIsUp e then s
    else
      let s := f.code.foldl (fun s w => s.takeCodeword e w) (s.injectLane e)
      if !s.linkIsUp e then s
      else if !f.crcOk || s.stripeBad e then s.badFlit e
      else if f.seq % 4096 ≠ ((s.link e).lastRecv + 1) % 4096 then s.refuseFlit e
      else
        let s := s.modLink e fun l => { l with lastRecv := f.seq % 4096, received := true, nakSent := false, unacked := l.unacked + 1 }
        let s := f.msgs.foldl (fun s m => s.takeMsg e f.vc m) s
        let s := if 64 ≤ (s.link e).unacked then s.sendCtl e false else s
        (s.takeHeader e f.head).pump)

/-- CONTROL_FLIT: acknowledgement, NAK, credits, spare requests and acknowledgements (R362, R364 to R366). -/
def execControlFlit (e : Nat) (f : CtlFlit) (s : State) : Host.Outcome State Fault Refusal :=
  .next (
    let s := if s.linkIsUp e then f.code.foldl (fun s w => s.takeCodeword e w) s else s
    if !s.linkIsUp e then s
    else if !f.crcOk || s.stripeBad e then s.badFlit e
    else (s.takeHeader e f.head).pump)

/-- REPLAY_TIMEOUT: 2 µs without progress of ack_seq, and since the last replay (R365). -/
def execReplayTimeout (e : Nat) (s : State) : Host.Outcome State Fault Refusal :=
  .next (let l := s.link e
    if s.linkIsUp e && !l.held.isEmpty && usCycles 2 ≤ s.now - max l.progress l.replayAt then s.replay e else s)

/-- ACK_TIMER: an acknowledgement at least every 200 ns, 80 control cycles, and the return of credits (R365, R366). -/
def execAckTimer (e : Nat) (s : State) : Host.Outcome State Fault Refusal :=
  .next (if s.linkIsUp e && ((s.link e).unacked ≠ 0 || !(s.link e).owed.isEmpty) then s.sendCtl e false else s)

/-- ACK_PROGRESS_TIMEOUT: no progress for 100 µs while flits are held takes the link DOWN (R367). -/
def execAckProgressTimeout (e : Nat) (s : State) : Host.Outcome State Fault Refusal :=
  .next (let l := s.link e
    if s.linkIsUp e && !l.held.isEmpty && usCycles 100 ≤ s.now - l.progress then s.linkDown e else s)

/-! ### Lane sparing (R361 to R363) -/

/-- Set lane l of a direction's map to a physical lane. -/
def State.setLane (s : State) (e dir l phys : Nat) : State :=
  let m := s.eng e 3
  let k := 32 * dir + 4 * l
  s.setEng e 3 (m - (m / 2 ^ k % 16) * 2 ^ k + phys * 2 ^ k)

/-- LANE_FAIL: a receive lane fails by loss of signal or of codeword lock (R361 to R363). -/
def execLaneFail (e lane : Nat) (s : State) : Host.Outcome State Fault Refusal := .next (s.failLane e lane)

/-- SPARE_SWITCH: the receiver has deskewed the spare and switches to it, or the sender sees the acknowledgement and stops
the failed lane (R362). -/
def execSpareSwitch (e : Nat) (tx : Bool) (s : State) : Host.Outcome State Fault Refusal :=
  .next (
    let dir := if tx then 0 else 1
    match (if tx then (if (s.link e).txAcked then (s.link e).txSpare else none) else (s.link e).rxSpare) with
    | none => s
    | some l =>
      let old := s.eng e 3 / 2 ^ (32 * dir + 4 * l) % 16
      let inj := !tx && SMap.get 0 s.av.injectedLanes (16 * e + l) ≠ 0
      let s := s.setLane e dir l 8
      let s := if tx then (s.modLink e fun x => { x with txSpare := none, txAcked := false }).setEng e 4 (maskSet (s.eng e 4) old)
        else (s.modLink e fun x => { x with rxSpare := none }).sendCtl e false true
      (s.bump 0x8003 3 1).laneEvent 0 e l inj)

/-- INJECTED_LANE_RETURN: 1 s after the injection, the lane returns to its own place, and the other end is told (Table 7 of 14). -/
def execInjectedLaneReturn (e lane : Nat) (s : State) : Host.Outcome State Fault Refusal :=
  .next (
    let k := 16 * e + lane
    let since := SMap.get 0 s.av.injectedLanes k
    if since = 0 || s.now + 1 < since + usCycles 1000000 then s
    else
      let s := { s with av := { s.av with injectedLanes := SMap.erase s.av.injectedLanes k } }
      if maskBit (s.failedLanes e 1) lane then s
      else
        ((s.setLane e 1 lane lane).modLink e fun l =>
          { l with rxSpare := if l.rxSpare = some lane then none else l.rxSpare }).sendCtl e false true)

/-! ### Reads and writes of a device address (R326 to R328) -/

/-- Messages of class 3 that write bytes of another module for a unit without a message rule of its own: one for each 512 B, for whose
answers nothing waits (log entry 27). -/
def State.sendBytes (s : State) (k a n : Nat) (data : List Byte) : State :=
  (List.range (ceilDiv n 512)).foldl (fun s i =>
    s.send { s.msgTo 3 0x0C k with addr := a + 512 * i, count := min 512 (n - 512 * i), row := i,
                                   data := (data.drop (512 * i)).take 512 } .none) s

/-- The bytes asked for at an address. -/
def State.fetchAt (s : State) (a n : Nat) : Option Fetch := s.fab.fetched.find? fun x => x.addr = a && x.size = n

/-- Every piece has come. -/
def Fetch.whole (x : Fetch) : Bool := (List.range (ceilDiv x.size 512)).all fun i => x.parts.any fun p => p.1 = i

/-- What a read of another module's bytes gives once they have come (R326, R328, R339). -/
def Fetch.out (x : Fetch) : ReadOut :=
  if x.parts.any fun p => p.2.1 = 1 then ⟨List.replicate x.size 0, [], true⟩
  else
    let piece (i : Nat) : List Byte := ((x.parts.find? fun p => p.1 = i).map fun p => p.2.2).getD []
    ⟨((List.range (ceilDiv x.size 512)).flatMap piece ++ List.replicate x.size 0).take x.size,
     (x.parts.filter fun p => p.2.1 ≠ 0).map fun p => x.addr + 512 * p.1, false⟩

/-- A command uses the bytes that have come; those that have not are wanted (R326). -/
def State.useFetch (s : State) (a n : Nat) : State × Option ReadOut :=
  match (s.fetchAt a n).filter Fetch.whole with
  | some x =>
    ({ s with fab := { s.fab with fetched := s.fab.fetched.map fun y => if y = x then { y with used := true } else y } }, some x.out)
  | none => ({ s with fab := { s.fab with wanted := s.fab.wanted ++ [(a, n)] } }, none)

/-- The bytes at a device address, those of another module as they have come. -/
def State.peekFar (s : State) (a n : Nat) : List Byte :=
  match s.place a with
  | .remote _ _ => (((s.fetchAt a n).filter Fetch.whole).map fun x => x.out.bytes).getD (List.replicate n 0)
  | _ => s.peek a n

/-- A look at bytes: those of another module are wanted first (R326). -/
def State.peekAsk (s : State) (a n : Nat) : State :=
  match s.place a with
  | .remote _ _ => (s.useFetch a n).1
  | _ => s

/-- Ask another module for bytes that are wanted, by READ messages of 512 B (R326, R382). -/
def State.askBytes (s : State) (a n : Nat) : State :=
  match s.fetchAt a n, s.place a with
  | none, .remote k l =>
    let s := { s with fab := { s.fab with fetched := s.fab.fetched ++ [⟨a, n, [], false⟩] } }
    (List.range (ceilDiv n 512)).foldl (fun s i =>
      s.send { s.msgTo 3 0x0B k with addr := l + 512 * i, count := min 512 (n - 512 * i), row := i } (.fetch a n)) s
  | _, _ => s

/-- Run what reads memory. Where it wants bytes of another module that have not come, nothing of it takes effect: the bytes are asked
for, and the command waits for them and is given again (R326; log entry 27). -/
def State.whenFetched (s : State) (run : State → State) : State :=
  let t := run s
  if t.fab.wanted ≠ s.fab.wanted then
    (t.fab.wanted.drop s.fab.wanted.length).foldl (fun s x => s.askBytes x.1 x.2) s
  else if t.fab.fetched.any fun x => x.used then
    { t with fab := { t.fab with fetched := t.fab.fetched.filter fun x => !x.used } }
  else t

/-- A piece of the bytes asked for has come, or has failed with a status. -/
def State.fetchPart (s : State) (a n i status : Nat) (bs : List Byte) : State :=
  { s with fab := { s.fab with fetched := s.fab.fetched.map fun x =>
      if x.addr = a && x.size = n then { x with parts := x.parts ++ [(i, status, bs)] } else x } }

/-- A read of n bytes for an account, and for a partition where one makes it. Another module's bytes come by messages
(State.whenFetched). -/
def State.readMem (s : State) (acct : Nat) (part : Option Nat) (a n : Nat) (narrow : Bool) (lost : List Nat) :
    State × ReadOut :=
  if !s.allows part a n false then (s.unmapped, ⟨List.replicate n 0, [], true⟩)
  else
    let s := s.charge acct (chargeSub (s.place a) false) n
    match s.place a with
    | .range u off =>
      let r := s.judgeUnits u lost (spansOf 32 off n)
      let s := r.1.requestRead u off n narrow r.2
      (s, ⟨s.rangeBytes u off n, r.2, false⟩)
    | .host h =>
      match (spansOf 32 a n).filter fun b => lost.contains (b / 32) with
      | [] => (s, ⟨s.bytesAt (2 ^ 51 + h) n, [], false⟩)
      | bad => (s, ⟨List.replicate n 0, bad, false⟩)
    | .remote _ _ =>
      match s.useFetch a n, (spansOf 32 a n).filter fun b => lost.contains (b / 32) with
      | (s, some o), [] => (s, o)
      | (s, some _), bad => (s, ⟨List.replicate n 0, bad, false⟩)
      | (s, none), _ => (s, ⟨List.replicate n 0, [], false⟩)
    | .none => (s, ⟨List.replicate n 0, [], false⟩)

/-- A write for an account, and for a partition where one makes it; false where it was refused (R328). -/
def State.writeMem (s : State) (acct : Nat) (part : Option Nat) (a : Nat) (bs : List Byte) : State × Bool :=
  if !s.allows part a bs.length true then (s.unmapped, false)
  else
    let s := s.charge acct (chargeSub (s.place a) true) bs.length
    match s.place a with
    | .range u off => (s.writeRange u off bs, true)
    | .host h => (s.putBytesAt (2 ^ 51 + h) bs, true)
    | .remote k l => (s.sendBytes k l bs.length bs, true)
    | .none => (s, true)

end Sys2Proof.Machine
end

