-- ==== Sys2Proof/Machine/Sluice.lean ====
section
/-! DEFINITION. Sluice groups, marks, pins, write sets and their drains (09), and the fields of table descriptors (Table 1
of 08). -/

namespace Sys2Proof.Machine

/-! ### Table descriptors (Table 1 of 08) -/

def tdUpdateCount (d : Desc) : Nat := fld d 511 464
def tdBase (d : Desc) : Nat := fld d 463 412
def tdRows (d : Desc) : Nat := fld d 411 380
def tdDefault (d : Desc) : Nat := fld d 379 348
def tdStateBase (d : Desc) : Nat := fld d 347 296
def tdLr (d : Desc) : W32 := BitVec.ofNat 32 (fld d 295 264)
def tdP1 (d : Desc) : W32 := BitVec.ofNat 32 (fld d 263 232)
def tdHotThreshold (d : Desc) : Nat := fld d 231 216
def tdSketchSlot (d : Desc) : Nat := fld d 215 208
def tdHome (d : Desc) : Nat := fld d 207 202
def tdApplyCore (d : Desc) : Nat := fld d 201 196
def tdAccExp (d : Desc) : Int := signed 8 (fld d 195 188)
def tdWidth (d : Desc) : Nat := fld d 187 177
def tdFormat (d : Desc) : Nat := fld d 176 173
def tdOptimiser (d : Desc) : Nat := fld d 172 170
def tdRound (d : Desc) : Bool := bitAt d 169
def tdGradG (d : Desc) : Nat := groupSize (fld d 168 167)
def tdOwner (d : Desc) : Nat := fld d 166 163
def tdValid (d : Desc) : Bool := bitAt d 162
def tdSeed (d : Desc) : W64 := BitVec.ofNat 64 (fld d 161 98)

/-- Stride of a row format and width (Table 2 of 08). -/
def rowStride (fmt w : Nat) : Nat :=
  if fmt = 0 then 32 * ceilDiv (w / 2 + 1) 32 else if fmt = 5 then 32 * ceilDiv (w + ceilDiv w 32) 32 else 32 * ceilDiv w 16

def tdStride (d : Desc) : Nat := rowStride (tdFormat d) (tdWidth d)
def tdStateStride (d : Desc) : Nat := rowStride 5 (tdWidth d)

/-! ### Marks (R283) -/

def markLe (a b : Nat) : Bool := (b + 2 ^ 48 - a % 2 ^ 48) % 2 ^ 48 < 2 ^ 47
def markLt (a b : Nat) : Bool := markLe a b && a % 2 ^ 48 ≠ b % 2 ^ 48
def markMin (a b : Nat) : Nat := if markLe a b then a else b

/-- The descriptor of a table as of a mark: mark 0 is the state at reset (R249, R288). -/
def State.tableAt (s : State) (t pin : Nat) : Desc :=
  match (SMap.get [] s.tab.desc t).find? fun p => markLe p.1 pin with
  | some p => p.2
  | none => 0

/-- The newest descriptor of a table. -/
def State.table (s : State) (t : Nat) : Desc :=
  match SMap.get [] s.tab.desc t with
  | p :: _ => p.2
  | [] => 0

/-- Home die of a row (R252). -/
def State.homeDie (s : State) (d : Desc) (r : Nat) : Nat :=
  match s.place (tdBase d + r * tdStride d) with
  | .range u _ => rangeDie u
  | _ => 0

/-! ### Pins (R293 to R296) -/

/-- A pin slot as it stands, held or released. -/
def State.pinSlot (s : State) (die slot : Nat) : Option Pin := SMap.get none s.sl.pins (4096 * die + slot)

/-- The pin that a slot holds. -/
def State.pin (s : State) (die slot : Nat) : Option Pin := (s.pinSlot die slot).filter fun p => p.held

def State.setPin (s : State) (die slot : Nat) (p : Option Pin) : State :=
  { s with sl := { s.sl with pins := SMap.set none s.sl.pins (4096 * die + slot) p } }

/-- Release the pins that meet a test: held becomes 0, and the slots keep their other fields (R294). -/
def State.letGo (s : State) (f : Nat → Pin → Bool) : State :=
  { s with sl := { s.sl with pins := s.sl.pins.map fun q => (q.1, q.2.map fun p => if f q.1 p then { p with held := false } else p) } }

def State.p (s : State) (d : Nat) : Nat := s.sl.p.get d

/-- Pins held on a die. -/
def State.pinsOn (s : State) (d : Nat) : List Pin :=
  ((s.sl.pins.filter fun q => q.1 / 4096 = d).filterMap fun q => q.2).filter fun p => p.held

/-- The oldest pin of a die (R296); a stopped die holds back nothing (R463). -/
def State.oldestPin (s : State) (d : Nat) : Nat :=
  let k := if s.top.stopped.get d then 1 - d else d
  (s.pinsOn k).foldl (fun m p => markMin p.mark m) (s.p k)

/-- The die whose sluice controller is the mark keeper (R284, R463). -/
def State.keeper (s : State) : Nat := if s.top.stopped.get 0 then 1 else 0

/-- P has reached a mark on every die that runs. -/
def State.passed (s : State) (m : Nat) : Bool := [0, 1].all fun d => s.top.stopped.get d || markLe m (s.p d)

/-- The oldest pin of the package as die d knows it: its own, and the other die's as last exchanged (R296). -/
def State.packagePin (s : State) (d : Nat) : Nat :=
  if s.top.stopped.get (1 - d) then s.oldestPin d else markMin (s.oldestPin d) (s.sl.peerPin.get (1 - d))

/-- Entry of a pin slot (Table 4 of 09). -/
def Pin.word (p : Pin) : Nat :=
  put 63 63 (boolNat p.held) + put 62 62 (boolNat (p.withQueue.isSome || p.withJob.isSome)) + put 61 58 p.owner + put 47 0 p.mark

/-- Versions of the write sets. -/
def State.allVersions (s : State) : List Version := s.sl.versions.d0 ++ s.sl.versions.d1

/-- Entries and descriptors whose removal is at or below a die's oldest pin are freed (R265, R288), but for those that tell where a
version still to be drained goes (R252, R269). -/
def State.prune (s : State) : State :=
  let gone (d : Nat) (m : Option Nat) : Bool := match m with
    | some x => markLe x (s.oldestPin d)
    | none => false
  let old := (s.allVersions.filterMap fun v => v.mark).foldl (fun a m => markMin m a) (markMin (s.oldestPin 0) (s.oldestPin 1))
  let places (e : DirEntry) : Bool := s.allVersions.any fun v => v.table = e.table && v.row = e.row && !v.state &&
    match v.mark, e.gone with
    | some k, some x => markLt k x
    | _, _ => false
  let keep (l : List (Nat × Desc)) : List (Nat × Desc) :=
    match l.find? fun p => markLe p.1 old with
    | some q => (l.takeWhile fun p => !markLe p.1 old) ++ [q]
    | none => l
  { s with tab := { s.tab with
      dir := ⟨s.tab.dir.d0.filter fun e => !gone 0 e.gone || places e, s.tab.dir.d1.filter fun e => !gone 1 e.gone || places e⟩,
      mapped := s.tab.mapped.filter fun e => !(gone 0 e.gone && gone 1 e.gone),
      desc := s.tab.desc.map fun q => (q.1, keep q.2) } }

/-! ### Groups (R287 to R292) -/

def State.group? (s : State) (g : Nat) : Option Group := s.sl.groups.find? fun x => x.id = g

def State.modGroup (s : State) (g : Nat) (f : Group → Group) : State :=
  { s with sl := { s.sl with groups := s.sl.groups.map fun x => if x.id = g then f x else x } }

/-- Group numbers that something in the sluice controllers carries. -/
def Sluice.groupIds (x : Sluice) : List Nat :=
  x.groups.map (fun y => y.id) ++ (x.versions.d0 ++ x.versions.d1).map (fun v => v.grp)
    ++ (x.blocks.d0 ++ x.blocks.d1).map (fun b => b.grp)
    ++ (x.waits.d0 ++ x.waits.d1).flatMap (fun w => w.versions.map (fun v => v.2.grp) ++ w.blocks.map fun b => b.2.grp)
    ++ (x.accums.d0 ++ x.accums.d1).map (fun a => a.grp) ++ x.applies.map (fun a => a.grp) ++ (x.dicts.filterMap fun q => q.2).map (fun d => d.grp) ++ x.locks.map fun l => l.2.2

/-- A number that no group has: the next one, above every one in use. -/
def State.newGroup (s : State) : Nat := s.sl.groupIds.foldl (fun n g => max n (g + 1)) s.sl.nextGroup

/-- Begin a group. -/
def State.beginGroup (s : State) (i : GIssuer) (die : Nat) (part : Option Nat) (after : Option CRec := none) :
    State × Nat :=
  let g := s.newGroup
  ({ s with sl := { s.sl with nextGroup := g + 1, groups := s.sl.groups ++
      [{ id := g, issuer := i, die := die, part := part, items := [], failed := false, lost := false, phase := .begun, stalled := false, after := after,
         locks := [] }] } }, g)

/-- Group of a job with a local number, begun by its first staged write (R287, R289). -/
def State.jobGroup (s : State) (job slot die : Nat) (part : Option Nat) : State × Nat :=
  match s.sl.groups.find? fun x => x.issuer = .job job slot with
  | some x => (s, x.id)
  | none => s.beginGroup (.job job slot) die part

/-- Groups of a job, by rising local number. -/
def State.jobGroups (s : State) (job : Nat) : List Group :=
  (List.range 9).flatMap fun k => s.sl.groups.filter fun x => x.issuer = .job job k

def State.versionsOf (s : State) (g : Nat) : List (Nat × Version) :=
  ((s.sl.versions.d0.map fun v => (0, v)) ++ (s.sl.versions.d1.map fun v => (1, v))
    ++ ((s.sl.waits.d0 ++ s.sl.waits.d1).flatMap fun w : StageWait => w.versions)).filter fun v => v.2.grp = g

def State.blocksOf (s : State) (g : Nat) : List (Nat × Block) :=
  ((s.sl.blocks.d0.map fun v => (0, v)) ++ (s.sl.blocks.d1.map fun v => (1, v))
    ++ ((s.sl.waits.d0 ++ s.sl.waits.d1).flatMap fun w : StageWait => w.blocks)).filter fun v => v.2.grp = g

def State.accumsOf (s : State) (g : Nat) : List (Nat × Accum) :=
  ((s.sl.accums.d0.map fun v => (0, v)) ++ (s.sl.accums.d1.map fun v => (1, v))).filter fun v => v.2.grp = g

/-- Row writes and bytes of an item (Table 3 of 09). -/
def Item.cost : Item → Nat × Nat
  | .stream _ _ _ => (1, 64)
  | .table _ _ => (1, 64)
  | .count _ => (0, 0)
  | .replica _ _ _ _ _ => (1, 32)
  | .dropReplica _ _ _ => (1, 32)
  | .reloc _ _ _ _ => (1, 32)
  | .holder _ _ _ _ => (1, 32)
  | .mapAdd _ _ => (1, 32)
  | .mapRemove _ _ => (1, 32)
  | .swap _ _ _ _ => (1, 0)
  | .dict _ _ _ _ bytes => (1, bytes.length)

/-- The entry of a row on the two dies counts once (R291). -/
def itemTwin (i j : Item) : Bool :=
  match i, j with
  | .replica d t r _ _, .replica e u q _ _ => d ≠ e && t = u && r = q
  | .dropReplica d t r, .dropReplica e u q => d ≠ e && t = u && r = q
  | _, _ => false

/-- What a further item costs beside those that a group holds (R291). -/
def itemAdds (l : List Item) (i : Item) : Nat × Nat := if l.any (itemTwin i) then (0, 0) else i.cost

def itemCosts : List Item → List (Nat × Nat)
  | [] => []
  | i :: l => (if l.any (itemTwin i) then [] else [i.cost]) ++ itemCosts l

/-- Versions of one row, or of one state row, in one group: at its mark they are one version (R278). -/
def sameRow (v w : Version) : Bool := v.grp = w.grp && v.table = w.table && v.row = w.row && v.state = w.state

/-- One version of each row. -/
def distinctRows : List Version → List Version
  | [] => []
  | v :: l => (if l.any (sameRow v) then [] else [v]) ++ distinctRows l

/-- Row writes and bytes of a group against its limits (R291): a row counts once however many blocks write it, and versions
of an apply count with their accumulator row. -/
def State.groupCost (s : State) (g : Nat) : Nat × Nat :=
  let acc := s.accumsOf g
  let vs := (s.versionsOf g).filter fun v => !v.2.copy && !acc.any fun a => a.2.table = v.2.table && a.2.row = v.2.row
  let items := match s.group? g with
    | some x => itemCosts x.items
    | none => []
  let costs := (distinctRows (vs.map fun v => v.2)).map (fun v => (1, v.data.length)) ++ (s.blocksOf g).map (fun _ => (1, 512))
    ++ ((acc.map fun a => (a.2.table, a.2.row)).eraseDups).map (fun a => let d := s.table a.1; (1, tdStride d + tdStateStride d)) ++ items
  costs.foldl (fun a c => (a.1 + c.1, a.2 + c.2)) (0, 0)

/-- A group has failed: counted once (R292). -/
def State.failGroup (s : State) (g : Nat) : State :=
  match s.group? g with
  | some x => if x.failed then s else (s.modGroup g fun y => { y with failed := true }).bump 0x6800 11 1
  | none => s

/-- Further row writes and bytes fit the limits of their group (R291, R292). -/
def State.fits (s : State) (g rows bytes : Nat) : Bool :=
  match s.group? g with
  | some x => !x.failed && (s.groupCost g).1 + rows ≤ 65536 && (s.groupCost g).2 + bytes ≤ 2 ^ 22
  | none => false

/-- A version of a row fits its group: a row that the group has staged already costs nothing more. -/
def State.fitsRow (s : State) (v : Version) : Bool :=
  if (s.versionsOf v.grp).any fun w => sameRow v w.2 then (s.group? v.grp).any fun x => !x.failed
  else s.fits v.grp 1 v.data.length

/-- Add an item to a group, or fail it. -/
def State.addItem (s : State) (g : Nat) (i : Item) : State :=
  let c := itemAdds ((s.group? g).elim [] fun x => x.items) i
  if s.fits g c.1 c.2 then s.modGroup g fun x => { x with items := x.items ++ [i] } else s.failGroup g

/-- Dies that hold a part of a group (R304). -/
def State.partsOf (s : State) (x : Group) : List Nat :=
  ((s.versionsOf x.id).map (·.1) ++ (s.blocksOf x.id).map (·.1) ++ (s.accumsOf x.id).map (·.1)
    ++ x.items.flatMap fun i =>
      match i with
      | .stream _ _ _ => [x.die]
      | .swap p _ _ _ => [p / 36]
      | .dict _ _ _ _ _ => [0]
      | .replica d _ _ _ _ => [d]
      | .dropReplica d _ _ => [d]
      | .holder t r _ _ => [s.homeDie (s.table t) r]
      | _ => [0, 1]).eraseDups.filter fun d => !s.top.stopped.get d

def State.twoDie (s : State) (x : Group) : Bool := let l := s.partsOf x; l.contains 0 && l.contains 1

/-! ### Write sets and staging (R297, R301) -/

/-- The group will take no effect: it has failed, or lost a part to a die's stop (R42, R292). -/
def Group.broken (g : Group) : Bool := g.failed || g.lost

/-- The cause with which a job of such groups ends (Table 7 of 13): 5 the stop of a die, 7 a group's limit. -/
def lossCause (gs : List Group) : Nat := if gs.any fun g => g.lost && !g.failed then 5 else 7

/-- Space of a version and of a block (R297). -/
def Version.space (v : Version) : Nat := v.data.length + 32
def blockSpace : Nat := 544

def State.writeSetUsed (s : State) (d : Nat) : Nat :=
  (s.sl.versions.get d).foldl (fun a v => a + v.space) 0 + blockSpace * (s.sl.blocks.get d).length

def State.writeSetSize (s : State) : Nat := 2 ^ 20 * s.reg 0x6800 1

/-- The issuer begins its group before it stages anything: a stream controller at its batch's launch, a dictionary sluice at its
begin write (Table 1 of 09). -/
def GIssuer.early : GIssuer → Bool
  | .stream _ => true
  | .sluice _ => true
  | _ => false

/-- The group counts as begun: it has staged something, or its issuer has begun it, and it does not wait to begin (R287, R292). What
waits to be staged has not begun it. -/
def State.begun (s : State) (g : Nat) : Bool :=
  let any := (s.sl.versions.d0 ++ s.sl.versions.d1).any (fun v => v.grp = g) || (s.sl.blocks.d0 ++ s.sl.blocks.d1).any (fun b => b.grp = g)
    || !(s.accumsOf g).isEmpty
  match s.group? g with
  | some x => x.phase ≠ .queued && (any || !x.items.isEmpty || x.issuer.early)
  | none => any

/-- Undecided groups of a die (Table 3 of 09). -/
def State.undecided (s : State) (d : Nat) : Nat := (s.sl.groups.filter fun x => x.die = d && s.begun x.id).length

/-- Place a version in a write set: what the same span staged of the same row becomes part of it. -/
def putVersion (l : List Version) (v : Version) : List Version :=
  (l.filter fun w => !(w.mark.isNone && w.span = v.span && sameRow v w)) ++ [v]

def State.putStaged (s : State) (w : StageWait) : State :=
  let s := w.versions.foldl (fun s v =>
    { s with sl := { s.sl with versions := s.sl.versions.mod v.1 fun l => putVersion l v.2 } }) s
  w.blocks.foldl (fun s b => { s with sl := { s.sl with blocks := s.sl.blocks.mod b.1 fun l => l ++ [b.2] } }) s

/-- Another group may begin on a die (R292). -/
def State.groupRoom (s : State) (d : Nat) : Bool := s.undecided d < 4096

/-- A group has begun, or may begin now. -/
def State.mayBegin (s : State) (g : Nat) : Bool :=
  s.begun g || match s.group? g with
    | some x => s.groupRoom x.die
    | none => true

/-- The dies on which a staging finds too little space (R301). -/
def State.shortOn (s : State) (w : StageWait) : List Nat :=
  let after := s.putStaged w
  [0, 1].filter fun d => max s.writeSetSize (s.writeSetUsed d) < after.writeSetUsed d

/-- A staging finds the space it needs on every die (R301). -/
def State.hasRoom (s : State) (w : StageWait) : Bool := (s.shortOn w).isEmpty

/-- A staging has the space it needs, and may begin its group (R292, R301). -/
def State.hasSpace (s : State) (w : StageWait) : Bool :=
  s.hasRoom w && (w.versions.map (fun v => v.2.grp) ++ w.blocks.map (fun b => b.2.grp)).all fun g => s.mayBegin g

/-- An earlier staging that waits on a die has written one of the rows. -/
def rowsBehind (vs : List (Nat × Version)) (seen : List Version) : Bool := vs.any fun v => seen.any (sameRow v.2)

/-- A staging waits for space on a die: it is counted, and the first one raises the write-set full event (R301). -/
def State.noteFull (s : State) (d : Nat) (inj : Bool) : State :=
  let s := s.bump (0x6801 + d) 9 1
  if s.sl.armed.get d || inj then
    ({ s with sl := { s.sl with armed := s.sl.armed.set d false } }).raise
      { det := 0x9011, sev := 0, detail := d, aux := s.writeSetUsed d / 1024, injected := inj }
  else s

/-- A part of the groups cannot be staged, as its die has stopped: they take no effect on either die (R42). -/
def State.loseParts (s : State) (gs : List Nat) : State :=
  { s with sl := { s.sl with groups := s.sl.groups.map fun x => if gs.contains x.id then { x with lost := true } else x } }

/-- Stage versions and blocks on die d for a partition, or wait: for space, which is counted on every die that has too little of it and
raises the event there (R301), to begin a group (R292), or behind an earlier staging of a row. An armed injection makes it wait
10 µs (Table 7 of 14). A die that has stopped stages nothing, and holds no replica (R42, R463). -/
def State.stage (s : State) (d part : Nat) (vs : List (Nat × Version)) (bs : List (Nat × Block)) : State :=
  if s.top.stopped.get d then s.loseParts (vs.map (fun v => v.2.grp) ++ bs.map fun b => b.2.grp)
  else
    let vs := vs.filter fun v => !s.top.stopped.get v.1
    let w : StageWait := { versions := vs, blocks := bs, since := s.now, notBefore := 0, part := part, full := [], item := none }
    let short := s.shortOn w
    let waits := !s.hasSpace w || rowsBehind vs ((s.sl.waits.get d).flatMap fun x => x.versions.map fun v => v.2)
    let inj := !waits && s.armed 0x9011 d 0
    if !waits && !inj then s.putStaged w
    else
      let s := if inj then s.consume 0x9011 else s
      let full := if inj then [d] else short
      let s := if part < 16 && !full.isEmpty then s.bump (0x6820 + part) 3 1 else s
      let s := full.foldl (fun (s : State) k => s.noteFull k inj) s
      { s with sl := { s.sl with waits := s.sl.waits.mod d fun l =>
          l ++ [{ w with full := full, notBefore := if inj then s.now + usCycles 10 else 0 }] } }

/-- The first staging that may proceed and writes no row that an earlier one writes, with the others. -/
def pickWait (ok : StageWait → Bool) : List Version → List StageWait → Option (StageWait × List StageWait)
  | _, [] => none
  | seen, w :: l =>
    if ok w && !rowsBehind w.versions seen then some (w, l)
    else (pickWait ok (seen ++ w.versions.map fun v => v.2) l).map fun r => (r.1, w :: r.2)

/-- The first staging of a die that now finds space proceeds (R301). -/
def State.resumeStaging (s : State) (d : Nat) : State :=
  match pickWait (fun w => w.notBefore ≤ s.now && s.hasSpace w) [] (s.sl.waits.get d) with
  | some (w, l) =>
    let t := ({ s with sl := { s.sl with waits := s.sl.waits.set d l } }).putStaged w
    w.full.foldl (fun (t : State) k => t.bump (0x6801 + k) 10 (cyclesNs (s.now - w.since))) t
  | none => s

/-- Below 75 % of the capacity the write-set full event may be raised again (R301). -/
def State.rearm (s : State) (d : Nat) : State :=
  if 4 * s.writeSetUsed d < 3 * s.writeSetSize then { s with sl := { s.sl with armed := s.sl.armed.set d true } } else s

/-- Remove versions, blocks and waits that meet a test. -/
def State.dropStaged (s : State) (fv : Version → Bool) (fb : Block → Bool) : State :=
  let cut (w : StageWait) : StageWait :=
    { w with versions := w.versions.filter fun v => !fv v.2, blocks := w.blocks.filter fun b => !fb b.2 }
  let waits (l : List StageWait) : List StageWait :=
    (l.map cut).filter fun w => !(w.versions.isEmpty && w.blocks.isEmpty)
  let s := { s with sl := { s.sl with
      versions := ⟨s.sl.versions.d0.filter fun v => !fv v, s.sl.versions.d1.filter fun v => !fv v⟩
      blocks := ⟨s.sl.blocks.d0.filter fun b => !fb b, s.sl.blocks.d1.filter fun b => !fb b⟩
      waits := ⟨waits s.sl.waits.d0, waits s.sl.waits.d1⟩ } }
  (s.rearm 0).rearm 1

/-! ### Row locks (R268) -/

def State.locked (s : State) (t r : Nat) : Bool := s.sl.locks.any fun l => l.1 = t && l.2.1 = r

def State.lockRow (s : State) (t r g : Nat) : State :=
  if s.sl.locks.any fun l => l = (t, r, g) then s else { s with sl := { s.sl with locks := s.sl.locks ++ [(t, r, g)] } }

def State.unlock (s : State) (g : Nat) : State :=
  { s with sl := { s.sl with locks := s.sl.locks.filter fun l => l.2.2 ≠ g } }

/-! ### Discarding a group -/

/-- Discard every staged item of a group (R292, R303, R307). -/
def State.discardGroup (s : State) (g : Nat) : State :=
  let part := (s.group? g).bind fun x => x.part
  let had := s.begun g
  let s := s.dropStaged (fun v => v.grp = g && v.mark.isNone) (fun b => b.grp = g)
  let s := { s.unlock g with sl := { (s.unlock g).sl with
    groups := s.sl.groups.filter fun x => x.id ≠ g,
    accums := ⟨s.sl.accums.d0.filter fun a => a.grp ≠ g, s.sl.accums.d1.filter fun a => a.grp ≠ g⟩,
    applies := s.sl.applies.filter fun a => a.grp ≠ g } }
  if had then
    let s := s.bump 0x6800 9 1
    match part with
    | some p => s.bump (0x6820 + p) 2 1
    | none => s
  else s

/-! ### Directory (R264, R265) -/

/-- Directory entry of a row on a die as of a pin (R255). -/
def State.dirEntry (s : State) (d t r pin : Nat) : Option DirEntry :=
  (s.tab.dir.get d).reverse.find? fun e => e.table = t && e.row = r && markLe e.since pin && match e.gone with
    | some g => !markLe g pin
    | none => true

/-- The present entry of a row on a die, not removed by any group. -/
def State.dirNow (s : State) (d t r : Nat) : Option DirEntry :=
  (s.tab.dir.get d).find? fun e => e.table = t && e.row = r && e.gone.isNone

/-- Replace the present entry of a row at a mark by another one, or by none. -/
def State.dirChange (s : State) (d t r m : Nat) (e : Option DirEntry) : State :=
  let l := (s.tab.dir.get d).map fun x =>
    if x.table = t && x.row = r && x.gone.isNone then { x with gone := some m } else x
  { s with tab := { s.tab with dir := s.tab.dir.set d (l ++ e.toList) } }

/-! ### Opening a group (R288, R303) -/

/-- The descriptor change removes the table's replicas, relocations and hot entries (R253). -/
def tableBreaks (old new : Desc) : Bool :=
  tdBase old ≠ tdBase new || tdWidth old ≠ tdWidth new || tdFormat old ≠ tdFormat new || tdRows new < tdRows old
    || (tdValid old && !tdValid new)

/-- Exchange base_row of two handles (R199, Table 2 of 09). -/
def Core.swapHandles (c : Core) (a b : Nat) : Core :=
  let x := hBase (c.handle a)
  let y := hBase (c.handle b)
  { c with handles := SMap.mod 0 (SMap.mod 0 c.handles a fun e => setFld e 12 0 y) b fun e => setFld e 12 0 x }

def State.setTable (s : State) (t m : Nat) (d : Desc) : State :=
  let s := { s with tab := { s.tab with desc := SMap.mod [] s.tab.desc t fun l => (m, d) :: l } }
  s.setReg 0x6000 1 ((s.tab.desc.filter fun q => match q.2 with
    | p :: _ => tdValid p.2
    | [] => false).length)

/-- The mark that the home copy of a row carries. -/
def State.homeMarkOf (s : State) (t r : Nat) : Nat := SMap.get 0 s.tab.homeMark (2 ^ 32 * t + r)

def State.setHomeMark (s : State) (t r m : Nat) : State :=
  { s with tab := { s.tab with homeMark := SMap.set 0 s.tab.homeMark (2 ^ 32 * t + r) m } }

/-- A die that receives a replica takes a copy of every committed version of the row (R267). -/
def State.copyVersions (s : State) (t r d : Nat) : State :=
  let h := s.homeDie (s.table t) r
  if d = h then s
  else
    let vs := (s.sl.versions.get h).filter fun v => v.table = t && v.row = r && !v.state && v.mark.isSome
    let had := s.sl.versions.get d
    let new := (vs.map fun v : Version => { v with copy := true }).filter fun v => !had.contains v
    { s with sl := { s.sl with versions := s.sl.versions.set d (had ++ new) } }

/-- The modules that hold a replica of a row of the table are told to remove it (R253). -/
def State.dropPeers (s : State) (t : Nat) : State :=
  (s.tab.holders.filter fun q => q.1 / 2 ^ 32 = t).foldl (fun s q => q.2.foldl (fun s h =>
    s.send { s.msgTo 2 0x0A h.1 with table := t, row := q.1 % 2 ^ 32 } .refresh) s) s

/-- An item takes effect at a mark (Table 2 of 09). Dictionary entries take their values in the dictionary's own commit. -/
def State.applyItem (s : State) (m : Nat) (i : Item) : State :=
  match i with
  | .stream n mask value =>
    let e := SMap.get 0 s.strm.entries n
    let e := setFld ((e &&& ~~~mask) ||| (value &&& mask)) 511 464 m
    { s with strm := { s.strm with entries := SMap.set 0 s.strm.entries n e } }
  | .table t d =>
    let old := s.table t
    let d := setFld d 511 464 (tdUpdateCount old)
    let s := s.setTable t m d
    if tableBreaks old d then
      let s := s.dropPeers t
      let cease (l : List DirEntry) : List DirEntry :=
        l.map fun e => if e.table = t && e.gone.isNone then { e with gone := some m } else e
      { s with tab := { s.tab with
          dir := ⟨cease s.tab.dir.d0, cease s.tab.dir.d1⟩,
          holders := s.tab.holders.filter fun q => q.1 / 2 ^ 32 ≠ t,
          homeMark := s.tab.homeMark.filter fun q => q.1 / 2 ^ 32 ≠ t,
          hot := (s.tab.hot.map fun q => (q.1, q.2.filter fun h => h.table ≠ t)).filter fun q => !q.2.isEmpty } }
    else s
  | .count t =>
    let d := s.table t
    ((s.setTable t m (setFld d 511 464 (tdUpdateCount d + 1))).bump 0x6010 16 1).bump (0x6020 + tdOwner d) 4 1
  | .replica d t r data mark =>
    let reloc := (s.dirNow d t r).bind fun e => e.reloc
    (s.dirChange d t r m (some ⟨t, r, m, none, some (data, mark), reloc⟩)).copyVersions t r d
  | .dropReplica d t r =>
    match s.dirNow d t r with
    | some e => s.dirChange d t r m (if e.reloc.isSome then some { e with since := m, replica := none } else none)
    | none => s
  | .reloc t r dest k =>
    ([0, 1].foldl (fun s d =>
      let rep := (s.dirNow d t r).bind fun e => e.replica
      s.dirChange d t r m (if dest.isNone && rep.isNone then none else some ⟨t, r, m, none, rep, dest⟩)) s).setHomeMark t r k
  | .holder t r k nm =>
    let add : List (Nat × Nat) := match nm with
      | some x => [(k, x)]
      | none => []
    let put (l : List (Nat × Nat)) : List (Nat × Nat) := l.filter (fun h => h.1 ≠ k) ++ add
    { s with tab := { s.tab with holders := SMap.mod [] s.tab.holders (2 ^ 32 * t + r) put } }
  | .mapAdd t p => { s with tab := { s.tab with mapped := s.tab.mapped ++ [⟨t, p, m, none⟩] } }
  | .mapRemove t p =>
    { s with tab := { s.tab with mapped := s.tab.mapped.map fun e =>
        if e.table = t && e.page = p && e.gone.isNone then { e with gone := some m } else e } }
  | .swap p x a b =>
    if (s.ctx x).job.isSome then s.modCtx x fun c => { c with swaps := c.swaps ++ [(a, b)] }
    else s.modCore p fun c => c.swapHandles a b
  | .dict _ _ _ _ _ => s

/-- The item changes what the readers of die 1 alone see: an entry of its streams, or a handle of one of its cores. -/
def Item.below : Item → Bool
  | .stream n _ _ => decide (n / 32768 = 1)
  | .swap p _ _ _ => decide (p / 36 = 1)
  | _ => false

/-- The one die that an item changes. -/
def Item.die? : Item → Option Nat
  | .stream n _ _ => some (n / 32768)
  | .swap p _ _ _ => some (p / 36)
  | .replica d _ _ _ _ => some d
  | .dropReplica d _ _ => some d
  | _ => none

/-- An item takes effect where its readers' P reaches the mark: on die 1 once it has the keeper's P (R285). Nothing opens on a die that
has stopped (R42). -/
def State.takeItem (s : State) (m : Nat) (i : Item) : State :=
  if i.die?.any fun d => s.top.stopped.get d then s
  else if i.below && !s.top.stopped.d0 && !s.top.stopped.d1 then { s with sl := { s.sl with later := s.sl.later ++ [(m, i)] } }
  else s.applyItem m i

/-- The items that waited for P on die 1 take effect, in their order. -/
def State.takeLater (s : State) : State :=
  s.sl.later.foldl (fun s q => s.applyItem q.1 q.2) { s with sl := { s.sl with later := [] } }

/-- Runs of bytes at consecutive places. -/
def cellRuns : List (Nat × Byte) → List (Nat × List Byte)
  | [] => []
  | (a, b) :: l =>
    match cellRuns l with
    | (c, bs) :: rest => if c = a + 1 then (a, b :: bs) :: rest else (a, [b]) :: (c, bs) :: rest
    | [] => [(a, [b])]

/-- A plain block is written to its destination; a write to another module is sent (R288, R312). -/
def State.writeBlock (s : State) (job : Option Nat) (b : Block) : State :=
  if b.resv then b.cells.foldl (fun s c => s.putResv (c.1 / 2 ^ 27) (c.1 % 2 ^ 27) [c.2]) s
  else
    (cellRuns b.cells).foldl (fun s r =>
      match s.place r.1 with
      | .remote k a =>
        let m := { s.msgTo 3 0x0C k with addr := a, count := r.2.length, data := r.2 }
        (s.charge b.part 10 r.2.length).send m (match job with
          | some j => .jobWrite j
          | none => .none)
      | _ => (s.writeMem b.part none r.1 r.2).1) s

/-- Of the pending versions of one row that stand in a group alike, the last stands. -/
def lastAlike : List Version → List Version
  | [] => []
  | v :: l =>
    if v.mark.isNone && l.any fun w => sameRow v w && w.mark.isNone && w.span = v.span then lastAlike l
    else v :: lastAlike l

/-- Of a group's pending versions of one row that stand in it alike, the last stands. -/
def lastVersions (g : Nat) : List Version → List Version
  | [] => []
  | v :: l =>
    if v.grp = g && v.mark.isNone && l.any fun w => sameRow v w && w.mark.isNone && w.span = v.span then lastVersions g l
    else v :: lastVersions g l

/-- A mark further on would lie too far beyond a pin or a version (R286). -/
def State.stalled (s : State) (m : Nat) : Bool :=
  let far (x : Nat) : Bool := 2 ^ 47 - 1 ≤ (m + 2 ^ 48 - x % 2 ^ 48) % 2 ^ 48
  (s.sl.pins.any fun q => match q.2 with
    | some p => p.held && far p.mark
    | none => false)
  || (s.sl.versions.d0 ++ s.sl.versions.d1).any fun v => match v.mark with
    | some x => far x
    | none => false

/-- Job of a group. -/
def Group.job? (x : Group) : Option Nat :=
  match x.issuer with
  | .job j _ => some j
  | _ => none

/-- The mark keeper assigns the next mark, and P on its die passes it (R284, R285). -/
def State.takeMark (s : State) : State :=
  let m := (s.sl.lastMark + 1) % 2 ^ 48
  { s with sl := { s.sl with lastMark := m, p := s.sl.p.set s.keeper m } }

/-- A group that has opened is counted for the package and its partition (R319). -/
def State.countOpened (s : State) (part : Option Nat) : State :=
  let s := s.bump 0x6800 8 1
  match part with
  | some p => s.bump (0x6820 + p) 1 1
  | none => s

/-- The newest committed version of a row in the write set of a die visible at a pin (R298). -/
def newestIn (l : List Version) (t r : Nat) (st : Bool) (pin : Nat) : Option Version :=
  l.foldl (fun best v =>
    match v.mark with
    | some m =>
      if v.table = t && v.row = r && v.state = st && markLe m pin then
        match best with
        | some b => if markLe (b.mark.getD 0) m then some v else best
        | none => some v
      else best
    | none => best) none

def State.newestVisible (s : State) (d t r : Nat) (st : Bool) (pin : Nat) : Option Version :=
  newestIn (s.sl.versions.get d) t r st pin

/-- Address of a row's home copy for a mark (R252, R269). -/
def State.rowPlace (s : State) (d t r : Nat) (st : Bool) (m : Nat) : Nat :=
  let x := s.tableAt t m
  if st then tdStateBase x + r * tdStateStride x
  else ((s.dirEntry d t r m).bind fun e => e.reloc).getD (tdBase x + r * tdStride x)

/-- Contents of a row as it is committed. -/
def State.committedRow (s : State) (t r : Nat) (d : Desc) (st : Bool) : List Byte :=
  match s.newestVisible (s.homeDie d r) t r st s.sl.lastMark with
  | some v => v.data
  | none => s.peek (s.rowPlace (s.homeDie d r) t r st s.sl.lastMark) (if st then tdStateStride d else tdStride d)

/-- At its mark a block becomes a version of the row as it stands then: the bytes that it has not written are those that are committed
(R278, R312). -/
def State.rebase (s : State) (v : Version) : Version :=
  if v.wrote.isEmpty then v
  else
    let old := s.committedRow v.table v.row (s.table v.table) v.state
    { v with data := v.data.zipIdx.map fun p =>
        if v.wrote.any fun w => w.1 ≤ p.2 && p.2 < w.1 + w.2 then p.1 else old.getD p.2 0 }

/-- The versions of a group whose row has got a replica since they were staged are held for that replica too (R267, R269). -/
def State.spread (s : State) (g : Nat) : State :=
  ((s.versionsOf g).filter fun q => q.2.mark.isNone && !q.2.copy && !q.2.state && q.1 = q.2.home).foldl (fun s q =>
    let k := 1 - q.1
    let rep := ((s.dirNow k q.2.table q.2.row).bind fun e => e.replica).isSome
    if !rep || (s.sl.versions.get k).any (fun w => w.mark.isNone && sameRow q.2 w) then s
    else { s with sl := { s.sl with versions := s.sl.versions.mod k fun l => l ++ [{ q.2 with copy := true }] } }) s

/-- The group takes the next mark, is tagged, and its contents take effect; P on die 0 passes the mark (R285, R303). The
record of its issuer is posted once P has passed on both dies (R305). -/
def State.openGroup (s : State) (x : Group) : State :=
  let m := (s.sl.lastMark + 1) % 2 ^ 48
  let s := (s.spread x.id).takeMark
  let s := { s with sl := { s.sl with groups := s.sl.groups.filter fun y => y.id ≠ x.id } }
  let mine (v : Version) : Bool := v.grp = x.id && v.mark.isNone
  let free (v : Version) : Version := if mine v then { v with span := none } else v
  let tag (d : Nat) (l : List Version) : List Version :=
    if s.top.stopped.get d then l.filter fun v => !mine v
    else (lastVersions x.id (l.map free)).map fun v => if mine v then { s.rebase v with mark := some m } else v
  let blocks := ((if s.top.stopped.d0 then [] else s.sl.blocks.d0) ++ if s.top.stopped.d1 then [] else s.sl.blocks.d1).filter
    fun b => b.grp = x.id
  let s := { s with sl := { s.sl with
    versions := ⟨tag 0 s.sl.versions.d0, tag 1 s.sl.versions.d1⟩,
    blocks := ⟨s.sl.blocks.d0.filter fun b => b.grp ≠ x.id, s.sl.blocks.d1.filter fun b => b.grp ≠ x.id⟩,
    accums := ⟨s.sl.accums.d0.filter fun a => a.grp ≠ x.id, s.sl.accums.d1.filter fun a => a.grp ≠ x.id⟩,
    applies := s.sl.applies.filter fun a => a.grp ≠ x.id } }
  let s := blocks.foldl (fun s b => s.writeBlock x.job? b) s
  let s := x.items.foldl (fun s i => s.takeItem m i) s
  let s := (((s.unlock x.id).countOpened x.part).rearm 0).rearm 1
  match x.after with
  | some r => s.produce { r with mark := m, needMark := some m }
  | none => s

/-- A decision asks for the marks of its groups: the keeper's die assigns them at once, the other asks the keeper. A stalled decision
waits, and is counted once (R284, R286). The answer is whether the marks may be taken now. -/
def State.askMarks (s : State) (gs : List Group) (atKeeper : Bool) : State × Bool :=
  let ask (stall : Bool) (y : Group) : Group :=
    if gs.any fun x => x.id = y.id then { y with phase := .marking, stalled := y.stalled || stall } else y
  let wait (stall : Bool) : State := { s with sl := { s.sl with groups := s.sl.groups.map (ask stall) } }
  if gs.isEmpty then (s, true)
  else if s.stalled (s.sl.lastMark + gs.length) then
    (if gs.any (fun x => x.stalled) then wait true else (wait true).bump 0x6800 4 1, false)
  else if atKeeper then (s, true)
  else (wait false, false)

/-- Ask for a group's mark, and open it where it has one. -/
def State.markGroup (s : State) (x : Group) : State :=
  match s.askMarks [x] (x.die = s.keeper || x.phase = .marking) with
  | (s, true) => s.openGroup x
  | (s, false) => s

/-- A group with parts on both dies is prepared (R304). -/
def State.prepareGroup (s : State) (x : Group) : State :=
  (s.modGroup x.id fun y => { y with phase := .prepare }).bump 0x6800 10 1

/-- The group would be one of more than 4,096 undecided ones on its die: it waits to begin (R292). -/
def State.mustQueue (s : State) (x : Group) : Bool := x.phase = .begun && !x.issuer.early && 4096 < s.undecided x.die

/-- A group whose staging is complete is decided by its issuer (R287, R303, R304); a failed one is discarded and its
command ends with the status limit (R292). No group opens on a stopped die: it ends ABORTED (R42). -/
def State.decideGroup (s : State) (g : Nat) : State :=
  match s.group? g with
  | none => s
  | some x =>
    if x.failed || x.lost || s.top.stopped.get x.die then
      let s := s.discardGroup g
      match x.after with
      | some r => s.produce { r with status := if x.failed then stLimit else stAborted, result := 0 }
      | none => s
    else if s.mustQueue x then s.modGroup g fun y => { y with phase := .queued }
    else if x.phase = .queued then s
    else if s.twoDie x then s.prepareGroup x
    else s.markGroup x

/-- PREPARE reaches the other die, which answers READY once its parts are staged, or FAILED (R304). -/
def execPrepare (g : Nat) (s : State) : Host.Outcome State Fault Refusal :=
  .next (match s.group? g with
    | some x =>
      if x.phase = .prepare && !(s.sl.waits.get (1 - x.die)).any fun w =>
          (w.versions.any fun v => v.2.grp = g) || w.blocks.any fun b => b.2.grp = g then
        s.modGroup g fun y => { y with phase := .answered (!y.failed && !y.lost) }
      else s
    | none => s)

/-- PUBLISHED_MARK_UPDATE: die 1 takes the keeper's P, and what waited for it there takes effect (R285). -/
def execPublishedMarkUpdate (s : State) : Host.Outcome State Fault Refusal :=
  .next (if s.top.stopped.d0 || s.top.stopped.d1 then s
    else State.takeLater { s with sl := { s.sl with p := { s.sl.p with d1 := s.sl.p.d0 } } })

/-- OLDEST_PIN_EXCHANGE (R296). -/
def execOldestPinExchange (s : State) : Host.Outcome State Fault Refusal :=
  .next (State.prune { s with sl := { s.sl with peerPin := ⟨s.oldestPin 0, s.oldestPin 1⟩ } })

/-! ### Visibility and drains (R298 to R300) -/

/-- Rows of a drain batch: each with the highest mark among the eligible versions, oldest first, at most 4,096 versions. -/
def drainRows : List Version → List (Nat × Nat × Bool × Nat) → List (Nat × Nat × Bool × Nat)
  | [], acc => acc
  | v :: l, acc =>
    let m := v.mark.getD 0
    drainRows l (match acc.find? fun x => x.1 = v.table && x.2.1 = v.row && x.2.2.1 = v.state with
      | some x => if markLe x.2.2.2 m then acc.map fun y => if y = x then (v.table, v.row, v.state, m) else y else acc
      | none => acc ++ [(v.table, v.row, v.state, m)])

/-- Place a version in rising order of marks. -/
def insertVersion (v : Version) : List Version → List Version
  | [] => [v]
  | w :: l => if markLt (v.mark.getD 0) (w.mark.getD 0) then v :: w :: l else w :: insertVersion v l

def State.eligible (s : State) (d : Nat) : List Version :=
  let o := s.packagePin d
  (((s.sl.versions.get d).filter fun v => (v.home = d || v.home = 2) && !v.copy && match v.mark with
    | some m => markLe m o
    | none => false).foldl (fun l v => insertVersion v l) []).take 4096

/-- DRAIN: a batch begins with a request for its permit (R299). -/
def execDrain (d : Nat) (s : State) : Host.Outcome State Fault Refusal :=
  .next (
    let rows := drainRows (s.eligible d) []
    if (s.sl.drain.get d).isSome || rows.isEmpty || s.top.stopped.get d then s
    else ({ s with sl := { s.sl with drain := s.sl.drain.set d (some ⟨rows, s.now⟩) } }).askPermit ⟨.drain, .sluice d⟩)

/-- Put a version into every replica of its row that this module holds, with its mark (R269). -/
def replicaPut (t r m : Nat) (data : List Byte) (l : List DirEntry) : List DirEntry :=
  l.map fun e => if e.table = t && e.row = r && e.replica.isSome then { e with replica := some (data, m) } else e

/-- A read of a reservoir area (0x9005): sites 1 a replica, 2 the write set, 3 an accumulator, 4 an exchange row. The list of
lost reads names 2^50 + 8 × die + site, with site 0 for a corrected read. The place of a slot is the controller's own: it
is free unless it is known. -/
def State.resvCheck (s : State) (d site : Nat) (off : Option Nat) (lost : List Nat) : State × Bool :=
  let w := (Config.freeValue s.free).toNat
  let detail := put 63 63 d + match off with
    | some o => put 62 61 (o / 512) + put 26 0 o
    | none => put 62 61 (w / 2 ^ 27) + put 26 0 w
  let s := if off.isNone then { s with free := s.free + 1 } else s
  let fixed := lost.contains (2 ^ 50 + 8 * d)
  let injFixed := !fixed && s.armed 0x9005 d 0
  let s := if injFixed then s.consume 0x9005 else s
  let s := if fixed || injFixed then s.raise { det := 0x9005, sev := 1, cause := 0, detail := detail, injected := injFixed }
    else s
  let real := lost.contains (2 ^ 50 + 8 * d + site) || s.top.stopped.get d
  let inj := !real && s.armed 0x9005 d site
  let s := if inj then s.consume 0x9005 else s
  if real || inj then (s.raise { det := 0x9005, sev := 2, cause := site, detail := detail, injected := inj }, true)
  else (s, false)

/-- Write a drained version to its row's location, or poison the units of a version that cannot be read (Table 7 of 14). -/
def State.drainHome (s : State) (d : Nat) (v : Version) (m : Nat) : State :=
  let a := s.rowPlace d v.table v.row v.state m
  let (s, bad) := s.resvCheck d 2 none []
  let s := if v.state then s else s.setHomeMark v.table v.row m
  if bad then
    match s.place a with
    | .range u off => (spansOf 32 off v.data.length).foldl (fun s o => s.poisonUnit u o) s
    | _ => s
  else (s.writeMem 16 none a v.data).1

/-- Write one drained row to memory and to its replicas, and send it to the modules that hold one (R269, R299, R313). -/
def State.drainRow (s : State) (d : Nat) (x : Nat × Nat × Bool × Nat) : State :=
  let (t, r, st, m) := x
  match newestIn (s.sl.versions.get d) t r st m with
  | none => s
  | some v =>
    let s := if v.home = 2 then s else s.drainHome d v m
    let s := if st then s
      else { s with tab := { s.tab with
        dir := ⟨replicaPut t r (v.sent.getD m) v.data s.tab.dir.d0, replicaPut t r (v.sent.getD m) v.data s.tab.dir.d1⟩ } }
    let s := if st || v.home = 2 then s
      else (SMap.get [] s.tab.holders (2 ^ 32 * t + r)).foldl (fun s h =>
        (s.charge 16 10 v.data.length).send
          { s.msgTo 2 0x08 h.1 with table := t, row := r, mark := m, data := v.data } .refresh) s
    let sent (l : List (Nat × Nat)) : List (Nat × Nat) := l.map fun h => (h.1, m)
    let s := { s with tab := { s.tab with holders := SMap.mod [] s.tab.holders (2 ^ 32 * t + r) sent } }
    let stale (w : Version) : Bool := w.table = t && w.row = r && w.state = st && match w.mark with
      | some k => markLe k m
      | none => false
    let s := { s with sl := { s.sl with
      versions := ⟨s.sl.versions.d0.filter fun w => !stale w, s.sl.versions.d1.filter fun w => !stale w⟩ } }
    s.bump (0x6801 + d) 7 1

/-- DRAIN_BATCH_COMPLETE: with the permit held and no row locked, the rows are written, the versions removed, and the permit
returned (R299, R300). -/
def execDrainBatchComplete (d : Nat) (s : State) : Host.Outcome State Fault Refusal :=
  .next (match s.sl.drain.get d with
    | none => s
    | some b =>
      if !s.holdsPermit ⟨.drain, .sluice d⟩ || b.rows.any fun x => s.locked x.1 x.2.1 then s
      else
        let s := b.rows.foldl (fun s x => s.drainRow d x) s
        let s := { s with sl := { s.sl with drain := s.sl.drain.set d none } }
        (((s.bump (0x6801 + d) 8 1).rearm 0).rearm 1).returnPermit ⟨.drain, .sluice d⟩)

end Sys2Proof.Machine
end

