-- ==== Sys2Proof/Machine/Queue.lean ====
section
/-! DEFINITION. Submission queues, dispatch, completion collectors, interrupts and host links (13: R420 to R438, R450). -/

namespace Sys2Proof.Machine

/-- A field of a queue pair (Table 20 of 13). -/
def State.qp (s : State) (f q sub : Nat) : Nat := s.reg (pairIdx f q) sub
def State.setQp (s : State) (f q sub v : Nat) : State := s.setReg (pairIdx f q) sub v

/-- Partition of a function: none for the PF. -/
def fnPart (f : Nat) : Option Nat := if f = 0 then none else some (f - 1)

/-- Vendor and device identifier that the configuration space of a function shows (R46, Table 1 of 13). -/
def vendorId : Nat := 0x1FD7
def deviceId (f : Nat) : Nat := if f = 0 then 0x7A64 else 0x7A65

/-- Capabilities of a function (Table 1 of 13). -/
inductive PcieCap where
  | pciExpress
  | msix
  /-- D0 and D3hot. -/
  | powerManagement
  | aer
  | sriov
  | ari
  | deviceSerial
  deriving DecidableEq, Repr

/-- What the configuration space of a function presents on a link (Table 1 of 13). -/
structure Presentation where
  vendor : Nat
  device : Nat
  subsystemVendor : Nat
  subsystem : Nat
  classCode : Nat
  revision : Nat
  totalVfs : Nat
  vfStride : Nat
  maxPayload : Nat
  maxReadRequest : Nat
  tags : Nat
  deviceSerial : List Byte
  /-- Greatest width, and rate in GT/s. -/
  linkWidth : Nat
  linkRate : Nat
  capabilities : List PcieCap
  /-- Routing identifier on the link, and BAR0 as the host has assigned it there (R420). -/
  routingId : Nat
  bar0 : Nat
  deriving DecidableEq, Repr

/-- A function that the host reaches: the PF, or a virtual one that is enabled (R420; log entry 5). -/
def State.hasFn (s : State) (f : Nat) : Bool := f = 0 || (s.host.vfEnable && f ≤ min 16 s.host.numVfs)

/-- Routing identifier of a function on a link: the first VF follows the PF, with stride 1 (log entry 5). -/
def State.routingId (s : State) (l f : Nat) : Nat := 256 * SMap.get 0 s.host.buses l + f

/-- The configuration space of a function on a link, where the host reaches it (R419, R420): the revision is bits [7:0] of hw_revision,
and the serial number that of 0x1000.04 on both links. -/
def State.presents (s : State) (l f : Nat) : Option Presentation :=
  if !s.hasFn f then none else some
  { vendor := vendorId, device := deviceId f, subsystemVendor := 0x1FD7, subsystem := 0x0001, classCode := 0x120000,
    revision := leNat (Config.fusedBytes 4) % 256, totalVfs := 16, vfStride := 1, maxPayload := 512, maxReadRequest := 4096,
    tags := 512, deviceSerial := s.blob 0x1000 4, linkWidth := 16, linkRate := 64,
    capabilities := [.pciExpress, .msix, .powerManagement, .aer, .ari, .deviceSerial] ++ (if f = 0 then [.sriov] else []),
    routingId := s.routingId l f, bar0 := SMap.get 0 s.host.bars (32 * l + f) }

/-- Account of a function's own transfers (log entry 21). -/
def fnAcct (f : Nat) : Nat := if f = 0 then 16 else f - 1

/-! ### Kinds and codes (Table 4 of 13) -/

def kindAllowed (f k : Nat) : Bool := if f = 0 then k = 3 || k = 8 else 1 ≤ k && k ≤ 8

/-- Op field of a command descriptor: kinds 3, 4, 6 and 7. -/
def descOp (d : Desc) : Nat := fld d 3 0

/-- The descriptor holds a reserved op code (R9). -/
def reservedOp (d : Desc) : Bool :=
  match descKind d with
  | 3 => descOp d = 0 || 6 < descOp d
  | 4 => descOp d = 0 || 6 < descOp d
  | 6 => descOp d = 0 || 4 < descOp d
  | 7 => descOp d = 0 || 3 < descOp d
  | _ => false

/-- The record of this descriptor goes to its own pair (R434). -/
def ownRecord (d : Desc) : Bool := descKind d ≠ 5

/-! ### Dispatch (R426 to R430) -/

/-- Descriptors not yet fetched. -/
def State.unfetched (s : State) (f q : Nat) : Nat :=
  ((s.pair f q).tail + 2 ^ 32 - s.qp f q 12 - (s.pair f q).fetched.length) % 2 ^ 32

/-- A fenced descriptor waits for every earlier record (R428). -/
def State.fenced (s : State) (f q : Nat) (d : Desc) : Bool := descFence d && s.qp f q 14 ≠ 0

/-- Take the front descriptor off the queue: sq_head passes it, and it is outstanding until its record is posted. -/
def State.popDesc (s : State) (f q : Nat) (d : Desc) : State :=
  let p := s.pair f q
  let s := s.setPair f q { p with fetched := p.fetched.drop 1 }
  let s := s.setQp f q 12 ((s.qp f q 12 + 1) % 2 ^ 32)
  if ownRecord d then s.bump (pairIdx f q) 14 1 else s

/-- A descriptor ends with a status that nothing predicts (R9, R12; log entry 65). -/
def State.freeEnd (s : State) (f q : Nat) (d : Desc) (h : Nat) : State :=
  State.complete { s with free := s.free + 1 } f q d h ((Config.freeValue s.free).toNat % 16)

/-- Descriptors of kinds that the function may not submit complete with status fault, in index order (R430); one with a reserved
op ends with a free status (R9). The first argument is the fuel. -/
def State.settleLoop : Nat → State → Nat → Nat → State
  | 0, s, _, _ => s
  | fuel + 1, s, f, q =>
    match (s.pair f q).fetched with
    | [] => s
    | d :: _ =>
      let kind := kindAllowed f (descKind d)
      if (kind && !reservedOp d) || s.fenced f q d || s.qp f q 8 = 0 then s
      else
        let s := s.popDesc f q d
        let s := if ownRecord d then s else s.bump (pairIdx f q) 14 1
        State.settleLoop fuel (if kind then s.freeEnd f q d (s.qp f q 12) else s.complete f q d (s.qp f q 12) stFault) f q

def State.settle (s : State) (f q : Nat) : State := State.settleLoop 16 s f q

/-- Dispatch of the front descriptor where it meets a test: the state after it, the descriptor, and sq_head after its
dispatch. Queue engines dispatch in SERVING alone (R476). -/
def State.take (s : State) (f q : Nat) (ok : Desc → Bool) : State × Option (Desc × Nat) :=
  let s := s.settle f q
  match (s.pair f q).fetched with
  | [] => (s, none)
  | d :: _ =>
    if s.top.dev = .serving && s.qp f q 8 = 1 && !s.fenced f q d && kindAllowed f (descKind d) && ok d then
      let s := s.popDesc f q d
      (s, some (d, s.qp f q 12))
    else (s, none)

/-- The front descriptor is a command of a kind with an op. -/
def isCmd (kind op : Nat) (d : Desc) : Bool := descKind d = kind && descOp d = op

/-! ### Host link and fetch errors (R422, R450) -/

/-- The producer index of a partition's egress ring on a die is written to its tail address, and its vector is signalled (R247, R449). -/
def State.egressTail (s : State) (part die : Nat) : State :=
  let f := 0xB010 + (part + 1)
  let tail : Nat := s.reg f (6 + die)
  let s := if tail = 0 then s else (s.writeMem part (some part) tail (leBytes 4 (s.reg (ringIdx 0x58A0 part die) 5))).1
  s.signalVec (part + 1) (s.reg f 8)

/-- The host link detector (0x9015). -/
def State.linkEvent (s : State) (cause link : Nat) (detail : Nat := 0) (inj : Bool := false) : State :=
  s.raise { det := 0x9015, sev := if cause = 0 then 3 else 1, cause := cause, detail := detail, aux := link, injected := inj }

/-- An error on a fetch or on a record write stops the queue pair (R450). -/
def State.fetchError (s : State) (f q : Nat) (inj : Bool := false) : State :=
  let s := s.setPair f q { s.pair f q with fetched := [], live := false }
  let s := (s.setQp f q 8 0).setQp f q 16 3
  (s.bump 0xB000 9 1).linkEvent 2 (s.qp f q 7) (f * 256 + q) inj

/-- HOST_ERROR_COMPLETION. -/
def execHostErrorCompletion (f q : Nat) (s : State) : Host.Outcome State Fault Refusal := .next (s.fetchError f q)

/-- HOST_READ_TIMEOUT: a fetch with no completion in time is treated as an error completion (R493). -/
def execHostReadTimeout (f q : Nat) (s : State) : Host.Outcome State Fault Refusal :=
  .next (if s.host.completionTimeout / 16 % 2 = 1 then s else s.fetchError f q)

def State.hostLinkState (s : State) (l : Nat) : Nat := s.reg 0xB000 (1 + l)

/-- The records of a collector that meet a test go on in the other die's collector. -/
def State.moveRecs (s : State) (l : Nat) (f : CRec → Bool) : State :=
  let go (x : Two (List CRec)) : Two (List CRec) :=
    (x.set (1 - l) (x.get (1 - l) ++ (x.get l).filter f)).set l ((x.get l).filter fun r => !f r)
  { s with host := { s.host with made := go s.host.made, accepted := go s.host.accepted } }

/-- Move every role of a link to the other one, which is up (R422). -/
def State.failover (s : State) (l reissued : Nat) (inj : Bool) : State :=
  let s := s.moveRecs l fun _ => true
  let s := (List.range 272).foldl (fun s i =>
    if s.reg (0xB100 + i) 7 = l then s.setReg (0xB100 + i) 7 (1 - l) else s) s
  let s := if s.host.eventLink = l then { s with host := { s.host with eventLink := 1 - l } } else s
  ((s.bump 0xB000 7 1).bump 0xB000 8 reissued).linkEvent 1 l 0 inj

/-- HOST_LINK_DOWN. -/
def execHostLinkDown (l reissued : Nat) (s : State) : Host.Outcome State Fault Refusal :=
  .next (
    if 1 < l || s.hostLinkState l ≠ 2 then s
    else
      let s := ((s.setReg 0xB000 (1 + l) 0).setReg 0xB000 (3 + l) 0).setReg 0xB000 (5 + l) 0
      let s := (s.linkEvent 0 l).setCause 4 true
      if s.hostLinkState (1 - l) = 2 then s.failover l reissued false else s)

/-- The event records and the egress tails that waited for a link are sent, in their order (R421). -/
def State.sendHeld (s : State) : State :=
  let ts := s.host.tails
  let s := s.host.events.foldl (fun (s : State) x => s.putEvent x.1 x.2) { s with host := { s.host with events := [], tails := [] } }
  ts.foldl (fun (s : State) k => s.egressTail (k % 16) (k / 16)) s

/-- HOST_LINK_UP: roles stay where they are (R422); the link of a stopped die stays down (R463). -/
def execHostLinkUp (l width rate : Nat) (s : State) : Host.Outcome State Fault Refusal :=
  .next (
    if 1 < l || s.hostLinkState l = 2 || s.top.dev = .reset || s.top.stopped.get l then s
    else
      let s := ((s.setReg 0xB000 (1 + l) 2).setReg 0xB000 (3 + l) width).setReg 0xB000 (5 + l) rate
      let s := if s.hostLinkState (1 - l) = 2 then s else { s with host := { s.host with eventLink := l } }
      let s := s.sendHeld.linkEvent 3 l
      s.setCause 4 (s.hostLinkState 0 ≠ 2 || s.hostLinkState 1 ≠ 2))

/-! ### Fetches (R425, R427) -/

/-- Read a descriptor of the ring: none where the read is refused or uncorrectable (log entry 22). -/
def State.readDesc (s : State) (f q i : Nat) : State × Option Desc :=
  let a := s.qp f q 1 + 64 * (i % max (s.qp f q 2) 1)
  let r := s.readMem (fnAcct f) (fnPart f) a 64 true []
  (r.1, if r.2.refused || !r.2.lost.isEmpty then none else some (BitVec.ofNat 512 (leNat r.2.bytes)))

/-- Read n descriptors from an index on. -/
def State.readDescs (s : State) (f q i : Nat) : Nat → List Desc → State × Option (List Desc)
  | 0, l => (s, some l)
  | n + 1, l =>
    match s.readDesc f q i with
    | (s, some d) => s.readDescs f q (i + 1) n (l ++ [d])
    | (s, none) => (s, none)

/-- What a fetch answers with, once the descriptors have been read: they join those fetched before and are dispatched in index
order, and a read that fails is a fetch error (R425, R493). -/
def State.endFetch (f q : Nat) : State × Option (List Desc) → State
  | (s, none) => s.fetchError f q
  | (s, some l) => (s.setPair f q { s.pair f q with fetched := (s.pair f q).fetched ++ l }).settle f q

/-- A link that carries the traffic of a home link is up: itself, or the other one (R46, R422). -/
def State.linked (s : State) (d : Nat) : Bool := s.hostLinkState d = 2 || s.hostLinkState (1 - d) = 2

/-- Pairs of a die's queue engine with descriptors to fetch (R427), as 16 × function + queue. -/
def State.fetchable (s : State) (d : Nat) : List Nat :=
  (List.range 272).filter fun k => s.qp (k / 16) (k % 16) 8 = 1 && s.qp (k / 16) (k % 16) 7 = d && s.unfetched (k / 16) (k % 16) ≠ 0

/-- The pair that a queue engine fetches for next, and the fetches left in its turn: weighted round-robin over the pairs in the order of
their numbers, a turn being as many fetches as the weight field says (R427; log entry 70). -/
def State.fetchTurn (s : State) (d : Nat) : Option (Nat × Nat) :=
  let l := s.fetchable d
  let (k, n) := s.host.turns.get d
  if l.contains k && n ≠ 0 then some (k, n)
  else ((l.filter fun x => k < x) ++ l.filter fun x => x ≤ k).head?.map fun x => (x, max 1 (s.qp (x / 16) (x % 16) 9))

/-- DESCRIPTOR_FETCH: in the pair's turn, up to 16 descriptors return and are dispatched in index order. -/
def execDescriptorFetch (f q : Nat) (s : State) : Host.Outcome State Fault Refusal :=
  let n := min 16 (s.unfetched f q)
  let p := s.pair f q
  let d := s.qp f q 7
  if s.top.dev ≠ .serving || s.qp f q 8 ≠ 1 || n = 0 || !s.linked d || maskBit s.host.d3hot f then .next (s.settle f q)
  else match s.fetchTurn d with
    | some (k, m) =>
      if k ≠ 16 * f + q then .next (s.settle f q)
      else
        let s := { s with host := { s.host with turns := s.host.turns.set d (k, m - 1) } }
        .next (s.whenFetched fun s =>
          let r := s.readDescs f q (s.qp f q 12 + p.fetched.length) n []
          if r.2.isSome && s.armed 0x9015 (f * 256 + q) 0 then (s.consume 0x9015).fetchError f q true
          else State.endFetch f q r)
    | none => .next (s.settle f q)

/-- SQ_TAIL_WRITE: a tail more than sq_entries ahead of the consumer index is R12's misuse (R451): the pair's tail is then free. -/
def execSqTailWrite (f q v : Nat) (cells : Cells) (s : State) : Host.Outcome State Fault Refusal :=
  let s := { s with mem := hostStores s.mem cells }
  if s.qp f q 8 = 1 && s.qp f q 2 < (v + 2 ^ 32 - s.qp f q 12) % 2 ^ 32 then
    .next (State.setPair { s with free := s.free + 1 } f q
      { s.pair f q with tail := (Config.freeValue s.free).toNat % 2 ^ 32 })
  else .next (s.setPair f q { s.pair f q with tail := v % 2 ^ 32 })

/-- CQ_HEAD_WRITE. -/
def execCqHeadWrite (f q v : Nat) (s : State) : Host.Outcome State Fault Refusal :=
  .next (s.setPair f q { s.pair f q with cqHead := v % 2 ^ 32 })

/-- NOP (R430). -/
def execNop (f q : Nat) (s : State) : Host.Outcome State Fault Refusal :=
  .next (match s.take f q fun d => descKind d = 8 with
    | (s, some (d, h)) => s.complete f q d h stCompleted
    | (s, none) => s)

/-! ### Enabling (R426) -/

/-- An address of a queue lies in host memory, or inside the windows of the function's partition, with the right to what the device
does there: it reads a submission queue, and writes the rest (R391, R426). -/
def State.queueAddr (s : State) (f a n : Nat) (write : Bool) : Bool :=
  (2 ^ 51 ≤ a && a + n ≤ 2 ^ 52) || match fnPart f with
    | some p => s.mapped a n && s.inWindows p a n write
    | none => false

/-- The checks at enabling; a pair that stopped on a fetch error goes on from its indices (R450; log entry 23). -/
def State.enableChecks (s : State) (f q : Nat) : Bool :=
  s.isUp && s.queueAddr f (s.qp f q 1) (64 * s.qp f q 2) false && s.queueAddr f (s.qp f q 3) (32 * s.qp f q 4) true
    && s.queueAddr f (s.qp f q 5) 4 true && 1 ≤ s.qp f q 6 && s.qp f q 6 ≤ 16 && s.qp f q 7 ≤ 1
    && (s.qp f q 16 = 3 || (s.qp f q 12 = 0 && s.qp f q 13 = 0))

/-- A partition that takes submissions: the PF, or an ACTIVE one (R389, R390). -/
def State.fnActive (s : State) (f : Nat) : Bool := match fnPart f with
  | none => true
  | some p => s.reg (0x7010 + p) 1 = 1

/-- Store enable of a queue pair. -/
def State.writeEnable (s : State) (f q v : Nat) : State :=
  if v % 256 = 0 then
    let s := s.setPair f q { s.pair f q with fetched := [] }
    (s.setQp f q 8 0).setQp f q 16 (if s.qp f q 16 = 3 then 3 else 0)
  else if s.qp f q 8 = 1 then s
  else if s.enableChecks f q && s.fnActive f then
    ((s.setPair f q { s.pair f q with live := true }).setQp f q 8 1).setQp f q 16 1
  else (s.setQp f q 8 0).setQp f q 16 2

/-- An accessor may write a function's own entries: the function itself, the PF, the management endpoint (Table 11 of
13). -/
def ownsFn (acc f : Nat) : Bool := isOwner acc || acc = f

/-! ### Completion collectors (R435 to R438) -/

/-- P has passed the record's mark on both dies (R305). -/
def State.markPassed (s : State) (r : CRec) : Bool := r.needMark.all fun m => s.passed m

/-- Records of a function in a die's buffer. -/
def State.shareUsed (s : State) (d f : Nat) : Nat := ((s.host.accepted.get d).filter fun r => r.fn = f).length

/-- The first record that may be accepted: earlier ones of its pair go first. A unit whose next record for a function finds the share full
holds it, which is counted once; what the unit has for that function after it is not yet produced (R437). -/
def State.acceptFrom (s : State) (d : Nat) (seen : List CRec) : List CRec → State
  | [] => { s with host := { s.host with made := s.host.made.set d seen } }
  | r :: l =>
    let later := seen.any fun x => x.fn = r.fn && x.queue = r.queue
    let behind := seen.any fun x => x.held && x.fn = r.fn && x.unit = r.unit
    if behind || !s.markPassed r then s.acceptFrom d (seen ++ [r]) l
    else if s.shareUsed d r.fn < 240 then
      if later then s.acceptFrom d (seen ++ [r]) l
      else
        { s with host := { s.host with
            made := s.host.made.set d (seen ++ l)
            accepted := s.host.accepted.mod d fun a => a ++ [{ r with held := false }] } }
    else (if r.held then s else s.bump (pairIdx r.fn r.queue) 15 1).acceptFrom d (seen ++ [{ r with held := true }]) l

/-- COMPLETION_RECORD_ACCEPT. -/
def execCompletionRecordAccept (d : Nat) (s : State) : Host.Outcome State Fault Refusal :=
  .next (s.acceptFrom d [] (s.host.made.get d))

/-- The records of a pair that a batch may write: in order, up to the free slots, none beyond one whose zero-length read is
awaited. -/
def batchOf (f q : Nat) : Nat → List CRec → List CRec × List CRec
  | _, [] => ([], [])
  | free, r :: l =>
    if r.fn = f && r.queue = q then
      if free = 0 || r.flush then ([], r :: l)
      else
        let (b, k) := batchOf f q (free - 1) l
        (r :: b, k)
    else
      let (b, k) := batchOf f q free l
      (b, r :: k)

/-- Signal the pair's vector. -/
def State.signalPair (s : State) (f q : Nat) : State :=
  (s.setPair f q { s.pair f q with unsignalled := 0 }).signalVec f (s.qp f q 6)

/-- Write one record to its slot; an uncounted record is a chunk's. -/
def State.postRec (s : State) (f q : Nat) (r : CRec) : State :=
  let prod := s.qp f q 13
  let s := (s.writeMem (fnAcct f) (fnPart f) (s.qp f q 3 + 32 * (prod % max (s.qp f q 4) 1)) (wordBytes (r.encode s.now))).1
  let s := s.setQp f q 13 ((prod + 1) % 2 ^ 32)
  let s := match r.chunk with
    | some c => s.regMax 0x5000 12 (cyclesNs (s.now - c.ready))
    | none => s
  if r.counts then s.setQp f q 14 (s.qp f q 14 - 1) else s

/-- The MSI-X rules after a batch (R438). -/
def State.batchSignal (s : State) (f q n : Nat) (irq : Bool) : State :=
  let p := s.pair f q
  let from' := if p.unsignalled = 0 then s.now else p.unsignalledFrom
  let s := s.setPair f q { p with unsignalled := p.unsignalled + n, unsignalledFrom := from' }
  if irq || s.qp f q 10 ≤ p.unsignalled + n || usCycles (s.qp f q 11) ≤ s.now - from' then s.signalPair f q else s

/-- CQ_WRITE: a batch of records, then the producer index, then any interrupt, on the pair's home link (R436, R437). -/
def execCqWrite (f q : Nat) (s : State) : Host.Outcome State Fault Refusal :=
  .next (
    let d := s.qp f q 7
    let used := (s.qp f q 13 + 2 ^ 32 - (s.pair f q).cqHead) % 2 ^ 32
    let (b, keep) := batchOf f q (s.qp f q 4 - used) (s.host.accepted.get d)
    if b.isEmpty || !(s.pair f q).live || !s.linked d || maskBit s.host.d3hot f then s
    else
      let s := { s with host := { s.host with accepted := s.host.accepted.set d keep } }
      let s := b.foldl (fun s r => s.postRec f q r) s
      let s := (s.writeMem (fnAcct f) (fnPart f) (s.qp f q 5) (leBytes 4 (s.qp f q 13))).1
      (s.batchSignal f q b.length (b.any fun r => r.irq)).settle f q)

/-- COALESCE_TIMEOUT: coalesce_time has passed since the first unsignalled record (R438). -/
def execCoalesceTimeout (f q : Nat) (s : State) : Host.Outcome State Fault Refusal :=
  .next (let p := s.pair f q
    if p.unsignalled ≠ 0 && usCycles (s.qp f q 11) ≤ s.now - p.unsignalledFrom then s.signalPair f q else s)

/-- Clear the awaited read of the first record of a pair that has one. -/
def clearFlush (f q : Nat) : List CRec → List CRec
  | [] => []
  | r :: l => if r.fn = f && r.queue = q && r.flush then { r with flush := false } :: l else r :: clearFlush f q l

/-- ZERO_LENGTH_READ_COMPLETE (R436). -/
def execZeroLengthReadComplete (f q : Nat) (s : State) : Host.Outcome State Fault Refusal :=
  .next (let d := s.qp f q 7
    { s with host := { s.host with accepted := s.host.accepted.mod d (clearFlush f q) } })

end Sys2Proof.Machine
end

