-- ==== Sys2Proof/Machine/Tables.lean ====
section
/-! DEFINITION. Embedding tables: rows, resolution of indices, the sketch, the hot list, the mapped-out list, and the row
commands (08); the sluice commands (09: R294). -/

namespace Sys2Proof.Machine

/-! ### Mailboxes (Tables 12 to 15 of 13) -/

/-- Results of a dictionary access (Table 15 of 13). -/
def drDone : Nat := 0
def drNone : Nat := 1
def drDenied : Nat := 2
def drBusy : Nat := 3
def drRange : Nat := 4
def drStaged : Nat := 5

def State.mailbox (s : State) (acc : Nat) : Mailbox := SMap.get Mailbox.init s.host.mailbox acc

def State.setMailbox (s : State) (acc : Nat) (m : Mailbox) : State :=
  { s with host := { s.host with mailbox := SMap.set Mailbox.init s.host.mailbox acc m } }

/-- Result, size and bytes of an access, in the accessor's mailbox. -/
def State.answer (s : State) (acc res size : Nat) (data : List Byte) : State :=
  s.setMailbox acc { s.mailbox acc with status := res, size := size, data := data }

/-- The 14 bytes at the head of a dictionary response over MCTP, and its data (Table 16 of 13). -/
def mctpDictResponse (cmd req res size : Nat) (data : List Byte) : List Byte :=
  [0x7E, 0x1F, 0xD7, BitVec.ofNat 8 (cmd + 0x80), BitVec.ofNat 8 req, BitVec.ofNat 8 res, 0, 0] ++ leBytes 4 size
    ++ leBytes 2 data.length ++ data

/-- Partition of an accessor: none for the PF and the management endpoint. -/
def accPart (acc : Nat) : Option Nat := if isOwner acc then none else some (acc - 1)

/-- The dictionary sluice of an accessor is open. -/
def State.sluiceOpen (s : State) (acc : Nat) : Option DictSluice := SMap.get none s.sl.dicts acc

/-! ### Rows (R251) -/

/-- Expand the bytes of a row: FP32 elements and flags (R251, R260). A reserved row format has the strides of BF16 and free elements
(R9; log entry 65). -/
def expandRow (d : Desc) (bs : List Byte) : List W32 × Nat :=
  let w := tdWidth d
  let byte (i : Nat) : Nat := (bs.getD i 0).toNat
  let one (e : Nat) : W32 × Nat :=
    if tdFormat d = 0 then
      let (v, f, _) := expandElem .n4 (byte (tdStride d - 1)) 0 (byte (e / 2) / 16 ^ (e % 2) % 16)
      (exact32 v, f)
    else if tdFormat d = 5 then
      let (v, f, _) := expandElem .n8 (byte (w + e / 32)) 0 (byte e)
      (exact32 v, f)
    else if tdFormat d = 7 then (ofBF16 (byte (2 * e) + 256 * byte (2 * e + 1)), 0)
    else (Config.reservedElem (tdFormat d) bs e, 0)
  let l := (List.range w).map one
  (l.map (·.1), l.foldl (fun a x => a ||| x.2) 0)

/-- Place a version of a row in the write sets that hold it: the home die's, and that of every die with a replica (R269). -/
def State.rowVersions (s : State) (g t r : Nat) (st : Bool) (data : List Byte) (span : Option (Nat × Nat))
    (wrote : List (Nat × Nat)) : List (Nat × Version) :=
  let d := s.table t
  let h := s.homeDie d r
  let v : Version := { grp := g, mark := none, table := t, row := r, state := st, data := data, home := h, copy := false,
                       sent := none, span := span, wrote := wrote }
  let rep := !st && match s.dirNow (1 - h) t r with
    | some e => e.replica.isSome
    | none => false
  (h, v) :: (if rep then [(1 - h, { v with copy := true })] else [])

/-! ### Indices (R255 to R257) -/

/-- The mapped-out list as of a mark names a page that the row touches. -/
def State.mappedOut (s : State) (t : Nat) (d : Desc) (r pin : Nat) : Bool :=
  let lo := r * tdStride d / pageSize
  let hi := (r * tdStride d + tdStride d - 1) / pageSize
  s.tab.mapped.any fun e => e.table = t && (e.page = lo || e.page = hi) && markLe e.since pin && match e.gone with
    | some g => !markLe g pin
    | none => true

/-- Default-row case of an index: the counter's subindex at 0x6010 (Table 3 of 08). -/
def State.indexCase (s : State) (t : Nat) (d : Desc) (r pin : Nat) : Option Nat :=
  if r = 0xFFFFFFFF then some 5
  else if tdRows d ≤ r then some 6
  else if s.mappedOut t d r pin then some 7
  else none

/-- Count a default-row case of a partition. -/
def State.countCase (s : State) (part sub : Nat) : State := (s.bump 0x6010 sub 1).bump (0x6020 + part) 2 1

/-- The row of a replica that could not be read is served from home, and the replica refreshed (Table 7 of 14). -/
def State.refreshReplica (s : State) (die t r a n : Nat) : State :=
  let bs := s.peek a n
  let m := s.homeMarkOf t r
  let fix (l : List DirEntry) : List DirEntry :=
    l.map fun e => if e.table = t && e.row = r && e.replica.isSome then { e with replica := some (bs, m) } else e
  { s with tab := { s.tab with dir := s.tab.dir.mod die fix } }

/-- Version of a row in a write set, as a source; none where its read is uncorrectable. -/
def State.fromWriteSet (s : State) (d : Nat) (v : Version) (lost : List Nat) : State × Option RowSrc :=
  let (s, bad) := s.resvCheck d 2 none lost
  if bad then (s, none) else (s.bump 0x6010 3 1, some (.bytes v.data))

/-- Source of a valid row for a thread on a die, pinned at a mark (R255, R259); none where the read is uncorrectable. -/
def State.rowSource (s : State) (die t : Nat) (d : Desc) (pin r : Nat) (lost : List Nat) : State × Option RowSrc :=
  let a := tdBase d + r * tdStride d
  let away := tdHome d ≠ s.me
  let h := s.homeDie d r
  let e := s.dirEntry die t r pin
  let there := ((e.bind fun x => x.reloc).getD a)
  match e.bind fun x => x.replica with
  | some (bs, _) =>
    match s.newestVisible die t r false pin with
    | some v => s.fromWriteSet die v lost
    | none =>
      let (s, bad) := s.resvCheck die 1 none lost
      if !bad then (s.bump 0x6010 2 1, some (.bytes bs))
      else if away then (s, some (.remote (tdHome d) a))
      else (s.refreshReplica die t r there (tdStride d), some (.mem there))
  | none =>
    if away then (s, some (.remote (tdHome d) a))
    else match s.newestVisible h t r false pin with
      | some v => s.fromWriteSet h v lost
      | none => (s, some (.mem there))

/-- Resolution with the default row (Table 3 of 08): the row read, and its source. -/
def State.defaultSource (s : State) (die t : Nat) (d : Desc) (pin : Nat) (lost : List Nat) : State × Nat × RowSrc :=
  let r := tdDefault d
  if (s.indexCase t d r pin).isSome then (s, r, .zero)
  else match s.rowSource die t d pin r lost with
    | (s, some x) => (s, r, x)
    | (s, none) => (s, r, .zero)

/-- Resolve an index for a partition: the row read, its source, and whether it is the index's own row (R255, R256). -/
def State.resolveIndex (s : State) (part die t : Nat) (d : Desc) (pin idx : Nat) (lost : List Nat) :
    State × Nat × RowSrc × Bool :=
  match s.indexCase t d idx pin with
  | some sub =>
    let (s, r, x) := (s.countCase part sub).defaultSource die t d pin lost
    (s, r, x, false)
  | none =>
    match s.rowSource die t d pin idx lost with
    | (s, some x) => (s, idx, x, true)
    | (s, none) =>
      let (s, r, x) := (s.countCase part 8).defaultSource die t d pin lost
      (s, r, x, false)

/-- Mark at which a lookup of a partition reads: its slot's, or P where the slot is not the partition's (R295). -/
def State.lookupPin (s : State) (die slot part : Nat) : State × Nat :=
  match s.pin die slot with
  | some p => if p.owner = part then (s, p.mark) else (s.bump 0x6800 13 1, s.p die)
  | none => (s.bump 0x6800 13 1, s.p die)

/-! ### The sketch and the hot list (R262, R263) -/

/-- h_i(r) of a table. -/
def sketchHash (t r i : Nat) : Nat :=
  (mix64 (BitVec.ofNat 64 (t <<< 32) ^^^ BitVec.ofNat 64 r
    ^^^ (BitVec.ofNat 64 (i + 1) * 0x9E3779B97F4A7C15#64))).toNat % 2048

def sketchKey (die slot t r i : Nat) : Nat := ((256 * die + slot) * 4 + i) * 2048 + sketchHash t r i

def State.estimate (s : State) (die slot t r : Nat) : Nat :=
  (List.range 4).foldl (fun m i => min m (SMap.get 0 s.tab.sketch (sketchKey die slot t r i))) 65535

/-- Enter a row in a full or partly filled hot list: the list after it, and whether an entry was evicted. -/
def hotInsert (h : Hot) (l : List Hot) : List Hot × Bool × Bool :=
  if l.any fun x => x.table = h.table && x.row = h.row then (l, false, false)
  else if l.length < 64 then (l ++ [h], true, false)
  else
    let least := l.foldl (fun m x => min m x.estimate) 65535
    if least < h.estimate then
      let i := l.findIdx fun x => x.estimate = least
      (l.set i h, true, true)
    else (l, false, false)

/-- Count an index of a table with a threshold in the sketch of a die; a row at the threshold enters the hot list. -/
def State.touchSketch (s : State) (die t : Nat) (d : Desc) (r : Nat) : State :=
  if tdHotThreshold d = 0 then s
  else
    let slot := tdSketchSlot d
    let m := (List.range 4).foldl (fun m i => SMap.mod 0 m (sketchKey die slot t r i) fun c => satAdd 16 c 1) s.tab.sketch
    let s := { s with tab := { s.tab with sketch := m } }
    let est := s.estimate die slot t r
    if est < tdHotThreshold d then s
    else
      let rep := match s.dirNow die t r with
        | some e => e.replica.isSome
        | none => false
      let (l, new, out) := hotInsert ⟨t, r, est, rep⟩ (SMap.get [] s.tab.hot (256 * die + slot))
      let s := { s with tab := { s.tab with hot := SMap.set [] s.tab.hot (256 * die + slot) l } }
      let s := if new then s.bump 0x6010 17 1 else s
      if out then s.bump 0x6010 18 1 else s

/-- SKETCH_DECAY: every counter is shifted right by 1. -/
def execSketchDecay (s : State) : Host.Outcome State Fault Refusal :=
  .next { s with tab := { s.tab with
    sketch := (s.tab.sketch.map fun c => (c.1, c.2 / 2)).filter fun c => c.2 ≠ 0 } }

def Hot.word (h : Hot) : Nat := put 63 32 h.row + put 31 16 h.estimate + put 0 0 (boolNat h.replicated)

/-- The 512 bytes of hot_list for a hot_select value (Table 4 of 08). -/
def State.hotBytes (s : State) (sel : Nat) : List Byte :=
  ((SMap.get [] s.tab.hot (sel % 512)).flatMap fun h => leBytes 8 h.word) ++
    List.replicate (512 - 8 * (SMap.get [] s.tab.hot (sel % 512)).length) 0

/-- A virtual function may read the hot list of a slot of a table that it owns (Table 11 of 13). -/
def State.ownsSlot (s : State) (p slot : Nat) : Bool :=
  s.tab.desc.any fun q => match q.2 with
    | x :: _ => tdValid x.2 && tdOwner x.2 = p && tdHotThreshold x.2 ≠ 0 && tdSketchSlot x.2 = slot
    | [] => false

/-! ### Descriptors and the mapped-out list (R249, R257) -/

/-- A virtual function may write a table that is not valid, or that it owns; its write stores owner := p (Table 11 of 13). -/
def State.mayWriteTable (s : State) (acc t : Nat) : Bool :=
  match accPart acc with
  | none => true
  | some p => !tdValid (s.table t) || tdOwner (s.table t) = p

/-- A descriptor with bytes replaced; update_count keeps its value, as it is read-only, and the reserved field reads 0 (R9). -/
def Desc.patch (d : Desc) (acc offset : Nat) (bytes : List Byte) : Desc :=
  let v : Desc := BitVec.ofNat 512 (leNat (putBytes (wordBytes d) offset bytes))
  let v := setFld (setFld v 511 464 (tdUpdateCount d)) 97 0 0
  match accPart acc with
  | none => v
  | some p => setFld v 166 163 p

/-- Entries of the mapped-out list that no group has removed. -/
def State.mapoutNow (s : State) : List Mapped := s.tab.mapped.filter fun e => e.gone.isNone

/-! ### Space (R264, R393) -/

/-- The entry's replica lies in a slot that a later entry of its row has taken over: a migration keeps the slot. -/
def State.slotPassed (s : State) (d : Nat) (e : DirEntry) : Bool :=
  e.gone.isSome && (s.tab.dir.get d).any fun x => x.table = e.table && x.row = e.row && x.replica.isSome && e.gone = some x.since

/-- Replica slots on a die, as pairs of table and stride, and the entries without a slot of their own, with their table; those that a
group has removed still take their space (R265). -/
def State.replicaList (s : State) (d : Nat) : List (Nat × Nat) :=
  (s.tab.dir.get d).filterMap fun e => match e.replica with
    | some (bs, _) => if s.slotPassed d e then none else some (e.table, bs.length)
    | none => none

def State.relocList (s : State) (d : Nat) : List Nat :=
  (s.tab.dir.get d).filterMap fun e => if e.replica.isNone || s.slotPassed d e then some e.table else none

/-- Bytes of a die's replica area in use: S + 32 a replica, 32 an entry without a slot of its own. -/
def State.replicaUsed (s : State) (d : Nat) : Nat :=
  (s.replicaList d).foldl (fun a x => a + x.2 + 32) 0 + 32 * (s.relocList d).length

def State.ownerOf (s : State) (t : Nat) : Nat := tdOwner (s.table t)

/-- Use of a partition's reservoir quota on a die (R393). -/
def State.quotaUse (s : State) (p d : Nat) : Nat :=
  ((s.replicaList d).filter fun x => s.ownerOf x.1 = p).foldl (fun a x => a + x.2 + 32) 0
    + 32 * ((s.tab.dir.get d).filter fun e => e.reloc.isSome && s.ownerOf e.table = p).length
    + ((s.sl.accums.get d).filter fun a => s.ownerOf a.table = p).foldl
        (fun a x => a + 8 * tdWidth (s.table x.table) + 32) 0

/-- Bytes of a die's replica area that groups still to open have staged for tables that meet a test: the replicas, and the relocation
entries of rows that have none (R266, R393). -/
def State.stagedUse (s : State) (d : Nat) (mine : Nat → Bool) : Nat :=
  (s.sl.groups.flatMap fun g => g.items).foldl (fun a i =>
    match i with
    | .replica k t _ _ _ => if k = d && mine t then a + tdStride (s.table t) + 32 else a
    | .reloc t r (some _) _ => if mine t && ((s.dirNow d t r).bind fun e => e.reloc).isNone then a + 32 else a
    | _ => a) 0

/-- Further bytes on a die fit the partition's quota. -/
def State.quotaFits (s : State) (p d n : Nat) : Bool :=
  let q := s.reg (0x7010 + p) (5 + d)
  q = 0 || s.quotaUse p d + s.stagedUse d (fun t => s.ownerOf t = p) + n ≤ 1024 * q

/-! ### Row commands (R266 to R268) -/

def rcDest (d : Desc) : Nat := fld d 447 396
def rcList (d : Desc) : Nat := fld d 395 344
def rcCount (d : Desc) : Nat := fld d 343 328 + 1
def rcModule (d : Desc) : Nat := fld d 327 322
def rcRemote (d : Desc) : Bool := bitAt d 321
def rcTable (d : Desc) : Nat := fld d 27 16

/-- Row numbers, with their place in the list. -/
def rowList (bs : List Byte) : Nat → Nat → List (Nat × Nat)
  | _, 0 => []
  | i, n + 1 => (i, leNat ((bs.drop (4 * i)).take 4)) :: rowList bs (i + 1) n

/-- A listed row is not yet in the state that the op asks for; the address is MIGRATE's for it. -/
def State.rowNeeds (s : State) (d : Desc) (t r dest : Nat) : Bool :=
  let has (k : Nat) : Bool := match s.dirNow k t r with
    | some e => e.replica.isSome
    | none => false
  let held := (SMap.get [] s.tab.holders (2 ^ 32 * t + r)).any fun h => h.1 = rcModule d
  let reloc := (s.dirNow 0 t r).bind fun e => e.reloc
  match descOp d with
  | 1 => if rcRemote d then !held else !(has 0 && has 1)
  | 2 => if rcRemote d then held else has 0 || has 1
  | 3 => reloc ≠ some dest && !(reloc.isNone && dest = tdBase (s.table t) + r * tdStride (s.table t))
  | _ => reloc.isSome

/-- Rows still to change: the first listing of each that needs it. -/
def State.rowsNeeded (s : State) (d : Desc) (t S : Nat) (seen : List Nat) : List (Nat × Nat) → List (Nat × Nat)
  | [] => []
  | (i, r) :: l =>
    if seen.contains r || !s.rowNeeds d t r (rcDest d + i * S) then s.rowsNeeded d t S seen l
    else (i, r) :: s.rowsNeeded d t S (r :: seen) l

/-- Newest committed version of a row, in its home die's write set or in memory: bytes, mark, and the status with which a
command that cannot read it ends (R267, R328). -/
def State.newestRow (s : State) (part t : Nat) (d : Desc) (r : Nat) (drained : Bool) (ue : List Nat) :
    State × List Byte × Nat × Nat :=
  let h := s.homeDie d r
  let pin := s.sl.lastMark
  match (if drained then none else s.newestVisible h t r false pin) with
  | some v =>
    let (s, bad) := s.resvCheck h 2 none ue
    (s, v.data, v.mark.getD 0, if bad then stError else stCompleted)
  | none =>
    let a := ((s.dirNow h t r).bind fun e => e.reloc).getD (tdBase d + r * tdStride d)
    let (s, o) := s.readMem part (some part) a (tdStride d) true ue
    (s, o.bytes, s.homeMarkOf t r, if o.refused then stFault else if o.lost.isEmpty then stCompleted else stError)

/-- Copy one row for PROMOTE, MIGRATE or UNMIGRATE and stage its entries; the answer is the status (R267). -/
def State.copyRow (s : State) (g part : Nat) (c : Desc) (t : Nat) (d : Desc) (i r : Nat) (ue : List Nat) :
    State × Nat :=
  let s := s.lockRow t r g
  let promote := descOp c = 1
  let (s, bs, m, bad) := s.newestRow part t d r promote ue
  if bad ≠ stCompleted then (s, bad)
  else if promote then
    if rcRemote c then
      let f := { s.msgTo 2 0x09 (rcModule c) with table := t, row := r, mark := m, data := bs }
      ((s.addItem g (.holder t r (rcModule c) (some m))).send f (.rowCmd g), stCompleted)
    else
      ([0, 1].foldl (fun s k => match s.dirNow k t r with
        | some e => if e.replica.isSome then s else s.addItem g (.replica k t r bs m)
        | none => s.addItem g (.replica k t r bs m)) s, stCompleted)
  else
    let back := descOp c = 4
    let a := if back then tdBase d + r * tdStride d else rcDest c + i * tdStride d
    let (s, ok) := s.writeMem part (some part) a bs
    if ok then (s.addItem g (.reloc t r (if back then none else some a) m), stCompleted) else (s, stFault)

def State.copyRowsOf (s : State) (g part : Nat) (c : Desc) (t : Nat) (d : Desc) (ue : List Nat) :
    List (Nat × Nat) → State × Nat
  | [] => (s, stCompleted)
  | (i, r) :: l =>
    let x := s.copyRow g part c t d i r ue
    if x.2 = stCompleted then x.1.copyRowsOf g part c t d ue l else x

/-- Stage the removal of one row's replicas (DEMOTE). -/
def State.demoteRow (s : State) (g : Nat) (c : Desc) (t r : Nat) : State :=
  if rcRemote c then
    (s.addItem g (.holder t r (rcModule c) none)).send { s.msgTo 2 0x0A (rcModule c) with table := t, row := r } (.rowCmd g)
  else [0, 1].foldl (fun s k => match s.dirNow k t r with
    | some e => if e.replica.isSome then s.addItem g (.dropReplica k t r) else s
    | none => s) s

/-- Bytes of a die's replica area that a row command needs for its rows: the replicas that a PROMOTE adds there, and the entries of the
rows that a MIGRATE relocates anew (R266, R393). -/
def State.rowSpaceNeed (s : State) (c d : Desc) (die : Nat) (rows : List (Nat × Nat)) : Nat :=
  let entry (r : Nat) : Option DirEntry := s.dirNow die (rcTable c) r
  match descOp c with
  | 1 => if rcRemote c then 0
    else (tdStride d + 32) * (rows.filter fun x => !(entry x.2).any fun e => e.replica.isSome).length
  | 3 => 32 * (rows.filter fun x => !(entry x.2).any fun e => e.reloc.isSome).length
  | _ => 0

/-- A row command has the space it needs on both dies (R266, R393). -/
def State.rowSpace (s : State) (part : Nat) (c d : Desc) (rows : List (Nat × Nat)) : Bool :=
  [0, 1].all fun k =>
    let need := s.rowSpaceNeed c d k rows
    need = 0 || (s.replicaUsed k + s.stagedUse k (fun _ => true) + need ≤ 2 ^ 20 * s.reg 0x6000 2 && s.quotaFits part k need)

/-- Messages of a row command that have not been answered. -/
def State.rowCmdWaits (s : State) (g : Nat) : Bool :=
  s.fab.sent.any (fun o : OutMsg => o.use = MsgFor.rowCmd g) || s.fab.waiting.any fun o : OutMsg => o.use = MsgFor.rowCmd g

/-- Remove the replicas that a row command which fails has had installed. -/
def State.undoInstalls (s : State) (g : Group) : State :=
  g.items.foldl (fun s i =>
    match i with
    | .holder t r k (some _) => s.send { s.msgTo 2 0x0A k with table := t, row := r } .refresh
    | _ => s) s

/-- A row command that fails ends with a status: its group is discarded, and what it has had installed is removed (R266, R267, R378). -/
def State.failRowCmd (s : State) (g status : Nat) : State :=
  match s.group? g with
  | none => s
  | some x =>
    let s := { s with fab := { s.fab with waiting := s.fab.waiting.filter fun o : OutMsg => o.use ≠ MsgFor.rowCmd g } }
    let s := (s.discardGroup g).undoInstalls x
    match x.after with
    | some r => s.produce { r with status := status, result := 0 }
    | none => s

/-- Run a row command on its listed rows: one group (R266, R267). -/
def State.runRows (s : State) (f q h : Nat) (c : Desc) (rows : List (Nat × Nat)) (total : Nat) (ue : List Nat) : State :=
  let t := rcTable c
  let d := s.table t
  let part := f - 1
  let skipped := total - rows.length
  if !s.rowSpace part c d rows then s.complete f q c h stNoSpace
  else
    let s := s.bump 0x6010 21 skipped
    let done := { CRec.blank f q (descTag c) with
      irq := descIrq c, sqHead := h % 65536, status := stCompleted, result := skipped }
    let (s, g) := s.beginGroup .command 0 (some part) (some done)
    let (s, ok) := if descOp c = 2 then (rows.foldl (fun s x => s.demoteRow g c t x.2) s, stCompleted)
      else s.copyRowsOf g part c t d ue rows
    if ok ≠ stCompleted then s.failRowCmd g ok
    else if s.rowCmdWaits g then s
    else s.decideGroup g

/-- A row command whose descriptor has been dispatched: its checks, its list, its rows. It waits for row locks (R268). -/
def State.rowCommand (s : State) (f q h : Nat) (c : Desc) (ue : List Nat) : State :=
  let t := rcTable c
  let d := s.table t
  let part := f - 1
  if tdOwner d ≠ part then s.complete f q c h stFault
  else if !tdValid d || tdHome d ≠ s.me then s.complete f q c h stState
  else
    let r := s.readMem part (some part) (rcList c) (4 * rcCount c) false ue
    if r.2.refused then r.1.complete f q c h stFault
    else if !r.2.lost.isEmpty then r.1.complete f q c h stError
    else
      let rows := r.1.rowsNeeded c t (tdStride d) [] (rowList r.2.bytes 0 (rcCount c))
      if descOp c ≠ 2 && rows.any fun x => r.1.locked t x.2 then
        { r.1 with tab := { r.1.tab with waiting := r.1.tab.waiting ++ [(f, q, h, c)] } }
      else r.1.runRows f q h c rows (rcCount c) ue

/-- Dispatch a row command of an op, or try again the first of the queue that waits. -/
def State.rowOp (s : State) (f q op : Nat) (ue : List Nat) : State :=
  s.whenFetched fun s => match takeFirst (fun x : Nat × Nat × Nat × Desc => x.1 = f && x.2.1 = q && descOp x.2.2.2 = op) s.tab.waiting with
  | some (x, l) => State.rowCommand { s with tab := { s.tab with waiting := l } } f q x.2.2.1 x.2.2.2 ue
  | none =>
    match s.take f q (isCmd 6 op) with
    | (s, some (d, h)) => s.rowCommand f q h d ue
    | (s, none) => s

/-- PROMOTE. -/
def execPromote (f q : Nat) (ue : List Nat) (s : State) : Host.Outcome State Fault Refusal := .next (s.rowOp f q 1 ue)

/-- DEMOTE. -/
def execDemote (f q : Nat) (s : State) : Host.Outcome State Fault Refusal := .next (s.rowOp f q 2 [])

/-- MIGRATE. -/
def execMigrate (f q : Nat) (ue : List Nat) (s : State) : Host.Outcome State Fault Refusal := .next (s.rowOp f q 3 ue)

/-- UNMIGRATE. -/
def execUnmigrate (f q : Nat) (ue : List Nat) (s : State) : Host.Outcome State Fault Refusal := .next (s.rowOp f q 4 ue)

/-! ### Sluice commands (R294) -/

def scSlot (d : Desc) : Nat := fld d 31 20
def scDie (d : Desc) : Nat := fld d 19 19
def scWithJob (d : Desc) : Bool := bitAt d 18

/-- Dispatch a sluice command. -/
def State.sluiceOp (s : State) (f q op : Nat) : State :=
  match s.take f q (isCmd 7 op) with
  | (s, none) => s
  | (s, some (d, h)) =>
    let part := f - 1
    let k := scDie d
    let other := match s.pin k (scSlot d) with
      | some p => p.owner ≠ part
      | none => false
    if op ≠ 3 && other then s.complete f q d h stFault
    else if op = 1 then
      let m := s.p k
      let s := s.setPin k (scSlot d) (some
        { held := true, mark := m, owner := part, since := s.now, withQueue := if scWithJob d then some (16 * f + q) else none,
          withJob := none })
      s.complete f q d h stCompleted (some m)
    else if op = 2 then (s.letGo fun i _ => i = 4096 * k + scSlot d).prune.complete f q d h stCompleted (some (s.p k))
    else s.complete f q d h stCompleted (some (s.p k))

/-- PIN. -/
def execPin (f q : Nat) (s : State) : Host.Outcome State Fault Refusal := .next (s.sluiceOp f q 1)

/-- UNPIN. -/
def execUnpin (f q : Nat) (s : State) : Host.Outcome State Fault Refusal := .next (s.sluiceOp f q 2)

/-- MARK. -/
def execMark (f q : Nat) (s : State) : Host.Outcome State Fault Refusal := .next (s.sluiceOp f q 3)

end Sys2Proof.Machine
end

