-- ==== Sys2Proof/Machine/Domains.lean ====
section
/-! DEFINITION. Rate domains: sample and frame ticks, starts, PPS, and shared-tick mode (07: R227 to R232). -/

namespace Sys2Proof.Machine

/-- Entry sub of domain d (Table 10 of 07). -/
def State.dm (s : State) (d sub : Nat) : Nat := s.reg (0x5810 + d) sub
def State.setDm (s : State) (d sub v : Nat) : State := s.setReg (0x5810 + d) sub v

def State.domain (s : State) (d : Nat) : Domain := SMap.get Domain.init s.strm.domains d

def State.modDomain (s : State) (d : Nat) (f : Domain → Domain) : State :=
  { s with strm := { s.strm with domains := SMap.mod Domain.init s.strm.domains d f } }

/-- Configured period in 2^-24 control cycles (R227). -/
def State.dmPeriod (s : State) (d : Nat) : Nat := s.dm d 1 % 65536 * 2 ^ 24 + s.dm d 2 % 2 ^ 24

/-- Shared-tick mode is in force (R232). -/
def State.sharedOn (s : State) : Bool := s.reg 0x5800 2 = 1

def State.dmRuns (s : State) (d : Nat) : Bool := s.dm d 8 = 1

/-- Frame divisor M. -/
def State.dmFrame (s : State) (d : Nat) : Nat := max (s.dm d 3) 1

/-- A domain ticks on its own period: domain 0 always, the others out of shared-tick mode. -/
def State.ownTick (s : State) (d : Nat) : Bool := s.dmRuns d && (d = 0 || !s.sharedOn)

/-- The next sample tick of a domain that ticks on its own is due; no tick falls while the root PLL is not locked (R229). -/
def State.tickDue (s : State) (d : Nat) : Bool := s.reg 0x2100 1 = 1 && s.ownTick d && (s.domain d).at' / 2 ^ 24 ≤ s.now

/-- A sample tick of a domain falls: the next one is a period later. -/
def State.passTick (s : State) (d : Nat) : State :=
  s.modDomain d fun x => { x with next := x.next + 1, at' := x.at' + s.dm d 12 }

/-- Sample tick j of a shared frame falls at the frame tick + floor(j × P0 / M), with P0 exact. -/
def State.sharedTick (s : State) (d j : Nat) : Nat :=
  (s.domain d).lastFrame + j * (s.dmFrame 0 * s.dm 0 12) / (2 ^ 24 * s.dmFrame d)

/-- SAMPLE_TICK: a due sample tick that is no frame tick. -/
def execSampleTick (d : Nat) (s : State) : Host.Outcome State Fault Refusal :=
  .next (
    let x := s.domain d
    if d ≠ 0 && s.sharedOn then
      if 0 < x.shared && x.shared < s.dmFrame d && s.sharedTick d x.shared ≤ s.now then
        s.modDomain d fun x => { x with shared := x.shared + 1 }
      else s
    else if s.tickDue d && x.next % s.dmFrame d ≠ 0 then s.passTick d
    else s)

/-- A frame tick at a control cycle: the count rises, and a domain whose stop is pending stops (R228, R229). -/
def State.countFrame (s : State) (d t : Nat) : State :=
  let s := s.setDm d 10 (s.dm d 10 + 1)
  let stop := (s.domain d).stopping
  let s := s.modDomain d fun x => { x with lastFrame := t, stopping := false, shared := 1 }
  if stop then s.setDm d 8 0 else s

/-- The end of shared-tick mode, at a frame tick of domain 0: running domains go on from there on their own periods, and
one with pps_lock re-anchors at the next valid edge (R232). -/
def State.endShared (s : State) (t : Nat) : State :=
  (List.range 32).foldl (fun s d =>
    if !s.dmRuns d then s
    else
      let again := s.dm d 5 = 1
      if d = 0 then s.modDomain d fun x => { x with again := again }
      else (s.setDm d 9 t).modDomain d fun x =>
        { x with next := 1, at' := t * 2 ^ 24 + s.dm d 12, again := again }) (s.setReg 0x5800 2 0)

/-- FRAME_TICK: a due frame tick; in shared-tick mode domain 0's is every domain's. -/
def execFrameTick (d : Nat) (s : State) : Host.Outcome State Fault Refusal :=
  .next (
    if !s.tickDue d || (s.domain d).next % s.dmFrame d ≠ 0 then s
    else
      let t := (s.domain d).at' / 2 ^ 24
      let s := (s.passTick d).countFrame d t
      if d ≠ 0 || !s.sharedOn then s
      else if s.top.dev = .serving && s.reg 0x5800 1 = 0 then s.endShared t
      else (List.range 31).foldl (fun s k => s.countFrame (k + 1) t) s)

/-! ### Starts (R229) -/

/-- A domain starts at a control cycle: t0, sample tick 0 and frame tick 0 fall there. A start on an edge anchors it, and where a
re-anchor brought it about (R232) an armed start_mode stays armed. -/
def State.startDomain (s : State) (d t : Nat) : State :=
  let x := s.domain d
  let own := x.edgeAt.isNone || x.armed.isSome
  let s := ((if own then s.setDm d 6 0 else s).setDm d 8 1).setDm d 9 t
  (s.setDm d 12 (s.dmPeriod d)).modDomain d fun x =>
    { x with next := 0, at' := t * 2 ^ 24, armed := none, start := if own then none else x.start, edgeAt := none,
             anchored := x.edgeAt.isSome, edges := 0, again := false }

/-- DOMAIN_START_AT: the cycle of a domain's start has come. -/
def execDomainStartAt (d : Nat) (s : State) : Host.Outcome State Fault Refusal :=
  .next (match (s.domain d).edgeAt, (s.domain d).start with
    | some t, _ => if t ≤ s.now then s.startDomain d t else s
    | none, some t => if t ≤ s.now then s.startDomain d t else s
    | none, none => s)

/-- Store start_mode: 0 stops after the next frame tick and disarms, 1 arms on PPS, 2 arms at start_at. -/
def State.writeStartMode (s : State) (d v : Nat) : State :=
  let s := s.setDm d 6 v
  if v = 0 then s.modDomain d fun x => { x with stopping := s.dmRuns d, armed := none, start := none, edgeAt := none }
  else if v = 1 then s.modDomain d fun x => { x with armed := some s.now, start := none }
  else if v = 2 then
    let at' := s.dm d 7
    s.modDomain d fun x => { x with armed := none, start := some (if at' < s.now + 400 then s.now + 4 else at') }
  else s

/-! ### PPS (R230, R231) -/

/-- The timing detector (0x901A): 0 lost, 1 restored. -/
def State.timingEvent (s : State) (cause : Nat) (inj : Bool) : State :=
  s.raise { det := 0x901A, sev := 0, cause := cause, aux := s.reg 0x5800 6, injected := inj }

/-- v rounded to the nearest integer, halves away from zero, of a quotient. -/
def roundTaDiv (a : Int) (b : Nat) : Int :=
  let q := (2 * a.natAbs + b) / (2 * max b 1)
  if a < 0 then -(q : Int) else q

/-- Lock correction of a domain at a valid edge E with its interval c (R231). -/
def State.lockDomain (s : State) (d e c : Nat) : State :=
  let x := s.domain d
  let edges := x.edges + 1
  let rate := s.dm d 4
  let k := rate * edges
  let per := s.dm d 12
  let tp : Int := ((x.at' : Int) + ((k : Int) - x.next) * per) / (2 ^ 24 : Int)
  let p := roundTaDiv (((c : Int) - (tp - e)) * 2 ^ 24) rate
  let pc : Int := s.dmPeriod d
  let lo := -((-(pc * 4999)) / 5000)
  let hi := pc * 5001 / 5000
  let q := clampInt p lo hi
  let s := s.modDomain d fun x => { x with edges := edges }
  let s := if q = p then s else s.setDm d 11 (s.dm d 11 + 1)
  s.setDm d 12 q.toNat

/-- A valid edge reaches a domain: an armed one, or one that re-anchors, starts 4 cycles later; a locked one is corrected. -/
def State.edgeDomain (s : State) (e c d : Nat) : State :=
  let x := s.domain d
  let arm := match x.armed with
    | some w => w + 400 ≤ e
    | none => false
  let locked := s.dmRuns d && s.dm d 5 = 1 && x.anchored && !s.sharedOn
  let s := if locked && !x.again then s.lockDomain d e c else s
  if arm || (x.again && s.dmRuns d && !s.sharedOn) then s.modDomain d fun x => { x with edgeAt := some (e + 4) } else s

/-- The device detects an edge of PPS_IN at the present cycle (R230). -/
def State.detectEdge (s : State) : State :=
  let e := s.now
  let c := match s.strm.ppsEdge with
    | some p => e - p
    | none => 0
  let good := 400000000 - 40000 ≤ c && c ≤ 400000000 + 40000
  let inj := good && s.armed 0x901A 0 0
  let s := if inj then s.consume 0x901A else s
  let s := { s with strm := { s.strm with ppsEdge := some e, ppsInj := s.strm.ppsInj || inj } }
  if !good || inj then (s.setReg 0x5800 5 0).bump 0x5800 6 1
  else
    let back := s.strm.ppsLost
    let s := ((s.setReg 0x5800 3 e).setReg 0x5800 4 c).setReg 0x5800 5 1
    let s := { s with strm := { s.strm with ppsLost := false, ppsInj := false } }
    let s := if back then s.timingEvent 1 false else s
    (List.range 32).foldl (fun s d => s.edgeDomain e c d) s

/-- PPS_EDGE: PPS_IN takes a level; it is an edge that the device detects where it rises after at least 400 control cycles low
(R230). -/
def execPpsEdge (high : Bool) (s : State) : Host.Outcome State Fault Refusal :=
  .next (
    if high = s.strm.ppsHigh then s
    else
      let low := s.now - s.strm.ppsSince
      let s := { s with strm := { s.strm with ppsHigh := high, ppsSince := s.now } }
      if high && 400 ≤ low then s.detectEdge else s)

/-- PPS_LOSS: no valid edge for 1.1 s. -/
def execPpsLoss (s : State) : Host.Outcome State Fault Refusal :=
  .next (
    if s.now < s.reg 0x5800 3 + 440000000 then s
    else
      let s := s.setReg 0x5800 5 0
      if !s.strm.ppsLost && (List.range 32).any fun d => s.dm d 5 = 1 then
        State.timingEvent { s with strm := { s.strm with ppsLost := true } } 0 s.strm.ppsInj
      else s)

/-! ### Shared-tick mode (R232) -/

/-- The mode begins: frames of the other domains come from domain 0. -/
def State.enterShared (s : State) : State :=
  (List.range 31).foldl (fun s k => s.modDomain (k + 1) fun x => { x with shared := 0 }) (s.setReg 0x5800 2 1)

/-- Store shared_tick: 1 holds the mode at once; with 0 it ends at the next frame tick of domain 0 in SERVING. -/
def State.writeSharedTick (s : State) (v : Nat) : State :=
  let s := s.setReg 0x5800 1 (v % 2)
  if v % 2 = 0 || s.sharedOn then s else s.enterShared

end Sys2Proof.Machine
end

