-- ==== Sys2Proof/Machine/Image.lean ====
section
/-! DEFINITION. Program images: header, declarations, manifest, and the tables of the code section (R164 to R171). -/

namespace Sys2Proof.Machine

/-! ### Header (Table 3 of 05) -/

def hdWeirTable (h : Desc) : Nat := fld h 479 448
def hdVariantTable (h : Desc) : Nat := fld h 447 416
def hdLayerTable (h : Desc) : Nat := fld h 415 384
def hdSegTable (h : Desc) : Nat := fld h 383 352
def hdCodeOffset (h : Desc) : Nat := fld h 319 288
def hdManifestOffset (h : Desc) : Nat := fld h 287 256
def hdHandleOffset (h : Desc) : Nat := fld h 255 224
def hdWeirCount (h : Desc) : Nat := fld h 223 208
def hdVariantCount (h : Desc) : Nat := fld h 207 192
def hdManifestCount (h : Desc) : Nat := fld h 159 152
def hdHandleCount (h : Desc) : Nat := fld h 151 144
def hdRowSpan (h : Desc) : Nat := fld h 143 128
def hdImageId (h : Desc) : Nat := fld h 63 32
def hdCodeBytes (h : Desc) : Nat := fld h 351 320

/-! ### Declarations and manifest (Tables 4 and 5 of 05) -/

def wfld (w hi lo : Nat) : Nat := (w >>> lo) % 2 ^ (hi + 1 - lo)

def dclHandle (w : Nat) : Nat := wfld w 47 40
def dclRo (w : Nat) : Nat := wfld w 34 34
def dclRetain (w : Nat) : Nat := wfld w 33 33
def dclResident (w : Nat) : Nat := wfld w 32 32
def dclRows (w : Nat) : Nat := wfld w 29 16
def dclBase (w : Nat) : Nat := wfld w 12 0
def manBase (w : Nat) : Nat := wfld w 116 116
def manSrc (w : Nat) : Nat := wfld w 115 64
def manHandle (w : Nat) : Nat := wfld w 47 40
def manRows (w : Nat) : Nat := wfld w 26 13
def manFirst (w : Nat) : Nat := wfld w 12 0

/-! ### Code section: the rows of handle 0 of the running context -/

/-- Bytes of the code section from an offset on, as a number, and the rows they lie in. -/
def Core.codeNat (c : Core) (x : Ctx) (off n : Nat) : Nat :=
  let e := c.handle (x.hnd 0)
  leNat ((List.range n).map fun i => BitVec.ofNat 8 (c.hByte x.part e (off + i)))

def Core.codeRows (c : Core) (x : Ctx) (off n : Nat) : List Nat :=
  let e := c.handle (x.hnd 0)
  (List.range ((off + n - 1) / 512 - off / 512 + 1)).map fun i => hRow e (512 * (off / 512 + i))

/-- Segment record i (Table 6 of 05). -/
def segOff (x : Ctx) (i : Nat) : Nat := hdSegTable x.header + 32 * i

def Core.segRec (c : Core) (x : Ctx) (i : Nat) : Nat := c.codeNat x (segOff x i) 32

def sgSync (w : Nat) : Nat := wfld w 255 224
def sgCycles (w lanes : Nat) : Nat := if lanes = 32 then wfld w 223 192 else wfld w 191 160
def sgNext (w : Nat) : Nat := wfld w 159 144
def sgCheck (w : Nat) : Nat := wfld w 143 128
def sgWeir (w : Nat) : Nat := wfld w 127 112
def sgEntryOff (w : Nat) : Nat := wfld w 111 80
def sgEntries (w : Nat) : Nat := wfld w 79 64
def sgStart (w : Nat) : Nat := wfld w 63 48
def sgBanks (w : Nat) : Nat := wfld w 7 4
def sgUnits (w : Nat) : Nat := wfld w 3 1
def sgPermit (w : Nat) : Bool := wfld w 0 0 = 1

/-- Schedule entry k of a segment (Table 7 of 05). -/
def Core.schedEntry (c : Core) (x : Ctx) (seg k : Nat) : Nat := c.codeNat x (sgEntryOff seg + 8 * k) 8

def enUnit (w : Nat) : Nat := wfld w 23 21
def enDesc (w : Nat) : Nat := 32 * wfld w 16 0

/-- Layer record (Table 8 of 05). -/
def Core.layerRec (c : Core) (x : Ctx) (i : Nat) : Nat := c.codeNat x (hdLayerTable x.header + 32 * i) 32

def lyTauMse (w : Nat) : Nat := wfld w 255 224
def lyTauClip (w : Nat) : Nat := wfld w 223 192
def lyGuard (w : Nat) : Nat := wfld w 187 184
def lyIn (w : Nat) : Nat := wfld w 183 176
def lyOut (w : Nat) : Nat := wfld w 175 168
def lyShift (w : Nat) : Nat := wfld w 167 160
def lyZp (w : Nat) : Nat := wfld w 159 152
def lyBcastShift (w : Nat) : Nat := wfld w 151 144
def lyBcast (w : Nat) : Bool := wfld w 143 143 = 1
def lyVariants (w : Nat) : Nat := wfld w 135 128
def lyFirstVariant (w : Nat) : Nat := wfld w 127 112
def lyLast (w : Nat) : Nat := wfld w 111 96
def lyFirst (w : Nat) : Nat := wfld w 95 80

/-- Variant entry (Table 9 of 05). -/
def Core.variantRec (c : Core) (x : Ctx) (i : Nat) : Nat := c.codeNat x (hdVariantTable x.header + 8 * i) 8

def vaLast (w : Nat) : Nat := wfld w 47 32
def vaFirst (w : Nat) : Nat := wfld w 31 16
def vaOut (w : Nat) : Nat := wfld w 3 2
def vaIn (w : Nat) : Nat := wfld w 1 0

/-- The variant of a layer with an input and an output width (R176). -/
def Core.findVariant (c : Core) (x : Ctx) (layer inW outW : Nat) : Option Nat :=
  ((List.range (lyVariants layer)).map fun i => c.variantRec x (lyFirstVariant layer + i)).find?
    fun v => vaIn v = inW && vaOut v = outW

/-- Rows of the variant entries of a layer (Table 9 of 05). -/
def Core.variantRows (c : Core) (x : Ctx) (layer : Nat) : List Nat :=
  if lyVariants layer = 0 then [] else c.codeRows x (hdVariantTable x.header + 8 * lyFirstVariant layer) (8 * lyVariants layer)

/-- Rows of the entry of a weir point and of its live map (Tables 10 and 11 of 05). -/
def Core.weirRows (c : Core) (x : Ctx) (w : Nat) : List Nat :=
  let o := hdWeirTable x.header + 16 * w
  let e := c.codeNat x o 16
  c.codeRows x o 16 ++ (if wfld e 95 80 = 0 then [] else c.codeRows x (wfld e 127 96) (8 * wfld e 95 80))

/-- Live rows of a weir point, as handle and row within it (Tables 10 and 11 of 05). -/
def Core.liveMap (c : Core) (x : Ctx) (w : Nat) : List (Nat × Nat) :=
  let e := c.codeNat x (hdWeirTable x.header + 16 * w) 16
  let off := wfld e 127 96
  (List.range (wfld e 95 80)).flatMap fun i =>
    let r := c.codeNat x (off + 8 * i) 8
    (List.range (wfld r 26 13)).map fun k => (wfld r 47 40, wfld r 12 0 + k)

/-- The rows a swap-out of a context that stands at the start of its program writes (R404): those of its retained
handles that are not ro. -/
def Ctx.retainedRows (x : Ctx) : List (Nat × Nat) :=
  (x.decls.filter fun d => dclRetain d = 1 && dclRo d = 0).flatMap fun d =>
    (List.range (dclRows d)).map fun k => (dclHandle d, k)

/-- Rows of the image that a swap-out of the context writes. -/
def Core.spillRows (c : Core) (x : Ctx) : List (Nat × Nat) :=
  if x.weir = 0xFFFF then x.retainedRows else c.liveMap x x.weir

/-- Rows of the context window (R160, R172). -/
def Ctx.window (x : Ctx) : List Nat := rowRun x.rowBase (hdRowSpan x.header)

/-- Handle entries of the context (R172). -/
def Ctx.handles (x : Ctx) : List Nat := (List.range (hdHandleCount x.header)).map fun i => (x.handleBase + i) % 256

/-- Row r lies in the window. -/
def Ctx.inWindow (x : Ctx) (r : Nat) : Bool := (r + cisternRows - x.rowBase) % cisternRows < hdRowSpan x.header

/-- Handle h lies in the context's range. -/
def Ctx.inHandles (x : Ctx) (h : Nat) : Bool := (h + 256 - x.handleBase) % 256 < hdHandleCount x.header

/-- The manifest entry that covers row r of the cistern, and the row's place in it (R167, R184). -/
def Core.covering (c : Core) (x : Ctx) (r : Nat) : Option (Nat × Nat) :=
  x.manifest.findSome? fun m =>
    let b := (hBase (c.handle (x.hnd (manHandle m))) + manFirst m) % cisternRows
    let k := (r + cisternRows - b) % cisternRows
    if k < manRows m then some (m, k) else none

/-- Device address of row k of a manifest entry; the first entry loads the code section (R166). -/
def Ctx.manifestAddr (x : Ctx) (m k : Nat) : Nat :=
  if x.manifest.head? = some m then x.image + hdCodeOffset x.header + 512 * k
  else (if manBase m = 1 then x.weightBase else x.image) + manSrc m + 512 * k

/-- The contents of row k of a manifest entry: the code section's last row is padded with zeros (R166). -/
def Ctx.manifestRow (x : Ctx) (m k : Nat) (bs : List Byte) : Row :=
  let n := if x.manifest.head? = some m then hdCodeBytes x.header - 512 * k else 512
  BitVec.ofNat 4096 (leNat (bs.take n))

/-- Row r belongs to a resident read-only handle of the context (R157, R184). -/
def Core.reloadable (c : Core) (x : Ctx) (r : Nat) : Bool :=
  x.handles.any fun h =>
    let e := c.handle h
    hValid e && hResident e && hRo e && decide ((r + cisternRows - hBase e) % cisternRows < hRows e)

end Sys2Proof.Machine
end

