-- ==== Sys2Proof/Machine/Mxe.lean ====
section
/-! DEFINITION. The Matrix Engine and the rill (R114 to R123). -/

namespace Sys2Proof.Machine

/-! ### Tile descriptor (Table 5 of 04) -/

def txZpRow (d : Nat) : Nat := wfld d 140 128
def txBShift (d : Nat) : Nat := wfld d 124 112
def txAShift (d : Nat) : Nat := wfld d 108 96
def txBRow (d : Nat) : Nat := wfld d 92 80
def txARow (d : Nat) : Nat := wfld d 76 64
def txConsumer (d : Nat) : Bool := wfld d 46 46 = 1
def txSlot (d : Nat) : Nat := wfld d 45 43
def txClose (d : Nat) : Bool := wfld d 42 42 = 1
def txAcc (d : Nat) : Bool := wfld d 41 41 = 1
def txZpB (d : Nat) : Bool := wfld d 40 40 = 1
def txGb (d : Nat) : Nat := groupSize (wfld d 39 38)
def txGa (d : Nat) : Nat := groupSize (wfld d 37 36)
def txFmtB (d : Nat) : Nat := wfld d 35 32
def txFmtA (d : Nat) : Nat := wfld d 31 28
def txK (d : Nat) : Nat := 32 * (wfld d 25 16 + 1)
def txN (d : Nat) : Nat := wfld d 14 8 + 1
def txM (d : Nat) : Nat := wfld d 6 0 + 1

/-- Mode of the MXE (R115): rows mc and reduction kc of a block. -/
def mxeShape (fa fb : Nat) : Nat × Nat :=
  if fa = 7 || fb = 7 then (64, 64) else if fa = 5 || fa = 6 || fb = 5 || fb = 6 then (128, 64) else (128, 128)

/-- The descriptor uses only codes that Tables 2 to 5 of 04 allow. -/
def txLegal (d : Nat) : Bool :=
  let fa := txFmtA d
  let fb := txFmtB d
  fa ≤ 7 && fb ≤ 7 && fa ≠ 1 && fa ≠ 6 && wfld d 39 38 ≠ 3 && wfld d 37 36 ≠ 3
    && (!txZpB d || fb = 1 || fb = 6)

/-- Issue cycles (R119). -/
def txIssue (d : Nat) : Nat :=
  let (mc, kc) := mxeShape (txFmtA d) (txFmtB d)
  ceilDiv (txM d) mc * ceilDiv (txK d) kc * max (txN d) 8

/-- An operand: base row, base of its shift array, base of its zero-point array, format, group size (R116). -/
structure Operand where
  row : Nat
  shift : Nat
  zero : Option Nat
  fmt : Nat
  g : Nat
  deriving DecidableEq, Repr

/-- Byte k of an array packed from a base row. -/
def Core.arrayByte (c : Core) (part base k : Nat) : Nat := rowByte (c.view part ((base + k / 512) % cisternRows)) (k % 512)

/-- Element k of matrix row m of an operand with reduction length len: its exact value, flags, T2 reserved count. -/
def Core.operandElem (c : Core) (part : Nat) (o : Operand) (len m k : Nat) : FV × Nat × Nat :=
  match fmtCode o.fmt with
  | none =>
    let p := m * len + k
    let w := rowBits (c.view part ((o.row + p / 256) % cisternRows)) (16 * (p % 256)) 16
    (fmtBF16.decode w, 0, 0)
  | some cd =>
    let p := m * len + k
    let (r, b) := codePlace cd o.g p
    let z := match o.zero with
      | some base => c.arrayByte part base (p / o.g)
      | none => 0
    expandElem cd (c.arrayByte part o.shift (p / o.g)) z
      (rowBits (c.view part ((o.row + r) % cisternRows)) b cd.width)

/-- Rows that hold n matrix rows of an operand, with its arrays. -/
def Operand.rows (o : Operand) (len n : Nat) : List Nat :=
  match fmtCode o.fmt with
  | none => rowRun o.row (ceilDiv (n * len) 256)
  | some cd =>
    let groups := n * len / o.g
    rowRun o.row (ceilDiv groups (cd.groupsPerRow o.g)) ++ rowRun o.shift (ceilDiv groups 512)
      ++ (match o.zero with
          | some z => rowRun z (ceilDiv groups 512)
          | none => [])

/-- The exact sum of a block's products (R117), with the flags of its operands. -/
def dotExact : List ((FV × Nat × Nat) × (FV × Nat × Nat)) → Option FV → Bool → Nat → FV × Bool × Nat
  | [], acc, bad, fl => (acc.getD (.fin false 0 0), bad, fl)
  | (a, b) :: l, acc, bad, fl =>
    let p := a.1.mul b.1
    let fl := fl ||| a.2.1 ||| b.2.1 ||| (if a.1.isNan || b.1.isNan then flagNanInput else 0)
    match acc with
    | none => dotExact l (some p.1) (bad || p.2) fl
    | some v => let q := v.add p.1; dotExact l (some q.1) (bad || p.2 || q.2) fl

/-- Block sums, each rounded once, added in increasing K order (R117): result and flags. -/
def addBlocks : List (FV × Bool × Nat) → Option W32 → Nat → W32 × Nat
  | [], acc, fl => (acc.getD 0, fl)
  | (v, bad, f) :: l, acc, fl =>
    let (w, g) := round32 (v, bad) 0 0 0
    let fl := fl ||| f ||| g ||| (if bad then flagInvalid else 0)
    match acc with
    | none => addBlocks l (some w) fl
    | some a => let (r, h) := fadd a w; addBlocks l (some r) (fl ||| h)

/-- C[m][n] (R117). -/
def Core.mxeDot (c : Core) (part : Nat) (a b : Operand) (len kc m n : Nat) : W32 × Nat :=
  addBlocks ((List.range (ceilDiv len kc)).map fun j =>
    dotExact ((List.range (min kc (len - j * kc))).map fun i =>
      (c.operandElem part a len m (j * kc + i), c.operandElem part b len n (j * kc + i))) none false 0) none 0

/-- T2 elements with the reserved code that the descriptor expands (R59). -/
def Core.t2Count (c : Core) (part : Nat) (o : Operand) (len n : Nat) : Nat :=
  if o.fmt = 4 then
    (List.range (n * len)).foldl (fun a p => a + (c.operandElem part o len (p / len) (p % len)).2.2) 0
  else 0

/-- Source flags of an engine are set with any flag it sets (Table 16 of 04). -/
def withSource (fl src : Nat) : Nat := if fl = 0 then 0 else fl ||| src

/-- The tile in a slot: the M × N rectangle, +0 elsewhere, or added to the slot's elements (R118). -/
def Core.mxeTile (c : Core) (part : Nat) (a b : Operand) (len kc m n : Nat) (acc : Bool) (old : Slot) : SMap W32 × Nat :=
  ((List.range m).flatMap fun i => (List.range n).map fun j => (i, j)).foldl (fun (st : SMap W32 × Nat) p =>
    let k := p.1 * 128 + p.2
    let (v, fl) := c.mxeDot part a b len kc p.1 p.2
    if acc then
      let (w, g) := fadd (SMap.get 0 st.1 k) v
      (SMap.set 0 st.1 k w, st.2 ||| fl ||| g)
    else (SMap.set 0 st.1 k v, st.2 ||| fl)) (if acc then old.cells else [], 0)

/-- Operands A and B of a tile descriptor for a context. -/
def tileOperands (x : Ctx) (d : Nat) : Operand × Operand :=
  (⟨x.row (txARow d), x.row (txAShift d), none, txFmtA d, txGa d⟩,
   ⟨x.row (txBRow d), x.row (txBShift d), if txZpB d then some (x.row (txZpRow d)) else none, txFmtB d, txGb d⟩)

/-- Run a legal tile descriptor on the slot (R118, R121): none where the slot is in the wrong state (R122). -/
def Core.runTile (c : Core) (x : Ctx) (d : Nat) : Option Core :=
  let old := SMap.get Slot.init c.rill (txSlot d)
  if old.st ≠ (if txAcc d then .filling else .free) then none
  else
    let (a, b) := tileOperands x d
    let (_, kc) := mxeShape (txFmtA d) (txFmtB d)
    let (cells, fl) := c.mxeTile x.part a b (txK d) kc (txM d) (txN d) (txAcc d) old
    let new : Slot := { st := if txClose d then .ready else .filling, cells := cells,
                        flags := (if txAcc d then old.flags else 0) ||| withSource fl flagSrcMxe, gtu := txConsumer d }
    some { c with rill := SMap.set Slot.init c.rill (txSlot d) new }

end Sys2Proof.Machine
end

