-- ==== Sys2Proof/Machine/Streams.lean ====
section
/-! DEFINITION. Stream entries, stacks, chunks, exchange rows, and the end of a batch that aborts (06). -/

namespace Sys2Proof.Machine

/-! ### Stream entries (Table 1 of 06) -/

def sePtr (e : Desc) : Nat := fld e 459 408
def seRows (e : Desc) : Nat := fld e 407 392
def seGen (e : Desc) : Nat := fld e 391 376
def seInc (e : Desc) : Nat := fld e 375 360
def seCounter (e : Desc) : Nat := fld e 359 328
def seUtt (e : Desc) : Nat := fld e 327 312
def seDeadline (e : Desc) : Nat := fld e 311 292
def seOffset (e : Desc) : Nat := fld e 291 282
def sePhase (e : Desc) : Nat := fld e 281 278
def seDomain (e : Desc) : Nat := fld e 277 273
def seStack (e : Desc) : Nat := fld e 272 268
def seReq (e : Desc) : Nat := fld e 267 264
def seAck (e : Desc) : Nat := fld e 263 260
def seRes (e : Desc) : Nat := fld e 259 258
def seCur (e : Desc) : Nat := fld e 257 257
def seBusy (e : Desc) : Nat := fld e 256 255
def seValid (e : Desc) : Bool := bitAt e 254
def seIntake (e : Desc) : Nat := fld e 239 224
def seMisses (e : Desc) : Nat := fld e 223 208
def seWaits (e : Desc) : Nat := fld e 207 192
def seOverruns (e : Desc) : Nat := fld e 191 176
def seId (e : Desc) : Nat := fld e 63 0

/-- busy codes: 0 IDLE, 1 RUNNING, 2 MOVING, 3 HELD. -/
def busyIdle : Nat := 0
def busyRunning : Nat := 1
def busyMoving : Nat := 2
def busyHeld : Nat := 3

def State.entry (s : State) (n : Nat) : Desc := SMap.get 0 s.strm.entries n

/-- A change of an entry by a launch or a hold of the stream controller. -/
def State.modEntry (s : State) (n : Nat) (f : Desc → Desc) : State :=
  { s with strm := { s.strm with entries := SMap.mod 0 s.strm.entries n f } }

def State.setBusy (s : State) (n b : Nat) : State := s.modEntry n fun e => setFld e 256 255 b

/-- Die whose stream controller keeps an entry (R192). -/
def streamDie (n : Nat) : Nat := n / 32768

/-! ### Stacks (Table 3 of 06) -/

def State.stk (s : State) (n sub : Nat) : Nat := s.reg (0x5100 + n) sub
def State.setStk (s : State) (n sub v : Nat) : State := s.setReg (0x5100 + n) sub v

/-- Cores of the stack, in core order. -/
def State.stkCores (s : State) (n : Nat) : List Nat := (s.blob (0x5100 + n) 7).map fun b => b.toNat % 64

/-- Cores of each layer. -/
def State.stkLayers (s : State) (n : Nat) : List Nat := (s.blob (0x5100 + n) 6).map fun b => b.toNat

/-- The owning die: the die of the first listed core (R198). -/
def State.stkDie (s : State) (n : Nat) : Nat := (s.stkCores n).headD 0 / 32

/-- Cores of layer 0, and of the last layer. -/
def State.firstCores (s : State) (n : Nat) : List Nat := (s.stkCores n).take ((s.stkLayers n).headD 0)
def State.lastCores (s : State) (n : Nat) : List Nat :=
  let l := s.stkCores n
  l.drop (l.length - (s.stkLayers n).getLastD 0)

/-- The context of the stack on a core: that of its partition homed there, of the lowest number (R198; log entry 24). -/
def State.stkCtx (s : State) (n l : Nat) : Option Nat :=
  (s.ctxs.find? fun q => q.2.part = s.stk n 2 && q.2.core = l && q.2.st ≠ .free && q.2.st ≠ .killing).map (·.1)

/-- The stack is quiescent (R197). -/
def State.stkQuiet (s : State) (n : Nat) : Bool := s.stk n 1 = 0 && (SMap.get [] s.strm.batches n).isEmpty

def State.batches (s : State) (n : Nat) : List Batch := SMap.get [] s.strm.batches n

def State.setBatches (s : State) (n : Nat) (l : List Batch) : State :=
  { s with strm := { s.strm with batches := SMap.set [] s.strm.batches n l } }

def State.modBatch (s : State) (n j : Nat) (f : Batch → Batch) : State :=
  s.setBatches n ((s.batches n).map fun b => if b.job = j then f b else b)

/-! ### Exchange rows (R210, R217) -/

/-- A row of a die's reservoir, as a key. -/
def xKey (die row : Nat) : Nat := 2 ^ 18 * die + row

/-- The stack whose exchange area holds a row of a die's reservoir. -/
def State.xStack (s : State) (row : Nat) : Option Nat :=
  (List.range 32).find? fun n =>
    let b := s.stk n 17 / 512
    b ≤ row && row < b + s.stk n 18

def State.xFull (s : State) (die row : Nat) : Bool := s.strm.full.contains (xKey die row)

def State.setFull (s : State) (die row : Nat) (on : Bool) : State :=
  let l := s.strm.full.filter (· ≠ xKey die row)
  { s with strm := { s.strm with full := if on then l ++ [xKey die row] else l } }

/-- A row lies beyond the general area of the reservoir: an access to it is unmapped (R320). -/
def State.beyond (s : State) (row : Nat) : Bool := s.generalBytes < 512 * (row + 1)

/-- An access to a reservoir row waits for its full bit (R210); an unmapped one does not wait. -/
def State.xWaits (s : State) (die row : Nat) (write : Bool) : Bool :=
  match s.xStack row with
  | some n => !s.beyond row && !s.strm.cancelled.contains n && s.xFull die row = write
  | none => false

/-- The row is a cancelled exchange row (R217). -/
def State.xCancelled (s : State) (row : Nat) : Bool :=
  match s.xStack row with
  | some n => s.strm.cancelled.contains n
  | none => false

/-- Write a reservoir row, through its full bit; a cancelled row drops it, and so does one beyond the general area, which is
counted (R217, R320). -/
def State.xWrite (s : State) (die row : Nat) (bs : List Byte) : State :=
  if s.xCancelled row then s
  else if s.beyond row then s.unmapped
  else
    let s := s.putResv die (512 * row) bs
    if (s.xStack row).isSome then s.setFull die row true else s

/-- Read a reservoir row, through its full bit; a cancelled row reads as zeros, and so does one beyond the general area, which
is counted (R217, R320). -/
def State.xRead (s : State) (die row : Nat) : State × List Byte :=
  if s.xCancelled row then (s, List.replicate 512 0)
  else if s.beyond row then (s.unmapped, List.replicate 512 0)
  else
    let bs := s.resvBytes die (512 * row) 512
    ((if (s.xStack row).isSome then s.setFull die row false else s).useSlice die (512 * row), bs)

/-- Read exchange rows in order. -/
def State.xReadAll (s : State) (l : List (Nat × Nat)) : State × List Byte :=
  l.foldl (fun a p =>
    let r := a.1.xRead p.1 p.2
    (r.1, a.2 ++ r.2)) (s, [])

/-- Place of an exchange row of a stack: of a kind, for a core and an index (log entry 25). The kinds are 0 mask, 1 state
in, 2 feature, 3 state out, 4 output, 5 frame, 6 feature of a front-end core. -/
def State.xPlace (s : State) (n core kind i : Nat) : Nat × Nat :=
  (core / 32, s.stk n 17 / 512 + Config.exchangeRow n core kind i % max (s.stk n 18) 1)

/-- The invocation that a context is in belongs to a job that has ended: it is still to be cancelled. -/
def State.lingers (s : State) (x : Nat) : Bool := match (s.ctx x).job with
  | some j => (s.job? j).isNone
  | none => false

/-- Once no core is still to cancel an invocation of the stack, its exchange area is empty and no longer cancelled
(R217). -/
def State.settleCancel (s : State) : State :=
  let busy (n : Nat) : Bool := (s.stkCores n).any fun l =>
    let q := (s.core (s.physOf l)).csq
    (q.cancel.isSome || s.lingers q.ctx) && q.phase ≠ .idle && (s.ctx q.ctx).part = s.stk n 2
  s.strm.cancelled.foldl (fun s n =>
    if busy n then s
    else
      let inArea (k : Nat) : Bool :=
        let row := k % 2 ^ 18
        s.stk n 17 / 512 ≤ row && row < s.stk n 17 / 512 + s.stk n 18
      { s with strm := { s.strm with full := s.strm.full.filter fun k => !inArea k,
                                     cancelled := s.strm.cancelled.filter (· ≠ n) } }) s

/-! ### Chunks -/

def dueNone : Nat := 2 ^ 64 - 1

def State.chunk? (s : State) (c : Nat) : Option Chunk := s.strm.chunks.find? fun x => x.id = c

def State.modChunk (s : State) (c : Nat) (f : Chunk → Chunk) : State :=
  { s with strm := { s.strm with chunks := s.strm.chunks.map fun x => if x.id = c then f x else x } }

def State.dropChunk (s : State) (c : Nat) : State :=
  { s with strm := { s.strm with chunks := s.strm.chunks.filter fun x => x.id ≠ c } }

/-- Chunks of a stream, in the order in which they became ready. -/
def State.chunksOf (s : State) (n : Nat) : List Chunk := s.strm.chunks.filter fun c => c.stream = n

def State.ring (s : State) (n : Nat) : Ring := SMap.get Ring.init s.strm.rings n

def State.modRing (s : State) (n : Nat) (f : Ring → Ring) : State :=
  { s with strm := { s.strm with rings := SMap.mod Ring.init s.strm.rings n f } }

/-- What a chunk output record says of a piece (Table 9 of 06). -/
structure Piece where
  utt : Nat
  counter : Nat
  pos : Nat
  first : Nat
  len : Nat
  fresh : Bool
  deriving DecidableEq, Repr

/-- Post an output record of a chunk to the queue of its stack (R215, R434). -/
def State.chunkRec (s : State) (c : Chunk) (p : Piece) (status cause mark flags : Nat) : State :=
  let e := s.entry c.stream
  let n := seStack e
  let w : Nat := put 255 208 mark + put 207 192 p.utt + put 191 160 p.counter + put 159 128 p.pos + put 127 64 (seId e)
    + put 63 48 c.stream + put 47 44 p.first + put 43 40 (p.len - 1) + put 39 39 (boolNat p.fresh)
    + put 37 37 (boolNat c.waited) + put 36 35 status + put 34 32 cause + put 31 20 flags
    + put 7 0 0x21
  s.produce { CRec.blank (s.stk n 2 + 1) (s.stk n 16 % 16) 0 with
    raw := some (BitVec.ofNat 256 w), chunk := some ⟨c.id, c.stream, c.ready, c.due, c.missed, c.inj⟩, needMark := if mark = 0 then none else some mark,
    counts := false, unit := 9 }

/-- The record of a chunk that ends without output. -/
def State.emptyRec (s : State) (c : Chunk) (status cause : Nat) : State :=
  let e := s.entry c.stream
  s.chunkRec c ⟨seUtt e, seCounter e, 0, 0, 1, false⟩ status cause 0 0

/-- Release the ring slots of a chunk that ends (R203). -/
def State.releaseSlots (s : State) (c : Chunk) : State :=
  if c.slots = 0 then s else s.modRing c.stream fun r => { r with used := r.used - c.slots }

/-- A chunk ends DISCARDED: 0 delete, 1 incarnation, 2 resume, 3 partition teardown. -/
def State.discardChunk (s : State) (c : Chunk) (cause : Nat) : State :=
  (((s.emptyRec c 2 cause).releaseSlots c).dropChunk c.id).bump 0x5000 4 1

/-- A chunk's batch ends ABORTED, or the chunk is dropped from it: its stream becomes HELD (R209, R217). Causes: 0 core
fault, 1 spill, 2 state, 3 kill. -/
def State.holdChunk (s : State) (cid cause : Nat) : State :=
  match s.chunk? cid with
  | some c =>
    let s := (s.emptyRec c 1 cause).bump 0x5000 3 1
    (s.setBusy c.stream busyHeld).modChunk cid fun x => { x with st := .held }
  | none => s

/-- The rows of an aborted batch end, its exchange rows are cancelled, and a core fault halts the stack (R217). -/
def State.endBatch (s : State) (n j cause : Nat) (halt : Bool) : State :=
  match (s.batches n).find? fun b => b.job = j with
  | none => s
  | some b =>
    let s := s.discardGroup b.own
    let s := b.rows.foldl (fun s r => if r.dropped then s else s.holdChunk r.chunk cause) s
    let s := s.setBatches n ((s.batches n).filter fun x => x.job ≠ j)
    let s := { s with strm := { s.strm with cancelled := (s.strm.cancelled.filter (· ≠ n)) ++ [n] } }
    if halt then s.setStk n 20 1 else s

/-- DEADLINE_MISS: at a chunk's due time its record has not been posted (R219). A HELD chunk's is its ABORTED record. -/
def State.missChunk (s : State) (n : Nat) : State :=
  let late (due : Nat) (missed : Bool) : Bool := !missed && due < dueNone && due ≤ s.now
  let inRec (r : CRec) : Bool := match r.chunk with
    | some c => c.stream = n && late c.due c.missed
    | none => false
  let open' := s.strm.chunks.find? fun c => c.stream = n && c.st ≠ .held && late c.due c.missed
  let posted := (s.host.made.d0 ++ s.host.made.d1 ++ s.host.accepted.d0 ++ s.host.accepted.d1).find? inRec
  let due := match open', posted with
    | some c, _ => some (c.id, c.due, c.inj)
    | none, some r => r.chunk.map fun x : ChunkRef => (x.id, x.due, x.inj)
    | none, none => none
  match due with
  | none => s
  | some (k, d, inj) =>
    let mark (r : CRec) : CRec := if inRec r && r.chunk.map (fun x : ChunkRef => x.id) = some k then
      { r with chunk := r.chunk.map fun x : ChunkRef => { x with missed := true } } else r
    let s := { s with host := { s.host with
      made := ⟨s.host.made.d0.map mark, s.host.made.d1.map mark⟩,
      accepted := ⟨s.host.accepted.d0.map mark, s.host.accepted.d1.map mark⟩ } }
    let hit (x : Chunk) : Chunk := if x.id = k then { x with missed := true } else x
    let s := { s with strm := { s.strm with chunks := s.strm.chunks.map hit } }
    let e := s.entry n
    let p := s.stk (seStack e) 2
    let s := (s.bump 0x5000 5 1).bump (0x5010 + p) 2 1
    let s := s.modEntry n fun e => setFld e 223 208 (satAdd 16 (seMisses e) 1)
    s.raise { det := 0x9013, sev := 0, detail := d, aux := n, part := some p, injected := inj }

end Sys2Proof.Machine
end

