-- ==== Sys2Proof/Machine/Sched.lean ====
section
/-! DEFINITION. Contexts on a core: which one runs, starting it, parking it, and cancelling its invocation (12: R395, R400,
R413, R492; 06: R217). -/

namespace Sys2Proof.Machine

/-! ### Blocked contexts (R412, R413) -/

/-- A context becomes blocked, or ceases to be; its core may then raise ALL_BLOCKED again. -/
def State.setBlocked (s : State) (x : Nat) (on : Bool) : State :=
  let c := s.ctx x
  if on then (if c.blocked then s else s.modCtx x fun c => { c with blocked := true, blockedFrom := s.now })
  else if c.blocked then
    (s.modCtx x fun c => { c with blocked := false }).modCsq (s.physOf c.core) fun q => { q with said := false }
  else s

/-- A context enters a state: IDLE is blocked, READY and the others are not (R412). -/
def State.setCtxState (s : State) (x : Nat) (st : CtxState) : State :=
  let s := s.modCtx x fun c => { c with st := st, readyFrom := if st = .ready then s.now else c.readyFrom }
  s.setBlocked x (st = .idle)

/-- READY where an invocation is queued or was left inside, IDLE otherwise (Table 3 of 12). -/
def State.restCtx (s : State) (x : Nat) : State :=
  let c := s.ctx x
  s.setCtxState x (if c.mid || !c.queue.isEmpty then .ready else .idle)

/-! ### Busy counts (R414) -/

/-- Charge the time since the last change in which the DMV of a core has had transfers of a partition outstanding, and its GXE threads
that are not FREE. -/
def State.busyTick (s : State) (p : Nat) : State :=
  let c := s.core p
  let cc := 4 * (s.now - c.busyFrom)
  let s := ((c.dmv.map fun d => d.part).eraseDups).foldl (fun s a => s.charge a 5 cc) s
  let parts := (c.threads.filterMap fun t => (c.gxe.find? fun g => g.id = t.cmd).map fun g => g.part).eraseDups
  let s := parts.foldl (fun s a => s.charge a 4 cc) s
  s.modCore p fun c => { c with busyFrom := s.now }

/-- Bring the busy counts of every core up to the present cycle. -/
def State.busyAll (s : State) : State := ((List.range 72).filter fun p => (s.core p).busyFrom ≠ s.now).foldl State.busyTick s

/-! ### Tokens (R110) -/

/-- What the tokens of a mask hold, of every span. -/
def Core.tokensOf (c : Core) (mask : Nat) : List Token := (c.tokens.filter fun k => maskBit mask (tokenNo k.1)).map (·.2)

/-- The tokens of a mask are signalled. -/
def Core.signalled (c : Core) (mask : Nat) : Bool := (c.tokensOf mask).all fun k => k.work = 0

/-! ### Choice (R400) -/

def Issuer.csqPermit (p : Nat) : Permit := ⟨.mxe, .csq p⟩

/-- The physical core issues segments: it is ACTIVE, and its die runs. -/
def State.coreRuns (s : State) (p : Nat) : Bool :=
  s.reg (0xA100 + p) 1 = 0 && !(s.core p).csq.faulted && !s.top.stopped.get (p / 36)

/-- A rotation that has taken the core, or a replacement, holds it (R456). -/
def State.coreHeld (s : State) (p : Nat) : Bool :=
  match s.av.handover with
  | some h => s.physOf h.logical = p && (h.taken || h.copying)
  | none => false

/-- A READY context that may run: inside an invocation, or with its earlier job ended (R432). -/
def Ctx.canRun (c : Ctx) : Bool := c.st = .ready && (c.mid || c.job.isNone)

/-- Contexts homed on the logical core of a physical one. -/
def State.ctxsOn (s : State) (p : Nat) : List (Nat × Ctx) :=
  s.ctxs.filter fun q => q.2.st ≠ .free && s.physOf q.2.core = p

def CtxState.resident : CtxState → Bool
  | .binding => true
  | .idle => true
  | .ready => true
  | .running => true
  | .spilling => true
  | .restoring => true
  | _ => false

/-- Resident contexts of a physical core. -/
def State.residents (s : State) (p : Nat) : List (Nat × Ctx) := (s.ctxsOn p).filter fun q => q.2.st.resident

/-- The context that has been READY longest. -/
def State.longestReady (s : State) (p : Nat) : Option Nat :=
  ((s.ctxsOn p).filter fun q => q.2.canRun).foldl (fun (best : Option Nat) q =>
    match best with
    | some b => if q.2.readyFrom < (s.ctx b).readyFrom then some q.1 else best
    | none => some q.1) none

/-- The context of the oldest SWITCH that is pending for a core (R400). -/
def State.switchFor (s : State) (p : Nat) : Option Nat :=
  (s.ctxOps.find? fun o => o.phase = .weir && descOp o.desc = 4 && s.physOf (s.ctx (fld o.desc 248 237)).core = p).map fun o =>
    fld o.desc 248 237

/-- The context that an idle core starts: the one chosen at the weir point at which a rotation took the core, that of a pending
SWITCH, or the one READY longest (R400, R456). -/
def State.chooseNext (s : State) (p : Nat) : Option Nat :=
  match ((s.core p).csq.switchTo.toList ++ (s.switchFor p).toList).find? fun x => (s.ctx x).canRun with
  | some x => some x
  | none => s.longestReady p

/-- The choice at a weir point that ends the invocation or not: the context that runs after it. -/
def State.chooseWeir (s : State) (p : Nat) (ended : Bool) : Option Nat :=
  let q := (s.core p).csq
  let x := s.ctx q.ctx
  let other := s.longestReady p
  let sw := (s.switchFor p).filter fun y => (s.ctx y).canRun
  if sw.isSome then sw
  else if ended && x.queue.isEmpty then other
  else if usCycles (s.reg (0x7010 + x.part) 3) ≤ s.now - q.ranFrom && other.isSome then other
  else some q.ctx

/-! ### Starting a context -/

/-- Wake what a segment uses (R35). -/
def State.wakeFor (s : State) (p seg : Nat) : State :=
  let s := (List.range 3).foldl (fun s e => if sgUnits seg / 2 ^ e % 2 = 1 then s.useEngine p e else s) s
  (List.range 4).foldl (fun s b => if sgBanks seg / 2 ^ b % 2 = 1 then s.useBank p b else s) s

/-- A segment of a context needs the permit. -/
def State.needsPermit (s : State) (p x seg : Nat) : Bool := seg ≠ 0xFFFF && sgPermit ((s.core p).segRec (s.ctx x) seg)

/-- The next segment of the core: its permit is asked for, kept or returned, and with the request what it uses is woken (R35,
R37). -/
def State.segPermit (s : State) (p x seg : Nat) : State :=
  let w := (s.core p).segRec (s.ctx x) seg
  let s := if s.needsPermit p x seg then s.askPermit (Issuer.csqPermit p) else s.returnPermit (Issuer.csqPermit p)
  if seg = 0xFFFF then s else s.wakeFor p w

/-- The present segment's record. -/
def State.segment (s : State) (p : Nat) : Nat := let c := s.core p; c.segRec (s.ctx c.csq.ctx) c.csq.seg

/-- The context and the segment that follow the present one, with the context that runs after its weir point (R35, R400). -/
def State.nextSegment (s : State) (p : Nat) (choice : Option Nat) : Option (Nat × Nat) :=
  let q := (s.core p).csq
  let next := sgNext (s.segment p)
  choice.map fun y => (y, if y = q.ctx then (if next = 0xFFFF then 0 else next) else (s.ctx y).seg)

/-- The segment's permit is held, or not needed. -/
def State.segReady (s : State) (p : Nat) : Bool :=
  let c := s.core p
  !sgPermit (c.segRec (s.ctx c.csq.ctx) c.csq.seg) || s.holdsPermit (Issuer.csqPermit p)

/-- The RUNNING context is blocked while it waits at a sync point or for a permit. -/
def State.judgeBlocked (s : State) (p : Nat) : State :=
  let c := s.core p
  match c.csq.phase with
  | .hold => s.setBlocked c.csq.ctx (!s.segReady p)
  | .sync => s.setBlocked c.csq.ctx (!c.signalled (sgSync (s.segment p)))
  | .run => s.setBlocked c.csq.ctx false
  | _ => s

/-- Number of the next retry span of a job. -/
def State.takeSpan (s : State) (j : Option Nat) : State × Nat :=
  match j with
  | some j =>
    match s.job? j with
    | some b => (s.modJob j fun x => { x with spanNext := x.spanNext + 1 }, b.spanNext)
    | none => (s, 0)
  | none => (s, 0)

/-- Complete the SWITCH command that waits for a context to run (Table 5 of 12). -/
def State.switchDone (s : State) (x : Nat) : State :=
  match takeFirst (fun o : CtxOp => o.phase = .weir && descOp o.desc = 4 && fld o.desc 248 237 = x) s.ctxOps with
  | some (o, l) => State.complete { s with ctxOps := l } o.fn o.queue o.desc o.head stCompleted
  | none => s

/-- A context starts to run on its core: it takes up its oldest invocation unless it was left inside one, and stands at the
boundary before its segment (R36, R173, R400). -/
def State.startCtx (s : State) (p x : Nat) : State :=
  let c := s.ctx x
  let job := if c.mid then c.job else c.queue.head?
  let seg := if c.mid then c.seg else 0
  let s := s.modCtx x fun c => { c with
    st := .running, job := job, queue := if c.mid then c.queue else c.queue.drop 1, seg := seg, weir := 0xFFFF,
    undo := if c.mid then c.undo else [], mid := true }
  let s := s.setBlocked x false
  let (s, span) := s.takeSpan job
  let s := s.modCsq p fun q => { Csq.init with
    phase := .hold, ctx := x, seg := seg, holdFrom := s.now, ranFrom := s.now, spanSeg := seg, spanNo := span,
    said := q.said, faulted := q.faulted }
  (s.switchDone x).segPermit p x seg

/-- A core that runs no context starts the one that R400 gives, unless it is out of service or held. -/
def State.kick (s : State) (p : Nat) : State :=
  if (s.core p).csq.phase = .idle && s.coreRuns p && !s.coreHeld p then
    match s.chooseNext p with
    | some x => (s.startCtx p x).judgeBlocked p
    | none => s
  else s

/-- The core runs nothing: the permit is returned. -/
def State.idleCore (s : State) (p : Nat) : State :=
  (s.modCsq p fun q => { Csq.init with switchTo := q.switchTo, said := q.said, faulted := q.faulted }).returnPermit
    (Issuer.csqPermit p)

/-- After a weir point or a cancel: the chosen context runs, and a change of context is counted (R400). -/
def State.runNext (s : State) (p old : Nat) : State :=
  let s := (s.idleCore p).kick p
  let q := (s.core p).csq
  if q.phase ≠ .idle && q.ctx ≠ old then (s.bump 0x7000 6 1).bump (0x7810 + (s.ctx q.ctx).part) 16 1 else s

/-- Start a chosen context after a weir point or a cancel; a change of context is counted (R400). -/
def State.handTo (s : State) (p old : Nat) (y : Option Nat) : State :=
  let ran := (s.core p).csq.ranFrom
  let s := s.modCsq p fun q => { Csq.init with said := q.said, faulted := q.faulted }
  match y.filter fun y => (s.ctx y).canRun && s.coreRuns p with
  | some y =>
    let s := s.startCtx p y
    if y = old then (s.modCsq p fun q => { q with ranFrom := ran }).judgeBlocked p
    else ((s.bump 0x7000 6 1).bump (0x7810 + (s.ctx y).part) 16 1).judgeBlocked p
  | none => (s.returnPermit (Issuer.csqPermit p)).runNext p old

/-! ### The dynamic fields of handles (R181) -/

/-- Put back the counts, the tag and the flags of a handle entry. -/
def restoreEntry (now old : Rec) : Rec :=
  let e := setFld now 71 60 (hFlags old)
  let e := setFld e 51 50 (hWidth old)
  setFld (setFld e 103 72 (hElements old)) 151 104 (hCount old)

/-- Undo the changes of the present retry span (R183). -/
def Core.undoSpan (c : Core) : Core :=
  { c with handles := c.csq.undo.foldl (fun m p => SMap.mod 0 m p.1 fun e => restoreEntry e p.2) c.handles,
           csq := { c.csq with undo := [] } }

/-- Undo the changes of the whole invocation of a context (R217). -/
def State.undoInvocation (s : State) (x : Nat) : State :=
  let c := s.ctx x
  let s := s.modCore (s.physOf c.core) fun k =>
    { k with handles := c.undo.foldl (fun m p => SMap.mod 0 m ((c.handleBase + p.1) % 256) fun e => restoreEntry e p.2) k.handles }
  s.modCtx x fun c => { c with undo := [] }

/-- Keep, for a cancel of the invocation, the entries as they stood before it (R217). -/
def State.keepUndo (s : State) (x : Nat) (l : List (Nat × Rec)) : State :=
  s.modCtx x fun c => { c with undo := l.foldl (fun u p =>
    let h := (p.1 + 256 - c.handleBase) % 256
    if u.any fun q => q.1 = h then u else u ++ [(h, p.2)]) c.undo }

/-! ### Unpredictable results (R9, R12; log entry 65) -/

/-- A slot with free contents. -/
def Slot.wild (n k : Nat) : Slot :=
  { st := match (Config.freeValue (n + 1 + k)).toNat % 4 with
      | 0 => .free
      | 1 => .filling
      | 2 => .ready
      | _ => .draining,
    cells := (List.range 16384).foldl (fun m i => SMap.set 0 m i (Config.freeWord n (16384 * k + i))) [],
    flags := (Config.freeValue (n + 9 + k)).toNat % 4096, gtu := (Config.freeValue (n + 17 + k)).toNat % 2 = 1 }

/-- What a context may touch on its core takes free values: the rows of its window that its partition owns, the dynamic fields
of its handle entries, and the rill. -/
def Core.scramble (c : Core) (x : Ctx) (n : Nat) : Core :=
  let c := x.window.foldl (fun c r => c.write x.part r (Config.freeRow n r)) c
  let c := x.handles.foldl (fun c h => c.touch h fun e => restoreEntry e (BitVec.ofNat 256 (Config.freeRow n (8192 + h)).toNat)) c
  { c with rill := (List.range 8).map fun k => (k, Slot.wild n k) }

/-- A reserved code or a malformed image in the running context leaves a result that is unpredictable within its partition (R9,
R12): nothing of another partition changes. -/
def State.unruly (s : State) (p : Nat) : State :=
  let n := s.free
  let x := s.ctx (s.core p).csq.ctx
  State.modCore { s with free := n + 25 } p fun c => c.scramble x n

/-- An access by the MXE, GTU, VXE or CSQ to a row whose tag does not name the partition (R159). -/
def State.markTagFault (s : State) (x : Nat) : State :=
  let s := s.modCtx x fun c => { c with tagFault := true }
  match (s.ctx x).job with
  | some j => s.modJob j fun b => { b with tagFault := true }
  | none => s

/-- The sequencer looks at rows of the code section: one of another owner sets tag_fault (R159). -/
def State.csqTags (s : State) (p x : Nat) (rows : List Nat) : State :=
  if (s.core p).foreign (s.ctx x).part rows then s.markTagFault x else s

/-! ### Swap-outs at a weir point (R404) -/

def coOut (d : Desc) : Nat := fld d 236 225
def coCtx (d : Desc) : Nat := fld d 248 237
def coImage (d : Desc) : Nat := fld d 224 173

/-- Bytes of the header and the handle records of an image (R409). -/
def Ctx.imageHead (x : Ctx) : Nat := 512 * ceilDiv (64 + 16 * hdHandleCount x.header) 512

/-- Size of the image of a parked context (R404, R409). -/
def State.imageSize (s : State) (x : Nat) : Nat :=
  let c := s.ctx x
  c.imageHead + 512 * ((s.core (s.physOf c.core)).spillRows c).length

def State.modOp (s : State) (f : CtxOp → Bool) (g : CtxOp → CtxOp) : State :=
  { s with ctxOps := s.ctxOps.map fun o => if f o then g o else o }

/-- A parked context begins to spill for a SWAP (R404). -/
def State.beginSpill (s : State) (x : Nat) (o : CtxOp) : State :=
  let c := s.ctx x
  let p := s.physOf c.core
  let s := if c.weir = 0xFFFF then s else s.csqTags p x ((s.core p).weirRows c c.weir)
  let s := (s.setCtxState x .spilling).modCtx x fun c => { c with save := coImage o.desc }
  let s := s.modOp (fun q => q = o) fun q => { q with phase := .spill }
  if 1024 * s.reg 0x2000 5 < s.imageSize x then s.askPermit ⟨.hbm, .spill x⟩ else s

/-- The SWAP that waits for the weir point of a context. -/
def State.swapWaiting (s : State) (x : Nat) : Option CtxOp :=
  s.ctxOps.find? fun o => o.phase = .weir && descOp o.desc = 3 && coOut o.desc = x

/-! ### Cancelling (R217, R492) -/

/-- The DMV's work for a context is dropped: the permits that no other chain of the core runs under are returned (R34). -/
def State.dropDmv (s : State) (p x : Nat) : State :=
  let s := s.busyTick p
  let kept := (s.core p).dmv.filter fun i => i.ctx ≠ x
  [⟨.hbm, .dmv p⟩, ⟨.fabric, .dmv p⟩].foldl (fun s (q : Permit) =>
    if kept.any fun i => (i.permits.getD []).contains q then s else s.returnPermit q) s

/-- The engines hold nothing of the invocation: slots FREE, tokens clear, asynchronous work dropped (R123, R113). -/
def Core.quietEngines (c : Core) (x : Nat) : Core :=
  { c with rill := [], tokens := [], gtuBuf := [], window := none, dmv := c.dmv.filter fun d => d.ctx ≠ x,
           gxe := c.gxe.filter fun g => g.ctx ≠ x,
           threads := c.threads.filter fun t => c.gxe.any fun g => g.id = t.cmd && g.ctx ≠ x }

/-- The handle swaps that wait for the end of a context's invocation take effect (R288). -/
def State.takeSwaps (s : State) (x : Nat) : State :=
  let c := s.ctx x
  (s.modCore (s.physOf c.core) fun k => c.swaps.foldl (fun k w => k.swapHandles w.1 w.2) k).modCtx x fun c => { c with swaps := [] }

/-- Park a context at the start of its program (R492). -/
def State.parkStart (s : State) (x : Nat) : State :=
  let s := (s.undoInvocation x).takeSwaps x
  (s.modCtx x fun c => { c with weir := 0xFFFF, seg := 0, mid := false, job := none, cancelled := false }).restCtx x

/-- The rows of the context are being zero-filled: it becomes KILLING (Table 5 of 12). -/
def State.beginClear (s : State) (x : Nat) : State :=
  (s.setCtxState x .killing).modCtx x fun c => { c with mid := false, job := none, queue := [], dying := false }

/-- Carry out the cancel of the RUNNING invocation of a core at a boundary or a sync point: the context is parked, a swap-out that
waits for it starts at once, and the core goes on as from a weir point that ends the invocation (R400, R404, R492). -/
def State.cancelNow (s : State) (p : Nat) : State :=
  let x := (s.core p).csq.ctx
  let choice := s.chooseWeir p true
  let s := s.dropDmv p x
  let s := s.modCore p fun c => (c.undoSpan).quietEngines x
  let s := s.parkStart x
  let s := if (s.ctx x).dying then s.beginClear x
    else match s.swapWaiting x with
      | some o => s.beginSpill x o
      | none => s
  ((s.returnPermit (Issuer.csqPermit p)).handTo p x choice).settleCancel

/-- Ask the core to cancel its invocation: at once where it stands at a boundary or a sync point. -/
def State.askCancel (s : State) (p cause : Nat) : State :=
  let s := s.modCsq p fun q => { q with cancel := some cause }
  if (s.core p).csq.phase = .run then s else s.cancelNow p

/-- Cancel the invocation of a job on a context: a queued one is removed; a parked one ends at once; one that is swapped out
takes the cancel before its next segment (R217, R433). -/
def State.cancelInv (s : State) (j x : Nat) : State :=
  let c := s.ctx x
  if c.job = some j && c.mid then
    match c.st with
    | .running => s.askCancel (s.physOf c.core) 0
    | .ready => s.parkStart x
    | _ => s.modCtx x fun c => { c with cancelled := true, job := none }
  else if c.job = some j then
    let s := s.modCtx x fun c => { c with job := none }
    if c.dying then s.beginClear x else if c.st = .ready || c.st = .idle then s.restCtx x else s
  else if c.queue.contains j then
    let s := s.modCtx x fun c => { c with queue := c.queue.filter (· ≠ j) }
    if c.st = .ready then s.restCtx x else s
  else s

end Sys2Proof.Machine
end

