-- ==== Sys2Proof/Machine/Commit.lean ====
section
/-! DEFINITION. Jobs: the single outcome, the opening of job groups, and the job's completion record (09: R303 to R310; 13:
R431 to R434). -/

namespace Sys2Proof.Machine

/-! ### Closed step (R310) -/

/-- Update jobs that have not reached their final commit: those with an update step and an invocation still to end (log
entry 26). -/
def Job.updating (j : Job) : Bool := j.decision.isNone && 1 ≤ j.step && j.invs.any fun i => !i.finished

/-- C of this module. -/
def State.closedNow (s : State) : Nat :=
  s.jobs.foldl (fun c j => if j.updating then min c (j.step - 1) else c) (s.reg 0x6810 2)

/-- Modules of update_set other than this one. -/
def State.updatePeers (s : State) : List Nat := (maskList 64 (s.reg 0x6810 1)).filter (· ≠ s.me)

/-- Announce the closed step whenever it changes. -/
def State.announce (s : State) : State :=
  let c := s.closedNow
  if c = s.reg 0x6810 3 then s
  else
    let s := s.setReg 0x6810 3 c
    s.updatePeers.foldl (fun s k => s.send { s.msgTo 1 0x06 k with step := c } .verdict) s

/-! ### Pins and verdicts -/

/-- Release the pins that a job releases (R294). -/
def State.releasePins (s : State) (j : Nat) : State :=
  let mine (p : Pin) : Bool := p.held && p.withJob = some j
  if s.sl.pins.any (fun q => q.2.any mine) then (s.letGo fun _ p => mine p).prune else s

/-- Verdict of a job to each home that has parcels of it: status 0 COMMIT, 1 DISCARD (R309). -/
def State.sendVerdicts (s : State) (j : Job) (status : Nat) : State :=
  j.homes.foldl (fun s k => s.send { s.msgTo 1 0x05 k with mark := j.id, step := j.step, status := status } .verdict) s

/-! ### Completion (R434, R436) -/

/-- Number of groups opened, by bit n − 1 for group n. -/
def Job.opens (j : Job) : Nat := j.opened

/-- The completion record of a job. -/
def State.jobRecord (s : State) (j : Job) (status cause : Nat) : CRec :=
  let home := s.qp j.fn j.queue 7
  { CRec.blank j.fn j.queue j.tag with
    irq := j.irq, mark := if status = stCompleted then j.mark else 0, sqHead := j.sqHead % 65536,
    result := (if status = stCompleted then j.opens else 0) + 256 * j.invs.length,
    ctx := (j.invs.head?.map fun i => i.ctx).getD 0, flags := j.flags % 4096,
    bits := 4 * boolNat j.tagFault + 2 * boolNat j.storeFault + boolNat j.remoteFault, cause := cause, status := status,
    needMark := if status = stCompleted && j.opened ≠ 0 then some j.mark else none, flush := maskClear j.links home ≠ 0 }

def State.dropJob (s : State) (j : Nat) : State := { s with jobs := s.jobs.filter fun x => x.id ≠ j }

/-- A context that has ended an invocation of the job may take up its next one; a KILL that waited acts (R432). -/
def State.freeCtx (s : State) (j x : Nat) : State :=
  let c := s.ctx x
  if c.job = some j && !c.mid then
    let s := s.modCtx x fun c => { c with job := none }
    if c.dying then s.beginClear x else s.kick (s.physOf c.core)
  else s

/-- Remote writes of a job that have not been answered (R312). -/
def State.jobWaits (s : State) (j : Nat) : Bool :=
  let mine (o : OutMsg) : Bool := o.use = MsgFor.jobWrite j || o.use = MsgFor.result j
  s.fab.sent.any mine || s.fab.waiting.any mine

/-- A job whose groups have opened, whose results are stored and whose remote writes are answered posts its record. -/
def State.tryFinish (s : State) (j : Nat) : State :=
  match s.job? j with
  | some b =>
    if b.decision = some .completed && b.posted && b.stack.isNone && (b.invs.all fun i => i.stored || i.resRows = 0)
        && !s.jobWaits j then
      let s := (if b.silent then s else s.produce (s.jobRecord b stCompleted 0)).dropJob j
      b.invs.foldl (fun s i => s.freeCtx j i.ctx) s
    else s
  | none => s

/-! ### The decision (R303, R307) -/

/-- The stop of an apply with its job: the applies of the job are dropped with its groups. -/
def State.discardJob (s : State) (j : Nat) : State :=
  (s.jobGroups j).foldl (fun s g => s.discardGroup g.id) s

/-- The opening of a batch has latched: its commit group has been decided and waits for its mark (R307). -/
def State.batchLatched (s : State) (b : Job) : Bool :=
  match b.stack with
  | some n => (s.batches n).any fun x => x.job = b.id && match x.grp.bind s.group? with
    | some g => g.phase = .marking
    | none => false
  | none => false

/-- An abort request against a job (Table 8 of 09): the causes are those of Table 7 of 13; the chunks' causes those of Table
9 of 06. -/
def State.abortJob (s : State) (j cause : Nat) : State :=
  match s.job? j with
  | none => s
  | some b =>
    if b.decision.isSome || s.batchLatched b then s.bump 0x6800 12 1
    else
      let s := s.modJob j fun x => { x with decision := some (.aborted cause) }
      let s := (s.discardJob j).sendVerdicts b 1
      let s := s.releasePins j
      let s := match b.stack with
        | some n => s.endBatch n j (if cause = 1 then 1 else if cause = 2 then 3 else if cause = 6 then 2 else 0) (cause = 0)
        | none => if b.silent then s else s.produce (s.jobRecord ((s.job? j).getD b) stAborted cause)
      let s := s.dropJob j
      let s := b.invs.foldl (fun s i => s.cancelInv j i.ctx) s
      (b.invs.foldl (fun s i => s.kick (s.physOf (s.ctx i.ctx).core)) s).settleCancel.announce

/-- The groups of a decided job open, in rising local number, with consecutive marks (R289, R303 step 5). -/
def State.openJob (s : State) (j : Nat) : State :=
  let gs := s.jobGroups j
  let s := gs.foldl (fun s g =>
    let s := s.openGroup g
    let k := match g.issuer with
      | .job _ k => k
      | _ => 0
    s.modJob j fun x => { x with mark := s.sl.lastMark, opened := if 1 ≤ k then maskSet x.opened (k - 1) else x.opened }) s
  (s.modJob j fun x => { x with posted := true }).tryFinish j

/-- Every group of the job that holds parts on both dies has been answered (R304). -/
def State.jobPrepared (s : State) (j : Nat) : Bool :=
  (s.jobGroups j).all fun g => match g.phase with
    | .answered _ => true
    | .begun => !s.twoDie g
    | _ => false

/-- Latch COMPLETED: the keeper's die opens the groups at once; the other first asks the keeper for the marks; a stalled decision waits
(R284, R286, R303 steps 4 and 5). -/
def State.latchJob (s : State) (j die : Nat) : State :=
  match s.job? j with
  | none => s
  | some b =>
    let s := s.modJob j fun x => { x with decision := some .completed }
    let s := (s.sendVerdicts b 0).releasePins j
    match s.askMarks (s.jobGroups j) (die = s.keeper) with
    | (s, true) => (s.openJob j).announce
    | (s, false) => s.announce

/-- Die of a job: that of its first invocation's core. -/
def State.jobDie (s : State) (j : Nat) : Nat :=
  match s.job? j with
  | some b => ((b.invs.head?.map fun i => (s.ctx i.ctx).core).getD 0) / 32
  | none => 0

end Sys2Proof.Machine
end

