-- ==== Sys2Proof/Machine/Convert.lean ====
section
/-! DEFINITION. Conversion sites of a core: groups stored into handles, conversion windows, counters (R60 to R73, R90). -/

namespace Sys2Proof.Machine

/-- What conversions of one descriptor add to the counters of R91; valid counts the elements of valid groups (R62, R70). -/
structure ConvCount where
  elements : Nat
  valid : Nat
  clipped : Nat
  invalid : Nat
  overrides : Nat
  deriving DecidableEq, Repr

def ConvCount.zero : ConvCount := ⟨0, 0, 0, 0, 0⟩

def ConvCount.add (a b : ConvCount) : ConvCount :=
  ⟨a.elements + b.elements, a.valid + b.valid, a.clipped + b.clipped, a.invalid + b.invalid, a.overrides + b.overrides⟩

/-- Count conversions for the package and for the partition (R91). -/
def State.countConv (s : State) (part : Nat) (n : ConvCount) : State :=
  let s := (s.bump 0x4001 2 n.elements).bump 0x4001 3 n.clipped
  let s := (s.bump 0x4001 4 n.invalid).bump 0x4001 5 n.overrides
  let i := 0x4010 + part
  ((s.bump i 4 n.clipped).bump i 5 n.invalid).bump i 3 n.overrides

/-- The record of the layer being run where h is its output handle (R170). -/
def Core.layerFor (c : Core) (x : Ctx) (h : Nat) : Option Nat :=
  match c.csq.layer with
  | none => none
  | some l => let r := c.layerRec x l; if x.hnd (lyOut r) = h then some r else none

/-- Learned shift and zero point of group k of a layer's output: only on the compiled width (R68, R75). -/
def Core.learned (c : Core) (x : Ctx) (r k : Nat) : Option Learned :=
  if c.csq.outW ≠ 0 then none
  else
    let zero := if lyZp r = 0xFF then none else some (c.hByte x.part (c.handle (x.hnd (lyZp r))) k)
    if lyBcast r then some ⟨signed 8 (lyBcastShift r), zero⟩
    else if lyShift r = 0xFF then none
    else some ⟨signed 8 (c.hByte x.part (c.handle (x.hnd (lyShift r))) k), zero⟩

/-- The rows of the learned shifts and zero points that storing elements of a layer's output at some positions reads (R68, R75). -/
def Core.learnedRows (c : Core) (x : Ctx) (h fmt g : Nat) (ps : List Nat) : List Nat :=
  match c.layerFor x h, fmtCode fmt with
  | some r, some _ =>
    if c.csq.outW ≠ 0 || (!lyBcast r && lyShift r = 0xFF) then []
    else ((ps.map fun p => p / g).eraseDups.flatMap fun k =>
      (if lyZp r = 0xFF then [] else [hRow (c.handle (x.hnd (lyZp r))) k])
        ++ (if lyBcast r then [] else [hRow (c.handle (x.hnd (lyShift r))) k])).eraseDups
  | _, _ => []

/-- Place a block's sums in block-index order (R71). -/
def insertBlock (b : BlockSum) : List BlockSum → List BlockSum
  | [] => [b]
  | a :: l => if b.block < a.block then b :: a :: l else a :: insertBlock b l

/-- Sums of the blocks of 32 of a group, from block index b on. -/
def groupBlocks : Nat → List (FV × FV) → Nat → List BlockSum → List BlockSum
  | 0, _, _, acc => acc
  | fuel + 1, l, b, acc =>
    if l.isEmpty then acc
    else
      let (e, p) := blockSums (l.take 32) (0, 0)
      groupBlocks fuel (l.drop 32) (b + 1) (insertBlock ⟨b, e, p⟩ acc)

/-- What a converted group adds to the window of its layer (R70): statistics of valid groups only. -/
def Window.addGroup (w : Window) (first : Nat) (ws : List W32) (stored : Nat) (o : GroupOut) (mse : Bool) : Window :=
  let w := { w with groups := w.groups + 1, blocks := max w.blocks (ceilDiv (first + ws.length) 32) }
  if o.invalid then w
  else
    { w with elements := w.elements + stored, clipped := w.clipped + o.clipped,
             overrides := w.overrides + boolNat o.override,
             sums := if mse then groupBlocks (ws.length + 1) ((ws.map dec32).zip o.values) (first / 32) w.sums else w.sums }

/-- Convert and store group k of handle h: the elements stored, none where the pass stores none, which take part as +0
(R139); draws where the store rounds stochastically. R91 counts elements converted and does not say whether those of an invalid
group are among them: the model counts them in elements_converted (DESIGN CHOICE, log entry 66). -/
def Core.convGroup (c : Core) (x : Ctx) (h : Nat) (cd : Code) (g k : Nat) (vals : List (Option W32))
    (draws : Option (List Nat)) (mse : Bool) : Core × GroupOut × ConvCount :=
  let ws := vals.map fun v => v.getD 0
  let stored := (vals.filter Option.isSome).length
  let layer := c.layerFor x h
  let inj := match c.window with
    | some w => layer.isSome && w.pending
    | none => false
  let guard := match c.window with
    | some w => w.guard
    | none => 0
  let o := convertGroup cd ws (layer.bind fun r => c.learned x r k) guard draws
  let hit := inj && !o.override && !o.invalid
  let o := if hit then { convertGroup cd ws none guard draws with override := true } else o
  let c := c.storeGroup x.part h cd g k o
  let c := if layer.isSome then
      { c with window := c.window.map fun w =>
          { w.addGroup (k * g) ws stored o mse with pending := w.pending && o.invalid, injOverride := w.injOverride || hit } }
    else c
  (c, o, ⟨stored, if o.invalid then 0 else stored, o.clipped, boolNat o.invalid, boolNat o.override⟩)

/-- Convert and store one BF16 element (R65): flags and counts. A BF16 output has no statistics. -/
def Core.convBF16 (c : Core) (part h pos : Nat) (v : W32) : Core × Nat × ConvCount :=
  let (w, fl, clip) := toBF16 v
  (c.store16 part h pos w.toNat, fl, ⟨1, 1, boolNat clip, 0, 0⟩)

/-- The values stored to an output stream of handle h by position: FP32, BF16, or whole groups. A later value for a
position replaces an earlier one. draws gives the draw of a position where the store rounds stochastically. -/
def Core.storeAll (c : Core) (x : Ctx) (h fmt g : Nat) (vals : SMap (W32 × Nat)) (sr mse : Bool) :
    Core × Nat × ConvCount :=
  match fmtCode fmt with
  | some cd =>
    let groups := (vals.map fun p => p.1 / g).eraseDups
    groups.foldl (fun (st : Core × Nat × ConvCount) k =>
      let cells := (List.range g).map fun i => SMap.get none (vals.map fun p => (p.1, some p.2)) (k * g + i)
      let draws := if sr then some (cells.map fun o => (o.map fun v => v.2).getD 0) else none
      let (c, o, n) := st.1.convGroup x h cd g k (cells.map fun o => o.map fun v => v.1) draws mse
      (c, st.2.1 ||| o.flags, st.2.2.add n)) (c, 0, ConvCount.zero)
  | none =>
    vals.foldl (fun (st : Core × Nat × ConvCount) p =>
      if fmt = 7 then
        let (c, fl, n) := st.1.convBF16 x.part h p.1 p.2.1
        (c, st.2.1 ||| fl, st.2.2.add n)
      else (st.1.store32 x.part h p.1 p.2.1, st.2.1, st.2.2)) (c, 0, ConvCount.zero)

/-- Rows of a handle that positions of a format occupy, with the rows of its arrays: for the tag check of stores. -/
def Core.storeRows (c : Core) (h fmt g : Nat) (ps : List Nat) : List Nat :=
  let e := c.handle h
  let l := match fmtCode fmt with
    | some cd => ps.flatMap fun p =>
        [(hBase e + (codePlace cd g p).1) % cisternRows, hRow (c.handle ((h + 1) % 256)) (p / g)]
          ++ (if cd.ranged then [hRow (c.handle ((h + 2) % 256)) (p / g)] else [])
    | none => ps.map fun p => hRow e ((if fmt = 7 then 2 else 4) * p)
  l.eraseDups

end Sys2Proof.Machine
end

