-- ==== Sys2Proof/Machine/Updates.lean ====
section
/-! DEFINITION. Learning updates: accumulators, parcels, apply windows, turns, the audit (08: R270 to R278; 09: R308 to R314;
11: R380). -/

namespace Sys2Proof.Machine

/-! ### Gradient rows (R271, R272) -/

/-- Elements of a gradient row with its padding. -/
def gradWidth (d : Desc) : Nat := ceilDiv (tdWidth d) (tdGradG d) * tdGradG d

/-- Bytes of a gradient row in a scatter thread or a parcel: its codes, then one shift byte for each group. -/
def gradBytes (d : Desc) : Nat := gradWidth d / 2 + gradWidth d / tdGradG d

/-- Shift byte and codes of each group of a gradient row. -/
def gradGroups (d : Desc) (bs : List Byte) : List (Nat × List Int) :=
  let g := tdGradG d
  (List.range (gradWidth d / g)).map fun k =>
    ((bs.getD (gradWidth d / 2 + k) 0).toNat,
     (List.range (min g (tdWidth d - k * g))).map fun i =>
      let e := k * g + i
      signed 4 ((bs.getD (e / 2) 0).toNat / 16 ^ (e % 2) % 16))

/-- What a gradient row adds to one element each, whether it makes the accumulator invalid, its flags, and its groups that
are dropped below and above the range (Table of R272). -/
structure GradSum where
  adds : List Int
  invalid : Bool
  flags : Nat
  under : Nat
  excess : Nat
  deriving DecidableEq, Repr

def GradSum.join (a b : GradSum) : GradSum :=
  ⟨a.adds ++ b.adds, a.invalid || b.invalid, a.flags ||| b.flags, a.under + b.under, a.excess + b.excess⟩

/-- One group of a gradient row. -/
def gradGroup (accExp : Int) (q : Nat × List Int) : GradSum :=
  let zero := q.2.map fun _ => (0 : Int)
  if !shiftOk .n4 q.1 then ⟨zero, true, flagInvalid, 0, 0⟩
  else
    let s := shiftOf q.1
    if s < accExp then ⟨zero, false, 0, 1, 0⟩
    else if accExp + 40 < s then ⟨zero, false, flagOverflow, 0, 1⟩
    else ⟨q.2.map fun c => c * 2 ^ (s - accExp).toNat, false, 0, 0, 0⟩

def gradSum (d : Desc) (bs : List Byte) : GradSum :=
  (gradGroups d bs).foldl (fun a q => a.join (gradGroup (tdAccExp d) q)) ⟨[], false, 0, 0, 0⟩

/-! ### Accumulators (R272) -/

/-- Bytes of an accumulator row in the update area (R393). -/
def accSize (d : Desc) : Nat := 8 * tdWidth d + 32

/-- Bytes of a die's update area in use. -/
def State.updateUsed (s : State) (d : Nat) : Nat :=
  (s.sl.accums.get d).foldl (fun a x => a + accSize (s.table x.table)) 0

def addSums : List Int → List Int → List Int
  | a :: l, b :: m => (a + b) :: addSums l m
  | [], m => m
  | l, [] => l

/-- Arrivals at an accumulator and its pending parts. -/
def Accum.arrived (a : Accum) : Nat := a.parts.foldl (fun k p => k + p.count) a.count

/-- What a gradient row that brings the arrivals to n adds: the row that brings them to 1,048,576 makes the accumulator invalid and
counts one overflow, and later ones add nothing (R272). -/
def GradSum.counted (g : GradSum) (n : Nat) : GradSum :=
  if n < 1048576 then g else if n = 1048576 then ⟨[], true, flagOverflow, 0, 1⟩ else ⟨[], false, 0, 0, 0⟩

/-- One arrival at an accumulator, into the pending part of a core and a token (R272). -/
def Accum.arrive (a : Accum) (core tok : Nat) (g : GradSum) : Accum :=
  let counted := g.counted (a.arrived + 1)
  let upd (p : AccPart) : AccPart :=
    { p with sums := addSums p.sums counted.adds, invalid := p.invalid || counted.invalid, count := satAdd 32 p.count 1 }
  let parts :=
    if a.parts.any fun p => p.core = core && p.tok = tok then
      a.parts.map fun p => if p.core = core && p.tok = tok then upd p else p
    else a.parts ++ [upd ⟨core, tok, [], false, 0⟩]
  { a with parts := parts }

/-- The outcome of an addition: accepted with flags, or to wait: 1 to begin its group, 2 for the update area, 3 for the quota. -/
inductive AddOut where
  | done (flags : Nat)
  | waits (why : Nat)
  deriving DecidableEq, Repr

/-- Count a gradient row that is the n-th to reach its accumulator: as accumulated below the limit, with its groups out of range. -/
def State.countGrad (s : State) (d : Desc) (g : GradSum) (n : Nat) : State :=
  let s := (s.bump 0x6010 12 (g.counted n).under).bump 0x6010 13 (g.counted n).excess
  if n < 1048576 then (s.bump 0x6010 10 1).bump (0x6020 + tdOwner d) 3 1 else s

/-- Add a gradient row to the accumulator of a row on its home die in a group, and of a job where it comes in a parcel (R272, R309). It
waits to begin a group while 4,096 are undecided (R292), for the update area and for the quota; a wait for what it has waited for
already is not counted again. -/
def State.addGradient (s : State) (die grp job t r : Nat) (d : Desc) (core tok : Nat) (bs : List Byte) (was : Nat) : State × AddOut :=
  let g := gradSum d bs
  let l := s.sl.accums.get die
  let twin := l.any fun a => a.grp = grp && a.table = t && a.row = r
  match l.find? fun a => a.grp = grp && a.job = job && a.table = t && a.row = r with
  | some a =>
    let l := l.map fun x => if x = a then a.arrive core tok g else x
    let s := { s with sl := { s.sl with accums := s.sl.accums.set die l } }
    (s.countGrad d g (a.arrived + 1), .done (g.counted (a.arrived + 1)).flags)
  | none =>
    if !s.fits grp (if twin then 0 else 1) (if twin then 0 else tdStride d + tdStateStride d) then (s.failGroup grp, .done 0)
    else if !s.mayBegin grp then (s, .waits 1)
    else if 2 ^ 20 * s.reg 0x6000 3 < s.updateUsed die + accSize d then (if was = 2 then s else s.bump 0x6010 15 1, .waits 2)
    else if !s.quotaFits (tdOwner d) die (accSize d) then (if was = 3 then s else s.bump (0x7010 + tdOwner d) 11 1, .waits 3)
    else
      let a : Accum := { grp := grp, job := job, table := t, row := r, sums := [], invalid := false, count := 0, parts := [] }
      let s := { s with sl := { s.sl with accums := s.sl.accums.set die (l ++ [a.arrive core tok g]) } }
      (s.countGrad d g 1, .done g.flags)

/-- Merge the pending parts that meet a test (R178, R272). -/
def Accum.merge (f : AccPart → Bool) (a : Accum) : Accum :=
  let ps := a.parts.filter f
  { a with
    sums := ps.foldl (fun l p => addSums l p.sums) a.sums,
    invalid := a.invalid || ps.any fun p => p.invalid,
    count := ps.foldl (fun n p => satAdd 32 n p.count) a.count,
    parts := a.parts.filter fun p => !f p }

def State.modAccums (s : State) (f : List Accum → List Accum) : State :=
  { s with sl := { s.sl with accums := ⟨f s.sl.accums.d0, f s.sl.accums.d1⟩ } }

/-- Join the staged writes of a core's signalled tokens to their groups (R144, R178). -/
def State.joinSpan (s : State) (p : Nat) (done : Nat → Bool) : State :=
  let mine (q : Option (Nat × Nat)) : Bool := match q with
    | some (c, t) => c = p && done t
    | none => false
  let fv (v : Version) : Version := if mine v.span then { v with span := none } else v
  let fb (b : Block) : Block := if mine b.span then { b with span := none } else b
  let fw (w : StageWait) : StageWait :=
    { w with versions := w.versions.map fun v => (v.1, fv v.2), blocks := w.blocks.map fun b => (b.1, fb b.2) }
  let s := { s with sl := { s.sl with
    versions := ⟨lastAlike (s.sl.versions.d0.map fv), lastAlike (s.sl.versions.d1.map fv)⟩,
    blocks := ⟨s.sl.blocks.d0.map fb, s.sl.blocks.d1.map fb⟩,
    waits := ⟨s.sl.waits.d0.map fw, s.sl.waits.d1.map fw⟩ } }
  ((s.modAccums fun l => l.map fun a => a.merge fun q => q.core = p && done q.tok).rearm 0).rearm 1

/-- An accumulator that only discarded arrivals made. -/
def Accum.empty (a : Accum) : Bool := a.parts.isEmpty && a.count = 0 && !a.invalid

/-- Discard the pending parts that meet a test; an accumulator with nothing left is freed. -/
def State.dropParts (s : State) (f : Accum → AccPart → Bool) : State :=
  s.modAccums fun l => (l.map fun a => { a with parts := a.parts.filter fun q => !f a q }).filter fun a => !a.empty

/-- Job groups that hold nothing are as if they had not begun (R287). -/
def State.dropEmptyGroups (s : State) : State :=
  { s with sl := { s.sl with groups := s.sl.groups.filter fun g => s.begun g.id || g.failed || match g.issuer with
      | .job _ _ => false
      | _ => true } }

/-- Discard all writes staged in a retry span of a core, by its tag; its parcels are withdrawn (R144, R183, R380). What earlier
spans have staged stands. -/
def State.discardSpan (s : State) (p span : Nat) (job : Option Nat) : State :=
  let mine (q : Option (Nat × Nat)) : Bool := match q with
    | some (c, t) => c = p && tokenSpan t = span
    | none => false
  let s := s.dropStaged (fun v => mine v.span) (fun b => mine b.span)
  let s := (s.dropParts fun _ q => q.core = p && tokenSpan q.tok = span).dropEmptyGroups
  match job.bind s.job? with
  | some b => b.homes.foldl (fun s k => s.send { s.msgTo 1 0x07 k with mark := b.id, count := span } .verdict) s
  | none => s

/-! ### Applies (R273 to R275) -/

/-- Place a number in a rising list. -/
def insertNat (x : Nat) : List Nat → List Nat
  | [] => [x]
  | y :: l => if x ≤ y then x :: y :: l else y :: insertNat x l

/-- Tables with accumulators in a group, rising. -/
def State.accTables (s : State) (g : Nat) : List Nat :=
  ((s.accumsOf g).map fun a => a.2.table).eraseDups.foldl (fun l x => insertNat x l) []

/-- Ask for the apply windows of a group (R273). -/
def State.askApplies (s : State) (g : Nat) (job : Option Nat) : State :=
  let new := (s.accTables g).map fun t =>
    (⟨g, t, job, (((s.accumsOf g).filter fun a => a.2.table = t).map (fun a => a.2.row)).foldl (fun l x => insertNat x l) [],
      false, false, false⟩ : Apply)
  { s with sl := { s.sl with applies := s.sl.applies ++ new } }

/-- The apply may start: its table has no earlier window undecided, and no other group locks its rows (R273, R308). -/
def State.applyFree (s : State) (a : Apply) : Bool :=
  !a.started && !(s.sl.applies.takeWhile fun x => x ≠ a).any (fun x => x.table = a.table)
    && !a.rows.any fun r => s.sl.locks.any fun l => l.1 = a.table && l.2.1 = r && l.2.2 ≠ a.grp

/-- FP32 of acc × 2^acc_exp (R274). -/
def accToF32 (v : Int) (e : Int) : W32 := BitVec.ofNat 32 (fmtF32.round .even (decide (v < 0)) v.natAbs e).1

/-- New row element and new state element (R274). -/
def optimise (d : Desc) (g w v : W32) : W32 × W32 :=
  let lr := tdLr d
  match tdOptimiser d with
  | 1 => ((fsub w (fmul lr g).1).1, v)
  | 2 =>
    let v' := (ffma g g v).1
    ((fsub w (fdiv (fmul lr g).1 (fadd (fsqrt v').1 (tdP1 d)).1).1).1, v')
  | 3 =>
    let v' := (ffma (tdP1 d) v g).1
    ((fsub w (fmul lr v').1).1, v')
  | _ => (w, v)

/-- Convert the elements of a row from position i on, in groups of n, with draws where the conversion is stochastic. -/
def convertRow (cd : Code) (n : Nat) (draws : Option (Nat → Nat)) : Nat → Nat → List W32 → List GroupOut
  | 0, _, _ => []
  | fuel + 1, i, ws =>
    if ws.isEmpty then []
    else
      let l := ws.take n
      let o := convertGroup cd l none 0 (draws.map fun f => (List.range l.length).map fun k => f (i + k))
      o :: convertRow cd n draws fuel (i + n) (ws.drop n)

/-- Bytes of a row from its converted groups (Table 2 of 08). -/
def packRow (fmt S : Nat) (os : List GroupOut) : List Byte :=
  let codes := os.flatMap fun o => o.patterns
  let shifts := os.map fun o => BitVec.ofNat 8 o.shift
  if fmt = 0 then
    let n := codes.length / 2
    let bytes := (List.range n).map fun i => BitVec.ofNat 8 (codes.getD (2 * i) 0 + 16 * codes.getD (2 * i + 1) 0)
    bytes ++ List.replicate (S - 1 - n) 0 ++ shifts
  else
    let bytes := codes.map fun c => BitVec.ofNat 8 c
    bytes ++ shifts ++ List.replicate (S - bytes.length - shifts.length) 0

/-- Read a row in memory for the sluice controller, for an account: inside the windows of the partition that owns it (R328, R391);
none where it is refused or uncorrectable, which the memory detector reports (R274, R314). -/
def State.rowRead (s : State) (part a n : Nat) (ue : List Nat) : State × Option (List Byte) :=
  let (s, o) := s.readMem part (if part < 16 then some part else none) a n true ue
  if o.refused then (s, none)
  else match o.lost with
    | [] => (s, some o.bytes)
    | _ =>
      match s.place a with
      | .range u off => (s.memEvent 6 (s.locWord u off) 0, none)
      | _ => (s, none)

/-- The newest committed contents of a row or of its state, in the write set of its home die or in memory; none where the
read is uncorrectable (R273, R274). -/
def State.applyRead (s : State) (t r : Nat) (d : Desc) (st : Bool) (ue : List Nat) : State × Option (List Byte) :=
  let h := s.homeDie d r
  match s.newestVisible h t r st s.sl.lastMark with
  | some v =>
    let (s, bad) := s.resvCheck h 2 none ue
    (s, if bad then none else some v.data)
  | none =>
    s.rowRead (tdOwner d) (s.rowPlace h t r st s.sl.lastMark) (if st then tdStateStride d else tdStride d) ue

/-- The counts of converted groups. -/
def convCounts (os : List GroupOut) : ConvCount :=
  os.foldl (fun n o =>
    n.add ⟨o.patterns.length, if o.invalid then 0 else o.patterns.length, o.clipped, boolNat o.invalid, 0⟩) ConvCount.zero

/-- The draws of a row of an update window, by the converter of the table's apply core: the row is a tile of its own, which
starts with a jump and may cross into the next block (R100 to R103, R109, R275). That each row is a tile is the model's reading
(DESIGN CHOICE, log entry 66). -/
def State.applyDraws (s : State) (t r : Nat) (d : Desc) (w : Nat) : State :=
  if w = 0 || (tdRound d && tdOptimiser d < 2) then s
  else
    let first := r * w
    let last := r * w + w - 1
    s.runBank (s.physOf (tdApplyCore d)) 2 16 (tdSeed d) (updateTensorId t (tdUpdateCount d)) first last 24 (tdOwner d) w
      (last / 4096 - first / 4096)

/-- Apply one accumulator row: the versions it stages, and its conversion counts (R274, R275). -/
def State.applyRow (s : State) (g t r : Nat) (d : Desc) (ue : List Nat) : State × List (Nat × Version) × ConvCount :=
  let h := s.homeDie d r
  match (s.sl.accums.get h).find? fun a => a.grp = g && a.table = t && a.row = r with
  | none => (s, [], ConvCount.zero)
  | some a =>
    let (s, bad) := s.resvCheck h 3 none ue
    if a.invalid || bad || 3 < tdOptimiser d || tdOptimiser d = 0 then (s.bump 0x6010 14 1, [], ConvCount.zero)
    else
      let (s, row) := s.applyRead t r d false ue
      let keeps := 2 ≤ tdOptimiser d
      let (s, state) := if keeps then s.applyRead t r d true ue else (s, some [])
      match row, state with
      | some rb, some sb =>
        let w := tdWidth d
        let ws := (expandRow d rb).1
        let sd : Desc := setFld d 176 173 5
        let vs := if keeps then (expandRow sd sb).1 else []
        let new := (List.range w).map fun e =>
          optimise d (accToF32 (a.sums.getD e 0) (tdAccExp d)) (ws.getD e 0) (vs.getD e 0)
        let dr (e : Nat) : Nat := draw (tdSeed d) (updateTensorId t (tdUpdateCount d)) (r * w + e) 24
        let swap (e : Nat) : Nat := let x := dr e; (x * 4096 + x / 4096) % 2 ^ 24
        let cd : Code := if tdFormat d = 0 then .n4 else .n8
        let os := convertRow cd (if tdFormat d = 0 then w else 32) (if tdRound d then none else some dr) (w + 1) 0
          (new.map (·.1))
        let ss := if keeps then convertRow .n8 32 (some swap) (w + 1) 0 (new.map (·.2)) else []
        let vers := s.rowVersions g t r false (packRow (tdFormat d) (tdStride d) os) none []
          ++ (if keeps then s.rowVersions g t r true (packRow 5 (tdStateStride d) ss) none [] else [])
        (s.applyDraws t r d w, vers, (convCounts os).add (convCounts ss))
      | _, _ => (s.bump 0x6010 14 1, [], ConvCount.zero)

/-- Run the rows of a window in increasing order. -/
def State.applyRows (s : State) (g t : Nat) (d : Desc) (ue : List Nat) : List Nat → List (Nat × Version) → ConvCount →
    State × List (Nat × Version) × ConvCount
  | [], vs, n => (s, vs, n)
  | r :: l, vs, n =>
    let s := s.lockRow t r g
    let x := s.applyRow g t r d ue
    x.1.applyRows g t d ue l (vs ++ x.2.1) (n.add x.2.2)

/-- The window's clip test over the elements of valid groups (R62, R70, R72, R83), which an injection may make fail. R91 counts
windows checked and does not say whether an update window that converted no element is one: the model counts it, and does not
count a layer's window without a group (DESIGN CHOICE, log entry 66). -/
def State.judgeApply (s : State) (t : Nat) (d : Desc) (n : ConvCount) : State :=
  let p := tdOwner d
  let s := (s.countConv p n).bump 0x4001 1 1
  let real := windowFails false (BitVec.ofNat 32 (s.reg 0x4000 1)) (BitVec.ofNat 32 (s.reg 0x4000 2)) [] n.valid n.clipped
  let inj := !real && s.armed 0x900F t 0
  let s := if inj then s.consume 0x900F else s
  if real || inj then
    ((s.bump 0x4001 9 1).bump (0x4010 + p) 6 1).raise
      { det := 0x900F, sev := 0, detail := t, aux := n.clipped, part := some p, injected := inj }
  else s

def State.setApply (s : State) (a b : Apply) : State :=
  { s with sl := { s.sl with applies := s.sl.applies.map fun x => if x = a then b else x } }

/-- The apply core of a table is out of service (R273). -/
def State.applyFaulted (s : State) (d : Desc) : Bool := !s.coreRuns (s.physOf (tdApplyCore d))

/-- Run an apply window: its rows are locked, applied and staged, and update_count rises with the group (R273). -/
def State.runApply (s : State) (a : Apply) (ue : List Nat) : State :=
  let d := s.table a.table
  if s.applyFaulted d then
    match a.job with
    | some j => s.abortJob j 4
    | none => s.discardGroup a.grp
  else
    let s := s.setApply a { a with started := true }
    let x := s.applyRows a.grp a.table d ue a.rows [] ConvCount.zero
    let s := (x.1.addItem a.grp (.count a.table)).judgeApply a.table d x.2.2
    match x.2.1 with
    | [] => s
    | vs => s.stage (s.homeDie d (a.rows.headD 0)) (tdOwner d) vs []

/-- APPLY_WINDOW: the first window of a job that may start runs. -/
def execApplyWindow (job : Nat) (ue : List Nat) (s : State) : Host.Outcome State Fault Refusal :=
  .next (match s.sl.applies.find? fun a => a.job = some job && s.applyFree a with
    | some a => s.whenFetched fun s => s.runApply a ue
    | none => s)

/-- No staging of a group waits for space. -/
def State.staged (s : State) (g : Nat) : Bool :=
  !(s.sl.waits.d0 ++ s.sl.waits.d1).any fun w : StageWait =>
    (w.versions.any fun v => v.2.grp = g) || w.blocks.any fun b => b.2.grp = g

/-- APPLY_WINDOW_COMPLETE: every new row of a running window is staged. -/
def execApplyWindowComplete (job : Nat) (s : State) : Host.Outcome State Fault Refusal :=
  .next (match s.sl.applies.find? fun a => a.job = some job && a.started && !a.done && s.staged a.grp with
    | some a => s.setApply a { a with done := true }
    | none => s)

/-! ### Turns (R309 to R311) -/

/-- A module k is closed for step st, or timed out for it. -/
def State.closedFor (s : State) (k st : Nat) : Bool :=
  (if k = s.me then st ≤ s.reg 0x6810 3 else st + 1 ≤ SMap.get 0 s.sl.closed k) || s.sl.timedOut.any fun x => x.1 = k && st ≤ x.2

/-- This module is a pooled home (R311). -/
def State.pooled (s : State) : Bool := !s.updatePeers.isEmpty

/-- Every module of update_set is closed for the step, this one included. -/
def State.stepReady (s : State) (st : Nat) : Bool := ((maskList 64 (s.reg 0x6810 1)) ++ [s.me]).all fun k => s.closedFor k st

/-- Steps and modules of turns that are pending: parcels, and local jobs of a step at their final commit (R303, R311). The parcels of a
module that has timed out for their step hold up nothing before their verdict: they are applied as their own turn then. -/
def State.pendingTurns (s : State) : List (Nat × Nat) :=
  let out (t : Turn) : Bool := t.verdict.isNone && s.sl.timedOut.any fun x => x.1 = t.src && t.step ≤ x.2
  let far := (s.sl.turns.filter fun t => !t.late && t.verdict ≠ some false && !out t).map fun t => (t.step, t.src)
  let near := (s.jobs.filter fun j => 1 ≤ j.step && j.decision.isNone && j.stack.isNone && j.invs.all fun i => i.finished).map
    fun j => (j.step, s.me)
  (far ++ near).eraseDups

def turnLt (a b : Nat × Nat) : Bool := a.1 < b.1 || (a.1 = b.1 && a.2 < b.2)

/-- The first of the pending turns. -/
def State.firstTurn (s : State) : Option (Nat × Nat) :=
  s.pendingTurns.foldl (fun (b : Option (Nat × Nat)) t => match b with
    | some x => if turnLt t x then some t else b
    | none => some t) none

/-- The turn that may be applied now: the first of the pending ones, once its step is ready. -/
def State.currentTurn (s : State) : Option (Nat × Nat) := s.firstTurn.filter fun t => s.stepReady t.1

/-- The step of the first pending turn, with the one module that is awaited for it: every other condition is met (R311). -/
def State.awaitedFor (s : State) : Option (Nat × Nat) :=
  s.firstTurn.bind fun t =>
    match (((maskList 64 (s.reg 0x6810 1)) ++ [s.me]).eraseDups).filter fun k => !s.closedFor k t.1 with
    | [k] => if maskBit (s.reg 0x6810 1) k then some (t.1, k) else none
    | _ => none

/-- Note since when one module alone is awaited. -/
def State.watchTurn (s : State) : State :=
  { s with sl := { s.sl with awaited := s.awaitedFor.map fun x =>
      (x.1, x.2, match s.sl.awaited with
        | some (st, k, since) => if st = x.1 && k = x.2 then since else s.now
        | none => s.now) } }

/-- A local job's turn has come, or it need not wait for one (R303 step 2). -/
def State.jobTurn (s : State) (b : Job) : Bool :=
  !s.pooled || b.step = 0 || s.currentTurn = some (b.step, s.me)

/-- Two accumulators of one row as one: their sums add (R277). -/
def Accum.join (a b : Accum) : Accum :=
  { a with sums := addSums a.sums b.sums, invalid := a.invalid || b.invalid, count := satAdd 32 a.count b.count }

/-- The accumulators that meet a test go into one group, with their pending parts: one accumulator for each row (R277, R311). -/
def gatherAccs (into : Nat) (f : Accum → Bool) (l : List Accum) : List Accum :=
  l.foldl (fun out a =>
    if f a then
      let a := { a.merge (fun _ => true) with grp := into, job := 0 }
      let same (x : Accum) : Bool := x.grp = into && x.job = 0 && x.table = a.table && x.row = a.row
      if out.any same then out.map fun x => if same x then x.join a else x else out ++ [a]
    else out ++ [a]) []

/-- A job of a turn has no verdict when the turn is applied, as its module has timed out: its parcels become a group of their own, which
its verdict decides (R311). -/
def State.splitTurn (s : State) (t : Turn) : State :=
  let (s, g) := s.beginGroup (.home t.step t.src) ((s.group? t.grp).elim 0 fun x => x.die) ((s.group? t.grp).bind fun x => x.part)
  let s := s.modAccums fun l => l.map fun a => if a.grp = t.grp && a.job = t.job + 1 then { a with grp := g } else a
  { s with sl := { s.sl with turns := s.sl.turns.map fun x => if x = t then { x with grp := g } else x } }

/-- A turn begins: the parcels of its jobs with a COMMIT verdict are one group, whose applies are asked for. -/
def State.beginTurn (s : State) (st src : Nat) : State :=
  let all := s.sl.turns.filter fun t => t.step = st && t.src = src && !t.late
  let ts := all.filter fun t => t.verdict = some true
  match ts with
  | [] => s
  | t :: rest =>
    if s.sl.applies.any fun a => a.grp = t.grp then s
    else
      let s := (all.filter fun x => x.grp = t.grp && x.verdict.isNone).foldl (fun (s : State) x => s.splitTurn x) s
      let s := s.modAccums (gatherAccs t.grp fun a => ts.any fun x => a.grp = x.grp && a.job = x.job + 1)
      let old := (rest.map fun x => x.grp).filter fun g => g ≠ t.grp
      let s := { s with sl := { s.sl with
        turns := s.sl.turns.filter fun x => !rest.contains x,
        groups := s.sl.groups.filter fun g => !old.contains g.id } }
      s.askApplies t.grp none

/-- This turn, or a later one, has been applied. -/
def State.turnOver (s : State) (st k : Nat) : Bool := s.sl.lastTurn.any fun t => !turnLt t (st, k)

/-- A turn of a module has been applied: turn_step and turn_module show it (Table 11 of 09), and the turns before it have passed. A
group of a module outside update_set is no turn. -/
def State.passTurn (s : State) (st k : Nat) : State :=
  if k ≠ s.me && !maskBit (s.reg 0x6810 1) k then s
  else
    let s := (s.setReg 0x6810 4 st).setReg 0x6810 5 k
    if s.turnOver st k then s else { s with sl := { s.sl with lastTurn := some (st, k) } }

/-- A turn whose applies are done is decided; the next one may follow. -/
def State.endTurn (s : State) (t : Turn) : State :=
  let s := { s with sl := { s.sl with turns := s.sl.turns.filter fun x => x ≠ t } }
  (s.passTurn t.step t.src).decideGroup t.grp

/-- Parcels outside the order of turns: late ones, and those of a module outside update_set, each a group of its own. -/
def State.looseTurn (s : State) : Option Turn :=
  s.sl.turns.find? fun t => t.late && t.verdict = some true

/-- The turn that this module serves: a loose one, else the current one. -/
def State.servedTurn (s : State) : Option Turn :=
  match s.looseTurn with
  | some t => some t
  | none =>
    match s.currentTurn with
    | some (st, k) => s.sl.turns.find? fun t => t.step = st && t.src = k && !t.late && t.verdict = some true
    | none => none

/-- TURN_APPLY: the served turn's window of a table runs; a turn all of whose windows are done opens. -/
def execTurnApply (table : Nat) (ue : List Nat) (s : State) : Host.Outcome State Fault Refusal :=
  .next (match s.servedTurn with
    | none => s
    | some t => s.whenFetched fun s =>
      let s := if t.late then
          (if s.sl.applies.any fun a => a.grp = t.grp then s
           else (s.modAccums fun l => l.map fun a => if a.grp = t.grp then a.merge fun _ => true else a).askApplies t.grp none)
        else s.beginTurn t.step t.src
      let s := match s.sl.applies.find? fun a => a.grp = t.grp && a.table = table && s.applyFree a with
        | some a =>
          let s := s.runApply a ue
          s.setApply { a with started := true } { a with started := true, done := true }
        | none => s
      State.watchTurn (
        if (s.group? t.grp).isNone then { s with sl := { s.sl with turns := s.sl.turns.filter fun x => x ≠ t } }
        else if (s.sl.applies.all fun a => a.grp ≠ t.grp || a.done) && s.staged t.grp then s.endTurn t
        else s))

/-- STEP_TIMEOUT: a module whose C has stayed below the step of the first pending turn for step_timeout, with every other
condition met, counts as closed for it (R311). -/
def State.doStepTimeout (s : State) (k : Nat) : State :=
  let s := s.watchTurn
  match s.sl.awaited with
  | some (st, m, since) =>
    if m = k && usCycles (s.reg 0x6800 6) ≤ s.now - since then
      (State.bump { s with sl := { s.sl with timedOut := s.sl.timedOut ++ [(k, st)] } } 0x6800 19 1).watchTurn
    else s
  | none => s

/-- STEP_TIMEOUT. -/
def execStepTimeout (k : Nat) (s : State) : Host.Outcome State Fault Refusal := .next (s.doStepTimeout k)

/-- A write to step_close: one lower than the present value is ignored (Table 11 of 09). -/
def State.writeStepClose (s : State) (v : Nat) : State :=
  if s.reg 0x6810 2 ≤ v % 2 ^ 32 then (s.setReg 0x6810 2 v).announce.watchTurn else s

/-- Consume a message: it leaves the list of those that have arrived. -/
def State.consumeMsg (s : State) (m : FabMsg) : State := { s with fab := s.fab.consume m }

/-- The turn of a module for a step has passed: a later one has been applied, or the module has timed out for the step. -/
def State.stepPassed (s : State) (k st : Nat) : Bool :=
  s.turnOver st k || s.sl.timedOut.any fun x => x.1 = k && st ≤ x.2

/-- A parcel comes after its step has passed, or from outside update_set: it is applied as its own turn (R311). -/
def State.parcelLate (s : State) (m : FabMsg) : Bool :=
  s.pooled && s.stepPassed m.src m.step || !maskBit (s.reg 0x6810 1) m.src

/-- The group of a parcel's turn, begun by its first parcel: one for every step and source, and one for each job of a late turn or of a
module outside update_set (R287, R309, R311). -/
def State.parcelGroup (s : State) (m : FabMsg) (d : Desc) (late : Bool) : State × Nat :=
  match s.sl.turns.find? fun t => t.step = m.step && t.src = m.src && t.job = m.mark with
  | some t => (s, t.grp)
  | none =>
    let open' := s.sl.turns.find? fun t => t.step = m.step && t.src = m.src && !t.late && !late && !s.sl.applies.any fun a => a.grp = t.grp
    let (s, g) := match open' with
      | some t => (s, t.grp)
      | none => s.beginGroup (.home m.step m.src) (s.homeDie d m.row) (some (tdOwner d))
    ({ s with sl := { s.sl with turns := s.sl.turns ++ [⟨m.step, m.src, m.mark, g, none, s.now, late⟩] } }, g)

/-- PARCEL: the home adds a parcel to its accumulator and acknowledges it with its flags; without space it waits (R272,
R309). -/
def execParcel (m : FabMsg) (s₀ : State) : Host.Outcome State Fault Refusal :=
  .next (
    let s := s₀.consumeMsg m
    let d := s.table m.table
    let ack (s : State) (fl st : Nat) : State := s.send { m.reply s.me 0x04 st with flags := fl } .none
    if !tdValid d || tdHome d ≠ s.me || tdOptimiser d = 0 || (tdFormat d ≠ 0 && tdFormat d ≠ 5) || tdRows d ≤ m.row then
      ack (s.bump 0x6010 11 1) 0 1
    else
      let again := s.sl.parcelWaits.find? fun q => q.1 = m
      let s := if again.isSome then s else s.charge 16 11 m.data.length
      let late := s.parcelLate m
      let (s, grp) := s.parcelGroup m d late
      let (s, out) := s.addGradient (s.homeDie d m.row) grp (m.mark + 1) m.table m.row d (65536 + m.src) m.count m.data
        (again.elim 0 fun q => q.2)
      let rest := s.sl.parcelWaits.filter fun q => q.1 ≠ m
      match out with
      | .done fl =>
        let s := (s.bump 0x6800 17 1).bump 0x6800 18 (boolNat (late && maskBit (s.reg 0x6810 1) m.src))
        (ack { s with sl := { s.sl with parcelWaits := rest } } fl 0).watchTurn
      | .waits why => { s with fab := s₀.fab, sl := { s.sl with parcelWaits := rest ++ [(m, why)] } })

/-- Waiting parcels that meet a test are discarded: each is consumed and acknowledged, and adds nothing (R309, R380). -/
def State.dropParcels (s : State) (f : FabMsg → Bool) : State :=
  (s.sl.parcelWaits.filter fun q => f q.1).foldl (fun (s : State) q =>
    State.send { s.consumeMsg q.1 with sl := { s.sl with parcelWaits := s.sl.parcelWaits.filter fun x => x ≠ q } }
      (q.1.reply s.me 0x04 0) .none) s

/-- The parcels of a job of another module are discarded; the group of their turn ends with the last job of it (R309). -/
def State.discardTurn (s : State) (t : Turn) : State :=
  let s := s.dropParcels fun q => q.src = t.src && q.mark = t.job
  let s := { s with sl := { s.sl with turns := s.sl.turns.filter fun x => x ≠ t } }
  if s.sl.turns.any fun x => x.grp = t.grp then s.modAccums fun l => l.filter fun a => !(a.grp = t.grp && a.job = t.job + 1)
  else s.discardGroup t.grp

/-- VERDICT: COMMIT (0) lets the parcels of a job be applied; DISCARD frees them (R309). -/
def execVerdict (m : FabMsg) (s : State) : Host.Outcome State Fault Refusal :=
  .next (
    let s := s.consumeMsg m
    let s := match s.sl.turns.find? fun t => t.src = m.src && t.job = m.mark with
      | none => s
      | some t =>
        if m.status = 0 then
          let late := t.late || s.stepPassed m.src t.step
          { s with sl := { s.sl with turns := s.sl.turns.map fun x => if x = t then { x with verdict := some true, late := late } else x } }
        else
          s.discardTurn t
    s.watchTurn.send (m.reply s.me 0x11 0) .none)

/-- CLOSED_STEP (R310). -/
def execClosedStep (m : FabMsg) (s : State) : Host.Outcome State Fault Refusal :=
  .next (
    let s := s.consumeMsg m
    let s := { s with sl := { s.sl with closed := SMap.set 0 s.sl.closed m.src (m.step + 1) } }
    s.watchTurn.send (m.reply s.me 0x11 0) .none)

/-- WITHDRAW: the parcels of a span and attempt of a job are discarded (R380). -/
def execWithdraw (m : FabMsg) (s : State) : Host.Outcome State Fault Refusal :=
  .next (
    let s := s.consumeMsg m
    let gs := (s.sl.turns.filter fun t => t.src = m.src && t.job = m.mark).map fun t => t.grp
    let s := s.dropParts fun a q => gs.contains a.grp && a.job = m.mark + 1 && q.core = 65536 + m.src && q.tok = m.count
    let s := s.dropParcels fun q => q.src = m.src && q.mark = m.mark && q.count = m.count
    s.send (m.reply s.me 0x11 0) .none)

/-! ### Pushes (R278, R288, R312) -/

/-- Tables of this module whose rows, or whose state rows, overlap bytes at a device address: table, row, state. -/
def State.overlaps (s : State) (a n : Nat) : List (Nat × Nat × Bool) :=
  s.tab.desc.flatMap fun q =>
    match q.2 with
    | [] => []
    | (_, d) :: _ =>
      if !tdValid d || tdHome d ≠ s.me || tdWidth d = 0 then []
      else
        let hits (base S : Nat) : List Nat :=
          if a + n ≤ base || base + tdRows d * S ≤ a then []
          else
            let lo := if a < base then 0 else (a - base) / S
            let hi := min ((a + n - 1 - base) / S) (tdRows d - 1)
            (List.range (hi + 1 - lo)).map fun i => lo + i
        (hits (tdBase d) (tdStride d)).map (fun r => (q.1, r, false))
          ++ (if 2 ≤ tdOptimiser d then (hits (tdStateBase d) (tdStateStride d)).map (fun r => (q.1, r, true)) else [])

/-- Bytes of a row with those of a write laid over them: base and length of the row, address and bytes of the write. -/
def overlay (old : List Byte) (base a : Nat) (bs : List Byte) : List Byte :=
  old.zipIdx.map fun p =>
    let x := base + p.2
    if a ≤ x && x < a + bs.length then bs.getD (x - a) 0 else p.1

/-- What a group has staged of a row. -/
def State.stagedVersion (s : State) (g t r : Nat) (st : Bool) : Option Version :=
  (((s.versionsOf g).filter fun v => v.2.table = t && v.2.row = r && v.2.state = st && !v.2.copy).getLast?).map fun v => v.2

/-- The bytes of a row that a block writes, and what the group had staged of it: none stands for the whole row (R278). -/
def wroteOf (v : Option Version) (S base a n : Nat) : List (Nat × Nat) :=
  let lo := a - base
  let hi := min (a + n) (base + S) - base
  match v with
  | some v => if v.wrote.isEmpty then [] else v.wrote ++ [(lo, hi - lo)]
  | none => [(lo, hi - lo)]

/-- A device address of this module by its own number is the local one (R326). -/
def State.ownAddr (s : State) (a : Nat) : Nat :=
  if 2 ^ 48 ≤ a && a < 2 ^ 49 && a / 2 ^ 42 - 64 = s.me then a % 2 ^ 42 else a

/-- Stage a written block in a group: versions of the rows it overlaps, or a plain block on a die (R278, R288, R292). -/
def State.stageBlock (s : State) (g die part a : Nat) (bs : List Byte) (span : Option (Nat × Nat)) : State :=
  let a := s.ownAddr a
  match s.overlaps a bs.length with
  | [] =>
    if s.fits g 1 512 then
      s.stage die part [] [(die, { grp := g, resv := false, cells := bs.zipIdx.map fun p => (a + p.2, p.1), part := part, span := span })]
    else s.failGroup g
  | rows =>
    rows.foldl (fun s x =>
      let d := s.table x.1
      let S := if x.2.2 then tdStateStride d else tdStride d
      let base := (if x.2.2 then tdStateBase d else tdBase d) + x.2.1 * S
      let v := s.stagedVersion g x.1 x.2.1 x.2.2
      let old := v.elim (s.committedRow x.1 x.2.1 d x.2.2) fun v => v.data
      let vs := s.rowVersions g x.1 x.2.1 x.2.2 (overlay old base a bs) span (wroteOf v S base a bs.length)
      if vs.all fun v => s.fitsRow v.2 then s.stage (s.homeDie d x.2.1) part vs [] else s.failGroup g) s

/-! ### The audit (R314) -/

/-- A finding on one copy of a row (Table 9 of 09): a consistency fault. -/
def State.auditFault (s : State) (t r k m : Nat) (inj : Bool) : State :=
  (s.bump 0x6800 14 1).raise
    { det := 0x9012, sev := 2, cause := k, detail := put 63 52 t + put 47 0 m, aux := r, injected := inj }

/-- Overwrite the replica of a row on a die from its home copy. -/
def State.fixReplica (s : State) (die t r : Nat) (bs : List Byte) (m : Nat) : State :=
  let fix (l : List DirEntry) : List DirEntry :=
    l.map fun e => if e.table = t && e.row = r && e.replica.isSome then { e with replica := some (bs, m) } else e
  { s with tab := { s.tab with dir := s.tab.dir.mod die fix } }

/-- Send the home copy of a row, with its mark, to the modules that hold a replica (R269, R314). -/
def State.sendRefresh (s : State) (t r m : Nat) (bs : List Byte) (to' : List Nat) : State :=
  to'.foldl (fun s k => (s.charge 16 10 bs.length).send
    { s.msgTo 2 0x08 k with table := t, row := r, mark := m, data := bs } .refresh) s

/-- Modules that hold a replica of a row. -/
def State.holdersOf (s : State) (t r : Nat) : List Nat := (SMap.get [] s.tab.holders (2 ^ 32 * t + r)).map fun h => h.1

/-- Overwrite every replica of a row from its home copy. -/
def State.fixAll (s : State) (t r : Nat) (bs : List Byte) (m : Nat) : State :=
  ((s.fixReplica 0 t r bs m).fixReplica 1 t r bs m).sendRefresh t r m bs (s.holdersOf t r)

/-- Address of the home copy of a row. -/
def State.homeAddr (s : State) (t r : Nat) : Nat :=
  let d := s.table t
  ((s.dirNow (s.homeDie d r) t r).bind fun e => e.reloc).getD (tdBase d + r * tdStride d)

/-- The home copy of a row is rewritten from a replica as a drain at its mark, and the other replicas are refreshed. -/
def State.fixHome (s : State) (t r : Nat) (bs : List Byte) (m : Nat) : State :=
  let s := (s.writeMem 16 none (s.homeAddr t r) bs).1.setHomeMark t r m
  (s.fixAll t r bs m).bump 0x6800 16 1

/-- Compare the replica of a row on a die with the home copy (Table 9 of 09). A home copy that cannot be read settles nothing. -/
def State.auditDie (s : State) (t r die : Nat) : State :=
  match (s.dirNow die t r).bind fun e => e.replica with
  | none => s
  | some (bs, m) =>
    match s.rowRead 16 (s.homeAddr t r) (tdStride (s.table t)) [] with
    | (s, none) => s
    | (s, some home) =>
    let hm := s.homeMarkOf t r
    let (s, lost) := s.resvCheck die 1 none []
    let real := decide (m = hm && bs ≠ home) || !(markLe m hm || markLe m s.sl.lastMark)
    if lost then s.fixReplica die t r home hm
    else if !real && s.armed 0x9012 t 0 then ((s.consume 0x9012).fixReplica die t r home hm).auditFault t r s.me hm true
    else if m = hm then (if bs = home then s else (s.fixAll t r home hm).auditFault t r s.me hm false)
    else if markLt m hm then (s.fixReplica die t r home hm).bump 0x6800 15 1
    else if markLe m s.sl.lastMark then s.fixHome t r bs m
    else (s.fixReplica die t r home hm).auditFault t r s.me m false

/-- AUDIT: the home die compares each replica of a row of this module, and asks the modules that hold one for theirs by a
peer read (R314, R379). With audit_interval 0 there is no audit. -/
def execAudit (table row : Nat) (s : State) : Host.Outcome State Fault Refusal :=
  .next (
    let d := s.table table
    if !tdValid d || tdHome d ≠ s.me || s.reg 0x6800 7 = 0 then s
    else s.whenFetched fun s =>
      let s := (s.auditDie table row 0).auditDie table row 1
      (SMap.get [] s.tab.holders (2 ^ 32 * table + row)).foldl (fun s h =>
        s.send { s.msgTo 0 0x01 h.1 with flags := 1, table := table, row := row, count := tdStride d,
                                         addr := tdBase d + row * tdStride d } .refresh) s)

end Sys2Proof.Machine
end

