-- ==== Sys2Proof/Machine/Dmv.lean ====
section
/-! DEFINITION. Tokens and the Data Mover (04: R110, R144 to R148; 02: R88; 06: R210; 11: R382). -/

namespace Sys2Proof.Machine

/-! ### Tokens (R110) -/

/-- The token of a key. -/
def Core.token (c : Core) (k : Nat) : Token := SMap.get Token.init c.tokens k

/-- Every token of a retry span is complete (R183). -/
def Core.spanQuiet (c : Core) (span : Nat) : Bool := c.tokens.all fun k => tokenSpan k.1 ≠ span || k.2.work = 0

def Core.modToken (c : Core) (t : Nat) (f : Token → Token) : Core := { c with tokens := SMap.mod Token.init c.tokens t f }

/-- A command or descriptor names a token. -/
def Core.nameToken (c : Core) (t : Nat) : Core := c.modToken t fun k => { k with work := k.work + 1 }

/-- Work that named a token is complete. -/
def Core.signalToken (c : Core) (t : Nat) : Core := c.modToken t fun k => { k with work := k.work - 1 }

/-- The error bit, with the cistern rows whose uncorrectable reads set it, and whether an injection did so (R155, R184, R185). -/
def State.tokenError (s : State) (p t : Nat) (rows : List Nat := []) (inj : Bool := false) : State :=
  s.modCore p fun c => c.modToken t fun k => { k with error := true, real := k.real || !inj, rows := k.rows ++ rows }
def State.tokenFault (s : State) (p t : Nat) : State := s.modCore p fun c => c.modToken t fun k => { k with fault := true }

/-- The lookahead of the running segment acts once the tokens of its sync point are complete: the next segment's permit is
asked for, and what it uses is woken (R35). -/
def State.lookOn (s : State) (p : Nat) : State :=
  let c := s.core p
  let q := c.csq
  let sg := s.segment p
  if q.phase = .run && q.looked && c.signalled (sgSync sg) then
    match s.nextSegment p q.chosen with
    | some (y, n) =>
      let s' := if s.needsPermit p y n then s.askPermit (Issuer.csqPermit p) else s
      s'.wakeFor p (c.segRec (s.ctx y) n)
    | none => s
  else s

/-! ### Descriptors (Table 19 of 04) -/

def dvSluice (d : Rec) : Nat := fld d 207 192
def dvDst (d : Rec) : Nat := fld d 179 128
def dvSrc (d : Rec) : Nat := fld d 115 64
def dvDstStride (d : Rec) : Nat := fld d 63 48
def dvSrcStride (d : Rec) : Nat := fld d 47 32
def dvRows (d : Rec) : Nat := fld d 31 16 + 1
def dvToken (d : Rec) : Nat := fld d 12 8
def dvChain (d : Rec) : Bool := bitAt d 7
def dvDstKind (d : Rec) : Nat := fld d 5 4
def dvSrcKind (d : Rec) : Nat := fld d 3 2
def dvOp (d : Rec) : Nat := fld d 1 0

/-- No reserved code (R9, R88, R145). -/
def dvLegal (d : Rec) : Bool :=
  dvOp d ≠ 3 && dvDstKind d ≠ 3 && (dvOp d = 1 || dvSrcKind d ≠ 3) && dvSluice d ≤ 8
    && !(dvSluice d ≠ 0 && dvDstKind d = 0) && (dvOp d ≠ 2 || (dvDstStride d = 1 && dvSrcStride d = 1))

/-- Rows that it moves: an MX import has its scale rows after its element rows (R88). -/
def dvTotal (d : Rec) : Nat := if dvOp d = 2 then dvRows d + ceilDiv (dvRows d) 16 else dvRows d

/-- Relocate its cistern rows (R160). -/
def dvRelocate (x : Ctx) (d : Rec) : Rec :=
  let d := if dvDstKind d = 0 then setFld d 179 128 (x.row (dvDst d % 8192)) else d
  if dvOp d ≠ 1 && dvSrcKind d = 0 then setFld d 115 64 (x.row (dvSrc d % 8192)) else d

/-- An end of a transfer: a cistern row, a device address, or a row of a die's reservoir. -/
inductive Spot where
  | cistern (r : Nat)
  | device (a : Nat)
  | resv (die row : Nat)
  deriving DecidableEq, Repr

def spotOf (kind base stride i : Nat) : Spot :=
  if kind = 0 then .cistern ((base + i * stride) % cisternRows)
  else if kind = 1 then .device (base + 512 * i * stride)
  else .resv (base / 2 ^ 27 % 2) ((base % 2 ^ 27) / 512 + i * stride)

def dvFrom (d : Rec) (i : Nat) : Spot := spotOf (dvSrcKind d) (dvSrc d) (dvSrcStride d) i
def dvTo (d : Rec) (i : Nat) : Spot := spotOf (dvDstKind d) (dvDst d) (dvDstStride d) i

/-! ### Permits (R146) -/

def State.dmvItems (s : State) (p chain : Nat) : List DmvItem := (s.core p).dmv.filter fun i => i.chain = chain

/-- Bytes of a chain to or from the fast tier, and over Quiwen Link. -/
def State.chainBytes (s : State) (l : List DmvItem) : Nat × Nat :=
  let one (sp : Spot) : Nat × Nat :=
    match sp with
    | .device a => (match s.place a with
      | .range u _ => if u < 4 then (512, 0) else (0, 0)
      | .remote _ _ => (0, 512)
      | _ => (0, 0))
    | _ => (0, 0)
  l.foldl (fun t i =>
    (List.range (dvTotal i.desc)).foldl (fun t k =>
      let a := one (dvTo i.desc k)
      let b := if dvOp i.desc = 1 then (0, 0) else one (dvFrom i.desc k)
      (t.1 + a.1 + b.1, t.2 + a.2 + b.2)) t) (0, 0)

/-- Permits that a chain needs. -/
def State.chainPermits (s : State) (p : Nat) (l : List DmvItem) : List Permit :=
  let (f, q) := s.chainBytes l
  (if 1024 * s.reg 0x2000 5 < f then [⟨.hbm, .dmv p⟩] else []) ++ (if 1024 * s.reg 0x2000 6 < q then [⟨.fabric, .dmv p⟩] else [])

/-! ### Rows (R147, R210) -/

/-- Link that carries the host-memory accesses of a die's units (R421, R422). -/
def State.dieLink (s : State) (die : Nat) : Nat := if s.hostLinkState die = 2 then die else 1 - die

/-- A host-memory write of a job's unit: the link that carries it is noted (R436). -/
def State.noteLink (s : State) (job : Option Nat) (die : Nat) (a : Nat) : State :=
  match s.place a, job with
  | .host _, some j => s.modJob j fun b => { b with links := maskSet b.links (s.dieLink die) }
  | _, _ => s

/-- What reading one source row gives: its bytes, or that it is uncorrectable, or that it waits for its full bit, or that
another module has been asked for it. -/
inductive RowIn where
  | bytes (l : List Byte)
  | lost
  | waits
  | asked
  deriving DecidableEq, Repr

def zeroRow : List Byte := List.replicate 512 0

/-- Read source row i of a DMV item. -/
def State.dmvRead (s : State) (p : Nat) (it : DmvItem) (i : Nat) (up : Upsets) (ue : List Nat) : State × RowIn :=
  if dvOp it.desc = 1 then (s, .bytes zeroRow)
  else match dvFrom it.desc i with
  | .cistern r =>
    if !(s.core p).owns it.part r then (s.tokenFault p it.token, .bytes zeroRow)
    else
      let (s, bad) := s.readRows p it.part 2 [r] up
      if bad.isSome then (s.tokenError p it.token bad.toList (bad.all fun b => !up.lost.contains b), .lost)
      else (s, .bytes (wordBytes ((s.core p).view it.part r)))
  | .device a =>
    match s.place a with
    | .remote k b =>
      if s.allows (some it.part) a 512 false then
        (s.send { s.msgTo 3 0x0B k with addr := b, count := 512, row := i } (.dmv p it.id), .asked)
      else (s.unmapped.tokenFault p it.token, .bytes zeroRow)
    | _ =>
      let was := s.reg 0x9006 4
      let (s, o) := s.readMem it.part (some it.part) a 512 false ue
      if o.refused then (s.tokenFault p it.token, .bytes zeroRow)
      else match o.lost with
        | [] => (s, .bytes o.bytes)
        | l => (s.tokenError p it.token [] (l.length ≤ 1 && s.reg 0x9006 4 ≠ was), .lost)
  | .resv die row =>
    if s.generalBytes < 512 * (row + 1) then (s.unmapped.tokenFault p it.token, .bytes zeroRow)
    else if s.xWaits die row false = false && (s.xStack row).isSome && !s.xFull die row && !s.xCancelled row then (s, .waits)
    else
      let (s, bs) := s.xRead die row
      let was := s.reg 0x9005 4
      let (s, bad) := s.resvCheck die 4 (some (512 * row)) ue
      if bad then (s.tokenError p it.token [] (s.reg 0x9005 4 ≠ was), .lost) else (s, .bytes bs)

/-- A source row of an exchange area that is empty makes its read wait. -/
def State.readWaits (s : State) (it : DmvItem) (i : Nat) : Bool :=
  dvOp it.desc ≠ 1 && match dvFrom it.desc i with
    | .resv _ row => (s.xStack row).isSome && !s.xCancelled row && !s.xFull (dvSrc it.desc / 2 ^ 27 % 2) row
    | _ => false

/-- A destination row of an exchange area that is full makes its write wait. -/
def State.writeWaits (s : State) (it : DmvItem) (i : Nat) : Bool :=
  match dvTo it.desc i with
  | .resv die row => s.xWaits die row true
  | _ => false

/-- Group in which an item stages its writes. -/
def State.dmvGroup (s : State) (it : DmvItem) : State × Option Nat :=
  match it.job with
  | some j =>
    let (s, g) := s.jobGroup j (dvSluice it.desc) (s.jobDie j) (some it.part)
    (s, some g)
  | none => (s, none)

/-- Die of the physical core of an item, where a block for another module or for the host is held (Table 2 of 09). -/
def State.blockDie (s : State) (p a : Nat) : Nat :=
  match s.place a with
  | .range u _ => rangeDie u
  | _ => p / 36

/-- Note whose write waits: the stagings that the DMV's item has just added (R146). -/
def State.waitsOf (s old : State) (p k : Nat) : State :=
  let mark (a b : List StageWait) : List StageWait := a.take b.length ++ (a.drop b.length).map fun w => { w with item := some (p, k) }
  { s with sl := { s.sl with waits := ⟨mark s.sl.waits.d0 old.sl.waits.d0, mark s.sl.waits.d1 old.sl.waits.d1⟩ } }

/-- Write destination row i of a DMV item. -/
def State.dmvWrite (s : State) (p : Nat) (it : DmvItem) (i : Nat) (bs : List Byte) (ue : List Nat) : State :=
  match dvTo it.desc i with
  | .cistern r =>
    if (s.core p).owns it.part r then
      (s.modCore p fun c => c.write it.part r (BitVec.ofNat 4096 (leNat bs))).useBank p (r % 4)
    else s.tokenFault p it.token
  | .device a =>
    if !s.allows (some it.part) a 512 true then s.unmapped.tokenFault p it.token
    else if dvSluice it.desc ≠ 0 then
      let s := s.noteLink it.job (p / 36) a
      match s.dmvGroup it with
      | (s, some g) => (s.stageBlock g (s.blockDie p a) it.part a bs (some (p, it.token))).waitsOf s p it.id
      | (s, none) => s
    else match s.place a with
      | .remote k b =>
        (s.charge it.part 10 512).send { s.msgTo 3 0x0C k with addr := b, count := 512, row := i, data := bs } (.dmv p it.id)
      | .host _ =>
        let s := ((s.noteLink it.job (p / 36) a).writeMem it.part (some it.part) a bs).1
        if ue.any fun b => a ≤ 32 * b && 32 * b < a + 512 then s.tokenError p it.token else s
      | _ => (s.writeMem it.part (some it.part) a bs).1
  | .resv die row =>
    if s.generalBytes < 512 * (row + 1) then s.unmapped.tokenFault p it.token
    else if dvSluice it.desc ≠ 0 then
      match s.dmvGroup it with
      | (s, some g) =>
        if s.fits g 1 512 then
          (s.stage die it.part [] [(die, { grp := g, resv := true, part := it.part, span := some (p, it.token),
                                           cells := bs.zipIdx.map fun q => (die * 2 ^ 27 + 512 * row + q.2, q.1) })]).waitsOf s p it.id
        else s.failGroup g
      | (s, none) => s
    else s.xWrite die row bs

/-- The bytes written for source row i: an MX import makes shift bytes of its scale rows (R88). R88 speaks of blocks on their
way into the cistern, and Table 19 of 04 reserves no other destination: the model converts for every destination (DESIGN
CHOICE, log entry 64). An uncorrectable row is not converted: its destination row is zeros (R147). -/
def State.dmvConvert (s : State) (it : DmvItem) (i : Nat) (bs : List Byte) : State × List Byte :=
  let d := it.desc
  if dvOp d ≠ 2 || i < dvRows d then (s, bs)
  else
    let k := i - dvRows d
    let n := 32 * dvRows d
    let out := bs.zipIdx.map fun p => if 512 * k + p.2 < n then mxShift p.1.toNat else (0, false)
    let blocks := min 512 (n - 512 * k)
    let bad := (out.filter fun o => o.2).length
    ((s.bump 0x4001 10 blocks).bump 0x4001 11 bad, out.map fun o => BitVec.ofNat 8 o.1)

def State.modItem (s : State) (p k : Nat) (f : DmvItem → DmvItem) : State :=
  s.modCore p fun c => { c with dmv := c.dmv.map fun i => if i.id = k then f i else i }

/-- Row requests of a core's DMV that are in flight: messages that another module has still to answer (R148). -/
def State.dmvFlight (s : State) (p : Nat) : Nat :=
  let mine (o : OutMsg) : Bool := match o.use with
    | .dmv q _ => q = p
    | _ => false
  (s.fab.sent.filter mine).length + (s.fab.waiting.filter mine).length

/-- Moving a row makes a request of another module: of its source, or of its destination (R326). -/
def State.dmvFar (s : State) (it : DmvItem) (i : Nat) : Bool :=
  let far (sp : Spot) : Bool := match sp with
    | .device a => (match s.place a with
      | .remote _ _ => true
      | _ => false)
    | _ => false
  (dvOp it.desc ≠ 1 && far (dvFrom it.desc i)) || (dvSluice it.desc = 0 && far (dvTo it.desc i))

/-- Move one row of an item, if no full bit makes it wait, and no 128 row requests are in flight where it makes one (R148). -/
def State.dmvRow (s : State) (p : Nat) (it : DmvItem) (up : Upsets) (ue : List Nat) (i : Nat) : State :=
  if s.readWaits it i || s.writeWaits it i || (s.dmvFar it i && 128 ≤ s.dmvFlight p) then s
  else
    let gone (s : State) : State := s.modItem p it.id fun x => { x with left := x.left.filter (· ≠ i) }
    match s.dmvRead p it i up ue with
    | (s, .waits) => s
    | (s, .asked) => gone s
    | (s, .lost) => gone (s.dmvWrite p it i zeroRow ue)
    | (s, .bytes bs) =>
      let (s, bs) := s.dmvConvert it i bs
      gone (s.dmvWrite p it i bs ue)

/-- Move every row of an item that can move. -/
def State.dmvMove (s : State) (p k : Nat) (up : Upsets) (ue : List Nat) : State :=
  match (s.core p).dmv.find? fun i => i.id = k with
  | some it => it.left.foldl (fun s i => s.dmvRow p it up ue i) s
  | none => s

/-- An answer has come back to a core's DMV: the rows that the limit of R148 held back go on, in the order of the descriptors. -/
def State.dmvResume (s : State) (p : Nat) (up : Upsets) (ue : List Nat) : State :=
  ((s.core p).dmv.filter fun i => i.started).foldl (fun s it =>
    (it.left.filter fun i => s.dmvFar it i).foldl (fun s i => s.dmvRow p it up ue i) s) s

/-! ### Starting (R146) -/

/-- Start what can start, in issue order, with at most 32 descriptors outstanding; the first argument is the fuel. A chain
begins once its last descriptor has been issued and its permits are held, and its descriptors start one after the other.
R27 gives one permit to each chain and does not say whether one DMV may hold two of a class: a second chain that needs a
permit of a class waits, without a request of its own, until the first has returned its permit (DESIGN CHOICE, log entry
63). -/
def State.dmvStart : Nat → State → Nat → Upsets → List Nat → State
  | 0, s, _, _, _ => s
  | fuel + 1, s, p, up, ue =>
    match (s.core p).dmv.find? fun i => !i.started with
    | none => s
    | some it =>
      let group := s.dmvItems p it.chain
      let running := ((s.core p).dmv.filter fun i => i.started).length
      if !group.any (fun i => i.last) || 32 ≤ running then s
      else if it.permits.isSome then
        let s := s.modItem p it.id fun x => { x with started := true }
        State.dmvStart fuel (s.dmvMove p it.id up ue) p up ue
      else
        let need := s.chainPermits p group
        let busy := need.any fun q => (s.core p).dmv.any fun i => (i.permits.getD []).contains q
        if busy then s
        else if need.any fun q => !s.holdsPermit q then need.foldl (fun s q => s.askPermit q) s
        else
          let s := group.foldl (fun s i => s.modItem p i.id fun x => { x with permits := some need }) s
          State.dmvStart fuel s p up ue

/-- Issue a descriptor of the running context (R145). -/
def State.dmvIssue (s : State) (p xn : Nat) (d : Rec) (up : Upsets) (ue : List Nat) : State :=
  let s := s.busyTick p
  let x := s.ctx xn
  let c := s.core p
  let d := dvRelocate x d
  let chain := match c.dmv.getLast? with
    | some i => if i.last then c.dmvNext else i.chain
    | none => c.dmvNext
  let it : DmvItem := { id := c.dmvNext, desc := d, part := x.part, ctx := xn, job := x.job,
                        token := tokenKey c.csq.tag (dvToken d), started := false, chain := chain, last := !dvChain d,
                        permits := none, left := List.range (dvTotal d) }
  let s := s.modCore p fun c => { (c.nameToken it.token) with dmv := c.dmv ++ [it], dmvNext := c.dmvNext + 1 }
  State.dmvStart (2 * c.dmv.length + 3) s p up ue

/-- DMV_CHAIN_START: a chain whose last descriptor has been issued starts, or asks for its permits. -/
def execDmvChainStart (p : Nat) (up : Upsets) (ue : List Nat) (s : State) : Host.Outcome State Fault Refusal :=
  .next (State.dmvStart (2 * (s.core p).dmv.length + 1) s p up ue)

/-- Messages of an item that have not been answered. -/
def State.dmvAwaits (s : State) (p k : Nat) : Bool :=
  s.fab.sent.any (fun o : OutMsg => o.use = MsgFor.dmv p k) || s.fab.waiting.any fun o : OutMsg => o.use = MsgFor.dmv p k

/-- A write of an item waits to be staged. -/
def State.itemWaits (s : State) (p k : Nat) : Bool :=
  (s.sl.waits.d0 ++ s.sl.waits.d1).any fun w : StageWait => w.item = some (p, k)

/-- An item has moved every row. -/
def State.dmvDone (s : State) (p : Nat) (it : DmvItem) : Bool :=
  it.started && it.left.isEmpty && !s.dmvAwaits p it.id && !s.itemWaits p it.id

/-- DMV_DESCRIPTOR_COMPLETE: the token is signalled; the last descriptor of its chain returns the permits. -/
def execDmvDescriptorComplete (p k : Nat) (s : State) : Host.Outcome State Fault Refusal :=
  .next (match (s.core p).dmv.find? fun i => i.id = k with
    | none => s
    | some it =>
      if !s.dmvDone p it then s
      else
        let s := s.busyTick p
        let s := s.modCore p fun c => { (c.signalToken it.token) with dmv := c.dmv.filter fun i => i.id ≠ k }
        let s := if (s.dmvItems p it.chain).isEmpty then (it.permits.getD []).foldl (fun s q => s.returnPermit q) s else s
        s.lookOn p)

/-- EXCHANGE_ROW_ACCESS: the waiting accesses of a core's DMV complete where the full bits allow (R210). -/
def execExchangeRowAccess (p : Nat) (up : Upsets) (ue : List Nat) (s : State) : Host.Outcome State Fault Refusal :=
  .next (((s.core p).dmv.filter fun i => i.started).foldl (fun s i => s.dmvMove p i.id up ue) s)

end Sys2Proof.Machine
end

