-- ==== Sys2Proof/Machine/Gxe.lean ====
section
/-! DEFINITION. The Gather Engine: lookups with pooling, and scatters (04: R141 to R144; 08: R254 to R261, R271, R272). -/

namespace Sys2Proof.Machine

/-! ### Commands (Table 17 of 04) -/

def gxBagCount (d : Rec) : Nat := fld d 191 160
def gxCount (d : Rec) : Nat := fld d 159 128
def gxFirst (d : Rec) : Nat := fld d 127 96
def gxSluice (d : Rec) : Nat := fld d 95 80
def gxSketch (d : Rec) : Bool := bitAt d 72
def gxToken (d : Rec) : Nat := fld d 68 64
def gxData (d : Rec) : Nat := fld d 63 56
def gxOffsets (d : Rec) : Nat := fld d 55 48
def gxWeights (d : Rec) : Nat := fld d 47 40
def gxIndices (d : Rec) : Nat := fld d 39 32
def gxPin (d : Rec) : Nat := fld d 27 16
def gxTable (d : Rec) : Nat := fld d 15 4
def gxPool (d : Rec) : Nat := fld d 3 2
def gxKind (d : Rec) : Nat := fld d 1 0

/-- No reserved code (R9). -/
def gxLegal (d : Rec) : Bool := gxKind d ≤ 1 && (gxKind d = 0 || gxSluice d ≤ 8)

/-- Relocate its handles (R160). -/
def gxRelocate (x : Ctx) (d : Rec) : Rec :=
  let d := setFld d 63 56 (x.hnd (gxData d))
  let d := setFld d 55 48 (x.hnd (gxOffsets d))
  let d := setFld d 47 40 (x.hnd (gxWeights d))
  setFld d 39 32 (x.hnd (gxIndices d))

/-- Key of the command's token (R183). -/
def GxeCmd.tok (g : GxeCmd) : Nat := tokenKey g.span (gxToken g.desc)

/-- Each index is a bag of its own. -/
def gxSingle (d : Rec) : Bool := gxPool d = 3 || gxOffsets d = 0xFF

def gxBags (d : Rec) : Nat := if gxKind d = 1 then 0 else if gxSingle d then gxCount d else gxBagCount d

/-! ### Handles read by the GXE (R155, R159) -/

/-- A 32-bit word at byte offset off of a handle. -/
def Core.hWord (c : Core) (part h off n : Nat) : Nat :=
  leNat ((List.range n).map fun i => BitVec.ofNat 8 (c.hByte part (c.handle h) (off + i)))

/-- Judge the rows of a handle that the GXE reads for a command; the answer is the uncorrectable ones. -/
def State.gxeRows (s : State) (p : Nat) (g : GxeCmd) (rows : List Nat) (up : Upsets) : State × List Nat :=
  let s := if (s.core p).foreign g.part rows then s.tokenFault p g.tok else s
  let (s, bad) := s.readEach p g.part 3 rows.eraseDups up
  (if bad.isEmpty then s else s.tokenError p g.tok bad (bad.all fun b => !up.lost.contains b), bad)

/-- A row that holds a bound of bag k of n is uncorrectable. -/
def bagCut (e : Rec) (bad : List Nat) (n k : Nat) : Bool :=
  bad.contains (hRow e (4 * k)) || (k + 1 < n && bad.contains (hRow e (4 * (k + 1))))

/-- The bag's bounds from the offsets handle, unless a row that holds one of them is uncorrectable. -/
def Core.bagBounds (c : Core) (g : GxeCmd) (bad : List Nat) (k : Nat) : Nat × Nat :=
  let d := g.desc
  if gxSingle d then (k, k + 1)
  else
    let e := c.handle (gxOffsets d)
    let at' (i : Nat) : Nat := c.hWord g.part (gxOffsets d) (4 * i) 4
    let last := k + 1 = gxBagCount d
    if bagCut e bad (gxBagCount d) k then (0, 0) else (at' k, if last then gxCount d else at' (k + 1))

/-- Bags whose bounds decrease or pass the end are malformed (R261). -/
def bagsLegal (d : Rec) (l : List (Nat × Nat)) : Bool := l.all fun b => b.1 ≤ b.2 && b.2 ≤ gxCount d

/-! ### Output (R143, R261) -/

def State.modGxe (s : State) (p k : Nat) (f : GxeCmd → GxeCmd) : State :=
  s.modCore p fun c => { c with gxe := c.gxe.map fun g => if g.id = k then f g else g }

def State.dropThread (s : State) (p t : Nat) : State :=
  (s.busyTick p).modCore p fun c => { c with threads := c.threads.filter fun x => x.id ≠ t }

def State.modThread (s : State) (p t : Nat) (f : Thread → Thread) : State :=
  s.modCore p fun c => { c with threads := c.threads.map fun x => if x.id = t then f x else x }

/-- Write elements of the data handle from a position on; a row whose tag does not name the partition sets the fault bit of
the token. -/
def State.gxeWrite (s : State) (p : Nat) (g : GxeCmd) (pos : Nat) (ws : List W32) : State :=
  let c := s.core p
  let h := gxData g.desc
  let rows := ((List.range ws.length).map fun i => hRow (c.handle h) (4 * (pos + i))).eraseDups
  let s := if c.foreign g.part rows then s.tokenFault p g.tok else s
  let s := rows.foldl (fun s r => s.useBank p (r % 4)) s
  s.modCore p fun c => ws.zipIdx.foldl (fun c w => c.store32 g.part h (pos + w.2) w.1) c

/-- Write the vector of bag k; after the last bag, the final row is padded with zeros. -/
def State.writeBag (s : State) (p : Nat) (g : GxeCmd) (k : Nat) (v : List W32) : State :=
  let w := tdWidth g.table
  let pad := if k + 1 = gxBags g.desc then (128 - gxBags g.desc * w % 128) % 128 else 0
  s.gxeWrite p g (k * w) (v ++ List.replicate pad 0)

/-- A command whose bags are all written, or whose threads are all acknowledged, signals its token. -/
def State.gxeFinish (s : State) (p k : Nat) : State :=
  match (s.core p).gxe.find? fun g => g.id = k with
  | none => s
  | some g =>
    if g.next < gxCount g.desc || (s.core p).threads.any (fun t => t.cmd = k) || g.bags.any fun b => !b.2.written then s
    else
      let s := s.busyTick p
      let s := s.modCore p fun c =>
        let c := c.signalToken g.tok
        let c := if g.flags = 0 then c else c.orFlags (gxData g.desc) (withSource g.flags flagSrcGxe)
        { c with gxe := c.gxe.filter fun x => x.id ≠ k }
      s.lookOn p

/-! ### Pooling (R260) -/

/-- FP32 of a count. -/
def f32OfNat (n : Nat) : W32 := BitVec.ofNat 32 (fmtF32.round .even false n 0).1

/-- acc + a × x, element by element, with the flags. -/
def poolRow (a : W32) : List W32 → List W32 → List W32 × Nat
  | x :: xs, c :: cs =>
    let (r, f) := ffma a x c
    let (l, fl) := poolRow a xs cs
    (r :: l, f ||| fl)
  | _, cs => (cs, 0)

/-- The pooled vector of a bag of n indices. -/
def poolEnd (mode n : Nat) (acc : List W32) : List W32 × Nat :=
  if mode = 2 && n ≠ 0 then
    let q := acc.map fun v => fdiv v (f32OfNat n)
    (q.map (·.1), q.foldl (fun f r => f ||| r.2) 0)
  else (acc, 0)

/-- Expanded row of a thread, with its flags. -/
def Thread.vector (t : Thread) (d : Desc) : List W32 × Nat :=
  match t.src with
  | .zero => (List.replicate (tdWidth d) 0, 0)
  | _ => expandRow d t.data

/-- Pool one thread into its bag; a bag whose last row has been pooled is written. -/
def State.poolThread (s : State) (p : Nat) (g : GxeCmd) (k : Nat) (b : Bag) (t : Thread) : State :=
  let (x, f0) := t.vector g.table
  let (acc, f1) := poolRow t.weight x b.acc
  let done := b.next + 1 = b.stop
  let (out, f2) := if done then poolEnd (gxPool g.desc) (b.stop - b.first) acc else (acc, 0)
  let upd (q : Nat × Bag) : Nat × Bag :=
    if q.1 = k then (k, { b with next := b.next + 1, acc := if done then [] else acc, written := done }) else q
  let s := s.modGxe p g.id fun g => { g with bags := g.bags.map upd, flags := g.flags ||| f0 ||| f1 ||| f2 }
  let s := s.dropThread p t.id
  if done then s.writeBag p g k out else s

/-- A thread whose row has arrived and whose turn in its bag has come. -/
def Core.poolable (c : Core) : Option (GxeCmd × Nat × Bag × Thread) :=
  c.threads.findSome? fun t =>
    if t.st ≠ .order then none
    else match c.gxe.find? fun g => g.id = t.cmd && gxKind g.desc = 0 with
      | none => none
      | some g => (g.bags.find? fun b => !b.2.written && b.2.next = t.pos && t.pos < b.2.stop).map fun b => (g, b.1, b.2, t)

/-- Pool every row whose turn has come (R143); the first argument is the fuel. -/
def State.poolAll : Nat → State → Nat → State
  | 0, s, _ => s
  | fuel + 1, s, p =>
    match (s.core p).poolable with
    | none => s
    | some (g, k, b, t) => State.poolAll fuel ((s.poolThread p g k b t).gxeFinish p g.id) p

/-! ### Lookup threads (R142, R255 to R260) -/

def State.putThread (s : State) (p : Nat) (t : Thread) : State :=
  (s.busyTick p).modCore p fun c => { c with threads := c.threads.filter (fun x => x.id ≠ t.id) ++ [t] }

/-- A thread's row is there: it waits for its turn in its bag, and an index that takes its own row counts in the sketch
(R262). -/
def State.rowReady (s : State) (p : Nat) (g : GxeCmd) (t : Thread) (l : List Byte) : State :=
  let s := if !t.dflt && gxSketch g.desc then s.touchSketch (p / 36) (gxTable g.desc) g.table t.idx else s
  s.putThread p { t with st := .order, src := .bytes l, data := l }

/-- A thread with the zero row. -/
def State.zeroThread (s : State) (p : Nat) (t : Thread) : State := s.putThread p { t with st := .order, src := .zero }

/-- Device address under which this module addresses address a of module k (R326). -/
def remoteAddr (k a : Nat) : Nat := 2 ^ 48 + k * 2 ^ 42 + a

/-- The source of a thread's row: it is ready, is to be fetched, or is asked of another module; a row outside the windows of
the partition sets the fault bit of the command's token, and the answer says that the read is refused (R328). -/
def State.placeThread (s : State) (p : Nat) (g : GxeCmd) (t : Thread) (src : RowSrc) : State × Bool :=
  match src with
  | .zero => (s.zeroThread p t, false)
  | .bytes l => (s.rowReady p g t l, false)
  | .mem _ => (s.putThread p { t with st := .fetch, src := src }, false)
  | .remote k a =>
    if s.allows (some g.part) (remoteAddr k a) (tdStride g.table) false then
      let s := (s.bump 0x6010 4 1).putThread p { t with st := .fetch, src := src }
      (s.send { s.msgTo 0 0x01 k with table := gxTable g.desc, row := t.row, addr := a, count := tdStride g.table } (.row p t.id),
        false)
    else (s.unmapped.tokenFault p g.tok, true)

/-- Weight of an index (R260). -/
def Core.gxeWeight (c : Core) (g : GxeCmd) (pos : Nat) : W32 :=
  let m := gxPool g.desc
  if (m = 0 || m = 3) && gxWeights g.desc ≠ 0xFF then ofF16 (c.hWord g.part (gxWeights g.desc) (2 * (gxFirst g.desc + pos)) 2)
  else f32OfNat 1

/-- Rows of the index and the weight of a position. -/
def Core.gxeIndexRows (c : Core) (g : GxeCmd) (pos : Nat) : List Nat :=
  let q := gxFirst g.desc + pos
  let m := gxPool g.desc
  hRow (c.handle (gxIndices g.desc)) (4 * q) ::
    (if gxKind g.desc = 0 && (m = 0 || m = 3) && gxWeights g.desc ≠ 0xFF then [hRow (c.handle (gxWeights g.desc)) (2 * q)] else [])

/-- A thread of a command at a position, before it is resolved. -/
def GxeCmd.thread (g : GxeCmd) (id pos idx : Nat) (w : W32) : Thread :=
  { id := id, cmd := g.id, st := .resolve, pos := pos, idx := idx, row := idx, dflt := false, weight := w, src := .zero,
    data := [], flags := 0, wait := 0 }

/-- A read of a thread's row is uncorrectable: its resolution is repeated with the default row, and then with the zero row
(Table 3 of 08). -/
def State.failThread (s : State) (p : Nat) (g : GxeCmd) (t : Thread) (lost : List Nat) : State :=
  if t.dflt then s.zeroThread p t
  else
    let s := s.countCase g.part 8
    let (s, pin) := s.lookupPin (p / 36) (gxPin g.desc) g.part
    let (s, row, src) := s.defaultSource (p / 36) (gxTable g.desc) g.table pin lost
    let t := { t with row := row, dflt := true }
    match s.placeThread p g t src with
    | (s, true) => s.zeroThread p t
    | (s, false) => s

/-- Resolve a lookup thread. -/
def State.resolveThread (s : State) (p : Nat) (g : GxeCmd) (t : Thread) (lost : List Nat) : State :=
  if !g.usable then s.zeroThread p t
  else
    let die := p / 36
    let tb := gxTable g.desc
    let s := (s.bump 0x6010 1 1).bump (0x6020 + g.part) 1 1
    let (s, pin) := s.lookupPin die (gxPin g.desc) g.part
    let (s, row, src, own) := s.resolveIndex g.part die tb g.table pin t.idx lost
    let t := { t with row := row, dflt := !own }
    match s.placeThread p g t src with
    | (s, true) => s.failThread p g t lost
    | (s, false) => s

/-! ### Scatter threads (R144, R271, R272, R309) -/

/-- Bytes of the gradient row at a position: its codes, then its shifts (R271). -/
def Core.gradRow (c : Core) (g : GxeCmd) (pos : Nat) : List Nat × List Byte :=
  let w := gradWidth g.table
  let e := c.handle (gxData g.desc)
  let codes := (List.range (w / 2)).map fun i => pos * w / 2 + i
  let base := 512 * ceilDiv (gxCount g.desc * w) 1024
  let shifts := (List.range (w / tdGradG g.table)).map fun k => base + pos * (w / tdGradG g.table) + k
  let offs := codes ++ shifts
  ((offs.map fun o => hRow e o).eraseDups, offs.map fun o => BitVec.ofNat 8 (c.hByte g.part e o))

/-- The table takes learning updates (R270). -/
def learns (d : Desc) : Bool := tdOptimiser d ≠ 0 && (tdFormat d = 0 || tdFormat d = 5)

/-- Add the row of a thread in SEND: on this module to its accumulator, else in a parcel. -/
def State.sendThread (s : State) (p : Nat) (g : GxeCmd) (t : Thread) : State :=
  let d := g.table
  match g.job.bind s.job? with
  | none => s.putThread p { t with st := .order }
  | some b =>
    if tdHome d ≠ s.me then
      let s := s.modJob b.id fun x => { x with homes := if x.homes.contains (tdHome d) then x.homes else x.homes ++ [tdHome d] }
      let s := (s.putThread p { t with st := .order, src := .remote (tdHome d) 0 }).charge g.part 10 t.data.length
      s.send { s.msgTo 1 0x03 (tdHome d) with table := gxTable g.desc, row := t.idx, mark := b.id, step := b.step,
                                              count := g.span, data := t.data } (.parcel p t.id)
    else
      let (s, grp) := s.jobGroup b.id (gxSluice g.desc) (s.jobDie b.id) (some g.part)
      match s.addGradient (s.homeDie d t.idx) grp 0 (gxTable g.desc) t.idx d p g.tok t.data t.wait with
      | (s, .done fl) => s.putThread p { t with st := .order, flags := fl }
      | (s, .waits why) => s.putThread p { t with st := .send, wait := why }

/-- Start a scatter thread. -/
def State.startScatter (s : State) (p : Nat) (g : GxeCmd) (pos idx : Nat) (bad : Bool) (up : Upsets) : State :=
  let (rows, bytes) := (s.core p).gradRow g pos
  let (s, lost) := s.gxeRows p g rows up
  let idx := if bad || !lost.isEmpty then 0xFFFFFFFF else idx
  let pin := match s.pin (p / 36) (gxPin g.desc) with
    | some q => if q.owner = g.part then q.mark else s.p (p / 36)
    | none => s.p (p / 36)
  if gxSluice g.desc = 0 then s.bump 0x6010 11 1
  else if !g.usable then s
  else if !learns g.table then (s.bump 0x6010 11 1).tokenFault p g.tok
  else if (s.indexCase (gxTable g.desc) g.table idx pin).isSome then s.bump 0x6010 11 1
  else
    let c := s.core p
    let t := { g.thread c.gxeNext pos idx 0 with data := bytes }
    (s.modCore p fun c => { c with gxeNext := c.gxeNext + 1 }).sendThread p g t

/-! ### Starting threads (R143) -/

/-- The next position at or after a position that some bag, or the scatter, takes. -/
def GxeCmd.nextPos (g : GxeCmd) : Option Nat :=
  if gxKind g.desc = 1 then (if g.next < gxCount g.desc then some g.next else none)
  else g.bags.foldl (fun best b =>
    let q := max g.next b.2.first
    if q < b.2.stop then
      match best with
      | some x => if q < x then some q else best
      | none => some q
    else best) none

/-- Start one thread of a command. -/
def State.startThread (s : State) (p : Nat) (g : GxeCmd) (pos : Nat) (up : Upsets) : State :=
  let (s, bad) := s.gxeRows p g ((s.core p).gxeIndexRows g pos) up
  let c := s.core p
  let idx := if !bad.isEmpty then 0xFFFFFFFF else c.hWord g.part (gxIndices g.desc) (4 * (gxFirst g.desc + pos)) 4
  let w := c.gxeWeight g pos
  let s := s.modGxe p g.id fun g => { g with next := pos + 1 }
  if gxKind g.desc = 1 then s.startScatter p g pos idx (!bad.isEmpty) up
  else
    let t := g.thread c.gxeNext pos idx w
    (s.modCore p fun c => { c with gxeNext := c.gxeNext + 1 }).resolveThread p g t up.lost

/-- Start threads, at most 512 at a time, the commands in their order; the first argument is the fuel. -/
def State.gxeStart : Nat → State → Nat → Upsets → State
  | 0, s, _, _ => s
  | fuel + 1, s, p, up =>
    let c := s.core p
    if 512 ≤ c.threads.length then s
    else match c.gxe.find? fun g => g.next < gxCount g.desc with
      | none => s
      | some g =>
        match g.nextPos with
        | none => State.gxeStart fuel ((s.modGxe p g.id fun g => { g with next := gxCount g.desc }).gxeFinish p g.id) p up
        | some pos => State.gxeStart fuel (State.poolAll 1 (s.startThread p g pos up) p |>.gxeFinish p g.id) p up

/-- Positions still to start on a core, for the fuel of starting. -/
def Core.gxeLeft (c : Core) : Nat := c.gxe.foldl (fun n g => n + (gxCount g.desc - g.next) + 1) 1

/-- After threads have moved on: rows are pooled in their order, commands end, and further threads start. -/
def State.gxeTurn (s : State) (p : Nat) (up : Upsets) : State :=
  let s := State.poolAll ((s.core p).threads.length) s p
  let s := ((s.core p).gxe.map fun g => g.id).foldl (fun s k => s.gxeFinish p k) s
  State.gxeStart (s.core p).gxeLeft s p up

/-- Issue a command of the running context: none where its bags are malformed. -/
def State.gxeIssue (s : State) (p xn : Nat) (d : Rec) (up : Upsets) : Option State :=
  let s := s.busyTick p
  let x := s.ctx xn
  let q := (s.core p).csq
  let d := gxRelocate x d
  let pin := match s.pin (p / 36) (gxPin d) with
    | some k => if k.owner = x.part then k.mark else s.p (p / 36)
    | none => s.p (p / 36)
  let td := s.tableAt (gxTable d) pin
  let g : GxeCmd := { id := (s.core p).gxeNext, desc := d, part := x.part, ctx := xn, job := x.job,
                      span := q.tag, bags := [], next := 0, table := td, flags := 0,
                      usable := tdValid td && tdOwner td = x.part }
  let s := s.modCore p fun c => { (c.nameToken g.tok) with gxeNext := c.gxeNext + 1 }
  let s := if g.usable && !(gxKind d = 1 && gxSluice d = 0) then s else s.tokenFault p g.tok
  let offs := if gxSingle d || gxKind d = 1 then []
    else ((List.range (gxBags d)).map fun i => hRow ((s.core p).handle (gxOffsets d)) (4 * i)).eraseDups
  let (s, bad) := s.gxeRows p g offs up
  let bounds := (List.range (gxBags d)).map fun k => (s.core p).bagBounds g bad k
  if !bagsLegal d bounds then none
  else
    let zero := List.replicate (tdWidth td) (0 : W32)
    let cut (k : Nat) : Bool := !gxSingle d && bagCut ((s.core p).handle (gxOffsets d)) bad (gxBagCount d) k
    let bags := bounds.zipIdx.map fun b => (b.2, (⟨b.1.1, b.1.2, b.1.1, zero, b.1.1 = b.1.2⟩ : Bag))
    let empty := bags.filter fun b => b.2.written
    let g := { g with bags := bags }
    let s := (s.modCore p fun c => { c with gxe := c.gxe ++ [g] }).flagsBy p [gxData d]
    let s := s.bump 0x6010 9 (empty.filter fun b => !cut b.1).length
    let s := empty.foldl (fun s b => s.writeBag p g b.1 zero) s
    some ((State.gxeStart (s.core p).gxeLeft s p up).gxeFinish p g.id)

/-! ### The events of threads -/

def Core.thread? (c : Core) (t : Nat) : Option (Thread × GxeCmd) :=
  (c.threads.find? fun x => x.id = t).bind fun x => (c.gxe.find? fun g => g.id = x.cmd).map fun g => (x, g)

/-- GXE_ROW_READ_RETURN: the narrow reads of a thread in FETCH return (R142, R258); a row outside the windows of the partition
is as an uncorrectable one and sets the fault bit of the token (R328). -/
def execGxeRowReadReturn (p k : Nat) (up : Upsets) (ue : List Nat) (s : State) : Host.Outcome State Fault Refusal :=
  .next (match (s.core p).thread? k with
    | some (t, g) =>
      match t.st, t.src with
      | .fetch, .mem a => s.whenFetched fun s =>
        let (s, o) := s.readMem g.part (some g.part) a (tdStride g.table) true ue
        let s := if o.refused then (s.tokenFault p g.tok).failThread p g t ue
          else if !o.lost.isEmpty then s.failThread p g t ue
          else s.rowReady p g t o.bytes
        s.gxeTurn p up
      | _, _ => s
    | none => s)

/-- A row of another module has arrived for a thread, or has failed. -/
def State.rowArrives (s : State) (p k : Nat) (row : Option (List Byte)) (up : Upsets) : State :=
  match (s.core p).thread? k with
  | some (t, g) =>
    let s := match row with
      | some bs => (s.charge g.part 11 bs.length).rowReady p g t bs
      | none => s.failThread p g t []
    s.gxeTurn p up
  | none => s

/-- The row of a scatter thread is dropped by its home: the fault bit of the command's token is set (R270). -/
def State.threadFault (s : State) (p k : Nat) : State :=
  match (s.core p).thread? k with
  | some (_, g) => s.tokenFault p g.tok
  | none => s

/-- The acknowledgement of a scatter addition reaches its thread (R272). -/
def State.scatterDone (s : State) (p k fl : Nat) (up : Upsets) : State :=
  match (s.core p).thread? k with
  | some (t, g) =>
    let s := if fl = 0 then s else s.modCore p fun c => c.orFlags (gxData g.desc) (withSource fl flagSrcGxe)
    ((s.dropThread p t.id).gxeFinish p g.id).gxeTurn p up
  | none => s

/-- SCATTER_ACK: of an addition on this module. -/
def execScatterAck (p k : Nat) (up : Upsets) (s : State) : Host.Outcome State Fault Refusal :=
  .next (match (s.core p).thread? k with
    | some (t, g) =>
      match t.src with
      | .remote _ _ => s
      | _ => if gxKind g.desc = 1 && t.st = .order then s.scatterDone p k t.flags up else s
    | none => s)

/-- SCATTER_SEND_RESUME: the first waiting thread for which there is room makes its addition (R272, R393). -/
def execScatterSendResume (p : Nat) (s : State) : Host.Outcome State Fault Refusal :=
  .next (
    let c := s.core p
    let try' (t : Thread) : Option State :=
      if t.st ≠ .send then none
      else match c.gxe.find? fun g => g.id = t.cmd with
        | none => none
        | some g =>
          let n := s.sendThread p g t
          if (n.core p).threads.any fun x => x.id = t.id && x.st = .send then none else some n
    (c.threads.findSome? try').getD s)

end Sys2Proof.Machine
end

