-- ==== Sys2Proof/Machine/Csq.lean ====
section
/-! DEFINITION. The core sequencer: segments, layers and their checks, sync points, weir points, aborts, retries and core
faults (05: R173 to R187; 01: R35 to R37; 02: R72 to R82; 12: R400). -/

namespace Sys2Proof.Machine

/-! ### Cores in service (14: R453, R455) -/

/-- The causes of DEGRADED that come from the cores (Table 2 of 14). -/
def State.judgeCores (s : State) : State :=
  let ls := List.range 64
  let s := s.setCause 0 (ls.any fun l => s.reg (0xA100 + s.physOf l) 1 = 0 && s.lanes (s.physOf l) = 32)
  s.setCause 1 (ls.any fun l => s.reg (0xA100 + s.physOf l) 1 ≠ 0)

/-- The core fault event (0x9004): its severity is 3 where it sets the second cause of DEGRADED. -/
def State.coreEvent (s : State) (p x seg cause : Nat) (was inj : Bool) : State :=
  let sets := !was && maskBit (s.reg 0xA000 1) 1
  s.raise { det := 0x9004, sev := if sets then 3 else 2, cause := cause, detail := seg, ctx := x, core := s.logicalOf p,
            phys := some (physCode p), injected := inj, part := some (s.ctx x).part }

/-- Commands that wait for a context to reach a weir point, or to run, end with a status (R399). -/
def State.endWaits (s : State) (x status : Nat) : State :=
  let names (o : CtxOp) : Bool := o.phase = .weir && (fld o.desc 248 237 = x || (descOp o.desc = 3 && fld o.desc 236 225 = x))
  let s := (s.ctxOps.filter names).foldl (fun s o => s.complete o.fn o.queue o.desc o.head status) s
  { s with ctxOps := s.ctxOps.filter fun o => !names o }

/-- Clear the handle entries of a context that its partition owns and that no other resident context names (R188). -/
def State.releaseHandles (s : State) (p x : Nat) : State :=
  let c := s.ctx x
  let others := (s.residents p).filter fun q => q.1 ≠ x
  let hs := c.handles.filter fun h => hOwner ((s.core p).handle h) = c.part && !others.any fun q => q.2.inHandles h
  s.modCore p fun k => { k with handles := hs.foldl (fun m h => SMap.set 0 m h 0) k.handles }

/-- A context becomes FAULTED: its rows are zero-filled, then its handle entries are released, and its running and queued jobs
end ABORTED with a cause (R185, R187, R188, R395). -/
def State.faultCtx (s : State) (x cause : Nat) : State :=
  let c := s.ctx x
  let p := s.physOf c.core
  let own := c.window.filter fun r => (s.core p).owns c.part r
  let s := (s.zeroRowsOf p own).releaseHandles p x
  let s := (s.setCtxState x .faulted).modCtx x fun c => { c with job := none, mid := false, queue := [], intact := false, loaded := false }
  let s := s.endWaits x stKilled
  (c.job.toList ++ c.queue).foldl (fun s j => s.abortJob j cause) s

/-- The core is faulted (R185): it issues no further segment. The rotation of its logical core ends with the status failed
(Table 4 of 14). -/
def State.faultCore (s : State) (p cause : Nat) (inj : Bool) : State :=
  let q := (s.core p).csq
  let x := q.ctx
  let was := maskBit (s.reg 0xA000 1) 1
  let s := s.discardSpan p q.tag (s.ctx x).job
  let s := s.dropDmv p x
  let s := s.modCore p fun c => (c.undoSpan).quietEngines x
  let s := s.returnPermit (Issuer.csqPermit p)
  let s := s.modCsq p fun q => { Csq.init with said := q.said, faulted := true }
  let s := ((s.setReg (0xA100 + p) 1 4).bump (0xA100 + p) 6 1).judgeCores
  let s := s.coreEvent p x q.seg cause was inj
  let s := match s.av.handover with
    | some h => if s.physOf h.logical = p && !h.replace then State.setReg { s with av := { s.av with handover := none } } 0xA000 5 6 else s
    | none => s
  (s.faultCtx x 0).settleCancel

/-! ### Abort and retry (R183 to R185) -/

/-- Abort the running segment with a cause: 0 an uncorrectable row, 1 a token error, 2 a token fault. The rows are those found
uncorrectable; of them the resident read-only ones are reloaded before the retry (R184). -/
def State.abortSpan (s : State) (p : Nat) (rows : List Nat) (cause : Nat) (inj : Bool) : State :=
  let c := s.core p
  let x := s.ctx c.csq.ctx
  if c.csq.retried then s.faultCore p (if inj then 4 else cause) inj
  else
    let s := s.modCore p fun c => { c with rill := [], gtuBuf := [], window := none }
    let s := s.returnPermit (Issuer.csqPermit p)
    (s.modCsq p fun q => { q with
        phase := .retry, cause := cause, reload := rows.eraseDups.filter fun r => c.reloadable x r, injRetry := rows.isEmpty && inj }).setBlocked
      c.csq.ctx false

/-- A row of a context's window holds the manifest's contents, or does not (R401). -/
def State.holdsRow (s : State) (x r : Nat) (on : Bool) : State :=
  s.modCtx x fun c => { c with gone := if on then c.gone.filter (· ≠ r) else if c.gone.contains r then c.gone else c.gone ++ [r] }

/-- Reload a row of a resident read-only handle from the manifest entry that covers it (R184). -/
def State.reloadRow (s : State) (p x r : Nat) : State :=
  let c := s.ctx x
  match (s.core p).covering c r with
  | some (m, k) =>
    let (s, o) := s.readMem c.part (some c.part) (c.manifestAddr m k) 512 false []
    match o.lost, o.refused with
    | [], false => ((s.modCore p fun q => q.write c.part r (c.manifestRow m k o.bytes)).useBank p (r % 4)).holdsRow x r true
    | _, _ => s
  | none => s

/-! ### Conversion windows and layers (R69 to R77, R176) -/

/-- The window of a layer, with its thresholds (R73); an armed injection makes its first group an override, and is used up where that
group is no override of itself (R470). -/
def State.newWindow (s : State) (p l r : Nat) : Window :=
  ({ layer := l, groups := 0, sums := [], elements := 0, clipped := 0, overrides := 0,
        tauMse := BitVec.ofNat 32 (if lyTauMse r = 0 then s.reg 0x4000 1 else lyTauMse r),
        tauClip := BitVec.ofNat 32 (if lyTauClip r = 0 then s.reg 0x4000 2 else lyTauClip r),
        guard := if lyGuard r = 0 then s.reg 0x4000 3 else lyGuard r - 1,
        widen := s.reg 0x4000 4 = 1, pending := s.armed 0x900D (s.logicalOf p) 0, injOverride := false, blocks := 0 })

/-- Give the core a fresh window for a path of a layer; a BF16 path has none (R75). -/
def State.openWindow (s : State) (p l r outW : Nat) : State :=
  if outW = 2 then s.modCore p fun c => { c with window := none }
  else s.modCore p fun c => { c with window := some (s.newWindow p l r) }

/-! ### The retry (R81, R183, R184) -/

/-- SPAN_RETRY: every token of the span is complete; its writes and changes are discarded and the tokens of its work cleared, the
rows that failed are reloaded, and the span starts again from its first segment, or from the start of the variant selected in
it, whose window reads its thresholds anew (R73, R81, R183, R184). Work of earlier spans is left alone. -/
def execSpanRetry (p : Nat) (s : State) : Host.Outcome State Fault Refusal :=
  .next (
    let c := s.core p
    let q := c.csq
    if q.phase ≠ .retry || !c.spanQuiet q.tag then s
    else s.whenFetched fun s =>
      let x := s.ctx q.ctx
      let s := s.discardSpan p q.tag x.job
      let s := s.modCore p fun c => { c.undoSpan with tokens := c.tokens.filter fun k => tokenSpan k.1 ≠ q.tag }
      let s := q.reload.foldl (fun s r => s.reloadRow p q.ctx r) s
      let s := s.raise { det := 0x9003, sev := 1, detail := q.seg, aux := q.spanSeg, ctx := q.ctx, core := s.logicalOf p,
                         injected := q.injRetry, phys := some (physCode p), part := some x.part }
      let widened := q.spanLayer.bind fun l => q.kept.find? fun k => k.1 = l && k.2.2 ≠ q.spanOut
      let start := widened.bind fun k => (c.findVariant x (c.layerRec x k.1) k.2.1 k.2.2).map fun v => (k, v)
      let s := match start with
        | some (k, v) =>
          (s.modCsq p fun q => { q with seg := vaFirst v, layer := some k.1, inW := k.2.1, outW := k.2.2, uses := [] }).openWindow
            p k.1 (c.layerRec x k.1) k.2.2
        | none => s.modCore p fun c => { c with
            window := q.spanWindow,
            csq := { c.csq with seg := q.spanSeg, layer := q.spanLayer, inW := q.spanIn, outW := q.spanOut, uses := q.spanUses } }
      let s := s.modCsq p fun q => { q with phase := .hold, issued := 0, looked := false, retried := true, reload := [], injRetry := false, holdFrom := s.now }
      (s.segPermit p q.ctx (s.core p).csq.seg).judgeBlocked p)

/-! ### Layers (R75 to R77, R176) -/

/-- The path on which a layer is launched: the width of its input and of its output, as its input's tag or a retry gives them. -/
def Core.launchPath (c : Core) (x : Ctx) (l : Nat) : Nat × Nat :=
  let r := c.layerRec x l
  let kept := c.csq.kept.find? fun k => k.1 = l
  ((kept.map fun k => k.2.1).getD (if lyIn r = 0xFF then 0 else hWidth (c.handle (x.hnd (lyIn r)))), (kept.map fun k => k.2.2).getD 0)

/-- The launch of a layer looks for a variant. -/
def Core.takesVariant (c : Core) (x : Ctx) (l : Nat) : Bool := c.launchPath x l ≠ (0, 0)

/-- Launch the layer that the segment names: the flag words of the handles that it produced are cleared (R140), and it takes the path for the width of its input, or the one that a retry keeps. None where
no variant fits (R174). -/
def State.launch (s : State) (p l : Nat) : Option State :=
  let c := s.core p
  let q := c.csq
  let x := s.ctx q.ctx
  let r := c.layerRec x l
  let kept := q.kept.find? fun k => k.1 = l
  let (inW, outW) := c.launchPath x l
  let path := if inW = 0 && outW = 0 then some q.seg else (c.findVariant x r inW outW).map vaFirst
  match path with
  | none => none
  | some seg =>
    let outs := (x.flagged.filter fun q => q.2 = l + 1).map fun q => (x.handleBase + q.1) % 256
    let s := s.modCore p fun c => (outs.foldl (fun c h => c.touch h fun e => setFld e 71 60 0) c).touch (x.hnd (lyOut r))
      fun e => setFld (setFld e 51 50 0) 71 60 0
    let s := s.modCsq p fun q => { q with seg := seg, layer := some l, inW := inW, outW := outW, uses := [],
                                          kept := if kept.isSome then q.kept else q.kept ++ [(l, inW, outW)] }
    some (s.openWindow p l r outW)

/-- Last segment of the path being run. -/
def Core.pathLast (c : Core) (x : Ctx) (r : Nat) : Nat :=
  if c.csq.inW = 0 && c.csq.outW = 0 then lyLast r
  else match c.findVariant x r c.csq.inW c.csq.outW with
    | some v => vaLast v
    | none => lyLast r

/-- Raise the counts of the random uses that have completed (R99, R181). -/
def Core.raiseUses (c : Core) : Core :=
  let c := c.csq.uses.foldl (fun c h => c.touch h fun e => setFld e 151 104 (hCount e + 1)) c
  { c with csq := { c.csq with uses := [] } }

/-- The layer ends on the path that ran: its width tag is written (R77, R176). -/
def State.endLayer (s : State) (p r : Nat) : State :=
  let n := (s.core p).csq.ctx
  let x := s.ctx n
  let s := match x.job with
    | some j => s.modJob j fun b => { b with outs := SMap.set 0 b.outs n (hFlags ((s.core p).handle (x.hnd (lyOut r)))) }
    | none => s
  s.modCore p fun c =>
    let c := c.touch (x.hnd (lyOut r)) fun e => setFld e 51 50 c.csq.outW
    let c := c.raiseUses
    { c with window := none, csq := { c.csq with layer := none, inW := 0, outW := 0 } }

/-- A widen event (0x900E): 0 N8, 1 BF16, 2 suppressed. -/
def State.widenEvent (s : State) (p x l cause : Nat) (w : Window) (inj : Bool) : State :=
  s.raise { det := 0x900E, sev := 0, cause := cause, detail := put 63 32 (hdImageId (s.ctx x).header) + put 15 0 l,
            aux := (fdiv (sumErr w.sums) (sumPow w.sums)).1.toNat, ctx := x, core := s.logicalOf p, phys := some (physCode p), injected := inj,
            suppressed := cause = 2, part := some (s.ctx x).part }

/-- The scale override event of a window that counts one (R69). -/
def State.overrideEvent (s : State) (p x : Nat) (w : Window) : State :=
  if w.overrides = 0 then s
  else s.raise { det := 0x900D, sev := 0, detail := put 63 32 (hdImageId (s.ctx x).header) + put 15 0 w.layer,
                 aux := w.overrides, ctx := x, core := s.logicalOf p, phys := some (physCode p), injected := w.injOverride,
                 part := some (s.ctx x).part }

/-- A window's part of another core is put behind it: its blocks follow in block-index order (R71, R80; log entry 34). -/
def Window.join (a b : Window) : Window :=
  { a with blocks := a.blocks + b.blocks, groups := a.groups + b.groups, elements := a.elements + b.elements, clipped := a.clipped + b.clipped,
           overrides := a.overrides + b.overrides, injOverride := a.injOverride || b.injOverride,
           sums := a.sums ++ b.sums.map fun x => { x with block := a.blocks + x.block } }

/-- The layer of another context whose conversion window is one with a layer of the first (R80; log entry 34). -/
def State.sharedLayer (s : State) (x l y : Nat) : Option Nat :=
  Config.sharedLayer (hdImageId (s.ctx x).header) l (hdImageId (s.ctx y).header)

/-- Contexts of the job's other unfinished invocations that convert parts of the window of layer l of context x, in the order
of its invocations, with their layer; x stands among them. -/
def State.windowParts (s : State) (x l : Nat) : List (Nat × Nat) :=
  match (s.ctx x).job.bind s.job? with
  | some b => (b.invs.filter fun i => !i.finished).filterMap fun i =>
      if i.ctx = x then some (x, l) else (s.sharedLayer x l i.ctx).map fun k => (i.ctx, k)
  | none => [(x, l)]

/-- Physical core of a context. -/
def State.coreOf (s : State) (x : Nat) : Nat := s.physOf (s.ctx x).core

/-- The core of a context stands at the check point of a layer (R80). -/
def State.atCheck (s : State) (x l : Nat) : Bool :=
  let q := (s.core (s.coreOf x)).csq
  q.ctx = x && q.phase = .check && q.layer = some l

/-- The next wider variant that a failed check of a layer runs, with its output width (R75, R176). -/
def Core.widerVariant (c : Core) (x : Ctx) (r : Nat) : Option (Nat × Nat) :=
  let q := c.csq
  if q.outW = 0 then (c.findVariant x r q.inW 1).map (fun v => (1, v)) <|> (c.findVariant x r q.inW 2).map (fun v => (2, v))
  else (c.findVariant x r q.inW 2).map (fun v => (2, v))

/-- A core goes back to the first segment of a layer's wider variant, under the permit held (R75, R78). -/
def State.widenCore (s : State) (p l o v : Nat) : State :=
  let c := s.core p
  let s := s.modCsq p fun q => { q with
    phase := .hold, seg := vaFirst v, issued := 0, looked := false, outW := o, uses := [], holdFrom := s.now,
    kept := (q.kept.filter fun k => k.1 ≠ l) ++ [(l, q.inW, o)] }
  s.openWindow p l (c.layerRec (s.ctx c.csq.ctx) l) o

/-- What a check point decides. -/
inductive Check where
  /-- No layer ends here, or the layer has ended: the cores go on past the segment. -/
  | goOn (s : State) (cores : List Nat)
  /-- The next wider variant runs under the permit held. -/
  | widen (s : State)
  /-- Another core has still to convert its part of the window. -/
  | wait (s : State)
  /-- No such variant (R174). -/
  | bad

/-- The layers of cores end on the paths that ran. -/
def State.endLayers (s : State) (l : List (Nat × Nat)) : State :=
  l.foldl (fun s q =>
    let c := s.core q.1
    (s.endLayer q.1 (c.layerRec (s.ctx c.csq.ctx) q.2)).modCsq q.1 fun k => { k with decided := if l.length ≤ 1 then k.decided else k.decided ++ [q.2] }) s

/-- The check of a window whose parts are all converted, on its cores and their layers (R72, R75, R80, R82): one decision, one
count and one event, made on the core that came last; a path that has converted no group has no window to judge. -/
def State.decideLayers (s : State) (p l : Nat) (parts : List (Nat × Nat)) (w : Window) : Check :=
  let c := s.core p
  let q := c.csq
  let x := s.ctx q.ctx
  let go (s : State) : Check := .goOn (s.endLayers parts) (parts.map (·.1))
  if w.groups = 0 then go s
  else
    let s := (s.bump 0x4001 1 1).overrideEvent p q.ctx w
    let real := windowFails true w.tauMse w.tauClip w.sums w.elements w.clipped
    let inj := !real && s.armed 0x900E (s.logicalOf p) 0
    let s := if inj then s.consume 0x900E else s
    if !real && !inj then go s
    else if !w.widen then go ((s.bump 0x4001 8 1).widenEvent p q.ctx l 2 w inj)
    else
      let next := parts.map fun k =>
        let c := s.core k.1
        let y := s.ctx c.csq.ctx
        (k, c.widerVariant y (c.layerRec y k.2))
      let s := parts.foldl (fun s k =>
        let c := s.core k.1
        let y := s.ctx c.csq.ctx
        s.csqTags k.1 c.csq.ctx (c.variantRows y (c.layerRec y k.2))) s
      match c.widerVariant x (c.layerRec x l) with
      | none => .bad
      | some (o, _) =>
        if next.any fun k => k.2.isNone then .bad
        else
          let s := (s.bump 0x4001 (5 + o) 1).bump (0x4010 + x.part) o 1
          let s := s.widenEvent p q.ctx l (o - 1) w inj
          .widen (next.foldl (fun s k => match k.2 with
            | some (o, v) => s.widenCore k.1.1 k.1.2 o v
            | none => s) s)

/-- The check of a layer at the end of its path (R71, R72, R80, R81). -/
def State.check (s : State) (p : Nat) : Check :=
  let c := s.core p
  let q := c.csq
  let x := s.ctx q.ctx
  match q.layer with
  | none => .goOn (s.modCore p fun c => c.raiseUses) [p]
  | some l =>
    let r := c.layerRec x l
    if q.seg ≠ c.pathLast x r then .goOn s [p]
    else match c.window with
      | none => .goOn (s.endLayer p r) [p]
      | some w =>
        let parts := s.windowParts q.ctx l
        if q.decided.contains l || parts.length ≤ 1 then
          (if q.decided.contains l then .goOn (s.endLayer p r) [p] else s.decideLayers p l [(p, l)] w)
        else if parts.all fun k => k.1 = q.ctx || s.atCheck k.1 k.2 then
          let ws := parts.filterMap fun k => (s.core (s.coreOf k.1)).window
          let all := (ws.drop 1).foldl Window.join (ws.headD w)
          s.decideLayers p l (parts.map fun k => (s.coreOf k.1, k.2)) all
        else .wait ((s.modCsq p fun q => { q with phase := .check }).setBlocked q.ctx false)

/-! ### Starting a segment (R36, R173) -/

/-- The invocation of the running context has its arguments (R432). -/
def State.argsLoaded (s : State) (x : Nat) : Bool :=
  match (s.ctx x).job.bind s.job? with
  | some b => match b.invs.find? fun i => i.ctx = x && !i.finished with
    | some i => i.loaded || i.argRows = 0
    | none => true
  | none => true

/-- The CSQ reads rows of the code section: the first uncorrectable one, and whether it is so by injection alone. -/
def State.csqRead (s : State) (p x : Nat) (rows : List Nat) (up : Upsets) : State × Option (Nat × Bool) :=
  let s := if (s.core p).foreign (s.ctx x).part rows then s.markTagFault x else s
  let (s, bad) := s.readRows p (s.ctx x).part 1 rows up
  (s, bad.map fun r => (r, !up.lost.contains r))

/-! ### What runs after a weir point (R400) -/

/-- The context that runs after the present segment: the choice of the lookahead where it has been made (R35, R400). -/
def State.afterSegment (s : State) (p : Nat) : Option Nat :=
  let q := (s.core p).csq
  let sg := s.segment p
  if q.looked then q.chosen
  else if sgWeir sg = 0xFFFF then some q.ctx
  else s.chooseWeir p (sgNext sg = 0xFFFF)

/-- SEGMENT_LOOKAHEAD: with 384 cc left, the CSQ chooses what runs next; it asks for its permit and wakes what it uses at once, or
as soon as the tokens of the segment's sync point are complete (R35, R400). -/
def execSegmentLookahead (p : Nat) (s : State) : Host.Outcome State Fault Refusal :=
  .next (
    let q := (s.core p).csq
    let sg := s.segment p
    if q.phase ≠ .run || q.looked || 384 + 4 * (s.now - q.segStart) < sgCycles sg (s.lanes p) then s
    else (s.modCsq p fun q => { q with looked := true, chosen := s.afterSegment p }).lookOn p)

/-! ### The end of an invocation (R99, R180, R199, R434) -/

/-- Change the first invocation that a context has still to end. -/
def modInv (x : Nat) (f : Invocation → Invocation) : List Invocation → List Invocation
  | [] => []
  | i :: l => if i.ctx = x && !i.finished then f i :: l else i :: modInv x f l

/-- An invocation passes its final weir point: its flags join the job's, waiting swaps of handles take effect, and a context
of a stack is free for its next invocation (R208, R303). -/
def State.endInvocation (s : State) (p x : Nat) : State :=
  let c := s.ctx x
  let fl := c.undo.foldl (fun f u => f ||| hFlags ((s.core p).handle ((c.handleBase + u.1) % 256))) 0
  let s := s.takeSwaps x
  let done (i : Invocation) : Invocation := { i with finished := true }
  let s := match c.job with
    | some j => s.modJob j fun b => { b with flags := b.flags ||| fl, invs := modInv x done b.invs }
    | none => s
  let stack := match c.job.bind s.job? with
    | some b => b.stack.isSome
    | none => true
  (s.modCtx x fun c => { c with mid := false, seg := 0, undo := [], job := if stack then none else c.job }).announce

/-! ### Boundaries -/

/-- Go on to a segment at a boundary, as the start of a span where one begins there. -/
def State.goTo (s : State) (p seg : Nat) (span : Bool) : State :=
  let q := (s.core p).csq
  let s := s.modCsq p fun q => { q with phase := .hold, seg := seg, issued := 0, looked := false, holdFrom := s.now }
  let s := if span then
      let (s, n) := s.takeSpan (s.ctx q.ctx).job
      s.modCore p fun c => { c with csq := { c.csq with
        spanNo := n, spanSeg := seg, spanLayer := c.csq.layer, spanIn := c.csq.inW, spanOut := c.csq.outW,
        spanWindow := c.window, spanUses := c.csq.uses, retried := false, kept := [], decided := [], undo := [], reload := [] } }
    else s
  (s.segPermit p q.ctx seg).judgeBlocked p

/-- A malformed image leads the program of the running context to a segment that nothing predicts (R12, R174; log entry 65). -/
def State.stray (s : State) (p : Nat) : State :=
  (State.unruly s p).goTo p ((Config.freeValue s.free).toNat % 0xFFFF) true

/-- SEGMENT_START: the segment at the boundary starts, with its permit held. -/
def execSegmentStart (p : Nat) (up : Upsets) (s : State) : Host.Outcome State Fault Refusal :=
  let q := (s.core p).csq
  let x := s.ctx q.ctx
  if q.phase ≠ .hold || !s.coreRuns p || !s.segReady p || !s.argsLoaded q.ctx then .next s
  else if q.seg = 0xFFFF then .next (s.stray p)
  else
    let c := s.core p
    let rows := c.codeRows x (segOff x q.seg) 32
    let l := sgStart (c.segRec x q.seg)
    let rows := if l = 0xFFFF then rows else rows ++ c.codeRows x (hdLayerTable x.header + 32 * l) 32
    let rows := if l = 0xFFFF || q.layer = some l || !c.takesVariant x l then rows
      else rows ++ c.variantRows x (c.layerRec x l)
    match s.csqRead p q.ctx rows up with
    | (s, some (r, inj)) => .next (s.abortSpan p [r] 0 inj)
    | (s, none) =>
      let launched := if l = 0xFFFF || q.layer = some l then some s else s.launch p l
      match launched with
      | none => .next (s.stray p)
      | some s =>
        let held := if sgPermit (c.segRec x q.seg) then 4 * (s.now - q.holdFrom) else 0
        let s := s.bump (0x2001 + p / 36) 9 held
        let s := s.modCsq p fun q => { q with phase := .run, segStart := s.now, issued := 0, looked := false, chosen := none }
        .next ((s.wakeFor p (s.segment p)).setBlocked q.ctx false)

/-- A rotation takes the core at a weir point: the context that R400 chose starts on the new core (R456). -/
def State.takeTurn (s : State) (p : Nat) (choice : Option Nat) : State :=
  let mark (h : Handover) : Handover := { h with taken := true }
  let s := { s with av := { s.av with handover := s.av.handover.map mark } }
  (s.modCsq p fun q => { q with switchTo := choice }).idleCore p

/-- Serve the weir point of the running context (R179, R400, R404, R407, R456). -/
def State.serveWeir (s : State) (p w next : Nat) : State :=
  let q := (s.core p).csq
  let x := q.ctx
  let ended := next = 0xFFFF
  let choice := if q.looked then q.chosen else s.chooseWeir p ended
  let s := if ended then s.endInvocation p x else s.modCtx x fun c => { c with seg := next }
  let park (s : State) : State := (s.modCtx x fun c => { c with weir := w }).restCtx x
  let turn := match s.av.handover with
    | some h => s.physOf h.logical = p && !h.copying
    | none => false
  match s.swapWaiting x with
  | some o =>
    let s := (park s).beginSpill x o
    let s := if choice = some x then s.returnPermit (Issuer.csqPermit p) else s
    let choice := if choice = some x then s.longestReady p else choice
    if turn then s.takeTurn p choice else s.handTo p x choice
  | none =>
    if turn then (park s).takeTurn p choice
    else if choice = some x && !ended then s.goTo p next true
    else (park s).handTo p x choice

/-- A sync point, with every token of the mask signalled: the CSQ aborts on an error or fault bit, or joins the staged writes,
clears the tokens and opens a new span; a weir point is then served (R178, R179). -/
def State.syncPoint (s : State) (p : Nat) : State :=
  let c := s.core p
  let q := c.csq
  let sg := s.segment p
  let ts := c.tokensOf (sgSync sg)
  if q.phase ≠ .sync || !c.signalled (sgSync sg) then s
  else
    let real := ts.any fun t => t.error || t.fault
    let inj := !real && s.armed 0x9003 (s.logicalOf p) 0
    let s := if inj then s.consume 0x9003 else s
    if inj || ts.any fun t => t.error then s.abortSpan p (ts.flatMap fun t => t.rows) 1 (!ts.any fun t => t.real)
    else if ts.any fun t => t.fault then s.abortSpan p [] 2 false
    else
      let s := s.joinSpan p fun k => c.signalled (2 ^ tokenNo k)
      let s := s.modCore p fun c => { c with tokens := c.tokens.filter fun t => !maskBit (sgSync sg) (tokenNo t.1) }
      let s := (s.keepUndo q.ctx q.undo).modCsq p fun q => { q with undo := [] }
      if sgWeir sg ≠ 0xFFFF then s.serveWeir p (sgWeir sg) (sgNext sg)
      else s.goTo p (sgNext sg) true

/-- A core whose check has passed goes on past its segment: to the sync point, whose permit is handed back at once where nothing
after it needs one, or to the next segment (R36, R37, R175). -/
def State.pastSegment (s : State) (p : Nat) : State :=
  let sg := s.segment p
  if sgSync sg ≠ 0 || sgWeir sg ≠ 0xFFFF then
    let after := s.nextSegment p (s.afterSegment p)
    let s := s.modCsq p fun q => { q with phase := .sync }
    let s := match after with
      | some (y, n) => if s.needsPermit p y n then s else s.returnPermit (Issuer.csqPermit p)
      | none => s.returnPermit (Issuer.csqPermit p)
    s.judgeBlocked p
  else if sgNext sg = 0xFFFF then s.stray p
  else s.goTo p (sgNext sg) false

/-- The end of a segment: the check, sync, weir and next steps that the record calls for (R175). A cancel or an armed core fault acts
here (R492; Table 7 of 14). -/
def State.segmentEnd (s : State) (p : Nat) : State :=
  let q := (s.core p).csq
  let sg := s.segment p
  if q.phase ≠ .run || q.issued < sgEntries sg || 4 * (s.now - q.segStart) < sgCycles sg (s.lanes p) then s
  else if s.armed 0x9004 (s.logicalOf p) 0 then (s.consume 0x9004).faultCore p 4 true
  else if q.cancel.isSome then s.cancelNow p
  else match s.check p with
    | .bad => s.stray p
    | .widen s => s
    | .wait s => s
    | .goOn s l => l.foldl (fun s p => s.pastSegment p) s

end Sys2Proof.Machine
end

