-- ==== Sys2Proof/Machine/Gtu.lean ====
section
/-! DEFINITION. The Gate Unit (R124 to R131). -/

namespace Sys2Proof.Machine

/-! ### Descriptor (Table 11 of 04) -/

def gdK1 (d : Nat) : W32 := BitVec.ofNat 32 (wfld d 223 192)
def gdK0 (d : Nat) : W32 := BitVec.ofNat 32 (wfld d 191 160)
def gdUnitBase (d : Nat) : Nat := wfld d 143 128
def gdTensor (d : Nat) : Nat := wfld d 127 112
def gdKeep (d : Nat) : Nat := wfld d 111 96
def gdOutG (d : Nat) : Nat := groupSize (wfld d 85 84)
def gdOutFmt (d : Nat) : Nat := wfld d 83 80
def gdProg (d : Nat) : Nat := wfld d 79 72
def gdMask (d : Nat) : Nat := wfld d 71 64
def gdAux (d : Nat) : Nat := wfld d 63 56
def gdOut (d : Nat) : Nat := wfld d 55 48
def gdInit (d : Nat) : Nat := wfld d 47 40
def gdParam (d : Nat) : Nat := wfld d 39 32
def gdStateOut (d : Nat) : Nat := wfld d 31 24
def gdStateIn (d : Nat) : Nat := wfld d 23 16
def gdProgLen (d : Nat) : Nat := wfld d 15 12 + 1
def gdStep (d : Nat) : Nat := wfld d 11 8
def gdHalf (d : Nat) : Nat := wfld d 7 7
def gdSlot (d : Nat) : Nat := wfld d 6 4
def gdTemplate (d : Nat) : Nat := wfld d 3 0

/-- Units of a tile (R126). -/
def gdUnits (d : Nat) : Nat := if gdTemplate d = 2 || gdTemplate d = 3 then 128 else 32

/-- Operations of a template (Table 8 of 04). -/
def gdOps (d : Nat) : Nat :=
  match gdTemplate d with
  | 0 => 8
  | 1 => 6
  | 2 => 2
  | 3 => 2
  | 4 => 7
  | 5 => gdProgLen d
  | _ => 2

/-! ### Arithmetic with flags -/

/-- An FP32 result with the flags gathered so far. -/
abbrev FRes := W32 × Nat

def gAdd (a b : FRes) : FRes := let (w, f) := fadd a.1 b.1; (w, f ||| a.2 ||| b.2)
def gSub (a b : FRes) : FRes := let (w, f) := fsub a.1 b.1; (w, f ||| a.2 ||| b.2)
def gMul (a b : FRes) : FRes := let (w, f) := fmul a.1 b.1; (w, f ||| a.2 ||| b.2)
def gFma (a b c : FRes) : FRes := let (w, f) := ffma a.1 b.1 c.1; (w, f ||| a.2 ||| b.2 ||| c.2)
/-- σ of a sum, the sum rounded to FP32 (R124). -/
def gSig (a b : FRes) : FRes := let s := gAdd a b; let (w, f) := fsig s.1; (w, f ||| s.2)
def gTanh (a b : FRes) : FRes := let s := gAdd a b; let (w, f) := ftanh s.1; (w, f ||| s.2)
/-- a + c × (b − a), each operation rounded (R124). -/
def gLerp (a b c : FRes) : FRes := gAdd a (gMul c (gSub b a))
def gOf (w : W32) : FRes := (w, 0)
def gMinMax (isMax : Bool) (a b : FRes) : FRes := let (w, f) := fminmax isMax a.1 b.1; (w, f ||| a.2 ||| b.2)

/-- What a template gives for one element: c', h', what goes to the out handle, and to the aux handle. -/
structure CellOut where
  c : Option FRes
  h : Option FRes
  out : FRes
  aux : Option FRes
  deriving DecidableEq, Repr

/-- The inputs of one element: blocks, state, parameters, and the aux value. -/
structure CellIn where
  z : List W32
  c : W32
  h : W32
  p : List W32
  aux : W32
  deriving DecidableEq, Repr

def CellIn.zAt (i : CellIn) (k : Nat) : FRes := gOf (i.z.getD k 0)
def CellIn.pAt (i : CellIn) (k : Nat) : FRes := gOf (i.p.getD k 0)

/-- The LSTM cell (Table 8 of 04). The table does not say which product of c' = f ⊙ c + i ⊙ g is the fused one: the model takes
fma(f, c, round(i ⊙ g)) (DESIGN CHOICE, log entry 66). -/
def lstmCell (i : CellIn) : CellOut :=
  let gi := gSig (i.zAt 0) (i.pAt 0)
  let gf := gSig (i.zAt 1) (i.pAt 1)
  let gg := gTanh (i.zAt 2) (i.pAt 2)
  let go := gSig (i.zAt 3) (i.pAt 3)
  let c' := gFma gf (gOf i.c) (gMul gi gg)
  let t := let (w, f) := ftanh c'.1; (w, f ||| c'.2)
  let h' := gMul go t
  ⟨some c', some h', h', none⟩

/-- The GRU cell. -/
def gruCell (i : CellIn) : CellOut :=
  let r := gSig (i.zAt 0) (i.pAt 0)
  let u := gSig (i.zAt 1) (i.pAt 1)
  let n := gTanh (gFma r (gAdd (i.zAt 3) (i.pAt 3)) (i.zAt 2)) (i.pAt 2)
  let h' := gLerp n (gOf i.h) u
  ⟨none, some h', h', none⟩

/-- MGU phase A: f to the aux handle, f ⊙ h to the out handle. -/
def mguACell (i : CellIn) : CellOut :=
  let f := gSig (i.zAt 0) (i.pAt 0)
  ⟨none, none, gMul f (gOf i.h), some f⟩

/-- MGU phase B. -/
def mguBCell (i : CellIn) : CellOut :=
  let n := gTanh (i.zAt 0) (i.pAt 1)
  let h' := gLerp (gOf i.h) n (gOf i.aux)
  ⟨none, some h', h', none⟩

/-- The SRU cell. -/
def sruCell (i : CellIn) : CellOut :=
  let c := gOf i.c
  let f := gSig (gFma (i.pAt 0) c (i.zAt 1)) (i.pAt 2)
  let r := gSig (gFma (i.pAt 1) c (i.zAt 2)) (i.pAt 3)
  let c' := gLerp (i.zAt 0) c f
  let t := let (w, fl) := ftanh c'.1; (w, fl ||| c'.2)
  let h' := gLerp (i.zAt 3) t r
  ⟨some c', some h', h', none⟩

/-! ### Gate programs (R129, R130) -/

/-- Values of a gate program's sources and destinations on one element. -/
structure GateEnv where
  src : List W32
  c : Option W32
  h : Option W32
  flags : Nat
  deriving DecidableEq, Repr

/-- The result of a gate operation (Table 10 of 04): none for nop; the second component is false for a reserved op. -/
def gateOp (op : Nat) (a b c : W32) (drawBelow : Bool) : Option FRes × Bool :=
  let x := gOf a
  let y := gOf b
  let z := gOf c
  match op with
  | 0 => (none, true)
  | 1 => (some (gAdd x y), true)
  | 2 => (some (gSub x y), true)
  | 3 => (some (gMul x y), true)
  | 4 => (some (gFma x y z), true)
  | 5 => (some (gSig x y), true)
  | 6 => (some (gTanh x y), true)
  | 7 => (some (gMinMax true (gAdd x y) (gOf 0)), true)
  | 8 => (some (gMinMax false x y), true)
  | 9 => (some (gMinMax true x y), true)
  | 10 => (some (gLerp x y z), true)
  | 11 => (some (gSub (gOf one32) x), true)
  | 12 => (some (if drawBelow then x else y), true)
  | 13 => (some (gMinMax false (gMinMax true x (gOf (fneg b))) y), true)
  | _ => (none, false)

/-- One 32-bit gate operation on an element: false where it is reserved (Table 9 of 04). -/
def gateStep (w : Nat) (drawBelow : Bool) (e : GateEnv) : GateEnv × Bool :=
  let d := wfld w 26 23
  let (r, ok) := gateOp (wfld w 31 27) (e.src.getD (wfld w 22 19) 0) (e.src.getD (wfld w 18 15) 0)
    (e.src.getD (wfld w 14 11) 0) drawBelow
  match r with
  | none => (e, ok)
  | some (v, fl) =>
    let e := { e with flags := e.flags ||| fl }
    if d = 4 then ({ e with c := some v }, ok)
    else if d = 5 then ({ e with h := some v }, ok)
    else if 10 ≤ d && d ≤ 13 then ({ e with src := e.src.set d v }, ok)
    else (e, false)

/-- A gate program on one element. -/
def gateRun : List Nat → Bool → GateEnv → GateEnv × Bool
  | [], _, e => (e, true)
  | w :: ws, dr, e =>
    let (e, ok) := gateStep w dr e
    if ok then gateRun ws dr e else (e, false)

/-- The sources of a gate program on an element (Table 9 of 04). -/
def gateSources (i : CellIn) (k0 k1 : W32) : List W32 :=
  [i.z.getD 0 0, i.z.getD 1 0, i.z.getD 2 0, i.z.getD 3 0, i.c, i.h, i.p.getD 0 0, i.p.getD 1 0, i.p.getD 2 0,
   i.p.getD 3 0, 0, 0, 0, 0, k0, k1]

/-! ### Running a descriptor -/

/-- Bit of the reset mask for step s and batch row b (R127). -/
def Core.resetBit (c : Core) (x : Ctx) (d s b : Nat) : Bool :=
  if gdMask d = 0xFF || 15 < s then false
  else (c.view x.part (hBase (c.handle (x.hnd (gdMask d))))).toNat.testBit (s * 256 + b)

/-- Position of a GTU vector or matrix in its handle. -/
def Core.gtuPos (c : Core) (h kind : Nat) (i : Nat) : Nat := Config.gtuBase kind (hRows (c.handle h)) + i

/-- The inputs of unit position j, column n of a tile (R124). -/
def Core.gtuIn (c : Core) (x : Ctx) (d : Nat) (j n : Nat) : CellIn :=
  let u := gdUnitBase d + j
  let b := 128 * gdHalf d + n
  let slot := SMap.get Slot.init c.rill (gdSlot d)
  let units := gdUnits d
  let si := x.hnd (gdStateIn d)
  let pa := x.hnd (gdParam d)
  let ax := x.hnd (gdAux d)
  { z := (List.range (128 / units)).map fun k => SMap.get 0 slot.cells ((units * k + j) * 128 + n)
    c := c.word x.part si (c.gtuPos si 0 (256 * u + b))
    h := c.word x.part si (c.gtuPos si 1 (256 * u + b))
    p := (List.range 4).map fun k => c.word x.part pa (c.gtuPos pa (2 + k) u)
    aux := if gdAux d = 0xFF then 0 else c.word x.part ax (c.gtuPos ax 8 (256 * u + b)) }

/-- The vectors of its state and parameter handles that a template reads, as for Config.gtuBase (Tables 8 to 10 of 04): a gate
program those that its operations name. -/
def gtuReads (template : Nat) (ws : List Nat) : List Nat :=
  match template with
  | 0 => [0, 2, 3, 4, 5]
  | 1 => [1, 2, 3, 4, 5]
  | 2 => [1, 2]
  | 3 => [1, 3]
  | 4 => [0, 2, 3, 4, 5]
  | 5 => ([0, 1, 2, 3, 4, 5] : List Nat).filter fun k => ws.any fun w =>
      let op := wfld w 31 27
      let srcs := if op = 0 || 13 < op then [] else if op = 11 then [wfld w 22 19]
        else if op = 4 || op = 10 then [wfld w 22 19, wfld w 18 15, wfld w 14 11] else [wfld w 22 19, wfld w 18 15]
      srcs.contains (k + 4)
  | _ => [0, 1]

/-- The template writes c' (Tables 8 and 9 of 04; R127, R130). -/
def gtuKeepsC (template : Nat) (ws : List Nat) : Bool :=
  match template with
  | 0 => true
  | 4 => true
  | 5 => ws.any fun w => wfld w 31 27 ≠ 0 && wfld w 26 23 = 4
  | 6 => true
  | _ => false

/-- The step whose reset bits a descriptor reads: that after its own, and step 0 for the intake (R127). -/
def gdResetStep (d : Nat) : Nat := if gdTemplate d = 6 then 0 else gdStep d + 1

/-- The words of a gate program: operation i at bytes 4i to 4i + 3 of the program handle's first row (R129). -/
def Core.gateWords (c : Core) (x : Ctx) (d : Nat) : List Nat :=
  let r := c.view x.part (hBase (c.handle (x.hnd (gdProg d))))
  (List.range (gdProgLen d)).map fun i => rowBits r (32 * i) 32

/-- Rows that a GTU descriptor reads from handles: the state and the parameters that its template uses, the initial state where a
column is reset, the mask, the aux tile and the program (R124, R127, R129). -/
def Core.gtuRows (c : Core) (x : Ctx) (d : Nat) (units : Nat) : List Nat :=
  let us := (List.range units).map fun j => gdUnitBase d + j
  let at' (h kind i : Nat) : Nat := hRow (c.handle h) (4 * c.gtuPos h kind i)
  let ends (h kind : Nat) : List Nat := us.flatMap fun u =>
    [at' h kind (256 * u + 128 * gdHalf d), at' h kind (256 * u + 128 * gdHalf d + 127)]
  let ws := if gdTemplate d = 5 then c.gateWords x d else []
  let uses := gtuReads (gdTemplate d) ws
  let st := ((uses.filter fun k => k < 2).flatMap fun k => ends (x.hnd (gdStateIn d)) k)
  let pr := (uses.filter fun k => 2 ≤ k).flatMap fun k => us.map fun u => at' (x.hnd (gdParam d)) k u
  let resets := gdTemplate d ≠ 2 && (List.range 128).any fun n => c.resetBit x d (gdResetStep d) (128 * gdHalf d + n)
  let ini := if !resets then [] else us.flatMap fun u =>
    at' (x.hnd (gdInit d)) 6 u :: (if gtuKeepsC (gdTemplate d) ws then [at' (x.hnd (gdInit d)) 7 u] else [])
  let ax := if gdTemplate d = 3 then ends (x.hnd (gdAux d)) 8 else []
  let mk := if gdMask d = 0xFF || 15 < gdResetStep d then [] else [hBase (c.handle (x.hnd (gdMask d)))]
  let pg := if gdTemplate d = 5 then [hBase (c.handle (x.hnd (gdProg d)))] else []
  (st ++ pr ++ ini ++ ax ++ mk ++ pg).eraseDups

/-- Write the new state of unit u, batch row b, with the initial state where the next step resets (R127). -/
def Core.gtuState (c : Core) (x : Ctx) (d u b : Nat) (reset : Bool) (o : CellOut) : Core :=
  let so := x.hnd (gdStateOut d)
  let ih := x.hnd (gdInit d)
  let c0 := c.word x.part ih (c.gtuPos ih 7 u)
  let h0 := c.word x.part ih (c.gtuPos ih 6 u)
  let c := match o.h with
    | some v => c.store32 x.part so (c.gtuPos so 1 (256 * u + b)) (if reset then h0 else v.1)
    | none => c
  match o.c with
  | some v => c.store32 x.part so (c.gtuPos so 0 (256 * u + b)) (if reset then c0 else v.1)
  | none => c

/-- Elements from one batch row of the out handle to the next: the row length is free (log entry 13), and a row of a grouped format is a
whole number of groups, so that G consecutive units of a batch row are one group (R50, R52, R116, R128). -/
def Core.gtuOutLen (c : Core) (x : Ctx) (d : Nat) : Nat :=
  let n := Config.gtuOutLen (hRows (c.handle (x.hnd (gdOut d)))) (gdOutFmt d)
  if (fmtCode (gdOutFmt d)).isNone then n else gdOutG d * (n / gdOutG d)

/-- The values of the out handle by position: the tiles held and this one, once their group is complete (R128). -/
def Core.gtuOutVals (c : Core) (x : Ctx) (d : Nat) (tiles : List (Nat × List W32)) : SMap (W32 × Nat) :=
  let units := gdUnits d
  let len := c.gtuOutLen x d
  tiles.foldl (fun m t =>
    t.2.zipIdx.foldl (fun (m : SMap (W32 × Nat)) v =>
      let b := 128 * gdHalf d + v.2 / units
      SMap.insert m (b * len + t.1 + v.2 % units) (v.1, 0)) m) []

/-- Emit a tile of h' to the output site: held until its group of units is complete (R128). -/
def Core.gtuEmit (c : Core) (x : Ctx) (d : Nat) (tile : List W32) : Core × Nat × ConvCount :=
  let tiles := c.gtuBuf ++ [(gdUnitBase d, tile)]
  let g := gdOutG d
  let whole := (fmtCode (gdOutFmt d)).isNone || (gdUnitBase d + gdUnits d) % g = 0
  if whole then
    { c with gtuBuf := [] }.storeAll x (x.hnd (gdOut d)) (gdOutFmt d) g (c.gtuOutVals x d tiles) false false
  else ({ c with gtuBuf := tiles }, 0, ConvCount.zero)

/-- Unit positions and columns of a tile, column by column. -/
def tileCells (units : Nat) : List (Nat × Nat) :=
  (List.range 128).flatMap fun n => (List.range units).map fun j => (j, n)

/-- Run a cell on every element of the tile: all inputs are read before any result is written (R76). Answers the core,
flags and counts. -/
def Core.gtuTile (c : Core) (x : Ctx) (d : Nat) (cell : CellIn → Nat → CellOut) : Core × Nat × ConvCount :=
  let units := gdUnits d
  let outs := (tileCells units).map fun p => (p, cell (c.gtuIn x d p.1 p.2) (p.1 + 65536 * (128 * gdHalf d + p.2)))
  let fl := outs.foldl (fun a o => a ||| o.2.out.2 ||| (o.2.c.map (·.2)).getD 0 ||| (o.2.aux.map (·.2)).getD 0) 0
  let c' := outs.foldl (fun c' o =>
    let u := gdUnitBase d + o.1.1
    let b := 128 * gdHalf d + o.1.2
    let c' := Core.gtuState c' x d u b (c.resetBit x d (gdStep d + 1) b) o.2
    match o.2.aux with
    | some v =>
      let ah := x.hnd (gdAux d)
      c'.store32 x.part ah (c'.gtuPos ah 8 (256 * u + b)) v.1
    | none => c') c
  let (c', cf, n) := c'.gtuEmit x d (outs.map fun o => o.2.out.1)
  (c', fl ||| cf, n)

/-- Handles whose flag words a descriptor writes (R140). -/
def gtuFlagged (x : Ctx) (d : Nat) : List Nat := [x.hnd (gdOut d), if gdTemplate d = 2 then x.hnd (gdAux d) else x.hnd (gdStateOut d)]

/-- The slot is released after the last issue (R121, R126); its flag word goes with the output's (R140). -/
def Core.gtuFinish (c : Core) (x : Ctx) (d fl : Nat) : Core :=
  let slot := SMap.get Slot.init c.rill (gdSlot d)
  let word := withSource fl flagSrcGtu ||| slot.flags
  let c := { c with rill := SMap.set Slot.init c.rill (gdSlot d) Slot.init }
  let c := c.orFlags (x.hnd (gdOut d)) word
  if gdTemplate d = 2 then c.orFlags (x.hnd (gdAux d)) word else c.orFlags (x.hnd (gdStateOut d)) word

/-- The slot can be consumed by the GTU (R122). -/
def Core.slotReady (c : Core) (k : Nat) : Bool :=
  let s := SMap.get Slot.init c.rill k
  s.st = .ready || s.st = .draining

/-- The program holds no reserved operation, source use or destination. -/
def gateLegal (ws : List Nat) : Bool :=
  ws.all fun w =>
    let op := wfld w 31 27
    let d := wfld w 26 23
    op = 0 || (op ≤ 13 && (d = 4 || d = 5 || (10 ≤ d && d ≤ 13)))

/-- A gate program's cell: its draw is that of the element's batch row and absolute unit (R130). -/
def gateCell (ws : List Nat) (d : Nat) (seed tid : W64) (i : CellIn) (idx : Nat) : CellOut :=
  let zone := ws.any fun w => wfld w 31 27 = 12
  let below := zone && decide (draw seed tid (idx + gdUnitBase d) 16 < gdKeep d)
  let (e, _) := gateRun ws below { src := gateSources i (gdK0 d) (gdK1 d), c := none, h := none, flags := 0 }
  ⟨e.c.map fun v => (v, e.flags), some (e.h.getD 0, e.flags), (e.h.getD 0, e.flags), none⟩

/-- The intake template (R127): c and h copied for the columns of the half, with the initial state where the step-0 bit is
set. Units are those that the state handle holds. -/
def Core.gtuIntakeRun (c : Core) (x : Ctx) (d : Nat) : Core :=
  let si := x.hnd (gdStateIn d)
  let units := hRows (c.handle si) / 4
  let cells := (tileCells units).map fun p =>
    let u := gdUnitBase d + p.1
    let b := 128 * gdHalf d + p.2
    (u, b, c.word x.part si (c.gtuPos si 0 (256 * u + b)), c.word x.part si (c.gtuPos si 1 (256 * u + b)))
  cells.foldl (fun c' q =>
    Core.gtuState c' x d q.1 q.2.1 (c.resetBit x d 0 q.2.1)
      ⟨some (q.2.2.1, 0), some (q.2.2.2, 0), (0, 0), none⟩) c

/-- Issue cycles (R126). -/
def Core.gtuIssue (c : Core) (x : Ctx) (d : Nat) : Nat :=
  let passes := match gdTemplate d with
    | 2 => 128
    | 3 => 128
    | 6 => 32 * ceilDiv (hRows (c.handle (x.hnd (gdStateIn d))) / 4 * 128) 4096
    | _ => 32
  passes * gdOps d

end Sys2Proof.Machine
end

