-- ==== Sys2Proof/Machine/Vxe.lean ====
section
/-! DEFINITION. The Vector Engine: streams, element programs and pass descriptors (R132 to R139, R491). -/

namespace Sys2Proof.Machine

/-! ### Stream bindings (Table 12 of 04) -/

def sbJump (b : Nat) : Nat := wfld b 63 48
def sbBase (b : Nat) : Nat := wfld b 47 24
def sbG (b : Nat) : Nat := groupSize (wfld b 21 20)
def sbRun (b : Nat) : Nat := wfld b 19 16
def sbRelease (b : Nat) : Bool := wfld b 15 15 = 1
def sbPair (b : Nat) : Bool := wfld b 14 14 = 1
def sbKind (b : Nat) : Nat := wfld b 13 12
def sbFmt (b : Nat) : Nat := wfld b 11 8
def sbTarget (b : Nat) : Nat := wfld b 7 0

/-- Position of element e in a stream (R133). -/
def sbPos (b e : Nat) : Nat := sbBase b + (e >>> sbRun b) * sbJump b + e % 2 ^ sbRun b

/-- Legal codes of a binding (R133, R491); inp for an input stream, hf for half mode. -/
def sbLegal (b : Nat) (inp hf : Bool) : Bool :=
  (!hf || !sbPair b) && (sbKind b = 0 || (sbKind b ≤ 2 && sbFmt b ≤ 8
    && (sbKind b = 1 || (inp && (fmtCode (sbFmt b)).isNone && sbTarget b < 8))
    && ((fmtCode (sbFmt b)).isNone || wfld b 21 20 ≠ 3)))

/-! ### Pass descriptor (Table 13 of 04) -/

def vdIn (d k : Nat) : Nat := (d >>> (128 + 64 * k)) % 2 ^ 64
def vdOut (d k : Nat) : Nat := (d >>> (384 + 64 * k)) % 2 ^ 64
def vdTensor (d : Nat) : Nat := wfld d 127 112
def vdBase (d : Nat) : Nat := wfld d 111 64
def vdElements (d : Nat) : Nat := wfld d 63 32
def vdHalf (d : Nat) : Bool := wfld d 25 25 = 1
def vdSr (d : Nat) : Bool := wfld d 24 24 = 1
def vdWidth (d : Nat) : Nat :=
  match wfld d 23 22 with
  | 0 => 0
  | 1 => 16
  | 2 => 24
  | _ => 32
def vdLen (d : Nat) : Nat := wfld d 21 16 + 1
def vdRow (d : Nat) : Nat := wfld d 12 0

/-- The descriptor holds no reserved code (R133, R134, R491). -/
def vdLegal (d : Nat) : Bool :=
  vdElements d ≠ 0 && (!vdSr d || vdWidth d = 24)
    && (List.range 4).all (fun k => sbLegal (vdIn d k) true (vdHalf d))
    && (List.range 2).all (fun k => sbLegal (vdOut d k) false (vdHalf d))

/-! ### Instructions (Tables 14 and 15 of 04) -/

def viOp (w : Nat) : Nat := wfld w 63 58
def viD (w : Nat) : Nat := wfld w 57 54
def viA (w : Nat) : Nat := wfld w 53 50
def viB (w : Nat) : Nat := wfld w 49 46
def viC (w : Nat) : Nat := wfld w 45 42
def viBi (w : Nat) : Bool := wfld w 41 41 = 1
def viHf (w : Nat) : Bool := wfld w 40 40 = 1
def viP (w : Nat) : Nat := wfld w 39 36
def viPe (w : Nat) : Bool := wfld w 35 35 = 1
def viPn (w : Nat) : Bool := wfld w 34 34 = 1
def viSub (w : Nat) : Nat := wfld w 33 32
def viImm (w : Nat) : W32 := BitVec.ofNat 32 w

/-- The opcode is one that this pass may use (R134 to R136). -/
def viOpcode (d w : Nat) : Bool :=
  let op := viOp w
  let known := op ≤ 0x1D || (0x20 ≤ op && op ≤ 0x29)
  let mode := if vdHalf d then
      (if viHf w then (1 ≤ op && op ≤ 0x0E) else (1 ≤ op && op ≤ 0x1D)) || op = 0x20 || op = 0x21 || op = 0x25
    else !viHf w
  let rnd := op ≠ 0x25 || (!vdSr d && vdWidth d ≠ 0 && (!vdHalf d || vdWidth d = 16))
  known && mode && rnd

/-- The opcode may be used in this pass with these fields: its sub field is no reserved one, and a pair of registers does not begin at
v15 (R135). -/
def viLegal (d w : Nat) : Bool :=
  let op := viOp w
  let sub := if 0x10 ≤ op && op ≤ 0x13 then viSub w = 0
    else if op = 0x1C then viSub w ≠ 3 else if op = 0x28 then viSub w ≤ 1 else true
  let pairs :=
    if op = 0x20 || op = 0x23 then !(sbPair (vdIn d (viSub w)) && viD w = 15)
    else if op = 0x21 || op = 0x22 then !(sbPair (vdOut d (viSub w % 2)) && viA w = 15)
    else if op = 0x26 then viD w ≠ 15
    else if op = 0x27 then viD w ≠ 15 && viA w ≠ 15 && viB w ≠ 15
    else true
  viOpcode d w && sub && pairs

/-- Issue cycles of an instruction (Table 15 of 04); a reserved opcode, or one used where it is reserved, counts 1 (R135). -/
def viIssue (d w : Nat) : Nat :=
  let op := viOp w
  if !viOpcode d w then 1
  else if op = 0x28 then 4
  else if (6 ≤ op && op ≤ 10) || op = 0x27 || op = 0x29 then 2
  else 1

/-- Issue cycles of a pass (R139) on a number of lanes. -/
def vxIssue (d lanes : Nat) (prog : List Nat) : Nat :=
  let p := if vdHalf d then 2 * lanes else lanes
  ceilDiv (vdElements d) p * prog.foldl (fun a w => a + viIssue d w) 0

/-- The pass has a random use: a stochastic store, or a draw instruction (R99, R134). -/
def vdRandom (d : Nat) (prog : List Nat) : Bool := vdSr d || prog.any fun w => viOp w = 0x25 && viLegal d w

/-- Result of an opcode from 0x01 to 0x1D on whole registers. -/
def vxAlu (op sub : Nat) (a b c : W32) : W32 × Nat :=
  let truth (p : Bool) : W32 := if p then 0xFFFFFFFF#32 else 0
  let x := dec32 a
  let y := dec32 b
  match op with
  | 0x01 => fadd a b
  | 0x02 => fsub a b
  | 0x03 => fmul a b
  | 0x04 => ffma a b c
  | 0x05 => ffnma a b c
  | 0x06 => fdiv a b
  | 0x07 => fsqrt a
  | 0x08 => frsqrt a
  | 0x09 => fexp2 a
  | 0x0A => flog2 a
  | 0x0B => fminmax false a b
  | 0x0C => fminmax true a b
  | 0x0D => (a &&& 0x7FFFFFFF#32, 0)
  | 0x0E => (fneg a, 0)
  | 0x0F => (if c ≠ 0 then a else b, 0)
  | 0x10 => (truth (x.lt y), nanIn [a, b])
  | 0x11 => (truth (x.le y), nanIn [a, b])
  | 0x12 => (truth (x.eqv y), nanIn [a, b])
  | 0x13 => (truth (!x.eqv y), nanIn [a, b])
  | 0x14 => (a + b, 0)
  | 0x15 => (a - b, 0)
  | 0x16 => (a * b, 0)
  | 0x17 => (a &&& b, 0)
  | 0x18 => (a ||| b, 0)
  | 0x19 => (a ^^^ b, 0)
  | 0x1A => (a <<< (b.toNat % 32), 0)
  | 0x1B => (a >>> (b.toNat % 32), 0)
  | 0x1C => if sub = 1 then ofInt32 a.toInt else f2i (sub = 2) a
  | _ => frnd sub a

/-! ### BF16 halves (R136) -/

/-- Round an exact value once to BF16, ties to even. -/
def roundHalf (v : FV × Bool) (a b c : Nat) : Nat × Nat :=
  match v with
  | (.nan, bad) => ((qnan (ofBF16 a) (ofBF16 b) (ofBF16 c)).toNat >>> 16, if bad then flagInvalid else 0)
  | (.inf s, _) => (boolNat s <<< 15 + 0x7F80, 0)
  | (.fin s m e, _) => fmtBF16.round .even s m e

/-- A BF16 function's result from an optional pattern and its flags. -/
def halfOpt (r : Option Nat × Nat) (a b : Nat) : Nat × Nat :=
  match r with
  | (some w, fl) => (w, fl)
  | (none, fl) => ((qnan (ofBF16 a) (ofBF16 b) 0).toNat >>> 16, fl)

/-- 1 / sqrt, 2^x and log2 computed exactly and rounded once to BF16. -/
def rsqrtHalf : FV → Option Nat × Nat
  | .nan => (none, 0)
  | .inf s => if s then (none, flagInvalid) else (some 0, 0)
  | .fin s m e =>
    if m = 0 then (some (boolNat s <<< 15 + 0x7F80), flagDivZero)
    else if s then (none, flagInvalid)
    else
      let (r, t, exact) := rsqrtParts m e
      let (w, fl) := fmtBF16.round .even false r (t / 2) (!exact)
      (some w, fl)

def exp2Half : FV → Option Nat × Nat
  | .nan => (none, 0)
  | .inf s => (some (if s then 0 else 0x7F80), 0)
  | .fin s m e =>
    if 10 ≤ e + bitLen m && m ≠ 0 then
      (some (if s then 0 else 0x7F80), (if s then flagUnderflow else flagOverflow) ||| flagInexact)
    else
      let (y, n, exact) := exp2Parts s m e
      let (w, fl) := fmtBF16.round .even false y (n - 100) (!exact)
      (some w, fl)

def log2Half : FV → Option Nat × Nat
  | .nan => (none, 0)
  | .inf s => if s then (none, flagInvalid) else (some 0x7F80, 0)
  | .fin s m e =>
    if m = 0 then (some 0xFF80, flagDivZero)
    else if s then (none, flagInvalid)
    else
      let (r, exact) := log2Parts m e
      let (w, fl) := fmtBF16.round .even (r < 0) r.natAbs (-60) (!exact)
      (some w, fl)

/-- Result of an opcode from 0x01 to 0x0E on BF16 halves. -/
def vxHalf (op a b c : Nat) : Nat × Nat :=
  let x := fmtBF16.decode a
  let y := fmtBF16.decode b
  let z := fmtBF16.decode c
  let ni (l : List FV) : Nat := if l.any FV.isNan then flagNanInput else 0
  let topHalf (r : W32 × Nat) : Nat × Nat := (r.1.toNat >>> 16, r.2)
  let with' (r : Nat × Nat) (l : List FV) : Nat × Nat := (r.1, r.2 ||| ni l)
  if op = 0x01 then with' (roundHalf (x.add y) a b 0) [x, y]
  else if op = 0x02 then with' (roundHalf (x.add y.negate) a b 0) [x, y]
  else if op = 0x03 then with' (roundHalf (x.mul y) a b 0) [x, y]
  else if op = 0x04 then with' (roundHalf (FV.fma x y z) a b c) [x, y, z]
  else if op = 0x05 then with' (roundHalf (FV.fma x.negate y z) a b c) [x, y, z]
  else if op = 0x06 then with' (halfOpt (fdivIn fmtBF16 x y) a b) [x, y]
  else if op = 0x07 then with' (halfOpt (fsqrtIn fmtBF16 x) a 0) [x]
  else if op = 0x08 then with' (halfOpt (rsqrtHalf x) a 0) [x]
  else if op = 0x09 then with' (halfOpt (exp2Half x) a 0) [x]
  else if op = 0x0A then with' (halfOpt (log2Half x) a 0) [x]
  else if op = 0x0B then topHalf (fminmax false (ofBF16 a) (ofBF16 b))
  else if op = 0x0C then topHalf (fminmax true (ofBF16 a) (ofBF16 b))
  else if op = 0x0D then (a % 2 ^ 15, 0)
  else ((a + 2 ^ 15) % 2 ^ 16, 0)

/-! ### Running a pass -/

/-- What a pass gathers: elements read by expd from each input, elements appended and values stored to each output by
position (value and draw), flags, T2 reserved codes, draws, rows read, and whether a reserved opcode ran. -/
structure VxAcc where
  read : List Nat
  app : List Nat
  outs : List (SMap (W32 × Nat))
  flags : Nat
  t2 : Nat
  draws : Nat
  wild : Bool
  deriving DecidableEq, Repr

def VxAcc.init : VxAcc :=
  { read := [0, 0, 0, 0], app := [0, 0], outs := [[], []], flags := 0, t2 := 0, draws := 0, wild := false }

/-- What a pass runs under: the core, its context, the descriptor, the free-value counter, seed and tensor id. -/
structure VxEnv where
  core : Core
  ctx : Ctx
  desc : Nat
  free : Nat
  tid : W64
  deriving DecidableEq, Repr

/-- Scalar element q of an input stream: its value, flags and T2 count (R133). -/
def VxEnv.scalar (v : VxEnv) (b q : Nat) : W32 × Nat × Nat :=
  match sbKind b with
  | 1 => let (_, w, fl, t2) := v.core.loadElem v.ctx.part (v.ctx.hnd (sbTarget b)) (sbFmt b) (sbG b) q; (w, fl, t2)
  | 2 => if q < 16384 then (SMap.get 0 (SMap.get Slot.init v.core.rill (sbTarget b)).cells q, 0, 0)
         else (Config.vxeReg v.free q 16, 0, 0)
  | _ => (0, 0, 0)

/-- Draw of element e of the pass. -/
def VxEnv.draw (v : VxEnv) (e : Nat) : Nat := Sys2Proof.Machine.draw v.ctx.seed v.tid (vdBase v.desc + e) (vdWidth v.desc)

/-- Store the value of element a of an output stream's map: nothing for kind 0 (R133). R67 and R96 give one draw to an element,
and do not say which draw each scalar of a complex pair takes: the model uses the element's one draw for both (DESIGN CHOICE, log
entry 66). -/
def VxAcc.store (g : VxAcc) (v : VxEnv) (k a e : Nat) (x y : W32) : VxAcc :=
  let b := vdOut v.desc k
  if sbKind b = 0 then g
  else
    let dr := if vdSr v.desc && k = 0 then v.draw e else 0
    let p := sbPos b a
    let m := g.outs.getD k []
    let m := if sbPair b then SMap.insert (SMap.insert m (2 * p) (x, dr)) (2 * p + 1) (y, dr)
      else SMap.insert m p (x, dr)
    { g with outs := g.outs.set k m }

def VxAcc.flag (g : VxAcc) (fl : Nat) : VxAcc := { g with flags := g.flags ||| fl }

/-- Elements that an expd stream holds (R137). -/
def VxEnv.limit (v : VxEnv) (b : Nat) : Option Nat :=
  match sbKind b with
  | 1 => some (hElements (v.core.handle (v.ctx.hnd (sbTarget b))))
  | 2 => some (if sbPair b then 8192 else 16384)
  | _ => none

abbrev Regs := List W32

def Regs.at (r : Regs) (k : Nat) : W32 := r.getD k 0
def Regs.pair (r : Regs) (k : Nat) (x y : W32) : Regs := (r.set k x).set (k + 1) y

/-- Real sums in the order written, with their flags (R138). -/
def sumSigned : W32 → List (Bool × W32) → W32 × Nat
  | a, [] => (a, 0)
  | a, (minus, b) :: l =>
    let (r, f) := if minus then fsub a b else fadd a b
    let (q, g) := sumSigned r l
    (q, f ||| g)

/-- The radix-4 butterfly on v0 to v7; inv for the inverse (R138). -/
def bfly4 (r : Regs) (inv : Bool) : Regs × Nat :=
  let p (k : Nat) : W32 := Regs.at r k
  let x0 := sumSigned (p 0) [(false, p 2), (false, p 4), (false, p 6)]
  let y0 := sumSigned (p 1) [(false, p 3), (false, p 5), (false, p 7)]
  let x1 := sumSigned (p 0) [(inv, p 3), (true, p 4), (!inv, p 7)]
  let y1 := sumSigned (p 1) [(!inv, p 2), (true, p 5), (inv, p 6)]
  let x2 := sumSigned (p 0) [(true, p 2), (false, p 4), (true, p 6)]
  let y2 := sumSigned (p 1) [(true, p 3), (false, p 5), (true, p 7)]
  let x3 := sumSigned (p 0) [(!inv, p 3), (true, p 4), (inv, p 7)]
  let y3 := sumSigned (p 1) [(inv, p 2), (true, p 5), (!inv, p 6)]
  ([x0.1, y0.1, x1.1, y1.1, x2.1, y2.1, x3.1, y3.1] ++ r.drop 8,
   x0.2 ||| y0.2 ||| x1.2 ||| y1.2 ||| x2.2 ||| y2.2 ||| x3.2 ||| y3.2)

/-- The radix-2 butterfly on (v0, v1) and (v2, v3). -/
def bfly2 (r : Regs) : Regs × Nat :=
  let a := fadd (Regs.at r 0) (Regs.at r 2)
  let b := fadd (Regs.at r 1) (Regs.at r 3)
  let c := fsub (Regs.at r 0) (Regs.at r 2)
  let d := fsub (Regs.at r 1) (Regs.at r 3)
  ([a.1, b.1, c.1, d.1] ++ r.drop 4, a.2 ||| b.2 ||| c.2 ||| d.2)

/-- A complex product, each part formed exactly and rounded once (R136). -/
def cmul (a b c d : W32) : W32 × W32 × Nat :=
  let part (x y z w : FV) : FV × Bool :=
    let p := x.mul y
    let q := z.mul w
    let r := p.1.add q.1
    (r.1, p.2 || q.2 || r.2)
  let (x, f) := round32 (part (dec32 a) (dec32 c) (dec32 b).negate (dec32 d)) a c d
  let (y, g) := round32 (part (dec32 a) (dec32 d) (dec32 b) (dec32 c)) a c d
  (x, y, f ||| g ||| nanIn [a, b, c, d])

/-- One instruction, at place i of the program, on element e of a pass that is not in half mode. R109 counts draws delivered and
does not say whether a draw instruction whose predicate is off is delivered one: the model counts it (DESIGN CHOICE, log entry
66). -/
def vxFull (v : VxEnv) (e i w : Nat) (r : Regs) (g : VxAcc) : Regs × VxAcc :=
  let a := Regs.at r (viA w)
  let b := if viBi w then viImm w else Regs.at r (viB w)
  let on := !viPe w || ((Regs.at r (viP w) != 0) != viPn w)
  let op := viOp w
  let d := viD w
  if op = 0x00 then (r, g)
  else if op ≤ 0x1D then
    if on then
      let (x, fl) := vxAlu op (viSub w) a b (Regs.at r (viC w))
      (r.set d x, g.flag fl)
    else (r, g)
  else if op = 0x20 then
    let s := vdIn v.desc (viSub w)
    let p := sbPos s e
    if sbPair s then
      let x := v.scalar s (2 * p)
      let y := v.scalar s (2 * p + 1)
      (if on then Regs.pair r d x.1 y.1 else r,
        { g.flag (if on then x.2.1 ||| y.2.1 else 0) with t2 := g.t2 + x.2.2 + y.2.2 })
    else
      let x := v.scalar s p
      (if on then r.set d x.1 else r, { g.flag (if on then x.2.1 else 0) with t2 := g.t2 + x.2.2 })
  else if op = 0x21 then (r, g.store v (viSub w % 2) e e a (Regs.at r (viA w + 1)))
  else if op = 0x22 then
    if on then
      let k := viSub w % 2
      let n := g.app.getD k 0
      let g := g.store v k n e a (Regs.at r (viA w + 1))
      (r, { g with app := g.app.set k (n + 1) })
    else (r, g)
  else if op = 0x23 then
    let k := viSub w
    let s := vdIn v.desc k
    let n := g.read.getD k 0
    let room := match v.limit s with
      | some m => decide (n < m)
      | none => true
    if on && room then
      let g := { g with read := g.read.set k (n + 1) }
      let p := sbPos s n
      if sbPair s then
        let x := v.scalar s (2 * p)
        let y := v.scalar s (2 * p + 1)
        (Regs.pair r d x.1 y.1, { g.flag (x.2.1 ||| y.2.1) with t2 := g.t2 + x.2.2 + y.2.2 })
      else
        let x := v.scalar s p
        (r.set d x.1, { g.flag x.2.1 with t2 := g.t2 + x.2.2 })
    else if sbPair s then (Regs.pair r d b (Config.vxeReg v.free e (32 * (i + 1))), g)
    else (r.set d b, g)
  else if op = 0x24 then (if on then r.set d (BitVec.ofNat 32 (vdBase v.desc + e) + viImm w) else r, g)
  else if op = 0x25 then
    (if on then r.set d (BitVec.ofNat 32 (v.draw e)) else r, { g with draws := g.draws + 1 })
  else if op = 0x26 then
    let t := twiddle (a.toNat % 4096)
    (if on then Regs.pair r d t.1 t.2 else r, g)
  else if op = 0x27 then
    if on then
      let (x, y, fl) := cmul a (Regs.at r (viA w + 1)) (Regs.at r (viB w)) (Regs.at r (viB w + 1))
      (Regs.pair r d x y, g.flag fl)
    else (r, g)
  else if op = 0x28 then
    if on then let (r, fl) := bfly4 r (viSub w = 1); (r, g.flag fl) else (r, g)
  else
    if on then let (r, fl) := bfly2 r; (r, g.flag fl) else (r, g)

/-- Low or high half of a register. -/
def halfOf (w : W32) (hi : Bool) : Nat := if hi then w.toNat >>> 16 else w.toNat % 65536

/-- Replace a half of a register. -/
def setHalf (w : W32) (hi : Bool) (v : Nat) : W32 :=
  if hi then BitVec.ofNat 32 (w.toNat % 65536 + (v % 65536) <<< 16)
  else BitVec.ofNat 32 ((w.toNat >>> 16) <<< 16 + v % 65536)

/-- The predicate of an instruction on a half. -/
def halfOn (w : Nat) (r : Regs) (hi : Bool) : Bool :=
  !viPe w || ((halfOf (Regs.at r (viP w)) hi != 0) != viPn w)

/-- One half of an instruction of half mode: ld, st and draw move one element; an operation with hf = 1 acts on one. -/
def vxHalfStep (v : VxEnv) (e w : Nat) (hi : Bool) (old r : Regs) (g : VxAcc) : Regs × VxAcc :=
  let op := viOp w
  let d := viD w
  let keep := Regs.at r d
  let on := if viHf w then halfOn w old hi else !viPe w || ((Regs.at old (viP w) != 0) != viPn w)
  if op = 0x20 then
    let x := v.scalar (vdIn v.desc (viSub w)) (sbPos (vdIn v.desc (viSub w)) e)
    let (h, fl) := roundHalf (dec32 x.1, false) (x.1.toNat >>> 16) 0 0
    (if on then r.set d (setHalf keep hi h) else r,
      { g.flag (if on then x.2.1 ||| fl ||| nanIn [x.1] else 0) with t2 := g.t2 + x.2.2 })
  else if op = 0x21 then (r, g.store v (viSub w % 2) e e (ofBF16 (halfOf (Regs.at r (viA w)) hi)) 0)
  else if op = 0x25 then
    (if on then r.set d (setHalf keep hi (v.draw e)) else r, { g with draws := g.draws + 1 })
  else if on then
    let b := if viBi w then viImm w else Regs.at old (viB w)
    let (x, fl) := vxHalf op (halfOf (Regs.at old (viA w)) hi) (halfOf b hi) (halfOf (Regs.at old (viC w)) hi)
    (r.set d (setHalf keep hi x), g.flag fl)
  else (r, g)

/-- One instruction on elements e and e + 1 of a pass in half mode. -/
def vxPair (v : VxEnv) (e w : Nat) (r : Regs) (g : VxAcc) : Regs × VxAcc :=
  let op := viOp w
  if op = 0x20 || op = 0x21 || op = 0x25 || viHf w then
    let (r1, g1) := vxHalfStep v e w false r r g
    if e + 1 < vdElements v.desc then vxHalfStep v (e + 1) w true r r1 g1 else (r1, g1)
  else
    let b := if viBi w then viImm w else Regs.at r (viB w)
    if !viPe w || ((Regs.at r (viP w) != 0) != viPn w) then
      let (x, fl) := vxAlu op (viSub w) (Regs.at r (viA w)) b (Regs.at r (viC w))
      (r.set (viD w) x, g.flag fl)
    else (r, g)

/-- The program on one element, or on the two of a register in half mode. A reserved opcode leaves every register
unpredictable (R135). -/
def vxProg (v : VxEnv) (e : Nat) : List (Nat × Nat) → Regs → VxAcc → VxAcc
  | [], _, g => g
  | (w, i) :: ws, r, g =>
    if viLegal v.desc w then
      let (r, g) := if vdHalf v.desc then vxPair v e w r g else vxFull v e i w r g
      vxProg v e ws r g
    else
      vxProg v e ws ((List.range 16).map fun k => Config.vxeReg v.free e (32 * (i + 1) + k)) { g with wild := true }

/-- Every element of a pass, in increasing order: cmpr and expd depend only on that order (R137). -/
def vxElements (v : VxEnv) (prog : List (Nat × Nat)) : Nat → Nat → VxAcc → VxAcc
  | 0, _, g => g
  | n + 1, e, g =>
    let r := (List.range 16).map fun k => Config.vxeReg v.free e k
    vxElements v prog n (e + (if vdHalf v.desc then 2 else 1)) (vxProg v e prog r g)

/-- The words of a program. -/
def Core.vxWords (c : Core) (x : Ctx) (d : Nat) : List Nat :=
  let r := c.view x.part (x.row (vdRow d))
  (List.range (vdLen d)).map fun i => rowBits r (64 * i) 64

/-- Rill slots that a pass reads. -/
def vxSlots (d : Nat) : List Nat :=
  ((List.range 4).filter fun k => sbKind (vdIn d k) = 2).map fun k => sbTarget (vdIn d k)

/-- Rows that the elements of a bound input or output stream occupy. -/
def Core.streamRows (c : Core) (x : Ctx) (b n : Nat) : List Nat :=
  if sbKind b ≠ 1 then []
  else
    let ps := (List.range n).flatMap fun e => let p := sbPos b e; if sbPair b then [2 * p, 2 * p + 1] else [p]
    c.storeRows (x.hnd (sbTarget b)) (sbFmt b) (sbG b) ps

/-- Rows that a pass reads: its program; of an input stream, those of every element where the program loads from it, and those of the
elements that expd took (R135, R137); and those of the learned arrays that its stores use (R68). -/
def Core.vxReadRows (c : Core) (x : Ctx) (d : Nat) (prog : List Nat) (g : VxAcc) : List Nat :=
  let uses (op k : Nat) : Bool := prog.any fun w => viOp w = op && viSub w = k && viLegal d w
  let ins := (List.range 4).flatMap fun k =>
    (if uses 0x20 k then c.streamRows x (vdIn d k) (vdElements d) else []) ++ c.streamRows x (vdIn d k) (g.read.getD k 0)
  let learned := (List.range 2).flatMap fun k =>
    let b := vdOut d k
    if sbKind b = 1 then c.learnedRows x (x.hnd (sbTarget b)) (sbFmt b) (sbG b) ((g.outs.getD k []).map (·.1)) else []
  (x.row (vdRow d) :: ins ++ learned).eraseDups

/-- Rows that a pass stores to. -/
def Core.vxWriteRows (c : Core) (x : Ctx) (d : Nat) (g : VxAcc) : List Nat :=
  (List.range 2).flatMap fun k =>
    let b := vdOut d k
    if sbKind b = 1 then c.storeRows (x.hnd (sbTarget b)) (sbFmt b) (sbG b) ((g.outs.getD k []).map (·.1)) else []

/-- Store an output stream, with its flag word and its element count (R137 to R140). -/
def Core.vxStore (c : Core) (x : Ctx) (d : Nat) (prog : List Nat) (g : VxAcc) (slots k : Nat) : Core × ConvCount :=
  let b := vdOut d k
  if sbKind b ≠ 1 then (c, ConvCount.zero)
  else
    let h := x.hnd (sbTarget b)
    let (c, fl, n) := c.storeAll x h (sbFmt b) (sbG b) (g.outs.getD k []) (vdSr d && k = 0) true
    let c := c.orFlags h (withSource (g.flags ||| fl) flagSrcVxe ||| slots)
    let c := if prog.any (fun w => viOp w = 0x22 && viSub w % 2 = k) then
        c.touch h fun e => setFld e 103 72 (g.app.getD k 0)
      else c
    (c, n)

/-- A pass's gathered effects on the core's inputs. A reserved opcode leaves the flag word unpredictable. -/
def Core.vxRun (c : Core) (x : Ctx) (d free : Nat) : VxAcc :=
  let o := vdOut d 0
  let count := if sbKind o = 1 then hCount (c.handle (x.hnd (sbTarget o))) else 0
  let v : VxEnv := { core := c, ctx := x, desc := d, free := free, tid := tensorId (vdTensor d) count }
  let n := if vdHalf d then ceilDiv (vdElements d) 2 else vdElements d
  let g := vxElements v (c.vxWords x d).zipIdx n 0 VxAcc.init
  let symmetric := match fmtCode (sbFmt o) with
    | some cd => sbKind o = 1 && !cd.ranged
    | none => false
  let g := if vdSr d then
      { g with draws := if symmetric then (g.outs.getD 0 []).length / (if sbPair o then 2 else 1) else 0 }
    else g
  if g.wild then { g with flags := (Config.freeValue free).toNat % 4096 &&& 0xF7F } else g

/-- Some binding of a slot releases it. -/
def vxReleases (d k : Nat) : Bool :=
  (List.range 4).any fun i => sbKind (vdIn d i) = 2 && sbTarget (vdIn d i) = k && sbRelease (vdIn d i)

/-- The slots that the pass reads are left FREE where a binding releases them, and DRAINING otherwise (R121). -/
def Core.vxRelease (c : Core) (d : Nat) : Core :=
  (vxSlots d).foldl (fun c k =>
    if vxReleases d k then { c with rill := SMap.set Slot.init c.rill k Slot.init }
    else { c with rill := SMap.mod Slot.init c.rill k fun s => { s with st := .draining } }) c

end Sys2Proof.Machine
end

