-- ==== Sys2Proof/Machine/Engines.lean ====
section
/-! DEFINITION. The schedule entries that a running segment issues: MXE, GTU, VXE, GXE and DMV (04; 05: R169, R173). -/

namespace Sys2Proof.Machine

/-! ### Issue -/

/-- The next schedule entry of the running segment, where it is due and names a unit (R169, R173). -/
def State.entryDue (s : State) (p unit : Nat) : Option Nat :=
  let c := s.core p
  let q := c.csq
  let x := s.ctx q.ctx
  let sg := s.segment p
  if q.phase ≠ .run || sgEntries sg ≤ q.issued then none
  else
    let w := c.schedEntry x sg q.issued
    let at' := if s.lanes p = 32 then wfld w 43 24 else wfld w 63 44
    if enUnit w = unit && at' ≤ 4 * (s.now - q.segStart) then some w else none

/-- The descriptor of n bytes that the due entry names. -/
def State.dueDesc (s : State) (p unit n : Nat) : Option Nat :=
  (s.entryDue p unit).map fun w => (s.core p).codeNat (s.ctx (s.core p).csq.ctx) (enDesc w) n

/-- What an issue comes to: nothing is due; the CSQ's read aborts the segment; or the entry issues. -/
inductive Issue where
  | idle
  | aborted (s : State)
  | go (s : State) (x : Ctx) (d : Nat)

/-- The CSQ reads the schedule entry and the descriptor, and issues it (R155, R173). -/
def State.issue (s : State) (p unit n : Nat) (up : Upsets) : Issue :=
  match s.entryDue p unit with
  | none => .idle
  | some w =>
    let c := s.core p
    let q := c.csq
    let x := s.ctx q.ctx
    let rows := c.codeRows x (sgEntryOff (s.segment p) + 8 * q.issued) 8 ++ c.codeRows x (enDesc w) n
    match s.csqRead p q.ctx rows up with
    | (s, some (r, inj)) => .aborted (s.abortSpan p [r] 0 inj)
    | (s, none) => .go (s.modCsq p fun q => { q with issued := q.issued + 1 }) x (c.codeNat x (enDesc w) n)

/-- The reads of rows by the MXE, GTU or VXE for an entry: an uncorrectable one aborts the segment (R155, R159). -/
def State.engineRead (s : State) (p : Nat) (rows : List Nat) (up : Upsets) : State × Bool :=
  let xn := (s.core p).csq.ctx
  let s := if (s.core p).foreign (s.ctx xn).part rows then s.markTagFault xn else s
  match s.readRows p (s.ctx xn).part 0 rows up with
  | (s, some r) => (s.abortSpan p [r] 0 (!up.lost.contains r), true)
  | (s, none) => (s, false)

/-- The rows that an engine writes: their banks wake, and a row of another owner sets tag_fault (R25, R159). -/
def State.engineWrite (s : State) (p : Nat) (rows : List Nat) : State :=
  let xn := (s.core p).csq.ctx
  let s := if (s.core p).foreign (s.ctx xn).part rows then s.markTagFault xn else s
  rows.foldl (fun s r => s.useBank p (r % 4)) s

/-- The engine's issue cycles are charged, and its use is dated (R25, R414). -/
def State.engineBusy (s : State) (p e cycles : Nat) : State :=
  (s.useEngine p e).charge (s.ctx (s.core p).csq.ctx).part (e + 1) cycles

/-- A descriptor with a reserved code, or one whose slot is in the wrong state, has run on an engine: what it leaves is
unpredictable within the partition (R9, R12, R122; log entry 65), and its issue cycles are charged. -/
def State.wildRun (s : State) (p e cycles : Nat) : State := (s.unruly p).engineBusy p e cycles

/-! ### MXE (R114 to R123) -/

/-- MXE_TILE. -/
def execMxeTile (p : Nat) (up : Upsets) (s : State) : Host.Outcome State Fault Refusal :=
  match s.issue p 0 32 up with
  | .idle => .next s
  | .aborted s => .next s
  | .go s x d =>
    if !txLegal d then .next (s.wildRun p 0 (txIssue d))
    else
      let (a, b) := tileOperands x d
      match s.engineRead p ((a.rows (txK d) (txM d) ++ b.rows (txK d) (txN d)).eraseDups) up with
      | (s, true) => .next s
      | (s, false) =>
        match (s.core p).runTile x d with
        | none => .next (s.wildRun p 0 (txIssue d))
        | some c =>
          let t2 := c.t2Count x.part a (txK d) (txM d) + c.t2Count x.part b (txK d) (txN d)
          .next (((s.setCore p c).bump 0x4001 12 t2).engineBusy p 0 (txIssue d))

/-- An injected scale override has taken place since a core stood as before: the injection is used up (R470). -/
def State.useInjection (s : State) (before : Core) (p : Nat) : State :=
  let hit (c : Core) : Bool := (c.window.map fun w => w.injOverride).getD false
  if hit (s.core p) && !hit before then s.consume 0x900D else s

/-! ### Random uses (R99, R102 to R104) -/

/-- A descriptor has a random use: its output handle is a random use of the layer or the segment, whether or not an element of it drew,
and the unit's generators jump and run. first and last are the element indices, n the draws, w their width, u the unit, bank its
generators. -/
def State.countDraws (s : State) (random : Bool) (p h n first last w u bank : Nat) (tid : W64) (reloads : Nat) : State :=
  if !random then s
  else
    let x := s.ctx (s.core p).csq.ctx
    let s := s.modCsq p fun q => { q with uses := if q.uses.contains h then q.uses else q.uses ++ [h] }
    s.runBank p u bank x.seed tid first last w x.part n reloads

/-! ### GTU (R124 to R131) -/

/-- No reserved code in a GTU descriptor. -/
def gdLegal (d : Nat) : Bool :=
  gdTemplate d ≤ 6 && gdOutFmt d ≤ 8 && ((fmtCode (gdOutFmt d)).isNone || wfld d 85 84 ≠ 3)

/-- The positions of the out handle that the descriptor writes: none until its group is complete (R128). -/
def Core.gtuEmitPos (c : Core) (x : Ctx) (d : Nat) : List Nat :=
  let tiles := c.gtuBuf ++ [(gdUnitBase d, List.replicate (128 * gdUnits d) 0)]
  if (fmtCode (gdOutFmt d)).isNone || (gdUnitBase d + gdUnits d) % gdOutG d = 0 then (c.gtuOutVals x d tiles).map (·.1) else []

/-- Rows of the out handle and of its arrays that the descriptor writes. -/
def Core.gtuEmitRows (c : Core) (x : Ctx) (d : Nat) : List Nat :=
  c.storeRows (x.hnd (gdOut d)) (gdOutFmt d) (gdOutG d) (c.gtuEmitPos x d)

/-- A GTU entry of a template: nothing more to do, or the state, the context and the descriptor once its rows have been read. -/
inductive GtuIssue where
  | stop (s : State)
  | go (s : State) (x : Ctx) (d : Nat)

/-- The cistern rows that a GTU invocation reads (R128, R159). -/
def Core.gtuReads (c : Core) (x : Ctx) (d template : Nat) : List Nat :=
  let units := if template = 6 then hRows (c.handle (x.hnd (gdStateIn d))) / 4 else gdUnits d
  let learned := if template = 6 then [] else c.learnedRows x (x.hnd (gdOut d)) (gdOutFmt d) (gdOutG d) (c.gtuEmitPos x d)
  (c.gtuRows x d units ++ learned).eraseDups

/-- Start a GTU invocation: its rows are read, and it does not run where one of them is uncorrectable. -/
def State.gtuStart (s : State) (p template : Nat) (up : Upsets) (x : Ctx) (d : Nat) : GtuIssue :=
  if !gdLegal d then .stop (s.wildRun p 1 ((s.core p).gtuIssue x d))
  else match s.engineRead p ((s.core p).gtuReads x d template) up with
    | (s, true) => .stop s
    | (s, false) => .go s x d

/-- Issue a GTU entry where its descriptor has the template, or a reserved one; a reserved template or code is R9's. -/
def State.gtuIssue (s : State) (p template : Nat) (up : Upsets) : GtuIssue :=
  match s.dueDesc p 1 32 with
  | none => .stop s
  | some d =>
    if gdTemplate d ≤ 6 && gdTemplate d ≠ template then .stop s
    else match s.issue p 1 32 up with
      | .idle => .stop s
      | .aborted s => .stop s
      | .go s x d => s.gtuStart p template up x d

/-- The rows that a descriptor of a number of units writes: of its state, of the aux handle in MGU phase A, and of the out handle
(R124, R127, R128), for the tag check of R159. -/
def Core.gtuOutRows (c : Core) (x : Ctx) (d units : Nat) : List Nat :=
  let us := (List.range units).map fun j => gdUnitBase d + j
  let at' (h kind i : Nat) : Nat := hRow (c.handle h) (4 * c.gtuPos h kind i)
  let ends (h kind : Nat) : List Nat := us.flatMap fun u =>
    [at' h kind (256 * u + 128 * gdHalf d), at' h kind (256 * u + 128 * gdHalf d + 127)]
  let so := x.hnd (gdStateOut d)
  ((if gtuKeepsC (gdTemplate d) (if gdTemplate d = 5 then c.gateWords x d else []) then ends so 0 else []) ++ (if gdTemplate d = 2 then ends (x.hnd (gdAux d)) 8 else ends so 1)
    ++ (if gdTemplate d = 6 then [] else c.gtuEmitRows x d)).eraseDups

/-- Run a cell on the tile of an entry (R124, R128). A zone operation draws in the block of each of the tile's 128 batch rows
(R103, R130). -/
def State.gtuCell (s : State) (p template : Nat) (up : Upsets) (cell : Core → Ctx → Nat → CellIn → Nat → CellOut)
    (ok : Core → Ctx → Nat → Bool) (draws : Core → Ctx → Nat → Bool) : Host.Outcome State Fault Refusal :=
  match s.gtuIssue p template up with
  | .stop s => .next s
  | .go s x d =>
    let c := s.core p
    let cycles := c.gtuIssue x d
    if !c.slotReady (gdSlot d) || !(SMap.get Slot.init c.rill (gdSlot d)).gtu || !ok c x d then .next (s.wildRun p 1 cycles)
    else
      let s := s.engineWrite p (c.gtuOutRows x d (gdUnits d))
      let (c', fl, n) := (s.core p).gtuTile x d (cell c x d)
      let s := (s.setCore p (c'.gtuFinish x d fl)).countConv x.part n
      let first := 65536 * (128 * gdHalf d) + gdUnitBase d
      let last := 65536 * (128 * gdHalf d + 127) + gdUnitBase d + 31
      let tid := tensorId (gdTensor d) (hCount (c.handle (x.hnd (gdOut d))))
      let s := s.countDraws (draws c x d) p (x.hnd (gdOut d)) 4096 first last 16 1 64 tid 127
      let s := (s.useInjection c p).flagsBy p (gtuFlagged x d)
      .next (s.engineBusy p 1 cycles)

/-- GTU_LSTM. -/
def execGtuLstm (p : Nat) (up : Upsets) (s : State) : Host.Outcome State Fault Refusal :=
  s.gtuCell p 0 up (fun _ _ _ i _ => lstmCell i) (fun _ _ _ => true) fun _ _ _ => false

/-- GTU_GRU. -/
def execGtuGru (p : Nat) (up : Upsets) (s : State) : Host.Outcome State Fault Refusal :=
  s.gtuCell p 1 up (fun _ _ _ i _ => gruCell i) (fun _ _ _ => true) fun _ _ _ => false

/-- GTU_MGU_PHASE_A. -/
def execGtuMguPhaseA (p : Nat) (up : Upsets) (s : State) : Host.Outcome State Fault Refusal :=
  s.gtuCell p 2 up (fun _ _ _ i _ => mguACell i) (fun _ _ _ => true) fun _ _ _ => false

/-- GTU_MGU_PHASE_B. -/
def execGtuMguPhaseB (p : Nat) (up : Upsets) (s : State) : Host.Outcome State Fault Refusal :=
  s.gtuCell p 3 up (fun _ _ _ i _ => mguBCell i) (fun _ _ _ => true) fun _ _ _ => false

/-- GTU_SRU. -/
def execGtuSru (p : Nat) (up : Upsets) (s : State) : Host.Outcome State Fault Refusal :=
  s.gtuCell p 4 up (fun _ _ _ i _ => sruCell i) (fun _ _ _ => true) fun _ _ _ => false

/-- Tensor id of a GTU descriptor's draws (R99). -/
def Core.gtuTensor (c : Core) (x : Ctx) (d : Nat) : W64 := tensorId (gdTensor d) (hCount (c.handle (x.hnd (gdOut d))))

/-- GTU_GATE_PROGRAM. -/
def execGtuGateProgram (p : Nat) (up : Upsets) (s : State) : Host.Outcome State Fault Refusal :=
  s.gtuCell p 5 up (fun c x d i k => gateCell (c.gateWords x d) d x.seed (c.gtuTensor x d) i k)
    (fun c x d => gateLegal (c.gateWords x d)) fun c x d => (c.gateWords x d).any fun w => wfld w 31 27 = 12

/-- GTU_INTAKE: no slot is consumed, and nothing is converted. -/
def execGtuIntake (p : Nat) (up : Upsets) (s : State) : Host.Outcome State Fault Refusal :=
  match s.gtuIssue p 6 up with
  | .stop s => .next s
  | .go s x d =>
    let c := s.core p
    let s := s.engineWrite p (c.gtuOutRows x d (hRows (c.handle (x.hnd (gdStateIn d))) / 4))
    .next ((s.setCore p ((s.core p).gtuIntakeRun x d)).engineBusy p 1 (c.gtuIssue x d))

/-! ### VXE (R132 to R140) -/

/-- The effects of a pass that has run: its outputs, flags, slots, draws and counts. -/
def State.vxEnd (s : State) (p : Nat) (x : Ctx) (d : Nat) (g : VxAcc) (prog : List Nat) : State :=
  let c := s.core p
  let slots := (vxSlots d).foldl (fun f k => f ||| (SMap.get Slot.init c.rill k).flags) 0
  let s := s.engineWrite p (c.vxWriteRows x d g)
  let (c0, n0) := (s.core p).vxStore x d prog g slots 0
  let (c1, n1) := c0.vxStore x d prog g slots 1
  let s := ((s.setCore p (c1.vxRelease d)).useInjection c p).countConv x.part (n0.add n1)
  let s := s.flagsBy p (((List.range 2).filter fun k => sbKind (vdOut d k) = 1).map fun k => x.hnd (sbTarget (vdOut d k)))
  let o := vdOut d 0
  let h := if sbKind o = 1 then x.hnd (sbTarget o) else 0xFF
  let first := vdBase d
  let last := vdBase d + vdElements d - 1
  let tid := tensorId (vdTensor d) (if sbKind o = 1 then hCount (c.handle h) else 0)
  let s := s.countDraws (vdRandom d prog) p h g.draws first last (if vdSr d then 24 else vdWidth d) 0 (s.lanes p) tid (last / 4096 - first / 4096)
  let s := (s.bump 0x4001 12 g.t2).engineBusy p 2 (vxIssue d (s.lanes p) prog)
  { s with free := s.free + 1 }

/-- VXE_PASS. -/
def execVxePass (p : Nat) (up : Upsets) (s : State) : Host.Outcome State Fault Refusal :=
  match s.issue p 2 64 up with
  | .idle => .next s
  | .aborted s => .next s
  | .go s x d =>
    let c := s.core p
    let prog := c.vxWords x d
    let slots := (vxSlots d).all fun k => c.slotReady k && !(SMap.get Slot.init c.rill k).gtu
    if !vdLegal d || !slots then .next (s.wildRun p 2 (vxIssue d (s.lanes p) prog))
    else
      let g := c.vxRun x d s.free
      match s.engineRead p (c.vxReadRows x d prog g) up with
      | (s, true) => .next s
      | (s, false) => .next (s.vxEnd p x d g prog)

/-! ### GXE and DMV -/

/-- Issue an entry of an asynchronous unit whose descriptor meets a test; one with a reserved code is R9's. -/
def State.asyncIssue (s : State) (p unit : Nat) (up : Upsets) (legal mine : Rec → Bool)
    (run : State → Nat → Rec → State) : State :=
  match s.dueDesc p unit 32 with
  | none => s
  | some d =>
    let r : Rec := BitVec.ofNat 256 d
    if legal r && !mine r then s
    else match s.issue p unit 32 up with
      | .idle => s
      | .aborted s => s
      | .go s _ _ => if legal r then run s (s.core p).csq.ctx r else s.unruly p

/-- A GXE command, issued; malformed bags are R12's (R261; log entry 65). -/
def State.gxeGo (s : State) (p x : Nat) (d : Rec) (up : Upsets) : State :=
  match s.gxeIssue p x d up with
  | some s => s
  | none => s.unruly p

/-- GXE_LOOKUP. -/
def execGxeLookup (p : Nat) (up : Upsets) (s : State) : Host.Outcome State Fault Refusal :=
  .next (s.asyncIssue p 3 up gxLegal (fun d => gxKind d = 0) fun s x d => s.gxeGo p x d up)

/-- GXE_SCATTER. -/
def execGxeScatter (p : Nat) (up : Upsets) (s : State) : Host.Outcome State Fault Refusal :=
  .next (s.asyncIssue p 3 up gxLegal (fun d => gxKind d = 1) fun s x d => s.gxeGo p x d up)

/-- DMV_COPY. -/
def execDmvCopy (p : Nat) (up : Upsets) (ue : List Nat) (s : State) : Host.Outcome State Fault Refusal :=
  .next (s.asyncIssue p 4 up dvLegal (fun d => dvOp d = 0) fun s x d => s.dmvIssue p x d up ue)

/-- DMV_ZERO_FILL. -/
def execDmvZeroFill (p : Nat) (up : Upsets) (ue : List Nat) (s : State) : Host.Outcome State Fault Refusal :=
  .next (s.asyncIssue p 4 up dvLegal (fun d => dvOp d = 1) fun s x d => s.dmvIssue p x d up ue)

/-- MX_IMPORT. -/
def execMxImport (p : Nat) (up : Upsets) (ue : List Nat) (s : State) : Host.Outcome State Fault Refusal :=
  .next (s.asyncIssue p 4 up dvLegal (fun d => dvOp d = 2) fun s x d => s.dmvIssue p x d up ue)

/-! ### The patrol (R156, R157) -/

/-- Contexts whose window holds a row of a core: resident ones, and those that are swapped out with their rows still in place
(R402). -/
def State.rowOwners (s : State) (p r : Nat) : List (Nat × Ctx) :=
  (s.ctxsOn p).filter fun q => q.2.inWindow r && (q.2.st ≠ .swapped || q.2.intact)

/-- The patrol reads the next row of a bank: a corrected row is queued for write-back; an uncorrectable row of a resident
read-only handle is reloaded, and any other is left (R156, R157). -/
def State.patrol (s : State) (p b : Nat) (up : Upsets) : State :=
  let c := s.core p
  let r := (4 * SMap.get 0 c.patrol b + b) % cisternRows
  let s := s.modCore p fun c => { c with patrol := SMap.set 0 c.patrol b ((SMap.get 0 c.patrol b + 1) % 2048) }
  let who := ((s.rowOwners p r).find? fun q => c.owns q.2.part r).map fun q => (q.1, q.2.part)
  let fixInj := !up.corrected.contains r && s.armed 0x9001 (s.logicalOf p) 0
  let s := if fixInj then s.consume 0x9001 else s
  let s := if up.corrected.contains r || fixInj then s.correctRow p r who fixInj else s
  let inj := !up.lost.contains r && s.armed 0x9002 (s.logicalOf p) 4
  let s := if inj then s.consume 0x9002 else s
  if up.lost.contains r || inj then
    let owner := (s.rowOwners p r).find? fun q => c.owns q.2.part r
    let s := s.loseRow p r 4 who inj
    match owner with
    | some q => if c.reloadable q.2 r then s.reloadRow p q.1 r else s
    | none => s
  else s

/-- PATROL_SCRUB: one row of each bank that is not in retention. -/
def execPatrolScrub (p : Nat) (up : Upsets) (s : State) : Host.Outcome State Fault Refusal :=
  .next (s.whenFetched fun s => ((List.range 4).filter fun b => !maskBit (s.core p).retained b).foldl (fun s b => s.patrol p b up) s)

end Sys2Proof.Machine
end

