-- ==== Sys2Proof/Machine/Contexts.lean ====
section
/-! DEFINITION. Context commands: binding, kill, swap, switch, export, import, and the boundaries of a core at which they
are served (12: R395 to R413; 05: R160, R172, R187 to R191). -/

namespace Sys2Proof.Machine

/-! ### The context command (Table 4 of 12) -/

def coProg (d : Desc) : Nat := fld d 447 396
def coWeight (d : Desc) : Nat := fld d 395 344
def coSeed (d : Desc) : Nat := fld d 343 280
def coRow (d : Desc) : Nat := fld d 279 267
def coHandle (d : Desc) : Nat := fld d 266 259
def coCore (d : Desc) : Nat := fld d 258 253
def coPart (d : Desc) : Nat := fld d 252 249
def coSame (d : Desc) : Bool := bitAt d 4
def noCtx : Nat := 0xFFF

/-- Partition for which a context command acts (R396). -/
def CtxOp.part (o : CtxOp) : Nat := if o.fn = 0 then coPart o.desc else o.fn - 1

/-- The contexts that a command names. -/
def CtxOp.names (o : CtxOp) : List Nat :=
  if descOp o.desc = 3 then ([coOut o.desc, coCtx o.desc]).filter (· ≠ noCtx) else [coCtx o.desc]

/-- Complete a command with a status. -/
def State.endOp (s : State) (o : CtxOp) (status : Nat) : State :=
  State.complete { s with ctxOps := s.ctxOps.erase o } o.fn o.queue o.desc o.head status

/-! ### Residents (R395, R398, R402) -/

/-- Rows from a base, as a test. -/
def inRows (base span r : Nat) : Bool := (r + cisternRows - base % cisternRows) % cisternRows < span

/-- Two windows meet in a row, or in a handle entry. -/
def windowsMeet (x : Ctx) (rowBase rows handleBase handles : Nat) : Bool :=
  x.window.any (fun r => inRows rowBase rows r) || x.handles.any fun h => (h + 256 - handleBase) % 256 < handles

/-- A window overlaps a resident context of another partition (R398). -/
def State.overlapsOther (s : State) (p part rowBase rows handleBase handles : Nat) : Bool :=
  (s.residents p).any fun q => q.2.part ≠ part && windowsMeet q.2 rowBase rows handleBase handles

/-- SWAPPED contexts of a core whose rows or handle entries change are no longer intact, and those rows no longer hold their
manifest's contents (R401, R402). -/
def State.loseIntact (s : State) (p x rowBase rows handleBase handles : Nat) : State :=
  ((s.ctxsOn p).filter fun q => q.1 ≠ x && q.2.st = .swapped && windowsMeet q.2 rowBase rows handleBase handles).foldl
    (fun s q => s.modCtx q.1 fun c =>
      { c with intact := false, gone := (c.gone ++ c.window.filter fun r => inRows rowBase rows r).eraseDups }) s

/-- A core can take a further resident context: fewer than 16, and it is in service. -/
def State.coreTakes (s : State) (l : Nat) : Bool :=
  s.coreRuns (s.physOf l) && (s.residents (s.physOf l)).length < 16

/-- Logical core l is one of the partition's. -/
def State.partCore (s : State) (part l : Nat) : Bool := maskBit (s.reg (0x7010 + part) 2) l

/-! ### Binding (R172, R191) -/

/-- Bytes read for the binding of a context. -/
def State.bindRead (s : State) (part a n : Nat) : State × List Byte :=
  let r := s.readMem part (some part) a n false []
  (r.1, r.2.bytes)

/-- Zero-fill the rows of a window that no other resident context holds, and release its handle entries (R188, R191). -/
def State.clearWindow (s : State) (p x : Nat) : State :=
  let c := s.ctx x
  let others := (s.residents p).filter fun q => q.1 ≠ x
  let rows := c.window.filter fun r => !others.any fun q => q.2.inWindow r
  let hs := c.handles.filter fun h => !others.any fun q => q.2.inHandles h
  let s := (s.zeroRowsOf p rows).modCore p fun k => { k with handles := hs.foldl (fun m h => SMap.set 0 m h 0) k.handles }
  s.loseIntact p x c.rowBase (hdRowSpan c.header) c.handleBase (hdHandleCount c.header)

/-- The handle entry of a declaration, relocated (R160, R172). -/
def Ctx.declEntry (x : Ctx) (w : Nat) : Rec :=
  BitVec.ofNat 256 (put 49 46 x.part + put 45 45 (dclRo w) + put 44 44 (dclRetain w) + put 43 43 (dclResident w)
    + put 42 42 1 + put 41 28 (dclRows w) + put 12 0 (x.row (dclBase w)))

/-- Bind one declaration: its handle entry, and the tags of its rows, inside the window alone, and outside what other contexts
keep (R172, R191). -/
def Core.bindDecl (c : Core) (x : Ctx) (kept : List Ctx) (w : Nat) : Core :=
  let h := x.hnd (dclHandle w)
  let free := !kept.any fun q => q.inHandles h
  let c := if x.inHandles h && h ≠ 0xFF && free then { c with handles := SMap.set 0 c.handles h (x.declEntry w) } else c
  let rows := (rowRun (x.row (dclBase w)) (dclRows w)).filter fun r => x.inWindow r && !kept.any fun q => q.inWindow r
  { c with tags := rows.foldl (fun m r => SMap.set 0 m r (x.part + 1)) c.tags }

/-- Contexts whose rows and handle entries no binding for a partition may take: residents of other partitions, and contexts whose
zero-fill has not ended (R161, R191). -/
def State.keptFrom (s : State) (p x : Nat) : List Ctx :=
  ((s.ctxsOn p).filter fun q => q.1 ≠ x && (q.2.st = .killing || (q.2.st.resident && q.2.part ≠ (s.ctx x).part))).map (·.2)

/-- A context that is being zero-filled meets a window: nothing is bound there before the zero-fill ends (R191). -/
def State.fillPending (s : State) (p x rowBase rows handleBase handles : Nat) : Bool :=
  (s.ctxsOn p).any fun q => q.1 ≠ x && q.2.st = .killing && windowsMeet q.2 rowBase rows handleBase handles

/-- Read the header, declarations and manifest of a context's program image, and write its handle entries and tags. -/
def State.bindImage (s : State) (x : Nat) : State :=
  let c := s.ctx x
  let p := s.physOf c.core
  let (s, hb) := s.bindRead c.part c.image 64
  let hd : Desc := BitVec.ofNat 512 (leNat hb)
  let (s, db) := s.bindRead c.part (c.image + hdHandleOffset hd) (8 * hdHandleCount hd)
  let (s, mb) := s.bindRead c.part (c.image + hdManifestOffset hd) (16 * hdManifestCount hd)
  let decls := (List.range (hdHandleCount hd)).map fun i => leNat ((db.drop (8 * i)).take 8)
  let mans := (List.range (hdManifestCount hd)).map fun i => leNat ((mb.drop (16 * i)).take 16)
  let s := s.modCtx x fun c => { c with header := hd, decls := decls, manifest := mans, loaded := false, gone := [], intact := false }
  let s := s.clearWindow p x
  let c := s.ctx x
  s.modCore p fun k => decls.foldl (fun k w => k.bindDecl c (s.keptFrom p x) w) k

/-- Load one row of a manifest entry; a read that fails leaves the row zero and not loaded. -/
def State.loadRow (s : State) (x m k : Nat) (ue : List Nat) : State :=
  let c := s.ctx x
  let p := s.physOf c.core
  let r := (hBase ((s.core p).handle (c.hnd (manHandle m))) + manFirst m + k) % cisternRows
  if !c.inWindow r then s
  else
    let (s, o) := s.readMem c.part (some c.part) (c.manifestAddr m k) 512 false ue
    if o.refused || !o.lost.isEmpty then
      ((s.modCore p fun q => q.write c.part r 0).useBank p (r % 4)).holdsRow x r false
    else ((s.modCore p fun q => q.write c.part r (c.manifestRow m k o.bytes)).useBank p (r % 4)).holdsRow x r true

/-- Load every manifest entry. -/
def State.loadAll (s : State) (x : Nat) (ue : List Nat) : State :=
  let s := s.modCtx x fun c => { c with loaded := true }
  (s.ctx x).manifest.foldl (fun s m => (List.range (manRows m)).foldl (fun s k => s.loadRow x m k ue) s) s

/-! ### Images (R404, R409) -/

/-- Header of the image of a parked context (Table 9 of 12). -/
def Ctx.imageHeader (x : Ctx) (n rows : Nat) : Desc :=
  BitVec.ofNat 512 (put 511 480 0x5854434E + put 479 464 0x0100 + put 463 448 x.weir + put 447 436 n + put 435 432 x.part
    + put 431 416 x.decls.length + put 415 384 rows + put 383 352 (hdImageId x.header) + put 351 288 x.seed.toNat
    + put 287 272 (hdRowSpan x.header) + put 265 265 (boolNat x.tagFault) + put 264 264 (boolNat x.mid) + put 263 263 (x.core / 32))

def imWeir (d : Desc) : Nat := fld d 463 448
def imRecords (d : Desc) : Nat := fld d 431 416
def imRows (d : Desc) : Nat := fld d 415 384
def imSeed (d : Desc) : W64 := BitVec.ofNat 64 (fld d 351 288)
def imTag (d : Desc) : Bool := bitAt d 265
def imMid (d : Desc) : Bool := bitAt d 264
def imDie (d : Desc) : Nat := fld d 263 263

/-- The handle record of a declared handle (Table 10 of 12). -/
def handleRecord (e : Rec) (h : Nat) : List Byte :=
  leBytes 16 (put 127 80 (hCount e) + put 79 48 (hElements e) + put 47 36 (hFlags e) + put 35 34 (hWidth e) + put 7 0 h)

/-- Bytes of an image from its header on (R409). -/
def Core.imageBytes (c : Core) (x : Ctx) (n : Nat) : List Byte :=
  let rows := c.spillRows x
  let recs := x.decls.flatMap fun w => handleRecord (c.handle (x.hnd (dclHandle w))) (dclHandle w)
  let head := wordBytes (x.imageHeader n rows.length) ++ recs
  head ++ List.replicate (x.imageHead - head.length) 0
    ++ rows.flatMap fun r => wordBytes (c.view x.part ((hBase (c.handle (x.hnd r.1)) + r.2) % cisternRows))

/-- Size of an image from its header. -/
def imageBytesOf (d : Desc) : Nat := 512 * ceilDiv (64 + 16 * imRecords d) 512 + 512 * imRows d

/-- Largest image that a context may write at any of its weir points (R404). -/
def State.imageMost (s : State) (x : Nat) : Nat :=
  let c := s.ctx x
  let k := s.core (s.physOf c.core)
  if c.st = .running then
    let live := (List.range (hdWeirCount c.header)).map fun w => wfld (k.codeNat c (hdWeirTable c.header + 16 * w) 16) 63 32
    c.imageHead + 512 * live.foldl max c.retainedRows.length
  else s.imageSize x

/-! ### Checks at acceptance (R398) -/

/-- The save location lies in the partition's save area. -/
def State.inSave (s : State) (part a n : Nat) : Bool :=
  s.reg (0x7010 + part) 9 ≤ a && a + n ≤ s.reg (0x7010 + part) 9 + s.reg (0x7010 + part) 10

/-- Core, row base and handle base at which a SWAP restores its context. -/
def State.restoreAt (s : State) (o : CtxOp) : Nat × Nat × Nat :=
  let c := s.ctx (coCtx o.desc)
  if coSame o.desc then (c.core, c.rowBase, c.handleBase) else (coCore o.desc, coRow o.desc, coHandle o.desc)

/-- The headers that the checks of a command read, as addresses and counts. -/
def State.opReads (s : State) (o : CtxOp) : List (Nat × Nat) :=
  match descOp o.desc with
  | 1 => [(coProg o.desc, 64)]
  | 5 => [((s.ctx (coCtx o.desc)).save, 64)]
  | 6 => [(coImage o.desc, 64)]
  | _ => []

/-- A check of R398 fails: the command ends with status fault. -/
def State.opDenied (s : State) (o : CtxOp) : Bool :=
  let d := o.desc
  let part := o.part
  let x := s.ctx (coCtx d)
  let mine (n : Nat) : Bool := (s.ctx n).st ≠ .free && (s.ctx n).part = part
  let hd : Desc := BitVec.ofNat 512 (leNat (s.peekFar (coProg d) 64))
  s.reg (0x7010 + part) 1 ≠ 1 || match descOp d with
  | 1 =>
    !s.partCore part (coCore d) || x.st ≠ .free
      || s.overlapsOther (s.physOf (coCore d)) part (coRow d) (hdRowSpan hd) (coHandle d) (hdHandleCount hd)
  | 3 =>
    let (core, rb, hb) := s.restoreAt o
    (coOut d ≠ noCtx && (!mine (coOut d) || !s.inSave part (coImage d) (s.imageMost (coOut d))))
      || (coCtx d ≠ noCtx && (!mine (coCtx d) || !s.partCore part core
          || s.overlapsOther (s.physOf core) part rb (hdRowSpan x.header) hb (hdHandleCount x.header)))
  | 5 => !mine (coCtx d) || !s.inWindows part (coImage d) (imageBytesOf (BitVec.ofNat 512 (leNat (s.peekFar x.save 64)))) true
  | 6 =>
    !s.partCore part (coCore d) || x.st ≠ .free
      || !s.inWindows part (coImage d) (imageBytesOf (BitVec.ofNat 512 (leNat (s.peekFar (coImage d) 64)))) false
  | _ => !mine (coCtx d)

/-- The status with which a command that passes the checks of R398 cannot be carried out: a context is in a state that the op does not
accept, or the core takes no further context (R395, R398, R410, R411). -/
def State.opState (s : State) (o : CtxOp) : Option Nat :=
  let d := o.desc
  let x := s.ctx (coCtx d)
  let out := s.ctx (coOut d)
  let bad : Bool := match descOp d with
    | 1 => !s.coreTakes (coCore d)
    | 3 => (coOut d ≠ noCtx && out.st ≠ .running && out.st ≠ .ready && out.st ≠ .idle) || (coCtx d ≠ noCtx && x.st ≠ .swapped)
    | 4 => x.st ≠ .ready || (s.core (s.physOf x.core)).csq.phase = .idle
    | 5 => x.st ≠ .swapped || x.mid
    | 6 => imMid (BitVec.ofNat 512 (leNat (s.peekFar (coImage d) 64)))
    | _ => false
  if bad then some stState else none

/-- The status with which a command ends when it is to take effect, if a check fails: those of R398 are made again, since commands
before it may have changed what they read (log entry 43). -/
def State.opFails (s : State) (o : CtxOp) : Option Nat := if s.opDenied o then some stFault else s.opState o

/-! ### Restoring (R406) -/

/-- The incoming context of a SWAP begins to be restored: an intact one in its place is resident at once. -/
def State.beginRestore (s : State) (o : CtxOp) : State :=
  let n := coCtx o.desc
  let x := s.ctx n
  let (core, rb, hb) := s.restoreAt o
  if n = noCtx then s.endOp o stCompleted
  else if x.st = .killing || x.st = .free then s.endOp o stKilled
  else if x.st ≠ .swapped || !s.coreTakes core || (x.mid && x.core / 32 ≠ core / 32) then s.endOp o stState
  else if s.overlapsOther (s.physOf core) x.part rb (hdRowSpan x.header) hb (hdHandleCount x.header) then s.endOp o stFault
  else if x.intact && coSame o.desc then
    let s := if x.cancelled then s.parkStart n else s.restCtx n
    let s := (s.bump 0x7000 5 1).modCsq (s.physOf core) fun q => { q with said := false }
    (s.endOp o stCompleted).kick (s.physOf core)
  else
    let s := (s.setCtxState n .restoring).modCtx n fun c => { c with core := core, rowBase := rb, handleBase := hb }
    s.modOp (fun q => q = o) fun q => { q with phase := .restore }

/-- Put a handle record of an image into its entry. -/
def Core.putRecord (c : Core) (x : Ctx) (w : Nat) : Core :=
  let h := x.hnd (wfld w 7 0)
  if x.inHandles h && h ≠ 0xFF then
    let f (e : Rec) : Rec :=
      setFld (setFld (setFld (setFld e 151 104 (wfld w 127 80)) 103 72 (wfld w 79 48)) 71 60 (wfld w 47 36)) 51 50 (wfld w 35 34)
    { c with handles := SMap.mod 0 c.handles h f }
  else c

/-- A context whose image, or one of whose rows, cannot be read is FAULTED with the cause spill (R187, R406). -/
def State.spillFault (s : State) (x : Nat) : State :=
  let c := s.ctx x
  let p := s.physOf c.core
  (s.coreEvent p x c.seg 3 (maskBit (s.reg 0xA000 1) 1) false).faultCtx x 1

/-- The restore of a context ends: its image's rows and dynamic fields are in place. -/
def State.finishRestore (s : State) (o : CtxOp) (ue : List Nat) : State :=
  let n := coCtx o.desc
  let s := (s.bindImage n).loadAll n ue
  let x := s.ctx n
  let p := s.physOf x.core
  let (s, hb) := s.readMem x.part none x.save 64 false ue
  let im : Desc := BitVec.ofNat 512 (leNat hb.bytes)
  let (s, body) := s.readMem x.part none x.save (imageBytesOf im) false ue
  if !hb.lost.isEmpty || !body.lost.isEmpty then (s.spillFault n).endOp o stError
  else
    let recs := (List.range (imRecords im)).map fun i => leNat ((body.bytes.drop (64 + 16 * i)).take 16)
    let base := 512 * ceilDiv (64 + 16 * imRecords im) 512
    let s := s.modCtx n fun c => { c with weir := imWeir im, tagFault := c.tagFault || imTag im }
    let x := s.ctx n
    let places := ((s.core p).spillRows x).zipIdx
    let s := s.modCore p fun c => recs.foldl (fun c w => c.putRecord x w) c
    let s := s.modCore p fun c => places.foldl (fun c r =>
      c.write x.part ((hBase (c.handle (x.hnd r.1.1)) + r.1.2) % cisternRows)
        (BitVec.ofNat 4096 (leNat ((body.bytes.drop (base + 512 * r.2)).take 512)))) c
    let s := s.useRows p (places.map fun r => (hBase ((s.core p).handle (x.hnd r.1.1)) + r.1.2) % cisternRows)
    let s := (s.bump 0x7000 5 1).modCsq p fun q => { q with said := false }
    let s := if x.cancelled then s.parkStart n else s.restCtx n
    (s.endOp o stCompleted).kick p

/-! ### Killing (Table 5 of 12) -/

/-- The decision of a job has latched COMPLETED. -/
def State.latched (s : State) (j : Nat) : Bool := match s.job? j with
  | some b => b.decision = some .completed
  | none => false

/-- The hand-over of a context's core is copying: a KILL takes effect after it (Table 4 of 14). -/
def State.killHeld (s : State) (x : Nat) : Bool :=
  match s.av.handover with
  | some h => h.copying && h.logical = (s.ctx x).core
  | none => false

/-- A KILL of a context ends a command: one that waits and names it, and the spill, the restore or the binding of it that is in
progress. The other context of a SWAP goes on to its end (R397, R399). -/
def CtxOp.endsBy (o : CtxOp) (x : Nat) : Bool :=
  match o.phase with
  | .clear => false
  | .spill => coOut o.desc = x
  | .restore => coCtx o.desc = x
  | _ => o.names.contains x

/-- Kill a context: its jobs end, and its rows are cleared once no invocation runs. -/
def State.killNow (s : State) (x : Nat) : State :=
  let c := s.ctx x
  let old := s.ctxOps.filter fun o => o.endsBy x
  let s := old.foldl (fun s o => s.endOp o stKilled) s
  let s := s.returnPermit ⟨.hbm, .spill x⟩
  let s := s.modCtx x fun c => { c with queue := [] }
  let s := (c.queue.filter fun j => c.job ≠ some j).foldl (fun s j => s.abortJob j 2) s
  let homed := (List.range 32).filter fun n => s.stk n 2 = c.part && (s.stkCores n).contains c.core && s.stkCtx n c.core = some x
  let s := homed.foldl (fun s n => (s.batches n).foldl (fun s b => s.abortJob b.job 2) s) s
  match (s.ctx x).job with
  | some j =>
    if s.latched j then s.modCtx x fun c => { c with dying := true }
    else
      let s := s.modCtx x fun c => { c with dying := c.st = .running }
      let s := s.abortJob j 2
      if (s.ctx x).st = .running || (s.ctx x).st = .killing then s else s.beginClear x
  | none =>
    if (s.ctx x).st = .running then (s.modCtx x fun c => { c with dying := true }).askCancel (s.physOf c.core) 2
    else if (s.ctx x).st = .killing then s
    else s.beginClear x

def State.killCtx (s : State) (x : Nat) : State :=
  if s.killHeld x then s.modCtx x fun c => { c with dying := true } else s.killNow x

/-- The zero-fill of a KILLING context ends: its rows and handle entries are released, and it is FREE (R188). -/
def State.releaseCtx (s : State) (x : Nat) : State :=
  let c := s.ctx x
  let p := s.physOf c.core
  let others := (s.residents p).filter fun q => q.1 ≠ x
  let own := c.window.filter fun r => (s.core p).owns c.part r && !others.any fun q => q.2.inWindow r
  let s := (s.zeroRowsOf p own).releaseHandles p x
  let s := s.loseIntact p x c.rowBase (hdRowSpan c.header) c.handleBase (hdHandleCount c.header)
  let s := s.setCtx x Ctx.init
  let done := s.ctxOps.filter fun o => o.phase = .clear && o.names.contains x
  (done.foldl (fun s o => s.endOp o stCompleted) s).kick p

/-! ### Taking up commands (R397, R399) -/

/-- The logical cores that a command names, of the ops that wait for a rotation (step 1 of R456). -/
def State.opCores (s : State) (o : CtxOp) : List Nat :=
  let d := o.desc
  match descOp d with
  | 1 => [coCore d]
  | 3 => (if coOut d = noCtx then [] else [(s.ctx (coOut d)).core]) ++ (if coCtx d = noCtx then [] else [(s.restoreAt o).1])
  | 4 => [(s.ctx (coCtx d)).core]
  | 6 => [coCore d]
  | _ => []

/-- The command waits: an earlier one names one of its contexts; a rotation or a replacement names its core (R456); or a CREATE's
window is still being zero-filled (R191). -/
def State.opBlocked (s : State) (o : CtxOp) : Bool :=
  let before := s.ctxOps.takeWhile fun q => q ≠ o
  before.any (fun q => q.names.any fun n => o.names.contains n)
    || (s.av.handover.any fun h => (s.opCores o).contains h.logical)
    || (descOp o.desc = 1 &&
        let hd : Desc := BitVec.ofNat 512 (leNat (s.peekFar (coProg o.desc) 64))
        s.fillPending (s.physOf (coCore o.desc)) (coCtx o.desc) (coRow o.desc) (hdRowSpan hd) (coHandle o.desc) (hdHandleCount hd))

/-- CREATE: the context is bound (R172). -/
def State.createCtx (s : State) (o : CtxOp) : State :=
  let d := o.desc
  let seed := if coSeed d = 0 then s.reg (0x4810 + o.part) 1 else coSeed d
  let s := s.setCtx (coCtx d) { Ctx.init with
    st := .binding, part := o.part, core := coCore d, rowBase := coRow d, handleBase := coHandle d, image := coProg d,
    weightBase := coWeight d, seed := BitVec.ofNat 64 seed }
  (s.bindImage (coCtx d)).modOp (fun q => q = o) fun q => { q with phase := .bind }

/-- SWAP: the outgoing context spills at its next weir point, or at once where it is parked. -/
def State.swapCtx (s : State) (o : CtxOp) : State :=
  let n := coOut o.desc
  if n = noCtx then s.beginRestore o
  else if (s.ctx n).st = .running then s.modOp (fun q => q = o) fun q => { q with phase := .weir }
  else s.beginSpill n o

/-- EXPORT: the image is copied; an uncorrectable read ends the command with status error. -/
def State.exportCtx (s : State) (o : CtxOp) : State :=
  let x := s.ctx (coCtx o.desc)
  let (s, hb) := s.readMem x.part none x.save 64 false []
  let (s, body) := s.readMem x.part none x.save (imageBytesOf (BitVec.ofNat 512 (leNat hb.bytes))) false []
  if !hb.lost.isEmpty || !body.lost.isEmpty then s.endOp o stError
  else (s.writeMem x.part (some x.part) (coImage o.desc) body.bytes).1.endOp o stCompleted

/-- IMPORT: a SWAPPED context is made from an image (R411). -/
def State.importCtx (s : State) (o : CtxOp) : State :=
  let d := o.desc
  let (s, hb) := s.readMem o.part (some o.part) (coImage d) 64 false []
  let (s, pb) := s.bindRead o.part (coProg d) 64
  let im : Desc := BitVec.ofNat 512 (leNat hb.bytes)
  if !hb.lost.isEmpty then s.endOp o stError
  else
    let s := s.setCtx (coCtx d) { Ctx.init with
      st := .swapped, part := o.part, core := coCore d, rowBase := coRow d, handleBase := coHandle d, image := coProg d,
      weightBase := coWeight d, seed := imSeed im, weir := imWeir im, tagFault := imTag im, save := coImage d,
      header := BitVec.ofNat 512 (leNat pb) }
    s.endOp o stCompleted

/-- A command that nothing blocks is checked and takes effect. -/
def State.runOp (s : State) (o : CtxOp) : State :=
  match s.opFails o with
  | some st => s.endOp o st
  | none =>
    match descOp o.desc with
    | 1 => s.createCtx o
    | 3 => s.swapCtx o
    | 4 => s.modOp (fun q => q = o) fun q => { q with phase := .weir }
    | 5 => s.exportCtx o
    | 6 => s.importCtx o
    | _ => s

/-- Take up a command that nothing blocks; one that needs bytes of another module stays until they have come (R326). -/
def State.pumpOp (s : State) (o : CtxOp) : State :=
  if o.phase = .blocked && s.ctxOps.contains o && !s.opBlocked o then
    s.whenFetched fun s => ((s.opReads o).foldl (fun s r => s.peekAsk r.1 r.2) s).runOp o
  else s

/-- Take up the commands that nothing blocks any more, oldest first, as often as that lets others go on; the first argument is the
fuel. -/
def State.pumpOps : Nat → State → State
  | 0, s => s
  | fuel + 1, s => State.pumpOps fuel (s.ctxOps.foldl State.pumpOp s)

/-- The hand-over of a rotation begins to copy once no context runs on its core, and no spill, restore, binding or zero-fill
is in progress there (R456). -/
def State.beginCopy (s : State) : State :=
  match s.av.handover with
  | some h =>
    let busy (q : Nat × Ctx) : Bool := q.2.core = h.logical
      && (q.2.st = .spilling || q.2.st = .restoring || q.2.st = .binding || q.2.st = .killing)
    if !h.copying && (s.core (s.physOf h.logical)).csq.phase = .idle && !s.ctxs.any busy then
      { s with av := { s.av with handover := some { h with copying := true } } }
    else s
  | none => s

def State.settleOps (s : State) : State := (State.pumpOps s.ctxOps.length s).beginCopy

/-- Dispatch of a context command other than KILL: it is checked, and takes effect in its turn (R398, R399). -/
def State.ctxCommand (s : State) (f q op : Nat) : State :=
  s.whenFetched fun s => match s.take f q (isCmd 3 op) with
    | (s, some (d, h)) =>
      let o : CtxOp := ⟨f, q, h, d, .blocked, s.now⟩
      let s := (s.opReads o).foldl (fun s r => s.peekAsk r.1 r.2) s
      if s.opDenied o then s.complete f q d h stFault else State.settleOps { s with ctxOps := s.ctxOps ++ [o] }
    | (s, none) => s

/-- CONTEXT_CREATE. -/
def execContextCreate (f q : Nat) (s : State) : Host.Outcome State Fault Refusal := .next (s.ctxCommand f q 1)

/-- SWAP. -/
def execSwap (f q : Nat) (s : State) : Host.Outcome State Fault Refusal := .next (s.ctxCommand f q 3)

/-- SWITCH. -/
def execSwitch (f q : Nat) (s : State) : Host.Outcome State Fault Refusal := .next (s.ctxCommand f q 4)

/-- EXPORT. -/
def execCtxExport (f q : Nat) (s : State) : Host.Outcome State Fault Refusal := .next (s.ctxCommand f q 5)

/-- IMPORT. -/
def execCtxImport (f q : Nat) (s : State) : Host.Outcome State Fault Refusal := .next (s.ctxCommand f q 6)

/-- KILL takes effect at once, but after the copy of a hand-over of its core (R399; Table 4 of 14). -/
def execKill (f q : Nat) (s : State) : Host.Outcome State Fault Refusal :=
  .next (match s.take f q (isCmd 3 2) with
    | (s, some (d, h)) =>
      let o : CtxOp := ⟨f, q, h, d, .clear, s.now⟩
      let s := { s with ctxOps := s.ctxOps ++ [o] }
      match s.opFails o with
      | some st => s.endOp o st
      | none => (s.killCtx (coCtx d)).settleOps
    | (s, none) => s)

/-! ### Events of context commands -/

/-- The command of a context in a phase. -/
def State.opIn (s : State) (ph : OpPhase) (f : CtxOp → Bool) : Option CtxOp := s.ctxOps.find? fun o => o.phase = ph && f o

/-- BINDING_COMPLETE: the last manifest load ends, and the context is IDLE (R172). -/
def execBindingComplete (x : Nat) (ue : List Nat) (s : State) : Host.Outcome State Fault Refusal :=
  .next (match s.opIn .bind fun o => coCtx o.desc = x with
    | some o => s.whenFetched fun s => ((((s.loadAll x ue).restCtx x).endOp o stCompleted).kick (s.physOf (s.ctx x).core)).settleOps
    | none => s)

/-- The swap-out of a SPILLING context ends (R404). -/
def State.finishSpill (s : State) (o : CtxOp) (up : Upsets) : State :=
  let n := coOut o.desc
  let x := s.ctx n
  let p := s.physOf x.core
  let k := s.core p
  let rows := (k.spillRows x).map fun r => (hBase (k.handle (x.hnd r.1)) + r.2) % cisternRows
  let (s, bad) := s.readRows p x.part 2 rows up
  let s := s.returnPermit ⟨.hbm, .spill n⟩
  match bad with
  | some _ => ((s.spillFault n).endOp o stError).kick p
  | none =>
    let s := (s.writeMem x.part none x.save ((s.core p).imageBytes x n)).1
    let y := s.ctx (coCtx o.desc)
    let (core, rb, _) := s.restoreAt o
    let hit := if coCtx o.desc = noCtx || s.physOf core ≠ p then []
      else x.window.filter fun r => inRows rb (hdRowSpan y.header) r && (s.core p).owns x.part r
    let s := s.zeroRowsOf p hit
    let s := (s.setCtxState n .swapped).modCtx n fun c => { c with intact := hit.isEmpty, gone := (c.gone ++ hit).eraseDups }
    let s := (s.bump 0x7000 4 1).bump (0x7810 + x.part) 15 1
    let s := s.regMax 0x7000 7 (cyclesNs (s.now - o.since))
    s.beginRestore o

/-- SPILL_COMPLETE. -/
def execSpillComplete (x : Nat) (up : Upsets) (s : State) : Host.Outcome State Fault Refusal :=
  .next (match s.opIn .spill fun o => coOut o.desc = x with
    | some o =>
      let need := 1024 * s.reg 0x2000 5 < s.imageSize x
      if need && !s.holdsPermit ⟨.hbm, .spill x⟩ then s else (s.finishSpill o up).settleOps
    | none => s)

/-- RESTORE_COMPLETE: not before the zero-fill of what the window takes has ended (R191). -/
def execRestoreComplete (x : Nat) (ue : List Nat) (s : State) : Host.Outcome State Fault Refusal :=
  .next (match s.opIn .restore fun o => coCtx o.desc = x with
    | some o =>
      let c := s.ctx x
      if s.fillPending (s.physOf c.core) x c.rowBase (hdRowSpan c.header) c.handleBase (hdHandleCount c.header) then s
      else s.whenFetched fun s => (s.finishRestore o ue).settleOps
    | none => s)

/-! ### Boundaries of a core -/

/-- SYNC_POINT (R178, R179). -/
def execSyncPoint (p : Nat) (s : State) : Host.Outcome State Fault Refusal := .next (s.syncPoint p).settleOps

/-- SEGMENT_END (R175). -/
def execSegmentEnd (p : Nat) (s : State) : Host.Outcome State Fault Refusal := .next (s.segmentEnd p).settleOps

/-! ### ALL_BLOCKED (R413) -/

/-- The SWAPPED context that qualifies: homed on the core, with a queued invocation, of the partition of a resident one. -/
def State.waitingSwapped (s : State) (p : Nat) : Option (Nat × Ctx) :=
  (s.ctxsOn p).find? fun q => q.2.st = .swapped && !q.2.queue.isEmpty && (s.residents p).any fun r => r.2.part = q.2.part

/-- The all-blocked detector (0x9010). -/
def State.blockedEvent (s : State) (p x us : Nat) (part : Option Nat) (inj : Bool) : State :=
  s.raise { det := 0x9010, sev := 0, detail := x, aux := us, ctx := x, core := s.logicalOf p, phys := some (physCode p),
            injected := inj, part := part }

/-- ALL_BLOCKED. -/
def execAllBlocked (p : Nat) (s : State) : Host.Outcome State Fault Refusal :=
  .next (
    let rs := s.residents p
    let least := rs.foldl (fun m q => min m (s.now - q.2.blockedFrom)) s.now
    if rs.isEmpty || (s.core p).csq.said || rs.any (fun q => !q.2.blocked) || least < usCycles (s.reg 0x7000 2) then s
    else match s.waitingSwapped p with
      | none => s
      | some (x, c) =>
        let s := (s.bump (0x7010 + c.part) 12 1).modCsq p fun q => { q with said := true }
        s.blockedEvent p x (least / 400) (some c.part) false)

end Sys2Proof.Machine
end

