-- ==== Sys2Proof/Machine/Jobs.lean ====
section
/-! DEFINITION. Job descriptors, arguments and results, job aborts, and the final commit (13: R430 to R433; 09: R303). -/

namespace Sys2Proof.Machine

/-! ### The job descriptor (Table 5 of 13) -/

def jbArg (d : Desc) : Nat := fld d 447 396
def jbRes (d : Desc) : Nat := fld d 395 344
def jbArgRows (d : Desc) : Nat := fld d 343 328
def jbResRows (d : Desc) : Nat := fld d 327 312
def jbArgHandle (d : Desc) : Nat := fld d 311 304
def jbResHandle (d : Desc) : Nat := fld d 303 296
def jbStep (d : Desc) : Nat := fld d 295 264
def jbCtx (d : Desc) : Nat := fld d 263 252
def jbLink (d : Desc) : Bool := bitAt d 251

/-- What the descriptors at the front of a queue hold: a job's whole run, the first part of one, or a run that R431 does
not allow. -/
inductive RunIn where
  | whole (l : List Desc)
  | part
  | bad
  deriving DecidableEq, Repr

/-- The run of a job: 1 to 16 job descriptors, with link = 1 on every one but the last (R431). -/
def jobRun : Nat → List Desc → List Desc → RunIn
  | 0, _, _ => .bad
  | _, _, [] => .part
  | n + 1, acc, d :: l =>
    if descKind d ≠ 1 then .bad
    else if jbLink d then jobRun n (acc ++ [d]) l
    else .whole (acc ++ [d])

/-- The invocation of a descriptor. -/
def invOf (j : Nat) (d : Desc) : Invocation :=
  { job := j, ctx := jbCtx d, argAddr := jbArg d, resAddr := jbRes d, argRows := jbArgRows d, resRows := jbResRows d,
    argHandle := jbArgHandle d, resHandle := jbResHandle d, loaded := false, finished := false, stored := false }

/-- A job with its invocations, undecided. -/
def newJob (id fn queue head part step : Nat) (tag : Nat) (irq : Bool) (invs : List Invocation) (stack : Option Nat) : Job :=
  { id := id, fn := fn, queue := queue, tag := tag, irq := irq, sqHead := head, part := part, step := step, invs := invs,
    decision := none, flags := 0, tagFault := false, storeFault := false, remoteFault := false, mark := 0, opened := 0,
    homes := [], spanNext := 0, links := 0, asked := false, posted := false, stack := stack, outs := [], silent := false }

/-- Queue one invocation of a job on a context; an IDLE one becomes READY (R395). -/
def State.queueInv (s : State) (j x : Nat) : State :=
  let s := s.modCtx x fun c => { c with queue := c.queue ++ [j] }
  if (s.ctx x).st = .idle then s.restCtx x else s

/-- Pins that the queue pair's next job releases become that job's (R294). -/
def State.pinsToJob (s : State) (f q j : Nat) : State :=
  let take (p : Pin) : Pin := if p.held && p.withQueue = some (16 * f + q) then { p with withQueue := none, withJob := some j } else p
  { s with sl := { s.sl with pins := s.sl.pins.map fun e => (e.1, e.2.map take) } }

/-- Start a job: its invocations are queued in order, and idle cores take them up. -/
def State.startJob (s : State) (b : Job) : State :=
  let s := { s with jobs := s.jobs ++ [b], nextJob := b.id + 1 }
  let s := b.invs.foldl (fun s i => s.queueInv b.id i.ctx) s
  (b.invs.foldl (fun s i => s.kick (s.physOf (s.ctx i.ctx).core)) s).announce

/-- A job whose run has been dispatched (R395, R431): a context of another partition is a fault; one that is FREE, being killed
or FAULTED ends the job ABORTED with a free cause, since R395 names none (log entry 43), and one on a stopped die with cause die stop
(R463). -/
def State.takeJob (s : State) (f q h : Nat) (ds : List Desc) : State :=
  match ds with
  | [] => s
  | d :: _ =>
    let part := f - 1
    let id := s.nextJob
    let b := newJob id f q h part (jbStep d) (descTag d) (descIrq d) (ds.map (invOf id)) none
    let xs := b.invs.map fun i => s.ctx i.ctx
    if xs.any fun x => x.st ≠ .free && x.part ≠ part then s.complete f q d h stFault
    else if xs.any fun x => x.st = .free || x.st = .killing || x.st = .faulted then
      let s := { s with free := s.free + 1 }
      ((s.pinsToJob f q id).releasePins id).produce (s.jobRecord b stAborted ((Config.freeValue (s.free - 1)).toNat % 9))
    else if xs.any fun x => s.top.stopped.get (x.core / 32) then
      ((s.pinsToJob f q id).releasePins id).produce (s.jobRecord b stAborted 5)
    else (s.pinsToJob f q id).startJob b

/-- JOB: dispatch of the job run at the front of a queue; the first descriptor of a malformed run ends with a free status (R12; log
entry 65). -/
def execJob (f q : Nat) (s : State) : Host.Outcome State Fault Refusal :=
  let s := s.settle f q
  match (s.pair f q).fetched with
  | [] => .next s
  | d :: _ =>
    if descKind d ≠ 1 then .next s
    else match jobRun 16 [] (s.pair f q).fetched with
      | .bad =>
        match s.take f q fun d => descKind d = 1 with
        | (s, none) => .next s
        | (s, some (d, h)) => .next ((s.freeEnd f q d h).settle f q)
      | .part => .next s
      | .whole ds =>
        match s.take f q fun d => descKind d = 1 with
        | (s, none) => .next s
        | (s, some _) =>
          let n := ds.length - 1
          let p := s.pair f q
          let s := s.setPair f q { p with fetched := p.fetched.drop n }
          let s := s.setQp f q 12 ((s.qp f q 12 + n) % 2 ^ 32)
          .next ((s.takeJob f q (s.qp f q 12) ds).settle f q)

/-! ### Arguments (R432) -/

/-- Write an argument row of a context. -/
def State.putArg (s : State) (x r : Nat) (bs : List Byte) : State :=
  let c := s.ctx x
  let p := s.physOf c.core
  (s.modCore p fun k => k.write c.part r (BitVec.ofNat 4096 (leNat bs))).useBank p (r % 4)

/-- Load argument rows from memory: the state, and whether every row could be read. -/
def State.loadArgs (s : State) (x part a base k : Nat) (ue : List Nat) : Nat → State × Bool
  | 0 => (s, true)
  | n + 1 =>
    let (s, o) := s.readMem part (some part) (a + 512 * k) 512 false ue
    if o.refused || !o.lost.isEmpty then (s, false)
    else (s.putArg x ((base + k) % cisternRows) o.bytes).loadArgs x part a base (k + 1) ue n

/-- The arguments of a context's invocation are in place. -/
def State.argsDone (s : State) (j x : Nat) : State :=
  let p := s.physOf (s.ctx x).core
  let done (i : Invocation) : Invocation := { i with loaded := true }
  let s := s.modJob j fun b => { b with invs := modInv x done b.invs }
  s.modCsq p fun q => { q with holdFrom := s.now }

/-- Argument rows asked of another module and not yet answered. -/
def State.argWaits (s : State) (j x : Nat) : Bool :=
  let mine (o : OutMsg) : Bool := match o.use with
    | .load k y _ => k = j && y = x
    | _ => false
  s.fab.sent.any mine || s.fab.waiting.any mine

/-- The invocation that waits on a core for its arguments. -/
def State.argsWanted (s : State) (p : Nat) : Option (Nat × Invocation) :=
  let q := (s.core p).csq
  let x := s.ctx q.ctx
  if q.phase ≠ .hold || q.seg ≠ 0 || x.st ≠ .running then none
  else (x.job.bind s.job?).bind fun b =>
    (b.invs.find? fun i => i.ctx = q.ctx && !i.finished).bind fun i =>
      if i.loaded || i.argRows = 0 || s.argWaits b.id q.ctx then none else some (q.ctx, i)

/-- ARGUMENT_LOAD: rows that exceed their handle fall under R451, and leave the context's rows unpredictable (log entry 65); a failed
load ends the job ABORTED with cause argument. -/
def execArgumentLoad (p : Nat) (ue : List Nat) (s : State) : Host.Outcome State Fault Refusal :=
  match s.argsWanted p with
  | none => .next s
  | some (x, i) =>
    let c := s.ctx x
    let e := (s.core p).handle (c.hnd i.argHandle)
    if hRows e < i.argRows then .next ((s.unruly p).argsDone i.job x)
    else if !(List.range i.argRows).all fun n => s.allows (some c.part) (i.argAddr + 512 * n) 512 false then .next (s.unmapped.abortJob i.job 8).settleOps
    else match s.place i.argAddr with
      | .remote k a =>
        .next ((List.range i.argRows).foldl (fun s n =>
          s.send { s.msgTo 3 0x0B k with addr := a + 512 * n, count := 512, row := n }
            (.load i.job x ((hBase e + n) % cisternRows))) s)
      | _ =>
        match s.loadArgs x c.part i.argAddr (hBase e) 0 ue i.argRows with
        | (s, true) => .next (s.argsDone i.job x)
        | (s, false) => .next (s.abortJob i.job 8).settleOps

/-! ### Results (R432) -/

/-- Store one result row of an invocation; a row beyond its handle is free (R451; log entry 65). -/
def State.storeRow (s : State) (j x : Nat) (i : Invocation) (k : Nat) (up : Upsets) : State :=
  let c := s.ctx x
  let p := s.physOf c.core
  let e := (s.core p).handle (c.hnd i.resHandle)
  let r := (hBase e + k) % cisternRows
  let a := i.resAddr + 512 * k
  let fault (s : State) : State := s.modJob j fun b => { b with storeFault := true }
  let s := if (s.core p).foreign c.part [r] then s.markTagFault x else s
  let (s, bad) := s.readRows p c.part 2 [r] up
  let lost := bad.isSome || s.top.stopped.get (p / 36)
  let bs := if lost then List.replicate 512 0 else wordBytes ((s.core p).view c.part r)
  let s := if lost then fault s else s
  let bs := if hRows e ≤ k then wordBytes (Config.freeRow s.free k) else bs
  let s := if hRows e ≤ k then { s with free := s.free + 1 } else s
  if !s.allows (some c.part) a 512 true then fault s.unmapped
  else match s.place a with
    | .remote m b =>
      (s.charge c.part 10 512).send { s.msgTo 3 0x0C m with addr := b, count := 512, row := k, data := bs } (.result j)
    | _ => ((s.noteLink (some j) (p / 36) a).writeMem c.part (some c.part) a bs).1

/-- Store the results of one invocation. -/
def State.storeInv (s : State) (j : Nat) (i : Invocation) (up : Upsets) : State :=
  (List.range i.resRows).foldl (fun s k => s.storeRow j i.ctx i k up) s

/-- The groups of a job have opened and P has passed its marks on both dies. -/
def State.resultsDue (s : State) (b : Job) : Bool :=
  b.decision = some .completed && b.posted && b.stack.isNone && s.passed b.mark
    && b.invs.any fun i => !i.stored && i.resRows ≠ 0

/-- RESULT_STORE: the first res_rows rows of each invocation's handle are stored, and the job's record follows. -/
def execResultStore (j : Nat) (up : Upsets) (s : State) : Host.Outcome State Fault Refusal :=
  match s.job? j with
  | none => .next s
  | some b =>
    if !s.resultsDue b then .next s
    else
      let s := b.invs.foldl (fun s i => s.storeInv j i up) s
      let all (i : Invocation) : Invocation := { i with stored := true }
      .next ((s.modJob j fun b => { b with invs := b.invs.map all }).tryFinish j).settleOps

/-! ### Job aborts (R433) -/

/-- JOB_ABORT: one that finds its job's decision latched has no effect on it, and is counted in late_aborts (R307, R433). -/
def execJobAbort (f q : Nat) (s : State) : Host.Outcome State Fault Refusal :=
  .next (match s.take f q fun d => descKind d = 2 with
    | (s, none) => s
    | (s, some (d, h)) =>
      let named (b : Job) : Bool := b.fn = f && b.queue = fld d 3 0 && b.tag = fld d 31 16 && b.stack.isNone
      match s.jobs.find? fun b => named b && b.decision.isNone with
      | some b => ((s.abortJob b.id 3).complete f q d h stCompleted).settleOps
      | none => (if s.jobs.any named then s.bump 0x6800 12 1 else s).complete f q d h stState)

/-! ### The final commit (R303) -/

/-- Ask for the applies of a job's groups once. -/
def State.askJobApplies (s : State) (j : Nat) : State :=
  let s := (s.jobGroups j).foldl (fun s g => s.askApplies g.id (some j)) s
  s.modJob j fun b => { b with asked := true }

/-- Every apply of a job is done and every version of its groups is staged. -/
def State.appliesDone (s : State) (j : Nat) : Bool :=
  (s.sl.applies.all fun a => a.job ≠ some j || a.done) && (s.jobGroups j).all fun g => s.staged g.id

/-- Prepare the two-die groups of a job (R304). -/
def State.prepareJob (s : State) (j : Nat) : State :=
  (s.jobGroups j).foldl (fun s g =>
    if s.twoDie g && g.phase = .begun then
      s.prepareGroup g
    else s) s

/-- Steps 4 and 5: the decision of a job all of whose groups have been answered. -/
def State.decideJob (s : State) (j : Nat) : State :=
  if !s.jobPrepared j then s
  else if (s.jobGroups j).any fun g => g.broken || g.phase = .answered false then s.abortJob j (lossCause (s.jobGroups j))
  else
    let s := match s.job? j with
      | some b => if s.pooled && b.step ≠ 0 then s.passTurn b.step s.me else s
      | none => s
    s.latchJob j (s.jobDie j)

/-- The steps of a job's final commit, as far as they can go now. -/
def State.finalCommit (s : State) (j : Nat) : State :=
  match s.job? j with
  | none => s
  | some b =>
    if b.decision.isSome || b.stack.isSome || !b.invs.all (fun i => i.finished) || !s.jobTurn b then s
    else
      let s := if b.asked then s else s.askJobApplies j
      if !s.appliesDone j then s
      else if (s.jobGroups j).any fun g => g.broken then s.abortJob j (lossCause (s.jobGroups j))
      else (s.prepareJob j).decideJob j

/-- JOB_FINAL_COMMIT. -/
def execJobFinalCommit (j : Nat) (s : State) : Host.Outcome State Fault Refusal := .next (s.watchTurn.finalCommit j).watchTurn.settleOps

end Sys2Proof.Machine
end

