-- ==== Sys2Proof/Machine/Chunks.lean ====
section
/-! DEFINITION. Stream commands, feature frames, and the cutting of chunks (06: R192 to R206, R218 to R222). -/

namespace Sys2Proof.Machine

/-! ### The stream command (Table 4 of 06) -/

def scPtr (d : Desc) : Nat := fld d 447 396
def scRes (d : Desc) : Nat := fld d 395 394
def scRows (d : Desc) : Nat := fld d 383 368
def scId (d : Desc) : Nat := fld d 367 304
def scDeadline (d : Desc) : Nat := fld d 303 284
def scOffset (d : Desc) : Nat := fld d 283 274
def scPhase (d : Desc) : Nat := fld d 273 270
def scDomain (d : Desc) : Nat := fld d 269 265
def scStack (d : Desc) : Nat := fld d 264 260
def scIntake (d : Desc) : Nat := fld d 255 240
def scStream (d : Desc) : Nat := fld d 31 16
def scAction (d : Desc) : Nat := fld d 7 4

/-- A word with field [hi:lo] set to v, and the mask of that field: what a group writes of an entry. -/
def fieldItem (l : List (Nat × Nat × Nat)) : Desc × Desc :=
  l.foldl (fun w f => (setFld w.1 f.1 f.2.1 (2 ^ (f.1 + 1 - f.2.1) - 1), setFld w.2 f.1 f.2.1 f.2.2)) (0, 0)

/-- Fields of a stream entry, by hi, lo and value, as an item of a group. -/
def streamItem (n : Nat) (l : List (Nat × Nat × Nat)) : Item := .stream n (fieldItem l).1 (fieldItem l).2

/-! ### Intake records (R236) -/

/-- Device address of a stream's intake record. -/
def State.intakeAddr (s : State) (n : Nat) : Nat := s.reg 0x5800 7 + 128 * seIntake (s.entry n)

def State.intake (s : State) (n : Nat) : Intake := SMap.get Intake.init s.strm.intakes n

def State.modIntake (s : State) (n : Nat) (f : Intake → Intake) : State :=
  { s with strm := { s.strm with intakes := SMap.mod Intake.init s.strm.intakes n f } }

/-- The running state as the record holds it (Table 6 of 07). -/
def Intake.word (x : Intake) : Desc :=
  BitVec.ofNat 512 (put 511 448 x.rp + put 447 416 x.frontier + put 415 384 x.q0 + put 383 352 (unsigned 32 x.dev)
    + put 351 320 (unsigned 32 x.integ) + put 319 288 x.packets + put 287 256 x.lost + put 255 240 x.late
    + put 239 224 x.overflow + put 223 208 x.drops + put 207 192 x.repeats + put 191 176 x.clamps + put 175 144 x.egressPos
    + put 143 128 x.idle + put 127 120 x.blockSlips + put 119 112 x.blockFrame + put 2 0 x.st)

/-- The controller writes the running state back. -/
def State.writeIntake (s : State) (n : Nat) : State :=
  let s := s.modIntake n fun x => { x with since := 0 }
  (s.writeMem (s.stk (seStack (s.entry n)) 2) (some (s.stk (seStack (s.entry n)) 2)) (s.intakeAddr n + 64) (wordBytes (s.intake n).word)).1

/-! ### Chunks -/

/-- Steps of a chunk of a stream. -/
def State.steps (s : State) (n : Nat) : Nat := s.stk (seStack (s.entry n)) 3

/-- Queue a chunk; its due time follows the entry's deadline, or an injection (R205; Table 7 of 14). -/
def State.queueChunk (s : State) (n ready resets inc first idle slots : Nat) (frames : List FrameInfo) (host : Bool) : State :=
  let e := s.entry n
  let inj := s.armed 0x9013 n 0
  let s := if inj then s.consume 0x9013 else s
  let due := if inj then ready else if seDeadline e = 0 then dueNone else (ready + 400 * seDeadline e) % 2 ^ 64
  let c : Chunk :=
    { id := s.strm.nextChunk, stream := n, st := .queued, ready := ready, due := due, resets := resets, inc := inc,
      first := first, idle := idle, slots := slots, frames := frames, host := host, missed := false, inj := inj, waited := false }
  { s with strm := { s.strm with chunks := s.strm.chunks ++ [c], nextChunk := c.id + 1 } }

/-- Cut a chunk once the frames of its steps are stored (R204, R205, R241). -/
def State.cutChunk (s : State) (n : Nat) : State :=
  let r := s.ring n
  let e := s.entry n
  let idle := if r.later then 0 else sePhase e
  let need := s.steps n - idle
  if r.frames.length < need || need = 0 then s
  else
    let start := r.next - r.frames.length
    let marks := (r.frames.zipIdx.filter fun f => f.1.utt).map fun f => f.2 + idle
    let resets := (if r.later then marks else 0 :: idle :: marks).foldl maskSet 0
    let ready := (r.frames.getLast?.map fun f => f.tick).getD s.now
    let s := s.queueChunk n ready resets (seInc e) ((start % 32 + 32 - idle) % 32) idle r.frames.length r.frames false
    s.modRing n fun x => { x with frames := [], later := true }

/-- Write the input frames that wait for an empty exchange row (R210, R246). -/
def State.pushFrames (s : State) : State :=
  let r := s.strm.frameOut.foldl (fun (a : State × List (Nat × Nat × List Byte)) w =>
    if a.1.xWaits w.1 w.2.1 true || a.2.any (fun v => v.1 = w.1 && v.2.1 = w.2.1) then (a.1, a.2 ++ [w])
    else (a.1.xWrite w.1 w.2.1 w.2.2, a.2)) (s, [])
  { r.1 with strm := { r.1.strm with frameOut := r.2 } }

/-- Address of slot f of a stream's feature ring (R203). -/
def State.ringAddr (s : State) (n f : Nat) : Nat :=
  s.stk (seStack (s.entry n)) 12 + (n % 32768 * 32 + f % 32) * s.stk (seStack (s.entry n)) 11 * 512

/-- Exchange rows in which the front-end cores hand over the feature frame of a stream (R203, R210; log entry 25). -/
def State.featOut (s : State) (n : Nat) : List (Nat × Nat) :=
  let k := seStack (s.entry n)
  let core := ((s.blob (0x5100 + k) 8).headD 0).toNat % 64
  (List.range (s.stk k 11)).map fun i => s.xPlace k core 6 (n % 32768 * 256 + i)

/-- FEATURE_FRAME: the oldest frame of a stream whose features have not been written is read from the exchange rows, once the
front-end cores have filled them, and is stored in the stream's ring, or dropped as an overrun (R203, R210). -/
def execFeatureFrame (n : Nat) (s : State) : Host.Outcome State Fault Refusal :=
  .next (
    let r := s.ring n
    match r.ticks with
    | [] => s.pushFrames
    | t :: rest =>
      if (s.featOut n).any fun p => s.xWaits p.1 p.2 false then s.pushFrames
      else
        let part := s.stk (seStack (s.entry n)) 2
        let (s, bytes) := s.xReadAll (s.featOut n)
        let s := s.modRing n fun x => { x with ticks := rest }
        if 32 ≤ r.used then
          let s := s.modEntry n fun e => setFld e 191 176 (satAdd 16 (seOverruns e) 1)
          ((s.bump 0x5000 9 1).bump (0x5010 + part) 4 1).pushFrames
        else
          let s := (s.writeMem part (some part) (s.ringAddr n r.next) bytes).1
          let s := s.modRing n fun x => { x with next := x.next + 1, used := x.used + 1, frames := x.frames ++ [t] }
          (s.cutChunk n).pushFrames)

/-- Partition of a valid stream: its stack's. -/
def State.streamPart (s : State) (n : Nat) : Nat := s.stk (seStack (s.entry n)) 2

/-- CHUNK_DESCRIPTOR: a chunk of a stream whose features the host supplies (R203, R205); a stream of another partition is a
fault, and a chunk of an invalid one ends with a free status (R12, R451; log entry 65). -/
def execChunkDescriptor (f q : Nat) (s : State) : Host.Outcome State Fault Refusal :=
  match s.take f q fun d => descKind d = 5 with
  | (s, none) => .next s
  | (s, some (d, h)) =>
    let n := fld d 15 0
    if !seValid (s.entry n) then .next ((s.bump (pairIdx f q) 14 1).freeEnd f q d h)
    else if s.streamPart n ≠ f - 1 then .next ((s.bump (pairIdx f q) 14 1).complete f q d h stFault)
    else .next (s.queueChunk n s.now (fld d 63 48) (fld d 47 32) (fld d 25 21) (fld d 19 16) 0 [] true)

/-! ### Commands (R200 to R202) -/

/-- The group of a stream command, whose record reports its mark. -/
def State.streamGroup (s : State) (f q h : Nat) (d : Desc) (l : List (Nat × Nat × Nat)) : State :=
  let n := scStream d
  let done := { CRec.blank f q (descTag d) with irq := descIrq d, sqHead := h % 65536, status := stCompleted }
  let (s, g) := s.beginGroup .command (streamDie n) (some (f - 1)) (some done)
  (s.addItem g (streamItem n l)).decideGroup g

/-- CREATE: the ring is empty, and the intake's running state is cleared (R201, R236). -/
def State.createStream (s : State) (f q h : Nat) (d : Desc) : State :=
  let n := scStream d
  let e := s.entry n
  let s := s.modRing n fun _ => Ring.init
  let s := s.modIntake n fun _ => Intake.init
  let s := if scIntake d = 0xFFFF then s
    else (s.writeMem (f - 1) (some (f - 1)) (s.reg 0x5800 7 + 128 * scIntake d + 64) (List.replicate 64 0)).1
  s.streamGroup f q h d
    [(459, 408, scPtr d), (407, 392, scRows d), (391, 376, seGen e + 1), (375, 360, seInc e + 1), (359, 328, 0),
     (327, 312, 0xFFFF), (311, 292, scDeadline d), (291, 282, scOffset d), (281, 278, scPhase d), (277, 273, scDomain d),
     (272, 268, scStack d), (267, 264, seAck e + 1), (259, 258, scRes d), (257, 257, 0), (256, 255, busyIdle), (254, 254, 1),
     (239, 224, scIntake d), (63, 0, scId d)]

/-- The value of reset_req that the running batch of a stream recorded at launch (R193). -/
def State.recordedReq (s : State) (n : Nat) : Option Nat :=
  ((s.batches (seStack (s.entry n))).flatMap fun b : Batch => b.rows).findSome? fun r : BRow =>
    if r.stream = n && !r.dropped then some r.req else none

/-- RESET adds 1 where no request is pending for the next chunk (R193); else the entry is unchanged and no group opens. -/
def State.resetStream (s : State) (f q h : Nat) (d : Desc) : State :=
  let n := scStream d
  let e := s.entry n
  let free := if seBusy e = busyRunning then s.recordedReq n = some (seReq e) else seReq e = seAck e
  if free then s.streamGroup f q h d [(267, 264, seReq e + 1)]
  else s.complete f q d h stCompleted

/-- Address of block b of a stream with a state location (R195). -/
def blockAddr (ptr rows b : Nat) : Nat := ptr + b * rows * 512

/-- Send a message for each row of a state block of another module (R384). -/
def State.stateMsgs (s : State) (n kind mod a rows : Nat) (data : Option (List Byte)) : State :=
  (List.range rows).foldl (fun s k =>
    match data with
    | none => s.send { s.msgTo 4 0x0B mod with addr := a + 512 * k, count := 512, row := k } (.state n kind)
    | some bs =>
      let r := (bs.drop (512 * k)).take 512
      (s.charge (s.streamPart n) 10 512).send { s.msgTo 4 0x0C mod with addr := a + 512 * k, count := 512, row := k, data := r }
        (.state n kind)) s

/-- Read n bytes of state for a partition: none where they are refused or uncorrectable (R209, R328). -/
def State.readState (s : State) (part a n : Nat) (ue : List Nat) : State × Option (List Byte) :=
  let r := s.readMem part (some part) a n false ue
  (r.1, if r.2.refused || !r.2.lost.isEmpty then none else some r.2.bytes)

/-- Write n bytes of state to a local place, or send them to another module; false where they are refused. -/
def State.writeState (s : State) (n kind part a : Nat) (bs : List Byte) : State × Bool :=
  if !s.allows (some part) a bs.length true then (s.unmapped, false)
  else match s.place a with
    | .remote m b => (s.stateMsgs n kind m b (bs.length / 512) (some bs), true)
    | _ => s.writeMem part (some part) a bs

/-- MOVE begins: the stream becomes MOVING; a current block in another module is asked for (R221, R384). A move to or from
CISTERN (R199) and a remote address that is not LARGE (R384) end with a free status (R12; log entry 65). -/
def State.beginMove (s : State) (f q h : Nat) (d : Desc) : State :=
  let n := scStream d
  let e := s.entry n
  let far := match s.place (scPtr d) with
    | .remote _ _ => true
    | _ => false
  if seRes e = 1 || scRes d = 1 || (far && scRes d ≠ 2) then s.freeEnd f q d h
  else
    let s := { s with strm := { s.strm with moves := s.strm.moves ++ [(⟨n, f, q, h, d, seBusy e = busyHeld, false, false⟩ : MoveOp)] } }
    let s := s.setBusy n busyMoving
    let a := blockAddr (sePtr e) (seRows e) (seCur e)
    match s.place a with
    | .remote m b =>
      if s.allows (some (f - 1)) a (512 * seRows e) false then s.stateMsgs n 1 m b (seRows e) none else s.unmapped
    | _ => s

/-- DELETE: the chunks end DISCARDED with a cause, and the ring is released (R222). -/
def State.clearStream (s : State) (n cause : Nat) : State :=
  let s := (s.chunksOf n).foldl (fun s c => s.discardChunk c cause) s
  (s.modRing n fun _ => Ring.init).modIntake n fun _ => Intake.init

/-- RESUME: 0 requeues the aborted chunk, 1 discards it (R218); a reserved action does one of the two, freely (R9; log entry 65). -/
def State.resumeStream (s : State) (f q h : Nat) (d : Desc) : State :=
  let n := scStream d
  let held := (s.chunksOf n).find? fun c => c.st = .held
  let act := if 1 < scAction d then (Config.freeValue s.free).toNat % 2 else scAction d
  let s := if 1 < scAction d then { s with free := s.free + 1 } else s
  let s := match held with
    | some c => if act = 0 then s.modChunk c.id fun x => { x with st := .queued, missed := x.missed || x.due ≤ s.now }
      else s.discardChunk c 2
    | none => s
  s.streamGroup f q h d [(256, 255, busyIdle)]

/-- A stream command takes effect. A CREATE of a valid entry takes effect or ends with a free status, as nothing predicts, and
another op on an invalid entry ends with a free status (R12, R202; log entry 65). -/
def State.streamRun (s : State) (f q h : Nat) (d : Desc) : State :=
  let n := scStream d
  let e := s.entry n
  let valid := seValid e
  let mine := s.streamPart n = f - 1
  if descOp d = 1 then
    if valid && !mine || s.stk (scStack d) 2 ≠ f - 1 then s.complete f q d h stFault
    else if !valid then s.createStream f q h d
    else if (Config.freeValue s.free).toNat % 2 = 1 then State.createStream { s with free := s.free + 1 } f q h d
    else State.freeEnd { s with free := s.free + 1 } f q d h
  else if !valid then s.freeEnd f q d h
  else if !mine then s.complete f q d h stFault
  else match descOp d with
    | 2 => s.resetStream f q h d
    | 3 => s.beginMove f q h d
    | 4 => s.streamGroup f q h d [(311, 292, scDeadline d)]
    | 5 => if seBusy e ≠ busyHeld then s.complete f q d h stState else s.resumeStream f q h d
    | _ => (s.clearStream n 0).streamGroup f q h d [(254, 254, 0)]

/-- The state of a stream blocks a command's op (Table 5 of 06). -/
def State.streamBlocked (s : State) (d : Desc) : Bool :=
  let b := seBusy (s.entry (scStream d))
  seValid (s.entry (scStream d)) && ((descOp d = 3 && b = busyRunning) || (descOp d = 6 && (b = busyRunning || b = busyMoving)))

/-- An earlier command of the stream has not taken effect: its group is undecided, P has not reached its mark on the stream's die, or its
MOVE is in progress (R202, R285). -/
def State.streamHeld (s : State) (n : Nat) : Bool :=
  let writes (i : Item) : Bool := match i with
    | .stream k _ _ => k = n
    | _ => false
  (s.sl.groups.any fun g => g.issuer = .command && g.items.any writes) || s.sl.later.any (fun q => writes q.2)
    || s.strm.moves.any fun m => m.stream = n

/-- The command names a stream, or a stack, of another partition (R451). -/
def State.streamForeign (s : State) (f : Nat) (d : Desc) : Bool :=
  let n := scStream d
  (seValid (s.entry n) && s.streamPart n ≠ f - 1) || (descOp d = 1 && s.stk (scStack d) 2 ≠ f - 1)

/-- Dispatch of a stream command: it takes effect, or waits; one that names another partition's stream has no effect (R451). -/
def State.streamCommand (s : State) (f q op : Nat) : Host.Outcome State Fault Refusal :=
  match s.take f q (isCmd 4 op) with
  | (s, none) => .next s
  | (s, some (d, h)) =>
    let n := scStream d
    if s.streamForeign f d then .next (s.complete f q d h stFault)
    else if s.streamHeld n || s.streamBlocked d || s.strm.waiting.any (fun w => scStream w.2.2.2 = n) then
      .next { s with strm := { s.strm with waiting := s.strm.waiting ++ [(f, q, h, d)] } }
    else .next (s.streamRun f q h d)

/-- STREAM_CREATE. -/
def execStreamCreate (f q : Nat) (s : State) : Host.Outcome State Fault Refusal := s.streamCommand f q 1

/-- STREAM_RESET. -/
def execStreamReset (f q : Nat) (s : State) : Host.Outcome State Fault Refusal := s.streamCommand f q 2

/-- MOVE. -/
def execMove (f q : Nat) (s : State) : Host.Outcome State Fault Refusal := s.streamCommand f q 3

/-- SET. -/
def execStSet (f q : Nat) (s : State) : Host.Outcome State Fault Refusal := s.streamCommand f q 4

/-- RESUME. -/
def execResume (f q : Nat) (s : State) : Host.Outcome State Fault Refusal := s.streamCommand f q 5

/-- DELETE. -/
def execDelete (f q : Nat) (s : State) : Host.Outcome State Fault Refusal := s.streamCommand f q 6

/-- STREAM_COMMAND_RESUME: the first waiting command of a stream takes effect once nothing blocks it (R202). -/
def execStreamCommandResume (n : Nat) (s : State) : Host.Outcome State Fault Refusal :=
  match takeFirst (fun w : Nat × Nat × Nat × Desc => scStream w.2.2.2 = n) s.strm.waiting with
  | none => .next s
  | some (w, l) =>
    if s.streamHeld n || s.streamBlocked w.2.2.2 then .next s
    else .next (State.streamRun { s with strm := { s.strm with waiting := l } } w.1 w.2.1 w.2.2.1 w.2.2.2)

/-! ### MOVE (R221, R384) -/

/-- Messages of a stream's state of a kind that have not been answered. -/
def State.stateWaits (s : State) (n kind : Nat) : Bool :=
  s.fab.sent.any (fun o : OutMsg => o.use = MsgFor.state n kind) || s.fab.waiting.any fun o : OutMsg => o.use = MsgFor.state n kind

/-- Copy a local current block to its new location. -/
def State.copyState (s : State) (m : MoveOp) (ue : List Nat) : State × Bool :=
  let e := s.entry m.stream
  let a := blockAddr (sePtr e) (seRows e) (seCur e)
  match s.place a with
  | .remote _ _ => (s, s.allows (some (m.fn - 1)) a (512 * seRows e) false)
  | _ =>
    match s.readState (m.fn - 1) a (512 * seRows e) ue with
    | (s, none) => (s, false)
    | (s, some bs) => s.writeState m.stream 1 (m.fn - 1) (scPtr m.desc) bs

/-- The copy of a MOVE has ended: its group opens, or the stream is HELD and the command ends with an error. -/
def State.endMove (s : State) (m : MoveOp) (ok : Bool) : State :=
  let s := { s with strm := { s.strm with moves := s.strm.moves.filter fun x => x ≠ m } }
  if !ok then (s.setBusy m.stream busyHeld).complete m.fn m.queue m.desc m.head stError
  else
    s.streamGroup m.fn m.queue m.head m.desc
      [(459, 408, scPtr m.desc), (259, 258, scRes m.desc), (257, 257, 0), (391, 376, seGen (s.entry m.stream) + 1),
       (256, 255, if m.held then busyHeld else busyIdle)]

/-- MOVE_COPY_COMPLETE. A copy to another module ends once its writes are acknowledged; the first event sends them. -/
def execMoveCopyComplete (n : Nat) (ue : List Nat) (s : State) : Host.Outcome State Fault Refusal :=
  .next (match s.strm.moves.find? fun m => m.stream = n with
    | none => s
    | some m =>
      if s.stateWaits n 1 then s
      else if m.failed then s.endMove m false
      else
        let far := match s.place (scPtr m.desc) with
          | .remote _ _ => true
          | _ => false
        if far && m.copied then s.endMove m true
        else s.whenFetched fun s => match s.copyState m ue with
          | (s, false) => s.endMove m false
          | (s, true) =>
            if far && s.stateWaits n 1 then
              let f (x : MoveOp) : MoveOp := if x = m then { x with copied := true } else x
              { s with strm := { s.strm with moves := s.strm.moves.map f } }
            else s.endMove m true)

end Sys2Proof.Machine
end

