-- ==== Sys2Proof/Machine/Intake.lean ====
section
/-! DEFINITION. Audio intake and egress: rings, packets, the channel buffers, ASRC and slip, and input frames (07: R233 to
R247). -/

namespace Sys2Proof.Machine

/-! ### The intake configuration (Table 5 of 07) -/

def icBuf (c : Desc) : Nat := fld c 459 408
def icStopFrames (c : Desc) : Nat := fld c 407 392
def icBand (c : Desc) : Nat := fld c 391 376
def icTarget (c : Desc) : Nat := fld c 375 360
def icAlarm (c : Desc) : Nat := fld c 359 352
def icLeadOut (c : Desc) : Nat := fld c 351 346
def icLeadIn (c : Desc) : Nat := fld c 345 340
def icSamples (c : Desc) : Nat := 2 ^ (10 + fld c 339 336)
def icEgress (c : Desc) : Nat := fld c 31 28
def icRateCode (c : Desc) : Nat := fld c 27 24
def icSlip (c : Desc) : Bool := bitAt c 16
def icChannels (c : Desc) : Nat := fld c 10 8 + 1
def icFormat (c : Desc) : Nat := fld c 3 0

/-- Source rates in Hz. -/
def srcRates : List Nat := [8000, 11025, 12000, 16000, 22050, 24000, 32000, 44100, 48000]
def icRate (c : Desc) : Nat := srcRates.getD (icRateCode c) 0

/-- Bytes of a sample in a payload format (Table 4 of 07). -/
def fmtBytes (f : Nat) : Nat := [2, 3, 4, 1, 1].getD f 0

/-! ### Sample formats (Table 4 of 07) -/

/-- v × 2^-k as FP32. -/
def scaled (v : Int) (k : Nat) : W32 := BitVec.ofNat 32 (fmtF32.round .even (decide (v < 0)) v.natAbs (-(k : Int))).1

/-- G.711 µ-law and A-law codes as linear values on the 16-bit scale. -/
def mulawLinear (b : Nat) : Int :=
  let u := 255 - b % 256
  let m := ((u % 16 * 8 + 132) <<< (u / 16 % 8)) - 132
  if u / 128 = 1 then -(m : Int) else m

def alawLinear (b : Nat) : Int :=
  let a := b % 256 ^^^ 0x55
  let e := a / 16 % 8
  let m := if e = 0 then a % 16 * 16 + 8 else (a % 16 * 16 + 264) <<< (e - 1)
  if a / 128 = 1 then (m : Int) else -(m : Int)

/-- The G.711 codes of a linear value on the 16-bit scale. -/
def mulawCode (v : Int) : Nat :=
  let m := min v.natAbs 32635 + 132
  let e := Nat.log2 m - 7
  255 - ((if v < 0 then 128 else 0) + 16 * e + m / 2 ^ (e + 3) % 16)

def alawCode (v : Int) : Nat :=
  let m := min v.natAbs 32767
  let e := if m < 256 then 0 else Nat.log2 m - 7
  let q := if e = 0 then m / 16 else m / 2 ^ (e + 3) % 16
  ((if v < 0 then 0 else 128) + 16 * e + q) ^^^ 0x55

/-- Decode a sample: its FP32 value, and whether it was a NaN or an infinity (R235). -/
def decodeSample (f v : Nat) : W32 × Bool :=
  match f with
  | 0 => (scaled (signed 16 v) 15, false)
  | 1 => (scaled (signed 24 v) 23, false)
  | 2 =>
    let w : W32 := BitVec.ofNat 32 v
    if (dec32 w).isNan || (dec32 w).isInf then (0, true) else (w, false)
  | 3 => (scaled (mulawLinear v) 15, false)
  | _ => (scaled (alawLinear v) 15, false)

/-- An FP32 value scaled by 2^k, rounded and saturated to n bits; a NaN, for which no value is stated, is free. -/
def scaleOut (k n : Nat) (w : W32) (draw : Nat) : Int :=
  let hi : Int := 2 ^ (n - 1) - 1
  match dec32 w with
  | .nan => signed n (Config.freeValue draw).toNat
  | .inf s => if s then -(hi + 1) else hi
  | .fin s m e => clampInt (roundTa s m (e + k)) (-(hi + 1)) hi

/-- The bytes of a sample in a stream's format (R247). -/
def encodeSample (f : Nat) (w : W32) (draw : Nat) : List Byte :=
  match f with
  | 0 => leBytes 2 (unsigned 16 (scaleOut 15 16 w draw))
  | 1 => leBytes 3 (unsigned 24 (scaleOut 23 24 w draw))
  | 2 => leBytes 4 w.toNat
  | 3 => leBytes 1 (mulawCode (scaleOut 15 16 w draw))
  | _ => leBytes 1 (alawCode (scaleOut 15 16 w draw))

/-! ### Channel buffers (R237) -/

/-- Address of a source position in a channel's buffer. -/
def bufAddr (c : Desc) (chan pos : Nat) : Nat := icBuf c + (chan * icSamples c + pos % icSamples c) * 4

/-- Read n bytes for a stream's partition; what an uncorrectable read gives is stated nowhere, so it is free. -/
def State.intakeRead (s : State) (part a n : Nat) (ue : List Nat) : State × List Byte :=
  let r := s.readMem part (some part) a n false ue
  if r.2.lost.isEmpty then (r.1, r.2.bytes)
  else ({ r.1 with free := r.1.free + ceilDiv n 8 },
        ((List.range (ceilDiv n 8)).flatMap fun i => wordBytes (Config.freeValue (r.1.free + i))).take n)

def State.intakeWrite (s : State) (part a : Nat) (bs : List Byte) : State := (s.writeMem part (some part) a bs).1

/-- Mark slots as never written, for every channel. -/
def State.clearSlots (s : State) (part : Nat) (c : Desc) (pos n : Nat) : State :=
  (List.range (icChannels c)).foldl (fun s k =>
    (List.range n).foldl (fun s i => s.intakeWrite part (bufAddr c k ((pos + i) % 2 ^ 32)) (leBytes 4 0xFFFFFFFF)) s) s

/-! ### Ingress (R233 to R237) -/

/-- INGRESS_TAIL_WRITE: a tail more than the ring's entries ahead is R12's misuse (R451): the ring's tail is then free (log entry
65). -/
def execIngressTailWrite (part die v : Nat) (cells : Cells) (s : State) : Host.Outcome State Fault Refusal :=
  let s := { s with mem := hostStores s.mem cells }
  let i := ringIdx 0x5880 part die
  let put (s : State) (v : Nat) : State :=
    { s with strm := { s.strm with ingress := SMap.set 0 s.strm.ingress (2 * part + die) (v % 2 ^ 32) } }
  if s.reg i 2 ≠ 0 && s.reg i 2 < (v + 2 ^ 32 - s.reg i 3) % 2 ^ 32 then
    .next (put { s with free := s.free + 1 } (Config.freeValue s.free).toNat)
  else .next (put s v)

/-- EGRESS_HEAD_WRITE. -/
def execEgressHeadWrite (part die v : Nat) (s : State) : Host.Outcome State Fault Refusal :=
  .next { s with strm := { s.strm with egress := SMap.set 0 s.strm.egress (2 * part + die) (v % 2 ^ 32) } }

/-- The later of two positions. -/
def posMax (a b : Nat) : Nat := if posDiff 32 a b < 0 then b else a

/-- Write the samples of a packet that lie in the buffer's reach: the state, the samples dropped beyond it, whether one was
written, and the bad samples. -/
def State.putSamples (s : State) (part : Nat) (x : Intake) (q n : Nat) (bs : List Byte) : State × Nat × Bool × Nat :=
  let c := x.cfg
  let w := fmtBytes (icFormat c)
  (List.range n).foldl (fun a i =>
    let pos := (q + i) % 2 ^ 32
    let d := posDiff 64 (pos * 2 ^ 32) x.rp
    if d < 0 then a
    else if (icSamples c : Int) * 2 ^ 32 ≤ d then (a.1, a.2.1 + 1, a.2.2)
    else
      (List.range (icChannels c)).foldl (fun a k =>
        let v := leNat ((bs.drop ((i * icChannels c + k) * w)).take w)
        let (y, bad) := decodeSample (icFormat c) v
        (a.1.intakeWrite part (bufAddr c k pos) (leBytes 4 y.toNat), a.2.1, true, a.2.2.2 + boolNat bad)) a) (s, 0, false, 0)

/-- A configuration with a reserved format or rate acts as one with codes that nothing predicts (R9; log entry 65). -/
def legalCfg (c : Desc) (w : Nat) : Desc :=
  let c := if 5 ≤ icFormat c then setFld c 3 0 (w % 5) else c
  if 9 ≤ icRateCode c then setFld c 27 24 (w / 8 % 9) else c

/-- An intake that starts: its configuration, q0, and nothing read yet; rp stands at q0 until it is aligned (log entry 29). -/
def Intake.begin (x : Intake) (cfg : Desc) (q : Nat) : Intake :=
  { x with cfg := cfg, st := 1, q0 := q, frontier := q, rp := q * 2 ^ 32, idle := 0, blockSlips := 0, blockFrame := 0, written := false,
           rx := 0, rxEnd := q, stop := none, utts := [], leadOut := 0, begun := false, act := x.act + 1, hist := [] }

/-- An accepted packet takes effect. The frontier rises to its end where a sample of it is written (Table 6 of 07). -/
def State.takePacket (s : State) (part n : Nat) (e : Desc) (ue : List Nat) : State :=
  let q := fld e 327 296
  let cnt := fld e 295 280
  let s := if (s.intake n).st ≠ 0 then s
    else
      let r := s.readMem part (some part) (s.intakeAddr n) 64 false ue
      let w := (Config.freeValue r.1.free).toNat
      State.modIntake { r.1 with free := r.1.free + 1 } n fun x => x.begin (legalCfg (BitVec.ofNat 512 (leNat r.2.bytes)) w) q
  let x := s.intake n
  let c := x.cfg
  let s := s.bump 0x5801 1 1
  let rx := if fld e 391 328 = 0 then s.now else fld e 391 328
  let endAt := (q + cnt) % 2 ^ 32
  let x := { x with packets := (x.packets + 1) % 2 ^ 32, rx := max x.rx rx, rxEnd := if x.rx ≤ rx then endAt else x.rxEnd }
  if posDiff 64 (endAt * 2 ^ 32) x.rp ≤ 0 then
    (s.modIntake n fun _ => { x with late := satAdd 16 x.late 1 }).bump 0x5801 3 1
  else
    let (s, bs) := s.intakeRead part (fld e 491 440) (cnt * icChannels c * fmtBytes (icFormat c)) ue
    let (s, excess, any, bad) := s.putSamples part x q cnt bs
    let s := (s.bump 0x5801 4 excess).bump 0x5801 6 bad
    let utts := (if bitAt e 8 then [q] else []) ++ (if bitAt e 10 then [(q + fld e 279 264) % 2 ^ 32] else [])
    s.modIntake n fun _ => { x with
      frontier := if any then posMax x.frontier endAt else x.frontier, overflow := satAdd 16 x.overflow excess,
      written := x.written || any, stop := if bitAt e 9 then some endAt else x.stop, utts := x.utts ++ utts }

/-- INGRESS_ENTRY: the next entry of a ring is taken; one that R234 does not accept is dropped. -/
def execIngressEntry (part die : Nat) (ue : List Nat) (s : State) : Host.Outcome State Fault Refusal :=
  let i := ringIdx 0x5880 part die
  let n := s.reg i 2
  if s.top.dev ≠ .serving || n = 0 || SMap.get 0 s.strm.ingress (2 * part + die) = s.reg i 3 then .next s
  else .next (s.whenFetched fun s =>
    let (s, bs) := s.intakeRead part (s.reg i 1 + 64 * (s.reg i 3 % n)) 64 ue
    let s := s.setReg i 3 (s.reg i 3 + 1)
    let e : Desc := BitVec.ofNat 512 (leNat bs)
    let k := fld e 263 248
    if !seValid (s.entry k) || streamDie k ≠ die || s.streamPart k ≠ part || seIntake (s.entry k) = 0xFFFF then
      s.bump 0x5801 2 1
    else s.takePacket part k e ue)

/-! ### Frames (R238 to R246) -/

/-- a × b ÷ c rounded to nearest, halves away from zero. -/
def mulDivTa (a : Int) (b c : Nat) : Int := roundTaDiv (a * b) c

/-- Source samples, in units of 2^-32, that k model-rate samples take at the ratio r of R243: k × r, rounded once. -/
def ratioOf (src nom : Nat) (dev : Int) (k : Nat) : Nat := (mulDivTa (2 ^ 32 + dev) (src * k) nom).toNat

/-- ±0.002 in units of 2^-32. -/
def devLimit : Int := 8589934

/-- The loop of R243: integrator, deviation, and whether the ratio was clamped. -/
def asrcLoop (x : Intake) (now src : Nat) : Int × Int × Bool :=
  let pos : Int := (mulDivTa (((now : Int) - x.rx) * 2 ^ 32) src 400000000)
  let e := pos + posDiff 64 (x.rxEnd * 2 ^ 32) x.rp - (icTarget x.cfg : Int) * 2 ^ 32
  let integ := clampInt (x.integ + roundTaDiv e (2 ^ 24)) (-devLimit) devLimit
  let raw := integ + roundTaDiv e (2 ^ 16)
  let dev := clampInt raw (-devLimit) devLimit
  (integ, dev, dev ≠ raw)

/-- Read n consecutive source samples of a channel from a position on, clearing their slots: the samples, and those lost.
Positions beyond the end sample read as zeros, and so do those below q0 during lead-in (R237, R239, R240). -/
def State.takeSamples (s : State) (part : Nat) (x : Intake) (k pos n : Nat) (ue : List Nat) : State × List W32 × Nat :=
  (List.range n).foldl (fun a i =>
    let p := (pos + i) % 2 ^ 32
    let (s, bs) := a.1.intakeRead part (bufAddr x.cfg k p) 4 ue
    let s := s.intakeWrite part (bufAddr x.cfg k p) (leBytes 4 0xFFFFFFFF)
    let v := leNat bs
    let past : Bool := match x.stop with
      | some e => 0 ≤ posDiff 32 p e
      | none => false
    let early := x.st = 2 && posDiff 32 p x.q0 < 0
    if past || early then (s, a.2.1 ++ [0], a.2.2)
    else if v = 0xFFFFFFFF then (s, a.2.1 ++ [0], a.2.2 + 1)
    else (s, a.2.1 ++ [BitVec.ofNat 32 v], a.2.2)) (s, [], 0)

/-- Samples of a rate that the filter spans: 48 of the lower rate (Table 9 of 07). -/
def asrcSpan (src dst : Nat) : Nat := ceilDiv (48 * src) (max (min src dst) 1)

/-- The filter of Table 9 of 07 at a position p, in units of 2^-32, of a list of samples of a rate: 48 taps of the lower rate with
128 phases each, taken with linear interpolation. A term is a sample, the values of the two phases next to it, and the fraction
between them (log entry 9). -/
def asrcTerms (src dst : Nat) (l : List W32) (p : Nat) : List (W32 × W32 × W32 × Nat) :=
  let low := max (min src dst) 1
  let top := p / 2 ^ 32
  (List.range (asrcSpan src dst)).filterMap fun j =>
    let t := (p - (top - j) * 2 ^ 32) * 128 * low / max src 1
    let k := t / 2 ^ 32
    if j ≤ top && k < 128 * 48 then
      some (l.getD (top - j) 0, asrcTapAt src dst k, asrcTapAt src dst (k + 1), t % 2 ^ 32)
    else none

def asrcAt (src dst : Nat) (l : List W32) (p : Nat) : W32 := asrcSum (asrcTerms src dst l p)

/-- The samples that a converter keeps. -/
def asrcKeep (src dst : Nat) (l : List W32) : List W32 := l.drop (l.length - asrcSpan src dst)

/-- Position of the first sample at or after a position in units of 2^-32: the samples before it have been taken. -/
def nextSample (rp : Nat) : Nat := ceilDiv rp (2 ^ 32)

/-- M samples of a channel converted by ASRC from rp on, and the samples the converter keeps. The new samples are those from the first
one at or after rp on. -/
def asrcFrame (src nom : Nat) (dev : Int) (hist new : List W32) (rp m : Nat) : List W32 × List W32 :=
  let old := if hist.isEmpty then [0] else hist
  let all := old ++ new
  let start := (old.length + rp / 2 ^ 32 - nextSample rp) * 2 ^ 32 + rp % 2 ^ 32
  ((List.range m).map fun i => asrcAt src nom all (start + ratioOf src nom dev i), asrcKeep src nom all)

/-- What one frame takes: the samples of each channel, the source position of its first sample in units of 2^-32, rp after it,
the slip. -/
structure FrameOut where
  chans : List (List W32)
  hist : List (List W32)
  lost : Nat
  first : Nat
  rp : Nat
  slip : Nat

/-- The slip of a RUNNING frame (R244): 0 none, 1 a drop, 2 a repeat. -/
def slipOf (x : Intake) : Nat :=
  let fill := posDiff 64 (x.frontier * 2 ^ 32) x.rp
  if ((icTarget x.cfg + icBand x.cfg : Nat) : Int) * 2 ^ 32 < fill then 1
  else if fill < ((icTarget x.cfg : Int) - icBand x.cfg) * 2 ^ 32 then 2
  else 0

/-- Read one frame of M samples for every channel. -/
def State.readFrame (s : State) (part : Nat) (x : Intake) (m nom : Nat) (ue : List Nat) : State × FrameOut :=
  let c := x.cfg
  let p0 := x.rp / 2 ^ 32
  let old (k : Nat) : List W32 := x.hist.getD k []
  if icSlip c then
    let slip := if x.st = 3 then slipOf x else 0
    let n := if slip = 1 then m + 1 else if slip = 2 then m - 1 else m
    let r := (List.range (icChannels c)).foldl (fun a k =>
      let t := a.1.takeSamples part x k p0 n ue
      let v := if slip = 1 then t.2.1.drop 1 else if slip = 2 then ((old k).getLastD 0) :: t.2.1 else t.2.1
      (t.1, a.2.1 ++ [v], if k = 0 then t.2.2 else a.2.2)) (s, ([] : List (List W32)), 0)
    (r.1, { chans := r.2.1, hist := r.2.1.map fun l => l.drop (l.length - 1), lost := r.2.2,
            first := (x.rp + 2 ^ 64 + (if slip = 1 then 2 ^ 32 else 0) - (if slip = 2 then 2 ^ 32 else 0)) % 2 ^ 64,
            rp := (x.rp + n * 2 ^ 32) % 2 ^ 64, slip := slip })
  else
    let rp' := x.rp + ratioOf (icRate c) nom x.dev m
    let p0 := nextSample x.rp
    let n := nextSample rp' - p0
    let r := (List.range (icChannels c)).foldl (fun a k =>
      let t := a.1.takeSamples part x k p0 n ue
      let f := asrcFrame (icRate c) nom x.dev (old k) t.2.1 x.rp m
      (t.1, a.2.1 ++ [f.1], a.2.2.1 ++ [f.2], if k = 0 then t.2.2 else a.2.2.2))
      (s, ([] : List (List W32)), ([] : List (List W32)), 0)
    (r.1, { chans := r.2.1, hist := r.2.2.1, lost := r.2.2.2, first := x.rp % 2 ^ 64,
            rp := rp' % 2 ^ 64, slip := 0 })

/-- Rows of an input frame, channel-major, and their places (R246; log entry 25). -/
def State.frameRows (s : State) (n : Nat) (chans : List (List W32)) : List (Nat × Nat × List Byte) :=
  let k := seStack (s.entry n)
  let core := ((s.blob (0x5100 + k) 8).headD 0).toNat % 64
  let bytes := chans.flatMap fun l => l.flatMap fun w => leBytes 4 w.toNat
  (List.range (ceilDiv bytes.length 512)).map fun i =>
    let place := s.xPlace k core 5 (n % 32768 * 64 + i)
    let row := (bytes.drop (512 * i)).take 512
    (place.1, place.2, row ++ List.replicate (512 - row.length) 0)

/-- The slip detector (0x9014). -/
def State.slipEvent (s : State) (n slips : Nat) (inj : Bool) : State :=
  s.raise { det := 0x9014, sev := 0, detail := slips, aux := n, part := some (s.streamPart n), injected := inj }

/-- Count a frame in its block, and its slip (R245). -/
def State.countSlip (s : State) (n slip : Nat) : State :=
  let x := s.intake n
  let b := (x.blockSlips + boolNat (slip ≠ 0)) % 256
  let s := if slip = 0 then s else s.bump 0x5801 7 1
  let s := if slip ≠ 0 && icAlarm x.cfg ≠ 0 && b = icAlarm x.cfg then s.slipEvent n b false else s
  let wrap := 100 ≤ x.blockFrame + 1
  s.modIntake n fun x => { x with
    drops := satAdd 16 x.drops (boolNat (slip = 1)), repeats := satAdd 16 x.repeats (boolNat (slip = 2)),
    blockSlips := if wrap then 0 else b, blockFrame := if wrap then 0 else x.blockFrame + 1 }

/-- Sample i of a frame of m samples lies below q0 during lead-in, or belongs to a pad frame: it is zero (R239, R240). The operands
are the frame's kind and rp after it. -/
def silentAt (x : Intake) (kind m i rp : Nat) : Bool :=
  let at' := (x.rp + (rp + 2 ^ 64 - x.rp) % 2 ^ 64 * i / max m 1) % 2 ^ 64
  kind = 3 || (kind = 0 && posDiff 64 at' (x.q0 * 2 ^ 32) < 0)

/-- Make the frame of a tick of a stream in LEAD_IN, RUNNING or LEAD_OUT. The samples of a slip-mode stream whose rate is not its
domain's are free (R12, R244; log entry 65). -/
def State.makeFrame (s : State) (n tick : Nat) (ue : List Nat) : State :=
  let e := s.entry n
  let d := seDomain e
  let m := s.dm d 3
  let nom := max (s.dm d 4) 1
  let part := s.streamPart n
  let x := s.intake n
  let wild := icSlip x.cfg && icRate x.cfg ≠ s.dm d 4
  let x := if x.st = 2 && 0 ≤ posDiff 64 x.rp (x.q0 * 2 ^ 32) then { x with st := 3 } else x
  let (x, clamp) := if x.st = 3 && !icSlip x.cfg then
      let l := asrcLoop x s.now (icRate x.cfg)
      ({ x with integ := l.1, dev := l.2.1, clamps := satAdd 16 x.clamps (boolNat l.2.2) }, l.2.2)
    else (x, false)
  let s := if clamp then s.bump 0x5801 8 1 else s
  let (s, o) := s.readFrame part x m nom ue
  let hit := x.utts.filter fun u => 0 ≤ posDiff 64 o.first (u * 2 ^ 32)
  let ends : Bool := x.st = 3 && match x.stop with
    | some z => 0 < posDiff 64 o.rp ((z + 2 ^ 32 - 1) % 2 ^ 32 * 2 ^ 32)
    | none => false
  let kind := if x.st = 2 then 0 else if x.st = 3 then 1 else if x.leadOut < icLeadOut x.cfg then 2 else 3
  let last := (kind = 1 && ends && icLeadOut x.cfg = 0) || (kind = 2 && x.leadOut + 1 = icLeadOut x.cfg)
  let info : FrameInfo :=
    { tick := tick, utt := !hit.isEmpty, kind := kind, first := kind = 1 && !x.begun, last := last, slip := o.slip, dev := x.dev,
      act := x.act, cfg := x.cfg }
  let free := s.free
  let chans := o.chans.zipIdx.map fun c => c.1.zipIdx.map fun v =>
    if silentAt x kind m v.2 o.rp then 0
    else if wild then BitVec.setWidth 32 (Config.freeValue (free + c.2 * m + v.2))
    else v.1
  let s := if wild then { s with free := free + m * o.chans.length } else s
  let s := (s.bump 0x5801 5 o.lost).modIntake n fun _ => { x with
    rp := o.rp, hist := o.hist, lost := (x.lost + o.lost) % 2 ^ 32, utts := x.utts.filter fun u => !hit.contains u,
    st := if ends then 4 else x.st, leadOut := if x.st = 4 then x.leadOut + 1 else x.leadOut, begun := x.begun || kind = 1,
    idle := if x.written then 0 else (x.idle + 1) % 65536, written := false, since := x.since + 1 }
  let s := if x.st = 3 then s.countSlip n o.slip else s
  let s := { s with strm := { s.strm with frameOut := s.strm.frameOut ++ s.frameRows n chans } }
  let s : State := (s.modRing n fun r => { r with ticks := r.ticks ++ [info] }).pushFrames
  if 100 ≤ (s.intake n).since then s.writeIntake n else s

/-- The stream stops: what is still buffered is discarded, and the running state is written back (R236, R240). -/
def State.stopIntake (s : State) (n : Nat) : State :=
  let x := s.intake n
  let p := nextSample x.rp
  let left := (posDiff 32 x.frontier p).toNat
  let s := if 0 < posDiff 32 x.frontier p then s.clearSlots (s.streamPart n) x.cfg p (min left (icSamples x.cfg)) else s
  (s.modIntake n fun x => { x with st := 0 }).writeIntake n

/-- Once the lead-out frames are made, the stream stops where the next frame is a chunk boundary (R238, R240). -/
def State.endLeadOut (s : State) (n : Nat) : State :=
  let x := s.intake n
  if x.st = 4 && icLeadOut x.cfg ≤ x.leadOut && (x.served + sePhase (s.entry n)) % max (s.steps n) 1 = 0 then s.stopIntake n else s

/-- The aligned tick of a STARTING stream: rp is set (R239). -/
def State.alignIntake (s : State) (n : Nat) : State :=
  let x := s.intake n
  let d := seDomain (s.entry n)
  let back := mulDivTa ((icLeadIn x.cfg * s.dm d 3 : Nat) * 2 ^ 32) (icRate x.cfg) (max (s.dm d 4) 1)
  let a := (x.frontier * 2 ^ 32 + 2 ^ 64 - icTarget x.cfg * 2 ^ 32) % 2 ^ 64
  let b := unsigned 64 ((x.q0 * 2 ^ 32 : Nat) - back)
  s.modIntake n fun x => { x with rp := if posDiff 64 a b < 0 then a else b, st := 2, later := true }

/-- The stream's frame tick of its domain's last frame has fallen and has not been served. -/
def State.streamTickDue (s : State) (n : Nat) : Bool :=
  let e := s.entry n
  let d := seDomain e
  let x := s.domain d
  let passed := if d ≠ 0 && s.sharedOn then x.shared - 1 else (x.next - 1) % s.dmFrame d
  seValid e && seIntake e ≠ 0xFFFF && s.dm d 10 ≠ 0 && (s.intake n).served < s.dm d 10 && seOffset e ≤ passed

/-- STREAM_FRAME_TICK. -/
def execStreamFrameTick (n : Nat) (s : State) : Host.Outcome State Fault Refusal :=
  if !s.streamTickDue n then .next s
  else .next (s.whenFetched fun s =>
    let e := s.entry n
    let count := s.dm (seDomain e) 10
    let num := count - 1
    let t := max (s.steps n) 1
    let s := s.modIntake n fun x => { x with served := count }
    let inj := s.armed 0x9014 n 0
    let before := s.reg 0x9014 1
    let boundary := (num + sePhase e) % t = 0
    let x := s.intake n
    let done : State := (if x.st = 0 then s
      else if x.st = 1 then
        (if x.later && boundary || !x.later && num % t = 0 then (s.alignIntake n).makeFrame n s.now [] else s)
      else if x.st = 4 && icLeadOut x.cfg ≤ x.leadOut && boundary then s.stopIntake n
      else (s.makeFrame n s.now []).endLeadOut n)
    if inj && done.reg 0x9014 1 = before then (done.consume 0x9014).slipEvent n (done.intake n).blockSlips true else done)

/-- STOP_TIMEOUT: no sample has been written for stop_frames frame ticks (R240). -/
def execStopTimeout (n : Nat) (s : State) : Host.Outcome State Fault Refusal :=
  .next (
    let x := s.intake n
    if x.st ≠ 3 || icStopFrames x.cfg = 0 || x.idle < icStopFrames x.cfg || x.stop.isSome then s
    else
      let past : Bool := 0 ≤ posDiff 64 x.rp (x.frontier * 2 ^ 32)
      (s.modIntake n fun x => { x with stop := some x.frontier, st := if past then 4 else 3 }).endLeadOut n)

/-- INTAKE_STATE_WRITEBACK (R236). -/
def execIntakeStateWriteback (n : Nat) (s : State) : Host.Outcome State Fault Refusal :=
  .next (if seValid (s.entry n) && seIntake (s.entry n) ≠ 0xFFFF then s.writeIntake n else s)

/-! ### Egress (R247) -/

/-- The source-rate samples of one step of an egress channel, the samples the converter keeps, and the fraction after it. As on intake,
model-rate sample i of the step lies i × r source samples after the step's own position, of which the fraction is given: the step gives
the source samples from that position up to the next step's, each at its place among the model-rate samples (R242, R243, R247). -/
def egressStep (c : Desc) (nom : Nat) (f : FrameInfo) (hist new : List W32) (frac : Nat) : List W32 × List W32 × Nat :=
  if icSlip c then
    ((if f.slip = 1 then (new.headD 0) :: new else if f.slip = 2 then new.drop 1 else new), [], 0)
  else
    let num := (icRate c * (2 ^ 32 + f.dev)).toNat
    let all := hist ++ new
    let endAt := frac + ratioOf (icRate c) nom f.dev new.length
    let one (i : Nat) : W32 :=
      asrcAt nom (icRate c) all (hist.length * 2 ^ 32 + ((nextSample frac + i) * 2 ^ 32 - frac) * nom * 2 ^ 32 / max num 1)
    ((List.range (nextSample endAt - nextSample frac)).map one, asrcKeep nom (icRate c) all, endAt % 2 ^ 32)

/-- The samples of a piece: by channel, over its steps. -/
def State.egressPiece (s : State) (n : Nat) (c : Desc) (m : Nat) (steps : List (FrameInfo × List W32)) : State × List (List W32) :=
  let k := icEgress c
  let nom := max (s.dm (seDomain (s.entry n)) 4) 1
  steps.foldl (fun a st =>
    let y := a.1.intake n
    let outs := (List.range k).map fun i =>
      egressStep c nom st.1 (y.outHist.getD i []) ((st.2.drop (i * m)).take m) y.outFrac
    let s := a.1.modIntake n fun y => { y with outHist := outs.map fun o => o.2.1, outFrac := (outs.headD ([], [], 0)).2.2 }
    (s, (List.range k).map fun i => a.2.getD i [] ++ ((outs.getD i ([], [], 0)).1))) (s, [])

/-- Write one egress entry and its payload, then the ring's producer index and the vector; a full ring drops the entry. -/
def State.egressEntry (s : State) (n fmt : Nat) (chans : List (List W32)) (start stop : Bool) : State :=
  let part := s.streamPart n
  let die := streamDie n
  let i := ringIdx 0x58A0 part die
  let x := s.intake n
  let cnt := (chans.headD []).length
  let draw := s.free
  let bytes := (List.range cnt).flatMap fun j =>
    chans.zipIdx.flatMap fun c => encodeSample fmt (c.1.getD j 0) (draw + j * chans.length + c.2)
  let pos := x.egressPos
  let s := { s with free := s.free + cnt * chans.length }
  let s := s.modIntake n fun x => { x with egressPos := (x.egressPos + cnt) % 2 ^ 32 }
  let used := (s.reg i 5 + 2 ^ 32 - SMap.get 0 s.strm.egress (2 * part + die)) % 2 ^ 32
  if s.reg i 2 ≤ used then s.bump 0x5801 9 1
  else
    let slot := s.reg i 5 % s.reg i 2
    let pay := s.reg i 3 + slot * s.reg i 4
    let e : Desc := BitVec.ofNat 512 (put 491 440 pay + put 423 392 bytes.length + put 391 328 s.now + put 327 296 pos
      + put 295 280 cnt + put 263 248 n + put 9 9 (boolNat stop) + put 8 8 (boolNat start) + put 7 0 0x31)
    let s := s.intakeWrite part pay bytes
    let s := s.intakeWrite part (s.reg i 1 + 64 * slot) (wordBytes e)
    let s := s.setReg i 5 (s.reg i 5 + 1)
    if 2 ^ 51 ≤ s.reg (0xB010 + (part + 1)) (6 + die) && !s.eventLinkUp then
      { s with host := { s.host with tails := s.host.tails.filter (· ≠ 16 * die + part) ++ [16 * die + part] } }
    else s.egressTail part die

/-- Egress of one piece of a chunk: its steps with their output words; steps of lead-in and pad frames are left out. The frames
carry the configuration of their activity, whose first entry is marked and starts the converters afresh. -/
def State.egress (s : State) (n : Nat) (steps : List (FrameInfo × List W32)) : State :=
  match steps.filter fun st => st.1.kind = 1 || st.1.kind = 2 with
  | [] => s
  | keep@((f, _) :: _) =>
    if icEgress f.cfg = 0 then s
    else
      let start : Bool := (s.intake n).sent ≠ f.act
      let s := if start then s.modIntake n fun x => { x with sent := f.act, outHist := [], outFrac := 0 } else s
      let (s, chans) := s.egressPiece n f.cfg (s.dm (seDomain (s.entry n)) 3) keep
      s.egressEntry n (icFormat f.cfg) chans start (keep.any fun st => st.1.last)

end Sys2Proof.Machine
end

