-- ==== Sys2Proof/Machine/Batches.lean ====
section
/-! DEFINITION. Step batches: formation, launch, staging, commit and outputs; the stack record's writes (06: R197 to R219). -/

namespace Sys2Proof.Machine

/-! ### Eligible chunks (R206, R207) -/

def insertChunk (c : Chunk) : List Chunk → List Chunk
  | [] => [c]
  | d :: l => if c.due < d.due || (c.due = d.due && c.stream < d.stream) then c :: d :: l else d :: insertChunk c l

/-- The first chunk of each stream bound to a stack that waits to be launched. -/
def State.headChunks (s : State) (n : Nat) : List Chunk :=
  s.strm.chunks.filter fun c =>
    let e := s.entry c.stream
    c.st = .queued && seStack e = n && seBusy e = busyIdle && ((s.chunksOf c.stream).head?.map fun x => x.id) = some c.id

/-- Eligible chunks of a stack by due_time; ties go to the lower stream. -/
def State.eligibleChunks (s : State) (n : Nat) : List Chunk :=
  ((s.headChunks n).filter fun c => seValid (s.entry c.stream) && c.inc = seInc (s.entry c.stream)).foldl
    (fun l c => insertChunk c l) []

/-- Chunks whose incarnation has passed end DISCARDED (R206). -/
def State.dropStale (s : State) (n : Nat) : State :=
  ((s.headChunks n).filter fun c => c.inc ≠ seInc (s.entry c.stream)).foldl (fun s c => s.discardChunk c 1) s

/-- The stack takes a batch: enabled, not halted, and the previous batch's invocations have ended on its layer-0 cores. After an
abort it takes none before its exchange area is cleared, which waits for every cancelled invocation (R217; log entry 67). A batch
waits while its group would be one of more than 4,096 undecided ones (R292). -/
def State.takesBatch (s : State) (n : Nat) : Bool :=
  s.top.dev = .serving && s.stk n 1 = 1 && s.stk n 20 = 0 && !s.strm.cancelled.contains n
    && !s.top.stopped.get (s.stkDie n) && s.groupRoom (s.stkDie n) && match (s.batches n).getLast? with
    | none => true
    | some b => b.launched && match s.job? b.job with
      | some j => (j.invs.take (s.firstCores n).length).all fun i => i.finished
      | none => true

def State.isResidentStack (s : State) (n : Nat) : Bool := s.stk n 10 = 1

/-- Streams of CISTERN residency bound to a stack, by column (R199). -/
def State.boundStreams (s : State) (n : Nat) : List Nat :=
  let l := (s.strm.entries.filter fun e => seValid e.2 && seStack e.2 = n && seRes e.2 = 1).map fun e => (sePtr e.2 % 256, e.1)
  (List.range 256).filterMap fun c => (l.find? fun x => x.1 = c).map fun x => x.2

/-- The chunks of the next batch: for a resident stack every bound stream's, in column order; else the class of the first
eligible one, up to W_b, once W_b are eligible or the window has ended (R199, R207). -/
def State.nextBatch (s : State) (n : Nat) (expired : Bool) : Option (List Chunk × Bool) :=
  let l := s.eligibleChunks n
  if s.isResidentStack n then
    let bound := s.boundStreams n
    let cs := bound.filterMap fun k => l.find? fun c => c.stream = k
    if bound.isEmpty || cs.length ≠ bound.length then none else some (cs, true)
  else match l with
    | [] => none
    | c :: _ =>
      let res := seRes (s.entry c.stream) < 2
      let same := l.filter fun x => decide (seRes (s.entry x.stream) < 2) = res
      let due := expired && c.ready + usCycles (s.stk n 19) ≤ s.now
      if s.stk n 4 ≤ l.length || due then some (same.take (s.stk n 4), res) else none

/-! ### Launch (R208, R209, R213) -/

/-- Column of row b of a batch: its stream's column in a resident stack, else its place in the batch. -/
def State.column (s : State) (n b : Nat) (r : BRow) : Nat := if s.isResidentStack n then r.ptr % 256 else b

/-- The row of a chunk at launch, with the reset that R193 makes. -/
def State.launchRow (s : State) (c : Chunk) : BRow :=
  let e := s.entry c.stream
  { chunk := c.id, stream := c.stream, gen := seGen e, ptr := sePtr e, res := seRes e, cur := seCur e, req := seReq e,
    resets := if seReq e = seAck e then c.resets else maskSet c.resets c.idle, dropped := false, came := [] }

/-- The reset mask (R127, R213): bit s × 256 + column; unbound columns of a resident stack reset at step 0. -/
def State.resetMask (s : State) (n : Nat) (rows : List BRow) : Row :=
  let t := s.stk n 3
  let cols := rows.zipIdx.map fun r => (s.column n r.2 r.1, r.1.resets)
  let bits := cols.flatMap fun c => (maskList t c.2).map fun k => 256 * k + c.1
  let free := if s.isResidentStack n then (List.range (s.stk n 4)).filter fun k => !cols.any fun c => c.1 = k else []
  BitVec.ofNat 4096 ((bits ++ free).foldl maskSet 0)

/-- Exchange place of row k of a block of state, for a column: the slice of core k ÷ slice_rows (R196). -/
def State.slicePlace (s : State) (n kind col k : Nat) : Nat × Nat :=
  let sr := max (s.stk n 9) 1
  s.xPlace n ((s.stkCores n).getD (k / sr) 0) kind (col * sr + k % sr)

/-- The slices of a block of state, as writes to exchange rows. -/
def State.sliceRows (s : State) (n col rows : Nat) (bs : List Byte) : List (Nat × Nat × List Byte) :=
  (List.range rows).map fun k =>
    let p := s.slicePlace n 1 col k
    let r := (bs.drop (512 * k)).take 512
    (p.1, p.2, r ++ List.replicate (512 - r.length) 0)

/-- The feature frame of a step of a chunk for a column, as writes for the layer-0 cores. -/
def State.featRows (s : State) (n col step : Nat) (bs : List Byte) : List (Nat × Nat × List Byte) :=
  let k := s.stk n 11
  (s.firstCores n).flatMap fun core => (List.range k).map fun i =>
    let p := s.xPlace n core 2 ((step * s.stk n 4 + col) * k + i)
    let r := (bs.drop (512 * i)).take 512
    (p.1, p.2, r ++ List.replicate (512 - r.length) 0)

/-- Read the feature frames of a chunk, step by step; idle steps have zero features. None where one cannot be read. -/
def State.readFeatures (s : State) (n part : Nat) (c : Chunk) (ue : List Nat) : State × Option (List (List Byte)) :=
  (List.range (s.stk n 3)).foldl (fun a k =>
    match a.2 with
    | none => a
    | some l =>
      if k < c.idle then (a.1, some (l ++ [[]]))
      else match a.1.readState part (a.1.ringAddr c.stream (c.first + k)) (512 * a.1.stk n 11) ue with
        | (s, some bs) => (s, some (l ++ [bs]))
        | (s, none) => (s, none)) (s, some [])

/-- Stage one row of a batch: its state slices and its features; a row whose staging read fails is dropped (R209). -/
def State.stageRow (s : State) (n part b : Nat) (c : Chunk) (r : BRow) (ue : List Nat) :
    State × BRow × List (Nat × Nat × List Byte) :=
  let col := s.column n b r
  let rows := seRows (s.entry r.stream)
  let a := blockAddr r.ptr rows r.cur
  let far := match s.place a with
    | .remote m x => some (m, x)
    | _ => none
  let (s, st) := if r.res = 1 then (s, some [])
    else match far with
      | some (m, x) =>
        if s.allows (some part) a (512 * rows) false then (s.stateMsgs r.stream 0 m x rows none, some []) else (s.unmapped, none)
      | none => s.readState part a (512 * rows) ue
  let (s, ft) := s.readFeatures n part c ue
  match st, ft with
  | some bs, some fs =>
    let slices := if r.res = 1 || far.isSome then [] else s.sliceRows n col rows bs
    (s, r, slices ++ fs.zipIdx.flatMap fun f => s.featRows n col f.2 f.1)
  | _, _ =>
    let zeros := if r.res = 1 then [] else s.sliceRows n col rows []
    (s.holdChunk c.id 2, { r with dropped := true }, zeros ++ (List.range (s.stk n 3)).flatMap fun k => s.featRows n col k [])

/-- Zero state and zero features for the columns that no row of the batch has (R199, R208). -/
def State.zeroRows (s : State) (n : Nat) (rows : List BRow) : List (Nat × Nat × List Byte) :=
  let cols := rows.zipIdx.map fun r => s.column n r.2 r.1
  let free := (List.range (s.stk n 4)).filter fun k => !cols.contains k
  let block := s.stk n 9 * (s.stkCores n).length
  free.flatMap fun k =>
    (if s.isResidentStack n then [] else s.sliceRows n k block []) ++ (List.range (s.stk n 3)).flatMap fun t => s.featRows n k t []

/-- Make the writes of a batch that find their exchange rows empty. -/
def State.pushStage (s : State) (n j : Nat) : State :=
  match (s.batches n).find? fun b => b.job = j with
  | none => s
  | some b =>
    let r := b.stage.foldl (fun (a : State × List (Nat × Nat × List Byte)) w =>
      if a.1.xWaits w.1 w.2.1 true || a.2.any (fun v => v.1 = w.1 && v.2.1 = w.2.1) then (a.1, a.2 ++ [w])
      else (a.1.xWrite w.1 w.2.1 w.2.2, a.2)) (s, [])
    r.1.modBatch n j fun x => { x with stage := r.2 }

/-- Start one invocation of every core's context, in the stack's core order. -/
def State.startBatch (s : State) (n j : Nat) : State :=
  let s := s.modBatch n j fun x => { x with launched := true }
  match s.job? j with
  | some b =>
    let s := b.invs.foldl (fun s i => s.queueInv j i.ctx) s
    b.invs.foldl (fun s i => s.kick (s.physOf (s.ctx i.ctx).core)) s
  | none => s

/-- Staging has ended: nothing waits for an exchange row, and no slice is awaited from another module. -/
def State.stageDone (s : State) (b : Batch) : Bool :=
  b.stage.isEmpty && !b.rows.any fun r => s.stateWaits r.stream 0

/-- Launch a batch; none where a listed core has no context of the stack (R198). -/
def State.launchBatch (s : State) (n : Nat) (cs : List Chunk) (resident : Bool) (ue : List Nat) : Option State :=
  let part := s.stk n 2
  let xs := (s.stkCores n).filterMap fun l => s.stkCtx n l
  if xs.length ≠ (s.stkCores n).length || xs.isEmpty then none
  else
    let j := s.nextJob
    let inv (x : Nat) : Invocation :=
      { job := j, ctx := x, argAddr := 0, resAddr := 0, argRows := 0, resRows := 0, argHandle := 0, resHandle := 0,
        loaded := true, finished := false, stored := true }
    let job := newJob j (part + 1) (s.stk n 16 % 16) 0 part 0 0 false (xs.map inv) (some n)
    let s := { s with jobs := s.jobs ++ [job], nextJob := j + 1 }
    let rows := cs.map fun c => s.launchRow c
    let s := cs.foldl (fun s c =>
      let s := (s.setBusy c.stream busyRunning).modChunk c.id fun x => { x with st := .running, waited := !resident }
      if resident then s
      else
        let s := s.modEntry c.stream fun e => setFld e 207 192 (satAdd 16 (seWaits e) 1)
        (s.bump 0x5000 6 1).bump (0x5010 + part) 3 1) s
    let mask := (s.stkCores n).map fun l =>
      let p := s.xPlace n l 0 0
      (p.1, p.2, wordBytes (s.resetMask n rows))
    let (s, g) := s.beginGroup (.stream n) (s.stkDie n) (some part)
    let b : Batch := { job := j, rows := [], resident := resident, stage := [], since := s.now, launched := false, wrote := false,
                       waited := false, own := g, grp := none, outs := [] }
    let s := s.setBatches n (s.batches n ++ [b])
    let r := (cs.zip rows).zipIdx.foldl (fun a x =>
      let t := a.1.stageRow n part x.2 x.1.1 x.1.2 ue
      (t.1, a.2.1 ++ [t.2.1], a.2.2 ++ t.2.2)) (s, ([] : List BRow), ([] : List (Nat × Nat × List Byte)))
    let s := r.1
    let all := mask ++ r.2.2 ++ s.zeroRows n rows
    let s := s.modBatch n j fun x => { x with rows := r.2.1, stage := all }
    let s := ((s.setStk n 21 (s.stk n 21 + 1)).bump 0x5000 10 1).bump 0x5000 11 cs.length
    let s := s.pushStage n j
    match (s.batches n).find? fun x => x.job = j with
    | some b => some (if resident && s.stageDone b then s.startBatch n j else s)
    | none => some s

/-- Chunks of a stack that lists a core without a context of it: nothing predicts what becomes of them (R12, R198; log entry 65).
They wait, or end ABORTED with a free cause. -/
def State.misLaunch (s : State) (cs : List Chunk) : State :=
  let w := (Config.freeValue s.free).toNat
  let s := { s with free := s.free + 1 }
  if w % 2 = 0 then s else cs.foldl (fun s c => s.holdChunk c.id (w / 2 % 4)) s

/-- Form and launch the next batch of a stack, where there is one. -/
def State.formBatch (s : State) (n : Nat) (expired : Bool) (ue : List Nat) : State :=
  if !s.takesBatch n then s
  else
    let s := s.dropStale n
    match s.nextBatch n expired with
    | none => s
    | some (cs, res) => (s.launchBatch n cs res ue).getD (s.misLaunch cs)

/-- BATCH_FORM. -/
def execBatchForm (n : Nat) (ue : List Nat) (s : State) : Host.Outcome State Fault Refusal :=
  .next (s.whenFetched fun s => s.formBatch n false ue)

/-- BATCH_WINDOW_EXPIRY: batch_window µs after the first chunk's ready_time fewer than W_b chunks suffice. -/
def execBatchWindowExpiry (n : Nat) (ue : List Nat) (s : State) : Host.Outcome State Fault Refusal :=
  .next (s.whenFetched fun s => s.formBatch n true ue)

/-- LAST_SLICE_STAGED: the oldest batch whose staging has ended starts (R220). -/
def execLastSliceStaged (n : Nat) (s : State) : Host.Outcome State Fault Refusal :=
  .next (match (s.batches n).find? fun b => !b.launched with
    | none => s
    | some b =>
      let s := s.pushStage n b.job
      match (s.batches n).find? fun x => x.job = b.job with
      | some b =>
        if !s.stageDone b then s
        else
          let s := if b.resident then s else s.bump 0x5000 7 (b.rows.length * cyclesNs (s.now - b.since))
          s.startBatch n b.job
      | none => s)

/-! ### Commit (R214 to R216) -/

/-- Pieces of a chunk's reported steps (R214): the steps at which they begin. -/
def pieceStarts (t idle resets : Nat) : List Nat :=
  (List.range t).filter fun k => k = idle || (idle < k && resets.testBit k)

/-- The pieces of a row, with their first output position. -/
def State.piecesOf (s : State) (n : Nat) (r : BRow) (idle pos : Nat) : List Piece :=
  let t := s.stk n 3
  let e := s.entry r.stream
  let starts := pieceStarts t idle r.resets
  starts.zipIdx.map fun k =>
    let stop := (starts.drop (k.2 + 1)).headD t
    let marks := (List.range (k.1 + 1)).filter fun i => idle ≤ i && r.resets.testBit i
    { utt := (seUtt e + marks.length) % 65536, counter := seCounter e, pos := (pos + (k.1 - idle)) % 2 ^ 32, first := k.1,
      len := stop - k.1, fresh := r.resets.testBit k.1 }

/-- Utterance after a chunk (R214). -/
def uttAfter (e : Desc) (t idle resets : Nat) : Nat :=
  (seUtt e + ((List.range t).filter fun i => idle ≤ i && resets.testBit i).length) % 65536

def State.chunkIdle (s : State) (r : BRow) : Nat := ((s.chunk? r.chunk).map fun c => c.idle).getD 0

/-- Rows of a batch that have not been dropped, with their columns. -/
def State.liveRows (s : State) (n : Nat) (b : Batch) : List (BRow × Nat) :=
  (b.rows.zipIdx.filter fun r => !r.1.dropped).map fun r => (r.1, s.column n r.2 r.1)

/-- Exchange rows that hold the new state of a row. -/
def State.stateOut (s : State) (n : Nat) (r : BRow × Nat) : List (Nat × Nat) :=
  if r.1.res = 1 then [] else (List.range (seRows (s.entry r.1.stream))).map fun k => s.slicePlace n 3 r.2 k

/-- Exchange rows that hold the output of a step of a row, on the last layer's first core. -/
def State.stepOut (s : State) (n col step : Nat) : List (Nat × Nat) :=
  (List.range (s.stk n 13)).map fun i => s.xPlace n ((s.lastCores n).headD 0) 4 ((step * s.stk n 4 + col) * s.stk n 13 + i)

/-- Step 1 of R215: the new state is written to the spare blocks. -/
def State.writeSpare (s : State) (n : Nat) (b : Batch) : State :=
  let part := s.stk n 2
  let s := (s.liveRows n b).foldl (fun s r =>
    if r.1.res = 1 then s
    else
      let x := s.xReadAll (s.stateOut n r)
      let rows := seRows (s.entry r.1.stream)
      (x.1.writeState r.1.stream 2 part (blockAddr r.1.ptr rows (1 - r.1.cur)) x.2).1) s
  s.modBatch n b.job fun x => { x with wrote := true }

/-- Output steps of a batch. -/
def State.outSteps (s : State) (n : Nat) (b : Batch) : Nat :=
  (s.liveRows n b).foldl (fun a r => a + (s.stk n 3 - s.chunkIdle r.1)) 0

/-- Step 2: copy the reported output steps to the ring, in batch-row order; the outputs are kept for egress. -/
def State.copyOutputs (s : State) (n : Nat) (b : Batch) : State :=
  let part := s.stk n 2
  let size := s.stk n 13 * 512
  let pos := SMap.get 0 s.strm.outPos n
  let r := (s.liveRows n b).foldl (fun a x =>
    let idle := a.1.chunkIdle x.1
    let y := (List.range (a.1.stk n 3)).foldl (fun c k =>
      if k < idle then (c.1, c.2.1, c.2.2 ++ [[]])
      else
        let o := c.1.xReadAll (c.1.stepOut n x.2 k)
        let at' := o.1.stk n 14 + c.2.1 % max (o.1.stk n 15) 1 * size
        ((o.1.writeMem part (some part) at' o.2).1, (c.2.1 + 1) % 2 ^ 32, c.2.2 ++ [o.2])) (a.1, a.2.1, ([] : List (List Byte)))
    (y.1, y.2.1, a.2.2 ++ [y.2.2])) (s, pos, ([] : List (List (List Byte))))
  r.1.modBatch n b.job fun x => { x with outs := r.2.2 }

/-- The two state handles of a context of a resident stack: the first two declared retain and not ro (R199; log entry 30). -/
def Ctx.stateHandles (x : Ctx) : Option (Nat × Nat) :=
  match x.decls.filter fun w => dclRetain w = 1 && dclRo w = 0 with
  | a :: b :: _ => some (x.hnd (dclHandle a), x.hnd (dclHandle b))
  | _ => none

/-- The groups that the commit of a batch decides together: the batch's own, then those of its job (R287, R303; log entry 67). -/
def State.batchGroups (s : State) (b : Batch) : List Group := (s.group? b.own).toList ++ s.jobGroups b.job

/-- Step 3: the batch's group takes its contents, and the groups with parts on both dies are prepared (R215, R304). -/
def State.commitGroup (s : State) (n : Nat) (b : Batch) : State :=
  let t := s.stk n 3
  let g := b.own
  let s := (s.liveRows n b).foldl (fun s r =>
    let e := s.entry r.1.stream
    s.addItem g (streamItem r.1.stream
      [(257, 257, 1 - r.1.cur), (359, 328, seCounter e + 1), (327, 312, uttAfter e t (s.chunkIdle r.1) r.1.resets),
       (263, 260, r.1.req), (256, 255, busyIdle)])) s
  let s := if b.resident && s.isResidentStack n then
      (s.stkCores n).foldl (fun s l =>
        match s.stkCtx n l with
        | some x => match (s.ctx x).stateHandles with
          | some (a, c) => s.addItem g (.swap (s.physOf l) x a c)
          | none => s
        | none => s) s
    else s
  let s := s.modBatch n b.job fun x => { x with grp := some g }
  (s.batchGroups b).foldl (fun s x => if x.phase = .begun && s.twoDie x then s.prepareGroup x else s) s

/-- FP32 words of bytes. -/
def wordsOf (bs : List Byte) : List W32 :=
  (List.range (bs.length / 4)).map fun i => BitVec.ofNat 32 (leNat ((bs.drop (4 * i)).take 4))

/-- Records and egress of the chunks of a batch that opens at a mark, and the end of those chunks (R215). The entries of the streams are
still those of before the commit. -/
def State.finishChunks (s : State) (n : Nat) (b : Batch) (mark : Nat) : State :=
  let part := s.stk n 2
  let t := s.stk n 3
  let last := (s.lastCores n).filterMap fun l => s.stkCtx n l
  let flags := ((((s.job? b.job).map fun j => j.outs).getD []).filter fun o => last.contains o.1).foldl (fun f o => f ||| o.2) 0
  let r := ((s.liveRows n b).zip b.outs).foldl (fun a x =>
    let s := a.1
    match s.chunk? x.1.1.chunk with
    | none => a
    | some c =>
      let ps := s.piecesOf n x.1.1 c.idle a.2
      let s := ps.foldl (fun s p => s.chunkRec c p 0 0 mark flags) s
      let s := if c.frames.isEmpty then s
        else ps.foldl (fun s p => s.egress c.stream ((List.range p.len).map fun i =>
          ((c.frames.getD (p.first + i - c.idle) ⟨0, false, 3, false, false, 0, 0, 0, 0⟩),
           wordsOf (x.2.getD (p.first + i) [])))) s
      let s := ((s.bump 0x5000 2 1).bump (0x5010 + part) 1 1).bump 0x5000 8
        ((List.range t).filter fun i => x.1.1.resets.testBit i).length
      ((s.releaseSlots c).dropChunk c.id, (a.2 + (t - c.idle)) % 2 ^ 32)) (s, SMap.get 0 s.strm.outPos n)
  { r.1 with strm := { r.1.strm with outPos := SMap.set 0 r.1.strm.outPos n r.2 } }

/-- The groups of a batch open with consecutive marks, and the batch ends COMPLETED (R215, R289, R303). -/
def State.openBatch (s : State) (n : Nat) : State :=
  match s.batches n with
  | [] => s
  | b :: l =>
    let gs := s.batchGroups b
    let s := s.finishChunks n b ((s.sl.lastMark + 1) % 2 ^ 48)
    let s := gs.foldl (fun s g => s.openGroup g) (s.setBatches n l)
    match s.job? b.job with
    | some j => ((s.sendVerdicts j 0).releasePins j.id).dropJob j.id
    | none => s

/-- Latch the decision of a batch whose groups have all been answered (R303, R304, R307): it asks for its marks. -/
def State.decideBatch (s : State) (n : Nat) : State :=
  match s.batches n with
  | [] => s
  | b :: _ =>
    let gs := s.batchGroups b
    if b.grp.isNone || gs.any (fun g => g.phase = .prepare || g.phase = .marking || g.phase = .queued) then s
    else if gs.any (fun g => g.broken || g.phase = .answered false || s.top.stopped.get g.die) then s.abortJob b.job (lossCause gs)
    else match s.askMarks gs (s.stkDie n = s.keeper) with
      | (s, true) => s.openBatch n
      | (s, false) => s

/-- The keeper assigns the marks that a batch has asked for, unless that stalls again. -/
def State.markBatch (s : State) (n : Nat) : State :=
  match s.batches n with
  | [] => s
  | b :: _ =>
    match s.askMarks (s.batchGroups b) true with
    | (s, true) => s.openBatch n
    | (s, false) => s

/-- The groups that a batch's invocations have staged are ready to open with it. -/
def State.batchGroupsReady (s : State) (j : Nat) : Bool := s.appliesDone j && !(s.jobGroups j).any fun g => g.broken

/-- The commit of a batch all of whose invocations have ended, as far as it can go now. -/
def State.commitBatch (s : State) (n : Nat) (b : Batch) : State :=
  let s := match s.job? b.job with
    | some j => if j.asked then s else s.askJobApplies b.job
    | none => s
  if (s.jobGroups b.job).any fun g => g.broken then s.abortJob b.job (lossCause (s.jobGroups b.job))
  else if !s.batchGroupsReady b.job then s
  else
    let live := s.liveRows n b
    if !b.wrote && (live.flatMap fun r => s.stateOut n r).any fun p => s.xWaits p.1 p.2 false then s
    else
      let s := if b.wrote then s else s.writeSpare n b
      if live.any fun r => s.stateWaits r.1.stream 2 then s
      else
        let used := (SMap.get 0 s.strm.outPos n + s.outSteps n b + 2 ^ 32 - s.stk n 22) % 2 ^ 32
        if s.stk n 15 < used then
          if b.waited then s
          else (s.setStk n 23 (s.stk n 23 + 1)).modBatch n b.job fun x => { x with waited := true }
        else
          let need := live.flatMap fun r => (List.range (s.stk n 3)).flatMap fun k =>
            if k < s.chunkIdle r.1 then [] else s.stepOut n r.2 k
          if need.any fun p => s.xWaits p.1 p.2 false then s
          else ((s.copyOutputs n b).commitGroup n b).decideBatch n

/-- out_head lies more than out_entries ahead of the output position (R216). -/
def State.headMisused (s : State) (n : Nat) : Bool :=
  let ahead := (s.stk n 22 + 2 ^ 32 - SMap.get 0 s.strm.outPos n) % 2 ^ 32
  s.stk n 15 < ahead && ahead < 2 ^ 31

/-- BATCH_COMMIT: under an out_head too far ahead the batch waits, or goes on as if the host had consumed every step (R12; log
entry 65). -/
def execBatchCommit (n : Nat) (s : State) : Host.Outcome State Fault Refusal :=
  match s.batches n with
  | [] => .next s
  | b :: _ =>
    let ended := match s.job? b.job with
      | some j => j.decision.isNone && j.invs.all fun i => i.finished
      | none => false
    if b.launched && ended && b.grp.isNone then
      let w := (Config.freeValue s.free).toNat
      .next (if !s.headMisused n then (s.commitBatch n b).settleOps
        else if w % 2 = 0 then { s with free := s.free + 1 }
        else (State.commitBatch (State.setStk { s with free := s.free + 1 } n 22 (SMap.get 0 s.strm.outPos n)) n b).settleOps)
    else .next s

/-- DEADLINE_MISS (R219). -/
def execDeadlineMiss (n : Nat) (s : State) : Host.Outcome State Fault Refusal := .next (s.missChunk n)

/-! ### The stack record (R197, R216) -/

/-- An accessor may write a stack's record (Table 11 of 13). -/
def State.ownsStack (s : State) (acc n : Nat) : Bool := isOwner acc || acc = s.stk n 2 + 1

/-- Store enable: 1 also clears halted. -/
def State.writeStackEnable (s : State) (n v : Nat) : State :=
  if v = 0 then s.setStk n 1 0 else (s.setStk n 1 1).setStk n 20 0

/-- Store out_base (0x0E) or out_entries (0x0F): out_head and the output position become 0. -/
def State.writeOutRing (s : State) (n sub v : Nat) : State :=
  let s := (s.setStk n sub v).setStk n 22 0
  { s with strm := { s.strm with outPos := SMap.erase s.strm.outPos n } }

end Sys2Proof.Machine
end

