-- ==== Sys2Proof/Machine/Partitions.lean ====
section
/-! DEFINITION. Partitions: creation, teardown, function-level reset, accounts and energy (12: R388 to R394, R414 to R418; 13:
R423). -/

namespace Sys2Proof.Machine

/-- State of a partition: 0 NONE, 1 ACTIVE, 2 TEARING_DOWN (R389). -/
def State.partState (s : State) (p : Nat) : Nat := s.reg (0x7010 + p) 1

/-- Set an entry back to its default. -/
def State.clearReg (s : State) (idx sub : Nat) : State := { s with regs := SMap.erase s.regs (dkey idx sub) }

def State.clearRegs (s : State) (l : List (Nat × Nat)) : State := l.foldl (fun s e => s.clearReg e.1 e.2) s

/-! ### Creation (R389, R418) -/

/-- The per-partition counters of every range, and the partition's account. -/
def partCounters (p : Nat) : List (Nat × Nat) :=
  ((List.range 6).map fun k => (0x4010 + p, k + 1)) ++ [(0x4810 + p, 2)]
    ++ ((List.range 4).map fun k => (0x5010 + p, k + 1)) ++ ((List.range 4).map fun k => (0x6020 + p, k + 1))
    ++ ((List.range 3).map fun k => (0x6820 + p, k + 1)) ++ [(0x7010 + p, 11), (0x7010 + p, 12)]
    ++ (List.range 16).map fun k => (0x7810 + p, k + 1)

/-- The other entries that the chapters clear when their partition is created: the partition seed (03, dictionary) and the
ring entries of both dies (07, dictionary). -/
def partSettings (p : Nat) : List (Nat × Nat) :=
  (0x4810 + p, 1) :: [0, 1].flatMap fun d =>
    ((List.range 3).map fun k => (0x5880 + 2 * p + d, k + 1)) ++ (List.range 5).map fun k => (0x58A0 + 2 * p + d, k + 1)

/-- CREATE: a NONE partition becomes ACTIVE; on another one it is ignored. -/
def State.createPartition (s : State) (p : Nat) : State :=
  if 16 ≤ p || s.partState p ≠ 0 then s
  else
    let s := (s.clearRegs (partCounters p ++ partSettings p)).setReg (0x7010 + p) 1 1
    let clear (l : SMap Nat) : SMap Nat := SMap.erase (SMap.erase l (2 * p)) (2 * p + 1)
    { s with strm := { s.strm with ingress := clear s.strm.ingress, egress := clear s.strm.egress } }

/-! ### Teardown (R390) -/

/-- Contexts of a partition that are not FREE. -/
def State.partCtxs (s : State) (p : Nat) : List Nat :=
  (s.ctxs.filter fun q => q.2.st ≠ .free && q.2.part = p).map fun q => q.1

/-- Stacks of a partition. -/
def State.partStacks (s : State) (p : Nat) : List Nat := (List.range 32).filter fun n => s.stk n 2 = p

/-- Discard the open dictionary sluice of an accessor with a status (R318). -/
def State.dropSluice (s : State) (acc status : Nat) : State :=
  match s.sluiceOpen acc with
  | none => s
  | some d =>
    let s := if acc ≤ 16 && (s.group? d.grp).any (fun x => x.issuer = .dict acc) then
        s.setMailbox acc { s.mailbox acc with status := drDone }
      else s
    let s := s.discardGroup d.grp
    let s := { s with sl := { s.sl with dicts := SMap.set none s.sl.dicts acc none } }
    (s.setAreg acc 0x1110 4 status).setAreg acc 0x1110 6 0

/-- Groups of a teardown that have not opened. -/
def State.tearing (s : State) (p : Nat) : Bool :=
  s.sl.groups.any fun g => g.issuer = .command && g.part = some p && g.after.isNone

/-- Valid streams bound to a stack. -/
def State.stackStreams (s : State) (n : Nat) : List Nat :=
  (s.strm.entries.filter fun e => seValid e.2 && seStack e.2 = n).map fun e => e.1

/-- Step 3: the stacks stop, and their streams are deleted with the cause partition teardown, in one group a die (R222). -/
def State.tearStreams (s : State) (p : Nat) : State :=
  let ns := s.partStacks p
  let s := ns.foldl (fun s n => s.setStk n 1 0) s
  let l := ns.flatMap fun n => s.stackStreams n
  let s := l.foldl (fun s n => s.clearStream n 3) s
  let mine (x : MoveOp) : Bool := l.contains x.stream
  let s := (s.strm.moves.filter mine).foldl (fun s m => s.complete m.fn m.queue m.desc m.head stKilled) s
  let s := { s with strm := { s.strm with moves := s.strm.moves.filter fun m => !mine m } }
  [0, 1].foldl (fun s d =>
    let k := l.filter fun n => streamDie n = d
    if k.isEmpty then s
    else
      let (s, g) := s.beginGroup .command d (some p)
      (k.foldl (fun s n => s.addItem g (streamItem n [(254, 254, 0)])) s).decideGroup g) s

/-- Step 4: the pins are released, and the open dictionary sluice is discarded. -/
def State.tearPins (s : State) (p : Nat) : State :=
  let s := (s.letGo fun _ x => x.owner = p).prune
  s.dropSluice (p + 1) 6

/-- Valid tables that a partition owns. -/
def State.ownTables (s : State) (p : Nat) : List Nat :=
  (s.tab.desc.filter fun q => tdValid (s.table q.1) && tdOwner (s.table q.1) = p).map fun q => q.1

/-- Step 5: one group clears valid in every table that the partition owns. -/
def State.tearTables (s : State) (p : Nat) : State :=
  let ts := s.ownTables p
  if ts.isEmpty then s
  else
    let (s, g) := s.beginGroup .command 0 (some p)
    (ts.foldl (fun s t => s.addItem g (.table t (setFld (s.table t) 162 162 0))) s).decideGroup g

/-- Step 6, and the end of the teardown. -/
def State.tearEnd (s : State) (p : Nat) : State :=
  if s.tearing p then s
  else
    let i := 0x7010 + p
    let s := s.clearRegs [(i, 2), (i, 5), (i, 6), (i, 9), (i, 10), (i, 1)]
    { s with blobs := SMap.erase s.blobs (dkey i 4) }

/-- The steps of a teardown that can be taken now, in order: those after step 2 wait until every context is FREE, and those after a
step whose groups have still to open wait for them. -/
def State.tearGo (s : State) (p : Nat) : State :=
  if s.partState p ≠ 2 || !(s.partCtxs p).isEmpty || s.tearing p then s
  else
    let s := s.tearStreams p
    if s.tearing p then s else ((s.tearPins p).tearTables p).tearEnd p

/-- Every teardown goes on as far as it can. -/
def State.tearSettle (s : State) : State := (List.range 16).foldl State.tearGo s

/-- Steps 1 and 2 of a teardown: the queues stop, and every context is killed. -/
def State.tearDown (s : State) (p : Nat) : State :=
  if 16 ≤ p || s.partState p ≠ 1 then s
  else
    let s := s.setReg (0x7010 + p) 1 2
    let s := (List.range 16).foldl (fun s q => s.writeEnable (p + 1) q 0) s
    let s := (s.partCtxs p).foldl (fun s x => s.killCtx x) s
    s.settleOps.tearGo p

/-- ZERO_FILL_COMPLETE (R188). -/
def execZeroFillComplete (x : Nat) (s : State) : Host.Outcome State Fault Refusal :=
  .next (if (s.ctx x).st = .killing then (s.releaseCtx x).settleOps.tearSettle else s)

/-! ### Function-level reset (R423) -/

/-- Descriptors not yet dispatched whose record is their own: not a chunk's, nor a linked job's after the first (R434). -/
def ownDescs : Bool → List Desc → List Desc
  | _, [] => []
  | linked, d :: l =>
    let next := descKind d = 1 && jbLink d
    (if linked || descKind d = 5 then [] else [d]) ++ ownDescs next l

/-- Each descriptor of a queue pair that has its own record completes with status killed: those fetched, and those that
p's state has read after them. -/
def State.endDescs (fetched : List Desc) (f q : Nat) (p : State × Option (List Desc)) : State :=
  (ownDescs false (fetched ++ p.2.getD [])).foldl (fun s d =>
    (s.bump (pairIdx f q) 14 1).complete f q d (s.qp f q 12) stKilled) p.1

/-- Every descriptor of a pair not yet dispatched, fetched or still in its ring, completes with status killed. -/
def State.killQueued (s : State) (f q : Nat) : State :=
  let fetched := (s.pair f q).fetched
  let s := State.endDescs fetched f q (s.readDescs f q (s.qp f q 12 + fetched.length) (s.unfetched f q) [])
  (s.setPair f q { s.pair f q with fetched := [] }).setQp f q 8 0

/-- The jobs of a function complete with status killed. -/
def State.killJobs (s : State) (f : Nat) : State :=
  (s.jobs.filter fun b => b.fn = f && b.stack.isNone && !b.silent).foldl (fun s b =>
    (s.produce (s.jobRecord b stKilled 0)).modJob b.id fun x => { x with silent := true }) s

/-- The commands of a function that wait complete with status killed; what a group of theirs has staged is discarded unless
its mark has been asked for. -/
def State.killWaiting (s : State) (f : Nat) : State :=
  let s := (s.ctxOps.filter fun o => o.fn = f).foldl (fun s o => s.endOp o stKilled) s
  let w := s.tab.waiting.filter (fun x => x.1 = f) ++ s.strm.waiting.filter fun x => x.1 = f
  let s := w.foldl (fun s x => s.complete f x.2.1 x.2.2.2 x.2.2.1 stKilled) s
  let m := s.strm.moves.filter fun x => x.fn = f
  let s := m.foldl (fun s x =>
    (s.setBusy x.stream (if x.held then busyHeld else busyIdle)).complete f x.queue x.desc x.head stKilled) s
  let s := { s with
    tab := { s.tab with waiting := s.tab.waiting.filter fun x => x.1 ≠ f },
    strm := { s.strm with waiting := s.strm.waiting.filter (fun x => x.1 ≠ f), moves := s.strm.moves.filter fun x => x.fn ≠ f } }
  let mine (g : Group) : Bool := match g.after with
    | some r => r.fn = f
    | none => false
  (s.sl.groups.filter mine).foldl (fun s g =>
    let s := match g.after with
      | some r => s.produce { r with status := stKilled, result := 0 }
      | none => s
    if g.phase = .marking then s.modGroup g.id fun x => { x with after := none } else s.discardGroup g.id) s

/-- Write the records of a pair that its CQ has room for; the first argument is the fuel. -/
def State.flushPair : Nat → State → Nat → Nat → State
  | 0, s, _, _ => s
  | fuel + 1, s, f, q =>
    let mine (r : CRec) : Bool := r.fn = f && r.queue = q
    let used := (s.qp f q 13 + 2 ^ 32 - (s.pair f q).cqHead) % 2 ^ 32
    if s.qp f q 4 ≤ used then s
    else
      let d := s.qp f q 7
      match takeFirst mine (s.host.accepted.get d) with
      | some (r, l) => State.flushPair fuel (State.postRec { s with host := { s.host with accepted := s.host.accepted.set d l } } f q r) f q
      | none => match takeFirst mine (s.host.made.get d) with
        | some (r, l) =>
          if s.markPassed r then
            State.flushPair fuel (State.postRec { s with host := { s.host with made := s.host.made.set d l } } f q r) f q
          else s
        | none => s

/-- The records of a pair are written, with the producer index, before its entries return to their defaults; what its CQ
has no room for is lost with the reset (log entry 31). -/
def State.resetPair (s : State) (f q : Nat) : State :=
  let mine (r : CRec) : Bool := r.fn = f && r.queue = q
  let n := ((s.host.made.d0 ++ s.host.made.d1 ++ s.host.accepted.d0 ++ s.host.accepted.d1).filter mine).length
  let s := if n = 0 then s
    else
      let s := State.flushPair n s f q
      (s.writeMem (fnAcct f) (fnPart f) (s.qp f q 5) (leBytes 4 (s.qp f q 13))).1
  let cut (l : List CRec) : List CRec := l.filter fun r => !mine r
  let s := { s with host := { s.host with
    made := ⟨cut s.host.made.d0, cut s.host.made.d1⟩, accepted := ⟨cut s.host.accepted.d0, cut s.host.accepted.d1⟩ } }
  (s.clearRegs ((List.range 16).map fun k => (pairIdx f q, k + 1))).setPair f q QPair.init

/-- The reset of a function's own entries. -/
def State.resetFn (s : State) (f : Nat) : State :=
  let s := (List.range 16).foldl (fun s q => s.killQueued f q) s
  let s := s.killJobs f
  let s : State := match fnPart f with
    | some p => (s.partCtxs p).foldl (fun s x => s.killCtx x) s
    | none => s
  let s := (s.killWaiting f).dropSluice f 6
  let s := (List.range 16).foldl (fun s q => s.resetPair f q) s
  let s := s.clearRegs ((List.range 8).map fun k => (0xB010 + f, k + 1))
  { s with host := { s.host with
    eventProd := SMap.set 0 s.host.eventProd f 0, msixMask := SMap.set msixReset s.host.msixMask f msixReset,
    msixPending := SMap.set 0 s.host.msixPending f 0, msixCtl := SMap.set 0 s.host.msixCtl f 0,
    d3hot := maskClear s.host.d3hot f, events := s.host.events.filter fun x => x.1 ≠ f } }

/-- FUNCTION_LEVEL_RESET: of the PF, every ACTIVE partition is torn down first. -/
def execFunctionLevelReset (f : Nat) (s : State) : Host.Outcome State Fault Refusal :=
  .next (s.whenFetched fun s =>
    let s := if f = 0 then (List.range 16).foldl (fun s p => s.tearDown p) s else s
    (s.resetFn f).settleOps.tearSettle)

/-! ### Accounts (R414 to R416) -/

/-- The counters .01 to .10 of an account, in subindex order. -/
def State.accountOf (s : State) (a : Nat) : List Nat := (List.range 16).map fun k => s.reg (0x7810 + a) (k + 1)

/-- Whole mJ in a share, in per cent, of an energy in units of 10^-4 mJ. -/
def energyShare (pct e : Nat) : Nat := pct * e / 1000000

/-- What an estimate gives the accounts, from the energies of their activity, the static and idle energy, and the input energy of the
window in units of 10^-4 mJ: the 17 accounts together stay within 3 % of the input, so what is beyond that is cut from each account
in proportion, and the system account takes the rest (R415; log entry 11). -/
def energyShares (raw : List Nat) (idle e : Nat) : List Nat :=
  let hi := energyShare 103 e
  let dyn := if raw.sum ≤ hi then raw else raw.map fun x => x * hi / raw.sum
  let rest := min (max idle (energyShare 97 e + 1 - dyn.sum)) (hi - dyn.sum)
  dyn.zipIdx.map fun x => if x.2 = 16 then x.1 + rest else x.1

/-- ENERGY_ESTIMATE, every 100 µs: the energy of each account rises by an estimate from its activity since the last one, and the static
and idle energy goes to the system account (R415; log entry 11). -/
def execEnergyEstimate (s : State) : Host.Outcome State Fault Refusal :=
  .next (
    let s := s.busyAll
    let rise (a : Nat) : List Nat := (s.accountOf a).zipIdx.map fun c => c.1 - (SMap.get [] s.pow.acctSeen a).getD c.2 0
    let raw := (List.range 17).map fun a => Config.energyOf (rise a) (BitVec.ofNat 32 (s.reg 0x7800 5))
    let given := energyShares raw (Config.idleEnergy s.free) (s.reg 0x2010 3)
    let seen := (List.range 17).foldl (fun m a => SMap.set [] m a (s.accountOf a)) s.pow.acctSeen
    let s := (List.range 17).foldl (fun s a => s.charge a 14 (given.getD a 0)) s
    { s with free := s.free + 1, pow := { s.pow with
        acctSeen := seen, energyGiven := s.pow.energyGiven + given.sum, energyIn := s.pow.energyIn + s.reg 0x2010 3 } })

/-- ENERGY_CALIBRATION, every 10 s: the DMC compares what the accounts have been given since the last one with the input energy measured
since, and rescales the coefficients (R415; log entry 11). -/
def execEnergyCalibration (s : State) : Host.Outcome State Fault Refusal :=
  .next (
    let k := Config.energyScale s.pow.energyGiven (s.pow.energyIn / 10000) (BitVec.ofNat 32 (s.reg 0x7800 5))
    State.setReg { s with pow := { s.pow with energyGiven := 0, energyIn := 0 } } 0x7800 5 k.toNat)

/-- An accessor's own copy of an STR or BLOB entry (R441). -/
def State.ablob (s : State) (acc idx sub : Nat) : List Byte := SMap.get (blobDefault (dkey idx sub)) s.blobs (akey acc idx sub)

def State.setAblob (s : State) (acc idx sub : Nat) (v : List Byte) : State :=
  { s with blobs := SMap.set (blobDefault (dkey idx sub)) s.blobs (akey acc idx sub) v }

/-- Latch every counter of an account, with P and the control cycle of die 0, for an accessor (R416). -/
def State.takeSnapshot (s : State) (acc a : Nat) : State :=
  let s := s.busyAll
  let s := s.setAblob acc 0x7800 2 ((s.accountOf a).flatMap fun v => leBytes 8 v)
  (s.setAreg acc 0x7800 3 (s.p 0)).setAreg acc 0x7800 4 s.now

end Sys2Proof.Machine
end

