-- ==== Sys2Proof/Machine/FabricMsg.lean ====
section
/-! DEFINITION. The messages that arrive over Quiwen Link, and those that find no way out (11: R378 to R385; 09: R309, R312,
R313; 08: R259, R267). -/

namespace Sys2Proof.Machine

/-! ### Groups opened on arrival (R312, R313) -/

/-- The group belongs to the refresh receiver, or to a remote write: it opens once it is staged. -/
def State.onArrival (s : State) (g : Group) : Bool :=
  match g.issuer with
  | .refresh => true
  | .home _ _ => !s.sl.turns.any fun t => t.grp = g.id
  | _ => false

/-- The group holds a remote write. -/
def State.remoteWrite (s : State) (g : Group) : Bool :=
  match g.issuer with
  | .home _ _ => s.onArrival g
  | _ => false

/-- Remote writes open in the order of their arrival: one waits while an earlier one has not opened (R312). -/
def State.behindWrite (s : State) (g : Group) : Bool :=
  s.remoteWrite g && (s.sl.groups.takeWhile fun x => x.id ≠ g.id).any fun x => s.remoteWrite x

/-- Open what has been staged. -/
def State.openArrived (s : State) : State :=
  s.sl.groups.foldl (fun s g =>
    match s.group? g.id with
    | some x => if s.onArrival x && x.phase = .begun && s.staged x.id && !s.behindWrite x then s.decideGroup x.id else s
    | none => s) s

/-! ### Failed messages (R378, R383, R326) -/

/-- How an exchange failed: with a response of status unmapped or denied, with one of status uncorrectable, or with no way
to the destination. -/
inductive Failure where
  | unmapped
  | lost
  | unreachable
  deriving DecidableEq, Repr

def failureOf (status : Nat) : Option Failure :=
  if status = 0 then none else if status = 2 then some .lost else some .unmapped

/-- A refused access is counted as an unmapped one (R383). -/
def State.noteFailure (s : State) (f : Failure) : State := if f = .unmapped then s.unmapped else s

/-- The error or the fault bit of a token (R147, R328). -/
def State.tokenFails (s : State) (p t : Nat) (f : Failure) : State := if f = .unmapped then s.tokenFault p t else s.tokenError p t

/-- The batch of a stack whose rows hold a stream, in a phase of its run. -/
def State.batchWith (s : State) (n : Nat) (launched : Bool) : Option Batch :=
  (s.batches (seStack (s.entry n))).find? fun b => decide (b.launched = launched) && b.rows.any fun r => r.stream = n && !r.dropped

/-- The staging read of a row fails: it is dropped from its batch, and its column is staged as zeros, also where its slices and
features have been staged already (R209). -/
def State.dropRow (s : State) (n : Nat) : State :=
  match s.batchWith n false with
  | none => s
  | some b =>
    let k := seStack (s.entry n)
    let hit := (b.rows.zipIdx.find? fun r => r.1.stream = n)
    match hit with
    | none => s
    | some (r, i) =>
      let col := s.column k i r
      let zeros := s.sliceRows k col (seRows (s.entry n)) []
      let here := (zeros.zipIdx.filter fun z => r.came.contains z.2).map (fun z => z.1)
        ++ (List.range (s.stk k 3)).flatMap fun t => s.featRows k col t []
      let fresh := (zeros.zipIdx.filter fun z => !r.came.contains z.2).map fun z => z.1
      let blank (w : Nat × Nat × List Byte) : Nat × Nat × List Byte :=
        if here.any fun z => z.1 = w.1 && z.2.1 = w.2.1 then (w.1, w.2.1, List.replicate 512 0) else w
      let done := here.filter fun z => !b.stage.any fun w => w.1 = z.1 && w.2.1 = z.2.1
      let s := done.foldl (fun s z => if s.beyond z.2.1 then s else s.putResv z.1 (512 * z.2.1) z.2.2) s
      let cut (x : BRow) : BRow := if x.stream = n then { x with dropped := true } else x
      let s := s.holdChunk r.chunk 2
      s.modBatch k b.job fun x => { x with rows := x.rows.map cut, stage := x.stage.map blank ++ fresh }

/-- The copy of a stream's MOVE has failed. -/
def State.failMove (s : State) (n : Nat) : State :=
  let f (x : MoveOp) : MoveOp := if x.stream = n then { x with failed := true } else x
  { s with strm := { s.strm with moves := s.strm.moves.map f } }

/-- The commit write of a stream has not been acknowledged: the batch is aborted (R217, R378). -/
def State.failCommit (s : State) (n : Nat) : State :=
  match s.batchWith n true with
  | some b => s.abortJob b.job 6
  | none => s

/-- Bytes for row i of a DMV item. -/
def State.dmvArrives (s : State) (p k i : Nat) (bs : List Byte) (f : Option Failure) : State :=
  match (s.core p).dmv.find? fun x => x.id = k with
  | none => s
  | some it =>
    let s := match f with
      | some f => s.tokenFails p it.token f
      | none => s.charge it.part 11 bs.length
    match f with
    | none =>
      let (s, bs) := s.dmvConvert it i bs
      s.dmvWrite p it i bs []
    | some .unmapped =>
      let (s, bs) := s.dmvConvert it i zeroRow
      s.dmvWrite p it i bs []
    | some _ => s.dmvWrite p it i zeroRow []

/-- An exchange that this module began has failed (Table 9 of 11). -/
def State.failUse (s : State) (o : OutMsg) (f : Failure) (up : Upsets := ⟨[], []⟩) : State :=
  let s := s.noteFailure f
  match o.use with
  | .row p k =>
    let s := match (s.core p).thread? k with
      | some (_, g) => if f = Failure.unmapped then s.tokenFault p g.tok else s
      | none => s
    s.rowArrives p k none up
  | .parcel p k =>
    let s := match (s.core p).thread? k with
      | some (_, g) => if f = Failure.unreachable then s.tokenError p g.tok else s
      | none => s
    s.scatterDone p k 0 up
  | .dmv p k =>
    if o.msg.kind = 0x0B then s.dmvArrives p k o.msg.row [] (some f)
    else match (s.core p).dmv.find? fun x => x.id = k with
      | some it => s.tokenFails p it.token f
      | none => s
  | .jobWrite j => ((s.modJob j fun b => { b with remoteFault := true }).tryFinish j).settleOps
  | .result j => ((s.modJob j fun b => { b with storeFault := true }).tryFinish j).settleOps
  | .load j _ _ => (s.abortJob j 8).settleOps
  | .rowCmd g => s.failRowCmd g (if f = .unreachable then stFault else stNoSpace)
  | .state n 0 => s.dropRow n
  | .state n 1 => s.failMove n
  | .state n _ => (s.failCommit n).settleOps
  | .fetch a n => (s.fetchPart a n o.msg.row (if f = .unmapped then 1 else 2) []).settleOps
  | .refresh => s
  | .verdict => s
  | .report _ => s
  | .none => s

/-- Counts of a message found unreachable (Table 9 of 11). -/
def State.countUnreachable (s : State) (m : FabMsg) : State :=
  let s := s.bump 0x8003 5 1
  if m.kind = 0x08 || m.kind = 0x09 || m.kind = 0x0A then s.bump 0x8003 6 1 else s

/-- The message finds no valid route, or no UP link in its trunk. -/
def State.noWay (s : State) (o : OutMsg) : Bool :=
  o.dead || match o.use, s.routeTrunk o.msg.dst with
    | .report e, _ => (s.otherLink e).isNone
    | _, none => true
    | _, some t => (s.pickLink t o.msg (vcOf o.msg (s.datelineBit o t))).isNone

/-- FABRIC_TIMEOUT: a message that still waits after fabric_timeout is unreachable. -/
def execFabricTimeout (id : Nat) (s : State) : Host.Outcome State Fault Refusal :=
  .next (match s.fab.waiting.find? fun o => o.id = id with
    | none => s
    | some o =>
      if neverTimesOut o.msg || !s.noWay o || (!o.dead && s.now < o.since + usCycles (s.reg 0x8000 3)) then s
      else
        let s := { s with fab := Fabric.leave { s.fab with waiting := s.fab.waiting.filter fun x => x.id ≠ id } o }
        let s := s.countUnreachable o.msg
        (if o.own then s.failUse o .unreachable else s).releaseHolds)

/-! ### Serving (R379 to R383) -/

/-- The local address lies in a fabric window that names the source and allows the access (R383). -/
def State.fabricAllows (s : State) (src a n : Nat) (write : Bool) : Bool :=
  (List.range 16).any fun i =>
    let w := 0x8060 + i
    s.reg w 1 ≤ a && a + n ≤ s.reg w 1 + s.reg w 2 && maskBit (s.reg w 3) src && maskBit (s.reg w 4) (boolNat write)

/-- Status with which an access to a local address is refused: 3 denied, 1 unmapped; 0 where it is served. -/
def State.servedStatus (s : State) (src a n : Nat) (write : Bool) : Nat :=
  if !s.fabricAllows src a n write then 3
  else match s.localPlace a, s.localPlace (a + n - 1) with
    | .range u _, .range v _ => if u = v then 0 else 1
    | _, _ => 1

/-- Answer a request with an error status. -/
def State.refuseMsg (s : State) (m : FabMsg) (kind status : Nat) : State :=
  let s := if status = 3 then s.bump 0x8003 7 1 else s
  s.send (m.reply s.me kind status) .none

/-- Answer a request with data. -/
def State.serveData (s : State) (m : FabMsg) (kind mark : Nat) (bs : List Byte) : State :=
  (s.charge 16 10 bs.length).send { m.reply s.me kind 0 with mark := mark, data := bs } .none

/-- Row of a table at an address, by the home's own descriptor. -/
def rowOfAddr (d : Desc) (a : Nat) : Option Nat :=
  let S := tdStride d
  if tdValid d && S ≠ 0 && tdBase d ≤ a && (a - tdBase d) % S = 0 && (a - tdBase d) / S < tdRows d then some ((a - tdBase d) / S)
  else none

/-- The replica of a row on this module, with its die (R314). -/
def State.ownReplica (s : State) (t r : Nat) : Option (Nat × List Byte × Nat) :=
  ([0, 1] : List Nat).findSome? fun d => ((s.dirNow d t r).bind fun e => e.replica).map fun x => (d, x.1, x.2)

/-- Serve a peer read of a replica. -/
def State.serveReplica (s : State) (m : FabMsg) (r : Nat) (lost : List Nat) : State :=
  match s.ownReplica m.table r with
  | none => s.refuseMsg m 0x02 1
  | some (d, bs, k) =>
    let (s, bad) := s.resvCheck d 1 none lost
    if bad then s.refuseMsg m 0x02 2 else s.serveData m 0x02 k bs

/-- Serve a remote row read as home: the newest committed version, from the write set of the row's home die, else from
memory (R259). -/
def State.serveRow (s : State) (m : FabMsg) (d : Desc) (r : Nat) (lost : List Nat) : State :=
  let h := s.homeDie d r
  match s.newestVisible h m.table r false s.sl.lastMark with
  | some v =>
    let (s, bad) := s.resvCheck h 2 none lost
    if bad then s.refuseMsg m 0x02 2 else s.serveData m 0x02 (v.mark.getD 0) v.data
  | none =>
    let (s, o) := s.readMem 16 none (s.homeAddr m.table r) (tdStride d) true lost
    if o.refused then s.refuseMsg m 0x02 1
    else if !o.lost.isEmpty then s.refuseMsg m 0x02 2
    else s.serveData m 0x02 (s.homeMarkOf m.table r) o.bytes

/-- ROW_READ, with the units whose read is uncorrectable. The home's fabric windows come first (R379, R383). -/
def execRowRead (m : FabMsg) (lost : List Nat) (s : State) : Host.Outcome State Fault Refusal :=
  .next (s.whenFetched fun s =>
    let s := s.consumeMsg m
    let d := s.table m.table
    let row := rowOfAddr d m.addr
    if m.flags % 2 = 1 then
      match row with
      | some r => s.serveReplica m r lost
      | none => s.refuseMsg m 0x02 1
    else if !s.fabricAllows m.src m.addr (tdStride d) false then s.refuseMsg m 0x02 3
    else match row with
      | some r => if tdHome d = s.me then s.serveRow m d r lost else s.refuseMsg m 0x02 1
      | none => s.refuseMsg m 0x02 1)

/-- READ: whole rows of 512 B, with the units whose read is uncorrectable (R339, R382, R383). -/
def execRead (m : FabMsg) (lost : List Nat) (s : State) : Host.Outcome State Fault Refusal :=
  .next (
    let s := s.consumeMsg m
    let st := s.servedStatus m.src m.addr m.count false
    if st ≠ 0 then s.refuseMsg m 0x0D st
    else
      let (s, o) := s.readMem 16 none m.addr m.count false lost
      if o.refused then s.refuseMsg m 0x0D 1
      else if !o.lost.isEmpty then s.refuseMsg m 0x0D 2
      else s.serveData m 0x0D 0 o.bytes)

/-- WRITE: staged in a group of the home's sluice controller, opened on arrival, and acknowledged (R312). -/
def execWrite (m : FabMsg) (s : State) : Host.Outcome State Fault Refusal :=
  .next (
    let s := s.consumeMsg m
    let st := s.servedStatus m.src m.addr m.data.length true
    if st ≠ 0 then s.refuseMsg m 0x11 st
    else
      let die := s.blockDie 0 m.addr
      let (s, g) := (s.charge 16 11 m.data.length).beginGroup (.home m.step m.src) die none
      let s := (s.stageBlock g die 16 m.addr m.data none).openArrived
      s.send (m.reply s.me 0x11 0) .none)

/-! ### Replicas of rows of other modules (R313, R381) -/

/-- REFRESH: a version under a local mark, in the write set of the die that holds the replica. -/
def execRefresh (m : FabMsg) (s : State) : Host.Outcome State Fault Refusal :=
  .next (
    let s := (s.consumeMsg m).charge 16 11 m.data.length
    let s := match s.ownReplica m.table m.row with
      | none => s
      | some (d, _) =>
        let (s, g) := s.beginGroup .refresh d none
        let v : Version := { grp := g, mark := none, table := m.table, row := m.row, state := false, data := m.data, home := 2,
                             copy := false, sent := some m.mark, span := none, wrote := [] }
        (s.stage d 16 [(d, v)] []).openArrived
    s.send (m.reply s.me 0x11 0) .none)

/-- The die takes a further replica of a table (R264, R393). -/
def State.replicaFits (s : State) (d t n : Nat) : Bool :=
  s.replicaUsed d + s.stagedUse d (fun _ => true) + n + 32 ≤ 2 ^ 20 * s.reg 0x6000 2 && s.quotaFits (s.ownerOf t) d (n + 32)

/-- REPLICA_INSTALL: the slot lies on either die that has room; without room the answer refuses it (R266). -/
def execReplicaInstall (m : FabMsg) (s : State) : Host.Outcome State Fault Refusal :=
  .next (
    let s := (s.consumeMsg m).charge 16 11 m.data.length
    let first := (Config.freeValue s.free).toNat % 2
    let s := { s with free := s.free + 1 }
    match (s.ownReplica m.table m.row), ([first, 1 - first].find? fun d => s.replicaFits d m.table m.data.length) with
    | some _, _ => s.send (m.reply s.me 0x11 0) .none
    | none, none => s.send (m.reply s.me 0x11 1) .none
    | none, some d =>
      let (s, g) := s.beginGroup .refresh d none
      let s := (s.addItem g (.replica d m.table m.row m.data m.mark)).openArrived
      s.send (m.reply s.me 0x11 0) .none)

/-- REPLICA_REMOVE. -/
def execReplicaRemove (m : FabMsg) (s : State) : Host.Outcome State Fault Refusal :=
  .next (
    let s := s.consumeMsg m
    let s := match s.ownReplica m.table m.row with
      | none => s
      | some (d, _) =>
        let (s, g) := s.beginGroup .refresh d none
        (s.addItem g (.dropReplica d m.table m.row)).openArrived
    s.send (m.reply s.me 0x11 0) .none)

/-! ### Responses -/

/-- A response has arrived: the request that it answers, if one waits. -/
def State.takeResponse (s : State) (m : FabMsg) : State × Option OutMsg :=
  let (s, o) := (s.consumeMsg m).answered m
  (s.releaseHolds, o)

/-- PARCEL_ACK: the thread ends, with the flags of the addition (R272, R309). -/
def execParcelAck (m : FabMsg) (up : Upsets) (s : State) : Host.Outcome State Fault Refusal :=
  .next (
    let (s, o) := s.takeResponse m
    match o.map fun x : OutMsg => x.use with
    | some (.parcel p k) =>
      let s := if m.status = 0 then s else s.threadFault p k
      s.scatterDone p k (if m.status = 0 then m.flags else 0) up
    | _ => s)

/-- A peer read of a replica by the audit: Table 9 of 09. -/
def State.auditPeer (s : State) (t r k : Nat) (m : FabMsg) : State :=
  let hm := s.homeMarkOf t r
  match s.rowRead 16 (s.homeAddr t r) (tdStride (s.table t)) [] with
  | (s, none) => s
  | (s, some home) =>
  if m.status = 2 then s.sendRefresh t r hm home [k]
  else if m.status ≠ 0 then s
  else if m.mark = hm && m.data = home then s
  else if m.mark = hm then (s.fixAll t r home hm).auditFault t r k hm false
  else if markLt m.mark hm then (s.sendRefresh t r hm home [k]).bump 0x6800 15 1
  else if markLe m.mark s.sl.lastMark then s.fixHome t r m.data m.mark
  else (s.sendRefresh t r hm home [k]).auditFault t r k m.mark false

/-- ROW_DATA. -/
def execRowData (m : FabMsg) (up : Upsets) (s : State) : Host.Outcome State Fault Refusal :=
  .next (s.whenFetched fun s =>
    let (s, o) := s.takeResponse m
    match o with
    | none => s
    | some o =>
      match o.use, failureOf m.status with
      | .row p k, none => s.rowArrives p k (some m.data) up
      | .row _ _, some f => s.failUse o f up
      | .refresh, _ => s.auditPeer o.msg.table o.msg.row m.src m
      | _, _ => s)

/-- A row of the arguments of a job's context has arrived (R432). -/
def State.argArrives (s : State) (j x r : Nat) (bs : List Byte) : State :=
  if (s.job? j).isNone || (s.ctx x).job ≠ some j then s
  else
    let s := (s.charge (s.ctx x).part 11 bs.length).putArg x r bs
    if s.argWaits j x then s else s.argsDone j x

/-- A row of a stream's current block has arrived: for a staging, or for a MOVE (R384). -/
def State.stateArrives (s : State) (n kind row : Nat) (bs : List Byte) : State :=
  let s := s.charge (s.streamPart n) 11 bs.length
  if kind = 0 then
    match s.batchWith n false with
    | none => s
    | some b =>
      let k := seStack (s.entry n)
      match b.rows.zipIdx.find? fun r => r.1.stream = n with
      | none => s
      | some (r, i) =>
        let p := s.slicePlace k 1 (s.column k i r) row
        let mark (x : BRow) : BRow := if x.stream = n then { x with came := x.came ++ [row] } else x
        (s.modBatch k b.job fun x => { x with rows := x.rows.map mark, stage := x.stage ++ [(p.1, p.2, bs)] }).pushStage k b.job
  else
    match s.strm.moves.find? fun x => x.stream = n with
    | none => s
    | some x =>
      let (s, ok) := s.writeState n 1 (x.fn - 1) (scPtr x.desc + 512 * row) bs
      if ok then s else s.failMove n

/-- An answer has come to a DMV: rows that the limit of R148 held back go on. -/
def State.dmvGoesOn (s : State) (use : MsgFor) (up : Upsets) (ue : List Nat) : State :=
  match use with
  | .dmv p _ => s.dmvResume p up ue
  | _ => s

/-- READ_DATA, with what the reads of the DMV's further rows meet. -/
def execReadData (m : FabMsg) (up : Upsets) (ue : List Nat) (s : State) : Host.Outcome State Fault Refusal :=
  .next (
    let (s, o) := s.takeResponse m
    match o with
    | none => s
    | some o =>
      State.dmvGoesOn (match failureOf m.status with
      | some f => s.failUse o f
      | none =>
        match o.use with
        | .dmv p k => s.dmvArrives p k o.msg.row m.data none
        | .load j x r => s.argArrives j x r m.data
        | .state n kind => s.stateArrives n kind o.msg.row m.data
        | .fetch a n => (s.fetchPart a n o.msg.row 0 m.data).settleOps
        | _ => s) o.use up ue)

/-- ACK, with what the reads of the DMV's further rows meet. -/
def execAck (m : FabMsg) (up : Upsets) (ue : List Nat) (s : State) : Host.Outcome State Fault Refusal :=
  .next (
    let (s, o) := s.takeResponse m
    match o with
    | none => s
    | some o =>
      State.dmvGoesOn (match failureOf m.status with
      | some f => s.failUse o f
      | none =>
        match o.use with
        | .jobWrite j => (s.tryFinish j).settleOps
        | .result j => (s.tryFinish j).settleOps
        | .rowCmd g => if s.rowCmdWaits g then s else s.decideGroup g
        | _ => s) o.use up ue)

/-- DICT_DATA: the value of a peer read reaches its requester. -/
def execDictData (m : FabMsg) (s : State) : Host.Outcome State Fault Refusal := .next (s.takeResponse m).1

end Sys2Proof.Machine
end

