-- ==== Sys2Proof/Machine/Service.lean ====
section
/-! DEFINITION. Spare cores, service operations, the management controllers and firmware (14: R452 to R466). -/

namespace Sys2Proof.Machine

/-! ### Spares (R455) -/

/-- State of a physical core: 0 ACTIVE, 1 SPARE, 2 TESTING, 3 FAILED, 4 FAULTED, 5 STOPPED. -/
def State.physState (s : State) (p : Nat) : Nat := s.reg (0xA100 + p) 1

def State.setPhys (s : State) (p v : Nat) : State := s.setReg (0xA100 + p) 1 v

/-- The nine physical cores of the cluster of a physical core. -/
def clusterCores (p : Nat) : List Nat := (List.range 9).map fun k => p / 9 * 9 + k

/-- The SPARE core of the cluster of a physical core. -/
def State.spareOf (s : State) (p : Nat) : Option Nat :=
  (clusterCores p).find? fun k => s.physState k = 1 && s.logicalOf k = 0xFF

/-- clusters_without_spare: no core of the cluster is SPARE or on its way to it. -/
def State.judgeSpares (s : State) : State :=
  let none' (c : Nat) : Bool := !(clusterCores (9 * c)).any fun k => s.physState k = 1 || s.physState k = 2
  s.setReg 0xA000 6 ((List.range 8).foldl (fun m c => if none' c then maskSet m c else m) 0)

/-- Fuse record of half h of a physical core (R17). -/
def State.fused (s : State) (p h : Nat) : Bool := s.top.fuses.testBit (2 * p + h)

/-- Lanes under the fuse records of a core. -/
def State.fuseLanes (s : State) (p : Nat) : Nat := if s.fused p 0 || s.fused p 1 then 32 else 64

/-! ### Service operations (R455 to R458) -/

def State.serviceStatus (s : State) (v : Nat) : State := s.setReg 0xA000 5 v

/-- A service operation runs. -/
def State.serviceRuns (s : State) : Bool :=
  s.av.handover.isSome || s.av.serviceTest.isSome || (s.fw.activating && s.fw.byService)

/-- ROTATE and REPLACE: the spare is woken, and the hand-over waits for its turn (R456, R458, R481). -/
def State.beginHandover (s : State) (replace : Bool) : State :=
  let l := s.reg 0xA000 3
  let p := s.physOf l
  if 64 ≤ l then s.serviceStatus 5
  else match s.spareOf p with
    | none => s.serviceStatus 4
    | some t =>
      if (if replace then s.physState p ≠ 4 && s.physState p ≠ 3 else s.physState p ≠ 0) then s.serviceStatus 5
      else
        let s := s.modCore t fun c => { c with gated := 0, retained := 0 }
        let s := { s with av := { s.av with handover := some ⟨l, t, replace, replace, replace⟩ } }
        (s.serviceStatus 1).settleOps

/-- The physical core of target_physical. -/
def State.targetPhys (s : State) : Option Nat :=
  let c := s.reg 0xA000 4
  if c < 128 && c % 16 ≤ 8 then some (codePhys c) else none

/-- SELFTEST on a SPARE or FAILED core. -/
def State.beginSelftest (s : State) : State :=
  match s.targetPhys with
  | none => s.serviceStatus 5
  | some p =>
    if s.physState p ≠ 1 && s.physState p ≠ 3 then s.serviceStatus 5
    else
      let s := (s.setPhys p 2).modCore p Core.blank
      State.serviceStatus { s with av := { s.av with testing := s.av.testing ++ [p], serviceTest := some p } } 1

/-- RETIRE makes a SPARE core FAILED. -/
def State.retireCore (s : State) : State :=
  match s.targetPhys with
  | none => s.serviceStatus 5
  | some p => if s.physState p ≠ 1 then s.serviceStatus 5 else ((s.setPhys p 3).judgeSpares).serviceStatus 2

/-- CLEAR_FUSE clears the fuse record of a SPARE core; its lanes change with its next self-test. -/
def State.clearFuses (s : State) : State :=
  match s.targetPhys with
  | none => s.serviceStatus 5
  | some p =>
    if s.physState p ≠ 1 then s.serviceStatus 5
    else State.serviceStatus { s with top := { s.top with fuses := maskClear (maskClear s.top.fuses (2 * p)) (2 * p + 1) } } 2

/-! ### The hand-over (R456 to R458) -/

/-- The copy reads every row that a context owns, resident or swapped out with its rows in place (R402): a context that loses one is
FAULTED (R187, R456). -/
def State.copyReads (s : State) (p : Nat) (up : Upsets) : State :=
  ((s.ctxsOn p).filter fun q => q.2.st.resident || (q.2.st = .swapped && q.2.intact)).foldl (fun s q =>
    let (s, bad) := s.readRows p q.2.part 2 (q.2.window.filter fun r => (s.core p).owns q.2.part r) up
    match bad with
    | some _ => s.spillFault q.1
    | none => s) s

/-- Steps 3 to 5: rows, tags, handles and the sequencer's records are on the new core, the map entry is written by one group,
and the vacated core is zero-filled and tests itself. -/
def State.handOver (s : State) (h : Handover) (up : Upsets) : State :=
  let p := s.physOf h.logical
  let t := h.target
  let s := s.copyReads p up
  let c := s.core p
  let new : Core := { (s.core t).blank with
    rows := c.rows, tags := c.tags, handles := c.handles,
    csq := { Csq.init with switchTo := c.csq.switchTo, said := c.csq.said } }
  let s := (List.range 4).foldl (fun (s : State) b => s.useBank t b) ((s.setCore t new).setCore p c.blank)
  let s := s.takeMark.countOpened none
  let s := s.setReg 0xA010 (h.logical + 1) (physCode t)
  let s := ((s.setPhys t 0).setReg (0xA100 + t) 2 h.logical).setReg (0xA100 + p) 2 0xFF
  let s := { s.setPhys p 2 with av := { s.av with handover := none, testing := s.av.testing ++ [p] } }
  let s := ((s.bump 0xA000 7 1).serviceStatus 2).judgeCores
  let late := (s.ctxs.filter fun q => q.2.core = h.logical && q.2.dying && q.2.st ≠ .running).map fun q => q.1
  ((late.foldl (fun s x => s.killNow x) s).kick t).settleOps.tearSettle

/-- HANDOVER_COMPLETE. -/
def execHandoverComplete (up : Upsets) (s : State) : Host.Outcome State Fault Refusal :=
  .next (match s.av.handover with
    | some h => if h.copying && !s.stalled (s.sl.lastMark + 1) then s.handOver h up else s
    | none => s)

/-! ### Self-tests (R17, R108, R459) -/

/-- The self-test detector (0x9018): 0 core failed, 1 half fused, 2 generator bank. -/
def State.selftestEvent (s : State) (p cause : Nat) (inj : Bool := false) : State :=
  s.raise { det := 0x9018, sev := 2, cause := cause, core := s.logicalOf p, phys := some (physCode p), injected := inj }

/-- Known answers of a bank of n generators (R108). The fused values are taken to be those of the design (DESIGN CHOICE, log entry
66). -/
def knownAnswers (n : Nat) : List W64 := (Bank.tested n).cur.map genOut

/-- Generators of a bank of a physical core: 0 the VXE's lanes, 1 the GTU, 2 the GXE converter (R92). -/
def State.bankSize (s : State) (p b : Nat) : Nat := if b = 0 then s.fuseLanes p else if b = 1 then 64 else 16

/-- Banks of a physical core that put out words other than the known answers, of those whose words are given (R108). -/
def State.badWords (s : State) (p : Nat) (words : List (Nat × List W64)) : List Nat :=
  ((words.filter fun g => g.1 < 3 && g.2 ≠ knownAnswers (s.bankSize p g.1)).map fun g => g.1).eraseDups

/-- Half that a self-test found to fail: the results 1 and 3 name halves 0 and 1. -/
def resultHalf (result : Nat) : Option Nat := if result = 1 then some 0 else if result = 3 then some 1 else none

/-- The result fails the core: 2, or a half while the other one is fused. -/
def State.resultFails (s : State) (p result : Nat) : Bool :=
  result = 2 || match resultHalf result with
    | some h => s.fused p (1 - h)
    | none => false

/-- A core that failed. -/
def State.failPhys (s : State) (p cause : Nat) (inj : Bool := false) : State :=
  let s := ((s.setPhys p 3).setReg (0xA100 + p) 5 2).setReg (0xA100 + p) 4 s.now
  s.selftestEvent p cause inj

/-- A core that passed, with a half found to fail. -/
def State.passPhys (s : State) (p : Nat) (half : Option Nat) : State :=
  let s := match half with
    | some h =>
      let s := { s with top := { s.top with fuses := maskSet s.top.fuses (2 * p + h) } }
      s.selftestEvent p 1
    | none => s
  let n := s.fuseLanes p
  ((s.setReg (0xA100 + p) 3 n).setReg (0xA100 + p) 5 (if n = 32 then 1 else 0)).setReg (0xA100 + p) 4 s.now

/-- CORE_SELFTEST_COMPLETE: the results are 0 pass, 1 pass but for half 0, 2 fail, 3 pass but for half 1; a bank whose words are not
the known answers fails the core as well (R108, R459). -/
def execCoreSelftestComplete (p result : Nat) (words : List (Nat × List W64)) (s : State) : Host.Outcome State Fault Refusal :=
  .next (
    if !s.av.testing.contains p then s
    else
      let banks := !(s.badWords p words).isEmpty
      let real := s.resultFails p result || banks
      let inj := !real && (resultHalf result).isNone && s.armed 0x9018 (physCode p) 0
      let s := if inj then s.consume 0x9018 else s
      let s := if real || inj then s.failPhys p (if banks && !s.resultFails p result then 2 else 0) inj
        else ((s.passPhys p (resultHalf result)).setPhys p 1).setCore p (if s.reg 0x2100 4 = 1 then Core.spare else Core.init)
      let s := s.modCore p fun c => c.testBanks (s.bankSize p 0)
      let s := if s.av.serviceTest = some p then
          State.serviceStatus { s with av := { s.av with serviceTest := none } } 2
        else s
      ({ s with av := { s.av with testing := s.av.testing.erase p } }).judgeSpares.judgeCores)

/-! ### Management controllers (R460, R461) -/

def State.activeDmc (s : State) : Nat := s.reg 0xA020 1

def State.dmcState (s : State) (d : Nat) : Nat := s.reg 0xA020 (2 + d)

/-- The DMC detector (0x9017): 0 takeover, 1 standby lost, 2 DMC_SWITCH. -/
def State.dmcEvent (s : State) (sev cause : Nat) (inj : Bool := false) : State :=
  s.raise { det := 0x9017, sev := sev, cause := cause, aux := s.activeDmc, injected := inj }

/-- The standby becomes active, and the other DMC takes a state. -/
def State.swapDmcs (s : State) (old : Nat) : State :=
  let a := s.activeDmc
  ((s.setReg 0xA020 1 (1 - a)).setReg 0xA020 (2 + (1 - a)) 0).setReg 0xA020 (2 + a) old

/-- Both DMCs are healthy. -/
def State.dmcsHealthy (s : State) : Bool := s.dmcState s.activeDmc = 0 && s.dmcState (1 - s.activeDmc) = 1

/-- DMC_SWITCH: the roles swap when both are healthy. -/
def State.switchDmcs (s : State) : State :=
  if s.dmcsHealthy then ((s.swapDmcs 1).dmcEvent 0 2).serviceStatus 2 else s.serviceStatus 5

/-- HEARTBEAT: the active DMC sends it, or, by an injection, has stopped sending. -/
def execHeartbeat (s : State) : Host.Outcome State Fault Refusal :=
  .next (
    let s := if !s.av.muted && s.armed 0x9017 0 0 then
        let s := s.consume 0x9017
        { s with av := { s.av with muted := true } }
      else s
    { s with av := { s.av with missed := if s.av.muted then s.av.missed + 1 else 0 } })

/-- HEARTBEAT_TIMEOUT: a healthy standby that has missed four heartbeats takes over; a request in flight gets no response. -/
def execHeartbeatTimeout (s : State) : Host.Outcome State Fault Refusal :=
  .next (
    if !s.dmcsHealthy || (s.av.muted && s.av.missed < 4) then s
    else
      let inj := s.av.muted
      let s := (s.swapDmcs 2).bump 0xA020 4 1
      let s := { s with av := { s.av with muted := false, missed := 0 }, mgmt := { s.mgmt with waiting := none, queue := [] } }
      (s.setCause 5 true).dmcEvent 3 0 inj)

/-- STANDBY_LOST. -/
def execStandbyLost (s : State) : Host.Outcome State Fault Refusal :=
  .next (
    if !s.dmcsHealthy then s
    else ((s.setReg 0xA020 (2 + (1 - s.activeDmc)) 2).setCause 5 true).dmcEvent 3 1)

/-! ### Firmware (R464 to R466) -/

/-- The firmware detector (0x9019): 0 accepted, 1 rejected, 2 activated, 3 rolled back. The numbers of a version, and of the
component of an event about an image, are the image's own: they are free. -/
def State.fwEvent (s : State) (cause : Nat) (comp : Option Nat) (inj : Bool := false) : State :=
  let w := (Config.freeValue s.free).toNat
  let s := { s with free := s.free + 1 }
  s.raise { det := 0x9019, sev := if cause = 1 || cause = 3 then 2 else 0, cause := cause, detail := comp.getD (w / 2 ^ 32),
            aux := w % 2 ^ 32, injected := inj }

def State.fwState (s : State) (v : Nat) : State := s.setReg 0xA030 3 v

def State.modFw (s : State) (f : Firmware → Firmware) : State := { s with fw := f s.fw }

/-- Slot that does not run. -/
def State.spareSlot (s : State) : Nat := 1 - s.fw.slot

/-- REQUEST_UPDATE. -/
def execRequestUpdate (s : State) : Host.Outcome State Fault Refusal :=
  .next (if s.fw.activating then s else (s.modFw fun f => { f with transfer := 1, comps := [] }).fwState 1)

/-- PASS_COMPONENT_TABLE. -/
def execPassComponentTable (comps : List (Nat × Nat)) (s : State) : Host.Outcome State Fault Refusal :=
  .next (if s.fw.transfer = 1 then s.modFw fun f => { f with transfer := 2, comps := comps } else s)

/-- UPDATE_COMPONENT: the inactive slot is being written. -/
def execUpdateComponent (comp : Nat) (s : State) : Host.Outcome State Fault Refusal :=
  .next (if s.fw.transfer = 2 && s.fw.comps.any fun c => c.1 = comp then
      s.modFw fun f => { f with transfer := 3, valid := maskClear f.valid s.spareSlot }
    else s)

/-- TRANSFER_COMPLETE. -/
def execTransferComplete (ok : Bool) (s : State) : Host.Outcome State Fault Refusal :=
  .next (if s.fw.transfer ≠ 3 then s
    else if ok then s.modFw fun f => { f with transfer := 4 }
    else (s.modFw fun f => { f with transfer := 0 }).fwState 0)

/-- VERIFY_COMPLETE: the digest of the image agrees with its signed manifest, or the image is rejected. -/
def execVerifyComplete (ok : Bool) (s : State) : Host.Outcome State Fault Refusal :=
  .next (if s.fw.transfer ≠ 4 then s
    else if ok then
      let k := s.free
      let s := { s with free := s.free + 1 }
      let s := s.modFw fun f => { f with
        transfer := 5, valid := maskSet f.valid s.spareSlot,
        versionA := if s.spareSlot = 0 then some k else f.versionA,
        versionB := if s.spareSlot = 0 then f.versionB else some k }
      (s.fwState 2).fwEvent 0 none
    else ((s.modFw fun f => { f with transfer := 0 }).fwState 5).fwEvent 1 none)

/-- APPLY_COMPLETE. -/
def execApplyComplete (ok : Bool) (s : State) : Host.Outcome State Fault Refusal :=
  .next (if s.fw.transfer ≠ 5 then s
    else if ok then s.modFw fun f => { f with transfer := 6 }
    else (s.modFw fun f => { f with transfer := 0, valid := maskClear f.valid s.spareSlot }).fwState 0)

/-- Order of the components (R465): the standby DMC, the other DMC, the memory controllers, the link controllers. A failed DMC
is passed over. -/
def State.fwComponent (s : State) (i : Nat) : Nat :=
  if i = 0 then (if s.dmcsHealthy then 1 - s.activeDmc else s.activeDmc) else i

/-- An activation may start: a valid image in the other slot, and no transfer under way. -/
def State.mayActivate (s : State) : Bool :=
  !s.fw.activating && maskBit s.fw.valid s.spareSlot && (s.fw.transfer = 0 || s.fw.transfer = 6)

/-- Start an activation, or refuse an image that does not work with the running one (R464). -/
def State.activate (s : State) (compatible service : Bool) : State :=
  if compatible then
    let s := s.modFw fun f => { f with transfer := 0, activating := true, byService := service, switched := 0 }
    (s.fwState 3).setReg 0xA030 4 (s.fwComponent 0)
  else (s.fwState 5).fwEvent 1 none

/-- ACTIVATE_FIRMWARE. -/
def execActivateFirmware (compatible : Bool) (s : State) : Host.Outcome State Fault Refusal :=
  .next (if s.mayActivate then s.activate compatible false else s)

/-- The service op ACTIVATE_FW. -/
def State.serviceActivate (s : State) (compatible : Bool) : State :=
  if !s.mayActivate then s.serviceStatus 5
  else (s.activate compatible true).serviceStatus (if compatible then 1 else 6)

/-- Range of a memory controller component, 2 to 29. -/
def componentRange (k : Nat) : Nat := if k < 6 then k - 2 else 4 + (k - 6) / 6

/-- The activation ends with a service status. -/
def State.endActivation (s : State) (status : Nat) : State :=
  let s := if s.fw.byService then s.serviceStatus status else s
  s.modFw fun f => { f with activating := false, byService := false }

/-- The component being switched and those switched before it return to the previous code (R466). -/
def State.rollBack (s : State) (inj : Bool) : State :=
  ((s.fwState 4).fwEvent 3 (some (s.reg 0xA030 4)) inj).endActivation 6

/-- The slot is flipped once every component has switched. -/
def State.flipSlot (s : State) : State :=
  let s := s.modFw fun f => { f with slot := 1 - f.slot }
  let s := ((s.setReg 0x1000 7 s.fw.slot).fwState 0).bump 0xA030 5 1
  (s.fwEvent 2 none).endActivation 2

/-- The component being switched has switched: a DMC swaps roles as the standby; the next one's turn comes. -/
def State.switched (s : State) : State :=
  let k := s.reg 0xA030 4
  let i := s.fw.switched
  let s := if i = 0 && s.dmcsHealthy && k = 1 - s.activeDmc then (s.swapDmcs 1).dmcEvent 0 2 else s
  let next := if i = 0 then 1 - k else i + 1
  let s := s.modFw fun f => { f with switched := i + 1 }
  if i = 53 then s.flipSlot else s.setReg 0xA030 4 next

/-- COMPONENT_SWITCH: a memory controller waits until its range is normal. -/
def execComponentSwitch (s : State) : Host.Outcome State Fault Refusal :=
  .next (
    let k := s.reg 0xA030 4
    if !s.fw.activating || (2 ≤ k && k < 30 && s.reg (rangeIdx (componentRange k)) 9 ≠ 0) then s
    else if s.armed 0x9019 0 0 then (s.consume 0x9019).rollBack true
    else s.switched)

/-- COMPONENT_READY_TIMEOUT. -/
def execComponentReadyTimeout (s : State) : Host.Outcome State Fault Refusal :=
  .next (if s.fw.activating then s.rollBack false else s)

end Sys2Proof.Machine
end

