-- ==== Sys2Proof/Machine/BringUp.lean ====
section
/-! DEFINITION. Resets, bring-up, the state requests, the arming of injections, and the test access port (15: R472 to R488;
14: R470). -/

namespace Sys2Proof.Machine

/-! ### Pins (R45, R47, R469) -/

/-- MOD_ALERT_N is asserted: an alert is pending, or bring-up cannot go on (R469, R479, R482); never while PWR_GOOD is
low. -/
def State.alertAsserted (s : State) : Bool := s.top.pwrGood && (s.top.stuck || s.reg 0x9000 3 = 1)

/-! ### Return to RESET (R473, R474) -/

/-- Entries kept in flash: fw_slot, the repair record's size, active channels, retired pages and remap entries of a range,
and the persistent core entries (R325, R471, R474). -/
def keptEntry (key : Nat) : Bool :=
  let idx := key / 256
  let sub := key % 256
  (idx = 0x1000 && sub = 7)
    || (((0x3010 ≤ idx && idx < 0x3014) || (0x3018 ≤ idx && idx < 0x301C)) && (sub = 1 || sub = 2 || sub = 4 || sub = 5))
    || (0xA100 ≤ idx && idx < 0xA148 && (sub = 6 || sub = 7))

/-- The module returns to RESET with a cause: what survives is in flash, in fuses, in the memories of the host, or on the
pins, REFCLK100 among them while the board's power is good (R24, R43); a core that had failed stays failed (R455, R473, R474). -/
def State.moduleReset (s : State) (cause : Nat) : State :=
  let keep (q : Nat × Range) : Nat × Range := (q.1, { Range.init with remap := q.2.remap, retired := q.2.retired, spares := q.2.spares })
  let r : State :=
    { State.reset with
      pending := s.pending, free := s.free,
      top := { Top.init with
        pwrGood := s.top.pwrGood, sysResetN := s.top.sysResetN, fuses := s.top.fuses, fusedPermits := s.top.fusedPermits },
      regs := s.regs.filter fun q => keptEntry q.1 || (cause ≠ 2 && q.1 = dkey 0x2100 2),
      mem := s.mem.filter fun c => decide (2 ^ 51 ≤ c.1),
      tiers := { Tiers.init with ranges := (s.tiers.ranges.map keep).filter fun q => q.2 ≠ Range.init },
      av := { Avail.init with dieStop := s.av.dieStop },
      strm := { Streams.init with ppsHigh := s.strm.ppsHigh },
      fw := { Firmware.init with valid := s.fw.valid, slot := s.fw.slot, versionA := s.fw.versionA, versionB := s.fw.versionB },
      tap := s.tap }
  let r := (List.range 72).foldl (fun (r : State) p => if s.physState p = 3 then r.setPhys p 3 else r) r
  r.setReg 0x1200 12 cause

/-- SYS_RESET_ASSERT. -/
def execSysResetAssert (s : State) : Host.Outcome State Fault Refusal :=
  .next (if s.top.sysResetN then State.moduleReset { s with top := { s.top with sysResetN := false } } 1 else s)

/-- PWR_GOOD_FALL: every output on J2 is released, and the test access port with them (R47, R473). -/
def execPwrGoodFall (s : State) : Host.Outcome State Fault Refusal :=
  .next (if s.top.pwrGood then
      State.moduleReset { s with top := { s.top with pwrGood := false, sysResetN := false }, tap := Tap.init } 2
    else s)

/-! ### The die-stop record (R24, R463) -/

/-- The lost marks as the surviving DMC computes them: the package's oldest pin at the last exchange, and the last P received
from the stopped die. The record is raised (0x9016: 0 PLL, 1 thermal). -/
def State.dieStopRecord (s : State) (die cause : Nat) (inj : Bool := false) : State :=
  let low := markMin s.sl.peerPin.d0 s.sl.peerPin.d1
  let s := (s.setReg 0xA020 5 low).setReg 0xA020 6 s.sl.p.d1
  s.raise { det := 0x9016, sev := 4, cause := cause, detail := low, aux := die, injected := inj }

/-- PLL_LOSS_OF_LOCK: the record is kept through the reset, and the interrupt line is asserted (R24). -/
def execPllLossOfLock (s : State) : Host.Outcome State Fault Refusal :=
  .next (if s.reg 0x2100 1 = 1 then
      let s := s.dieStopRecord 0 0
      let ev : Rec := BitVec.ofNat 256 (leNat (s.blob 0x9016 2))
      (State.moduleReset { s with av := { s.av with dieStop := some ev } } 3).setReg 0x9000 3 1
    else s)

/-! ### RESET (R479) -/

/-- A device state is entered (R475). -/
def State.enterDev (s : State) (d : DevState) : State :=
  State.setReg { s with top := { s.top with dev := d } } 0x1200 7 s.now

/-- Step 1: the calibrated permit sizes and the fuse records take effect. -/
def State.readFuses (s : State) : State :=
  let s := s.top.fusedPermits.zipIdx.foldl (fun (s : State) p => s.setReg 0x2003 (p.2 + 1) p.1) s
  (List.range 72).foldl (fun (s : State) p => s.setReg (0xA100 + p) 3 (s.fuseLanes p)) s

/-- Step 2: one DMC becomes active; one that failed its check is marked (R460). -/
def State.chooseDmc (s : State) (ok0 ok1 : Bool) : State :=
  let s := s.setReg 0xA020 1 (if ok0 then 0 else 1)
  let s := (s.setReg 0xA020 2 (if ok0 then 0 else 2)).setReg 0xA020 3 (if ok1 then boolNat ok0 else 2)
  if ok0 && ok1 then s else s.setCause 5 true

/-- Step 3: the root PLL locks; the counter starts at 0, and domain 0 starts in shared-tick mode (R23, R229, R480). -/
def State.lockPll (s : State) : State :=
  let s := State.setReg { s with now := 0 } 0x2100 1 1
  (s.startDomain 0 0).enterShared

/-- Step 4: a host link trains to a width and a rate; width 0 is none. -/
def State.trainHost (s : State) (l width rate : Nat) : State :=
  if width = 0 then s.setCause 4 true
  else
    let s := if s.hostLinkState (1 - l) = 2 then s else { s with host := { s.host with eventLink := l } }
    ((s.setReg 0xB000 (1 + l) 2).setReg 0xB000 (3 + l) width).setReg 0xB000 (5 + l) rate

/-- Bring-up cannot go on: MOD_ALERT_N is asserted. -/
def State.stick (s : State) : State := { s with top := { s.top with stuck := true } }

/-- A die-stop record carried through the reset counts as raised before READY in this bring-up; it is carried until READY. -/
def State.carryRecord (s : State) : State :=
  match s.av.dieStop with
  | some ev =>
    let s := (s.setBlob 0x9016 2 (wordBytes ev)).bump 0x9016 1 1
    { s with av := { s.av with preReady := s.av.preReady ++ [⟨0x9016, ev, none, []⟩] } }
  | none => s

/-- Steps 5 and 6: the firmware slot that fw_slot names, or the other one, is loaded. -/
def State.loadFirmware (s : State) (okA okB : Bool) : State :=
  let ok (k : Nat) : Bool := maskBit s.fw.valid k && (if k = 0 then okA else okB)
  let s := s.modFw fun f => { f with valid := boolNat (ok 0) + 2 * boolNat (ok 1) }
  let k := s.fw.slot
  if ok k then s
  else if ok (1 - k) then
    ((s.modFw fun f => { f with slot := 1 - k }).setReg 0x1000 7 (1 - k)).fwEvent 1 none
  else s.stick

/-- The steps of RESET, as far as their outcomes let them go: the fuses say which VXEs run at 32 lanes, and DEGRADED with them
(R19); the board has started REFCLK100 (R43, R472). -/
def State.startUp (s : State) (o : StartUp) : State :=
  let s := (s.readFuses.judgeCores).setReg 0x2100 2 1
  if !o.dmc0 && !o.dmc1 then s.stick
  else
    let s := s.chooseDmc o.dmc0 o.dmc1
    if !o.pll then s
    else
      let s := (s.lockPll.trainHost 0 o.width0 o.rate0).trainHost 1 o.width1 o.rate1
      let t := s.loadFirmware o.slotA o.slotB
      if t.top.stuck then t
      else
        let s := s.carryRecord.loadFirmware o.slotA o.slotB
        { s with top := { s.top with resetDone := true } }

/-- SYS_RESET_RELEASE: PWR_GOOD has been high for its interval (R472). -/
def execSysResetRelease (o : StartUp) (s : State) : Host.Outcome State Fault Refusal :=
  .next (if s.top.sysResetN then s
    else
      let s := { s with
        top := { s.top with sysResetN := true, pwrGood := true }, tap := { s.tap with driving := false, released := false } }
      s.startUp o)

/-- RESET_COMPLETE: SELFTEST is entered; a logical core of a failed core is out of service from now on (R455, R475). -/
def execResetComplete (s : State) : Host.Outcome State Fault Refusal :=
  .next (if s.top.dev = .reset && s.top.resetDone then (s.enterDev .selftest).judgeCores.judgeSpares else s)

/-! ### SELFTEST (R480 to R482) -/

/-- Banks of a physical core that the device's self-test finds to fail. -/
def State.badBanks (s : State) (o : SelfTests) (p : Nat) : List Nat :=
  s.badWords p ((o.generator.filter fun g => g.1 = p).map fun g => g.2)

/-- The self-test of one physical core: a core that had failed stays failed, and every bank has run the generator test (R108). -/
def State.testCore (s : State) (o : SelfTests) (p : Nat) : State × Bool × Bool :=
  let half := (o.halves.find? fun h => h.1 = p).map fun h => h.2 % 2
  let bad := match half with
    | some h => s.fused p (1 - h)
    | none => false
  let was := s.physState p
  let banks := !(s.badBanks o p).isEmpty
  let s := s.modCore p fun c => c.testBanks (s.bankSize p 0)
  if o.failed.contains p || banks || bad then
    (s.failPhys p (if banks && !o.failed.contains p then 2 else 0), true, false)
  else ((s.passPhys p half).setPhys p was, false, half.isSome)

/-- Every core is tested: the state, and the numbers of cores that failed and of halves that were fused. -/
def State.testCores (s : State) (o : SelfTests) : List Nat → State × Nat × Nat
  | [] => (s, 0, 0)
  | p :: l =>
    let (s, bad, half) := s.testCore o p
    let (s, n, h) := s.testCores o l
    (s, n + boolNat bad, h + boolNat half)

/-- TRAINING is entered, and held at point 1 where that is chosen (R478). -/
def State.enterTraining (s : State) : State :=
  let s := s.enterDev .training
  if s.reg 0x1200 5 = 1 then State.setReg { s with top := { s.top with heldFrom := s.now } } 0x1200 6 1 else s

/-- SELFTEST_COMPLETE_ALL. -/
def execSelftestCompleteAll (o : SelfTests) (s : State) : Host.Outcome State Fault Refusal :=
  .next (if s.top.dev ≠ .selftest || s.top.stuck then s
    else
      let fails := (List.range 72).foldl (fun n p => n + (s.badBanks o p).length) 0
      let (s, n, h) := (s.setReg 0x4800 4 fails).testCores o (List.range 72)
      let s := s.setReg 0x1200 9 (put 7 0 n + put 15 8 h + put 23 16 o.spareSlices + put 31 24 o.block)
      let s := s.judgeSpares.judgeCores
      if o.block = 0 then s.enterTraining else s.stick)

/-! ### Records held for the event queues (R479) -/

/-- A held record goes to a function once, unless its detector is masked (R469, R479). -/
def State.postHeldOne (s : State) (f : Nat) (r : PreRec) : State :=
  if (f = 0 || r.fn = some f) && !r.posted.contains f && !s.eventMasked r.det then
    let mark (x : PreRec) : PreRec := if x = r then { x with posted := x.posted ++ [f] } else x
    ((State.postEvent { s with av := { s.av with preReady := s.av.preReady.map mark } } f r.record).notePosted r.det)
  else s

/-- From READY onward, the last record of each detector raised before READY is posted to a function whose event queue is
configured, in order of occurrence. -/
def State.postHeld (s : State) (f : Nat) : State :=
  if s.isUp && s.reg (0xB010 + f) 2 ≠ 0 then s.av.preReady.foldl (fun (s : State) r => s.postHeldOne f r) s else s

/-! ### TRAINING (R483 to R486) -/

/-- In TRAINING, and not held. -/
def State.mayTrain (s : State) : Bool := s.top.dev = .training && s.reg 0x1200 6 = 0

/-- RANGE_TRAINED: the repair record is applied, and each channel that failed training is suspect. -/
def execRangeTrained (u failed : Nat) (s : State) : Host.Outcome State Fault Refusal :=
  .next (if !s.mayTrain || maskBit s.top.trained u then s
    else
      let s := { s with top := { s.top with trained := maskSet s.top.trained u } }
      let bad := (activeList (s.active u)).filter fun c => maskBit failed c
      let s := bad.foldl (fun (s : State) c => (s.setBlobBit 0x1200 10 u c).suspect u c) s
      if (activeList (s.active u)).length < rangeChans u then s.setCause 2 true else s)

/-- TRAINING_ZERO_FILL: every byte of every range is zero. -/
def execTrainingZeroFill (s : State) : Host.Outcome State Fault Refusal :=
  .next (if !s.mayTrain || s.top.trained ≠ 255 || s.top.zeroFilled then s
    else { s with mem := s.mem.filter (fun c => decide (2 ^ 51 ≤ c.1)), top := { s.top with zeroFilled := true } })

/-- The spare of a direction takes the place of the first failed active lane, unless it has failed itself (R485). -/
def State.calibrateLanes (s : State) (e dir failed : Nat) : State :=
  if maskBit failed 8 then s
  else match (List.range 8).find? fun l => maskBit failed l with
    | some l => s.setLane e dir l 8
    | none => s

/-- OPTICS_CALIBRATED: an engine passes unless two lanes of one direction have failed (R363, R485). -/
def execOpticsCalibrated (e failTx failRx : Nat) (s : State) : Host.Outcome State Fault Refusal :=
  .next (if !s.mayTrain || maskBit s.top.calibrated e then s
    else
      let tx := failTx % 512
      let rx := failRx % 512
      let s := s.setEng e 4 (tx + 2 ^ 16 * rx)
      let s := (s.calibrateLanes e 0 tx).calibrateLanes e 1 rx
      let s := if s.laneBlocked e then s else s.setReg 0x1200 11 (maskSet (s.reg 0x1200 11) e)
      { s with top := { s.top with calibrated := maskSet s.top.calibrated e } })

/-- Every range is zero-filled and every engine is calibrated. -/
def State.trainingDone (s : State) : Bool := s.top.zeroFilled && s.top.calibrated = 2 ^ 24 - 1

/-- READY_ENTRY: the module is held at point 2 where that is chosen, or enters READY; bring_up_ms leaves out what was held
(R478, R490). -/
def execReadyEntry (s : State) : Host.Outcome State Fault Refusal :=
  .next (if !s.mayTrain || !s.trainingDone then s
    else if s.reg 0x1200 5 = 2 && !s.top.passed2 then
      State.setReg { s with top := { s.top with heldFrom := s.now } } 0x1200 6 2
    else
      let s := (s.setReg 0x1200 8 ((s.now - s.top.heldCycles) / usCycles 1000)).enterDev .ready
      let s : State := { s with av := { s.av with dieStop := none } }
      (List.range 17).foldl (fun (s : State) f => s.postHeld f) s)

/-- Store hold_point: 0 releases a hold (R478). -/
def State.writeHoldPoint (s : State) (v : Nat) : State :=
  let held := s.reg 0x1200 6
  let s := s.setReg 0x1200 5 v
  if v % 256 = 0 && held ≠ 0 then
    State.setReg { s with top := { s.top with
      heldCycles := s.top.heldCycles + (s.now - s.top.heldFrom), passed2 := s.top.passed2 || held = 2 } } 0x1200 6 0
  else s

/-! ### State requests (R477) -/

/-- SERVE: links start training and dispatch starts; shared-tick mode ends at a frame tick (R232). -/
def State.serve (s : State) : State :=
  let s := (s.enterDev .serving).setReg 0x1200 4 1
  (maskList 24 (s.reg 0x8000 2)).foldl (fun (s : State) e =>
    State.startTraining { s with av := { s.av with linkFrom := SMap.set 0 s.av.linkFrom e (s.now + 1) } } e) s

/-- No partition is ACTIVE, and no PF queue pair is enabled. -/
def State.mayQuiesce (s : State) : Bool :=
  s.top.dev = .serving && ((List.range 16).all fun p => s.partState p ≠ 1) && (List.range 16).all fun q => s.qp 0 q 8 = 0

/-- QUIESCE: every link is taken DOWN. -/
def State.quiesce (s : State) : State :=
  let s := (List.range 24).foldl (fun (s : State) e => s.linkDrop e) s
  let s := { s with fab := { s.fab with late := 0 }, av := { s.av with linkFrom := [] } }
  ((s.judgeLinks.enterDev .ready).enterShared).setReg 0x1200 4 1

/-- Store state_request: a request in any other case changes nothing and is refused. -/
def State.requestState (s : State) (v : Nat) : State :=
  if v = 1 && s.top.dev = .ready then s.serve
  else if v = 2 && s.mayQuiesce then s.quiesce
  else s.setReg 0x1200 4 2

/-! ### Arming an injection (R470) -/

/-- One injection that its arming alone performs: ALL_BLOCKED, a host link failover, a die-stop record (Table 7 of 14). -/
def State.fireOne (s : State) (det : Nat) : State :=
  let w := s.reg det 3
  let target := w / 2 ^ 48
  if det = 0x9010 && target < 64 && w / 2 ^ 40 % 256 = 0 then
    let p := s.physOf target
    let rs := s.residents p
    let us := if rs.isEmpty then 0 else rs.foldl (fun m q => min m (s.now - q.2.blockedFrom)) s.now / 400
    match s.waitingSwapped p with
    | some (x, c) => ((s.consume det).bump (0x7010 + c.part) 12 1).blockedEvent p x us (some c.part) true
    | none => (s.consume det).blockedEvent p 0xFFF us none true
  else if det = 0x9015 && target < 2 && w / 2 ^ 40 % 256 = 1 && s.hostLinkState (1 - target) = 2 then
    (s.consume det).failover target 0 true
  else if det = 0x9016 && target < 2 && w / 2 ^ 40 % 256 = 0 then (s.consume det).dieStopRecord target 1 true
  else s

def State.fire : Nat → State → Nat → State
  | 0, s, _ => s
  | n + 1, s, det => State.fire n (s.fireOne det) det

/-- Store inject_arm: in READY and SERVING alone; reserved bits are 0. -/
def State.arm (s : State) (det v : Nat) : State :=
  if !s.isUp then s
  else
    let w := put 63 48 (v / 2 ^ 48) + put 47 40 (v / 2 ^ 40) + put 31 16 (v / 2 ^ 16)
    State.fire (v / 2 ^ 16 % 2 ^ 16) (s.setReg det 3 w) det

/-! ### The test access port (R488) -/

/-- An instruction is loaded: EXTEST, CLAMP and HIGHZ act only while SYS_RESET_N is low, and as BYPASS otherwise. -/
def State.tapLoad (s : State) (code : Nat) : State :=
  if !s.top.pwrGood then s
  else
    let low := !s.top.sysResetN
    { s with tap := { s.tap with ir := code, driving := low && (code = 0 || code = 3), released := low && code = 4 } }

/-- The instruction that acts. -/
def State.tapActs (s : State) : Nat :=
  let c := s.tap.ir
  if c = 1 || c = 2 then c else if (c = 0 || c = 3) && s.tap.driving then c else if c = 4 && s.tap.released then c else 0xFF

/-- IDCODE (Table 5 of 15): the revision and the manufacturer are fused. -/
def idcodeWord : Nat :=
  1 + put 27 12 0x7A64 + put 11 1 (leNat (Config.fusedBytes 5)) + put 31 28 (leNat (Config.fusedBytes 4))

/-- The data register that the instruction selects, and its length: bypass, identification, or the boundary register. -/
def State.tapData (s : State) : Nat :=
  if s.tapActs = 1 then idcodeWord else if s.tapActs = 2 || s.tapActs = 0 then s.tap.boundary else 0

/-- TAP_RESET. -/
def execTapReset (s : State) : Host.Outcome State Fault Refusal :=
  .next (if s.top.pwrGood then { s with tap := { s.tap with ir := 1, driving := false, released := false } } else s)

/-- BYPASS. -/
def execBypass (s : State) : Host.Outcome State Fault Refusal := .next (s.tapLoad 0xFF)

/-- IDCODE. -/
def execIdcode (s : State) : Host.Outcome State Fault Refusal := .next (s.tapLoad 1)

/-- SAMPLE/PRELOAD: the boundary register takes the bits sampled, or shifted in. -/
def execSamplePreload (bits : Nat) (s : State) : Host.Outcome State Fault Refusal :=
  .next (if s.top.pwrGood then
      let s := s.tapLoad 2
      { s with tap := { s.tap with boundary := bits } }
    else s)

/-- EXTEST. -/
def execExtest (s : State) : Host.Outcome State Fault Refusal := .next (s.tapLoad 0)

/-- CLAMP. -/
def execClamp (s : State) : Host.Outcome State Fault Refusal := .next (s.tapLoad 3)

/-- HIGHZ. -/
def execHighz (s : State) : Host.Outcome State Fault Refusal := .next (s.tapLoad 4)

/-! ### The passing of a control cycle (R23, R471) -/

/-- Control cycles of an hour. -/
def hourCycles : Nat := usCycles 3600000000

/-- One control cycle passes while the root PLL is locked; at each full hour the spare and testing cores count it. -/
def State.passCycle (s : State) : State :=
  if s.reg 0x2100 1 ≠ 1 then s
  else
    let s := { s with now := s.now + 1 }
    if s.now % hourCycles ≠ 0 then s
    else (List.range 72).foldl (fun (s : State) p =>
      if s.physState p = 1 || s.physState p = 2 then s.bump (0xA100 + p) 7 1 else s) s

end Sys2Proof.Machine
end

