-- ==== Sys2Proof/Machine/DictView.lean ====
section
/-! DEFINITION. Reading the object dictionary: what each entry reads as, and the rights of its readers (13: R439 to R441; the
entry tables of the other chapters). -/

namespace Sys2Proof.Machine

/-! ### Own copies and partitions of entries (R441; Table 11 of 13) -/

/-- The entry exists once for each accessor. -/
def ownCopy (idx sub : Nat) : Bool :=
  idx = 0x1110 || (idx = 0x1101 && sub = 1) || (idx = 0x7800 && sub ≤ 4)
    || (sub = 1 && [0x3120, 0x5001, 0x6001, 0x6002, 0x6803, 0x7040].contains idx)

/-- Partition of a per-partition entry, or of a ring. -/
def entryPart (idx : Nat) : Option Nat :=
  match [0x4010, 0x4810, 0x5010, 0x6020, 0x6820, 0x7010, 0x7810].find? fun b => b ≤ idx && idx < b + 16 with
  | some b => some (idx - b)
  | none =>
    if 0x5880 ≤ idx && idx < 0x58A0 then some (idx % 32 / 2)
    else if 0x58A0 ≤ idx && idx < 0x58C0 then some (idx % 32 / 2)
    else none

def isStackIdx (idx : Nat) : Bool := 0x5100 ≤ idx && idx < 0x5120

/-- Function of an event entry or of a queue pair's entry. -/
def entryFn (idx : Nat) : Option Nat :=
  if 0xB010 ≤ idx && idx < 0xB021 then some (idx % 256 - 16)
  else if 0xB100 ≤ idx && idx < 0xB210 then some (idx % 4096 / 16 - 16)
  else none

/-- The value of a select entry for an accessor: the one staged last in its open sluice, else the present one (R249, R317). -/
def State.selectOf (s : State) (acc idx : Nat) : Nat :=
  let staged : Option (Nat × Nat × Nat × List Byte) := match s.sluiceOpen acc with
    | some d => d.staged.reverse.find? fun w : Nat × Nat × Nat × List Byte => w.1 = idx && w.2.1 = 1
    | none => none
  match staged with
  | some w => leNat w.2.2.2
  | none => s.areg acc idx 1

/-! ### Context records (Table 6 of 12) -/

def CtxState.code : CtxState → Nat
  | .free => 0
  | .binding => 1
  | .idle => 2
  | .ready => 3
  | .running => 4
  | .spilling => 5
  | .swapped => 6
  | .restoring => 7
  | .faulted => 8
  | .killing => 9

/-- The rows of the read-only handles that a context's image declares (R401). -/
def Ctx.roRows (c : Ctx) : List Nat :=
  (c.decls.filter fun w => dclRo w = 1).flatMap fun w => (List.range (dclRows w)).map fun i => (c.row (dclBase w) + i) % cisternRows

def State.ctxRecord (s : State) (x : Nat) : Rec :=
  let c := s.ctx x
  let us := if c.blocked then min ((s.now - c.blockedFrom) / 400) (2 ^ 32 - 1) else 0
  BitVec.ofNat 256
    (put 207 176 (hdImageId c.header) + put 175 160 (if c.st = .running then 0xFFFF else c.weir)
      + put 159 144 (hdRowSpan c.header) + put 140 128 c.rowBase + put 127 120 c.handleBase + put 117 112 c.core
      + put 111 96 (min c.queue.length 65535) + put 95 64 us + put 59 48 x + put 47 44 c.part + put 7 7 (boolNat (c.loaded && c.roRows.all fun r => !c.gone.contains r))
      + put 6 6 (boolNat c.intact) + put 5 5 (boolNat c.tagFault) + put 4 4 (boolNat c.blocked) + put 3 0 c.st.code)

/-- The handle map of a context: bit h bound, bit 256 + h resident and loaded. -/
def State.ctxHandles (s : State) (x : Nat) : List Byte :=
  let c := s.ctx x
  let k := s.core (s.physOf c.core)
  let bit (m w : Nat) : Nat :=
    let h := dclHandle w
    let e := k.handle (c.hnd h)
    let rows := (List.range (hRows e)).map fun i => (hBase e + i) % cisternRows
    if (c.st.resident || (c.st = .swapped && c.intact)) && hValid e && hOwner e = c.part then
      (if hResident e && c.loaded && rows.all (fun r => !c.gone.contains r) then maskSet (maskSet m h) (256 + h) else maskSet m h)
    else m
  leBytes 64 (c.decls.foldl bit 0)

/-- Records of the contexts on a logical core that meet a test. -/
def State.ctxRecords (s : State) (l : Nat) (f : Ctx → Bool) : List Byte :=
  (s.ctxs.filter fun q => q.2.core = l && f q.2).flatMap fun q => wordBytes (s.ctxRecord q.1)

/-- Rows of a logical core in no resident context's window. -/
def State.freeRows (s : State) (l : Nat) : Nat :=
  let rs := s.residents (s.physOf l)
  ((List.range 8192).filter fun r => !rs.any fun q => q.2.inWindow r).length

def State.runningOn (s : State) (l : Nat) : Nat :=
  let q := (s.core (s.physOf l)).csq
  if q.phase = .idle then 0xFFFF else q.ctx

/-! ### Values that other state holds -/

/-- Device state codes (Table 18 of 13). -/
def DevState.code : DevState → Nat
  | .reset => 0
  | .selftest => 1
  | .training => 2
  | .ready => 3
  | .serving => 4

def wattsOf (v : Int) : Nat := (v / 1000000).toNat

/-- A range reads as its defaults until it has trained (R476, R483). -/
def State.rangeShown (s : State) (u : Nat) : Bool := s.isUp || maskBit s.top.trained u

/-- Range of an entry at 0x3010 to 0x3013 or 0x3018 to 0x301B. -/
def rangeOf (idx : Nat) : Option Nat := (List.range 8).find? fun u => rangeIdx u = idx

/-- Channel that an accessor's channel_select names (Table 7 of 10). -/
def State.shownChan (s : State) (acc : Nat) : Channel :=
  let v := s.areg acc 0x3120 1
  s.chan (4 * (v / 2 ^ 14 % 2) + v / 2 ^ 12 % 4) (v % 32)

/-- Pins held by a partition on both dies. -/
def State.pinsOfPart (s : State) (p : Nat) : Nat := ((s.pinsOn 0 ++ s.pinsOn 1).filter fun x => x.owner = p).length

/-- The entries 0x6801 and 0x6802 .01 to .06 of a die (Table 11 of 09). -/
def State.dieSluice (s : State) (d sub : Nat) : Nat :=
  let vs := s.sl.versions.get d
  match sub with
  | 1 => s.writeSetUsed d
  | 2 => (vs.filter fun v => v.mark.isSome).length
  | 3 => (vs.filter fun v => v.mark.isNone).length
  | 4 => s.undecided d
  | 5 => (s.pinsOn d).length
  | _ => (s.pinsOn d).foldl (fun m p => max m ((s.now - p.since) / 400)) 0

/-- Entry of the pin slot that an accessor selects; 0 where no pin has been taken in it. -/
def State.shownPin (s : State) (acc : Nat) : Nat :=
  let v := s.areg acc 0x6803 1
  match s.pinSlot (v / 4096 % 2) (v % 4096) with
  | some p => p.word
  | none => 0

/-- The mapped-out list as an accessor sees it: a virtual function sees the entries of its own tables. -/
def State.shownMapouts (s : State) (acc : Nat) : List Mapped :=
  s.mapoutNow.filter fun e => match accPart acc with
    | none => true
    | some p => tdOwner (s.table e.table) = p

def mapoutWord (t p : Nat) : Nat := put 63 52 t + put 31 0 p

/-- Scalars that other state holds; none for one that stands in its own register. -/
def State.derived (s : State) (acc idx sub : Nat) : Option Nat :=
  let die := idx % 2
  match idx, sub with
  | 0x1000, 5 => some (leNat (Config.fusedBytes 4) % 65536)
  | 0x1100, 1 => some entryCount
  | 0x1200, 1 => some s.top.dev.code
  | 0x1200, 2 => some (boolNat s.degraded)
  | 0x2000, 2 => some (wattsOf s.alloc.inForce)
  | 0x2100, 3 => some s.now
  | 0x3120, 2 => some (s.shownChan acc).corrected
  | 0x3120, 3 => some (s.shownChan acc).uncorrectable
  | 0x3120, 4 => some (s.shownChan acc).retries
  | 0x3120, 5 => some (s.shownChan acc).failures
  | 0x3120, 6 => some (s.shownChan acc).repaired
  | 0x5000, 1 => some (s.strm.entries.filter fun e => seValid e.2).length
  | 0x6003, 1 => some (s.shownMapouts acc).length
  | 0x6010, 19 => some ((s.tab.dir.d0 ++ s.tab.dir.d1).filter fun e => e.replica.isSome && e.gone.isNone).length
  | 0x6010, 20 => some (s.tab.dir.d0.filter fun e => e.reloc.isSome && e.gone.isNone).length
  | 0x6800, 2 => some (s.p 0)
  | 0x6800, 3 => some (s.packagePin s.keeper)
  | 0x5800, 5 => some (boolNat (s.reg 0x5800 5 = 1 && s.now < s.reg 0x5800 3 + 440000000))
  | 0x6800, 20 => some (s.generalBytes / 2 ^ 20)
  | 0x6803, 2 => some (s.shownPin acc)
  | 0x7000, 1 => some ((List.range 16).foldl (fun m p => if s.partState p = 1 then maskSet m p else m) 0)
  | 0x7000, 3 => some (s.ctxs.filter fun q => q.2.st ≠ .free).length
  | _, _ =>
    if (idx = 0x2001 || idx = 0x2002) && sub ≤ 3 then
      let d := 1 - die
      some (if sub = 1 then wattsOf (s.alloc.allot d) else if sub = 2 then (s.gov d).floor / 1000000 else s.held d / 1000000)
    else if (idx = 0x6801 || idx = 0x6802) && sub ≤ 6 then some (s.dieSluice (1 - die) sub)
    else if 0x6820 ≤ idx && idx < 0x6830 && sub = 4 then some (s.pinsOfPart (idx % 16))
    else if 0x7010 ≤ idx && idx < 0x7020 && (sub = 7 || sub = 8) then some (ceilDiv (s.quotaUse (idx % 16) (sub - 7)) 1024)
    else if 0x7100 ≤ idx && idx < 0x7140 then
      let l := idx % 256
      if sub = 3 then some (s.runningOn l) else if sub = 4 then some (s.freeRows l)
      else if sub = 5 then some (s.lanes (s.physOf l)) else none
    else match rangeOf idx with
      | some u => if s.rangeShown u then none else some (regDefault (dkey idx sub))
      | none => none

/-- What a scalar reads as. -/
def State.shownScalar (s : State) (acc idx sub : Nat) : Nat :=
  if ownCopy idx sub then s.areg acc idx sub else (s.derived acc idx sub).getD (s.reg idx sub)

/-- Version string of a firmware slot. -/
def State.slotVersion (s : State) (k : Nat) : List Byte :=
  match (if k = 0 then s.fw.versionA else s.fw.versionB) with
  | some n => Config.imageVersion n
  | none => Config.fusedBytes (k + 2)

/-- The remap table of a range (Table 3 of 10): 64 entries of 8 bytes. -/
def State.remapBytes (s : State) (u : Nat) : List Byte :=
  let l := (s.range u).remap.flatMap fun e => leBytes 8 (put 63 63 1 + put 49 32 e.2 + put 17 0 e.1)
  l ++ List.replicate (512 - l.length) 0

/-- The static part of an entry's writers (Table 11 of 13): a virtual function may write it somewhere. -/
def vfWrites (idx sub : Nat) : Bool :=
  (ownCopy idx sub && (idx = 0x1110 || sub = 1)) || (0x4810 ≤ idx && idx < 0x4820 && sub = 1) || (isStackIdx idx && sub ≠ 2)
    || (idx = 0x6001 && sub = 2) || (idx = 0x6003 && (sub = 2 || sub = 3)) || (entryFn idx).isSome

def DType.code : DType → Nat
  | .bool => 0
  | .u8 => 1
  | .u16 => 2
  | .u32 => 3
  | .u64 => 4
  | .i32 => 5
  | .i64 => 6
  | .f32 => 7
  | .str => 8
  | .blob => 9

def Access.code : Access → Nat
  | .ro => 0
  | .rw => 1
  | .wo => 2
  | .rc => 3
  | .rwq => 4

/-- The access right allows writing. -/
def Access.writable (a : Access) : Bool := a = .rw || a = .wo || a = .rwq

/-- The 16 bytes of describe for an entry (0x1101.02). -/
def describeBytes (idx sub : Nat) : List Byte :=
  match dictFind idx sub with
  | none => 0xFF :: List.replicate 15 0
  | some r =>
    let w := if r.acc.writable then 5 + 2 * boolNat (vfWrites idx sub) else 0
    leBytes 1 r.ty.code ++ leBytes 1 r.acc.code ++ leBytes 1 w ++ [0] ++ leBytes 4 r.maxSize
      ++ leBytes 8 (if idx = 0x1000 && sub = 5 then leNat (Config.fusedBytes 4) % 2 ^ 16
        else if r.ty.bytes = 0 then 0 else regDefault (dkey idx sub))

/-- What an STR or BLOB reads as. -/
def State.shownBlob (s : State) (acc idx sub : Nat) : List Byte :=
  let sel := s.areg acc idx 1
  match idx, sub with
  | 0x1000, 6 => s.slotVersion s.fw.slot
  | 0xA030, 1 => s.slotVersion 0
  | 0xA030, 2 => s.slotVersion 1
  | 0x1101, 2 => describeBytes (sel / 256 % 65536) (sel % 256)
  | 0x5001, 2 => wordBytes (s.entry sel)
  | 0x6001, 2 => wordBytes (s.table (sel % 4096))
  | 0x6002, 2 => s.hotBytes sel
  | 0x6003, 4 => (s.shownMapouts acc).flatMap fun e => leBytes 8 (mapoutWord e.table e.page)
  | 0x7040, 2 => wordBytes (s.ctxRecord (sel % 4096))
  | 0x7040, 3 => s.ctxHandles (sel % 4096)
  | 0x7800, 2 => s.ablob acc idx sub
  | _, _ =>
    if 0x7100 ≤ idx && idx < 0x7140 then
      (if sub = 1 then s.ctxRecords (idx % 256) fun c => c.st.resident
       else s.ctxRecords (idx % 256) fun c => c.st = .swapped)
    else match rangeOf idx with
      | some u =>
        if !s.rangeShown u then blobDefault (dkey idx sub)
        else if sub = 6 then s.remapBytes u
        else (s.range u).retired.flatMap fun w => wordBytes w
      | none => s.blob idx sub

/-- The bytes of an entry's value, little-endian (R439). -/
def State.valueBytes (s : State) (acc idx sub : Nat) : List Byte :=
  match dictFind idx sub with
  | none => []
  | some r => if r.ty.bytes = 0 then s.shownBlob acc idx sub else leBytes r.ty.bytes (s.shownScalar acc idx sub)

/-! ### Reading (R439 to R441) -/

/-- The window that an accessor selects shows another partition's stream, table, pin or context. -/
def State.showsOther (s : State) (p acc idx sub : Nat) : Bool :=
  let sel := s.areg acc idx 1
  match idx, sub with
  | 0x5001, 2 => let e := s.entry sel; seValid e && s.stk (seStack e) 2 ≠ p
  | 0x6001, 2 => let d := s.table (sel % 4096); tdValid d && tdOwner d ≠ p
  | 0x6002, 2 => !s.ownsSlot p (sel % 256)
  | 0x6803, 2 => match s.pinSlot (sel / 4096 % 2) (sel % 4096) with
    | some x => x.owner ≠ p
    | none => false
  | 0x7040, 2 => let c := s.ctx (sel % 4096); c.st ≠ .free && c.part ≠ p
  | 0x7040, 3 => let c := s.ctx (sel % 4096); c.st ≠ .free && c.part ≠ p
  | _, _ => false

/-- The rights of Table 11 let an accessor read an entry. -/
def State.mayRead (s : State) (acc idx sub : Nat) : Bool :=
  match accPart acc with
  | none => true
  | some p =>
    if idx = 0x3300 then false
    else if isStackIdx idx then s.stk (idx % 256) 2 = p
    else match entryPart idx with
      | some q => q = p
      | none => match entryFn idx with
        | some f => f = p + 1
        | none => !s.showsOther p acc idx sub

/-- A read by the PF or the management endpoint clears an RC entry (R440); the hot list it empties is the selected one. -/
def State.clearRead (s : State) (acc idx sub : Nat) : State :=
  if idx = 0x6002 then
    { s with tab := { s.tab with hot := SMap.erase s.tab.hot (s.areg acc 0x6002 1 % 512) } }
  else s.setReg idx sub 0

/-- What a dictionary read gives: its result, the value's size, and the bytes read. -/
structure ReadReply where
  res : Nat
  size : Nat
  data : List Byte
  deriving DecidableEq, Repr

/-- Read bytes of an entry (R439, R440). -/
def State.readEntry (s : State) (acc idx sub offset len : Nat) : State × ReadReply :=
  match dictFind idx sub with
  | none => (s, ⟨drNone, 0, []⟩)
  | some r =>
    if r.acc = .wo || !s.mayRead acc idx sub then (s.deny, ⟨drDenied, 0, List.replicate len 0⟩)
    else
      let s := if 0x7810 ≤ idx && idx ≤ 0x7820 then s.busyAll else s
      let v := s.valueBytes acc idx sub
      let whole := r.ty.bytes = 0 || (offset = 0 && len = r.ty.bytes)
      if !whole || v.length < offset + len then (s, ⟨drRange, v.length, []⟩)
      else
        let s := if r.acc = .rc && isOwner acc then s.clearRead acc idx sub else s
        (s, ⟨drDone, v.length, (v.drop offset).take len⟩)

end Sys2Proof.Machine
end

