-- ==== Sys2Proof/Machine/Dictionary.lean ====
section
/-! DEFINITION. Writing the object dictionary: rights, quiescence, the actions on writing, dictionary sluices, and the groups that
carry the writes (13: R439 to R443; 09: R304, R316 to R318). -/

namespace Sys2Proof.Machine

/-! ### Rights (Table 11 of 13) -/

/-- Table and page of a mapout_add or mapout_remove value. -/
def mapoutArg (v : Nat) : Nat × Nat := (v / 2 ^ 52 % 4096, v % 2 ^ 32)

/-- A virtual function of partition p may write an entry with a value. -/
def State.vfMayWrite (s : State) (p acc idx sub v : Nat) : Bool :=
  if idx = 0x7800 then sub = 1 && v = p
  else if ownCopy idx sub then true
  else if 0x4810 ≤ idx && idx < 0x4820 then idx = 0x4810 + p && sub = 1
  else if isStackIdx idx then s.stk (idx % 256) 2 = p && sub ≠ 2
  else if idx = 0x6001 then s.mayWriteTable acc (s.selectOf acc 0x6001 % 4096)
  else if idx = 0x6003 then let d := s.table (mapoutArg v).1; tdValid d && tdOwner d = p
  else match entryFn idx with
    | some f => f = p + 1
    | none => false

def State.mayWrite (s : State) (acc idx sub v : Nat) : Bool :=
  match accPart acc with
  | none => true
  | some p => s.vfMayWrite p acc idx sub v

/-! ### Quiescence of owning units (R197, R319, R354, R387, R417, R426, R448, R476) -/

/-- No queue pair of a function is enabled. -/
def State.fnQuiet (s : State) (f : Nat) : Bool := (List.range 16).all fun q => s.qp f q 8 = 0

/-- The owning unit of an RWQ entry is quiescent. -/
def State.quiet (s : State) (idx sub : Nat) : Bool :=
  !s.isUp || (
    if idx = 0x2100 then Config.gatingQuiet s.now
    else if idx = 0x3300 then s.portQuiet
    else if isStackIdx idx then s.stkQuiet (idx % 256)
    else if 0x5810 ≤ idx && idx < 0x5830 then !s.dmRuns (idx % 256 - 16)
    else if 0x5880 ≤ idx && idx < 0x58C0 then
      (s.partStacks ((entryPart idx).getD 0)).all fun n => s.stk n 1 = 0
    else if idx = 0x6000 then s.reg 0x6000 1 = 0
    else if idx = 0x6800 then (List.range 16).all fun p => s.partState p = 0
    else if 0x7010 ≤ idx && idx < 0x7020 then (s.partCtxs (idx % 16)).isEmpty
    else if 0x8000 ≤ idx && idx < 0x8070 then (List.range 24).all fun e => s.eng e 1 = 0
    else match entryFn idx with
      | some f => if idx < 0xB100 then s.fnQuiet f else s.reg idx 8 = 0 && s.reg idx 14 = 0
      | none => sub = sub)

/-! ### Actions on writing (R442) -/

/-- What the environment adds to a write: whether every component of a new image works with the running ones. A write that does
not say so takes a free value. -/
structure Env where
  compatible : Option Bool
  deriving DecidableEq, Repr

def Env.none : Env := ⟨Option.none⟩

/-- A free number. -/
def State.draw (s : State) : State × Nat := ({ s with free := s.free + 1 }, (Config.freeValue s.free).toNat)

def State.serviceOp (s : State) (v : Nat) (e : Env) : State :=
  if s.serviceRuns then s.serviceStatus 3
  else match v with
    | 1 => s.beginHandover false
    | 2 => s.beginHandover true
    | 3 => s.beginSelftest
    | 4 => s.retireCore
    | 5 => s.clearFuses
    | 6 => s.switchDmcs
    | 7 => match e.compatible with
      | some b => s.serviceActivate b
      | none => s.draw.1.serviceActivate (s.draw.2 % 2 = 1)
    | _ => s

def State.repairOp (s : State) (v : Nat) : State :=
  match v with
  | 1 => s.rowRepair
  | 2 => s.pageRemap
  | 3 => s.querySpares
  | 4 => s.clearSuspect
  | _ => s

def State.mapoutOp (s : State) (v : Nat) : State :=
  match v with
  | 1 => s.planReflow
  | 2 => s.startReflow
  | 3 => s.cancelPlan
  | _ => s

def State.partitionOp (s : State) (v : Nat) : State :=
  let p := s.reg 0x7001 1
  match v with
  | 1 => s.createPartition p
  | 2 => s.tearDown p
  | _ => s

/-- Store gating_enable: 0 ungates every engine and wakes every bank. -/
def State.writeGating (s : State) (v : Nat) : State :=
  let s := s.setReg 0x2100 4 v
  if v % 2 = 1 then s
  else (List.range 72).foldl (fun (s : State) p => s.modCore p fun c => { c with gated := 0, retained := 0 }) s

/-- The entry has an action on writing, which stores the value itself. -/
def hasAction (idx sub : Nat) : Bool :=
  [(0x1200, 3), (0x1200, 5), (0x2000, 1), (0x2100, 4), (0x3100, 2), (0x3200, 4), (0x3300, 4), (0x5800, 1), (0x6810, 2), (0x7001, 2),
    (0x7800, 1), (0x8000, 2), (0x8040, 1), (0xA000, 2)].contains (idx, sub)
    || (isStackIdx idx && [1, 14, 15].contains sub) || (0x5810 ≤ idx && idx < 0x5830 && sub = 6) || idx = 0x8030
    || (0x9001 ≤ idx && idx ≤ 0x901A && sub = 3) || (0xB010 ≤ idx && idx < 0xB021 && sub = 2)
    || (0xB100 ≤ idx && idx < 0xB210 && sub = 8)

/-- The action of a write of bytes at an offset, with the scalar's value. -/
def State.act (s : State) (acc idx sub offset : Nat) (bytes : List Byte) (e : Env) : State :=
  let v := leNat bytes
  match idx, sub with
  | 0x1200, 3 => s.requestState v
  | 0x1200, 5 => s.writeHoldPoint v
  | 0x2000, 1 => (s.setReg 0x2000 1 v).setBudget v
  | 0x2100, 4 => s.writeGating v
  | 0x3100, 2 => s.repairOp v
  | 0x3200, 4 => s.mapoutOp v
  | 0x3300, 4 => s.portShift bytes
  | 0x5800, 1 => s.writeSharedTick v
  | 0x6810, 2 => s.writeStepClose v
  | 0x7001, 2 => s.partitionOp v
  | 0x7800, 1 => (s.setAreg acc 0x7800 1 v).takeSnapshot acc v
  | 0x8000, 2 => s.writeLinkEnable v
  | 0x8040, 1 => s.writeRoutes offset bytes
  | 0xA000, 2 => s.serviceOp v e
  | _, _ =>
    if isStackIdx idx then
      (if sub = 1 then s.writeStackEnable (idx % 256) (v % 2) else s.writeOutRing (idx % 256) sub v)
    else if 0x5810 ≤ idx && idx < 0x5830 then s.writeStartMode (idx % 256 - 16) v
    else if idx = 0x8030 then s.setReg 0x8030 sub (v - v / 2 ^ 24 % 16 * 2 ^ 24)
    else if 0x9001 ≤ idx && idx ≤ 0x901A then s.arm idx v
    else if 0xB010 ≤ idx && idx < 0xB021 then (s.setReg idx 2 v).postHeld (idx % 256 - 16)
    else s.writeEnable (idx % 4096 / 16 - 16) (idx % 16) (v % 2)

/-! ### Storing a value (R439) -/

/-- The value of an entry after a write of bytes at an offset. -/
def DictRow.patch (r : DictRow) (old : List Byte) (offset : Nat) (bytes : List Byte) : List Byte :=
  if r.fixed && r.ty.bytes = 0 then putBytes old offset bytes
  else if offset = 0 then bytes
  else putBytes old offset bytes

/-- A write of n bytes at an offset fits the entry: a scalar whole, an STR or BLOB within its greatest size. -/
def DictRow.fits (r : DictRow) (offset n : Nat) : Bool :=
  if r.ty.bytes = 0 then offset + n ≤ r.maxSize else offset = 0 && n = r.ty.bytes

/-- The bytes of a memory window that are not reserved (Table 2 of 12). -/
def windowMask : List Nat := [255, 255, 255, 255, 255, 255, 15, 0, 255, 255, 255, 255, 255, 0, 7, 0]

/-- Store an entry that has no action. -/
def State.storeEntry (s : State) (acc idx sub offset : Nat) (bytes : List Byte) : State :=
  match dictFind idx sub with
  | none => s
  | some r =>
    if hasAction idx sub then s
    else if 0x7010 ≤ idx && idx < 0x7020 && sub = 4 then
      s.setBlob idx sub (keepBits windowMask (r.patch (s.blob idx sub) offset bytes))
    else if r.ty.bytes = 0 then s.setBlob idx sub (r.patch (s.blob idx sub) offset bytes)
    else if ownCopy idx sub then s.setAreg acc idx sub (leNat bytes)
    else if 0xB100 ≤ idx && idx < 0xB210 && sub = 7 && leNat bytes ≠ s.reg idx 7 then
      State.setReg (s.moveRecs (s.reg idx 7) fun r => pairIdx r.fn r.queue = idx) idx 7 (leNat bytes)
    else s.setReg idx sub (leNat bytes)

def State.storeItem (s : State) (i : Item) : State :=
  match i with
  | .dict acc idx sub offset bytes => s.storeEntry acc idx sub offset bytes
  | _ => s

def State.actItem (s : State) (e : Env) (i : Item) : State :=
  match i with
  | .dict acc idx sub offset bytes => if hasAction idx sub then s.act acc idx sub offset bytes e else s
  | _ => s

/-! ### The group of a write (R318, R442) -/

/-- An access of the accessor has begun and waits for its group. -/
def State.dictBusy (s : State) (acc : Nat) : Bool := s.sl.groups.any fun g => g.issuer = .dict acc

/-- Set sluice_status, and no entry is staged any more. -/
def State.endSluice (s : State) (acc status : Nat) : State := s.dropSluice acc status

/-- Trunk that an item writes, and whether it writes the route table. -/
def Item.trunk? : Item → Option Nat
  | .dict _ idx sub _ _ => if idx = 0x8030 then some (sub - 1) else none
  | _ => none

def Item.routes : Item → Bool
  | .dict _ idx _ _ _ => idx = 0x8040
  | _ => false

/-- Route and trunk entries that one group has written take effect together: old is the state before them (R377). -/
def State.routesOpened (s old : State) (items : List Item) : State :=
  let ts := items.filterMap Item.trunk?
  if ts.isEmpty && !items.any Item.routes then s else s.routesChanged old ts

/-- The group of an access has opened: its entries take their values at its mark, a dictionary sluice becomes COMMITTED, and the
actions follow. -/
def State.finishDict (s : State) (acc : Nat) (items : List Item) (e : Env) : State :=
  let m := s.sl.lastMark
  let s := items.foldl State.storeItem s
  let s := if (s.sluiceOpen acc).isSome then (s.endSluice acc 2).setAreg acc 0x1110 5 m else s
  (items.foldl (fun (s : State) i => s.actItem e i) s).routesOpened s items

/-- The answer to an access that had to wait. -/
def State.dictReply (s : State) (acc res : Nat) : State :=
  if acc ≤ 16 then
    let m := s.mailbox acc
    s.setMailbox acc { m with status := res, size := (s.valueBytes acc (m.addr / 256) (m.addr % 256)).length }
  else match s.mgmt.waiting with
    | some (q, k) =>
      let l := mctpDictResponse 2 q res (s.valueBytes acc (k / 256) (k % 256)).length []
      { s with mgmt := { s.mgmt.sent l.length with waiting := none, responses := s.mgmt.responses ++ [l] } }
    | none => s

/-- Result of an access whose group waits: DICT_STATUS shows busy. -/
def drPending : Nat := 2 ^ 31

/-- Decide the group of an access; where it opens at once, the values are stored. -/
def State.decideDict (s : State) (acc g : Nat) (e : Env) : State × Nat :=
  match s.group? g with
  | none => (s, drDone)
  | some x =>
    let t := s.decideGroup g
    if (t.group? g).isSome then (t, drPending) else (t.finishDict acc x.items e, drDone)

/-- A group of the accessor with items. -/
def State.dictGroup (s : State) (acc : Nat) (items : List Item) : State × Nat :=
  let (s, g) := s.beginGroup (.dict acc) 0 (accPart acc)
  (items.foldl (fun (s : State) i => s.addItem g i) s, g)

/-! ### Values that a write may not take (R257, R320) -/

/-- Places of the three sizes. -/
def sizeEntries : List (Nat × Nat) := [(0x6800, 1), (0x6000, 2), (0x6000, 3)]

/-- The sum of the three sizes, with some replaced. -/
def State.sizeSum (s : State) (new : List ((Nat × Nat) × Nat)) : Nat :=
  sizeEntries.foldl (fun n k => n + match new.find? fun p => p.1 = k with
    | some p => p.2 % 256
    | none => s.reg k.1 k.2) 0

/-- The mapped-out list with the changes that groups under way make to it. -/
def State.mapouts (s : State) : List (Nat × Nat) :=
  let now := s.mapoutNow.map fun e => (e.table, e.page)
  (s.sl.groups.flatMap fun g => g.items).foldl (fun l i =>
    match i with
    | .mapAdd t p => if l.contains (t, p) then l else l ++ [(t, p)]
    | .mapRemove t p => l.filter fun x => x ≠ (t, p)
    | _ => l) now

/-- Items of a single write; none where it would leave the range of what the device accepts. -/
def State.writeItems (s : State) (acc idx sub offset : Nat) (bytes : List Byte) : Option (List Item) :=
  let v := leNat bytes
  if idx = 0x6001 && sub = 2 then
    let t := s.areg acc 0x6001 1 % 4096
    some [.table t (Desc.patch (s.table t) acc offset bytes)]
  else if idx = 0x6003 then
    let (t, p) := mapoutArg v
    let l := s.mapouts
    if sub = 3 then some (if l.contains (t, p) then [.mapRemove t p] else [])
    else if l.contains (t, p) then some []
    else if 1024 ≤ l.length then none
    else some [.mapAdd t p]
  else if sizeEntries.contains (idx, sub) && 88 < s.sizeSum [((idx, sub), v)] then none
  else some [.dict acc idx sub offset bytes]

/-! ### Dictionary sluices (R316 to R318) -/

/-- Stage a write. -/
def State.stageWrite (s : State) (acc idx sub offset : Nat) (bytes : List Byte) : State :=
  match s.sluiceOpen acc with
  | none => s
  | some d =>
    let l := d.staged ++ [(idx, sub, offset, bytes)]
    let n := (l.map fun w => (w.1, w.2.1)).eraseDups.length
    State.setAreg { s with sl := { s.sl with dicts := SMap.set none s.sl.dicts acc (some { d with staged := l }) } } acc 0x1110 6 n

/-- What the staged writes come to: the final value of each entry in order of first staging, the descriptors, the changes of
the mapped-out list, and that list after them; full where it would hold too many. -/
structure Merged where
  sel : Nat
  vals : List ((Nat × Nat) × List Byte)
  descs : List (Nat × Desc)
  maps : List Item
  list : List (Nat × Nat)
  full : Bool
  deriving DecidableEq, Repr

/-- Replace or append a keyed value. -/
def keyedPut {κ α : Type} [DecidableEq κ] (k : κ) (a : α) : List (κ × α) → List (κ × α)
  | [] => [(k, a)]
  | p :: l => if p.1 = k then (k, a) :: l else p :: keyedPut k a l

/-- One staged write, applied to what the earlier ones leave. -/
def State.mergeOne (s : State) (acc : Nat) (m : Merged) (w : Nat × Nat × Nat × List Byte) : Merged :=
  let (idx, sub, offset, bytes) := w
  if idx = 0x6001 && sub = 2 then
    let t := m.sel % 4096
    let old := match m.descs.find? fun p => p.1 = t with
      | some p => p.2
      | none => s.table t
    { m with descs := keyedPut t (Desc.patch old acc offset bytes) m.descs }
  else if idx = 0x6003 then
    let (t, p) := mapoutArg (leNat bytes)
    if sub = 3 then
      (if m.list.contains (t, p) then
        { m with maps := m.maps ++ [.mapRemove t p], list := m.list.filter fun x => x ≠ (t, p) }
      else m)
    else if m.list.contains (t, p) then m
    else { m with maps := m.maps ++ [.mapAdd t p], list := m.list ++ [(t, p)], full := m.full || 1024 ≤ m.list.length }
  else match dictFind idx sub with
    | none => m
    | some r =>
      let old := match m.vals.find? fun p => p.1 = (idx, sub) with
        | some p => p.2
        | none => if r.acc = .wo then [] else s.valueBytes acc idx sub
      let new := r.patch old offset bytes
      { m with vals := keyedPut (idx, sub) new m.vals, sel := if idx = 0x6001 then leNat new else m.sel }

def State.merge (s : State) (acc : Nat) (l : List (Nat × Nat × Nat × List Byte)) : Merged :=
  l.foldl (fun m w => s.mergeOne acc m w)
    { sel := s.areg acc 0x6001 1, vals := [], descs := [], maps := [], list := s.mapouts, full := false }

def Merged.items (m : Merged) (acc : Nat) : List Item :=
  m.vals.map (fun p => .dict acc p.1.1 p.1.2 0 p.2) ++ m.descs.map (fun p => .table p.1 p.2) ++ m.maps

/-- A staged RWQ entry whose owning unit is not quiescent. -/
def State.stagedBusy (s : State) (w : Nat × Nat × Nat × List Byte) : Bool :=
  match dictFind w.1 w.2.1 with
  | some r => r.acc = .rwq && !s.quiet w.1 w.2.1
  | none => false

/-- Decide the open sluice (R317): FAILED_QUIESCENT, FAILED_LIMIT, or COMMITTED at one mark. -/
def State.commitSluice (s : State) (acc : Nat) (d : DictSluice) : State × Nat :=
  if d.staged.any fun w => s.stagedBusy w then (s.endSluice acc 4, drDone)
  else
    let m := s.merge acc d.staged
    let sizes := (m.vals.filter fun p => sizeEntries.contains p.1).map fun p => (p.1, leNat p.2)
    if m.full || (!sizes.isEmpty && 88 < s.sizeSum sizes) then (s.endSluice acc 3, drDone)
    else
      let t := (m.items acc).foldl (fun (s : State) i => s.addItem d.grp i) (s.modGroup d.grp fun x => { x with issuer := .dict acc })
      if (t.group? d.grp).any fun x => x.broken then (t.endSluice acc 3, drDone)
      else t.decideDict acc d.grp Env.none

/-- The group of a dictionary sluice begins, or waits to begin while 4,096 others are undecided (R287, R292). -/
def State.beginSluice (s : State) (acc : Nat) : State × Nat :=
  let (t, g) := s.beginGroup (.sluice acc) 0 (accPart acc)
  (if s.groupRoom 0 then t else t.modGroup g fun x => { x with phase := .queued }, g)

/-- A write to sluice_begin, sluice_commit or sluice_abort takes effect at once. -/
def State.sluiceWrite (s : State) (acc sub v : Nat) : State × Nat :=
  if v % 2 = 0 then (s, drDone)
  else match sub, s.sluiceOpen acc with
    | 1, none =>
      let (s, g) := s.beginSluice acc
      let s := { s with sl := { s.sl with dicts := SMap.set none s.sl.dicts acc (some ⟨g, [], s.now⟩) } }
      ((s.setAreg acc 0x1110 4 1).setAreg acc 0x1110 6 0, drDone)
    | 2, some d => s.commitSluice acc d
    | 3, some _ => (s.endSluice acc 6, drDone)
    | _, _ => (s, drDone)

/-- DICT_SLUICE_TIMEOUT (R318). -/
def execDictSluiceTimeout (acc : Nat) (s : State) : Host.Outcome State Fault Refusal :=
  .next (match s.sluiceOpen acc with
    | some d =>
      if usCycles 1000 * s.reg 0x6800 5 ≤ s.now - d.since && !s.dictBusy acc then s.endSluice acc 5 else s
    | none => s)

/-! ### A write -/

/-- Write bytes of an entry: the state, and the result (Table 15 of 13). -/
def State.writeEntry (s : State) (acc idx sub offset : Nat) (bytes : List Byte) (e : Env) : State × Nat :=
  match dictFind idx sub with
  | none => (s, drNone)
  | some r =>
    let v := leNat bytes
    if !r.acc.writable || !s.mayWrite acc idx sub v then (s.deny, drDenied)
    else if !r.fits offset bytes.length then (s, drRange)
    else if idx = 0x1110 then s.sluiceWrite acc sub v
    else if (s.sluiceOpen acc).isSome then (s.stageWrite acc idx sub offset bytes, drStaged)
    else if r.acc = .rwq && !s.quiet idx sub then (s, drBusy)
    else match s.writeItems acc idx sub offset bytes with
      | none => (s, drRange)
      | some l =>
        let (t, g) := s.dictGroup acc l
        t.decideDict acc g e

/-- The dictionary is served (R472, R476). -/
def State.served (s : State) : Bool := s.top.dev ≠ .reset || s.top.resetDone

/-- A write by an accessor, answered in its mailbox; one that meets an access under way is ignored (R443). -/
def State.dictWrite (s : State) (acc idx sub offset : Nat) (bytes : List Byte) (e : Env := Env.none) : State :=
  if !s.served || s.dictBusy acc then s
  else
    let (s, res) := s.writeEntry acc idx sub offset bytes e
    if acc ≤ 16 then s.answer acc res (s.valueBytes acc idx sub).length [] else s

/-- A write of a whole scalar. -/
def State.scalarWrite (s : State) (acc idx sub v : Nat) (e : Env := Env.none) : State :=
  match dictFind idx sub with
  | some r => s.dictWrite acc idx sub 0 (leBytes r.ty.bytes v) e
  | none => s

/-- A read by an accessor, answered in its mailbox. -/
def State.dictRead (s : State) (acc idx sub offset len : Nat) : State :=
  if !s.served || s.dictBusy acc then s
  else
    let (s, r) := s.readEntry acc idx sub offset len
    if acc ≤ 16 then s.answer acc r.res r.size r.data else s

/-- A read of a whole entry. -/
def State.wholeRead (s : State) (acc idx sub : Nat) : State :=
  s.dictRead acc idx sub 0 (s.valueBytes acc idx sub).length

/-- The length field of an access lies outside what its layout allows (Table 13 and Table 16 of 13): nothing predicts the answer (R9,
R12; log entry 65). -/
def badLength (n most : Nat) : Bool := n = 0 || most < n

/-- The answer in the mailbox to an access with such a length. -/
def State.answerFree (s : State) (acc : Nat) : State :=
  if !s.served || s.dictBusy acc then s else s.draw.1.answer acc (s.draw.2 % 256) (s.draw.2 / 256 % 2 ^ 32) []

/-! ### Requests over MCTP (R445) -/

/-- A response of the management endpoint. -/
def State.respond (s : State) (l : List Byte) : State :=
  { s with mgmt := { s.mgmt.sent l.length with responses := s.mgmt.responses ++ [l] } }

/-- Serve one request. -/
def State.mctpServe (s : State) (r : MctpReq) : State :=
  let cmd := if r.bytes.isSome then 2 else 1
  if badLength r.len 1024 then
    s.draw.1.respond (mctpDictResponse cmd r.req (s.draw.2 % 256) (s.draw.2 / 256 % 2 ^ 32) [])
  else match r.bytes with
  | none =>
    let (s, a) := s.readEntry 17 r.idx r.sub r.offset r.len
    s.respond (mctpDictResponse 1 r.req a.res a.size a.data)
  | some l =>
    let (s, res) := s.writeEntry 17 r.idx r.sub r.offset l Env.none
    let size := (s.valueBytes 17 r.idx r.sub).length
    if res = drPending then { s with mgmt := { s.mgmt with waiting := some (r.req, 256 * r.idx + r.sub) } }
    else s.respond (mctpDictResponse 2 r.req res size [])

/-- Requests are served one at a time, in order of arrival. -/
def State.mctpPump (s : State) : State :=
  s.mgmt.queue.foldl (fun (s : State) _ =>
    match s.mgmt.queue with
    | r :: l =>
      if s.mgmt.waiting.isSome || s.dictBusy 17 then s
      else State.mctpServe { s with mgmt := { s.mgmt with queue := l } } r
    | [] => s) s

/-! ### Decisions of groups that wait (R284, R304) -/

/-- What follows the opening, or the discarding, of a group that waited. -/
def State.afterGroup (s : State) (x : Group) (opened : Bool) : State :=
  match x.issuer with
  | .dict acc =>
    if opened then (s.finishDict acc x.items Env.none).dictReply acc drDone
    else
      let s := if (s.sluiceOpen acc).isSome then s.endSluice acc 3 else s
      s.dictReply acc drRange
  | .home _ _ => s.openArrived
  | _ => s

/-- A group is marked, or asks for its mark. -/
def State.markAndFollow (s : State) (x : Group) : State :=
  let t := s.markGroup x
  if (t.group? x.id).isSome then t else t.afterGroup x true

/-- A group with a part that could not be prepared fails (R304). -/
def State.failPrepared (s : State) (x : Group) : State :=
  let t := (s.discardGroup x.id).afterGroup x false
  match x.after with
  | some r => t.produce { r with status := stLimit }
  | none => t

/-- The stack whose batch decides a group: its own, or one of the batch's job. -/
def State.batchOf (s : State) (x : Group) : Option Nat :=
  match x.issuer with
  | .stream n => some n
  | .job j _ => (s.job? j).bind fun b => b.stack
  | _ => none

/-- PREPARE_ANSWER: the coordinator decides a group that has been answered; a job or a batch decides all of its groups together. -/
def execPrepareAnswer (g : Nat) (s : State) : Host.Outcome State Fault Refusal :=
  .next (match s.group? g with
    | none => s
    | some x =>
      match x.phase with
      | .answered ready =>
        (match s.batchOf x, x.job? with
          | some n, _ => s.decideBatch n
          | none, some j => s.decideJob j
          | none, none => if ready then s.markAndFollow x else s.failPrepared x).settleOps.tearSettle.mctpPump
      | _ => s)

/-- The groups of a latched job are all marked, unless that stalls again. -/
def State.markJob (s : State) (j : Nat) : State :=
  match s.askMarks (s.jobGroups j) true with
  | (s, true) => s.openJob j
  | (s, false) => s

/-- MARK_REQUEST: the keeper assigns the mark that a group waits for; the groups of a job take consecutive marks. -/
def execMarkRequest (g : Nat) (s : State) : Host.Outcome State Fault Refusal :=
  .next (match s.group? g with
    | none => s
    | some x =>
      if x.phase ≠ .marking then s
      else (match s.batchOf x, x.job? with
        | some n, _ => s.markBatch n
        | none, some j => s.markJob j
        | none, none => s.markAndFollow x).settleOps.tearSettle.mctpPump)

/-- The first group of a die that waits to begin does so once fewer than 4,096 are undecided there, and is decided where its staging is
complete (R292). -/
def State.beginQueued (s : State) (d : Nat) : State :=
  match s.sl.groups.find? fun x => x.phase = .queued && x.die = d with
  | none => s
  | some x =>
    if !s.groupRoom d then s
    else
      let s := s.modGroup x.id fun y => { y with phase := .begun }
      if x.issuer.early || s.onArrival x then s
      else
        let t := s.decideGroup x.id
        if (t.group? x.id).isSome then t else t.afterGroup x (!x.broken)

/-- STAGING_RESUME: what waited on a die for space, or to begin, goes on (R292, R301). -/
def execStagingResume (d : Nat) (s : State) : Host.Outcome State Fault Refusal :=
  .next ((s.resumeStaging d).beginQueued d).openArrived.settleOps.tearSettle.mctpPump

end Sys2Proof.Machine
end

