-- ==== Sys2Proof/Machine/DictRows.lean ====
section
/-! DEFINITION. The commands that are reads and writes of the object dictionary, each through the path of every other access:
rights, quiescence, sluices and groups (13: R439 to R443; 11: R385). -/

namespace Sys2Proof.Machine

/-! ### Device state, power, clocks (15: R474, R477, R478; 01: R30) -/

/-- HOLD_POINT_WRITE: hold_point (0x1200.05). -/
def execHoldPointWrite (acc v : Nat) (s : State) : Host.Outcome State Fault Refusal := .next (s.scalarWrite acc 0x1200 5 v)

/-- SERVE: request_state 1 (0x1200.03). -/
def execServe (acc : Nat) (s : State) : Host.Outcome State Fault Refusal := .next (s.scalarWrite acc 0x1200 3 1)

/-- QUIESCE: request_state 2 (0x1200.03). -/
def execQuiesce (acc : Nat) (s : State) : Host.Outcome State Fault Refusal := .next (s.scalarWrite acc 0x1200 3 2)

/-- PACKAGE_BUDGET_WRITE: package_budget (0x2000.01). -/
def execPackageBudgetWrite (acc v : Nat) (s : State) : Host.Outcome State Fault Refusal := .next (s.scalarWrite acc 0x2000 1 v)

/-! ### Stacks and domains (06: R197, R216; 07: R228 to R231) -/

/-- STACK_ENABLE_WRITE: enable of a stack record (0x5100 + n .01). -/
def execStackEnableWrite (acc stack v : Nat) (s : State) : Host.Outcome State Fault Refusal :=
  .next (s.scalarWrite acc (0x5100 + stack) 1 v)

/-- OUT_HEAD_WRITE: out_head of a stack record (0x5100 + n .16). -/
def execOutHeadWrite (acc stack v : Nat) (s : State) : Host.Outcome State Fault Refusal :=
  .next (s.scalarWrite acc (0x5100 + stack) 22 v)

/-- OUT_RING_CONFIG_WRITE: a field of a stack record that describes its output ring. -/
def execOutRingConfigWrite (acc stack sub v : Nat) (s : State) : Host.Outcome State Fault Refusal :=
  .next (s.scalarWrite acc (0x5100 + stack) sub v)

/-- DOMAIN_STOP_REQUEST: start_mode 0 of a rate domain (0x5810 + d .06). -/
def execDomainStopRequest (acc domain : Nat) (s : State) : Host.Outcome State Fault Refusal :=
  .next (s.scalarWrite acc (0x5810 + domain) 6 0)

/-- DOMAIN_ARM_PPS: start_mode 1. -/
def execDomainArmPps (acc domain : Nat) (s : State) : Host.Outcome State Fault Refusal :=
  .next (s.scalarWrite acc (0x5810 + domain) 6 1)

/-- DOMAIN_ARM_AT: start_mode 2. -/
def execDomainArmAt (acc domain : Nat) (s : State) : Host.Outcome State Fault Refusal :=
  .next (s.scalarWrite acc (0x5810 + domain) 6 2)

/-- SHARED_TICK_WRITE: shared_tick (0x5800.01). -/
def execSharedTickWrite (acc v : Nat) (s : State) : Host.Outcome State Fault Refusal := .next (s.scalarWrite acc 0x5800 1 v)

/-! ### Tables and sluices (08: R248, R257; 09: R310, R316 to R318) -/

/-- TABLE_DESCRIPTOR_WRITE: bytes of the descriptor that table_select names (0x6001.02). -/
def execTableDescriptorWrite (acc offset : Nat) (bytes : List Byte) (s : State) : Host.Outcome State Fault Refusal :=
  .next (s.dictWrite acc 0x6001 2 offset bytes)

/-- HOT_LIST_READ: the hot list of the slot that hot_select names (0x6002.02). -/
def execHotListRead (acc : Nat) (s : State) : Host.Outcome State Fault Refusal := .next (s.wholeRead acc 0x6002 2)

/-- MAPOUT_ADD: mapout_add (0x6003.02). -/
def execMapoutAdd (acc v : Nat) (s : State) : Host.Outcome State Fault Refusal := .next (s.scalarWrite acc 0x6003 2 v)

/-- MAPOUT_REMOVE: mapout_remove (0x6003.03). -/
def execMapoutRemove (acc v : Nat) (s : State) : Host.Outcome State Fault Refusal := .next (s.scalarWrite acc 0x6003 3 v)

/-- STEP_CLOSE_WRITE: step_close (0x6810.02). -/
def execStepCloseWrite (acc v : Nat) (s : State) : Host.Outcome State Fault Refusal := .next (s.scalarWrite acc 0x6810 2 v)

/-- SLUICE_BEGIN: sluice_begin (0x1110.01). -/
def execSluiceBegin (acc v : Nat) (s : State) : Host.Outcome State Fault Refusal := .next (s.scalarWrite acc 0x1110 1 v)

/-- SLUICE_COMMIT: sluice_commit (0x1110.02). -/
def execSluiceCommit (acc v : Nat) (s : State) : Host.Outcome State Fault Refusal := .next (s.scalarWrite acc 0x1110 2 v)

/-- SLUICE_ABORT: sluice_abort (0x1110.03). -/
def execSluiceAbort (acc v : Nat) (s : State) : Host.Outcome State Fault Refusal := .next (s.scalarWrite acc 0x1110 3 v)

/-! ### Memory repair, map-out, the repair port (10: R343 to R354) -/

/-- ROW_REPAIR: repair_op 1 (0x3100.02). -/
def execRowRepair (acc : Nat) (s : State) : Host.Outcome State Fault Refusal := .next (s.scalarWrite acc 0x3100 2 1)

/-- PAGE_REMAP: repair_op 2. -/
def execPageRemap (acc : Nat) (s : State) : Host.Outcome State Fault Refusal := .next (s.scalarWrite acc 0x3100 2 2)

/-- QUERY_SPARES: repair_op 3. -/
def execQuerySpares (acc : Nat) (s : State) : Host.Outcome State Fault Refusal := .next (s.scalarWrite acc 0x3100 2 3)

/-- CLEAR_SUSPECT: repair_op 4. -/
def execClearSuspect (acc : Nat) (s : State) : Host.Outcome State Fault Refusal := .next (s.scalarWrite acc 0x3100 2 4)

/-- PLAN: mapout_op 1 (0x3200.04). -/
def execPlan (acc : Nat) (s : State) : Host.Outcome State Fault Refusal := .next (s.scalarWrite acc 0x3200 4 1)

/-- START: mapout_op 2. -/
def execStart (acc : Nat) (s : State) : Host.Outcome State Fault Refusal := .next (s.scalarWrite acc 0x3200 4 2)

/-- CANCEL: mapout_op 3. -/
def execCancel (acc : Nat) (s : State) : Host.Outcome State Fault Refusal := .next (s.scalarWrite acc 0x3200 4 3)

/-- PORT_DR_WRITE: port_dr (0x3300.04); out is the bytes that the stack shifts out. -/
def execPortDrWrite (acc offset : Nat) (bytes : List Byte) (s : State) : Host.Outcome State Fault Refusal :=
  .next (s.dictWrite acc 0x3300 4 offset bytes)

/-! ### Fabric, partitions, accounts (11: R359, R361; 12: R389, R390, R417) -/

/-- LINK_ENABLE_WRITE: link_enable (0x8000.02). -/
def execLinkEnableWrite (acc v : Nat) (s : State) : Host.Outcome State Fault Refusal := .next (s.scalarWrite acc 0x8000 2 v)

/-- ROUTE_TABLE_WRITE: bytes of the routing table (0x8040.01). -/
def execRouteTableWrite (acc offset : Nat) (bytes : List Byte) (s : State) : Host.Outcome State Fault Refusal :=
  .next (s.dictWrite acc 0x8040 1 offset bytes)

/-- PARTITION_CREATE: partition_select and partition_op 1 (0x7001). -/
def execPartitionCreate (acc part : Nat) (s : State) : Host.Outcome State Fault Refusal :=
  .next ((s.scalarWrite acc 0x7001 1 part).scalarWrite acc 0x7001 2 1)

/-- TEARDOWN: partition_select and partition_op 2. -/
def execTeardown (acc part : Nat) (s : State) : Host.Outcome State Fault Refusal :=
  .next ((s.scalarWrite acc 0x7001 1 part).scalarWrite acc 0x7001 2 2)

/-- SNAPSHOT: the account that a write to 0x7800.01 names. -/
def execSnapshot (acc account : Nat) (s : State) : Host.Outcome State Fault Refusal := .next (s.scalarWrite acc 0x7800 1 account)

/-! ### Queues and events (13: R426, R449) -/

/-- QUEUE_ENABLE: enable of a queue pair (0xB100 + 16f + q .08). -/
def execQueueEnable (acc fn q v : Nat) (s : State) : Host.Outcome State Fault Refusal :=
  .next (s.scalarWrite acc (0xB100 + 16 * fn + q) 8 v)

/-- EVENT_ENTRIES_WRITE: event_entries (0xB010 + f .02). -/
def execEventEntriesWrite (acc fn v : Nat) (s : State) : Host.Outcome State Fault Refusal := .next (s.scalarWrite acc (0xB010 + fn) 2 v)

/-! ### Service operations and injection (14: R456 to R466, R470) -/

/-- ROTATE: service_op 1 (0xA000.02). -/
def execRotate (acc : Nat) (s : State) : Host.Outcome State Fault Refusal := .next (s.scalarWrite acc 0xA000 2 1)

/-- REPLACE: service_op 2. -/
def execReplace (acc : Nat) (s : State) : Host.Outcome State Fault Refusal := .next (s.scalarWrite acc 0xA000 2 2)

/-- SERVICE_SELFTEST: service_op 3. -/
def execServiceSelftest (acc : Nat) (s : State) : Host.Outcome State Fault Refusal := .next (s.scalarWrite acc 0xA000 2 3)

/-- RETIRE: service_op 4. -/
def execRetire (acc : Nat) (s : State) : Host.Outcome State Fault Refusal := .next (s.scalarWrite acc 0xA000 2 4)

/-- CLEAR_FUSE: service_op 5. -/
def execClearFuse (acc : Nat) (s : State) : Host.Outcome State Fault Refusal := .next (s.scalarWrite acc 0xA000 2 5)

/-- DMC_SWITCH: service_op 6. -/
def execDmcSwitch (acc : Nat) (s : State) : Host.Outcome State Fault Refusal := .next (s.scalarWrite acc 0xA000 2 6)

/-- ACTIVATE_FW: service_op 7; compatible: every component works with the running ones (R465). -/
def execActivateFw (acc : Nat) (compatible : Bool) (s : State) : Host.Outcome State Fault Refusal :=
  .next (s.scalarWrite acc 0xA000 2 7 { Env.none with compatible := some compatible })

/-- INJECT_ARM: the injection entry of a detector (.03). -/
def execInjectArm (acc det v : Nat) (s : State) : Host.Outcome State Fault Refusal := .next (s.scalarWrite acc det 3 v)

/-! ### Any entry (13: R439 to R443) -/

/-- The registers of a mailbox for an access: DICT_ADDR, DICT_OFFSET, and the data of a write. A mailbox whose access is in
progress ignores them. -/
def State.setMailboxRegs (s : State) (acc idx sub offset : Nat) (data : Option (List Byte)) : State :=
  if s.dictBusy acc then s
  else
    let m := s.mailbox acc
    let m := { m with addr := 256 * idx + sub, offset := offset }
    s.setMailbox acc (match data with
      | some d => { m with data := d }
      | none => m)

/-- DICT_CTRL_READ: go = 1 with op 1 in the mailbox of a function. -/
def execDictCtrlRead (fn idx sub offset len : Nat) (s : State) : Host.Outcome State Fault Refusal :=
  .next (
    let s := s.setMailboxRegs fn idx sub offset none
    if badLength len 4096 then s.answerFree fn else s.dictRead fn idx sub offset len)

/-- DICT_CTRL_WRITE: go = 1 with op 2. -/
def execDictCtrlWrite (fn idx sub offset : Nat) (bytes : List Byte) (s : State) : Host.Outcome State Fault Refusal :=
  .next (
    let s := s.setMailboxRegs fn idx sub offset (some bytes)
    if badLength bytes.length 4096 then s.answerFree fn else s.dictWrite fn idx sub offset bytes)

/-- DICTIONARY_WRITE: a write to any entry by an accessor. -/
def execDictionaryWrite (acc idx sub offset : Nat) (bytes : List Byte) (s : State) : Host.Outcome State Fault Refusal :=
  .next (s.dictWrite acc idx sub offset bytes)

/-- RC_READ: a read of a whole RC entry. -/
def execRcRead (acc idx sub : Nat) (s : State) : Host.Outcome State Fault Refusal := .next (s.wholeRead acc idx sub)

/-- A fabric peer may read an entry (R385). -/
def peerReads (idx : Nat) : Bool := (0x1000 ≤ idx && idx < 0x1100) || (0x8000 ≤ idx && idx < 0x9000)

/-- DICT_READ: a peer reads the value of an entry as of P, by index · 256 + subindex. -/
def execDictRead (m : FabMsg) (s : State) : Host.Outcome State Fault Refusal :=
  .next (
    let s := s.consumeMsg m
    let idx := m.addr / 256
    let sub := m.addr % 256
    if !peerReads idx then (s.bump 0x1100 2 1).refuseMsg m 0x0F 3
    else match dictFind idx sub with
      | none => s.refuseMsg m 0x0F 1
      | some r =>
        if r.acc = .wo then (s.bump 0x1100 2 1).refuseMsg m 0x0F 3
        else s.send { m.reply s.me 0x0F 0 with data := s.valueBytes 0 idx sub } .none)

end Sys2Proof.Machine
end

