-- ==== Sys2Proof/Machine/DieStop.lean ====
section
/-! DEFINITION. The thermal stop of a die, and how the other die goes on (01: R42; 09: R306; 14: R463). -/

namespace Sys2Proof.Machine

/-- The job has an invocation on a context of a die. -/
def State.jobOn (s : State) (d : Nat) (j : Job) : Bool := j.invs.any fun i => (s.ctx i.ctx).core / 32 = d

/-- The decision of a group has not been latched. -/
def State.open? (s : State) (x : Group) : Bool :=
  x.phase ≠ .marking && match x.job?.bind s.job? with
    | some j => j.decision.isNone
    | none => true

/-- Die d issues the group, or holds a part of it. -/
def State.touches (s : State) (d : Nat) (x : Group) : Bool := x.die = d || (s.partsOf x).contains d

/-- Jobs that end with the stop of a die: those with an invocation there, and those with an undecided group there. -/
def State.jobsLost (s : State) (d : Nat) : List Nat :=
  let mine := ((s.sl.groups.filter fun x => s.open? x && s.touches d x).filterMap fun x => x.job?)
  (s.jobs.filter fun j => s.jobOn d j || (j.decision.isNone && mine.contains j.id)).map fun j => j.id

/-- Undecided groups of no job that end with the stop of a die. -/
def State.groupsLost (s : State) (d : Nat) : List Group :=
  s.sl.groups.filter fun x => x.job?.isNone && s.open? x && s.touches d x

/-- A group that takes no effect on either die ends ABORTED, and its command with it (R42, R306). -/
def State.loseGroup (s : State) (x : Group) : State :=
  let t := s.discardGroup x.id
  let t := match x.issuer with
    | .dict acc => (if (t.sluiceOpen acc).isSome then t.endSluice acc 6 else t).dictReply acc drRange
    | .sluice acc => t.endSluice acc 6
    | .stream n => match (t.batches n).find? fun b => b.own = x.id with
      | some b => t.abortJob b.job 5
      | none => t
    | _ => t
  match x.after with
  | some r => t.produce { r with status := stAborted, result := 0 }
  | none => t

/-- What the stopped die's write set, drains and pins held is lost with them (R306). -/
def State.loseSluice (s : State) (d : Nat) : State :=
  { s with sl := { s.sl with
      versions := s.sl.versions.set d [], blocks := s.sl.blocks.set d [], waits := s.sl.waits.set d [],
      accums := s.sl.accums.set d [], drain := s.sl.drain.set d none, later := [],
      pins := s.sl.pins.filter fun q => q.1 / 4096 ≠ d } }

/-- Marks that die 1 holds: of its versions, of items that wait for P there, and of table descriptors, directory entries and mapped-out
pages. -/
def State.marksHeld (s : State) : List Nat :=
  s.sl.versions.d1.filterMap (fun v => v.mark) ++ s.sl.later.map (fun q => q.1) ++ s.tab.desc.flatMap (fun q => q.2.map fun x => x.1)
    ++ s.tab.dir.d1.flatMap (fun e => e.since :: e.gone.toList) ++ s.tab.mapped.flatMap fun x => x.since :: x.gone.toList

/-- Die 1 keeps the marks: it goes on from the highest mark that it has received (R463). -/
def State.takeKeeper (s : State) : State :=
  let m := s.marksHeld.foldl (fun m x => if x ≠ 0 && markLt m x then x else m) s.sl.p.d1
  { s with sl := { s.sl with lastMark := m, p := { s.sl.p with d1 := m } } }

/-- The cores of the die are STOPPED (R463). -/
def State.stopCores (s : State) (d : Nat) : State :=
  (List.range 36).foldl (fun (s : State) k =>
    let p := 36 * d + k
    let s := s.setReg (0xA100 + p) 1 5
    s.modCsq p fun q => if q.phase = .run then { q with phase := .hold } else q) s

/-- The host link of the die is down, and its roles go to the other link where that is up (R422). -/
def State.stopHostLink (s : State) (d : Nat) : State :=
  if s.hostLinkState d ≠ 2 then s
  else
    let s := ((s.setReg 0xB000 (1 + d) 0).setReg 0xB000 (3 + d) 0).setReg 0xB000 (5 + d) 0
    let s := (s.linkEvent 0 d).setCause 4 true
    if s.hostLinkState (1 - d) = 2 then s.failover d 0 false else s

/-- A hand-over or a test of a core of the die ends with the status failed. -/
def State.stopService (s : State) (d : Nat) : State :=
  let s := match s.av.handover with
    | some h => if h.target / 36 = d then State.serviceStatus { s with av := { s.av with handover := none } } 6 else s
    | none => s
  let s := match s.av.serviceTest with
    | some p => if p / 36 = d then State.serviceStatus { s with av := { s.av with serviceTest := none } } 6 else s
    | none => s
  { s with av := { s.av with testing := s.av.testing.filter fun p => p / 36 ≠ d } }

/-- Stop a die while the other one runs. -/
def State.stopDie (s : State) (d : Nat) : State :=
  let jobs := s.jobsLost d
  let groups := s.groupsLost d
  let s := { s with top := { s.top with stopped := s.top.stopped.set d true } }
  let s := (s.stopCores d).stopService d
  let s := if d = 0 then s.takeKeeper.takeLater else s
  let s := jobs.foldl (fun (s : State) j => s.abortJob j 5) s
  let s := groups.foldl (fun (s : State) x => s.loseGroup x) s
  let s := s.loseSluice d
  let s := (List.range 12).foldl (fun (s : State) k => s.linkDown (12 * d + k)) s
  let s := ((s.stopHostLink d).setCause 6 true).judgeCores
  (State.prune s).settleOps.tearSettle.mctpPump

/-- THERMAL_STOP: a junction sensor at 110 °C or more, or the case of an optical engine at 90 °C or more, by its reading in
thousandths of a degree; once both dies have stopped, the module returns to RESET with the record kept (R42, R473). -/
def execThermalStop (d : Nat) (optics : Bool) (_sensor reading : Nat) (s : State) : Host.Outcome State Fault Refusal :=
  .next (
    if 1 < d || s.top.stopped.get d || s.reg 0x2100 1 = 0 || reading < (if optics then 90000 else 110000) then s
    else
      let s := s.dieStopRecord d 1
      if s.top.stopped.get (1 - d) then
        let ev : Rec := BitVec.ofNat 256 (leNat (s.blob 0x9016 2))
        (State.moduleReset { s with av := { s.av with dieStop := some ev } } 4).setReg 0x9000 3 1
      else s.stopDie d)

end Sys2Proof.Machine
end

