-- ==== Sys2Proof/Machine/Management.lean ====
section
/-! DEFINITION. The management endpoint: I3C, MCTP and PLDM, and the host's writes of the configuration space (13: R420, R438,
R444 to R446). -/

namespace Sys2Proof.Machine

/-! ### MCTP control commands (R444; the codes are those of the standard, log entry 5) -/

/-- The response to an MCTP control command: message type 0, the command, the completion code, and what follows. -/
def mctpControl (cmd code : Nat) (l : List Byte) : List Byte := [0, BitVec.ofNat 8 cmd, BitVec.ofNat 8 code] ++ l

/-- A response to management: none before the active DMC serves the endpoint. -/
def State.answerMgmt (s : State) (l : List Byte) : State := if s.served then s.respond l else s

/-- ENTDAA: a target without a dynamic address takes the one offered. -/
def execEntdaa (addr : Nat) (s : State) : Host.Outcome State Fault Refusal :=
  .next (if s.served && s.mgmt.addr.isNone then { s with mgmt := { s.mgmt with addr := some (addr % 128) } } else s)

/-- The endpoint takes an identifier: set or force, of one that names an endpoint. -/
def setsEid (op eid : Nat) : Bool := op < 2 && 8 ≤ eid && eid < 255

/-- SET_ENDPOINT_ID: set (0) and force (1) store the identifier; the other operations are answered with invalid data. -/
def execSetEndpointId (op eid : Nat) (s : State) : Host.Outcome State Fault Refusal :=
  .next (
    if !s.served then s
    else if setsEid op eid then
      State.respond { s with mgmt := { s.mgmt with eid := eid } } (mctpControl 1 0 [0, BitVec.ofNat 8 eid, 0])
    else s.respond (mctpControl 1 2 []))

/-- GET_ENDPOINT_ID: a simple endpoint with a dynamic identifier. -/
def execGetEndpointId (s : State) : Host.Outcome State Fault Refusal :=
  .next (s.answerMgmt (mctpControl 2 0 [BitVec.ofNat 8 s.mgmt.eid, 0, 0]))

/-- Message types that the endpoint carries: PLDM and the vendor-defined PCI messages (R445, R446). -/
def mctpTypes : List Nat := [0x01, 0x7E]

/-- GET_MCTP_VERSION_SUPPORT: of the base specification (0xFF), the control messages (0) and the types carried. -/
def execGetMctpVersionSupport (ty : Nat) (s : State) : Host.Outcome State Fault Refusal :=
  .next (s.answerMgmt (
    if ty = 0xFF || ty = 0 || mctpTypes.contains ty then mctpControl 4 0 (Config.mctpVersions ty) else mctpControl 4 0x80 []))

/-- GET_MESSAGE_TYPE_SUPPORT. -/
def execGetMessageTypeSupport (s : State) : Host.Outcome State Fault Refusal :=
  .next (s.answerMgmt (mctpControl 5 0 (BitVec.ofNat 8 mctpTypes.length :: mctpTypes.map fun t => BitVec.ofNat 8 t)))

/-- GET_VENDOR_DEFINED_MESSAGE_SUPPORT: one set, of the PCI vendor identifier 0x1FD7. -/
def execGetVendorDefinedMessageSupport (sel : Nat) (s : State) : Host.Outcome State Fault Refusal :=
  .next (s.answerMgmt (if sel = 0 then mctpControl 6 0 [0xFF, 0, 0x1F, 0xD7, 0, 0] else mctpControl 6 2 []))

/-! ### Dictionary access (R445) -/

/-- A request joins those that wait, and is served in its turn. -/
def State.mctpTake (s : State) (r : MctpReq) : State :=
  if s.served then State.mctpPump { s with mgmt := { s.mgmt with queue := s.mgmt.queue ++ [r] } } else s

/-- MCTP_READ. -/
def execMctpRead (req idx sub offset len : Nat) (s : State) : Host.Outcome State Fault Refusal :=
  .next (s.mctpTake ⟨req, idx, sub, offset, len, none⟩)

/-- MCTP_WRITE: a message beyond the 1,100 bytes that the endpoint reassembles is not one (R444). -/
def execMctpWrite (req idx sub offset : Nat) (bytes : List Byte) (s : State) : Host.Outcome State Fault Refusal :=
  .next (if 1086 < bytes.length then s else s.mctpTake ⟨req, idx, sub, offset, bytes.length, some bytes⟩)

/-! ### PLDM (R446) -/

/-- The PLDM types that the module supports, 0, 2 and 5, as a bit for each (R446). -/
def pldmTypes : List Byte := [0x25, 0, 0, 0, 0, 0, 0, 0]

/-- PLDM_BASE_REQUEST, from its command code on: Get PLDM Types (0x04) names the types supported, and the other responses are those
that DSP0240 defines (log entry 12). A message beyond the 1,100 bytes that the endpoint reassembles is not one (R444). -/
def execPldmBaseRequest (bytes : List Byte) (s : State) : Host.Outcome State Fault Refusal :=
  .next (if 1097 < bytes.length then s
    else s.answerMgmt (if bytes.head? = some 4 then [1, 0, 0] ++ pldmTypes else Config.pldmBase bytes))

/-- The numeric sensors are the entries of 0x2010 by subindex; the one after them is the state sensor. -/
def stateSensor : Nat := 9

/-- What a sensor reports: the value of its entry, or the device state and the DEGRADED flag. -/
def State.sensorBytes (s : State) (sensor : Nat) : Option (List Byte) :=
  if sensor = stateSensor then some (leBytes 1 (s.shownScalar 17 0x1200 1) ++ leBytes 1 (s.shownScalar 17 0x1200 2))
  else if 1 ≤ sensor && sensor < stateSensor then some (s.valueBytes 17 0x2010 sensor)
  else none

/-- PLDM_PLATFORM_REQUEST: MCTP type 1, PLDM type 2, the completion code, and the reading. -/
def execPldmPlatformRequest (sensor : Nat) (s : State) : Host.Outcome State Fault Refusal :=
  .next (s.answerMgmt (match s.sensorBytes sensor with
    | some l => [1, 2, 0] ++ l
    | none => [1, 2, 0x80]))

/-! ### The configuration space (R420, R438) -/

/-- A vector is masked, or unmasked: a pending message is then sent. -/
def State.maskVector (s : State) (fn v : Nat) (masked : Bool) : State :=
  let put (m : Nat) : Nat := if masked then maskSet m v else maskClear m v
  State.sendPending { s with host := { s.host with
    msixMask := SMap.set msixReset s.host.msixMask fn (put (SMap.get msixReset s.host.msixMask fn)) } } fn

/-- A write of the SR-IOV control, which is that of both links (R420). -/
def HostIf.sriov (h : HostIf) : CfgWrite → HostIf
  | .vfEnable on => { h with vfEnable := on }
  | .numVfs n => { h with numVfs := n }
  | _ => h

/-- A write of a function's own registers: the PCI Express and AER capabilities, its BAR0 and its bus on a link, and the addresses and
data of its MSI-X table (R419, R420, R424, R493). -/
def HostIf.config (h : HostIf) : CfgWrite → HostIf
  | .completionTimeout v => { h with completionTimeout := v }
  | .aer fn r v => { h with aer := SMap.set 0 h.aer (64 * fn + r % 64) (v % 2 ^ 32) }
  | .bus l n => { h with buses := SMap.set 0 h.buses l (n % 256) }
  | .bar l fn a => { h with bars := SMap.set 0 h.bars (32 * l + fn % 32) (a / 65536 % 2 ^ 48 * 65536) }
  | .msixEntry fn v a d =>
    if fn < 17 && v < 17 then { h with msixTable := SMap.set (0, 0) h.msixTable (32 * fn + v) (a % 2 ^ 64, d % 2 ^ 32) } else h
  | _ => h

/-- CONFIGURATION_WRITE: a write of the SR-IOV control of either PF applies to both links; before the dictionary is served it is answered
with Request Retry Status, and has no effect (R420, R479). A function whose MSI-X is enabled, or which returns to D0, sends its pending
messages. -/
def execConfigurationWrite (o : CfgWrite) (s : State) : Host.Outcome State Fault Refusal :=
  .next (if !s.served then s else match o with
    | .vfEnable _ => { s with host := s.host.sriov o }
    | .numVfs _ => { s with host := s.host.sriov o }
    | .completionTimeout _ => { s with host := s.host.config o }
    | .aer _ _ _ => { s with host := s.host.config o }
    | .bus _ _ => { s with host := s.host.config o }
    | .bar _ _ _ => { s with host := s.host.config o }
    | .msixEntry _ _ _ _ => { s with host := s.host.config o }
    | .msixControl fn on masked =>
      if fn < 17 then
        State.sendPending { s with host := { s.host with
          msixCtl := SMap.set 0 s.host.msixCtl fn (boolNat on + 2 * boolNat masked) } } fn
      else s
    | .powerState fn d3 =>
      if fn < 17 then
        State.sendPending { s with host := { s.host with
          d3hot := if d3 then maskSet s.host.d3hot fn else maskClear s.host.d3hot fn } } fn
      else s
    | .msixMask fn v masked => if fn < 17 && v < 17 then s.maskVector fn v masked else s)

end Sys2Proof.Machine
end

