-- ==== Sys2Proof/Machine/Dispatch.lean ====
section
/-! DEFINITION. One arm for each command: its meaning, on everything but the queue. -/

namespace Sys2Proof.Machine

/-- The effect of a command. -/
def exec (i : Instr) (s : State) : Host.Outcome State Fault Refusal :=
  match i with
  | .sysResetAssert => Sys2Proof.Machine.execSysResetAssert s
  | .sysResetRelease o => Sys2Proof.Machine.execSysResetRelease o s
  | .pwrGoodFall => Sys2Proof.Machine.execPwrGoodFall s
  | .pllLossOfLock => Sys2Proof.Machine.execPllLossOfLock s
  | .thermalStop die optics sensor reading => Sys2Proof.Machine.execThermalStop die optics sensor reading s
  | .resetComplete => Sys2Proof.Machine.execResetComplete s
  | .selftestCompleteAll o => Sys2Proof.Machine.execSelftestCompleteAll o s
  | .rangeTrained range failed => Sys2Proof.Machine.execRangeTrained range failed s
  | .trainingZeroFill => Sys2Proof.Machine.execTrainingZeroFill s
  | .opticsCalibrated engine failTx failRx => Sys2Proof.Machine.execOpticsCalibrated engine failTx failRx s
  | .readyEntry => Sys2Proof.Machine.execReadyEntry s
  | .holdPointWrite acc v => Sys2Proof.Machine.execHoldPointWrite acc v s
  | .serve acc => Sys2Proof.Machine.execServe acc s
  | .quiesce acc => Sys2Proof.Machine.execQuiesce acc s
  | .permitRequest die n => Sys2Proof.Machine.execPermitRequest die n s
  | .loanRequest die => Sys2Proof.Machine.execLoanRequest die s
  | .loanReply die => Sys2Proof.Machine.execLoanReply die s
  | .loanRetry die => Sys2Proof.Machine.execLoanRetry die s
  | .permitReturn die n => Sys2Proof.Machine.execPermitReturn die n s
  | .permitTimeout die => Sys2Proof.Machine.execPermitTimeout die s
  | .governorWindowEnd o => Sys2Proof.Machine.execGovernorWindowEnd o s
  | .packageBudgetWrite acc v => Sys2Proof.Machine.execPackageBudgetWrite acc v s
  | .powerSample mw => Sys2Proof.Machine.execPowerSample mw s
  | .overBudget => Sys2Proof.Machine.execOverBudget s
  | .overBudgetClear => Sys2Proof.Machine.execOverBudgetClear s
  | .engineGate core engine => Sys2Proof.Machine.execEngineGate core engine s
  | .bankRetention core bank => Sys2Proof.Machine.execBankRetention core bank s
  | .sliceRetention die slice => Sys2Proof.Machine.execSliceRetention die slice s
  | .segmentLookahead core => Sys2Proof.Machine.execSegmentLookahead core s
  | .segmentStart core up => Sys2Proof.Machine.execSegmentStart core up s
  | .segmentEnd core => Sys2Proof.Machine.execSegmentEnd core s
  | .syncPoint core => Sys2Proof.Machine.execSyncPoint core s
  | .spanRetry core => Sys2Proof.Machine.execSpanRetry core s
  | .mxeTile core up => Sys2Proof.Machine.execMxeTile core up s
  | .gtuLstm core up => Sys2Proof.Machine.execGtuLstm core up s
  | .gtuGru core up => Sys2Proof.Machine.execGtuGru core up s
  | .gtuMguPhaseA core up => Sys2Proof.Machine.execGtuMguPhaseA core up s
  | .gtuMguPhaseB core up => Sys2Proof.Machine.execGtuMguPhaseB core up s
  | .gtuSru core up => Sys2Proof.Machine.execGtuSru core up s
  | .gtuGateProgram core up => Sys2Proof.Machine.execGtuGateProgram core up s
  | .gtuIntake core up => Sys2Proof.Machine.execGtuIntake core up s
  | .vxePass core up => Sys2Proof.Machine.execVxePass core up s
  | .gxeLookup core up => Sys2Proof.Machine.execGxeLookup core up s
  | .gxeScatter core up => Sys2Proof.Machine.execGxeScatter core up s
  | .gxeRowReadReturn core thread up ue => Sys2Proof.Machine.execGxeRowReadReturn core thread up ue s
  | .scatterAck core thread up => Sys2Proof.Machine.execScatterAck core thread up s
  | .scatterSendResume core => Sys2Proof.Machine.execScatterSendResume core s
  | .dmvCopy core up ue => Sys2Proof.Machine.execDmvCopy core up ue s
  | .dmvZeroFill core up ue => Sys2Proof.Machine.execDmvZeroFill core up ue s
  | .mxImport core up ue => Sys2Proof.Machine.execMxImport core up ue s
  | .dmvChainStart core up ue => Sys2Proof.Machine.execDmvChainStart core up ue s
  | .dmvDescriptorComplete core k => Sys2Proof.Machine.execDmvDescriptorComplete core k s
  | .scrubWriteBack core => Sys2Proof.Machine.execScrubWriteBack core s
  | .patrolScrub core up => Sys2Proof.Machine.execPatrolScrub core up s
  | .bindingComplete ctx ue => Sys2Proof.Machine.execBindingComplete ctx ue s
  | .zeroFillComplete ctx => Sys2Proof.Machine.execZeroFillComplete ctx s
  | .streamCreate fn q => Sys2Proof.Machine.execStreamCreate fn q s
  | .streamReset fn q => Sys2Proof.Machine.execStreamReset fn q s
  | .move fn q => Sys2Proof.Machine.execMove fn q s
  | .moveCopyComplete stream ue => Sys2Proof.Machine.execMoveCopyComplete stream ue s
  | .stSet fn q => Sys2Proof.Machine.execStSet fn q s
  | .resume fn q => Sys2Proof.Machine.execResume fn q s
  | .delete fn q => Sys2Proof.Machine.execDelete fn q s
  | .streamCommandResume stream => Sys2Proof.Machine.execStreamCommandResume stream s
  | .chunkDescriptor fn q => Sys2Proof.Machine.execChunkDescriptor fn q s
  | .featureFrame stream => Sys2Proof.Machine.execFeatureFrame stream s
  | .batchWindowExpiry stack ue => Sys2Proof.Machine.execBatchWindowExpiry stack ue s
  | .batchForm stack ue => Sys2Proof.Machine.execBatchForm stack ue s
  | .exchangeRowAccess core up ue => Sys2Proof.Machine.execExchangeRowAccess core up ue s
  | .batchCommit stack => Sys2Proof.Machine.execBatchCommit stack s
  | .deadlineMiss stream => Sys2Proof.Machine.execDeadlineMiss stream s
  | .stackEnableWrite acc stack v => Sys2Proof.Machine.execStackEnableWrite acc stack v s
  | .outHeadWrite acc stack v => Sys2Proof.Machine.execOutHeadWrite acc stack v s
  | .outRingConfigWrite acc stack sub v => Sys2Proof.Machine.execOutRingConfigWrite acc stack sub v s
  | .sampleTick domain => Sys2Proof.Machine.execSampleTick domain s
  | .frameTick domain => Sys2Proof.Machine.execFrameTick domain s
  | .domainStopRequest acc domain => Sys2Proof.Machine.execDomainStopRequest acc domain s
  | .domainArmPps acc domain => Sys2Proof.Machine.execDomainArmPps acc domain s
  | .domainArmAt acc domain => Sys2Proof.Machine.execDomainArmAt acc domain s
  | .domainStartAt domain => Sys2Proof.Machine.execDomainStartAt domain s
  | .ppsEdge high => Sys2Proof.Machine.execPpsEdge high s
  | .ppsLoss => Sys2Proof.Machine.execPpsLoss s
  | .sharedTickWrite acc v => Sys2Proof.Machine.execSharedTickWrite acc v s
  | .ingressTailWrite part die v cells => Sys2Proof.Machine.execIngressTailWrite part die v cells s
  | .ingressEntry part die ue => Sys2Proof.Machine.execIngressEntry part die ue s
  | .streamFrameTick stream => Sys2Proof.Machine.execStreamFrameTick stream s
  | .stopTimeout stream => Sys2Proof.Machine.execStopTimeout stream s
  | .intakeStateWriteback stream => Sys2Proof.Machine.execIntakeStateWriteback stream s
  | .egressHeadWrite part die v => Sys2Proof.Machine.execEgressHeadWrite part die v s
  | .tableDescriptorWrite acc offset bytes => Sys2Proof.Machine.execTableDescriptorWrite acc offset bytes s
  | .sketchDecay => Sys2Proof.Machine.execSketchDecay s
  | .hotListRead acc => Sys2Proof.Machine.execHotListRead acc s
  | .mapoutAdd acc v => Sys2Proof.Machine.execMapoutAdd acc v s
  | .mapoutRemove acc v => Sys2Proof.Machine.execMapoutRemove acc v s
  | .promote fn q ue => Sys2Proof.Machine.execPromote fn q ue s
  | .demote fn q => Sys2Proof.Machine.execDemote fn q s
  | .migrate fn q ue => Sys2Proof.Machine.execMigrate fn q ue s
  | .unmigrate fn q ue => Sys2Proof.Machine.execUnmigrate fn q ue s
  | .applyWindow job ue => Sys2Proof.Machine.execApplyWindow job ue s
  | .jobFinalCommit job => Sys2Proof.Machine.execJobFinalCommit job s
  | .prepare group => Sys2Proof.Machine.execPrepare group s
  | .prepareAnswer group => Sys2Proof.Machine.execPrepareAnswer group s
  | .markRequest group => Sys2Proof.Machine.execMarkRequest group s
  | .publishedMarkUpdate => Sys2Proof.Machine.execPublishedMarkUpdate s
  | .oldestPinExchange => Sys2Proof.Machine.execOldestPinExchange s
  | .pin fn q => Sys2Proof.Machine.execPin fn q s
  | .unpin fn q => Sys2Proof.Machine.execUnpin fn q s
  | .mark fn q => Sys2Proof.Machine.execMark fn q s
  | .drain die => Sys2Proof.Machine.execDrain die s
  | .stagingResume die => Sys2Proof.Machine.execStagingResume die s
  | .parcel m => Sys2Proof.Machine.execParcel m s
  | .parcelAck m up => Sys2Proof.Machine.execParcelAck m up s
  | .verdict m => Sys2Proof.Machine.execVerdict m s
  | .closedStep m => Sys2Proof.Machine.execClosedStep m s
  | .withdraw m => Sys2Proof.Machine.execWithdraw m s
  | .turnApply table ue => Sys2Proof.Machine.execTurnApply table ue s
  | .stepTimeout module => Sys2Proof.Machine.execStepTimeout module s
  | .stepCloseWrite acc v => Sys2Proof.Machine.execStepCloseWrite acc v s
  | .refresh m => Sys2Proof.Machine.execRefresh m s
  | .replicaInstall m => Sys2Proof.Machine.execReplicaInstall m s
  | .replicaRemove m => Sys2Proof.Machine.execReplicaRemove m s
  | .audit table row => Sys2Proof.Machine.execAudit table row s
  | .sluiceBegin acc v => Sys2Proof.Machine.execSluiceBegin acc v s
  | .sluiceCommit acc v => Sys2Proof.Machine.execSluiceCommit acc v s
  | .sluiceAbort acc v => Sys2Proof.Machine.execSluiceAbort acc v s
  | .dictSluiceTimeout acc => Sys2Proof.Machine.execDictSluiceTimeout acc s
  | .channelPowerDown range channel => Sys2Proof.Machine.execChannelPowerDown range channel s
  | .memoryRequest range channel check => Sys2Proof.Machine.execMemoryRequest range channel check s
  | .wcbAgeExpiry range line => Sys2Proof.Machine.execWcbAgeExpiry range line s
  | .memoryPatrol range unit => Sys2Proof.Machine.execMemoryPatrol range unit s
  | .rowRepair acc => Sys2Proof.Machine.execRowRepair acc s
  | .rowRepairComplete lost => Sys2Proof.Machine.execRowRepairComplete lost s
  | .pageRemap acc => Sys2Proof.Machine.execPageRemap acc s
  | .querySpares acc => Sys2Proof.Machine.execQuerySpares acc s
  | .clearSuspect acc => Sys2Proof.Machine.execClearSuspect acc s
  | .plan acc => Sys2Proof.Machine.execPlan acc s
  | .start acc => Sys2Proof.Machine.execStart acc s
  | .cancel acc => Sys2Proof.Machine.execCancel acc s
  | .reflowStep ue => Sys2Proof.Machine.execReflowStep ue s
  | .reflowDone => Sys2Proof.Machine.execReflowDone s
  | .portDrWrite acc offset bytes => Sys2Proof.Machine.execPortDrWrite acc offset bytes s
  | .hostReadTimeout fn q => Sys2Proof.Machine.execHostReadTimeout fn q s
  | .laneFail engine lane => Sys2Proof.Machine.execLaneFail engine lane s
  | .dataFlit engine f => Sys2Proof.Machine.execDataFlit engine f s
  | .controlFlit engine f => Sys2Proof.Machine.execControlFlit engine f s
  | .replayTimeout engine => Sys2Proof.Machine.execReplayTimeout engine s
  | .ackTimer engine => Sys2Proof.Machine.execAckTimer engine s
  | .ackProgressTimeout engine => Sys2Proof.Machine.execAckProgressTimeout engine s
  | .linkRetrain engine => Sys2Proof.Machine.execLinkRetrain engine s
  | .linkUp engine peer lanesOk => Sys2Proof.Machine.execLinkUp engine peer lanesOk s
  | .linkEnableWrite acc v => Sys2Proof.Machine.execLinkEnableWrite acc v s
  | .routeTableWrite acc offset bytes => Sys2Proof.Machine.execRouteTableWrite acc offset bytes s
  | .fabricTimeout id => Sys2Proof.Machine.execFabricTimeout id s
  | .linkReport engine seq => Sys2Proof.Machine.execLinkReport engine seq s
  | .rowRead m lost => Sys2Proof.Machine.execRowRead m lost s
  | .rowData m up => Sys2Proof.Machine.execRowData m up s
  | .read m lost => Sys2Proof.Machine.execRead m lost s
  | .write m => Sys2Proof.Machine.execWrite m s
  | .readData m up ue => Sys2Proof.Machine.execReadData m up ue s
  | .ack m up ue => Sys2Proof.Machine.execAck m up ue s
  | .dictRead m => Sys2Proof.Machine.execDictRead m s
  | .dictData m => Sys2Proof.Machine.execDictData m s
  | .partitionCreate acc part => Sys2Proof.Machine.execPartitionCreate acc part s
  | .teardown acc part => Sys2Proof.Machine.execTeardown acc part s
  | .contextCreate fn q => Sys2Proof.Machine.execContextCreate fn q s
  | .kill fn q => Sys2Proof.Machine.execKill fn q s
  | .swap fn q => Sys2Proof.Machine.execSwap fn q s
  | .switch fn q => Sys2Proof.Machine.execSwitch fn q s
  | .ctxExport fn q => Sys2Proof.Machine.execCtxExport fn q s
  | .ctxImport fn q => Sys2Proof.Machine.execCtxImport fn q s
  | .spillComplete ctx up => Sys2Proof.Machine.execSpillComplete ctx up s
  | .restoreComplete ctx ue => Sys2Proof.Machine.execRestoreComplete ctx ue s
  | .allBlocked core => Sys2Proof.Machine.execAllBlocked core s
  | .energyEstimate => Sys2Proof.Machine.execEnergyEstimate s
  | .energyCalibration => Sys2Proof.Machine.execEnergyCalibration s
  | .snapshot acc account => Sys2Proof.Machine.execSnapshot acc account s
  | .sqTailWrite fn q v cells => Sys2Proof.Machine.execSqTailWrite fn q v cells s
  | .cqHeadWrite fn q v => Sys2Proof.Machine.execCqHeadWrite fn q v s
  | .descriptorFetch fn q => Sys2Proof.Machine.execDescriptorFetch fn q s
  | .job fn q => Sys2Proof.Machine.execJob fn q s
  | .argumentLoad core ue => Sys2Proof.Machine.execArgumentLoad core ue s
  | .resultStore job up => Sys2Proof.Machine.execResultStore job up s
  | .jobAbort fn q => Sys2Proof.Machine.execJobAbort fn q s
  | .nop fn q => Sys2Proof.Machine.execNop fn q s
  | .completionRecordAccept die => Sys2Proof.Machine.execCompletionRecordAccept die s
  | .cqWrite fn q => Sys2Proof.Machine.execCqWrite fn q s
  | .coalesceTimeout fn q => Sys2Proof.Machine.execCoalesceTimeout fn q s
  | .queueEnable acc fn q v => Sys2Proof.Machine.execQueueEnable acc fn q v s
  | .hostLinkDown link reissued => Sys2Proof.Machine.execHostLinkDown link reissued s
  | .hostLinkUp link width rate => Sys2Proof.Machine.execHostLinkUp link width rate s
  | .hostErrorCompletion fn q => Sys2Proof.Machine.execHostErrorCompletion fn q s
  | .functionLevelReset fn => Sys2Proof.Machine.execFunctionLevelReset fn s
  | .dictCtrlRead fn idx sub offset len => Sys2Proof.Machine.execDictCtrlRead fn idx sub offset len s
  | .dictCtrlWrite fn idx sub offset bytes => Sys2Proof.Machine.execDictCtrlWrite fn idx sub offset bytes s
  | .dictionaryWrite acc idx sub offset bytes => Sys2Proof.Machine.execDictionaryWrite acc idx sub offset bytes s
  | .rcRead acc idx sub => Sys2Proof.Machine.execRcRead acc idx sub s
  | .eventEntriesWrite acc fn v => Sys2Proof.Machine.execEventEntriesWrite acc fn v s
  | .entdaa addr => Sys2Proof.Machine.execEntdaa addr s
  | .setEndpointId op eid => Sys2Proof.Machine.execSetEndpointId op eid s
  | .getEndpointId => Sys2Proof.Machine.execGetEndpointId s
  | .getMctpVersionSupport ty => Sys2Proof.Machine.execGetMctpVersionSupport ty s
  | .getMessageTypeSupport => Sys2Proof.Machine.execGetMessageTypeSupport s
  | .getVendorDefinedMessageSupport sel => Sys2Proof.Machine.execGetVendorDefinedMessageSupport sel s
  | .mctpRead req idx sub offset len => Sys2Proof.Machine.execMctpRead req idx sub offset len s
  | .mctpWrite req idx sub offset bytes => Sys2Proof.Machine.execMctpWrite req idx sub offset bytes s
  | .requestUpdate => Sys2Proof.Machine.execRequestUpdate s
  | .passComponentTable comps => Sys2Proof.Machine.execPassComponentTable comps s
  | .updateComponent comp => Sys2Proof.Machine.execUpdateComponent comp s
  | .transferComplete ok => Sys2Proof.Machine.execTransferComplete ok s
  | .verifyComplete ok => Sys2Proof.Machine.execVerifyComplete ok s
  | .applyComplete ok => Sys2Proof.Machine.execApplyComplete ok s
  | .activateFirmware compatible => Sys2Proof.Machine.execActivateFirmware compatible s
  | .rotate acc => Sys2Proof.Machine.execRotate acc s
  | .handoverComplete up => Sys2Proof.Machine.execHandoverComplete up s
  | .replace acc => Sys2Proof.Machine.execReplace acc s
  | .serviceSelftest acc => Sys2Proof.Machine.execServiceSelftest acc s
  | .retire acc => Sys2Proof.Machine.execRetire acc s
  | .clearFuse acc => Sys2Proof.Machine.execClearFuse acc s
  | .dmcSwitch acc => Sys2Proof.Machine.execDmcSwitch acc s
  | .activateFw acc compatible => Sys2Proof.Machine.execActivateFw acc compatible s
  | .coreSelftestComplete phys result words => Sys2Proof.Machine.execCoreSelftestComplete phys result words s
  | .heartbeat => Sys2Proof.Machine.execHeartbeat s
  | .heartbeatTimeout => Sys2Proof.Machine.execHeartbeatTimeout s
  | .componentSwitch => Sys2Proof.Machine.execComponentSwitch s
  | .componentReadyTimeout => Sys2Proof.Machine.execComponentReadyTimeout s
  | .injectArm acc det v => Sys2Proof.Machine.execInjectArm acc det v s
  | .tapReset => Sys2Proof.Machine.execTapReset s
  | .bypass => Sys2Proof.Machine.execBypass s
  | .idcode => Sys2Proof.Machine.execIdcode s
  | .samplePreload bits => Sys2Proof.Machine.execSamplePreload bits s
  | .extest => Sys2Proof.Machine.execExtest s
  | .clamp => Sys2Proof.Machine.execClamp s
  | .highz => Sys2Proof.Machine.execHighz s
  | .spareSwitch engine tx => Sys2Proof.Machine.execSpareSwitch engine tx s
  | .injectedLaneReturn engine lane => Sys2Proof.Machine.execInjectedLaneReturn engine lane s
  | .linkUpTimeout engine => Sys2Proof.Machine.execLinkUpTimeout engine s
  | .standbyLost => Sys2Proof.Machine.execStandbyLost s
  | .applyWindowComplete job => Sys2Proof.Machine.execApplyWindowComplete job s
  | .drainBatchComplete die => Sys2Proof.Machine.execDrainBatchComplete die s
  | .lastSliceStaged stack => Sys2Proof.Machine.execLastSliceStaged stack s
  | .pageRemapComplete lost => Sys2Proof.Machine.execPageRemapComplete lost s
  | .zeroLengthReadComplete fn q => Sys2Proof.Machine.execZeroLengthReadComplete fn q s
  | .configurationWrite o => Sys2Proof.Machine.execConfigurationWrite o s
  | .pldmBaseRequest bytes => Sys2Proof.Machine.execPldmBaseRequest bytes s
  | .pldmPlatformRequest sensor => Sys2Proof.Machine.execPldmPlatformRequest sensor s

end Sys2Proof.Machine
end

