-- ==== Sys2Proof/Safety.lean ====
section
/-! DEFINITION. What a safe state of the block is, in the terms the claims use: canonical memory and registers, a balanced
power budget, and a device state that agrees with the reset pins. -/

namespace Sys2Proof.Machine

/-- The canonical form of memory: addresses strictly rising, no listed byte equal to what an unlisted address reads as. -/
def Memory.wf (m : List Host.Cell) : Bool := SMap.wf 0 m

/-- The canonical form of the scalar entries: keys strictly rising, no entry at its default, and no entry wider than its
type (R439). -/
def Regs.wf (m : SMap Nat) : Bool :=
  SMap.rising 0 m && m.all fun q => decide (q.2 ≠ regDefault q.1) && decide (q.2 < 2 ^ regBits q.1)

/-- The allotments of the two dies add up to the budget in force (R27), and no die withholds a negative amount (R40). -/
def Alloc.balanced (a : Alloc) : Prop :=
  a.allot0 + a.allot1 = a.inForce ∧ 0 ≤ a.withheld0 ∧ 0 ≤ a.withheld1

/-- SYS_RESET_N is low while PWR_GOOD is, and while SYS_RESET_N is low the module is in RESET, whose items have not been
completed (R472, R473, R479). -/
def Top.safe (t : Top) : Prop :=
  (t.pwrGood = false → t.sysResetN = false) ∧ (t.sysResetN = false → t.dev = .reset ∧ t.resetDone = false)

/-- The changes of the device state that Table 2 of 15 gives (R475): bring-up, SERVE and QUIESCE, and a return to RESET from
any state. -/
def DevState.goes (a b : DevState) : Bool :=
  match a, b with
  | .reset, .selftest => true
  | .selftest, .training => true
  | .training, .ready => true
  | .ready, .serving => true
  | .serving, .ready => true
  | _, .reset => true
  | a, b => a = b

/-- A safe state. -/
structure State.Safe (s : State) : Prop where
  memory : Memory.wf s.mem = true
  regs : Regs.wf s.regs = true
  alloc : s.alloc.balanced
  top : s.top.safe

/-! ### What a step may write -/

/-- The fields of the state other than the queue of waiting commands. -/
inductive Field where
  | now
  | free
  | top
  | alloc
  | pow
  | regs
  | blobs
  | mem
  | cores
  | ctxs
  | jobs
  | nextJob
  | ctxOps
  | tiers
  | sl
  | tab
  | fab
  | strm
  | host
  | mgmt
  | av
  | fw
  | tap
  deriving DecidableEq, Repr

/-- Two states agree in a field. -/
def State.agree (s t : State) : Field → Prop
  | .now => t.now = s.now
  | .free => t.free = s.free
  | .top => t.top = s.top
  | .alloc => t.alloc = s.alloc
  | .pow => t.pow = s.pow
  | .regs => t.regs = s.regs
  | .blobs => t.blobs = s.blobs
  | .mem => t.mem = s.mem
  | .cores => t.cores = s.cores
  | .ctxs => t.ctxs = s.ctxs
  | .jobs => t.jobs = s.jobs
  | .nextJob => t.nextJob = s.nextJob
  | .ctxOps => t.ctxOps = s.ctxOps
  | .tiers => t.tiers = s.tiers
  | .sl => t.sl = s.sl
  | .tab => t.tab = s.tab
  | .fab => t.fab = s.fab
  | .strm => t.strm = s.strm
  | .host => t.host = s.host
  | .mgmt => t.mgmt = s.mgmt
  | .av => t.av = s.av
  | .fw => t.fw = s.fw
  | .tap => t.tap = s.tap

/-- t agrees with s in every field but those named. -/
def State.OnlyWrites (s t : State) (fs : List Field) : Prop := ∀ f, f ∉ fs → s.agree t f

end Sys2Proof.Machine
end

