-- ==== Sys2Proof/Certificates/Slice0/Obligations.lean ====
section
/-! DEFINITION. The statements for the provers, from the numbered rules of the manual. -/

open Sys2Proof Sys2Proof.Machine

/-- For every command c, every state s and every list of waiting commands rest: a step of s with c at the front of its
queue and rest behind it is exec of c on s with the queue rest, whatever the outcome.
[spec/95_what_each_step_holds.md] -/
def Obligations.StepRunsFrontCommand : Prop :=
  ∀ (c : Instr) (rest : List Instr) (s : State),
    step { s with pending := c :: rest } = exec c { s with pending := rest }

/-- On an empty queue a step answers a next state. While the root PLL is not locked (0x2100.01 is 0) that state is s
itself. While it is locked (0x2100.01 is 1) and the cycle that passes completes no full hour of the module's time, the
control-cycle counter is one higher and nothing else changes. That time passes on an empty queue is the model's choice
(log entry 1), no rule of the manual. [spec/01_module_structure_clocks_power.md] -/
def Obligations.IdleStepPassesOneCycle : Prop :=
  (∀ s : State, s.pending = [] → s.reg 0x2100 1 = 0 → step s = .next s)
  ∧ ∀ s : State, s.pending = [] → s.reg 0x2100 1 = 1 → (s.now + 1) % hourCycles ≠ 0 →
      step s = .next { s with now := s.now + 1 }

/-- For every command c and all states s and t: if exec of c on s answers the next state t, then the queue of waiting
commands of t is that of s. A command's effect is on everything but the queue. [spec/95_what_each_step_holds.md] -/
def Obligations.ExecLeavesTheQueue : Prop :=
  ∀ (c : Instr) (s t : State), exec c s = .next t → t.pending = s.pending

/-- The fields that posting an event record and raising a detector write. -/
def Sys2Proof.Machine.Field.eventing : List Field := [.regs, .blobs, .mem, .host, .mgmt, .av]

/-- Every field but those named. -/
def Sys2Proof.Machine.Field.allBut (fs : List Field) : List Field :=
  ([.now, .free, .top, .alloc, .pow, .regs, .blobs, .mem, .cores, .ctxs, .jobs,
    .nextJob, .ctxOps, .tiers, .sl, .tab, .fab, .strm, .host, .mgmt, .av, .fw, .tap] : List Field).filter fun f => !fs.contains f

/-- The fields of the state that a command may write. -/
def Sys2Proof.Instr.writes : Instr → List Field
  | .sysResetAssert | .pwrGoodFall | .pllLossOfLock | .thermalStop ..
    => Field.allBut []
  | .sysResetRelease ..
    => Field.eventing ++ [.now, .free, .top, .strm, .fw, .tap]
  | .resetComplete | .opticsCalibrated ..
    => [.top, .regs]
  | .selftestCompleteAll .. | .rangeTrained .. | .coreSelftestComplete ..
    => Field.eventing ++ [.top, .cores]
  | .trainingZeroFill
    => [.top, .mem]
  | .readyEntry
    => [.top, .regs, .mem, .host, .av]
  | .holdPointWrite .. | .serve .. | .quiesce .. | .packageBudgetWrite .. | .stackEnableWrite .. | .outHeadWrite ..
  | .outRingConfigWrite .. | .domainStopRequest .. | .domainArmPps .. | .domainArmAt .. | .sharedTickWrite ..
  | .tableDescriptorWrite .. | .mapoutAdd .. | .mapoutRemove .. | .prepareAnswer .. | .markRequest ..
  | .stagingResume .. | .stepCloseWrite .. | .sluiceBegin .. | .sluiceCommit .. | .sluiceAbort .. | .rowRepair ..
  | .pageRemap .. | .querySpares .. | .clearSuspect .. | .plan .. | .start .. | .cancel .. | .portDrWrite ..
  | .linkEnableWrite .. | .routeTableWrite .. | .partitionCreate .. | .teardown .. | .snapshot .. | .queueEnable ..
  | .dictCtrlWrite .. | .dictionaryWrite .. | .eventEntriesWrite .. | .mctpRead .. | .mctpWrite .. | .rotate ..
  | .replace .. | .serviceSelftest .. | .retire .. | .clearFuse .. | .dmcSwitch .. | .activateFw .. | .injectArm ..
    => Field.allBut [.now, .nextJob, .tap]
  | .permitRequest .. | .loanReply .. | .loanRetry .. | .permitReturn .. | .overBudgetClear | .energyCalibration
    => [.pow, .regs]
  | .loanRequest ..
    => [.alloc, .pow, .regs]
  | .permitTimeout .. | .overBudget
    => Field.eventing ++ [.pow]
  | .governorWindowEnd ..
    => Field.eventing ++ [.alloc, .pow]
  | .powerSample .. | .sliceRetention ..
    => [.pow]
  | .engineGate .. | .bankRetention .. | .scrubWriteBack ..
    => [.cores]
  | .segmentLookahead ..
    => [.pow, .cores]
  | .segmentStart .. | .mxeTile .. | .gtuLstm .. | .gtuGru .. | .gtuMguPhaseA .. | .gtuMguPhaseB .. | .gtuSru ..
  | .gtuGateProgram .. | .gtuIntake .. | .vxePass .. | .gxeLookup .. | .gxeScatter ..
    => Field.allBut [.now, .top, .alloc, .nextJob, .tiers, .fw, .tap]
  | .segmentEnd .. | .syncPoint .. | .dmvCopy .. | .dmvZeroFill .. | .mxImport .. | .zeroFillComplete ..
  | .batchCommit .. | .applyWindow .. | .jobFinalCommit .. | .turnApply .. | .fabricTimeout .. | .rowData ..
  | .readData .. | .ack .. | .kill .. | .spillComplete .. | .restoreComplete .. | .argumentLoad .. | .jobAbort ..
  | .functionLevelReset .. | .handoverComplete ..
    => Field.allBut [.now, .top, .alloc, .nextJob, .fw, .tap]
  | .spanRetry ..
    => Field.eventing ++ [.pow, .cores, .ctxs, .tiers, .sl, .fab]
  | .gxeRowReadReturn ..
    => Field.eventing ++ [.free, .pow, .cores, .jobs, .tiers, .sl, .tab, .fab]
  | .scatterAck .. | .parcelAck ..
    => Field.eventing ++ [.free, .pow, .cores, .jobs, .sl, .tab, .fab]
  | .scatterSendResume ..
    => [.regs, .cores, .jobs, .sl, .fab]
  | .dmvChainStart .. | .exchangeRowAccess ..
    => Field.eventing ++ [.free, .pow, .cores, .jobs, .tiers, .sl, .fab, .strm]
  | .dmvDescriptorComplete ..
    => [.pow, .regs, .cores]
  | .patrolScrub ..
    => Field.eventing ++ [.cores, .ctxs, .tiers, .fab]
  | .bindingComplete .. | .contextCreate .. | .swap .. | .switch .. | .ctxExport .. | .ctxImport .. | .resultStore ..
    => Field.allBut [.now, .top, .alloc, .nextJob, .sl, .tab, .strm, .fw, .tap]
  | .streamCreate .. | .streamReset .. | .move .. | .stSet .. | .resume .. | .delete .. | .streamCommandResume ..
  | .replicaInstall ..
    => Field.allBut [.now, .top, .alloc, .jobs, .nextJob, .ctxOps, .mgmt, .av, .fw, .tap]
  | .moveCopyComplete .. | .promote .. | .demote .. | .migrate .. | .unmigrate ..
    => Field.allBut [.now, .top, .alloc, .jobs, .nextJob, .ctxOps, .fw, .tap]
  | .chunkDescriptor ..
    => [.free, .regs, .strm, .host]
  | .featureFrame ..
    => [.pow, .regs, .blobs, .mem, .tiers, .fab, .strm]
  | .batchWindowExpiry .. | .batchForm ..
    => Field.allBut [.now, .top, .alloc, .tab, .fw, .tap]
  | .deadlineMiss .. | .ppsEdge .. | .ppsLoss
    => Field.eventing ++ [.strm]
  | .sampleTick .. | .egressHeadWrite ..
    => [.strm]
  | .frameTick .. | .domainStartAt ..
    => [.regs, .strm]
  | .ingressTailWrite ..
    => [.free, .mem, .strm]
  | .ingressEntry ..
    => Field.eventing ++ [.free, .tiers, .fab, .strm]
  | .streamFrameTick ..
    => Field.eventing ++ [.free, .pow, .tiers, .fab, .strm]
  | .stopTimeout .. | .intakeStateWriteback ..
    => [.regs, .blobs, .mem, .tiers, .fab, .strm]
  | .sketchDecay
    => [.tab]
  | .hotListRead .. | .rcRead ..
    => [.regs, .cores, .tab, .host]
  | .prepare .. | .applyWindowComplete ..
    => [.sl]
  | .publishedMarkUpdate
    => [.regs, .cores, .ctxs, .sl, .tab, .fab, .strm]
  | .oldestPinExchange
    => [.sl, .tab]
  | .pin .. | .unpin .. | .mark ..
    => [.free, .regs, .sl, .tab, .host]
  | .drain ..
    => [.pow, .sl]
  | .parcel .. | .verdict .. | .closedStep .. | .withdraw ..
    => [.regs, .sl, .fab]
  | .stepTimeout ..
    => [.regs, .sl]
  | .refresh .. | .write ..
    => Field.eventing ++ [.pow, .cores, .ctxs, .tiers, .sl, .tab, .fab, .strm]
  | .replicaRemove ..
    => [.pow, .regs, .blobs, .mem, .cores, .ctxs, .tiers, .sl, .tab, .fab, .strm, .host]
  | .audit ..
    => Field.eventing ++ [.free, .tiers, .tab, .fab]
  | .dictSluiceTimeout ..
    => [.regs, .sl, .host]
  | .channelPowerDown .. | .wcbAgeExpiry ..
    => [.tiers]
  | .memoryRequest .. | .rowRepairComplete .. | .reflowStep .. | .reflowDone | .pageRemapComplete ..
    => Field.eventing ++ [.tiers]
  | .memoryPatrol ..
    => [.regs, .tiers]
  | .hostReadTimeout .. | .hostLinkDown .. | .hostErrorCompletion .. | .heartbeatTimeout | .standbyLost
    => Field.eventing
  | .laneFail .. | .dataFlit .. | .controlFlit .. | .replayTimeout .. | .ackProgressTimeout .. | .linkReport ..
  | .spareSwitch ..
    => Field.eventing ++ [.fab]
  | .ackTimer ..
    => [.fab]
  | .linkRetrain ..
    => [.regs]
  | .linkUp ..
    => Field.eventing ++ [.free, .fab]
  | .rowRead .. | .descriptorFetch .. | .hostLinkUp ..
    => Field.eventing ++ [.free, .tiers, .fab]
  | .read ..
    => Field.eventing ++ [.tiers, .fab]
  | .dictRead .. | .dictData .. | .linkUpTimeout ..
    => [.regs, .fab]
  | .allBlocked ..
    => Field.eventing ++ [.cores]
  | .energyEstimate
    => [.free, .pow, .regs, .cores]
  | .sqTailWrite ..
    => [.free, .mem, .host]
  | .cqHeadWrite .. | .zeroLengthReadComplete .. | .configurationWrite ..
    => [.host]
  | .job ..
    => [.free, .pow, .regs, .cores, .ctxs, .jobs, .nextJob, .ctxOps, .sl, .tab, .fab, .host]
  | .nop ..
    => [.free, .regs, .host]
  | .completionRecordAccept ..
    => [.regs, .host]
  | .cqWrite ..
    => [.free, .regs, .blobs, .mem, .tiers, .fab, .host]
  | .coalesceTimeout ..
    => [.free, .host]
  | .dictCtrlRead ..
    => [.free, .regs, .cores, .tab, .host]
  | .entdaa .. | .setEndpointId .. | .getEndpointId | .getMctpVersionSupport .. | .getMessageTypeSupport
  | .getVendorDefinedMessageSupport .. | .pldmBaseRequest .. | .pldmPlatformRequest ..
    => [.mgmt]
  | .requestUpdate | .transferComplete .. | .applyComplete ..
    => [.regs, .fw]
  | .passComponentTable .. | .updateComponent ..
    => [.fw]
  | .verifyComplete .. | .activateFirmware .. | .componentSwitch | .componentReadyTimeout
    => Field.eventing ++ [.free, .fw]
  | .heartbeat
    => [.regs, .av]
  | .tapReset | .bypass | .idcode | .samplePreload .. | .extest | .clamp | .highz
    => [.tap]
  | .injectedLaneReturn ..
    => [.regs, .fab, .av]
  | .drainBatchComplete ..
    => Field.eventing ++ [.free, .pow, .tiers, .sl, .tab, .fab]
  | .lastSliceStaged ..
    => [.pow, .regs, .cores, .ctxs, .jobs, .ctxOps, .tiers, .strm, .host]

/-- For every command c and all states s and t: if exec of c on s answers the next state t, then every field of the state
that is not in the command's list Instr.writes is in t what it was in s. The list is given for all 245 commands, with
any operands. [spec/95_what_each_step_holds.md; spec/00_scope.md] -/
def Obligations.EveryCommandKeepsToItsFields : Prop :=
  ∀ (c : Instr) (s t : State), exec c s = .next t → s.OnlyWrites t c.writes

/-- The machine right after reset is in a safe state: its memory and its scalar entries are in canonical form, with no
entry wider than its type, the allotments of the two dies add up to the budget in force, nothing is withheld, and with
SYS_RESET_N low the device state is RESET with its items not complete. [spec/15_bring_up_and_test.md;
spec/01_module_structure_clocks_power.md] -/
def Obligations.ResetStateIsSafe : Prop := State.reset.Safe

/-- For all states s and t: if s is safe and a step of s answers the next state t, then t is safe. Safe means: the memory
list keeps its canonical form (addresses strictly rising, no listed byte equal to what an unlisted address reads as);
the scalar dictionary entries keep theirs, none at its default and none wider than its type; allot(0) + allot(1) is
the budget in force and no die withholds a negative amount; SYS_RESET_N is low while PWR_GOOD is, and while
SYS_RESET_N is low the device state is RESET and its items are not complete. The step may run any command of the
table, with any operands, or be the idle step. [spec/01_module_structure_clocks_power.md;
spec/13_host_interface_dictionary.md; spec/15_bring_up_and_test.md] -/
def Obligations.EveryStepKeepsSafety : Prop :=
  ∀ s t : State, s.Safe → step s = .next t → t.Safe

/-- For all states s and t: if a step of s answers the next state t, then the device state of t is that of s, or follows
it by Table 2 of chapter 15: RESET to SELFTEST, SELFTEST to TRAINING, TRAINING to READY, READY to SERVING, SERVING to
READY, and any state to RESET. It holds for every command of the table with any operands, in every state, also those
no run reaches. [spec/15_bring_up_and_test.md] -/
def Obligations.DeviceStatesFollowTable2 : Prop :=
  ∀ s t : State, step s = .next t → s.top.dev.goes t.top.dev = true

/-- For every command c and every state s, with any operands, exec of c on s answers a next state: no command is refused and none
faults, in no device state and no mode. Where R9 and R12 call a result unpredictable, the next state holds free values in
its place; that it does so, and which values, is the model's choice (log entry 65), no rule of the manual.
[spec/95_what_each_step_holds.md; spec/00_scope.md] -/
def Obligations.NoCommandIsRefused : Prop :=
  ∀ (c : Instr) (s : State), ∃ t, exec c s = .next t

/-- What a return to RESET from s leaves in t (R473): the cause is recorded, every undecided group and every context, job,
stream, message and queue is gone, no contents of cisterns, reservoirs or memory survive, and the host's own memory, the
fuses, the firmware slots and the level at PPS_IN stand. -/
structure Sys2Proof.Machine.State.BackInReset (s t : State) (cause : Nat) : Prop where
  dev : t.top.dev = .reset
  done : t.top.resetDone = false
  cause : t.reg 0x1200 12 = cause
  sluice : t.sl = Sluice.init
  tables : t.tab = Tables.init
  streams : t.strm = { Streams.init with ppsHigh := s.strm.ppsHigh }
  fabric : t.fab = Fabric.init
  host : t.host = HostIf.init
  jobs : t.jobs = []
  ctxs : t.ctxs = []
  ops : t.ctxOps = []
  power : t.alloc = Alloc.init ∧ t.pow = Power.init
  cisterns : t.cores = coresReset
  reservoirs : t.tiers.resv = []
  memory : ∀ a, a < 2 ^ 51 → t.byteAt a = 0
  hostMemory : ∀ a, 2 ^ 51 ≤ a → t.byteAt a = s.byteAt a
  fuses : t.top.fuses = s.top.fuses
  firmware : t.fw.slot = s.fw.slot ∧ t.fw.valid = s.fw.valid

/-- In every safe state, each of these commands answers a next state in RESET as BackInReset says, with its own value in
reset_cause (0x1200.12). SYS_RESET_ASSERT with the pin high: cause 1, the pin is then low. PWR_GOOD_FALL with PWR_GOOD
high: cause 2, both pins low and the test access port at its reset values. PLL_LOSS_OF_LOCK with root_pll_locked 1:
cause 3. THERMAL_STOP of a running die at or above its limit (110 °C, or 90 °C at an optics case) while the other die
has stopped: cause 4. The last two first raise the die-stop record (State.dieStopRecord), keep it through the reset
and set alert_pending (0x9000.03). That memory reads 0 before TRAINING has filled it is the model's choice (log entry
2). [spec/15_bring_up_and_test.md; spec/01_module_structure_clocks_power.md] -/
def Obligations.ModuleReturnsToReset : Prop :=
  (∀ s : State, s.Safe → s.top.sysResetN = true →
    ∃ t, exec .sysResetAssert s = .next t ∧ s.BackInReset t 1 ∧ t.top.sysResetN = false ∧ t.top.pwrGood = s.top.pwrGood
      ∧ t.tap = s.tap)
  ∧ (∀ s : State, s.Safe → s.top.pwrGood = true →
    ∃ t, exec .pwrGoodFall s = .next t ∧ s.BackInReset t 2 ∧ t.top.sysResetN = false ∧ t.top.pwrGood = false
      ∧ t.tap = Tap.init)
  ∧ (∀ s : State, s.Safe → s.reg 0x2100 1 = 1 →
    ∃ t, exec .pllLossOfLock s = .next t ∧ (s.dieStopRecord 0 0).BackInReset t 3 ∧ t.reg 0x9000 3 = 1
      ∧ t.av.dieStop.isSome = true ∧ t.top.sysResetN = s.top.sysResetN)
  ∧ ∀ (s : State) (d sensor reading : Nat) (optics : Bool), s.Safe → d < 2 → s.reg 0x2100 1 ≠ 0 →
    s.top.stopped.get d = false → s.top.stopped.get (1 - d) = true → (if optics then 90000 else 110000) ≤ reading →
    ∃ t, exec (.thermalStop d optics sensor reading) s = .next t ∧ (s.dieStopRecord d 1).BackInReset t 4
      ∧ t.reg 0x9000 3 = 1 ∧ t.av.dieStop.isSome = true

/-- For every state: SYS_RESET_RELEASE with the pin low, a DMC that passes its check, a PLL that locks and a valid image
in the slot that fw_slot names answers a next state with both pins high, the items of RESET complete, the control-
cycle counter at 0 and the device state as it was. RESET_COMPLETE with the items complete enters SELFTEST.
SELFTEST_COMPLETE_ALL in SELFTEST enters TRAINING where no block failed, and otherwise holds bring-up in SELFTEST.
RANGE_TRAINED marks the range as trained, and with every channel active and none failing changes nothing else.
TRAINING_ZERO_FILL with all eight ranges trained leaves every device byte 0 and the host's bytes as they were, and
changes no other field. OPTICS_CALIBRATED marks the engine as calibrated and writes only scalar entries beside.
READY_ENTRY with memory filled and all engines calibrated enters READY, or, where hold point 2 is chosen and not yet
passed, stays in TRAINING with held at 2. [spec/15_bring_up_and_test.md] -/
def Obligations.BringUpRunsThroughItsStates : Prop :=
  (∀ (s : State) (o : StartUp), s.top.sysResetN = false → s.top.stuck = false → (o.dmc0 = true ∨ o.dmc1 = true) →
    o.pll = true → (s.fw.slot = 0 ∧ o.slotA = true ∨ s.fw.slot = 1 ∧ o.slotB = true) → maskBit s.fw.valid s.fw.slot = true →
    ∃ t, exec (.sysResetRelease o) s = .next t ∧ t.now = 0
      ∧ t.top = { s.top with sysResetN := true, pwrGood := true, resetDone := true } ∧ t.fw.slot = s.fw.slot ∧ t.mem = s.mem)
  ∧ (∀ s : State, s.top.dev = .reset → s.top.resetDone = true →
    ∃ t, exec .resetComplete s = .next t ∧ t.top = { s.top with dev := .selftest }
      ∧ { t with top := s.top, regs := s.regs } = s)
  ∧ (∀ (s : State) (o : SelfTests), s.top.dev = .selftest → s.top.stuck = false →
    ∃ t, exec (.selftestCompleteAll o) s = .next t
      ∧ (o.block = 0 → t.top.dev = .training ∧ t.top.stuck = false)
      ∧ (o.block ≠ 0 → t.top.dev = .selftest ∧ t.top.stuck = true))
  ∧ (∀ (s : State) (u failed : Nat), s.mayTrain = true → maskBit s.top.trained u = false →
    ∃ t, exec (.rangeTrained u failed) s = .next t ∧ t.top = { s.top with trained := maskSet s.top.trained u }
      ∧ ((activeList (s.active u)).length = rangeChans u → (∀ c ∈ activeList (s.active u), maskBit failed c = false) →
          { t with top := s.top } = s))
  ∧ (∀ s : State, s.mayTrain = true → s.top.trained = 255 → s.top.zeroFilled = false →
    ∃ t, exec .trainingZeroFill s = .next t ∧ t.top = { s.top with zeroFilled := true }
      ∧ (∀ a, a < 2 ^ 51 → t.byteAt a = 0) ∧ (∀ a, 2 ^ 51 ≤ a → t.byteAt a = s.byteAt a)
      ∧ { t with top := s.top, mem := s.mem } = s)
  ∧ (∀ (s : State) (e tx rx : Nat), s.mayTrain = true → maskBit s.top.calibrated e = false →
    ∃ t, exec (.opticsCalibrated e tx rx) s = .next t ∧ t.top = { s.top with calibrated := maskSet s.top.calibrated e }
      ∧ { t with top := s.top, regs := s.regs } = s)
  ∧ (∀ s : State, s.mayTrain = true → s.trainingDone = true → (s.reg 0x1200 5 ≠ 2 ∨ s.top.passed2 = true) →
    ∃ t, exec .readyEntry s = .next t ∧ t.top = { s.top with dev := .ready } ∧ t.av.dieStop = none)
  ∧ ∀ s : State, s.Safe → s.mayTrain = true → s.trainingDone = true → s.reg 0x1200 5 = 2 → s.top.passed2 = false →
    ∃ t, exec .readyEntry s = .next t ∧ t.top.dev = .training ∧ t.reg 0x1200 6 = 2

/-- What a TAP instruction with a code leaves: the register, the instruction that acts, the boundary register. -/
structure Sys2Proof.Machine.State.TapTakes (s t : State) (code acts boundary : Nat) : Prop where
  ir : t.tap.ir = code
  acts : t.tapActs = acts
  boundary : t.tap.boundary = boundary
  rest : { t with tap := s.tap } = s

/-- While PWR_GOOD is high, in every device state: TRST_N selects IDCODE; BYPASS, IDCODE, SAMPLE/PRELOAD, EXTEST, CLAMP
and HIGHZ each answer a next state whose instruction register holds the code of Table 4 of chapter 15. IDCODE and
SAMPLE/PRELOAD then act as themselves, BYPASS as BYPASS; EXTEST, CLAMP and HIGHZ act as themselves while SYS_RESET_N
is low and as BYPASS while it is high. SAMPLE/PRELOAD puts the bits into the boundary register; no other instruction
changes it. Nothing outside the test access port changes. While PWR_GOOD is low no instruction changes anything.
[spec/15_bring_up_and_test.md] -/
def Obligations.TestAccessPortFollowsTable4 : Prop :=
  (∀ s : State, s.top.pwrGood = true →
    (∃ t, exec .tapReset s = .next t ∧ s.TapTakes t 0x01 0x01 s.tap.boundary)
    ∧ (∃ t, exec .bypass s = .next t ∧ s.TapTakes t 0xFF 0xFF s.tap.boundary)
    ∧ (∃ t, exec .idcode s = .next t ∧ s.TapTakes t 0x01 0x01 s.tap.boundary)
    ∧ (∀ bits, ∃ t, exec (.samplePreload bits) s = .next t ∧ s.TapTakes t 0x02 0x02 bits)
    ∧ (∃ t, exec .extest s = .next t ∧ s.TapTakes t 0x00 (if s.top.sysResetN then 0xFF else 0x00) s.tap.boundary)
    ∧ (∃ t, exec .clamp s = .next t ∧ s.TapTakes t 0x03 (if s.top.sysResetN then 0xFF else 0x03) s.tap.boundary)
    ∧ (∃ t, exec .highz s = .next t ∧ s.TapTakes t 0x04 (if s.top.sysResetN then 0xFF else 0x04) s.tap.boundary))
  ∧ ∀ s : State, s.top.pwrGood = false →
    exec .tapReset s = .next s ∧ exec .bypass s = .next s ∧ exec .idcode s = .next s
    ∧ (∀ bits, exec (.samplePreload bits) s = .next s) ∧ exec .extest s = .next s ∧ exec .clamp s = .next s
    ∧ exec .highz s = .next s

/-- Die d runs, granting is not stopped, and no injection of the permit timeout is armed. -/
def Sys2Proof.Machine.State.Grants (s : State) (d : Nat) : Prop :=
  d < 2 ∧ s.top.stopped.get d = false ∧ s.halted = false ∧ s.armed 0x900A d 0 = false

/-- For each die d that runs, with granting not stopped (R39), no injection armed, no request queued and one request p on
its way: PERMIT_REQUEST answers a next state. If the size of p's class is at or below headroom(d), p is among the held
permits, held(d) is higher by that size and the queue is empty. If it is above headroom(d), held(d) is as it was and p
waits at the head of the queue. With two requests of one size s on their way, each served before the next is looked
at, both are granted exactly when 2s is at or below headroom(d). Allotments and the other die's governor are
unchanged. [R28] -/
def Obligations.PermitsAreGrantedFromHeadroom : Prop :=
  (∀ (s : State) (d : Nat) (p : Permit), s.Grants d → (s.gov d).asks = [p] → (s.gov d).queue = [] →
    ∃ t, exec (.permitRequest d 1) s = .next t ∧ t.gov (1 - d) = s.gov (1 - d) ∧ t.alloc = s.alloc ∧ (t.gov d).asks = []
      ∧ ((s.permitSize p.cls : Int) ≤ s.headroom d →
          (t.gov d).held = (s.gov d).held ++ [p] ∧ t.held d = s.held d + s.permitSize p.cls ∧ (t.gov d).queue = [])
      ∧ (s.headroom d < s.permitSize p.cls →
          (t.gov d).held = (s.gov d).held ∧ (t.gov d).queue.map (fun a => a.permit) = [p]))
  ∧ ∀ (s : State) (d : Nat) (p q : Permit), s.Grants d → (s.gov d).asks = [p, q] → (s.gov d).queue = [] → p.cls = q.cls →
    ∃ t, exec (.permitRequest d 2) s = .next t
      ∧ (2 * (s.permitSize p.cls : Int) ≤ s.headroom d → (t.gov d).held = (s.gov d).held ++ [p, q])
      ∧ (s.permitSize p.cls ≤ s.headroom d → s.headroom d < 2 * (s.permitSize p.cls : Int) →
          (t.gov d).held = (s.gov d).held ++ [p] ∧ (t.gov d).queue.map (fun a => a.permit) = [q])

/-- LOAN_REQUEST at die d with a loan of x asked for by the other die and not yet answered answers a next state: if
granting is not stopped, d runs and x is at or below headroom(d), allot(d) falls by x, the other allotment rises by x,
the budget in force stands and the answer is a grant; if granting is stopped, or d does not run, or x is above
headroom(d), the allotments stand and the answer is a refusal. LOAN_REPLY with a refusal answers the state in which the
loan of d is cleared and nothing else changed, so the request stays at the head of the queue; with a grant, d running,
granting not stopped, no injection armed and one request in the queue, not held back and at or below headroom(d), that request is
granted, the queue is empty and the loan is cleared; with no answer there it changes nothing. LOAN_RETRY at a running d, granting
not stopped and no injection armed: with a head that is not held back and is above headroom(d), no loan under way and the other die
running, it asks for a loan of the shortfall and grants nothing; with one request in the queue, not held back and at or below
headroom(d), it grants that request; with an empty queue it changes nothing. A request is held back until its notBefore. [spec/01_module_structure_clocks_power.md] -/
def Obligations.LoansMoveAllotment : Prop :=
  (∀ (s : State) (d x : Nat), d < 2 → (s.gov (1 - d)).loanAsk = some x → (s.gov (1 - d)).loanAnswer = none →
    ∃ t, exec (.loanRequest d) s = .next t
      ∧ (s.halted = false → s.top.stopped.get d = false → (x : Int) ≤ s.headroom d →
          t.alloc.allot d = s.alloc.allot d - x ∧ t.alloc.allot (1 - d) = s.alloc.allot (1 - d) + x
            ∧ t.alloc.inForce = s.alloc.inForce ∧ (t.gov (1 - d)).loanAnswer = some true)
      ∧ (s.halted = true ∨ s.top.stopped.get d = true ∨ s.headroom d < x →
          t.alloc = s.alloc ∧ (t.gov (1 - d)).loanAnswer = some false))
  ∧ (∀ (s : State) (d : Nat), d < 2 → (s.gov d).loanAnswer = some false →
    exec (.loanReply d) s = .next (s.setGov d { s.gov d with loanAsk := none, loanAnswer := none }))
  ∧ (∀ (s : State) (d : Nat) (a : Ask), s.Grants d → (s.gov d).loanAnswer = some true → (s.gov d).queue = [a] →
    a.notBefore ≤ s.now → (s.permitSize a.permit.cls : Int) ≤ s.headroom d →
    ∃ t, exec (.loanReply d) s = .next t ∧ (t.gov d).held = (s.gov d).held ++ [a.permit] ∧ (t.gov d).queue = []
      ∧ (t.gov d).loanAsk = none)
  ∧ (∀ (s : State) (d : Nat), (s.gov d).loanAnswer = none → exec (.loanReply d) s = .next s)
  ∧ (∀ (s : State) (d : Nat) (a : Ask) (l : List Ask), s.Grants d → (s.gov d).queue = a :: l → a.notBefore ≤ s.now →
    s.headroom d < s.permitSize a.permit.cls → (s.gov d).loanAsk = none → s.top.stopped.get (1 - d) = false →
    ∃ t, exec (.loanRetry d) s = .next t ∧ (t.gov d).loanAsk = some (s.permitSize a.permit.cls - s.headroom d).toNat
      ∧ (t.gov d).held = (s.gov d).held ∧ (t.gov d).queue.map (fun a => a.permit) = (s.gov d).queue.map (fun a => a.permit))
  ∧ (∀ (s : State) (d : Nat) (a : Ask), s.Grants d → (s.gov d).queue = [a] → a.notBefore ≤ s.now →
    (s.permitSize a.permit.cls : Int) ≤ s.headroom d →
    ∃ t, exec (.loanRetry d) s = .next t ∧ (t.gov d).held = (s.gov d).held ++ [a.permit] ∧ (t.gov d).queue = [])
  ∧ ∀ (s : State) (d : Nat), (s.gov d).queue = [] → exec (.loanRetry d) s = .next s

/-- PERMIT_RETURN at die d with a held permit p on its way back: with no request waiting on either die, held(d) falls by
the size of p's class, and one copy of p leaves the held permits. With one request waiting on d, granting not stopped,
and headroom(d) with the size of p added at or above the request's size, the request is granted in the same command.
[spec/01_module_structure_clocks_power.md] -/
def Obligations.ReturnedPermitsLeaveHeld : Prop :=
  (∀ (s : State) (d : Nat) (p : Permit), d < 2 → (s.gov d).returns = [p] → p ∈ (s.gov d).held → (s.gov d).queue = [] →
    (s.gov (1 - d)).queue = [] →
    ∃ t, exec (.permitReturn d 1) s = .next t ∧ t.held d + s.permitSize p.cls = s.held d
      ∧ (t.gov d).held = (s.gov d).held.erase p ∧ (t.gov d).returns = [] ∧ t.gov (1 - d) = s.gov (1 - d)
      ∧ t.alloc = s.alloc ∧ t.regs = s.regs)
  ∧ ∀ (s : State) (d : Nat) (p : Permit) (a : Ask), s.Grants d → (s.gov d).returns = [p] → p ∈ (s.gov d).held →
    (s.gov d).queue = [a] → (s.gov (1 - d)).queue = [] → a.notBefore ≤ s.now →
    (s.permitSize a.permit.cls : Int) ≤ s.headroom d + s.permitSize p.cls →
    ∃ t, exec (.permitReturn d 1) s = .next t ∧ (t.gov d).held = (s.gov d).held.erase p ++ [a.permit] ∧ (t.gov d).queue = []

/-- PERMIT_TIMEOUT with a queued request that has waited longer than permit_timeout raises the permit timeout detector
once and leaves the request queued, marked as raised; with all requests so marked, or none late, it changes nothing.
POWER_SAMPLE above the budget in force extends the run above it and ends the run below, and the other way round; it
adds the sample to the window's sum. OVER_BUDGET after more than 1,000 samples above the budget stops granting and
raises the over-budget detector; OVER_BUDGET_CLEAR after 100 samples at or below it lets the governors grant again.
GOVERNOR_WINDOW_END with the PLL locked and no request queued sets the floor of each die to the rail power less the
mean of held(d) over the window, never less than 0, and starts a new window.
[spec/01_module_structure_clocks_power.md] -/
def Obligations.WindowEndsAndSamples : Prop :=
  (∀ (s : State) (d : Nat) (a : Ask), d < 2 → (s.gov d).queue = [a] → a.raised = false →
    usCycles (s.reg 0x2000 4) < s.now - a.arrived →
    ∃ t, exec (.permitTimeout d) s = .next t ∧ (t.gov d).queue = [{ a with raised := true }]
      ∧ t.mem = (s.raise { det := 0x900A, sev := 0, cause := a.permit.cls.sub - 1, detail := d,
                           aux := (s.now - a.arrived) / 400, injected := a.notBefore ≠ 0 }).mem
      ∧ t.regs = (s.raise { det := 0x900A, sev := 0, cause := a.permit.cls.sub - 1, detail := d,
                            aux := (s.now - a.arrived) / 400, injected := a.notBefore ≠ 0 }).regs)
  ∧ (∀ (s : State) (d : Nat), d < 2 →
    (∀ a ∈ (s.gov d).queue, a.raised = true ∨ s.now - a.arrived ≤ usCycles (s.reg 0x2000 4)) →
    exec (.permitTimeout d) s = .next s)
  ∧ (∀ (s : State) (mw : Nat),
    exec (.powerSample mw) s = .next { s with pow := { s.pow with
      sampleSum := s.pow.sampleSum + mw, sampleCount := s.pow.sampleCount + 1,
      runAbove := if s.alloc.inForce < ((1000 * mw : Nat) : Int) then s.pow.runAbove + 1 else 0,
      runBelow := if s.alloc.inForce < ((1000 * mw : Nat) : Int) then 0 else s.pow.runBelow + 1 } })
  ∧ (∀ s : State, 1000 < s.pow.runAbove → s.pow.haltedBudget = false →
    ∃ t, exec .overBudget s = .next t ∧ t.halted = true ∧ t.pow.gov = s.pow.gov ∧ t.alloc = s.alloc
      ∧ t.regs = (s.raise { det := 0x900B, sev := 0, aux := s.reg 0x2010 3 / 1000 }).regs)
  ∧ (∀ s : State, 100 ≤ s.pow.runBelow → s.pow.haltedBudget = true → (s.gov 0).queue = [] → (s.gov 1).queue = [] →
    exec .overBudgetClear s = .next { s with pow := { s.pow with haltedBudget := false } })
  ∧ ∀ (s : State) (o : WindowEnd), s.reg 0x2100 1 = 1 → (s.gov 0).queue = [] → (s.gov 1).queue = [] →
    ∃ t, exec (.governorWindowEnd o) s = .next t
      ∧ (s.now ≠ (s.gov 0).windowStart → (t.gov 0).floor =
          o.rail0 - ((s.gov 0).heldSum + s.held 0 * (s.now - (s.gov 0).heldSince)) / (s.now - (s.gov 0).windowStart))
      ∧ (s.now ≠ (s.gov 1).windowStart → (t.gov 1).floor =
          o.rail1 - ((s.gov 1).heldSum + s.held 1 * (s.now - (s.gov 1).heldSince)) / (s.now - (s.gov 1).windowStart))
      ∧ (t.gov 0).held = (s.gov 0).held ∧ (t.gov 1).held = (s.gov 1).held
      ∧ (t.gov 0).windowStart = s.now ∧ (t.gov 1).windowStart = s.now ∧ t.pow.sampleSum = 0 ∧ t.pow.sampleCount = 0

/-- BANK_RETENTION of a bank without an access for 4,096 cc marks it as in retention; every row of every core keeps its
contents and its ownership tag, and every handle entry, with its retain flag, stands. SLICE_RETENTION of a slice
without an access for 16,384 noc cycles marks it, and every byte of the reservoirs stands. ENGINE_GATE of an engine
idle for 64 cc gates it and changes nothing else. [R26] -/
def Obligations.RetentionKeepsContents : Prop :=
  (∀ (s : State) (p b : Nat), s.reg 0x2100 4 = 1 → b < 4 → 4096 ≤ s.cc - SMap.get 0 (s.core p).lastUse (4 + b) →
    ∃ t, exec (.bankRetention p b) s = .next t ∧ (t.core p).retained = maskSet (s.core p).retained b
      ∧ (∀ q, (t.core q).rows = (s.core q).rows ∧ (t.core q).tags = (s.core q).tags ∧ (t.core q).handles = (s.core q).handles)
      ∧ { t with cores := s.cores } = s)
  ∧ (∀ (s : State) (d sl : Nat), sl < 4 → d < 2 → 16384 ≤ 3 * (s.now - SMap.get 0 s.pow.sliceUse (4 * d + sl)) →
    ∃ t, exec (.sliceRetention d sl) s = .next t ∧ t.pow.sliceRet = maskSet s.pow.sliceRet (4 * d + sl)
      ∧ t.tiers = s.tiers ∧ { t with pow := s.pow } = s)
  ∧ ∀ (s : State) (p e : Nat), s.reg 0x2100 4 = 1 → e < 3 → 64 ≤ s.cc - SMap.get 0 (s.core p).lastUse e →
    exec (.engineGate p e) s = .next (s.modCore p fun c => { c with gated := maskSet c.gated e })

/-- Core p is at a boundary from which its segment may start but for its permit. -/
def Sys2Proof.Machine.State.AtBoundary (s : State) (p : Nat) : Prop :=
  (s.core p).csq.phase = .hold ∧ s.coreRuns p = true ∧ s.argsLoaded (s.core p).csq.ctx = true ∧ (s.core p).csq.seg ≠ 0xFFFF

/-- The record of the present segment of core p, and the rows of it that the CSQ reads. -/
def Sys2Proof.Machine.State.segRows (s : State) (p : Nat) : List Nat :=
  (s.core p).codeRows (s.ctx (s.core p).csq.ctx) (segOff (s.ctx (s.core p).csq.ctx) (s.core p).csq.seg) 32

/-- At a segment boundary of a core in service with its arguments loaded, SEGMENT_START changes nothing while the segment's permit
is not held. With the permit held, or none needed, no row lost and no injection armed, it starts a segment that begins no
layer: the core is in that segment from now on with no entry issued and no lookahead made, and a running context is not
blocked. With 384 cc or less left, SEGMENT_LOOKAHEAD makes its choice, once, and changes no context, job or memory.
SEGMENT_END, once the entries have issued and the cycles have passed, with no cancel, no injection, no layer that ends
here and no context command waiting, either reaches the sync point of the record or goes to the boundary of its next
segment; where the check of a layer lets core p go on, the same follows from the checked state. SYNC_POINT with every
token signalled, no error or fault bit and no weir point opens a new span at the next segment, with nothing to undo.
SPAN_RETRY with the tokens of the span signalled brings the core back to the boundary, marked as retried and with no row
left to reload; with rows to reload it may instead change no more than the fabric and the scalar entries, while it waits
for bytes of another module.
[spec/05_programs_cisterns_schedules.md; spec/01_module_structure_clocks_power.md] -/
def Obligations.SegmentsStartAndEndAsTheirRecordsSay : Prop :=
  (∀ (s : State) (p : Nat) (up : Upsets), s.AtBoundary p → s.segReady p = false → exec (.segmentStart p up) s = .next s)
  ∧ (∀ (s : State) (p : Nat) (up : Upsets), s.AtBoundary p → s.segReady p = true → sgStart (s.segment p) = 0xFFFF → up.lost = [] →
    s.armed 0x9002 (s.logicalOf p) 1 = false →
    ∃ t, exec (.segmentStart p up) s = .next t ∧ (t.core p).csq.phase = .run ∧ (t.core p).csq.segStart = s.now
      ∧ (t.core p).csq.issued = 0 ∧ (t.core p).csq.looked = false ∧ (t.core p).csq.chosen = none
      ∧ (t.core p).csq.seg = (s.core p).csq.seg
      ∧ ((s.ctx (s.core p).csq.ctx).st = .running → (t.ctx (s.core p).csq.ctx).blocked = false))
  ∧ (∀ (s : State) (p : Nat), (s.core p).csq.phase = .run → (s.core p).csq.looked = false →
    sgCycles (s.segment p) (s.lanes p) ≤ 384 + 4 * (s.now - (s.core p).csq.segStart) →
    ∃ t, exec (.segmentLookahead p) s = .next t ∧ (t.core p).csq.phase = .run ∧ (t.core p).csq.looked = true
      ∧ (t.core p).csq.chosen = s.afterSegment p ∧ t.ctxs = s.ctxs ∧ t.jobs = s.jobs ∧ t.mem = s.mem
      ∧ exec (.segmentLookahead p) t = .next t)
  ∧ (∀ (s : State) (p : Nat), (s.core p).csq.phase = .run → (s.core p).csq.issued = sgEntries (s.segment p) →
    sgCycles (s.segment p) (s.lanes p) ≤ 4 * (s.now - (s.core p).csq.segStart) → s.armed 0x9004 (s.logicalOf p) 0 = false →
    (s.core p).csq.cancel = none →
    (∀ u : State, s.check p = .goOn u [p] → exec (.segmentEnd p) s = .next (u.pastSegment p).settleOps)
    ∧ ((∀ l, (s.core p).csq.layer = some l →
        (s.core p).csq.seg ≠ (s.core p).pathLast (s.ctx (s.core p).csq.ctx) ((s.core p).layerRec (s.ctx (s.core p).csq.ctx) l)) →
      s.ctxOps = [] → s.av.handover = none →
      (sgSync (s.segment p) ≠ 0 ∨ sgWeir (s.segment p) ≠ 0xFFFF →
        ∃ t, exec (.segmentEnd p) s = .next t ∧ (t.core p).csq.phase = .sync ∧ (t.core p).csq.seg = (s.core p).csq.seg)
      ∧ (sgSync (s.segment p) = 0 → sgWeir (s.segment p) = 0xFFFF → sgNext (s.segment p) ≠ 0xFFFF →
        ∃ t, exec (.segmentEnd p) s = .next t ∧ (t.core p).csq.phase = .hold ∧ (t.core p).csq.seg = sgNext (s.segment p)
          ∧ (t.core p).csq.issued = 0 ∧ (t.core p).csq.spanNo = (s.core p).csq.spanNo)))
  ∧ (∀ (s : State) (p : Nat), (s.core p).csq.phase = .sync → (s.core p).signalled (sgSync (s.segment p)) = true →
    (∀ t ∈ (s.core p).tokensOf (sgSync (s.segment p)), t.error = false ∧ t.fault = false) →
    s.armed 0x9003 (s.logicalOf p) 0 = false → sgWeir (s.segment p) = 0xFFFF → s.ctxOps = [] → s.av.handover = none →
    ∃ t, exec (.syncPoint p) s = .next t ∧ (t.core p).csq.phase = .hold ∧ (t.core p).csq.seg = sgNext (s.segment p)
      ∧ (t.core p).csq.spanSeg = sgNext (s.segment p) ∧ (t.core p).csq.undo = [] ∧ (t.core p).csq.retried = false)
  ∧ ∀ (s : State) (p : Nat), (s.core p).csq.phase = .retry → (s.core p).spanQuiet (s.core p).csq.tag = true →
    ∃ t, exec (.spanRetry p) s = .next t
      ∧ ((t.core p).csq.phase = .hold ∧ (t.core p).csq.retried = true ∧ (t.core p).csq.issued = 0 ∧ (t.core p).csq.reload = []
        ∨ (s.core p).csq.reload ≠ [] ∧ s.OnlyWrites t [.fab, .regs])

/-- For a core, a context and a tile descriptor whose slot is FREE (acc = 0) or FILLING (acc = 1), the tile runs. With acc
= 0 the element m × 128 + n of the slot is C[m][n] for every m below M and n below N, and every other element is +0.
With acc = 1 and a slot in canonical form, the element is the sum of the element already there and C[m][n] as one
further rounded addition, and every element outside the rectangle stands. No row, tag, handle or other slot of the
core changes. [R118] -/
def Obligations.TilesWriteTheirRectangle : Prop :=
  ∀ (c : Core) (x : Ctx) (d : Nat) (a b : Operand),
    (a, b) = tileOperands x d →
    let old := SMap.get Slot.init c.rill (txSlot d)
    let dot := fun m n => (c.mxeDot x.part a b (txK d) (mxeShape (txFmtA d) (txFmtB d)).2 m n).1
    (txAcc d = false → old.st = .free → ∃ e, c.runTile x d = some e
      ∧ (∀ m n, m < txM d → n < txN d → SMap.get 0 (SMap.get Slot.init e.rill (txSlot d)).cells (m * 128 + n) = dot m n)
      ∧ (∀ k, (txM d ≤ k / 128 ∨ txN d ≤ k % 128) → SMap.get 0 (SMap.get Slot.init e.rill (txSlot d)).cells k = 0)
      ∧ (∀ k, k ≠ txSlot d → SMap.get Slot.init e.rill k = SMap.get Slot.init c.rill k) ∧ { e with rill := c.rill } = c)
    ∧ (txAcc d = true → old.st = .filling → SMap.rising 0 old.cells = true → ∃ e, c.runTile x d = some e
      ∧ (∀ m n, m < txM d → n < txN d →
          SMap.get 0 (SMap.get Slot.init e.rill (txSlot d)).cells (m * 128 + n) = (fadd (SMap.get 0 old.cells (m * 128 + n)) (dot m n)).1)
      ∧ (∀ k, (txM d ≤ k / 128 ∨ txN d ≤ k % 128) →
          SMap.get 0 (SMap.get Slot.init e.rill (txSlot d)).cells k = SMap.get 0 old.cells k)
      ∧ (∀ k, k ≠ txSlot d → SMap.get Slot.init e.rill k = SMap.get Slot.init c.rill k) ∧ { e with rill := c.rill } = c)

/-- A lane generator is never in the all-zero state, however many steps after the start of any block. Generator i of a bank of n that is
placed at word k₀ of a block, within the 8,192 words that 13 matrices reach, gives after t applications of the stride matrix the
block's word k₀ + n t + i, so that window t of the bank is the n words from k₀ + n t on. [spec/03_random_bits.md] -/
def Obligations.BanksGiveTheWordsOfABlock : Prop :=
  (∀ (seed tid : W64) (b k : Nat), genIter k (blockState seed tid b) ≠ (0, 0))
  ∧ ∀ (n t i k₀ b : Nat) (seed tid : W64), i < n → k₀ + n ≤ 8192 →
    ((Bank.run t (Bank.place n seed tid b k₀)).cur.map genOut)[i]? = some (blockWord seed tid b (k₀ + n * t + i))

/-- What a GTU cell leaves once its entry has issued in s for context x with descriptor d. -/
def Sys2Proof.Machine.State.gtuResult (s : State) (p : Nat) (x : Ctx) (d : Nat) (cell : CellIn → Nat → CellOut) (draws : Bool) : State :=
  let c := s.core p
  let s := s.engineWrite p (c.gtuOutRows x d (gdUnits d))
  let out := (s.core p).gtuTile x d cell
  let s := (s.setCore p (out.1.gtuFinish x d out.2.1)).countConv x.part out.2.2
  let first := 65536 * (128 * gdHalf d) + gdUnitBase d
  let last := 65536 * (128 * gdHalf d + 127) + gdUnitBase d + 31
  let tid := tensorId (gdTensor d) (hCount (c.handle (x.hnd (gdOut d))))
  let s := s.countDraws draws p (x.hnd (gdOut d)) 4096 first last 16 1 64 tid 127
  ((s.useInjection c p).flagsBy p (gtuFlagged x d)).engineBusy p 1 (c.gtuIssue x d)

/-- Slot k of core p holds a tile for the GTU, READY or DRAINING. -/
def Sys2Proof.Machine.State.gtuSlot (s : State) (p k : Nat) : Bool :=
  (s.core p).slotReady k && (SMap.get Slot.init (s.core p).rill k).gtu

/-- For an entry that the CSQ issues (State.issue, and State.gtuIssue with the rows read): MXE_TILE stores the tile that
runTile gives, counts the reserved T2 codes and charges the MXE; each of the five GTU cells and GTU_GATE_PROGRAM (with a
legal program), on a slot for the GTU that is READY or DRAINING, stores the tile of its own cell, its conversion counts,
its draws and its flags; GTU_INTAKE stores its intake; VXE_PASS with a legal descriptor, slots for the VXE that are READY
or DRAINING and no row lost stores the pass; GXE_LOOKUP and GXE_SCATTER with legal bags start their command; DMV_COPY,
DMV_ZERO_FILL and MX_IMPORT with a legal descriptor issue it. A tile into a slot of the wrong state, a tile descriptor with
a reserved code, and a GTU cell on a slot that is not the GTU's or neither READY nor DRAINING still issue and charge their
cycles, and run wild: of the whole state then no memory, no context and no other core changes (R9 and R122 call the result
unpredictable; the free values are the model's choice, log entry 65). Where no entry of its unit is due, each of these
commands changes nothing.
[spec/04_core_engines.md; spec/05_programs_cisterns_schedules.md; spec/00_scope.md] -/
def Obligations.EngineEntriesRun : Prop :=
  (∀ (s u v : State) (p : Nat) (up : Upsets) (x : Ctx) (d : Nat) (a b : Operand), s.issue p 0 32 up = .go u x d →
    txLegal d = true → tileOperands x d = (a, b) →
    u.engineRead p ((a.rows (txK d) (txM d) ++ b.rows (txK d) (txN d)).eraseDups) up = (v, false) →
    (∀ c, (v.core p).runTile x d = some c → exec (.mxeTile p up) s =
      .next (((v.setCore p c).bump 0x4001 12 (c.t2Count x.part a (txK d) (txM d) + c.t2Count x.part b (txK d) (txN d))).engineBusy
        p 0 (txIssue d)))
    ∧ ((v.core p).runTile x d = none → exec (.mxeTile p up) s = .next (v.wildRun p 0 (txIssue d))))
  ∧ (∀ (s u : State) (p : Nat) (up : Upsets) (x : Ctx) (d : Nat), s.issue p 0 32 up = .go u x d → txLegal d = false →
    exec (.mxeTile p up) s = .next (u.wildRun p 0 (txIssue d)))
  ∧ (∀ (s : State) (p e n q : Nat), (s.wildRun p e n).mem = s.mem ∧ (s.wildRun p e n).ctxs = s.ctxs
    ∧ (q ≠ p → (s.wildRun p e n).core q = s.core q))
  ∧ (∀ (s u : State) (p : Nat) (up : Upsets) (x : Ctx) (d : Nat),
    (u.gtuSlot p (gdSlot d) = true →
      (s.gtuIssue p 0 up = .go u x d → exec (.gtuLstm p up) s = .next (u.gtuResult p x d (fun i _ => lstmCell i) false))
      ∧ (s.gtuIssue p 1 up = .go u x d → exec (.gtuGru p up) s = .next (u.gtuResult p x d (fun i _ => gruCell i) false))
      ∧ (s.gtuIssue p 2 up = .go u x d → exec (.gtuMguPhaseA p up) s = .next (u.gtuResult p x d (fun i _ => mguACell i) false))
      ∧ (s.gtuIssue p 3 up = .go u x d → exec (.gtuMguPhaseB p up) s = .next (u.gtuResult p x d (fun i _ => mguBCell i) false))
      ∧ (s.gtuIssue p 4 up = .go u x d → exec (.gtuSru p up) s = .next (u.gtuResult p x d (fun i _ => sruCell i) false))
      ∧ (s.gtuIssue p 5 up = .go u x d → gateLegal ((u.core p).gateWords x d) = true → exec (.gtuGateProgram p up) s =
          .next (u.gtuResult p x d (gateCell ((u.core p).gateWords x d) d x.seed ((u.core p).gtuTensor x d))
            (((u.core p).gateWords x d).any fun w => wfld w 31 27 = 12))))
    ∧ (u.gtuSlot p (gdSlot d) = false →
      (s.gtuIssue p 0 up = .go u x d → exec (.gtuLstm p up) s = .next (u.wildRun p 1 ((u.core p).gtuIssue x d)))
      ∧ (s.gtuIssue p 1 up = .go u x d → exec (.gtuGru p up) s = .next (u.wildRun p 1 ((u.core p).gtuIssue x d)))
      ∧ (s.gtuIssue p 2 up = .go u x d → exec (.gtuMguPhaseA p up) s = .next (u.wildRun p 1 ((u.core p).gtuIssue x d)))
      ∧ (s.gtuIssue p 3 up = .go u x d → exec (.gtuMguPhaseB p up) s = .next (u.wildRun p 1 ((u.core p).gtuIssue x d)))
      ∧ (s.gtuIssue p 4 up = .go u x d → exec (.gtuSru p up) s = .next (u.wildRun p 1 ((u.core p).gtuIssue x d)))
      ∧ (s.gtuIssue p 5 up = .go u x d → exec (.gtuGateProgram p up) s = .next (u.wildRun p 1 ((u.core p).gtuIssue x d))))
    ∧ (s.gtuIssue p 6 up = .go u x d → exec (.gtuIntake p up) s =
        .next (let v := u.engineWrite p ((u.core p).gtuOutRows x d (hRows ((u.core p).handle (x.hnd (gdStateIn d))) / 4))
          (v.setCore p ((v.core p).gtuIntakeRun x d)).engineBusy p 1 ((u.core p).gtuIssue x d))))
  ∧ (∀ (s u v : State) (p : Nat) (up : Upsets) (x : Ctx) (d : Nat), s.issue p 2 64 up = .go u x d → vdLegal d = true →
    (∀ k ∈ vxSlots d, (u.core p).slotReady k = true ∧ (SMap.get Slot.init (u.core p).rill k).gtu = false) →
    u.engineRead p ((u.core p).vxReadRows x d ((u.core p).vxWords x d) ((u.core p).vxRun x d u.free)) up = (v, false) →
    exec (.vxePass p up) s = .next (v.vxEnd p x d ((u.core p).vxRun x d u.free) ((u.core p).vxWords x d)))
  ∧ (∀ (s u : State) (p n : Nat) (up : Upsets) (ue : List Nat) (x : Ctx),
    let r : Rec := BitVec.ofNat 256 n
    (s.dueDesc p 3 32 = some n → gxLegal r = true → s.issue p 3 32 up = .go u x n → ∀ t, u.gxeIssue p (u.core p).csq.ctx r up = some t →
      (gxKind r = 0 → exec (.gxeLookup p up) s = .next t) ∧ (gxKind r = 1 → exec (.gxeScatter p up) s = .next t))
    ∧ (s.dueDesc p 4 32 = some n → dvLegal r = true → s.issue p 4 32 up = .go u x n →
      (dvOp r = 0 → exec (.dmvCopy p up ue) s = .next (u.dmvIssue p (u.core p).csq.ctx r up ue))
      ∧ (dvOp r = 1 → exec (.dmvZeroFill p up ue) s = .next (u.dmvIssue p (u.core p).csq.ctx r up ue))
      ∧ (dvOp r = 2 → exec (.mxImport p up ue) s = .next (u.dmvIssue p (u.core p).csq.ctx r up ue))))
  ∧ ∀ (s : State) (p : Nat) (up : Upsets) (ue : List Nat), (∀ k, s.entryDue p k = none) →
    exec (.mxeTile p up) s = .next s ∧ exec (.gtuLstm p up) s = .next s ∧ exec (.gtuGru p up) s = .next s
      ∧ exec (.gtuMguPhaseA p up) s = .next s ∧ exec (.gtuMguPhaseB p up) s = .next s ∧ exec (.gtuSru p up) s = .next s
      ∧ exec (.gtuGateProgram p up) s = .next s ∧ exec (.gtuIntake p up) s = .next s ∧ exec (.vxePass p up) s = .next s
      ∧ exec (.gxeLookup p up) s = .next s ∧ exec (.gxeScatter p up) s = .next s ∧ exec (.dmvCopy p up ue) s = .next s
      ∧ exec (.dmvZeroFill p up ue) s = .next s ∧ exec (.mxImport p up ue) s = .next s

/-- What GXE_ROW_READ_RETURN leaves once the read of a thread's row has answered o in u: bytes that are there are placed with
the thread, a refused read sets the fault bit of the command's token, and a refused or an uncorrectable one resolves the
thread anew with the default row; the command's threads then go on. -/
def Sys2Proof.Machine.State.afterRowRead (u : State) (p : Nat) (g : GxeCmd) (t : Thread) (o : ReadOut) (up : Upsets) (ue : List Nat) : State :=
  (if o.refused then (u.tokenFault p g.tok).failThread p g t ue
    else if !o.lost.isEmpty then u.failThread p g t ue else u.rowReady p g t o.bytes).gxeTurn p up

/-- A new sum of row r of table t, of d, may be added to group g on a die at once: the row is within the limits of the group, the
group has begun or may begin, and the update area and the partition's quota have room (R272, R291, R292, R393). -/
structure Sys2Proof.Machine.State.RoomForSum (s : State) (die g t r : Nat) (d : Desc) : Prop where
  fresh : ∀ a ∈ s.sl.accums.get die, ¬(a.grp = g ∧ a.table = t ∧ a.row = r)
  limits : s.fits g 1 (tdStride d + tdStateStride d) = true
  begins : s.mayBegin g = true
  area : s.updateUsed die + accSize d ≤ 2 ^ 20 * s.reg 0x6000 3
  quota : s.quotaFits (tdOwner d) die (accSize d) = true

/-- GXE_ROW_READ_RETURN for a thread in FETCH of a row at a device address reads the row and goes on as afterRowRead says; where
the row is another module's and its bytes have not come, whenFetched makes it wait for them. The bytes of a good read are then
the data of the thread, which waits in order. SCATTER_ACK of an addition on this module ends its thread, and ORs the flags of the
addition into the data handle where there are any. SCATTER_SEND_RESUME makes the addition of the first waiting thread whose row
has this module as its home and whose sum finds room (RoomForSum), after which that thread waits in order; with no thread waiting
to send it changes nothing. GXE_ROW_READ_RETURN of a thread that waits for no such row, SCATTER_ACK of one that is no addition of
this module in order, and either of a thread that is not there, change nothing. [spec/04_core_engines.md; spec/08_embeddings.md] -/
def Obligations.GatherThreadsGoOn : Prop :=
  (∀ (s : State) (p k a : Nat) (up : Upsets) (ue : List Nat) (t : Thread) (g : GxeCmd), (s.core p).thread? k = some (t, g) →
    t.st = .fetch → t.src = .mem a →
    exec (.gxeRowReadReturn p k up ue) s = .next (s.whenFetched fun s =>
      let r := s.readMem g.part (some g.part) a (tdStride g.table) true ue
      r.1.afterRowRead p g t r.2 up ue))
  ∧ (∀ (s : State) (p : Nat) (g : GxeCmd) (t : Thread) (l : List Byte),
    { t with st := .order, src := .bytes l, data := l } ∈ ((s.rowReady p g t l).core p).threads)
  ∧ (∀ (s : State) (p k : Nat) (up : Upsets) (t : Thread) (g : GxeCmd), (s.core p).thread? k = some (t, g) → gxKind g.desc = 1 →
    t.st = .order → (∀ m a, t.src ≠ .remote m a) →
    (t.flags = 0 → exec (.scatterAck p k up) s = .next (((s.dropThread p t.id).gxeFinish p g.id).gxeTurn p up))
    ∧ (t.flags ≠ 0 → exec (.scatterAck p k up) s = .next ((((s.modCore p fun c => c.orFlags (gxData g.desc)
        (withSource t.flags flagSrcGxe)).dropThread p t.id).gxeFinish p g.id).gxeTurn p up)))
  ∧ (∀ (s u : State) (p grp : Nat) (t : Thread) (l₁ l₂ : List Thread) (g : GxeCmd) (b : Job), (s.core p).threads = l₁ ++ t :: l₂ →
    (∀ x ∈ l₁, x.st ≠ .send) → t.st = .send → (s.core p).gxe.find? (fun g => g.id = t.cmd) = some g →
    g.job.bind s.job? = some b → tdHome g.table = s.me →
    s.jobGroup b.id (gxSluice g.desc) (s.jobDie b.id) (some g.part) = (u, grp) →
    u.RoomForSum (u.homeDie g.table t.idx) grp (gxTable g.desc) t.idx g.table →
    exec (.scatterSendResume p) s = .next (s.sendThread p g t)
      ∧ { t with st := .order, flags := (gradSum g.table t.data).flags } ∈ ((s.sendThread p g t).core p).threads)
  ∧ (∀ (s : State) (p : Nat), (∀ x ∈ (s.core p).threads, x.st ≠ .send) → exec (.scatterSendResume p) s = .next s)
  ∧ ∀ (s : State) (p k : Nat) (up : Upsets) (ue : List Nat),
    ((s.core p).thread? k = none → exec (.gxeRowReadReturn p k up ue) s = .next s ∧ exec (.scatterAck p k up) s = .next s)
    ∧ ∀ t g, (s.core p).thread? k = some (t, g) →
      (t.st ≠ .fetch ∨ (∀ a, t.src ≠ .mem a) → exec (.gxeRowReadReturn p k up ue) s = .next s)
      ∧ (gxKind g.desc ≠ 1 ∨ t.st ≠ .order ∨ (∃ m a, t.src = .remote m a) → exec (.scatterAck p k up) s = .next s)

/-- DMV_CHAIN_START with no chain unstarted changes nothing; the first descriptor not started of a
complete chain that has its permits starts and moves what it can, and the next ones follow; a chain whose permits are held,
none of them in use, records them with its descriptors and goes on so; one that lacks a permit asks for its permits and
moves nothing; one that needs a permit that another chain uses, one that is not complete in the queue, and
one that finds 32 descriptors in flight, waits; and a copy of one owned cistern row leaves the source's contents in the
destination. DMV_DESCRIPTOR_COMPLETE of a descriptor that has moved all its rows signals its token and, being the last
of its chain, returns the permits under which the chain ran; of one that has not, it changes nothing. EXCHANGE_ROW_ACCESS
moves what can move of every started descriptor of the core. [spec/04_core_engines.md;
spec/05_programs_cisterns_schedules.md; spec/06_recurrent_streams.md] -/
def Obligations.MoverDescriptorsMove : Prop :=
  (∀ (s : State) (p : Nat) (up : Upsets) (ue : List Nat),
    ((∀ i ∈ (s.core p).dmv, i.started = true) → exec (.dmvChainStart p up ue) s = .next s)
    ∧ ∀ it : DmvItem, (s.core p).dmv.find? (fun i => !i.started) = some it →
      ((s.dmvItems p it.chain).any (fun i => i.last) = false ∨ 32 ≤ ((s.core p).dmv.filter fun i => i.started).length →
        exec (.dmvChainStart p up ue) s = .next s)
      ∧ ((s.dmvItems p it.chain).any (fun i => i.last) = true → ((s.core p).dmv.filter fun i => i.started).length < 32 →
        (it.permits.isSome = true → exec (.dmvChainStart p up ue) s = .next (State.dmvStart (2 * (s.core p).dmv.length)
          ((s.modItem p it.id fun x => { x with started := true }).dmvMove p it.id up ue) p up ue))
        ∧ (it.permits = none →
          ((∃ q ∈ s.chainPermits p (s.dmvItems p it.chain), ∃ i ∈ (s.core p).dmv, q ∈ i.permits.getD []) →
            exec (.dmvChainStart p up ue) s = .next s)
          ∧ ((∀ q ∈ s.chainPermits p (s.dmvItems p it.chain), ∀ i ∈ (s.core p).dmv, q ∉ i.permits.getD []) →
            (∃ q ∈ s.chainPermits p (s.dmvItems p it.chain), s.holdsPermit q = false) →
            exec (.dmvChainStart p up ue) s =
              .next ((s.chainPermits p (s.dmvItems p it.chain)).foldl (fun s q => s.askPermit q) s))
          ∧ ((∀ q ∈ s.chainPermits p (s.dmvItems p it.chain), s.holdsPermit q = true ∧ ∀ i ∈ (s.core p).dmv, q ∉ i.permits.getD []) →
            exec (.dmvChainStart p up ue) s = .next (State.dmvStart (2 * (s.core p).dmv.length)
              ((s.dmvItems p it.chain).foldl (fun u i => u.modItem p i.id fun x =>
                { x with permits := some (s.chainPermits p (s.dmvItems p it.chain)) }) s) p up ue)))))
  ∧ (∀ (s : State) (p : Nat) (it : DmvItem), SMap.rising 0 s.cores = true → SMap.rising 0 (s.core p).rows = true →
    (s.core p).dmv = [it] → it.started = false → it.permits = none → it.last = true → it.left = [0] → dvOp it.desc = 0 → dvSrcKind it.desc = 0 →
    dvDstKind it.desc = 0 → dvRows it.desc = 1 → s.reg 0x9001 3 = 0 → s.reg 0x9002 3 = 0 →
    (s.core p).owns it.part (dvSrc it.desc % cisternRows) = true → (s.core p).owns it.part (dvDst it.desc % cisternRows) = true →
    ∃ t, exec (.dmvChainStart p ⟨[], []⟩ []) s = .next t
      ∧ (t.core p).view it.part (dvDst it.desc % cisternRows) = (s.core p).view it.part (dvSrc it.desc % cisternRows)
      ∧ (t.core p).dmv = [{ it with started := true, permits := some [], left := [] }] ∧ t.mem = s.mem)
  ∧ (∀ (s : State) (p : Nat) (it : DmvItem), (s.core p).dmv.find? (fun i => i.id = it.id) = some it →
    (s.dmvDone p it = false → exec (.dmvDescriptorComplete p it.id) s = .next s)
    ∧ (s.dmvDone p it = true →
      let u := (s.busyTick p).modCore p fun c => { (c.signalToken it.token) with dmv := c.dmv.filter fun i => i.id ≠ it.id }
      let v := if (u.dmvItems p it.chain).isEmpty then (it.permits.getD []).foldl (fun s q => s.returnPermit q) u else u
      exec (.dmvDescriptorComplete p it.id) s = .next (v.lookOn p)))
  ∧ ∀ (s : State) (p : Nat) (up : Upsets) (ue : List Nat),
    exec (.exchangeRowAccess p up ue) s =
      .next (((s.core p).dmv.filter fun i => i.started).foldl (fun s i => s.dmvMove p i.id up ue) s)

/-! ### The object dictionary -/

/-- An accessor's write of bytes is accepted: it is served and no access of it waits, the entry is writable, by that accessor, its
unit is quiescent where it must be, the bytes fit, no dictionary sluice of the accessor is open, its group may begin, and a mark
is to be had at once. -/
structure Sys2Proof.Machine.State.Takes (s : State) (acc idx sub offset : Nat) (bytes : List Byte) : Prop where
  served : s.served = true
  idle : s.dictBusy acc = false
  row : ∃ r, dictFind idx sub = some r ∧ r.acc.writable = true ∧ r.fits offset bytes.length = true
    ∧ (r.acc = .rwq → s.quiet idx sub = true)
  right : s.mayWrite acc idx sub (leNat bytes) = true
  plain : idx ≠ 0x1110
  alone : s.sluiceOpen acc = none
  size : bytes.length ≤ 2 ^ 22
  runs : s.top.stopped.d0 = false
  room : s.groupRoom 0 = true
  marks : s.stalled (s.sl.lastMark + 1) = false

/-- s after a group of a dictionary access has opened on die 0: the next mark is assigned and published there, the group is counted
for the package and the accessor's partition, and a write set below 75 % may raise its event again (R284, R285, R301, R319). -/
def Sys2Proof.Machine.State.marked (s : State) (acc : Nat) : State :=
  ((State.countOpened { s with sl := { s.sl with
    nextGroup := s.newGroup + 1, lastMark := (s.sl.lastMark + 1) % 2 ^ 48,
    p := { s.sl.p with d0 := (s.sl.lastMark + 1) % 2 ^ 48 } } } (accPart acc)).rearm 0).rearm 1

/-- The result done, with the size of the value, in the mailbox of a function; the management endpoint has none. -/
def Sys2Proof.Machine.State.saysDone (s : State) (acc idx sub : Nat) : State :=
  if acc ≤ 16 then s.answer acc drDone (s.valueBytes acc idx sub).length [] else s

/-- A result and a size without data, in the mailbox of a function. -/
def Sys2Proof.Machine.State.replied (s : State) (acc res idx sub : Nat) : State :=
  if acc ≤ 16 then s.answer acc res (s.valueBytes acc idx sub).length [] else s

/-- A write of an entry by an accessor that is served, has no access under way and no open dictionary sluice, is allowed
to write the entry, meets its quiescence and its size: the write is carried by a group that takes the next mark; at it
the entry takes the value (scalars their number, STR and BLOB entries the bytes at the offset, with the reserved bits of
memory windows at 0), or the entry's action proceeds; and the mailbox shows done with the size of the value. The same write through the mailbox first sets
DICT_ADDR, DICT_OFFSET and DICT_DATA; of no bytes, or of more than 4,096, it answers with the model's free value (log entry 65) and
writes nothing. The entries of routes and trunks take effect together. Where the dictionary is not served, or an access of the accessor is under way,
the write changes nothing. No such entry, a denied write (counted at 0x1100.02), a write out of range and a write to
an RWQ entry whose unit is not quiescent change no entry, and answer no such entry, denied, range and not quiescent.
In an open dictionary sluice the write is staged. [spec/13_host_interface_dictionary.md;
spec/09_sluice_consistency.md] -/
def Obligations.DictionaryWritesTakeEffectAtAMark : Prop :=
  (∀ (s : State) (acc idx sub offset : Nat) (bytes : List Byte), s.Takes acc idx sub offset bytes →
    s.writeItems acc idx sub offset bytes = some [.dict acc idx sub offset bytes] →
    (hasAction idx sub = false → exec (.dictionaryWrite acc idx sub offset bytes) s =
      .next (((s.marked acc).storeEntry acc idx sub offset bytes).saysDone acc idx sub))
    ∧ (hasAction idx sub = true → exec (.dictionaryWrite acc idx sub offset bytes) s =
      .next ((((s.marked acc).act acc idx sub offset bytes Env.none).routesOpened (s.marked acc)
        [.dict acc idx sub offset bytes]).saysDone acc idx sub)))
  ∧ (∀ (s u : State) (fn idx sub offset : Nat) (bytes : List Byte), s.dictBusy fn = false →
    u = s.setMailbox fn { s.mailbox fn with addr := 256 * idx + sub, offset := offset, data := bytes } →
    u.Takes fn idx sub offset bytes → u.writeItems fn idx sub offset bytes = some [.dict fn idx sub offset bytes] →
    hasAction idx sub = false → 1 ≤ bytes.length → bytes.length ≤ 4096 → exec (.dictCtrlWrite fn idx sub offset bytes) s =
      .next (((u.marked fn).storeEntry fn idx sub offset bytes).saysDone fn idx sub))
  ∧ (∀ (s u : State) (fn idx sub offset : Nat) (bytes : List Byte), s.served = true → s.dictBusy fn = false →
    u = s.setMailbox fn { s.mailbox fn with addr := 256 * idx + sub, offset := offset, data := bytes } →
    bytes = [] ∨ 4096 < bytes.length → exec (.dictCtrlWrite fn idx sub offset bytes) s =
      .next (u.draw.1.answer fn (u.draw.2 % 256) (u.draw.2 / 256 % 2 ^ 32) []))
  ∧ (∀ (s : State) (acc idx sub offset : Nat) (bytes : List Byte) (r : DictRow), dictFind idx sub = some r → hasAction idx sub = false →
    (r.ty.bytes = 0 → ¬(0x7010 ≤ idx ∧ idx < 0x7020 ∧ sub = 4) →
        s.storeEntry acc idx sub offset bytes = s.setBlob idx sub (r.patch (s.blob idx sub) offset bytes))
    ∧ (0x7010 ≤ idx → idx < 0x7020 → sub = 4 →
        s.storeEntry acc idx sub offset bytes = s.setBlob idx sub (keepBits windowMask (r.patch (s.blob idx sub) offset bytes)))
    ∧ (r.ty.bytes ≠ 0 → ownCopy idx sub = true → s.storeEntry acc idx sub offset bytes = s.setAreg acc idx sub (leNat bytes))
    ∧ (r.ty.bytes ≠ 0 → ownCopy idx sub = false → idx < 0xB100 →
        s.storeEntry acc idx sub offset bytes = s.setReg idx sub (leNat bytes)))
  ∧ (∀ (s : State) (acc idx sub offset : Nat) (bytes : List Byte),
    (s.served = false ∨ s.dictBusy acc = true → exec (.dictionaryWrite acc idx sub offset bytes) s = .next s)
    ∧ (s.served = true → s.dictBusy acc = false →
      (dictFind idx sub = none → exec (.dictionaryWrite acc idx sub offset bytes) s = .next (s.replied acc drNone idx sub))
      ∧ ∀ r, dictFind idx sub = some r →
        (r.acc.writable = false ∨ s.mayWrite acc idx sub (leNat bytes) = false →
          exec (.dictionaryWrite acc idx sub offset bytes) s = .next ((s.bump 0x1100 2 1).replied acc drDenied idx sub))
        ∧ (r.acc.writable = true → s.mayWrite acc idx sub (leNat bytes) = true →
          (r.fits offset bytes.length = false →
            exec (.dictionaryWrite acc idx sub offset bytes) s = .next (s.replied acc drRange idx sub))
          ∧ (r.fits offset bytes.length = true → idx ≠ 0x1110 →
            (r.acc = .rwq → s.quiet idx sub = false → s.sluiceOpen acc = none →
              exec (.dictionaryWrite acc idx sub offset bytes) s = .next (s.replied acc drBusy idx sub))
            ∧ ∀ d, s.sluiceOpen acc = some d →
              ∃ t, exec (.dictionaryWrite acc idx sub offset bytes) s = .next t
                ∧ t.sluiceOpen acc = some { d with staged := d.staged ++ [(idx, sub, offset, bytes)] }
                ∧ t.mem = s.mem ∧ t.cores = s.cores ∧ t.blobs = s.blobs))))

/-- A read through the mailbox of a function that is served and has no access under way: of an entry that it may read,
with offset and length within the value (a scalar whole), the mailbox holds result done, the size of the value and the
bytes asked for; unless the entry is RC and the reader is the PF, no state but the mailbox changes, and the busy counts of
the cores, which the read of an account's counters (0x7810 to 0x7820) first brings up to date. A length of 0 or beyond 4,096 is answered with the model's free value (log entry 65). A denied read answers zeros and the result denied and is counted at 0x1100.02; no such entry and
a read beyond the value answer their codes. A read of a whole RC scalar by the PF answers its value and stores 0; the
read of the hot list by the PF answers the 512 bytes of the selected slot and empties it. A virtual function's read of
an RC entry leaves it. [spec/13_host_interface_dictionary.md; spec/08_embeddings.md] -/
def Obligations.DictionaryReadsAnswer : Prop :=
  (∀ (s : State) (fn idx sub offset len : Nat), fn ≤ 16 → s.served = true → s.dictBusy fn = false →
    let u := s.setMailbox fn { s.mailbox fn with addr := 256 * idx + sub, offset := offset }
    (len = 0 ∨ 4096 < len → exec (.dictCtrlRead fn idx sub offset len) s =
      .next (u.draw.1.answer fn (u.draw.2 % 256) (u.draw.2 / 256 % 2 ^ 32) []))
    ∧ (1 ≤ len → len ≤ 4096 → (dictFind idx sub = none → exec (.dictCtrlRead fn idx sub offset len) s = .next (u.answer fn drNone 0 []))
    ∧ ∀ r, dictFind idx sub = some r →
      (r.acc = .wo ∨ u.mayRead fn idx sub = false →
        exec (.dictCtrlRead fn idx sub offset len) s =
          .next ((u.bump 0x1100 2 1).answer fn drDenied 0 (List.replicate len 0)))
      ∧ (r.acc ≠ .wo → u.mayRead fn idx sub = true →
        let w := if 0x7810 ≤ idx && idx ≤ 0x7820 then u.busyAll else u
        ((r.ty.bytes ≠ 0 ∧ (offset ≠ 0 ∨ len ≠ r.ty.bytes)) ∨ (w.valueBytes fn idx sub).length < offset + len →
          exec (.dictCtrlRead fn idx sub offset len) s = .next (w.answer fn drRange (w.valueBytes fn idx sub).length []))
        ∧ (r.ty.bytes = 0 ∨ (offset = 0 ∧ len = r.ty.bytes) → offset + len ≤ (w.valueBytes fn idx sub).length →
          r.acc ≠ .rc ∨ fn ≠ 0 →
          exec (.dictCtrlRead fn idx sub offset len) s =
            .next (w.answer fn drDone (w.valueBytes fn idx sub).length (((w.valueBytes fn idx sub).drop offset).take len))))))
  ∧ (∀ (s : State) (idx sub : Nat) (r : DictRow), s.served = true → s.dictBusy 0 = false → dictFind idx sub = some r → r.acc = .rc →
    r.ty.bytes ≠ 0 → idx ≠ 0x6002 →
    exec (.rcRead 0 idx sub) s =
      .next ((s.setReg idx sub 0).answer 0 drDone r.ty.bytes (leBytes r.ty.bytes (s.shownScalar 0 idx sub))))
  ∧ (∀ (s : State) (fn idx sub : Nat) (r : DictRow), 0 < fn → fn ≤ 16 → s.served = true → s.dictBusy fn = false →
    dictFind idx sub = some r → r.acc = .rc → r.ty.bytes ≠ 0 → s.mayRead fn idx sub = true →
    exec (.rcRead fn idx sub) s =
      .next (s.answer fn drDone r.ty.bytes (leBytes r.ty.bytes (s.shownScalar fn idx sub))))
  ∧ ∀ s : State, s.served = true → s.dictBusy 0 = false → (s.hotBytes (s.areg 0 0x6002 1)).length = 512 →
    ∃ t, exec (.hotListRead 0) s = .next t ∧ (t.mailbox 0).data = s.hotBytes (s.areg 0 0x6002 1) ∧ (t.mailbox 0).status = drDone
      ∧ t.tab = { s.tab with hot := SMap.erase s.tab.hot (s.areg 0 0x6002 1 % 512) } ∧ t.regs = s.regs ∧ t.mem = s.mem

/-- An accessor's write of a whole scalar is accepted. -/
def Sys2Proof.Machine.State.TakesScalar (s : State) (acc idx sub v : Nat) : Prop :=
  ∃ r, dictFind idx sub = some r ∧ r.ty.bytes ≠ 0 ∧ v < 2 ^ (8 * r.ty.bytes) ∧ s.Takes acc idx sub 0 (leBytes r.ty.bytes v)

/-- Each of these writes, accepted, is carried by a group at the next mark, and then acts. SERVE in READY enters SERVING
and records the time, with request_status done, and starts the training of the enabled links; in any other state it is
refused and the device state stands. QUIESCE in SERVING with no partition ACTIVE and no PF pair enabled takes every
link down and enters READY. HOLD_POINT_WRITE of a point stores it; of 0 while held, it releases the hold and adds the
held time. PACKAGE_BUDGET_WRITE with no request queued splits the change of the budget evenly between the dies'
allotments and leaves the held permits. INJECT_ARM in READY or SERVING stores target, site and count with the reserved
bits 0 where no arming acts at once; in any other state it stores nothing. SNAPSHOT brings the busy counts of the cores up to date and
latches the 16 counters of the account, P and the control cycle for the accessor. EVENT_ENTRIES_WRITE stores the size of the queue and posts the
records held for the function. [spec/15_bring_up_and_test.md; spec/01_module_structure_clocks_power.md;
spec/12_partitions_scheduling.md; spec/14_availability_faults.md; spec/13_host_interface_dictionary.md] -/
def Obligations.DeviceRequestsTakeEffect : Prop :=
  (∀ (s : State) (acc : Nat), s.TakesScalar acc 0x1200 3 1 →
    (s.top.dev = .ready → ∃ t, exec (.serve acc) s = .next t ∧ t = (s.marked acc).serve.saysDone acc 0x1200 3
      ∧ t.top = { s.top with dev := .serving } ∧ t.mem = s.mem ∧ t.cores = s.cores)
    ∧ (s.top.dev ≠ .ready → ∃ t, exec (.serve acc) s = .next t ∧ t = ((s.marked acc).setReg 0x1200 4 2).saysDone acc 0x1200 3
      ∧ t.top = s.top))
  ∧ (∀ (s : State) (acc : Nat), s.TakesScalar acc 0x1200 3 2 →
    (s.mayQuiesce = true → ∃ t, exec (.quiesce acc) s = .next t ∧ t = (s.marked acc).quiesce.saysDone acc 0x1200 3
      ∧ t.top = { s.top with dev := .ready })
    ∧ (s.mayQuiesce = false → exec (.quiesce acc) s = .next (((s.marked acc).setReg 0x1200 4 2).saysDone acc 0x1200 3)))
  ∧ (∀ (s : State) (acc v : Nat), s.TakesScalar acc 0x1200 5 v →
    (v ≠ 0 → exec (.holdPointWrite acc v) s = .next (((s.marked acc).setReg 0x1200 5 v).saysDone acc 0x1200 5))
    ∧ (v = 0 → s.reg 0x1200 6 ≠ 0 → ∃ t, exec (.holdPointWrite acc v) s = .next t
      ∧ t.regs = (((s.marked acc).setReg 0x1200 5 0).setReg 0x1200 6 0).regs
      ∧ t.top = { s.top with heldCycles := s.top.heldCycles + (s.now - s.top.heldFrom),
                              passed2 := s.top.passed2 || s.reg 0x1200 6 = 2 }))
  ∧ (∀ (s : State) (acc v : Nat), s.TakesScalar acc 0x2000 1 v → (s.gov 0).queue = [] → (s.gov 1).queue = [] →
    ∃ t, exec (.packageBudgetWrite acc v) s = .next t ∧ t.pow = s.pow
      ∧ t.regs = ((s.marked acc).setReg 0x2000 1 v).regs
      ∧ t.alloc.budget = 1000000 * v ∧ t.alloc.withheld0 = s.alloc.withheld0 ∧ t.alloc.withheld1 = s.alloc.withheld1
      ∧ t.alloc.allot0 = s.alloc.allot0 + (1000000 * v - s.alloc.budget) / 2
      ∧ t.alloc.allot0 + t.alloc.allot1 = s.alloc.allot0 + s.alloc.allot1 + (1000000 * v - s.alloc.budget))
  ∧ (∀ (s : State) (acc det v : Nat), 0x9001 ≤ det → det ≤ 0x901A → s.TakesScalar acc det 3 v →
    (s.isUp = true → det ≠ 0x9010 → det ≠ 0x9015 → det ≠ 0x9016 →
      exec (.injectArm acc det v) s = .next (((s.marked acc).setReg det 3
        (v / 2 ^ 48 * 2 ^ 48 + v / 2 ^ 40 % 256 * 2 ^ 40 + v / 2 ^ 16 % 65536 * 2 ^ 16)).saysDone acc det 3))
    ∧ (s.isUp = false → exec (.injectArm acc det v) s = .next ((s.marked acc).saysDone acc det 3)))
  ∧ (∀ (s : State) (acc a : Nat), s.TakesScalar acc 0x7800 1 a →
    exec (.snapshot acc a) s = .next ((((((s.marked acc).setAreg acc 0x7800 1 a).busyAll.setAblob acc 0x7800 2
      (((s.marked acc).setAreg acc 0x7800 1 a).busyAll.accountOf a |>.flatMap fun v => leBytes 8 v)).setAreg acc 0x7800 3
        ((s.marked acc).p 0)).setAreg acc 0x7800 4 s.now).saysDone acc 0x7800 1))
  ∧ ∀ (s : State) (acc fn v : Nat), fn < 17 → s.TakesScalar acc (0xB010 + fn) 2 v →
    exec (.eventEntriesWrite acc fn v) s =
      .next ((((s.marked acc).setReg (0xB010 + fn) 2 v).postHeld fn).saysDone acc (0xB010 + fn) 2)

/-- For an accessor that is served and has no access under way: SLUICE_BEGIN of 1 opens a sluice with nothing staged
(status OPEN), whose group counts as begun at once, or waits to begin while 4,096 others are undecided, and is ignored while one
is open. SLUICE_COMMIT of a sluice with two different scalar entries staged,
neither of which has an action or a limit of its own, whose units are quiescent, whose group has begun, with a mark to be had at once: both
entries take their values, sluice_status is COMMITTED, sluice_mark is the next mark, which both entries share, no
sluice is open, and nothing is staged. With a staged RWQ entry whose unit is not quiescent nothing is written and the
status is FAILED_QUIESCENT; with a mapped-out list that would be too long it is FAILED_LIMIT. SLUICE_ABORT discards
the sluice with ABORTED. DICT_SLUICE_TIMEOUT discards it with TIMED_OUT once it has been open for dict_sluice_timeout,
and changes nothing before. [spec/09_sluice_consistency.md] -/
def Obligations.DictionarySluicesBeginCommitAndEnd : Prop :=
  (∀ (s : State) (acc : Nat), s.served = true → s.dictBusy acc = false →
    (s.sluiceOpen acc = none → ∃ u : State, exec (.sluiceBegin acc 1) s = .next (((State.setAreg { u with sl := { u.sl with
      dicts := SMap.set none s.sl.dicts acc (some ⟨s.newGroup, [], s.now⟩) } } acc 0x1110 4 1).setAreg acc 0x1110 6 0).saysDone acc 0x1110 1)
      ∧ { u with sl := s.sl } = s
      ∧ ∃ x : Group, u.group? s.newGroup = some x ∧ x.issuer = .sluice acc ∧ x.die = 0 ∧ x.items = [] ∧ x.failed = false
        ∧ x.phase = (if s.groupRoom 0 then .begun else .queued) ∧ u.begun x.id = s.groupRoom 0)
    ∧ ∀ d, s.sluiceOpen acc = some d →
      exec (.sluiceBegin acc 1) s = .next (s.saysDone acc 0x1110 1)
      ∧ exec (.sluiceAbort acc 1) s = .next ((s.endSluice acc 6).saysDone acc 0x1110 3)
      ∧ (d.staged.any (fun w => s.stagedBusy w) = true →
          exec (.sluiceCommit acc 1) s = .next ((s.endSluice acc 4).saysDone acc 0x1110 2))
      ∧ (d.staged.any (fun w => s.stagedBusy w) = false → (s.merge acc d.staged).full = true →
          exec (.sluiceCommit acc 1) s = .next ((s.endSluice acc 3).saysDone acc 0x1110 2)))
  ∧ (∀ (s : State) (acc i j a b n : Nat) (u v : List Byte) (q r : DictRow) (x : Group), Regs.wf s.regs = true →
    SMap.rising 0 s.sl.dicts = true → s.served = true → s.dictBusy acc = false →
    s.sluiceOpen acc = some ⟨x.id, [(i, a, 0, u), (j, b, 0, v)], n⟩ → (i, a) ≠ (j, b) →
    s.group? x.id = some x → x.items = [] → x.failed = false → x.die = 0 → x.phase = .begun → x.after = none →
    x.issuer = .sluice acc → (∀ y ∈ s.sl.groups, y.id = x.id → y = x) →
    s.versionsOf x.id = [] → s.blocksOf x.id = [] → s.accumsOf x.id = [] → s.undecided 0 ≤ 4096 →
    dictFind i a = some q → dictFind j b = some r → u.length = q.ty.bytes → v.length = r.ty.bytes → q.ty.bytes ≠ 0 → r.ty.bytes ≠ 0 →
    (∀ k ∈ [(i, a), (j, b)], hasAction k.1 k.2 = false ∧ ownCopy k.1 k.2 = false ∧ k.1 < 0xB100 ∧ k.1 ≠ 0x6001 ∧ k.1 ≠ 0x6003
      ∧ k ∉ sizeEntries) →
    s.stagedBusy (i, a, 0, u) = false → s.stagedBusy (j, b, 0, v) = false → s.top.stopped.d0 = false →
    s.stalled (s.sl.lastMark + 1) = false → leNat u < 2 ^ regBits (dkey i a) → leNat v < 2 ^ regBits (dkey j b) →
    s.mapouts.length ≤ 1024 →
    ∃ t, exec (.sluiceCommit acc 1) s = .next t ∧ t.reg i a = leNat u ∧ t.reg j b = leNat v
      ∧ t.areg acc 0x1110 4 = 2 ∧ t.areg acc 0x1110 5 = (s.sl.lastMark + 1) % 2 ^ 48 ∧ t.areg acc 0x1110 6 = 0
      ∧ t.sluiceOpen acc = none ∧ t.sl.lastMark = (s.sl.lastMark + 1) % 2 ^ 48 ∧ t.mem = s.mem ∧ t.blobs = s.blobs)
  ∧ ∀ (s : State) (acc : Nat) (d : DictSluice), s.sluiceOpen acc = some d →
    (usCycles 1000 * s.reg 0x6800 5 ≤ s.now - d.since → s.dictBusy acc = false →
      exec (.dictSluiceTimeout acc) s = .next (s.endSluice acc 5))
    ∧ (s.now - d.since < usCycles 1000 * s.reg 0x6800 5 → exec (.dictSluiceTimeout acc) s = .next s)

/-- Each of these writes, accepted, takes the next mark and then acts. STACK_ENABLE_WRITE of 1 enables the stack and
clears halted, of 0 disables it. OUT_HEAD_WRITE stores the head; OUT_RING_CONFIG_WRITE of out_base or out_entries
stores it and makes out_head and the output position 0. DOMAIN_STOP_REQUEST stores start_mode 0 and, where the domain
runs, stops it at its next frame tick; DOMAIN_ARM_PPS arms it for the next edge; DOMAIN_ARM_AT arms it at start_at, or
4 cycles from now where start_at is less than 400 cycles ahead. SHARED_TICK_WRITE of 1 enters the mode where it is
off; of 0 it stores the value alone. QUEUE_ENABLE of 1 on a pair that is not enabled enables it where its checks pass
and its function may submit, and sets its status to the configuration error where they do not; of 0 it disables the
pair and drops what it has fetched. LINK_ENABLE_WRITE of one bit in SERVING with no link enabled starts the training
of that link, if it is DOWN, calibrated and has its lanes. ROUTE_TABLE_WRITE replaces the bytes of the table, with the
reserved bits of each entry at 0, and the change of routes takes effect.
[spec/06_recurrent_streams.md; spec/07_audio_intake.md; spec/11_quiwen_fabric.md;
spec/13_host_interface_dictionary.md] -/
def Obligations.ConfigurationWritesAct : Prop :=
  (∀ (s : State) (acc n v : Nat), n < 32 → s.TakesScalar acc (0x5100 + n) 1 v →
    (v = 1 → exec (.stackEnableWrite acc n v) s =
      .next ((((s.marked acc).setReg (0x5100 + n) 1 1).setReg (0x5100 + n) 20 0).saysDone acc (0x5100 + n) 1))
    ∧ (v = 0 → exec (.stackEnableWrite acc n v) s = .next (((s.marked acc).setReg (0x5100 + n) 1 0).saysDone acc (0x5100 + n) 1)))
  ∧ (∀ (s : State) (acc n v : Nat), n < 32 → s.TakesScalar acc (0x5100 + n) 22 v →
    exec (.outHeadWrite acc n v) s = .next (((s.marked acc).setReg (0x5100 + n) 22 v).saysDone acc (0x5100 + n) 22))
  ∧ (∀ (s : State) (acc n sub v : Nat), n < 32 → sub = 14 ∨ sub = 15 → s.TakesScalar acc (0x5100 + n) sub v →
    ∃ t, exec (.outRingConfigWrite acc n sub v) s = .next t
      ∧ t.regs = (((s.marked acc).setReg (0x5100 + n) sub v).setReg (0x5100 + n) 22 0).regs
      ∧ t.strm = { s.strm with outPos := SMap.erase s.strm.outPos n })
  ∧ (∀ (s : State) (acc d : Nat), d < 32 →
    (s.TakesScalar acc (0x5810 + d) 6 0 → exec (.domainStopRequest acc d) s = .next ((((s.marked acc).setReg (0x5810 + d) 6 0).modDomain d
        fun x => { x with stopping := ((s.marked acc).setReg (0x5810 + d) 6 0).dmRuns d, armed := none, start := none, edgeAt := none }).saysDone
          acc (0x5810 + d) 6))
    ∧ (s.TakesScalar acc (0x5810 + d) 6 1 → exec (.domainArmPps acc d) s = .next ((((s.marked acc).setReg (0x5810 + d) 6 1).modDomain d
        fun x => { x with armed := some s.now, start := none }).saysDone acc (0x5810 + d) 6))
    ∧ (s.TakesScalar acc (0x5810 + d) 6 2 → exec (.domainArmAt acc d) s = .next ((((s.marked acc).setReg (0x5810 + d) 6 2).modDomain d
        fun x => { x with armed := none, start := some (if s.reg (0x5810 + d) 7 < s.now + 400 then s.now + 4 else s.reg (0x5810 + d) 7) }).saysDone
          acc (0x5810 + d) 6)))
  ∧ (∀ (s : State) (acc v : Nat), s.TakesScalar acc 0x5800 1 v →
    (v = 0 → exec (.sharedTickWrite acc v) s = .next (((s.marked acc).setReg 0x5800 1 0).saysDone acc 0x5800 1))
    ∧ (v = 1 → s.reg 0x5800 2 = 0 →
        exec (.sharedTickWrite acc v) s = .next ((((s.marked acc).setReg 0x5800 1 1).enterShared).saysDone acc 0x5800 1)))
  ∧ (∀ (s : State) (acc f q v : Nat), f < 17 → q < 16 → s.TakesScalar acc (pairIdx f q) 8 v →
    (v = 1 → s.reg (pairIdx f q) 8 = 0 →
      (s.enableChecks f q = true → s.fnActive f = true → exec (.queueEnable acc f q v) s =
        .next (((((s.marked acc).setPair f q { s.pair f q with live := true }).setReg (pairIdx f q) 8 1).setReg (pairIdx f q) 16 1).saysDone
          acc (pairIdx f q) 8))
      ∧ (s.enableChecks f q = false ∨ s.fnActive f = false → exec (.queueEnable acc f q v) s =
        .next ((((s.marked acc).setReg (pairIdx f q) 8 0).setReg (pairIdx f q) 16 2).saysDone acc (pairIdx f q) 8)))
    ∧ (v = 0 → ∃ t, exec (.queueEnable acc f q v) s = .next t ∧ (t.pair f q).fetched = []
      ∧ t.regs = (((s.marked acc).setReg (pairIdx f q) 8 0).setReg (pairIdx f q) 16
          (if s.reg (pairIdx f q) 16 = 3 then 3 else 0)).regs))
  ∧ (∀ (s : State) (acc e : Nat), e < 24 → Regs.wf s.regs = true → s.TakesScalar acc 0x8000 2 (2 ^ e) → s.reg 0x8000 2 = 0 →
    s.top.dev = .serving → s.top.stopped.get (e / 12) = false → s.reg (0x8010 + e) 1 = 0 → s.laneBlocked e = false →
    maskBit (s.reg 0x1200 11) e = true → ∃ t, exec (.linkEnableWrite acc (2 ^ e)) s = .next t ∧ t.reg (0x8010 + e) 1 = 1 ∧ t.reg 0x8000 2 = 2 ^ e)
  ∧ ∀ (s : State) (acc offset : Nat) (bytes : List Byte), s.Takes acc 0x8040 1 offset bytes →
    exec (.routeTableWrite acc offset bytes) s = .next ((((s.marked acc).setBlob 0x8040 1
      (keepBits [7, 192] ((putBytes (s.blob 0x8040 1) offset bytes).take 128))).routesChanged (s.marked acc) []).saysDone acc 0x8040 1)

/-! ### Tables and sluice groups -/

/-- The die 1 controller is running, or has stopped: the parts of a two-die write. -/
def Sys2Proof.Machine.State.PreparedWith (s t : State) (acc : Nat) (l : List Item) : Prop :=
  (∃ x, t.group? s.newGroup = some x ∧ x.items = l ∧ x.phase = .prepare ∧ x.issuer = .dict acc ∧ x.part = accPart acc ∧ x.die = 0)
    ∧ t.tab = s.tab ∧ t.dictBusy acc = true ∧ t.sl.lastMark = s.sl.lastMark ∧ (acc ≤ 16 → (t.mailbox acc).status = drPending)

/-- With both dies running, an accepted TABLE_DESCRIPTOR_WRITE, and a MAPOUT_ADD of a page not listed or a MAPOUT_REMOVE
of one that is, each begin a group with the change as its item, of the accessor's partition, coordinated by die 0 and
in its PREPARE phase; no table state changes yet, no mark is taken, and the mailbox shows busy. With die 1 stopped the
group opens at once: the selected table has the bytes replaced and its update_count kept, or the list has the page
from the next mark on, or the page is marked as gone at it. A MAPOUT_ADD of a listed page and a MAPOUT_REMOVE of one
that is not listed leave the tables as they are; a MAPOUT_ADD to a list of 1,024 pages answers range. STEP_CLOSE_WRITE
of a value at or above the present one stores it and announces the closed step; of a lower one it changes no entry.
SKETCH_DECAY halves every counter. [spec/08_embeddings.md; spec/09_sluice_consistency.md;
spec/13_host_interface_dictionary.md] -/
def Obligations.TableWritesAreTwoDieGroups : Prop :=
  (∀ (s : State) (acc offset : Nat) (bytes : List Byte), s.Takes acc 0x6001 2 offset bytes →
    let n := s.areg acc 0x6001 1 % 4096
    (s.top.stopped.d1 = false → ∃ t, exec (.tableDescriptorWrite acc offset bytes) s = .next t
      ∧ s.PreparedWith t acc [.table n (Desc.patch (s.table n) acc offset bytes)])
    ∧ (s.top.stopped.d1 = true → ∃ t, exec (.tableDescriptorWrite acc offset bytes) s = .next t
      ∧ t.table n = setFld (Desc.patch (s.table n) acc offset bytes) 511 464 (tdUpdateCount (s.table n))
      ∧ (∀ k, k ≠ n → t.table k = s.table k) ∧ t.sl.lastMark = (s.sl.lastMark + 1) % 2 ^ 48 ∧ t.mem = s.mem))
  ∧ (∀ (s : State) (acc v n p : Nat), mapoutArg v = (n, p) →
    (s.TakesScalar acc 0x6003 2 v → s.mapouts.contains (n, p) = false → s.mapouts.length < 1024 →
      (s.top.stopped.d1 = false → ∃ t, exec (.mapoutAdd acc v) s = .next t ∧ s.PreparedWith t acc [.mapAdd n p])
      ∧ (s.top.stopped.d1 = true → ∃ t, exec (.mapoutAdd acc v) s = .next t
        ∧ t.tab = { s.tab with mapped := s.tab.mapped ++ [⟨n, p, (s.sl.lastMark + 1) % 2 ^ 48, none⟩] }))
    ∧ (s.TakesScalar acc 0x6003 2 v → s.mapouts.contains (n, p) = true →
      ∃ t, exec (.mapoutAdd acc v) s = .next t ∧ t.tab = s.tab ∧ t.dictBusy acc = false)
    ∧ (s.TakesScalar acc 0x6003 2 v → s.mapouts.contains (n, p) = false → 1024 ≤ s.mapouts.length →
      exec (.mapoutAdd acc v) s = .next (s.replied acc drRange 0x6003 2))
    ∧ (s.TakesScalar acc 0x6003 3 v → s.mapouts.contains (n, p) = true →
      (s.top.stopped.d1 = false → ∃ t, exec (.mapoutRemove acc v) s = .next t ∧ s.PreparedWith t acc [.mapRemove n p])
      ∧ (s.top.stopped.d1 = true → ∃ t, exec (.mapoutRemove acc v) s = .next t
        ∧ t.tab = { s.tab with mapped := s.tab.mapped.map fun e =>
            if e.table = n && e.page = p && e.gone.isNone then { e with gone := some ((s.sl.lastMark + 1) % 2 ^ 48) } else e }))
    ∧ (s.TakesScalar acc 0x6003 3 v → s.mapouts.contains (n, p) = false →
      ∃ t, exec (.mapoutRemove acc v) s = .next t ∧ t.tab = s.tab ∧ t.dictBusy acc = false))
  ∧ (∀ (s : State) (acc v : Nat), s.TakesScalar acc 0x6810 2 v →
    (s.reg 0x6810 2 ≤ v → exec (.stepCloseWrite acc v) s = .next ((((s.marked acc).setReg 0x6810 2 v).announce.watchTurn).saysDone acc 0x6810 2))
    ∧ (v < s.reg 0x6810 2 → exec (.stepCloseWrite acc v) s = .next ((s.marked acc).saysDone acc 0x6810 2)))
  ∧ ∀ s : State, ∃ t, exec .sketchDecay s = .next t ∧ { t with tab := s.tab } = s ∧ { t.tab with sketch := s.tab.sketch } = s.tab
    ∧ (SMap.rising 0 s.tab.sketch = true → ∀ k, SMap.get 0 t.tab.sketch k = SMap.get 0 s.tab.sketch k / 2)

/-- The group x of s has opened in t, before what follows it. -/
structure Sys2Proof.Machine.State.Opened (s t : State) (x : Group) : Prop where
  mark : t.sl.lastMark = (s.sl.lastMark + 1) % 2 ^ 48
  published : t.sl.p.get s.keeper = (s.sl.lastMark + 1) % 2 ^ 48
  removed : t.group? x.id = none
  locks : ∀ l ∈ t.sl.locks, l.2.2 ≠ x.id

/-- PREPARE of a group in its PREPARE phase whose parts on the other die are staged is answered READY, or FAILED where the
group has failed or has lost a part. PREPARE_ANSWER of a group answered READY that no job and no batch owns opens it at the next mark on the
keeper's die where no pin or version is too far behind, and asks the keeper for the mark on the other die; where the mark
would lie too far beyond one, the decision waits and is counted, once; answered FAILED it discards the group. MARK_REQUEST
opens a group that waits for its mark, unless that stalls. Opening takes the mark last + 1, publishes it on the keeper's die,
and removes the group. PUBLISHED_MARK_UPDATE with both dies running makes P of die 1 that of die 0, and what the readers of die 1
see of groups opened since takes effect there, in order. OLDEST_PIN_EXCHANGE gives each die the other's oldest pin. DRAIN with
an eligible version and no batch running begins a batch and asks for its permit; with none it changes nothing.
DRAIN_BATCH_COMPLETE with the permit held and no row locked drains each row, ends the batch and returns the permit; without the
permit it changes nothing. STAGING_RESUME lets the first staging that finds space proceed, its wait counted on each die on which
it was space that it lacked; then a group that waited to begin, and whose issuer begins it early, does so where fewer than 4,096
are undecided. [spec/09_sluice_consistency.md] -/
def Obligations.GroupsAreDecidedAndOpen : Prop :=
  (∀ (s : State) (g : Nat) (x : Group), s.group? g = some x → x.phase = .prepare →
    (∀ w ∈ s.sl.waits.get (1 - x.die), (∀ v ∈ w.versions, v.2.grp ≠ g) ∧ ∀ b ∈ w.blocks, b.2.grp ≠ g) →
    exec (.prepare g) s = .next (s.modGroup g fun y => { y with phase := .answered (!y.failed && !y.lost) }))
  ∧ (∀ (s : State) (x : Group), s.Opened (s.openGroup x) x)
  ∧ (∀ (s : State) (x : Group), s.group? x.id = some x → x.job? = none → s.batchOf x = none →
    (x.phase = .answered true → s.stalled (s.sl.lastMark + 1) = false →
      (x.die = s.keeper → exec (.prepareAnswer x.id) s =
        .next (((s.openGroup x).afterGroup x true).settleOps.tearSettle.mctpPump))
      ∧ (x.die ≠ s.keeper → exec (.prepareAnswer x.id) s =
        .next ((s.modGroup x.id fun y => { y with phase := .marking }).settleOps.tearSettle.mctpPump)))
    ∧ (x.phase = .answered true → s.stalled (s.sl.lastMark + 1) = true →
      let w := s.modGroup x.id fun y => { y with phase := .marking, stalled := true }
      exec (.prepareAnswer x.id) s = .next ((if x.stalled then w else w.bump 0x6800 4 1).settleOps.tearSettle.mctpPump))
    ∧ (x.phase = .answered false → exec (.prepareAnswer x.id) s = .next ((s.failPrepared x).settleOps.tearSettle.mctpPump))
    ∧ (x.phase = .marking → s.stalled (s.sl.lastMark + 1) = false →
      exec (.markRequest x.id) s = .next (((s.openGroup x).afterGroup x true).settleOps.tearSettle.mctpPump)))
  ∧ (∀ s : State,
    (s.top.stopped.d0 = false → s.top.stopped.d1 = false →
      let u : State := { s with sl := { s.sl with p := ⟨s.sl.p.d0, s.sl.p.d0⟩, later := [] } }
      exec .publishedMarkUpdate s = .next (s.sl.later.foldl (fun t q => t.applyItem q.1 q.2) u)
      ∧ (∀ m p x a b, s.sl.later = [(m, .swap p x a b)] → (s.ctx x).job = none →
        exec .publishedMarkUpdate s = .next (u.modCore p fun c => c.swapHandles a b)))
    ∧ exec .oldestPinExchange s =
      .next (State.prune { s with sl := { s.sl with peerPin := ⟨s.oldestPin 0, s.oldestPin 1⟩ } }))
  ∧ (∀ (s : State) (d : Nat), d < 2 → s.top.stopped.get d = false →
    ((s.sl.drain.get d).isNone = true → drainRows (s.eligible d) [] ≠ [] → ∃ t, exec (.drain d) s = .next t
      ∧ t.sl.drain.get d = some ⟨drainRows (s.eligible d) [], s.now⟩ ∧ t.sl.versions = s.sl.versions ∧ t.mem = s.mem
      ∧ ((s.gov d).held = [] → (s.gov d).asks = [] → (s.gov d).queue = [] → (t.gov d).asks = [⟨.drain, .sluice d⟩]))
    ∧ (drainRows (s.eligible d) [] = [] → exec (.drain d) s = .next s))
  ∧ (∀ (s : State) (d : Nat) (b : Drain), s.sl.drain.get d = some b →
    (s.holdsPermit ⟨.drain, .sluice d⟩ = true → (∀ x ∈ b.rows, s.locked x.1 x.2.1 = false) →
      let u := b.rows.foldl (fun s x => s.drainRow d x) s
      exec (.drainBatchComplete d) s = .next ((((({ u with sl := { u.sl with drain := u.sl.drain.set d none } } : State).bump
        (0x6801 + d) 8 1).rearm 0).rearm 1).returnPermit ⟨.drain, .sluice d⟩))
    ∧ (s.holdsPermit ⟨.drain, .sluice d⟩ = false → exec (.drainBatchComplete d) s = .next s))
  ∧ ∀ (s : State) (d : Nat) (w : StageWait) (l : List StageWait),
    pickWait (fun w => w.notBefore ≤ s.now && s.hasSpace w) [] (s.sl.waits.get d) = some (w, l) →
    let u := ({ s with sl := { s.sl with waits := s.sl.waits.set d l } } : State).putStaged w
    let v := w.full.foldl (fun t k => t.bump (0x6801 + k) 10 (cyclesNs (s.now - w.since))) u
    ((∀ x ∈ s.sl.groups, x.phase = .queued → x.die ≠ d) →
      exec (.stagingResume d) s = .next v.openArrived.settleOps.tearSettle.mctpPump)
    ∧ (∀ x, s.sl.groups.find? (fun x => x.phase = .queued && x.die = d) = some x → x.issuer.early = true →
      (v.groupRoom d = true → exec (.stagingResume d) s =
        .next (v.modGroup x.id fun y => { y with phase := .begun }).openArrived.settleOps.tearSettle.mctpPump)
      ∧ (v.groupRoom d = false → exec (.stagingResume d) s = .next v.openArrived.settleOps.tearSettle.mctpPump))

/-! ### The host's queues, links and configuration space -/

/-- d is the descriptor at the front of a pair that the queue engine may dispatch. -/
structure Sys2Proof.Machine.State.Front (s : State) (f q : Nat) (d : Desc) : Prop where
  serving : s.top.dev = .serving
  enabled : s.qp f q 8 = 1
  front : ∃ l, (s.pair f q).fetched = d :: l
  free : s.fenced f q d = false
  allowed : kindAllowed f (descKind d) = true

/-- sq_head of a pair once the descriptor at its front has been dispatched. -/
def Sys2Proof.Machine.State.headAfter (s : State) (f q : Nat) (d : Desc) : Nat := (s.popDesc f q d).qp f q 12

/-- SQ_TAIL_WRITE with a tail at most sq_entries ahead of sq_head, or on a pair that is not enabled, stores the tail, and
the host's stores that come with it change no byte of device memory; with a tail further ahead on an enabled pair the
tail is a free value, and nothing else of the machine changes (R12; the free value is the model's choice, log entry 65).
CQ_HEAD_WRITE stores the head. DESCRIPTOR_FETCH in SERVING on an enabled pair of a function in D0, with descriptors to fetch,
one of the links up, no injection armed and the turn of its die at this pair, takes a fetch off the turn and puts the
descriptors read, at most 16, behind those fetched before and settles the pair; an uncorrectable or refused read is a fetch
error. The turn is at a pair that alone has descriptors to fetch; with the turn at another pair, or nothing to fetch, the
command only settles the pair, where a descriptor with a reserved op ends with a free status (R9; log entry 65). NOP at the
front of a pair completes. COMPLETION_RECORD_ACCEPT takes the first record where P has passed its mark and its function holds
fewer than 240; with the share full a single record is held, counted once; with the mark of a single record not passed nothing
changes. CQ_WRITE of one record on a live pair with a free slot and a link up writes it, then the producer index, then
signals by the MSI-X rules; with no free slot it changes nothing. COALESCE_TIMEOUT signals the vector once
coalesce_time has passed since the first unsignalled record, and changes nothing before. ZERO_LENGTH_READ_COMPLETE
lets the record that waited for it go. [spec/13_host_interface_dictionary.md; spec/00_scope.md] -/
def Obligations.QueuesCarryDescriptorsAndRecords : Prop :=
  (∀ (s : State) (f q v : Nat) (cells : Cells),
    (s.qp f q 8 = 1 → (v + 2 ^ 32 - s.qp f q 12) % 2 ^ 32 ≤ s.qp f q 2) →
      ∃ t, exec (.sqTailWrite f q v cells) s = .next t
        ∧ t = State.setPair { s with mem := hostStores s.mem cells } f q { s.pair f q with tail := v % 2 ^ 32 }
        ∧ ∀ a, a < 2 ^ 51 → t.byteAt a = s.byteAt a)
  ∧ (∀ (s : State) (f q v : Nat) (cells : Cells), s.qp f q 8 = 1 → s.qp f q 2 < (v + 2 ^ 32 - s.qp f q 12) % 2 ^ 32 →
    ∃ t n, exec (.sqTailWrite f q v cells) s = .next t ∧ n < 2 ^ 32
      ∧ t = State.setPair { s with mem := hostStores s.mem cells, free := s.free + 1 } f q { s.pair f q with tail := n }
      ∧ ∀ a, a < 2 ^ 51 → t.byteAt a = s.byteAt a)
  ∧ (∀ (s : State) (f q v : Nat), exec (.cqHeadWrite f q v) s = .next (s.setPair f q { s.pair f q with cqHead := v % 2 ^ 32 }))
  ∧ (∀ (s : State) (f q m : Nat), s.top.dev = .serving → s.qp f q 8 = 1 → s.unfetched f q ≠ 0 →
    (s.hostLinkState (s.qp f q 7) = 2 ∨ s.hostLinkState (1 - s.qp f q 7) = 2) → maskBit s.host.d3hot f = false →
    s.armed 0x9015 (f * 256 + q) 0 = false → s.fetchTurn (s.qp f q 7) = some (16 * f + q, m) →
    let u : State := { s with host := { s.host with turns := s.host.turns.set (s.qp f q 7) (16 * f + q, m - 1) } }
    exec (.descriptorFetch f q) s = .next (u.whenFetched fun v =>
      match v.readDescs f q (v.qp f q 12 + (s.pair f q).fetched.length) (min 16 (s.unfetched f q)) [] with
      | (w, some l) => (w.setPair f q { w.pair f q with fetched := (w.pair f q).fetched ++ l }).settle f q
      | (w, none) => w.fetchError f q))
  ∧ (∀ (s : State) (d k : Nat), s.fetchable d = [k] → ∃ m, s.fetchTurn d = some (k, m) ∧ 0 < m)
  ∧ (∀ (s : State) (f q k m : Nat), s.fetchTurn (s.qp f q 7) = some (k, m) → k ≠ 16 * f + q →
    exec (.descriptorFetch f q) s = .next (s.settle f q))
  ∧ (∀ (s : State) (f q : Nat), s.unfetched f q = 0 → exec (.descriptorFetch f q) s = .next (s.settle f q))
  ∧ (∀ (s : State) (f q : Nat) (d : Desc), s.unfetched f q = 0 → s.qp f q 8 = 1 → (s.pair f q).fetched = [d] → s.fenced f q d = false →
    kindAllowed f (descKind d) = true → reservedOp d = true →
    exec (.descriptorFetch f q) s = .next (let u := (s.popDesc f q d).bump (pairIdx f q) 14 1
      u.freeEnd f q d (u.qp f q 12)))
  ∧ (∀ (s : State) (f q : Nat) (d : Desc), s.Front f q d → descKind d = 8 →
    exec (.nop f q) s = .next ((s.popDesc f q d).complete f q d (s.headAfter f q d) stCompleted))
  ∧ (∀ (s : State) (n : Nat) (r : CRec) (l : List CRec), s.host.made.get n = r :: l → s.markPassed r = true →
    s.shareUsed n r.fn < 240 → exec (.completionRecordAccept n) s = .next { s with host := { s.host with
      made := s.host.made.set n l, accepted := s.host.accepted.mod n fun a => a ++ [{ r with held := false }] } })
  ∧ (∀ (s : State) (n : Nat) (r : CRec), s.host.made.get n = [r] →
    (s.markPassed r = true → 240 ≤ s.shareUsed n r.fn → r.held = false →
      exec (.completionRecordAccept n) s = .next (let u := s.bump (pairIdx r.fn r.queue) 15 1
        { u with host := { u.host with made := u.host.made.set n [{ r with held := true }] } }))
    ∧ (s.markPassed r = false → exec (.completionRecordAccept n) s = .next s))
  ∧ (∀ (s : State) (f q : Nat) (r : CRec), s.host.accepted.get (s.qp f q 7) = [r] → r.fn = f → r.queue = q → r.flush = false →
    let used := (s.qp f q 13 + 2 ^ 32 - (s.pair f q).cqHead) % 2 ^ 32
    (used < s.qp f q 4 → (s.pair f q).live = true → maskBit s.host.d3hot f = false →
      (s.hostLinkState (s.qp f q 7) = 2 ∨ s.hostLinkState (1 - s.qp f q 7) = 2) →
      let u := State.postRec { s with host := { s.host with accepted := s.host.accepted.set (s.qp f q 7) [] } } f q r
      exec (.cqWrite f q) s = .next
        (((u.writeMem (fnAcct f) (fnPart f) (u.qp f q 5) (leBytes 4 (u.qp f q 13))).1.batchSignal f q 1 r.irq).settle f q))
    ∧ (s.qp f q 4 ≤ used → exec (.cqWrite f q) s = .next s))
  ∧ (∀ (s : State) (f q : Nat),
    ((s.pair f q).unsignalled ≠ 0 → usCycles (s.qp f q 11) ≤ s.now - (s.pair f q).unsignalledFrom →
      exec (.coalesceTimeout f q) s = .next ((s.setPair f q { s.pair f q with unsignalled := 0 }).signalVec f (s.qp f q 6)))
    ∧ ((s.pair f q).unsignalled = 0 ∨ s.now - (s.pair f q).unsignalledFrom < usCycles (s.qp f q 11) →
      exec (.coalesceTimeout f q) s = .next s))
  ∧ ∀ (s : State) (f q : Nat) (r : CRec) (l : List CRec), s.host.accepted.get (s.qp f q 7) = r :: l → r.fn = f → r.queue = q →
    r.flush = true → exec (.zeroLengthReadComplete f q) s = .next { s with host := { s.host with
      accepted := s.host.accepted.set (s.qp f q 7) ({ r with flush := false } :: l) } }

/-- HOST_LINK_DOWN of a link that is up clears its state, width and rate, raises the host link detector and sets its
degraded cause; where the other link is up, every role of the link moves to it. HOST_LINK_UP of a link that is not up,
outside RESET, stores its state, width and rate, sends the event records and egress tails that waited for a link, raises the
detector and sets the cause to whether a link is still down. An error completion on a fetch, and a fetch that times out while
completion timeouts are not disabled, stop the pair: what it has fetched is dropped, it is disabled with status 3, the error
is counted and the detector raised; with completion timeouts disabled a timeout changes nothing. While the dictionary is
served a configuration write stores VF enable, NumVFs, the completion timeout, a register of the error reporting capability,
the bus of a link, BAR0 of a function on a link, or an entry of the MSI-X table; or it masks or unmasks a vector, sets the
MSI-X enable and mask of a function, or its power state, and then every pending message of the function that may be sent is
sent, with its entry of the table, in the order of the vectors, and no other. Before, it has no effect. The link of a stopped
die stays down; a link that is already down, or already up, changes nothing. [spec/13_host_interface_dictionary.md; spec/10_memory_tiers.md] -/
def Obligations.HostLinksFailOverAndReturn : Prop :=
  (∀ (s : State) (l n : Nat), l < 2 → s.hostLinkState l = 2 →
    let u := ((((s.setReg 0xB000 (1 + l) 0).setReg 0xB000 (3 + l) 0).setReg 0xB000 (5 + l) 0).linkEvent 0 l).setCause 4 true
    (s.hostLinkState (1 - l) = 2 → exec (.hostLinkDown l n) s = .next (u.failover l n false))
    ∧ (s.hostLinkState (1 - l) ≠ 2 → exec (.hostLinkDown l n) s = .next u))
  ∧ (∀ (s : State) (l n : Nat), s.hostLinkState l ≠ 2 → exec (.hostLinkDown l n) s = .next s)
  ∧ (∀ (s : State) (l w r : Nat), l < 2 → s.hostLinkState l ≠ 2 → s.top.dev ≠ .reset →
    s.top.stopped.get l = false →
    let u := ((s.setReg 0xB000 (1 + l) 2).setReg 0xB000 (3 + l) w).setReg 0xB000 (5 + l) r
    let v : State := if u.hostLinkState (1 - l) = 2 then u else { u with host := { u.host with eventLink := l } }
    let t := v.sendHeld.linkEvent 3 l
    exec (.hostLinkUp l w r) s = .next (t.setCause 4 (t.hostLinkState 0 ≠ 2 || t.hostLinkState 1 ≠ 2)))
  ∧ (∀ (s : State) (l w r : Nat), s.hostLinkState l = 2 ∨ s.top.stopped.get l = true → exec (.hostLinkUp l w r) s = .next s)
  ∧ (∀ (s : State) (f q : Nat),
    let u := ((s.setPair f q { s.pair f q with fetched := [], live := false }).setReg (pairIdx f q) 8 0).setReg (pairIdx f q) 16 3
    let t := (u.bump 0xB000 9 1).linkEvent 2 (s.qp f q 7) (f * 256 + q)
    exec (.hostErrorCompletion f q) s = .next t
    ∧ (maskBit s.host.completionTimeout 4 = false → exec (.hostReadTimeout f q) s = .next t)
    ∧ (maskBit s.host.completionTimeout 4 = true → exec (.hostReadTimeout f q) s = .next s))
  ∧ (∀ (s : State) (o : CfgWrite), s.served = false → exec (.configurationWrite o) s = .next s)
  ∧ (∀ (s : State) (on : Bool) (n fn v : Nat), s.served = true →
    exec (.configurationWrite (.vfEnable on)) s = .next { s with host := { s.host with vfEnable := on } }
    ∧ exec (.configurationWrite (.numVfs n)) s = .next { s with host := { s.host with numVfs := n } }
    ∧ exec (.configurationWrite (.completionTimeout n)) s = .next { s with host := { s.host with completionTimeout := n } }
    ∧ exec (.configurationWrite (.aer fn v n)) s =
      .next { s with host := { s.host with aer := SMap.set 0 s.host.aer (64 * fn + v % 64) (n % 2 ^ 32) } }
    ∧ exec (.configurationWrite (.bus v n)) s = .next { s with host := { s.host with buses := SMap.set 0 s.host.buses v (n % 256) } }
    ∧ exec (.configurationWrite (.bar v fn n)) s = .next { s with host := { s.host with
        bars := SMap.set 0 s.host.bars (32 * v + fn % 32) (n / 65536 % 2 ^ 48 * 65536) } }
    ∧ (fn < 17 → v < 17 →
      (∀ a, exec (.configurationWrite (.msixEntry fn v a n)) s = .next { s with host := { s.host with
        msixTable := SMap.set (0, 0) s.host.msixTable (32 * fn + v) (a % 2 ^ 64, n % 2 ^ 32) } })
      ∧ exec (.configurationWrite (.msixMask fn v on)) s = .next (State.sendPending { s with host := { s.host with
        msixMask := SMap.set msixReset s.host.msixMask fn ((if on then maskSet else maskClear) (SMap.get msixReset s.host.msixMask fn) v) } } fn)
      ∧ (∀ masked, exec (.configurationWrite (.msixControl fn on masked)) s = .next (State.sendPending { s with host := { s.host with
        msixCtl := SMap.set 0 s.host.msixCtl fn (boolNat on + 2 * boolNat masked) } } fn))
      ∧ exec (.configurationWrite (.powerState fn on)) s = .next (State.sendPending { s with host := { s.host with
        d3hot := (if on then maskSet else maskClear) s.host.d3hot fn } } fn)))
  ∧ ∀ (s : State) (fn v : Nat), SMap.rising 0 s.host.msixPending = true → v < 17 →
    let t := s.sendPending fn
    let sent := (List.range 17).filter fun k => maskBit (SMap.get 0 s.host.msixPending fn) k && s.vectorOpen fn k
    maskBit (SMap.get 0 t.host.msixPending fn) v = (maskBit (SMap.get 0 s.host.msixPending fn) v && !s.vectorOpen fn v)
      ∧ t.host.messages = s.host.messages ++ sent.map fun k => SMap.get (0, 0) s.host.msixTable (32 * fn + k)

/-! ### Detectors -/

/-- A raise of a detector adds 1 to its count, stores the record with that count as its last event, and sets alert_pending where the
severity is 3 or 4. In READY and SERVING, a detector that is masked, or whose previous record was posted less than event_holdoff ago,
posts nothing; another one posts its record to the PF's event queue: into the next slot, with the producer index after it, where the
queue has room, and counted as an overflow where it has not; where the queue lies in host memory and the link of the events is
down, the record waits; and in every case the holdoff starts. Before READY the record is held
instead, in place of an earlier one of the detector, and no queue changes. [spec/14_availability_faults.md;
spec/13_host_interface_dictionary.md; spec/15_bring_up_and_test.md] -/
def Obligations.RaisesAreCountedRecordedAndPosted : Prop :=
  ∀ (s : State) (r : Raise), Regs.wf s.regs = true → SMap.rising 0 s.blobs = true → 0x9001 ≤ r.det → r.det ≤ 0x901A →
    let ev := r.record ((s.reg r.det 1 + 1) % 2 ^ 64) s.now
    let t := s.raise r
    t.reg r.det 1 = (s.reg r.det 1 + 1) % 2 ^ 64
    ∧ t.blob r.det 2 = wordBytes ev
    ∧ (3 ≤ r.sev → t.reg 0x9000 3 = 1)
    ∧ (s.isUp = true → s.eventMasked r.det = true ∨ s.inHoldoff r.det = true →
      t.mem = s.mem ∧ t.host = s.host ∧ t.mgmt = s.mgmt ∧ t.av = s.av)
    ∧ (s.isUp = false → t.mem = s.mem ∧ t.host = s.host
      ∧ t.av = { s.av with preReady :=
          (s.av.preReady.filter fun x => x.det ≠ r.det) ++ [⟨r.det, ev, r.part.map (· + 1), []⟩] })
    ∧ (s.isUp = true → s.eventMasked r.det = false → s.inHoldoff r.det = false → r.part = none →
      let n := s.reg 0xB010 2
      let prod := SMap.get 0 s.host.eventProd 0
      let used := (prod + 2 ^ 32 - s.reg 0xB010 4) % 2 ^ 32
      let open' := s.reg 0xB010 1 < 2 ^ 51 ∨ s.eventLinkUp = true
      t.av = { s.av with lastPost := SMap.set 0 s.av.lastPost r.det (s.now + 1) }
      ∧ (¬open' → n ≠ 0 → t.mem = s.mem ∧ t.host = { s.host with events := s.host.events ++ [(0, ev)] })
      ∧ (open' ∨ n = 0 → n ≤ used → t.mem = s.mem ∧ t.host = s.host ∧ t.reg 0xB010 5 = (s.reg 0xB010 5 + 1) % 2 ^ 64)
      ∧ (open' → used < n → t.host.eventProd = SMap.set 0 s.host.eventProd 0 ((prod + 1) % 2 ^ 32)
        ∧ t.mem = memPut (memPut s.mem (s.reg 0xB010 1 + 32 * (prod % n)) (wordBytes ev)) (s.reg 0xB010 3) (leBytes 4 ((prod + 1) % 2 ^ 32))
        ∧ t.reg 0x9000 4 = (s.reg 0x9000 4 + 1) % 2 ^ 64))

/-! ### Management and firmware -/

/-- While the dictionary is served: ENTDAA gives an endpoint without a dynamic address the one offered, and changes nothing
where it has one; SET_ENDPOINT_ID with operation 0 or 1 and an identifier of 8 to 254 stores it and answers it, and
otherwise answers invalid data; GET_ENDPOINT_ID answers the identifier; GET_MCTP_VERSION_SUPPORT answers for the base,
the control messages and the types 0x01 and 0x7E, and for another type that it is not supported; GET_MESSAGE_TYPE_SUPPORT
answers those two; GET_VENDOR_DEFINED_MESSAGE_SUPPORT answers the PCI vendor 0x1FD7 for the set 0 and invalid data for
another; PLDM_BASE_REQUEST of at most 1,097 bytes is answered, Get PLDM Types with the types 0, 2 and 5;
PLDM_PLATFORM_REQUEST answers the sensors 1 to 8 with their entries of 0x2010 and the sensor 9 with the device state
and DEGRADED, and for another sensor an error. A response is one message with an in-band interrupt, in units of 64 bytes,
and changes nothing else. The codes are the standards' and the model's choice (log entries 5 and 12), no rule of the
manual. With no request waiting and no access of management under way, MCTP_READ of 1 to 1,024 bytes answers what the read of
the entry gives, of another length with a free value (log entry 65), and MCTP_WRITE of 1 to 1,024 bytes, accepted, of an
entry without an action stores it at the next mark and answers done; while a write waits for its mark a read is queued. A
MCTP_WRITE of more than 1,086 bytes and a PLDM_BASE_REQUEST of more than 1,097 change nothing, and while the dictionary
is not served none of these commands changes anything. [spec/13_host_interface_dictionary.md] -/
def Obligations.ManagementEndpointAnswers : Prop :=
  (∀ s : State, s.served = true →
    (∀ a, a < 128 → s.mgmt.addr = none → exec (.entdaa a) s = .next { s with mgmt := { s.mgmt with addr := some a } })
    ∧ (∀ a, s.mgmt.addr ≠ none → exec (.entdaa a) s = .next s)
    ∧ (∀ op eid, op < 2 → 8 ≤ eid → eid ≤ 254 → exec (.setEndpointId op eid) s =
        .next (State.respond { s with mgmt := { s.mgmt with eid := eid } } [0, 1, 0, 0, BitVec.ofNat 8 eid, 0]))
    ∧ (∀ op eid, 2 ≤ op ∨ eid < 8 ∨ 255 ≤ eid → exec (.setEndpointId op eid) s = .next (s.respond [0, 1, 2]))
    ∧ exec .getEndpointId s = .next (s.respond [0, 2, 0, BitVec.ofNat 8 s.mgmt.eid, 0, 0])
    ∧ (∀ ty, ty = 0 ∨ ty = 1 ∨ ty = 0x7E ∨ ty = 0xFF →
        exec (.getMctpVersionSupport ty) s = .next (s.respond ([0, 4, 0] ++ Config.mctpVersions ty)))
    ∧ (∀ ty, ty ≠ 0 → ty ≠ 1 → ty ≠ 0x7E → ty ≠ 0xFF → exec (.getMctpVersionSupport ty) s = .next (s.respond [0, 4, 0x80]))
    ∧ exec .getMessageTypeSupport s = .next (s.respond [0, 5, 0, 2, 0x01, 0x7E])
    ∧ exec (.getVendorDefinedMessageSupport 0) s = .next (s.respond [0, 6, 0, 0xFF, 0, 0x1F, 0xD7, 0, 0])
    ∧ (∀ sel, sel ≠ 0 → exec (.getVendorDefinedMessageSupport sel) s = .next (s.respond [0, 6, 2]))
    ∧ (∀ bytes, bytes.length ≤ 1097 → bytes.head? = some 4 →
        exec (.pldmBaseRequest bytes) s = .next (s.respond [1, 0, 0, 0x25, 0, 0, 0, 0, 0, 0, 0]))
    ∧ (∀ bytes, bytes.length ≤ 1097 → bytes.head? ≠ some 4 → exec (.pldmBaseRequest bytes) s = .next (s.respond (Config.pldmBase bytes)))
    ∧ (∀ n, 1 ≤ n → n ≤ 8 → exec (.pldmPlatformRequest n) s = .next (s.respond ([1, 2, 0] ++ s.valueBytes 17 0x2010 n)))
    ∧ exec (.pldmPlatformRequest 9) s =
        .next (s.respond [1, 2, 0, BitVec.ofNat 8 (s.shownScalar 17 0x1200 1), BitVec.ofNat 8 (s.shownScalar 17 0x1200 2)])
    ∧ (∀ n, n = 0 ∨ 9 < n → exec (.pldmPlatformRequest n) s = .next (s.respond [1, 2, 0x80])))
  ∧ (∀ (s : State) (l : List Byte), (s.respond l).mgmt = { s.mgmt with
      ibis := s.mgmt.ibis + 1, units := s.mgmt.units + ceilDiv l.length 64, responses := s.mgmt.responses ++ [l] }
      ∧ { s.respond l with mgmt := s.mgmt } = s)
  ∧ (∀ (s : State) (req idx sub offset len : Nat), s.served = true → s.mgmt.queue = [] →
    (s.mgmt.waiting = none → s.dictBusy 17 = false → len = 0 ∨ 1024 < len → exec (.mctpRead req idx sub offset len) s =
      .next (s.draw.1.respond (mctpDictResponse 1 req (s.draw.2 % 256) (s.draw.2 / 256 % 2 ^ 32) [])))
    ∧ (s.mgmt.waiting = none → s.dictBusy 17 = false → 1 ≤ len → len ≤ 1024 → exec (.mctpRead req idx sub offset len) s =
      .next (let r := s.readEntry 17 idx sub offset len
        r.1.respond (mctpDictResponse 1 req r.2.res r.2.size r.2.data)))
    ∧ (s.mgmt.waiting ≠ none → exec (.mctpRead req idx sub offset len) s =
      .next { s with mgmt := { s.mgmt with queue := [⟨req, idx, sub, offset, len, none⟩] } }))
  ∧ (∀ (s : State) (req idx sub offset : Nat) (bytes : List Byte), 1 ≤ bytes.length → bytes.length ≤ 1024 → s.mgmt.queue = [] → s.mgmt.waiting = none →
    s.Takes 17 idx sub offset bytes → s.writeItems 17 idx sub offset bytes = some [.dict 17 idx sub offset bytes] →
    hasAction idx sub = false → exec (.mctpWrite req idx sub offset bytes) s =
      .next (let u := (s.marked 17).storeEntry 17 idx sub offset bytes
        u.respond (mctpDictResponse 2 req drDone (u.valueBytes 17 idx sub).length [])))
  ∧ ∀ (s : State) (req idx sub offset len : Nat) (bytes : List Byte),
    (1086 < bytes.length → exec (.mctpWrite req idx sub offset bytes) s = .next s)
    ∧ (1097 < bytes.length → exec (.pldmBaseRequest bytes) s = .next s)
    ∧ (s.served = false → exec (.mctpRead req idx sub offset len) s = .next s
      ∧ exec (.mctpWrite req idx sub offset bytes) s = .next s ∧ exec .getEndpointId s = .next s
      ∧ exec (.entdaa len) s = .next s ∧ exec (.setEndpointId req len) s = .next s
      ∧ exec (.getMctpVersionSupport len) s = .next s ∧ exec .getMessageTypeSupport s = .next s
      ∧ exec (.getVendorDefinedMessageSupport len) s = .next s
      ∧ exec (.pldmPlatformRequest len) s = .next s ∧ exec (.pldmBaseRequest bytes) s = .next s)

/-- A PLDM transfer runs through its steps: REQUEST_UPDATE begins one unless an activation is under way, PASS_COMPONENT_TABLE
stores the table, UPDATE_COMPONENT of a component of the table makes the slot that does not run invalid,
TRANSFER_COMPLETE and APPLY_COMPLETE go on or end the transfer, and VERIFY_COMPLETE makes the slot valid with fw_state
2 or rejects the image with fw_state 5, each with its event. The slot that runs stays valid throughout. ACTIVATE_FIRMWARE
with a valid image in the other slot and no transfer under way begins the switching with fw_state 3 and the standby
DMC, or refuses an image that does not work with the running one; without such an image it changes nothing.
COMPONENT_SWITCH switches the components one after the other: the standby DMC swaps roles, the components 1 to 52
follow by number, a memory controller only while its range is normal, and after the last one the slot is flipped, the
activation counted and ended. COMPONENT_READY_TIMEOUT returns to the previous code: the slot stands, fw_state is 4.
[spec/14_availability_faults.md] -/
def Obligations.FirmwareIsTransferredAndSwitched : Prop :=
  (∀ (s : State) (comps : List (Nat × Nat)) (comp : Nat) (ok : Bool),
    (s.fw.activating = false → exec .requestUpdate s =
      .next (State.setReg { s with fw := { s.fw with transfer := 1, comps := [] } } 0xA030 3 1))
    ∧ (s.fw.activating = true → exec .requestUpdate s = .next s)
    ∧ (s.fw.transfer = 1 → exec (.passComponentTable comps) s = .next { s with fw := { s.fw with transfer := 2, comps := comps } })
    ∧ (s.fw.transfer = 2 → (∃ c ∈ s.fw.comps, c.1 = comp) → ∃ t, exec (.updateComponent comp) s = .next t
      ∧ t = { s with fw := { s.fw with transfer := 3, valid := maskClear s.fw.valid (1 - s.fw.slot) } }
      ∧ (s.fw.slot < 2 → maskBit t.fw.valid s.fw.slot = maskBit s.fw.valid s.fw.slot ∧ maskBit t.fw.valid (1 - s.fw.slot) = false))
    ∧ (s.fw.transfer = 3 →
      exec (.transferComplete true) s = .next { s with fw := { s.fw with transfer := 4 } }
      ∧ exec (.transferComplete false) s = .next (State.setReg { s with fw := { s.fw with transfer := 0 } } 0xA030 3 0))
    ∧ (s.fw.transfer = 4 →
      (∃ t, exec (.verifyComplete true) s = .next t ∧ t.fw.transfer = 5 ∧ t.fw.valid = maskSet s.fw.valid (1 - s.fw.slot)
        ∧ t.fw.slot = s.fw.slot ∧ t.reg 0xA030 3 = 2)
      ∧ (∃ t, exec (.verifyComplete false) s = .next t ∧ t.fw = { s.fw with transfer := 0 } ∧ t.reg 0xA030 3 = 5))
    ∧ (s.fw.transfer = 5 →
      exec (.applyComplete true) s = .next { s with fw := { s.fw with transfer := 6 } }
      ∧ exec (.applyComplete false) s = .next (State.setReg { s with fw := { s.fw with
          transfer := 0, valid := maskClear s.fw.valid (1 - s.fw.slot) } } 0xA030 3 0))
    ∧ (s.fw.transfer ≠ 1 → exec (.passComponentTable comps) s = .next s)
    ∧ (s.fw.transfer ≠ 2 → exec (.updateComponent comp) s = .next s)
    ∧ (s.fw.transfer ≠ 3 → exec (.transferComplete ok) s = .next s)
    ∧ (s.fw.transfer ≠ 4 → exec (.verifyComplete ok) s = .next s)
    ∧ (s.fw.transfer ≠ 5 → exec (.applyComplete ok) s = .next s))
  ∧ (∀ s : State,
    (s.mayActivate = true → exec (.activateFirmware true) s = .next (State.setReg (State.setReg { s with fw := { s.fw with
        transfer := 0, activating := true, byService := false, switched := 0 } } 0xA030 3 3) 0xA030 4
          (if s.dmcsHealthy then 1 - s.activeDmc else s.activeDmc))
      ∧ ∃ t, exec (.activateFirmware false) s = .next t ∧ t.fw = s.fw ∧ t.reg 0xA030 3 = 5)
    ∧ (s.mayActivate = false → exec (.activateFirmware true) s = .next s ∧ exec (.activateFirmware false) s = .next s))
  ∧ (∀ s : State, s.fw.activating = true → s.armed 0x9019 0 0 = false →
    (s.fw.switched = 0 → s.dmcsHealthy = true → s.reg 0xA030 4 = 1 - s.activeDmc → s.activeDmc < 2 → Regs.wf s.regs = true →
      ∃ t, exec .componentSwitch s = .next t ∧ t.activeDmc = 1 - s.activeDmc ∧ t.dmcState (1 - s.activeDmc) = 0
        ∧ t.dmcState s.activeDmc = 1 ∧ t.fw = { s.fw with switched := 1 } ∧ t.reg 0xA030 4 = s.activeDmc)
    ∧ (1 ≤ s.fw.switched → s.fw.switched < 53 → s.reg 0xA030 4 = s.fw.switched →
      (2 ≤ s.fw.switched → s.fw.switched < 30 → s.reg (rangeIdx (componentRange s.fw.switched)) 9 = 0) →
      exec .componentSwitch s = .next (State.setReg { s with fw := { s.fw with switched := s.fw.switched + 1 } } 0xA030 4
        (s.fw.switched + 1)))
    ∧ (s.fw.switched = 53 → s.reg 0xA030 4 = 53 → s.fw.byService = false →
      ∃ t, exec .componentSwitch s = .next t
        ∧ t.fw = { s.fw with slot := 1 - s.fw.slot, switched := 54, activating := false, byService := false })
    ∧ (2 ≤ s.reg 0xA030 4 → s.reg 0xA030 4 < 30 → s.reg (rangeIdx (componentRange (s.reg 0xA030 4))) 9 ≠ 0 →
      exec .componentSwitch s = .next s))
  ∧ ∀ s : State,
    (s.fw.activating = true → s.fw.byService = false → ∃ t, exec .componentReadyTimeout s = .next t
      ∧ t.fw = { s.fw with activating := false } ∧ t.reg 0xA030 3 = 4)
    ∧ (s.fw.activating = false → exec .componentReadyTimeout s = .next s)

/-! ### Spare cores and the management controllers -/

/-- A service operation with a code, accepted, while none runs. -/
structure Sys2Proof.Machine.State.Serves (s : State) (acc v : Nat) : Prop where
  takes : s.TakesScalar acc 0xA000 2 v
  idle : s.serviceRuns = false

/-- Each service operation, accepted while none runs, takes the next mark and then acts. ROTATE of an ACTIVE core, and
REPLACE of a FAULTED or FAILED one, with a spare in its cluster wake the spare and begin the hand-over, with
service_status 1; with no spare the status is 4, and with a target that is no logical core 5. SERVICE_SELFTEST of a
SPARE or FAILED core begins its self-test; RETIRE makes a SPARE core FAILED; CLEAR_FUSE clears both fuse records of a
SPARE core; each on another core answers status 5. DMC_SWITCH with both DMCs healthy swaps their roles, and otherwise
answers status 5. ACTIVATE_FW begins an activation where one may begin, with status 1, and otherwise answers status 5.
While a service operation runs, another one is refused with status 3. HANDOVER_COMPLETE with the copy begun hands the
logical core over; with no hand-over it changes nothing. CORE_SELFTEST_COMPLETE of a core under test with result 0
and no bank's words other than the known answers makes it SPARE with the lanes of its fuse records; with result 2, or with
other words, FAILED, and every row of every cistern stands; of a core not under test it changes nothing.
HEARTBEAT clears the count of missed ones, and counts one while the active DMC is muted by an injection;
HEARTBEAT_TIMEOUT with both healthy lets the standby take over, and STANDBY_LOST marks the standby as failed; each
sets its degraded cause and raises its detector, and changes nothing where the two are not healthy.
[spec/14_availability_faults.md] -/
def Obligations.ServiceOperationsAct : Prop :=
  (∀ (s : State) (acc p t : Nat), p = s.physOf (s.reg 0xA000 3) → s.reg 0xA000 3 < 64 → s.spareOf p = some t →
    let w (replace : Bool) : State := ((State.serviceStatus { (s.marked acc).modCore t fun c => { c with gated := 0, retained := 0 } with
      av := { s.av with handover := some ⟨s.reg 0xA000 3, t, replace, replace, replace⟩ } } 1).settleOps).saysDone acc 0xA000 2
    (s.Serves acc 1 → s.physState p = 0 → exec (.rotate acc) s = .next (w false))
    ∧ (s.Serves acc 2 → (s.physState p = 4 ∨ s.physState p = 3) → exec (.replace acc) s = .next (w true))
    ∧ (s.Serves acc 1 → s.physState p ≠ 0 → exec (.rotate acc) s = .next (((s.marked acc).serviceStatus 5).saysDone acc 0xA000 2))
    ∧ (s.Serves acc 2 → s.physState p ≠ 4 → s.physState p ≠ 3 →
        exec (.replace acc) s = .next (((s.marked acc).serviceStatus 5).saysDone acc 0xA000 2)))
  ∧ (∀ (s : State) (acc : Nat),
    (s.reg 0xA000 3 < 64 → s.spareOf (s.physOf (s.reg 0xA000 3)) = none → s.Serves acc 1 →
      exec (.rotate acc) s = .next (((s.marked acc).serviceStatus 4).saysDone acc 0xA000 2))
    ∧ (64 ≤ s.reg 0xA000 3 → s.Serves acc 2 →
      exec (.replace acc) s = .next (((s.marked acc).serviceStatus 5).saysDone acc 0xA000 2)))
  ∧ (∀ (s : State) (acc p : Nat), s.targetPhys = some p →
    (s.Serves acc 3 →
      (s.physState p = 1 ∨ s.physState p = 3 → exec (.serviceSelftest acc) s =
        .next ((State.serviceStatus { ((s.marked acc).setPhys p 2).modCore p Core.blank with
          av := { s.av with testing := s.av.testing ++ [p], serviceTest := some p } } 1).saysDone acc 0xA000 2))
      ∧ (s.physState p ≠ 1 → s.physState p ≠ 3 →
        exec (.serviceSelftest acc) s = .next (((s.marked acc).serviceStatus 5).saysDone acc 0xA000 2)))
    ∧ (s.Serves acc 4 →
      (s.physState p = 1 → exec (.retire acc) s =
        .next (((((s.marked acc).setPhys p 3).judgeSpares).serviceStatus 2).saysDone acc 0xA000 2))
      ∧ (s.physState p ≠ 1 → exec (.retire acc) s = .next (((s.marked acc).serviceStatus 5).saysDone acc 0xA000 2)))
    ∧ (s.Serves acc 5 →
      (s.physState p = 1 → exec (.clearFuse acc) s = .next ((State.serviceStatus { s.marked acc with
        top := { s.top with fuses := maskClear (maskClear s.top.fuses (2 * p)) (2 * p + 1) } } 2).saysDone acc 0xA000 2))
      ∧ (s.physState p ≠ 1 → exec (.clearFuse acc) s = .next (((s.marked acc).serviceStatus 5).saysDone acc 0xA000 2))))
  ∧ (∀ (s : State) (acc : Nat),
    (s.Serves acc 6 →
      (s.dmcsHealthy = true → exec (.dmcSwitch acc) s =
        .next (((((s.marked acc).swapDmcs 1).dmcEvent 0 2).serviceStatus 2).saysDone acc 0xA000 2))
      ∧ (s.dmcsHealthy = false → exec (.dmcSwitch acc) s = .next (((s.marked acc).serviceStatus 5).saysDone acc 0xA000 2)))
    ∧ (s.Serves acc 7 →
      (s.mayActivate = true →
        exec (.activateFw acc true) s = .next ((((s.marked acc).activate true true).serviceStatus 1).saysDone acc 0xA000 2)
        ∧ exec (.activateFw acc false) s = .next ((((s.marked acc).activate false true).serviceStatus 6).saysDone acc 0xA000 2))
      ∧ (s.mayActivate = false → ∀ b, exec (.activateFw acc b) s = .next (((s.marked acc).serviceStatus 5).saysDone acc 0xA000 2)))
    ∧ (s.serviceRuns = true → s.TakesScalar acc 0xA000 2 6 →
      exec (.dmcSwitch acc) s = .next (((s.marked acc).serviceStatus 3).saysDone acc 0xA000 2)))
  ∧ (∀ (s : State) (up : Upsets),
    (∀ h, s.av.handover = some h → h.copying = true → s.stalled (s.sl.lastMark + 1) = false →
      exec (.handoverComplete up) s = .next (s.handOver h up))
    ∧ (s.av.handover = none → exec (.handoverComplete up) s = .next s))
  ∧ (∀ (s : State) (p : Nat) (words : List (Nat × List W64)), p < 72 → p ∈ s.av.testing →
    (s.badWords p words = [] → s.armed 0x9018 (physCode p) 0 = false → s.av.serviceTest ≠ some p →
      let u := (((s.setReg (0xA100 + p) 3 (s.fuseLanes p)).setReg (0xA100 + p) 5 (if s.fuseLanes p = 32 then 1 else 0)).setReg (0xA100 + p) 4
        s.now).setPhys p 1
      let v := u.setCore p (if u.reg 0x2100 4 = 1 then Core.spare else Core.init)
      exec (.coreSelftestComplete p 0 words) s = .next (State.judgeCores (State.judgeSpares
        { v.modCore p fun c => c.testBanks (v.bankSize p 0) with av := { s.av with testing := s.av.testing.erase p } })))
    ∧ (∃ t, exec (.coreSelftestComplete p 2 words) s = .next t ∧ t.av.testing = s.av.testing.erase p ∧ t.physState p = 3
      ∧ ∀ k, (t.core k).rows = (s.core k).rows)
    ∧ (s.badWords p words ≠ [] → ∃ t, exec (.coreSelftestComplete p 0 words) s = .next t ∧ t.av.testing = s.av.testing.erase p
      ∧ t.physState p = 3 ∧ ∀ k, (t.core k).rows = (s.core k).rows))
  ∧ (∀ (s : State) (p n : Nat) (words : List (Nat × List W64)), p ∉ s.av.testing → exec (.coreSelftestComplete p n words) s = .next s)
  ∧ ∀ s : State,
    (s.av.muted = false → s.armed 0x9017 0 0 = false → exec .heartbeat s = .next { s with av := { s.av with missed := 0 } })
    ∧ (s.av.muted = true → exec .heartbeat s = .next { s with av := { s.av with missed := s.av.missed + 1 } })
    ∧ (s.dmcsHealthy = true → s.av.muted = false →
      exec .heartbeatTimeout s = .next ((State.setCause { (s.swapDmcs 2).bump 0xA020 4 1 with
        av := { s.av with missed := 0 }, mgmt := { s.mgmt with waiting := none, queue := [] } } 5 true).dmcEvent 3 0 false)
      ∧ exec .standbyLost s = .next (((s.setReg 0xA020 (2 + (1 - s.activeDmc)) 2).setCause 5 true).dmcEvent 3 1))
    ∧ (s.dmcsHealthy = false → exec .heartbeatTimeout s = .next s ∧ exec .standbyLost s = .next s)

/-! ### Streams, chunks and batches -/

/-- d is a stream command with an op at the front of a pair, and nothing holds it back (R202). -/
structure Sys2Proof.Machine.State.StreamFront (s : State) (f q : Nat) (d : Desc) (op : Nat) : Prop where
  front : s.Front f q d
  kind : descKind d = 4
  op : descOp d = op
  free : s.streamHeld (scStream d) = false
  clear : s.streamBlocked d = false
  first : ∀ w ∈ s.strm.waiting, scStream w.2.2.2 ≠ scStream d

/-- The stream of a command is valid and belongs to the function's partition. -/
def Sys2Proof.Machine.State.ownStream (s : State) (f n : Nat) : Prop :=
  seValid (s.entry n) = true ∧ s.streamPart n = f - 1

/-- For a stream command at the front of its pair that nothing holds back: CREATE of an invalid entry on a stack of the
function's partition clears the ring and the intake and opens a group with the new entry; RESET with no request
pending adds 1 to reset_req, and with one pending completes without a change; SET stores the deadline; RESUME of a
HELD stream requeues or discards its held chunk and makes the stream IDLE, and of any other completes with the state
status; DELETE discards the chunks, releases the ring and clears valid; each by a group. MOVE makes the stream MOVING;
a move to or from CISTERN ends with a free status. A command on a valid stream of another partition completes with the fault
status at once, whatever holds the stream; one on an invalid entry ends with a free status, and a CREATE of a valid one creates it
anew or ends with a free status, freely (R9, R12; log entry 65). Of a command that names no stream or stack of another partition,
what an earlier command or the stream's state holds back waits. STREAM_COMMAND_RESUME runs the first waiting command of a
stream where nothing holds it back any more, and otherwise changes nothing. MOVE_COPY_COMPLETE of a move within the module
ends the move, well where its copy is written and with an error where the copy cannot be read or has failed, and changes
nothing while messages of the copy are unanswered. [spec/06_recurrent_streams.md;
spec/00_scope.md] -/
def Obligations.StreamCommandsTakeEffect : Prop :=
  (∀ (s : State) (f q : Nat) (d : Desc),
    let n := scStream d
    let e := s.entry n
    let u := s.popDesc f q d
    let h := s.headAfter f q d
    (s.StreamFront f q d 1 → s.stk (scStack d) 2 = f - 1 →
      (seValid e = false → exec (.streamCreate f q) s = .next (u.createStream f q h d))
      ∧ (s.ownStream f n →
        let w : State := { u with free := s.free + 1 }
        exec (.streamCreate f q) s = .next (w.createStream f q h d) ∨ exec (.streamCreate f q) s = .next (w.freeEnd f q d h)))
    ∧ (s.StreamFront f q d 2 → s.ownStream f n → seBusy e ≠ busyRunning →
      (seReq e = seAck e → exec (.streamReset f q) s = .next (u.streamGroup f q h d [(267, 264, seReq e + 1)]))
      ∧ (seReq e ≠ seAck e → exec (.streamReset f q) s = .next (u.complete f q d h stCompleted)))
    ∧ (s.StreamFront f q d 3 → s.ownStream f n →
      (seRes e = 1 ∨ scRes d = 1 → exec (.move f q) s = .next (u.freeEnd f q d h))
      ∧ (seRes e ≠ 1 → scRes d ≠ 1 → (∀ m a, s.place (scPtr d) ≠ .remote m a) →
          (∀ m a, s.place (blockAddr (sePtr e) (seRows e) (seCur e)) ≠ .remote m a) →
          exec (.move f q) s = .next (State.setBusy { u with strm := { s.strm with moves := s.strm.moves ++
            [⟨n, f, q, h, d, seBusy e = busyHeld, false, false⟩] } } n busyMoving)))
    ∧ (s.StreamFront f q d 4 → s.ownStream f n →
      exec (.stSet f q) s = .next (u.streamGroup f q h d [(311, 292, scDeadline d)]))
    ∧ (s.StreamFront f q d 5 → s.ownStream f n →
      (seBusy e ≠ busyHeld → exec (.resume f q) s = .next (u.complete f q d h stState))
      ∧ (seBusy e = busyHeld → ∀ c, (s.chunksOf n).find? (fun c => c.st = .held) = some c →
        let back (w : State) : State := (w.modChunk c.id fun x => { x with st := .queued, missed := x.missed || x.due ≤ s.now }).streamGroup
          f q h d [(256, 255, busyIdle)]
        let drop (w : State) : State := (w.discardChunk c 2).streamGroup f q h d [(256, 255, busyIdle)]
        (scAction d = 0 → exec (.resume f q) s = .next (back u)) ∧ (scAction d = 1 → exec (.resume f q) s = .next (drop u))
        ∧ (1 < scAction d → exec (.resume f q) s = .next (back { u with free := s.free + 1 })
          ∨ exec (.resume f q) s = .next (drop { u with free := s.free + 1 }))))
    ∧ (s.StreamFront f q d 6 → s.ownStream f n → exec (.delete f q) s =
      .next ((State.modIntake (((s.chunksOf n).foldl (fun s c => s.discardChunk c 0) u).modRing n fun _ => Ring.init) n
        fun _ => Intake.init).streamGroup f q h d [(254, 254, 0)])))
  ∧ (∀ (s : State) (f q : Nat) (d : Desc), s.Front f q d → descKind d = 4 → seValid (s.entry (scStream d)) = true →
    s.streamPart (scStream d) ≠ f - 1 →
    let t := (s.popDesc f q d).complete f q d (s.headAfter f q d) stFault
    (descOp d = 1 → exec (.streamCreate f q) s = .next t) ∧ (descOp d = 2 → exec (.streamReset f q) s = .next t)
    ∧ (descOp d = 3 → exec (.move f q) s = .next t) ∧ (descOp d = 4 → exec (.stSet f q) s = .next t)
    ∧ (descOp d = 5 → exec (.resume f q) s = .next t) ∧ (descOp d = 6 → exec (.delete f q) s = .next t))
  ∧ (∀ (s : State) (f q : Nat) (d : Desc), seValid (s.entry (scStream d)) = false →
    let t := (s.popDesc f q d).freeEnd f q d (s.headAfter f q d)
    (s.StreamFront f q d 2 → exec (.streamReset f q) s = .next t) ∧ (s.StreamFront f q d 3 → exec (.move f q) s = .next t)
    ∧ (s.StreamFront f q d 4 → exec (.stSet f q) s = .next t) ∧ (s.StreamFront f q d 5 → exec (.resume f q) s = .next t)
    ∧ (s.StreamFront f q d 6 → exec (.delete f q) s = .next t))
  ∧ (∀ (s : State) (f q : Nat) (d : Desc), s.Front f q d → descKind d = 4 → s.streamForeign f d = false →
    (s.streamHeld (scStream d) = true ∨ s.streamBlocked d = true) →
    let t : State := { s.popDesc f q d with strm := { s.strm with waiting := s.strm.waiting ++ [(f, q, s.headAfter f q d, d)] } }
    (descOp d = 1 → exec (.streamCreate f q) s = .next t) ∧ (descOp d = 2 → exec (.streamReset f q) s = .next t)
    ∧ (descOp d = 3 → exec (.move f q) s = .next t) ∧ (descOp d = 4 → exec (.stSet f q) s = .next t)
    ∧ (descOp d = 5 → exec (.resume f q) s = .next t) ∧ (descOp d = 6 → exec (.delete f q) s = .next t))
  ∧ (∀ (s : State) (n f q h : Nat) (d : Desc) (l : List (Nat × Nat × Nat × Desc)),
    takeFirst (fun w : Nat × Nat × Nat × Desc => scStream w.2.2.2 = n) s.strm.waiting = some ((f, q, h, d), l) →
    (s.streamHeld n = true ∨ s.streamBlocked d = true → exec (.streamCommandResume n) s = .next s)
    ∧ (s.streamHeld n = false → s.streamBlocked d = false →
      exec (.streamCommandResume n) s = .next (State.streamRun { s with strm := { s.strm with waiting := l } } f q h d)))
  ∧ ∀ (s : State) (n : Nat) (ue : List Nat) (m : MoveOp), s.strm.moves.find? (fun m => m.stream = n) = some m →
    (s.stateWaits n 1 = true → exec (.moveCopyComplete n ue) s = .next s)
    ∧ (s.stateWaits n 1 = false → m.failed = true → exec (.moveCopyComplete n ue) s = .next (s.endMove m false))
    ∧ (s.stateWaits n 1 = false → m.failed = false → (∀ k a, s.place (scPtr m.desc) ≠ .remote k a) →
      exec (.moveCopyComplete n ue) s = .next (s.whenFetched fun s => (s.copyState m ue).1.endMove m (s.copyState m ue).2))

/-- CHUNK_DESCRIPTOR at the front of a pair, of a stream of the function's partition and with no injection armed, queues a
chunk that is ready now and due after the stream's deadline; of another partition it completes with the fault status;
of an invalid stream it ends with a free status (R12; log entry 65). FEATURE_FRAME waits while an exchange row of the
frame is empty, and then takes the oldest waiting frame out of the exchange rows, stores it in the ring and cuts a
chunk where its frames are there, or counts an overrun where the 32 slots are in use. DEADLINE_MISS of a stream with a
chunk, not HELD, whose due time has come marks the chunk, counts the miss and raises its detector; with none it changes
nothing.
BATCH_FORM and BATCH_WINDOW_EXPIRY of a stack form a batch (formBatch), the latter also where its window alone has
expired, once the bytes of other modules that this reads have come (whenFetched): a stack that takes a batch drops the
chunks of an earlier incarnation and launches the next batch, where there is one; a stack that takes none is unchanged,
and where a listed core has no context of the stack, misLaunch says what becomes of the chunks (R12; log entry 65). LAST_SLICE_STAGED makes the writes that find their rows empty and starts the batch whose
staging has ended. BATCH_COMMIT of a batch whose invocations have ended commits it as far as it can go; with an out_head
too far ahead it waits, or commits with out_head at the producer's position, freely (R12; log entry 65); a batch that
still runs is unchanged. [spec/06_recurrent_streams.md;
spec/00_scope.md] -/
def Obligations.ChunksAreBatchedAndCommitted : Prop :=
  (∀ (s : State) (f q : Nat) (d : Desc), s.Front f q d → descKind d = 5 →
    let n := fld d 15 0
    (s.ownStream f n → s.armed 0x9013 n 0 = false →
      exec (.chunkDescriptor f q) s = .next { s.popDesc f q d with strm := { s.strm with
        nextChunk := s.strm.nextChunk + 1
        chunks := s.strm.chunks ++ [{
          id := s.strm.nextChunk, stream := n, st := .queued, ready := s.now,
          due := if seDeadline (s.entry n) = 0 then dueNone else (s.now + 400 * seDeadline (s.entry n)) % 2 ^ 64,
          resets := fld d 63 48, inc := fld d 47 32, first := fld d 25 21, idle := fld d 19 16, slots := 0, frames := [],
          host := true, missed := false, inj := false, waited := false }] } })
    ∧ (seValid (s.entry n) = true → s.streamPart n ≠ f - 1 → exec (.chunkDescriptor f q) s =
        .next (((s.popDesc f q d).bump (pairIdx f q) 14 1).complete f q d (s.headAfter f q d) stFault))
    ∧ (seValid (s.entry n) = false → exec (.chunkDescriptor f q) s = .next
        (((s.popDesc f q d).bump (pairIdx f q) 14 1).freeEnd f q d (s.headAfter f q d))))
  ∧ (∀ (s v : State) (n : Nat) (bytes : List Byte),
    let r := s.ring n
    ((s.ring n).ticks = [] ∨ (∃ x ∈ s.featOut n, s.xWaits x.1 x.2 false = true) → exec (.featureFrame n) s = .next s.pushFrames)
    ∧ ∀ t l, (s.ring n).ticks = t :: l → (∀ x ∈ s.featOut n, s.xWaits x.1 x.2 false = false) →
      s.xReadAll (s.featOut n) = (v, bytes) →
      let u := v.modRing n fun x => { x with ticks := l }
      let p := s.stk (seStack (s.entry n)) 2
      (32 ≤ r.used → exec (.featureFrame n) s = .next ((((u.modEntry n fun e => setFld e 191 176 (satAdd 16 (seOverruns e) 1)).bump
        0x5000 9 1).bump (0x5010 + p) 4 1).pushFrames))
      ∧ (r.used < 32 →
        exec (.featureFrame n) s = .next ((((u.writeMem p (some p) (u.ringAddr n r.next) bytes).1.modRing n fun x =>
            { x with next := x.next + 1, used := x.used + 1, frames := x.frames ++ [t] }).cutChunk n).pushFrames)))
  ∧ (∀ (s : State) (n : Nat),
    (∀ c, s.strm.chunks.find? (fun c => c.stream = n && c.st ≠ .held && (!c.missed && c.due < dueNone && c.due ≤ s.now)) = some c →
      ∃ t, exec (.deadlineMiss n) s = .next t
        ∧ t.strm.chunks = s.strm.chunks.map (fun x => if x.id = c.id then { x with missed := true } else x)
        ∧ t.mem = (s.raise { det := 0x9013, sev := 0, detail := c.due, aux := n, part := some (s.streamPart n),
                             injected := c.inj }).mem ∧ t.mgmt = s.mgmt)
    ∧ ((∀ c ∈ s.strm.chunks, c.stream = n → c.st = .held ∨ c.missed = true ∨ s.now < c.due ∨ dueNone ≤ c.due) → s.host.made = ⟨[], []⟩ →
      s.host.accepted = ⟨[], []⟩ → exec (.deadlineMiss n) s = .next s))
  ∧ (∀ (s : State) (n : Nat) (ue : List Nat),
    exec (.batchForm n ue) s = .next (s.whenFetched fun s => s.formBatch n false ue)
    ∧ exec (.batchWindowExpiry n ue) s = .next (s.whenFetched fun s => s.formBatch n true ue)
    ∧ ∀ expired, (s.takesBatch n = false → s.formBatch n expired ue = s)
      ∧ (s.takesBatch n = true →
        ((s.dropStale n).nextBatch n expired = none → s.formBatch n expired ue = s.dropStale n)
        ∧ ∀ cs res, (s.dropStale n).nextBatch n expired = some (cs, res) →
          (∀ t, (s.dropStale n).launchBatch n cs res ue = some t → s.formBatch n expired ue = t)
          ∧ ((s.dropStale n).launchBatch n cs res ue = none → s.formBatch n expired ue = (s.dropStale n).misLaunch cs)))
  ∧ (∀ (s : State) (n : Nat),
    (∀ b c, (s.batches n).find? (fun b => !b.launched) = some b →
      let u := s.pushStage n b.job
      (u.batches n).find? (fun x => x.job = b.job) = some c →
      (u.stageDone c = false → exec (.lastSliceStaged n) s = .next u)
      ∧ (u.stageDone c = true → exec (.lastSliceStaged n) s = .next (State.startBatch
        (if c.resident then u else u.bump 0x5000 7 (c.rows.length * cyclesNs (u.now - c.since))) n c.job)))
    ∧ ((s.batches n).find? (fun b => !b.launched) = none → exec (.lastSliceStaged n) s = .next s))
  ∧ ∀ (s : State) (n : Nat) (b : Batch) (l : List Batch) (j : Job), s.batches n = b :: l → s.job? b.job = some j →
    (b.launched = true → b.grp = none → j.decision = none → (∀ i ∈ j.invs, i.finished = true) →
      (s.headMisused n = false → exec (.batchCommit n) s = .next (s.commitBatch n b).settleOps)
      ∧ (s.headMisused n = true →
        let w : State := { s with free := s.free + 1 }
        exec (.batchCommit n) s = .next w
          ∨ exec (.batchCommit n) s = .next ((w.setStk n 22 (SMap.get 0 s.strm.outPos n)).commitBatch n b).settleOps))
    ∧ ((∃ i ∈ j.invs, i.finished = false) → exec (.batchCommit n) s = .next s)

/-! ### Rate domains and intake -/

/-- A domain ticks on its own: it runs, and shared-tick mode is off or it is domain 0. -/
def Sys2Proof.Machine.State.OwnTick (s : State) (d : Nat) : Prop :=
  s.reg (0x5810 + d) 8 = 1 ∧ (d = 0 ∨ s.reg 0x5800 2 ≠ 1)

/-- While the root PLL is locked, SAMPLE_TICK of a domain that ticks on its own, due and no frame tick, moves the domain to its next tick, a period
later; in shared-tick mode the sample ticks of the other domains are counted within the shared frame. FRAME_TICK, due,
counts the frame, and stops the domain where a stop is pending; in shared-tick mode domain 0's is every domain's; a
tick that is not due, or before the PLL has locked, changes nothing. DOMAIN_START_AT at the cycle of a start runs the domain
from there with t0, sample tick 0, and the configured period, anchored where the start follows an edge, and before it
changes nothing. PPS_EDGE to high, after at least 400 cycles low, is an edge: after an interval of 1 s within 100 ppm it
is valid: it stores the edge and its interval and reaches every domain; after any other interval it is not valid and
counted. A fall of the pin, or a rise after fewer than 400 cycles low, is no edge, and an unchanged level changes nothing. PPS_LOSS after 1.1 s without a valid edge clears pps_valid, and raises its detector once where a domain
has pps_lock; before that it changes nothing. [spec/07_audio_intake.md] -/
def Obligations.DomainsTickStartAndLock : Prop :=
  (∀ (s : State) (d : Nat), s.reg 0x2100 1 = 1 → s.OwnTick d → (s.domain d).at' / 2 ^ 24 ≤ s.now →
    let u := s.modDomain d fun x => { x with next := x.next + 1, at' := x.at' + s.reg (0x5810 + d) 12 }
    ((s.domain d).next % max (s.reg (0x5810 + d) 3) 1 ≠ 0 → exec (.sampleTick d) s = .next u ∧ exec (.frameTick d) s = .next s)
    ∧ ((s.domain d).next % max (s.reg (0x5810 + d) 3) 1 = 0 → (d ≠ 0 ∨ s.reg 0x5800 2 ≠ 1) →
      let v := (u.setReg (0x5810 + d) 10 (s.reg (0x5810 + d) 10 + 1)).modDomain d fun x =>
        { x with lastFrame := (s.domain d).at' / 2 ^ 24, stopping := false, shared := 1 }
      exec (.sampleTick d) s = .next s
      ∧ ((s.domain d).stopping = false → exec (.frameTick d) s = .next v)
      ∧ ((s.domain d).stopping = true → exec (.frameTick d) s = .next (v.setReg (0x5810 + d) 8 0))))
  ∧ (∀ s : State, s.reg 0x2100 1 = 1 → s.reg 0x5810 8 = 1 → (s.domain 0).at' / 2 ^ 24 ≤ s.now → (s.domain 0).next % max (s.reg 0x5810 3) 1 = 0 →
    s.reg 0x5800 2 = 1 → (s.top.dev ≠ .serving ∨ s.reg 0x5800 1 ≠ 0) → exec (.frameTick 0) s =
      .next ((List.range 31).foldl (fun u k => u.countFrame (k + 1) ((s.domain 0).at' / 2 ^ 24))
        ((s.passTick 0).countFrame 0 ((s.domain 0).at' / 2 ^ 24))))
  ∧ (∀ (s : State) (d : Nat),
    (s.now < (s.domain d).at' / 2 ^ 24 ∨ s.reg 0x2100 1 ≠ 1 → (d = 0 ∨ s.reg 0x5800 2 ≠ 1) →
      exec (.sampleTick d) s = .next s ∧ exec (.frameTick d) s = .next s)
    ∧ (d ≠ 0 → s.reg 0x5800 2 = 1 → 0 < (s.domain d).shared → (s.domain d).shared < max (s.reg (0x5810 + d) 3) 1 →
      s.sharedTick d (s.domain d).shared ≤ s.now →
      exec (.sampleTick d) s = .next (s.modDomain d fun x => { x with shared := x.shared + 1 })))
  ∧ (∀ (s : State) (d t : Nat),
    let run (anchored : Bool) : State :=
      ((((s.setReg (0x5810 + d) 6 0).setReg (0x5810 + d) 8 1).setReg (0x5810 + d) 9 t).setReg (0x5810 + d) 12
        (s.reg (0x5810 + d) 1 % 65536 * 2 ^ 24 + s.reg (0x5810 + d) 2 % 2 ^ 24)).modDomain d fun x =>
          { x with next := 0, at' := t * 2 ^ 24, armed := none, start := none, edgeAt := none, anchored := anchored, edges := 0, again := false }
    ((s.domain d).edgeAt = none → (s.domain d).start = some t → t ≤ s.now → exec (.domainStartAt d) s = .next (run false))
    ∧ ((s.domain d).edgeAt = some t → (s.domain d).armed.isSome = true → t ≤ s.now → exec (.domainStartAt d) s = .next (run true))
    ∧ ((s.domain d).edgeAt = some t ∨ (s.domain d).edgeAt = none ∧ (s.domain d).start = some t → s.now < t →
      exec (.domainStartAt d) s = .next s))
  ∧ (∀ (s : State) (p : Nat), s.strm.ppsHigh = false → 400 ≤ s.now - s.strm.ppsSince → s.strm.ppsEdge = some p →
    let w : State := { s with strm := { s.strm with ppsHigh := true, ppsSince := s.now, ppsEdge := some s.now } }
    (399960000 ≤ s.now - p → s.now - p ≤ 400040000 → s.armed 0x901A 0 0 = false → s.strm.ppsLost = false →
      let u := ((w.setReg 0x5800 3 s.now).setReg 0x5800 4 (s.now - p)).setReg 0x5800 5 1
      exec (.ppsEdge true) s = .next ((List.range 32).foldl (fun t d => t.edgeDomain s.now (s.now - p) d)
        { u with strm := { u.strm with ppsInj := false } }))
    ∧ (s.now - p < 399960000 ∨ 400040000 < s.now - p →
      exec (.ppsEdge true) s = .next ((w.setReg 0x5800 5 0).bump 0x5800 6 1)))
  ∧ (∀ (s : State) (high : Bool),
    (high = s.strm.ppsHigh → exec (.ppsEdge high) s = .next s)
    ∧ (high ≠ s.strm.ppsHigh → (high = false ∨ s.now - s.strm.ppsSince < 400) →
      exec (.ppsEdge high) s = .next { s with strm := { s.strm with ppsHigh := high, ppsSince := s.now } }))
  ∧ ∀ s : State,
    (s.now < s.reg 0x5800 3 + 440000000 → exec .ppsLoss s = .next s)
    ∧ (s.reg 0x5800 3 + 440000000 ≤ s.now →
      (s.strm.ppsLost = true → exec .ppsLoss s = .next (s.setReg 0x5800 5 0))
      ∧ (∀ d, d < 32 → s.strm.ppsLost = false → s.reg (0x5810 + d) 5 = 1 → exec .ppsLoss s = .next
        (State.raise { s.setReg 0x5800 5 0 with strm := { s.strm with ppsLost := true } }
          { det := 0x901A, sev := 0, cause := 0, aux := s.reg 0x5800 6, injected := s.strm.ppsInj })))

/-- INGRESS_TAIL_WRITE of a tail at most the ring's entries ahead stores the producer index and changes no byte of device
memory; of a tail further ahead the producer index is a free value, and no other ring changes (R12; log entry 65). EGRESS_HEAD_WRITE stores the consumer index.
INGRESS_ENTRY in SERVING with an entry in the ring takes the entry: one that R234 does not accept is dropped and
counted, and another one is taken as a packet of its stream (takePacket): one that ends at or before the read position of a
stream under way is counted as late and changes no sample; with no entry nothing changes. STREAM_FRAME_TICK of a due stream
with no injection armed makes one frame, which joins the stream's frames with its tick, of a stream in LEAD_IN, RUNNING or
LEAD_OUT, and, once it can be aligned, of a stream that waits to begin; it stops a stream whose lead-out frames are made at
the next chunk boundary, and only notes the tick of a stopped stream; before the tick it changes nothing. Both wait for bytes
of another module that they read and that have not come (whenFetched). STOP_TIMEOUT of a RUNNING stream with no sample in
stop_frames frames ends the activity at the frontier, and changes nothing before. INTAKE_STATE_WRITEBACK writes the running state to the record of a valid
stream with an intake. [spec/07_audio_intake.md; spec/00_scope.md] -/
def Obligations.IntakeTakesPacketsAndMakesFrames : Prop :=
  (∀ (s : State) (part die v : Nat) (cells : Cells),
    let i := 0x5880 + 2 * part + die
    (s.reg i 2 ≠ 0 → (v + 2 ^ 32 - s.reg i 3) % 2 ^ 32 ≤ s.reg i 2) →
      ∃ t, exec (.ingressTailWrite part die v cells) s = .next t
        ∧ t.strm = { s.strm with ingress := SMap.set 0 s.strm.ingress (2 * part + die) (v % 2 ^ 32) }
        ∧ (∀ a, a < 2 ^ 51 → t.byteAt a = s.byteAt a) ∧ { t with strm := s.strm, mem := s.mem } = s)
  ∧ (∀ (s : State) (part die v : Nat) (cells : Cells),
    let i := 0x5880 + 2 * part + die
    s.reg i 2 ≠ 0 → s.reg i 2 < (v + 2 ^ 32 - s.reg i 3) % 2 ^ 32 →
      ∃ t n, exec (.ingressTailWrite part die v cells) s = .next t
        ∧ t.strm = { s.strm with ingress := SMap.set 0 s.strm.ingress (2 * part + die) (n % 2 ^ 32) }
        ∧ (∀ a, a < 2 ^ 51 → t.byteAt a = s.byteAt a) ∧ { t with strm := s.strm, mem := s.mem, free := s.free } = s)
  ∧ (∀ (s : State) (part die v : Nat), exec (.egressHeadWrite part die v) s = .next { s with strm := { s.strm with
      egress := SMap.set 0 s.strm.egress (2 * part + die) (v % 2 ^ 32) } })
  ∧ (∀ (s u : State) (part die : Nat) (ue : List Nat) (bs : List Byte),
    let i := 0x5880 + 2 * part + die
    s.top.dev = .serving → s.reg i 2 ≠ 0 → SMap.get 0 s.strm.ingress (2 * part + die) ≠ s.reg i 3 →
    s.intakeRead part (s.reg i 1 + 64 * (s.reg i 3 % s.reg i 2)) 64 ue = (u, bs) →
    let e : Desc := BitVec.ofNat 512 (leNat bs)
    let k := fld e 263 248
    let v := u.setReg i 3 (u.reg i 3 + 1)
    (seValid (v.entry k) = false ∨ k / 32768 ≠ die ∨ v.streamPart k ≠ part ∨ seIntake (v.entry k) = 0xFFFF →
      exec (.ingressEntry part die ue) s = .next (s.whenFetched fun _ => v.bump 0x5801 2 1))
    ∧ (seValid (v.entry k) = true → k / 32768 = die → v.streamPart k = part → seIntake (v.entry k) ≠ 0xFFFF →
      exec (.ingressEntry part die ue) s = .next (s.whenFetched fun _ => v.takePacket part k e ue)))
  ∧ (∀ (s : State) (part k : Nat) (e : Desc) (ue : List Nat),
      let x := s.intake k
      let at' := (fld e 327 296 + fld e 295 280) % 2 ^ 32
      let rx := if fld e 391 328 = 0 then s.now else fld e 391 328
      x.st ≠ 0 → posDiff 64 (at' * 2 ^ 32) x.rp ≤ 0 →
      s.takePacket part k e ue = ((s.bump 0x5801 1 1).modIntake k fun _ =>
        { x with packets := (x.packets + 1) % 2 ^ 32, rx := max x.rx rx, rxEnd := if x.rx ≤ rx then at' else x.rxEnd,
                 late := satAdd 16 x.late 1 }).bump 0x5801 3 1)
  ∧ (∀ (s : State) (part die : Nat) (ue : List Nat), SMap.get 0 s.strm.ingress (2 * part + die) = s.reg (0x5880 + 2 * part + die) 3 →
    exec (.ingressEntry part die ue) s = .next s)
  ∧ (∀ (s : State) (n : Nat), s.streamTickDue n = true → s.armed 0x9014 n 0 = false →
    let d := seDomain (s.entry n)
    let x := s.intake n
    let u := s.modIntake n fun x => { x with served := s.dm d 10 }
    (x.st = 0 → exec (.streamFrameTick n) s = .next (s.whenFetched fun _ => u))
    ∧ (x.st = 1 → ((if x.later then s.dm d 10 - 1 + sePhase (s.entry n) else s.dm d 10 - 1) % max (s.steps n) 1 = 0 →
        exec (.streamFrameTick n) s = .next (s.whenFetched fun _ => (u.alignIntake n).makeFrame n s.now []))
      ∧ ((if x.later then s.dm d 10 - 1 + sePhase (s.entry n) else s.dm d 10 - 1) % max (s.steps n) 1 ≠ 0 →
        exec (.streamFrameTick n) s = .next (s.whenFetched fun _ => u)))
    ∧ (x.st = 2 ∨ x.st = 3 ∨ x.st = 4 ∧ (x.leadOut < icLeadOut x.cfg
        ∨ (s.dm d 10 - 1 + sePhase (s.entry n)) % max (s.steps n) 1 ≠ 0) →
      exec (.streamFrameTick n) s = .next (s.whenFetched fun _ => (u.makeFrame n s.now []).endLeadOut n))
    ∧ (x.st = 4 → icLeadOut x.cfg ≤ x.leadOut → (s.dm d 10 - 1 + sePhase (s.entry n)) % max (s.steps n) 1 = 0 →
      exec (.streamFrameTick n) s = .next (s.whenFetched fun _ => u.stopIntake n)))
  ∧ (∀ (s : State) (n tick : Nat) (ue : List Nat), ∃ i, (((s.makeFrame n tick ue).endLeadOut n).ring n).ticks = (s.ring n).ticks ++ [i]
    ∧ i.tick = tick)
  ∧ ∀ (s : State) (n : Nat),
    (s.streamTickDue n = false → exec (.streamFrameTick n) s = .next s)
    ∧ ((s.intake n).st = 3 → icStopFrames (s.intake n).cfg ≠ 0 → icStopFrames (s.intake n).cfg ≤ (s.intake n).idle →
      (s.intake n).stop = none → exec (.stopTimeout n) s = .next ((s.modIntake n fun x => { x with
        stop := some x.frontier, st := if 0 ≤ posDiff 64 x.rp (x.frontier * 2 ^ 32) then 4 else 3 }).endLeadOut n))
    ∧ ((s.intake n).idle < icStopFrames (s.intake n).cfg → exec (.stopTimeout n) s = .next s)
    ∧ (seValid (s.entry n) = true → seIntake (s.entry n) ≠ 0xFFFF → exec (.intakeStateWriteback n) s =
      .next (let u := s.modIntake n fun x => { x with since := 0 }
        (u.writeMem (s.stk (seStack (s.entry n)) 2) (some (s.stk (seStack (s.entry n)) 2)) (s.intakeAddr n + 64) (wordBytes (u.intake n).word)).1))
    ∧ (seValid (s.entry n) = false → exec (.intakeStateWriteback n) s = .next s)

/-! ### Tables, pins and learning updates -/

/-- d is a row command with an op at the front of a pair, and none of the pair with that op waits for a row lock. -/
structure Sys2Proof.Machine.State.RowFront (s : State) (f q : Nat) (d : Desc) (op : Nat) : Prop where
  front : s.Front f q d
  kind : descKind d = 6
  code : descOp d = op
  first : ∀ w ∈ s.tab.waiting, w.1 = f → w.2.1 = q → descOp w.2.2.2 ≠ op

/-- The row command at the front of a pair, whichever it is, leaves t, once the bytes of other modules that it reads have come. -/
def Sys2Proof.Machine.State.RowAnswers (s : State) (f q : Nat) (d : Desc) (ue : List Nat) (t : State) : Prop :=
  (s.RowFront f q d 1 → exec (.promote f q ue) s = .next (s.whenFetched fun _ => t))
  ∧ (s.RowFront f q d 2 → ue = [] → exec (.demote f q) s = .next (s.whenFetched fun _ => t))
  ∧ (s.RowFront f q d 3 → exec (.migrate f q ue) s = .next (s.whenFetched fun _ => t))
  ∧ (s.RowFront f q d 4 → exec (.unmigrate f q ue) s = .next (s.whenFetched fun _ => t))

/-- d is a sluice command with an op at the front of a pair. -/
structure Sys2Proof.Machine.State.SluiceFront (s : State) (f q : Nat) (d : Desc) (op : Nat) : Prop where
  front : s.Front f q d
  kind : descKind d = 7
  code : descOp d = op

/-- PROMOTE, DEMOTE, MIGRATE and UNMIGRATE at the front of a pair: on a table of another partition they complete with the
fault status, on an invalid table or one homed elsewhere with the state status; a row list whose read is refused or
uncorrectable completes them with fault or error; where a listed row is locked all but DEMOTE wait, and otherwise the
command runs on the rows that need it, or completes with no space where the dies lack it; each waits for bytes of another
module that it reads and that have not come (whenFetched). PIN of a slot that is free
or the partition's own stores the published mark of the die with the slot and completes with that mark; UNPIN releases
the pin, and the slot keeps its mark and owner; a slot of another partition completes both with the fault status; MARK completes with the published mark.
[spec/08_embeddings.md; spec/09_sluice_consistency.md] -/
def Obligations.RowCommandsAndPinsComplete : Prop :=
  (∀ (s : State) (f q : Nat) (d : Desc) (ue : List Nat),
    let u := s.popDesc f q d
    let h := s.headAfter f q d
    let t := s.table (rcTable d)
    (tdOwner t ≠ f - 1 → s.RowAnswers f q d ue (u.complete f q d h stFault))
    ∧ (tdOwner t = f - 1 → tdValid t = false ∨ tdHome t ≠ s.me → s.RowAnswers f q d ue (u.complete f q d h stState))
    ∧ (tdOwner t = f - 1 → tdValid t = true → tdHome t = s.me → ∀ (v : State) (o : ReadOut),
      u.readMem (f - 1) (some (f - 1)) (rcList d) (4 * rcCount d) false ue = (v, o) →
      (o.refused = true → s.RowAnswers f q d ue (v.complete f q d h stFault))
      ∧ (o.refused = false → o.lost ≠ [] → s.RowAnswers f q d ue (v.complete f q d h stError))
      ∧ (o.refused = false → o.lost = [] →
        let rows := v.rowsNeeded d (rcTable d) (tdStride t) [] (rowList o.bytes 0 (rcCount d))
        (descOp d ≠ 2 → (∃ x ∈ rows, v.locked (rcTable d) x.2 = true) →
          s.RowAnswers f q d ue { v with tab := { v.tab with waiting := v.tab.waiting ++ [(f, q, h, d)] } })
        ∧ (descOp d = 2 ∨ (∀ x ∈ rows, v.locked (rcTable d) x.2 = false) →
          (v.rowSpace (f - 1) d (v.table (rcTable d)) rows = false → s.RowAnswers f q d ue (v.complete f q d h stNoSpace))
          ∧ (v.rowSpace (f - 1) d (v.table (rcTable d)) rows = true →
            s.RowAnswers f q d ue (v.runRows f q h d rows (rcCount d) ue))))))
  ∧ ∀ (s : State) (f q : Nat) (d : Desc),
    let u := s.popDesc f q d
    let h := s.headAfter f q d
    ((∀ p, s.pin (scDie d) (scSlot d) = some p → p.owner = f - 1) →
      (s.SluiceFront f q d 1 → ∃ t, exec (.pin f q) s = .next t
        ∧ t = (u.setPin (scDie d) (scSlot d) (some
            { held := true, mark := s.p (scDie d), owner := f - 1, since := s.now,
              withQueue := if scWithJob d then some (16 * f + q) else none, withJob := none })).complete f q d h stCompleted
              (s.p (scDie d))
        ∧ (t.pin (scDie d) (scSlot d)).map (fun p => p.mark) = some (s.p (scDie d)))
      ∧ (s.SluiceFront f q d 2 → exec (.unpin f q) s =
        .next ((u.letGo fun i _ => i = 4096 * scDie d + scSlot d).prune.complete f q d h stCompleted (s.p (scDie d))))
      ∧ (s.SluiceFront f q d 2 → ∀ p, s.pin (scDie d) (scSlot d) = some p →
        ∃ t, exec (.unpin f q) s = .next t ∧ t.pin (scDie d) (scSlot d) = none
          ∧ t.pinSlot (scDie d) (scSlot d) = some { p with held := false }))
    ∧ ((∃ p, s.pin (scDie d) (scSlot d) = some p ∧ p.owner ≠ f - 1) →
      (s.SluiceFront f q d 1 → exec (.pin f q) s = .next (u.complete f q d h stFault))
      ∧ (s.SluiceFront f q d 2 → exec (.unpin f q) s = .next (u.complete f q d h stFault)))
    ∧ (s.SluiceFront f q d 3 → exec (.mark f q) s = .next (u.complete f q d h stCompleted (s.p (scDie d))))

/-- The turn or step t is the first of the pending ones. -/
def Sys2Proof.Machine.State.FirstTurn (s : State) (t : Nat × Nat) : Prop :=
  t ∈ s.pendingTurns ∧ ∀ x ∈ s.pendingTurns, x = t ∨ turnLt t x = true

/-- APPLY_WINDOW runs the first window of the job that may start (runApply), which aborts the job where the table's apply core is
out of service; with none it changes nothing. APPLY_WINDOW_COMPLETE marks the running window whose rows are staged as done.
JOB_FINAL_COMMIT of a job whose invocations have ended and whose turn has come asks for its applies, waits for them,
and then prepares and decides the job, or aborts it where a group is broken; of a job that still runs it decides nothing.
TURN_APPLY begins the served turn, where it is not late, runs its window of a table, and ends the turn once all of its windows
are done and staged; with no turn served it changes nothing. PARCEL of a good table adds its gradient to the group of its turn,
counts it and is acknowledged with its flags, or waits: a job that has a turn takes that turn's group, the first parcel of
another job joins the group of an open turn of its step and source whose applies have not been asked for, and otherwise begins a
group; of another table it is counted and acknowledged with status 1 (the status is the model's choice, log entry 28).
PARCEL_ACK ends the scatter thread, whose command's token takes its fault bit where the parcel was not added. VERDICT of COMMIT
lets the parcels of the job be applied, and of DISCARD discards its turn; CLOSED_STEP stores the step; WITHDRAW drops the parts
of a span that are added and its parcels that wait; each is acknowledged. What reads rows waits for bytes of another module that
have not come (whenFetched). A module of update_set that alone is not closed for the step
of the first pending turn is awaited from when that is first so (the commands at which it is noted are the model's choice, log
entry 68); STEP_TIMEOUT of it, once step_timeout has passed since, counts it as closed for that step; before that, of another
module, and with no turn pending, it times nothing out.
[spec/08_embeddings.md; spec/09_sluice_consistency.md; spec/11_quiwen_fabric.md] -/
def Obligations.UpdatesAreAppliedInTurn : Prop :=
  (∀ (s : State) (j : Nat) (ue : List Nat),
    (∀ a, s.sl.applies.find? (fun a => a.job = some j && s.applyFree a) = some a →
      exec (.applyWindow j ue) s = .next (s.whenFetched fun s => s.runApply a ue)
      ∧ (s.applyFaulted (s.table a.table) = true → s.runApply a ue = s.abortJob j 4))
    ∧ (s.sl.applies.find? (fun a => a.job = some j && s.applyFree a) = none → exec (.applyWindow j ue) s = .next s))
  ∧ (∀ (s : State) (j : Nat),
    (∀ a, s.sl.applies.find? (fun a => a.job = some j && a.started && !a.done && s.staged a.grp) = some a →
      exec (.applyWindowComplete j) s = .next { s with sl := { s.sl with
        applies := s.sl.applies.map fun x => if x = a then { a with done := true } else x } })
    ∧ (s.sl.applies.find? (fun a => a.job = some j && a.started && !a.done && s.staged a.grp) = none →
      exec (.applyWindowComplete j) s = .next s))
  ∧ (∀ (s : State) (j : Nat) (b : Job), s.job? j = some b →
    (b.decision.isSome = true ∨ (∃ i ∈ b.invs, i.finished = false) ∨ s.jobTurn b = false →
      exec (.jobFinalCommit j) s = .next s.watchTurn.settleOps)
    ∧ (b.decision = none → b.stack = none → (∀ i ∈ b.invs, i.finished = true) → s.jobTurn b = true →
      let u := if b.asked then s.watchTurn else s.watchTurn.askJobApplies j
      (u.appliesDone j = false → exec (.jobFinalCommit j) s = .next u.watchTurn.settleOps)
      ∧ (u.appliesDone j = true →
        ((∃ g ∈ u.jobGroups j, g.broken = true) →
          exec (.jobFinalCommit j) s = .next (u.abortJob j (lossCause (u.jobGroups j))).watchTurn.settleOps)
        ∧ ((∀ g ∈ u.jobGroups j, g.broken = false) →
          exec (.jobFinalCommit j) s = .next ((u.prepareJob j).decideJob j).watchTurn.settleOps))))
  ∧ (∀ (s : State) (table : Nat) (ue : List Nat),
    (s.servedTurn = none → exec (.turnApply table ue) s = .next s)
    ∧ ∀ t, s.servedTurn = some t → t.late = false →
      let u := s.beginTurn t.step t.src
      let v := match u.sl.applies.find? fun a => a.grp = t.grp && a.table = table && u.applyFree a with
        | some a => (u.runApply a ue).setApply { a with started := true } { a with started := true, done := true }
        | none => u
      (v.group? t.grp = none → exec (.turnApply table ue) s =
        .next (s.whenFetched fun _ => State.watchTurn { v with sl := { v.sl with turns := v.sl.turns.filter fun x => x ≠ t } }))
      ∧ (v.group? t.grp ≠ none → (∀ a ∈ v.sl.applies, a.grp = t.grp → a.done = true) → v.staged t.grp = true →
        exec (.turnApply table ue) s = .next (s.whenFetched fun _ => (v.endTurn t).watchTurn))
      ∧ (v.group? t.grp ≠ none → (∃ a ∈ v.sl.applies, a.grp = t.grp ∧ a.done = false) →
        exec (.turnApply table ue) s = .next (s.whenFetched fun _ => v.watchTurn)))
  ∧ (∀ (s : State) (m : FabMsg),
    let u := s.consumeMsg m
    let d := u.table m.table
    (tdValid d = false ∨ tdHome d ≠ u.me ∨ tdOptimiser d = 0 ∨ (tdFormat d ≠ 0 ∧ tdFormat d ≠ 5) ∨ tdRows d ≤ m.row → exec (.parcel m) s =
      .next (let w := u.bump 0x6010 11 1
        w.send { m.reply w.me 0x04 1 with flags := 0 } .none))
    ∧ (tdValid d = true → tdHome d = u.me → tdOptimiser d ≠ 0 → (tdFormat d = 0 ∨ tdFormat d = 5) → m.row < tdRows d →
      let again := u.sl.parcelWaits.find? fun q => q.1 = m
      let c := if again.isSome then u else u.charge 16 11 m.data.length
      let x := c.parcelGroup m d (c.parcelLate m)
      ∀ v out, x.1.addGradient (x.1.homeDie d m.row) x.2 (m.mark + 1) m.table m.row d (65536 + m.src) m.count m.data
          (again.elim 0 fun q => q.2) = (v, out) →
        let rest := v.sl.parcelWaits.filter fun q => q.1 ≠ m
        (∀ fl, out = .done fl → exec (.parcel m) s =
          .next (let w := (v.bump 0x6800 17 1).bump 0x6800 18 (boolNat (c.parcelLate m && maskBit (v.reg 0x6810 1) m.src))
            let y : State := { w with sl := { w.sl with parcelWaits := rest } }
            (y.send { m.reply y.me 0x04 0 with flags := fl } .none).watchTurn))
        ∧ (∀ why, out = .waits why → exec (.parcel m) s =
          .next { v with fab := s.fab, sl := { v.sl with parcelWaits := rest ++ [(m, why)] } })))
  ∧ (∀ (s : State) (m : FabMsg) (d : Desc) (late : Bool),
    (∀ t, s.sl.turns.find? (fun t => t.step = m.step && t.src = m.src && t.job = m.mark) = some t → s.parcelGroup m d late = (s, t.grp))
    ∧ (s.sl.turns.find? (fun t => t.step = m.step && t.src = m.src && t.job = m.mark) = none →
      let new (u : State) (g : Nat) : State × Nat :=
        ({ u with sl := { u.sl with turns := u.sl.turns ++ [⟨m.step, m.src, m.mark, g, none, u.now, late⟩] } }, g)
      let joins (t : Turn) : Bool := t.step = m.step && t.src = m.src && !t.late && !late && !s.sl.applies.any fun a => a.grp = t.grp
      (∀ t, s.sl.turns.find? joins = some t → s.parcelGroup m d late = new s t.grp)
      ∧ (s.sl.turns.find? joins = none → s.parcelGroup m d late =
        new (s.beginGroup (.home m.step m.src) (s.homeDie d m.row) (some (tdOwner d))).1
          (s.beginGroup (.home m.step m.src) (s.homeDie d m.row) (some (tdOwner d))).2)))
  ∧ (∀ (s u : State) (m : FabMsg) (o : OutMsg) (p k : Nat), s.takeResponse m = (u, some o) → o.use = .parcel p k →
    ∀ up, exec (.parcelAck m up) s = .next ((if m.status = 0 then u else u.threadFault p k).scatterDone p k
      (if m.status = 0 then m.flags else 0) up))
  ∧ (∀ (s : State) (m : FabMsg),
    let u := s.consumeMsg m
    (∀ t, u.sl.turns.find? (fun t => t.src = m.src && t.job = m.mark) = some t →
      (m.status = 0 → exec (.verdict m) s = .next (State.send (State.watchTurn { u with sl := { u.sl with turns := u.sl.turns.map fun x =>
          if x = t then { x with verdict := some true, late := t.late || u.stepPassed m.src t.step } else x } })
            (m.reply u.me 0x11 0) .none))
      ∧ (m.status ≠ 0 → exec (.verdict m) s = .next (let w := u.discardTurn t
          w.watchTurn.send (m.reply w.me 0x11 0) .none)))
    ∧ (u.sl.turns.find? (fun t => t.src = m.src && t.job = m.mark) = none →
      exec (.verdict m) s = .next (u.watchTurn.send (m.reply u.me 0x11 0) .none))
    ∧ exec (.closedStep m) s = .next (State.send (State.watchTurn { u with sl := { u.sl with
        closed := SMap.set 0 u.sl.closed m.src (m.step + 1) } }) (m.reply u.me 0x11 0) .none)
    ∧ exec (.withdraw m) s = .next (let v := (u.dropParts fun a q =>
        ((u.sl.turns.filter fun t => t.src = m.src && t.job = m.mark).map fun t => t.grp).contains a.grp
          && a.job = m.mark + 1 && q.core = 65536 + m.src && q.tok = m.count).dropParcels fun q =>
            q.src = m.src && q.mark = m.mark && q.count = m.count
      v.send (m.reply v.me 0x11 0) .none))
  ∧ ∀ (s : State) (k : Nat),
    (∀ t, s.FirstTurn t → k < 64 → maskBit (s.reg 0x6810 1) k = true → s.closedFor k t.1 = false →
      (∀ m ∈ (maskList 64 (s.reg 0x6810 1)) ++ [s.me], m ≠ k → s.closedFor m t.1 = true) → s.awaitedFor = some (t.1, k))
    ∧ (∀ t, s.FirstTurn t → s.closedFor k t.1 = true → ∀ n, s.awaitedFor ≠ some (n, k))
    ∧ (s.pendingTurns = [] → s.awaitedFor = none)
    ∧ (∀ n since, s.awaitedFor = some (n, k) → s.sl.awaited = some (n, k, since) →
      (usCycles (s.reg 0x6800 6) ≤ s.now - since → exec (.stepTimeout k) s =
        .next (State.watchTurn (State.bump { s with sl := { s.sl with timedOut := s.sl.timedOut ++ [(k, n)] } } 0x6800 19 1)))
      ∧ (s.now - since < usCycles (s.reg 0x6800 6) → exec (.stepTimeout k) s = .next s))
    ∧ (∀ n, s.awaitedFor = some (n, k) → s.sl.awaited = none → 0 < usCycles (s.reg 0x6800 6) →
      exec (.stepTimeout k) s = .next { s with sl := { s.sl with awaited := some (n, k, s.now) } })
    ∧ (∀ n m, s.awaitedFor = some (n, m) → m ≠ k → exec (.stepTimeout k) s = .next s.watchTurn)
    ∧ (s.awaitedFor = none → exec (.stepTimeout k) s = .next { s with sl := { s.sl with awaited := none } })

/-- Each message leaves the list of those that have arrived and is acknowledged. REFRESH of a row that this module has a
replica of stages a version of the row on the replica's die, in a group of its own that opens on arrival; of another
row it changes no replica. REPLICA_INSTALL of a row without a replica here installs it, by a group, on a die that has
room, which one being free; with room on neither die it is answered with status 1 (the status is the model's choice,
log entry 49). REPLICA_REMOVE removes the replica by a group. AUDIT of a row of this module, with audit_interval not 0, compares
the replica on each die with the home copy (auditDie), first on die 0, then on die 1, and asks every holder for its copy, once
bytes of another module that it reads have come (whenFetched); a table that is invalid or homed elsewhere is not audited, and
with audit_interval 0 there is no audit. On a die without a replica the comparison changes nothing; with one it reads the home
copy, and one that cannot be read settles nothing; a replica that is checked without error and is equal to the home copy at its
mark stands; an older replica is overwritten and counted; one that differs at the same mark is a consistency fault, and every
replica is overwritten. [spec/08_embeddings.md; spec/09_sluice_consistency.md; spec/11_quiwen_fabric.md] -/
def Obligations.ReplicasFollowTheirHome : Prop :=
  (∀ (s : State) (m : FabMsg),
    let u := (s.consumeMsg m).charge 16 11 m.data.length
    (u.ownReplica m.table m.row = none → exec (.refresh m) s = .next (u.send (m.reply u.me 0x11 0) .none))
    ∧ (∀ d x, u.ownReplica m.table m.row = some (d, x) → exec (.refresh m) s =
      .next (let g := u.beginGroup .refresh d none
        let w := (g.1.stage d 16 [(d,
          { grp := g.2, mark := none, table := m.table, row := m.row, state := false, data := m.data,
            home := 2, copy := false, sent := some m.mark, span := none, wrote := [] })] []).openArrived
        w.send (m.reply w.me 0x11 0) .none))
    ∧ (∀ x, u.ownReplica m.table m.row = some x → exec (.replicaInstall m) s =
      .next (State.send { u with free := s.free + 1 } (m.reply u.me 0x11 0) .none))
    ∧ (u.ownReplica m.table m.row = none →
      (u.replicaFits 0 m.table m.data.length = false → u.replicaFits 1 m.table m.data.length = false →
        exec (.replicaInstall m) s = .next (State.send { u with free := s.free + 1 } (m.reply u.me 0x11 1) .none))
      ∧ (u.replicaFits 0 m.table m.data.length = true ∨ u.replicaFits 1 m.table m.data.length = true →
        ∃ d, d < 2 ∧ u.replicaFits d m.table m.data.length = true ∧ exec (.replicaInstall m) s =
          .next (let g := State.beginGroup { u with free := s.free + 1 } .refresh d none
            let w := (g.1.addItem g.2 (.replica d m.table m.row m.data m.mark)).openArrived
            w.send (m.reply w.me 0x11 0) .none))))
  ∧ (∀ (s : State) (m : FabMsg),
    let u := s.consumeMsg m
    (u.ownReplica m.table m.row = none → exec (.replicaRemove m) s = .next (u.send (m.reply u.me 0x11 0) .none))
    ∧ (∀ d x, u.ownReplica m.table m.row = some (d, x) → exec (.replicaRemove m) s =
      .next (let g := u.beginGroup .refresh d none
        let w := (g.1.addItem g.2 (.dropReplica d m.table m.row)).openArrived
        w.send (m.reply w.me 0x11 0) .none)))
  ∧ (∀ (s : State) (t r : Nat),
    (tdValid (s.table t) = false ∨ tdHome (s.table t) ≠ s.me ∨ s.reg 0x6800 7 = 0 → exec (.audit t r) s = .next s)
    ∧ (tdValid (s.table t) = true → tdHome (s.table t) = s.me → s.reg 0x6800 7 ≠ 0 →
      exec (.audit t r) s = .next (s.whenFetched fun s =>
        let u := (s.auditDie t r 0).auditDie t r 1
        (SMap.get [] u.tab.holders (2 ^ 32 * t + r)).foldl (fun w h => w.send { w.msgTo 0 0x01 h.1 with
          flags := 1, table := t, row := r, count := tdStride (s.table t),
          addr := tdBase (s.table t) + r * tdStride (s.table t) } .refresh) u)))
  ∧ ∀ (s u v : State) (t r die m : Nat) (bs : List Byte),
    ((s.dirNow die t r).bind (fun e => e.replica) = none → s.auditDie t r die = s)
    ∧ ((s.dirNow die t r).bind (fun e => e.replica) = some (bs, m) →
      (s.rowRead 16 (s.homeAddr t r) (tdStride (s.table t)) [] = (v, none) → s.auditDie t r die = v)
      ∧ ∀ home, s.rowRead 16 (s.homeAddr t r) (tdStride (s.table t)) [] = (v, some home) →
        v.resvCheck die 1 none [] = (u, false) → u.armed 0x9012 t 0 = false →
        (m = v.homeMarkOf t r → bs = home → s.auditDie t r die = u)
        ∧ (m = v.homeMarkOf t r → bs ≠ home → s.auditDie t r die = (u.fixAll t r home m).auditFault t r u.me m false)
        ∧ (m ≠ v.homeMarkOf t r → markLt m (v.homeMarkOf t r) = true → s.auditDie t r die =
            (u.fixReplica die t r home (v.homeMarkOf t r)).bump 0x6800 15 1))

/-! ### Messages of the fabric -/

/-- ROW_READ is answered with the newest committed version of the row from its home's write set or memory, or with this
module's replica, and refused with status 3 where the fabric windows do not allow it, else with 1 where no such row, table or
replica is here, with 2 where the read is uncorrectable; it waits for bytes of another module that it reads and that have not come
(whenFetched). READ is answered with the bytes or refused with its status, 1 or 2;
WRITE is staged in a group of its own that opens on arrival, and acknowledged, or refused. DICT_READ of an entry of the groups
0x1000 and 0x8000 is answered with its value, one that is not there is refused with status 1, and any other one, or one that is
write only, is refused with status 3 and counted at 0x1100.02. [spec/11_quiwen_fabric.md; spec/08_embeddings.md;
spec/09_sluice_consistency.md] -/
def Obligations.PeersAreServedAndAnswer : Prop :=
  (∀ (s : State) (m : FabMsg) (lost : List Nat),
    let u := s.consumeMsg m
    let d := u.table m.table
    let goes (t : State) : Prop := exec (.rowRead m lost) s = .next (s.whenFetched fun _ => t)
    (m.flags % 2 = 1 → (rowOfAddr d m.addr = none → goes (u.refuseMsg m 0x02 1)) ∧ ∀ r, rowOfAddr d m.addr = some r →
      (u.ownReplica m.table r = none → goes (u.refuseMsg m 0x02 1))
      ∧ ∀ k bs x v, u.ownReplica m.table r = some (k, bs, x) →
        (u.resvCheck k 1 none lost = (v, false) → goes (v.serveData m 0x02 x bs))
        ∧ (u.resvCheck k 1 none lost = (v, true) → goes (v.refuseMsg m 0x02 2)))
    ∧ (m.flags % 2 = 0 →
      (u.fabricAllows m.src m.addr (tdStride d) false = false → goes (u.refuseMsg m 0x02 3))
      ∧ (u.fabricAllows m.src m.addr (tdStride d) false = true →
        (rowOfAddr d m.addr = none ∨ tdHome d ≠ u.me → goes (u.refuseMsg m 0x02 1))
        ∧ ∀ r, rowOfAddr d m.addr = some r → tdHome d = u.me →
          (∀ x v, u.newestVisible (u.homeDie d r) m.table r false u.sl.lastMark = some x →
            (u.resvCheck (u.homeDie d r) 2 none lost = (v, false) → goes (v.serveData m 0x02 (x.mark.getD 0) x.data))
            ∧ (u.resvCheck (u.homeDie d r) 2 none lost = (v, true) → goes (v.refuseMsg m 0x02 2)))
          ∧ (∀ v o, u.newestVisible (u.homeDie d r) m.table r false u.sl.lastMark = none →
            u.readMem 16 none (u.homeAddr m.table r) (tdStride d) true lost = (v, o) →
            (o.refused = true → goes (v.refuseMsg m 0x02 1))
            ∧ (o.refused = false → o.lost ≠ [] → goes (v.refuseMsg m 0x02 2))
            ∧ (o.refused = false → o.lost = [] → goes (v.serveData m 0x02 (v.homeMarkOf m.table r) o.bytes))))))
  ∧ ∀ (s v : State) (m : FabMsg) (lost : List Nat) (o : ReadOut),
    let u := s.consumeMsg m
    (u.servedStatus m.src m.addr m.count false ≠ 0 →
      exec (.read m lost) s = .next (u.refuseMsg m 0x0D (u.servedStatus m.src m.addr m.count false)))
    ∧ (u.servedStatus m.src m.addr m.count false = 0 → u.readMem 16 none m.addr m.count false lost = (v, o) →
      (o.refused = true → exec (.read m lost) s = .next (v.refuseMsg m 0x0D 1))
      ∧ (o.refused = false → o.lost = [] → exec (.read m lost) s = .next (v.serveData m 0x0D 0 o.bytes))
      ∧ (o.refused = false → o.lost ≠ [] → exec (.read m lost) s = .next (v.refuseMsg m 0x0D 2)))
    ∧ (u.servedStatus m.src m.addr m.data.length true ≠ 0 →
      exec (.write m) s = .next (u.refuseMsg m 0x11 (u.servedStatus m.src m.addr m.data.length true)))
    ∧ (u.servedStatus m.src m.addr m.data.length true = 0 → exec (.write m) s =
      .next (let die := u.blockDie 0 m.addr
        let g := (u.charge 16 11 m.data.length).beginGroup (.home m.step m.src) die none
        let w := (g.1.stageBlock g.2 die 16 m.addr m.data none).openArrived
        w.send (m.reply w.me 0x11 0) .none))
    ∧ (peerReads (m.addr / 256) = false → exec (.dictRead m) s = .next ((u.bump 0x1100 2 1).refuseMsg m 0x0F 3))
    ∧ (peerReads (m.addr / 256) = true →
      (dictFind (m.addr / 256) (m.addr % 256) = none → exec (.dictRead m) s = .next (u.refuseMsg m 0x0F 1))
      ∧ ∀ r, dictFind (m.addr / 256) (m.addr % 256) = some r →
        (r.acc ≠ .wo → exec (.dictRead m) s =
          .next (u.send { m.reply u.me 0x0F 0 with data := u.valueBytes 0 (m.addr / 256) (m.addr % 256) } .none))
        ∧ (r.acc = .wo → exec (.dictRead m) s = .next ((u.bump 0x1100 2 1).refuseMsg m 0x0F 3)))

/-- DICT_DATA ends the exchange that it answers. ROW_DATA reaches the thread that asked for the row, or the audit, and waits for bytes
of another module that this reads and that have not come (whenFetched);
READ_DATA reaches the mover, the argument load, the stream or the command that asked for the bytes; ACK lets the mover, the job or
the row command go on; a failed exchange follows the failure rules; a response that answers nothing changes nothing beyond its
arrival. FABRIC_TIMEOUT of a message that finds no way for fabric_timeout counts it as unreachable, and where it is the module's
own the exchange fails, after which changes of routes that waited for it are complete; verdicts and announcements never time
out. [spec/11_quiwen_fabric.md; spec/08_embeddings.md; spec/09_sluice_consistency.md] -/
def Obligations.AnswersEndTheirExchanges : Prop :=
  (∀ (s : State) (m : FabMsg), exec (.dictData m) s = .next (s.takeResponse m).1)
  ∧ (∀ (s u : State) (m : FabMsg) (up : Upsets) (ue : List Nat), s.takeResponse m = (u, none) →
    exec (.rowData m up) s = .next (s.whenFetched fun _ => u) ∧ exec (.readData m up ue) s = .next u ∧ exec (.ack m up ue) s = .next u)
  ∧ (∀ (s u : State) (m : FabMsg) (o : OutMsg) (up : Upsets) (ue : List Nat), s.takeResponse m = (u, some o) →
    (∀ p k, o.use = .row p k →
      (m.status = 0 → exec (.rowData m up) s = .next (s.whenFetched fun _ => u.rowArrives p k (some m.data) up))
      ∧ (m.status = 2 → exec (.rowData m up) s = .next (s.whenFetched fun _ => u.failUse o .lost up))
      ∧ (m.status ≠ 0 → m.status ≠ 2 → exec (.rowData m up) s = .next (s.whenFetched fun _ => u.failUse o .unmapped up)))
    ∧ (o.use = .refresh → exec (.rowData m up) s = .next (s.whenFetched fun _ => u.auditPeer o.msg.table o.msg.row m.src m))
    ∧ (m.status ≠ 0 → m.status ≠ 2 → exec (.readData m up ue) s = .next ((u.failUse o .unmapped).dmvGoesOn o.use up ue)
      ∧ exec (.ack m up ue) s = .next ((u.failUse o .unmapped).dmvGoesOn o.use up ue))
    ∧ (m.status = 2 → exec (.readData m up ue) s = .next ((u.failUse o .lost).dmvGoesOn o.use up ue)
      ∧ exec (.ack m up ue) s = .next ((u.failUse o .lost).dmvGoesOn o.use up ue))
    ∧ (m.status = 0 →
      (∀ p k, o.use = .dmv p k → exec (.readData m up ue) s = .next ((u.dmvArrives p k o.msg.row m.data none).dmvResume p up ue)
        ∧ exec (.ack m up ue) s = .next (u.dmvResume p up ue))
      ∧ (∀ j x r, o.use = .load j x r → exec (.readData m up ue) s = .next (u.argArrives j x r m.data))
      ∧ (∀ n k, o.use = .state n k → exec (.readData m up ue) s = .next (u.stateArrives n k o.msg.row m.data))
      ∧ (∀ a n, o.use = .fetch a n → exec (.readData m up ue) s = .next (u.fetchPart a n o.msg.row 0 m.data).settleOps)
      ∧ (∀ j, o.use = .jobWrite j → exec (.ack m up ue) s = .next (u.tryFinish j).settleOps)
      ∧ (∀ j, o.use = .result j → exec (.ack m up ue) s = .next (u.tryFinish j).settleOps)
      ∧ (∀ g, o.use = .rowCmd g → (u.rowCmdWaits g = true → exec (.ack m up ue) s = .next u)
        ∧ (u.rowCmdWaits g = false → exec (.ack m up ue) s = .next (u.decideGroup g)))))
  ∧ ∀ (s : State) (o : OutMsg), s.fab.waiting.find? (fun x => x.id = o.id) = some o →
    (s.noWay o = true → o.dead = true ∨ o.since + usCycles (s.reg 0x8000 3) ≤ s.now → neverTimesOut o.msg = false →
      let u := State.countUnreachable { s with fab := Fabric.leave { s.fab with waiting := s.fab.waiting.filter fun x => x.id ≠ o.id } o } o.msg
      (o.own = true → exec (.fabricTimeout o.id) s = .next (u.failUse o .unreachable).releaseHolds)
      ∧ (o.own = false → exec (.fabricTimeout o.id) s = .next u.releaseHolds))
    ∧ (neverTimesOut o.msg = true ∨ s.noWay o = false → exec (.fabricTimeout o.id) s = .next s)

/-- What whenFetched says of a command that reads bytes of another module: where nothing of its run lacks such bytes, the run is its
effect, and the bytes that it has used are forgotten; where some are lacking, nothing of the run takes effect, and of the state the
fabric and the counters alone may change. Bytes not asked for yet are asked for by READ messages, one for up to 512 of them, and are
held open until they come; a read of bytes that have all come takes them, and one of bytes that have not notes that it lacks them.
That the command waits and is given again is the model's reading (log entry 27). [spec/10_memory_tiers.md; spec/11_quiwen_fabric.md] -/
def Obligations.CommandsWaitForBytesElsewhere : Prop :=
  (∀ (s : State) (run : State → State),
    ((run s).fab.wanted = s.fab.wanted →
      ((∀ x ∈ (run s).fab.fetched, x.used = false) → s.whenFetched run = run s)
      ∧ (run s).OnlyWrites (s.whenFetched run) [.fab] ∧ ∀ x ∈ (s.whenFetched run).fab.fetched, x.used = false)
    ∧ ((run s).fab.wanted ≠ s.fab.wanted → s.OnlyWrites (s.whenFetched run) [.fab, .regs]))
  ∧ (∀ (s : State) (a n k l : Nat), s.place a = .remote k l → s.fetchAt a n = none →
    (s.askBytes a n).fetchAt a n = some ⟨a, n, [], false⟩
    ∧ (0 < n → n ≤ 512 → s.askBytes a n = State.send { s with fab := { s.fab with fetched := s.fab.fetched ++ [⟨a, n, [], false⟩] } }
        { s.msgTo 3 0x0B k with addr := l, count := n, row := 0 } (.fetch a n)))
  ∧ ∀ (s : State) (a n : Nat),
    (∀ x, s.fetchAt a n = some x → x.whole = true → (s.useFetch a n).2 = some x.out ∧ (s.useFetch a n).1.fab.wanted = s.fab.wanted)
    ∧ (s.fetchAt a n = none ∨ (∃ x, s.fetchAt a n = some x ∧ x.whole = false) → (s.useFetch a n).2 = none
      ∧ (s.useFetch a n).1.fab.wanted = s.fab.wanted ++ [(a, n)])

/-! ### Memory requests, patrols, repair and reflow -/

/-- SCRUB_WRITE_BACK takes the oldest row off a core's write-back queue, leaves its rows, and wakes the row's bank. PATROL_SCRUB
reads the next row of each bank that is not in retention: with no upset and no injection the position advances and no row changes; of
bank 0 alone, a corrected row is reported and queued for write-back, with its owner's context and partition, and an uncorrectable one
is reported as lost by the patrol, and reloaded where its handle is resident and read-only. CHANNEL_POWER_DOWN of an active channel without requests for 1 µs powers
it down. MEMORY_REQUEST issues the oldest request whose bank is ready, and the requests that wait in the NoC then join the queues
as far as there is room; while an aged one stands before it nothing is issued; a transfer whose 8 reissues fail is counted, makes
the channel suspect, and poisons the units that a write carried; of a read it changes no unit, since its reader was answered so; of a
read whose reader was answered with good data the reissues alone are counted. A write
that succeeds ends the poison of its units, and is dropped on a channel that failed training. A unit that a stack's controller
corrects is counted and written back; an uncorrectable unit that the scrubber reads is counted, its row fails, and it is reported;
one that a write changes in part is counted and poisoned, and the write's bytes are lost.
WCB_AGE_EXPIRY of a line held for wcb_age writes its valid units to memory. MEMORY_PATROL of a unit of a mapped range, and of no
combining line, charges the account of the device and puts the scrubber's read into the queue as wide traffic; else it changes
nothing. [spec/05_programs_cisterns_schedules.md; spec/10_memory_tiers.md] -/
def Obligations.MemoryIsRequestedAndPatrolled : Prop :=
  (∀ (s : State) (p : Nat), SMap.rising 0 s.cores = true → ∃ t, exec (.scrubWriteBack p) s = .next t
    ∧ (t.core p).writeBack = (s.core p).writeBack.drop 1 ∧ (t.core p).rows = (s.core p).rows
    ∧ (∀ q, q ≠ p → t.core q = s.core q) ∧ t.regs = s.regs ∧ t.mem = s.mem
    ∧ (∀ r l, (s.core p).writeBack = r :: l →
      t = (s.modCore p fun c => { c with writeBack := l }).useBank p (r % 4)))
  ∧ (∀ (s : State) (p : Nat), SMap.rising 0 s.cores = true → SMap.rising 0 (s.core p).patrol = true →
    s.armed 0x9001 (s.logicalOf p) 0 = false → s.armed 0x9002 (s.logicalOf p) 4 = false → ∃ t, exec (.patrolScrub p ⟨[], []⟩) s = .next t
      ∧ (∀ b, b < 4 → SMap.get 0 (t.core p).patrol b = if maskBit (s.core p).retained b then SMap.get 0 (s.core p).patrol b
          else (SMap.get 0 (s.core p).patrol b + 1) % 2048)
      ∧ (t.core p).rows = (s.core p).rows ∧ (t.core p).writeBack = (s.core p).writeBack ∧ t.regs = s.regs)
  ∧ (∀ (s : State) (p : Nat) (up : Upsets), (s.core p).retained = 14 →
    let r := 4 * SMap.get 0 (s.core p).patrol 0 % cisternRows
    let u := s.modCore p fun c => { c with patrol := SMap.set 0 c.patrol 0 ((SMap.get 0 c.patrol 0 + 1) % 2048) }
    let own := (s.rowOwners p r).find? fun q => (s.core p).owns q.2.part r
    (up.corrected.contains r = true → up.lost.contains r = false → s.armed 0x9002 (s.logicalOf p) 4 = false →
      exec (.patrolScrub p up) s = .next (s.whenFetched fun _ => u.correctRow p r (own.map fun q => (q.1, q.2.part)) false))
    ∧ (up.corrected.contains r = false → up.lost.contains r = true → s.armed 0x9001 (s.logicalOf p) 0 = false →
      (own = none → exec (.patrolScrub p up) s = .next (s.whenFetched fun _ => u.loseRow p r 4 none false))
      ∧ (∀ q, own = some q →
        ((s.core p).reloadable q.2 r = true → exec (.patrolScrub p up) s =
          .next (s.whenFetched fun _ => (u.loseRow p r 4 (some (q.1, q.2.part)) false).reloadRow p q.1 r))
        ∧ ((s.core p).reloadable q.2 r = false →
          exec (.patrolScrub p up) s = .next (s.whenFetched fun _ => u.loseRow p r 4 (some (q.1, q.2.part)) false)))))
  ∧ (∀ (s : State) (u c : Nat),
    ((s.chan u c).queue = [] → (s.chan u c).waiting = [] → usCycles 1 ≤ s.now - (s.chan u c).lastUse → maskBit (s.active u) c = true →
      exec (.channelPowerDown u c) s = .next (s.modChan u c fun x => { x with asleep := true }))
    ∧ ((s.chan u c).queue ≠ [] ∨ (s.chan u c).waiting ≠ [] ∨ s.now - (s.chan u c).lastUse < usCycles 1 → exec (.channelPowerDown u c) s = .next s))
  ∧ (∀ (s : State) (u c : Nat) (q : MemReq) (l : List MemReq) (k : TransferCheck), (s.chan u c).queue = q :: l →
    (∀ n, 1 ≤ n → n ≤ 8 → s.armedParity u c n = false) →
    (s.bankBlocked u q = false →
      let v := s.modChan u c fun x => { Channel.refill s.now { x with queue := l } with asleep := false, lastUse := s.now }
      (k.failures = 0 → q.kind = .write → exec (.memoryRequest u c k) s = .next (q.offs.foldl (fun t o => t.writtenUnit q o) v))
      ∧ (k = ⟨0, 0, 0, 0, 0⟩ → q.kind = .read → exec (.memoryRequest u c k) s = .next v)
      ∧ (8 < k.failures →
        let a := v.servedAt q.range (256 * q.granule)
        let w := ((((v.raise { det := 0x9007, sev := 1, detail := v.locWord a.1 a.2, aux := 8 }).reissue u c 8).bump
          0x3001 4 1).modChan u c fun x => { x with failures := x.failures + 1 }).suspect u c
        (q.kind = .write → exec (.memoryRequest u c k) s =
          .next (q.offs.foldl (fun t o => t.poisonUnit (t.servedAt q.range o).1 (t.servedAt q.range o).2) w))
        ∧ (q.kind = .read → q.lost = q.units → exec (.memoryRequest u c k) s = .next w))
      ∧ (∀ n, 0 < n → k = ⟨n, 0, 0, 0, 0⟩ → q.kind = .read → q.lost ≠ q.units →
        let a := v.servedAt q.range (256 * q.granule)
        exec (.memoryRequest u c k) s =
          .next ((v.raise { det := 0x9007, sev := 1, detail := v.locWord a.1 a.2, aux := min n 8 }).reissue u c (min n 8)))
      ∧ (∀ o, q.offs = [o] → k.failures = 0 → k.ondie = 0 → k.second = 0 →
        let b := v.servedAt q.range o
        let i := o % 256 / 32
        (q.kind = .read → q.lost.testBit i = false → k.uncorrectable.testBit i = false → k.corrected.testBit i = true → b.1 < 4 →
          exec (.memoryRequest u c k) s = .next ((v.countCorrected b.1 b.2).combine q.range (o / 256 * 256) (1 <<< i)))
        ∧ (k.uncorrectable.testBit i = true → v.unitLost b.1 b.2 = false →
          (q.kind = .scrub → exec (.memoryRequest u c k) s =
            .next ((v.countLost b.1 b.2 true).memEvent 6 (v.unitWord b.1 b.2) (b.2 % pageSize)))
          ∧ (q.kind = .rmw → exec (.memoryRequest u c k) s =
            .next (((v.countLost b.1 b.2 true).dropFromLine q.range o).poisonUnit b.1 b.2)))))
    ∧ (s.bankBlocked u q = true → s.reg 0x3000 4 ≤ cyclesNs (s.now - q.arrived) → exec (.memoryRequest u c k) s = .next s)
    ∧ (∀ r m, l = r :: m → s.bankBlocked u q = true → cyclesNs (s.now - q.arrived) < s.reg 0x3000 4 → s.bankBlocked u r = false →
      k.failures = 0 → r.kind = .write → exec (.memoryRequest u c k) s = .next (r.offs.foldl (fun t o => t.writtenUnit r o)
        (s.modChan u c fun x => { Channel.refill s.now { x with queue := q :: m } with asleep := false, lastUse := s.now }))))
  ∧ (∀ (s : State) (q : MemReq) (o : Nat),
    let b := s.servedAt q.range o
    let a := (rangeBase b.1 + b.2) / 32
    (s.untrained b.1 (s.locate b.1 b.2).1 = true → s.writtenUnit q o = s.dropWrite b.1 (s.locate b.1 b.2).1)
    ∧ (s.untrained b.1 (s.locate b.1 b.2).1 = false →
      ((s.range b.1).poison.contains a = true → s.writtenUnit q o = s.setPoison b.1 ((s.range b.1).poison.filter (· ≠ a)))
      ∧ ((s.range b.1).poison.contains a = false → s.writtenUnit q o = s)))
  ∧ (∀ (s : State) (u c : Nat) (k : TransferCheck), (s.chan u c).queue = [] → exec (.memoryRequest u c k) s = .next s)
  ∧ (∀ (s : State) (u g : Nat),
    (∀ k x, s.lineAt u g = some (k, x) →
      (s.reg 0x3000 3 ≤ cyclesNs (s.now - x.since) → exec (.wcbAgeExpiry u g) s =
        .next ((s.setLines k ((s.lines k).filter fun y => y.granule ≠ x.granule)).request u (x.granule * 256 - rangeBase u) .write false
          x.units))
      ∧ (cyclesNs (s.now - x.since) < s.reg 0x3000 3 → exec (.wcbAgeExpiry u g) s = .next s))
    ∧ (s.lineAt u g = none → exec (.wcbAgeExpiry u g) s = .next s))
  ∧ ∀ (s : State) (u n : Nat),
    let off := 32 * n
    let i := off % 256 / 32
    (s.rangeSize u ≤ off ∨ s.isUp = false ∨ (s.lineUnits u (off / 256)).testBit i = true → exec (.memoryPatrol u n) s = .next s)
    ∧ (off < s.rangeSize u → s.isUp = true → (s.lineUnits u (off / 256)).testBit i = false →
      exec (.memoryPatrol u n) s = .next ((s.charge 16 (chargeSub (.range u off) false) 32).request u off .scrub false (1 <<< i)))

/-- A request joins the queue of its own width, of 64 entries, with its time of arrival; where that queue is full, or an earlier
request of the width waits for it, it waits in the NoC, in order. No queue ever grows beyond 64 requests of a width by an arrival or
by the admission of those that wait, and no request is lost. A request goes to the channel that serves the offset, which leaves
power-down.
[spec/10_memory_tiers.md] -/
def Obligations.ChannelQueuesAreBounded : Prop :=
  (∀ (now : Nat) (c : Channel) (q : MemReq),
    ((c.queue.filter fun x => x.narrow = q.narrow).length < 64 → (∀ x ∈ c.waiting, x.narrow ≠ q.narrow) →
      c.arrive now q = { c with queue := c.queue ++ [{ q with arrived := now }] })
    ∧ (64 ≤ (c.queue.filter fun x => x.narrow = q.narrow).length ∨ (∃ x ∈ c.waiting, x.narrow = q.narrow) →
      c.arrive now q = { c with waiting := c.waiting ++ [q] }))
  ∧ (∀ (now : Nat) (c : Channel) (b : Bool), (c.queue.filter fun x => x.narrow = b).length ≤ 64 →
    (∀ q, ((c.arrive now q).queue.filter fun x => x.narrow = b).length ≤ 64)
    ∧ ((c.refill now).queue.filter fun x => x.narrow = b).length ≤ 64
    ∧ (c.refill now).queue.length + (c.refill now).waiting.length = c.queue.length + c.waiting.length)
  ∧ ∀ (s : State) (u off units : Nat) (kind : ReqKind) (narrow : Bool),
    let a := s.servedAt u off
    ∀ t, t = s.request u off kind narrow units →
      t.chan a.1 (s.locate a.1 a.2).1 = { (s.chan a.1 (s.locate a.1 a.2).1).arrive s.now
        { kind := kind, narrow := narrow, range := u, granule := off / 256, units := units, arrived := s.now, lost := 0 } with
          asleep := false, lastUse := s.now }

/-- Each of these writes, accepted, takes the next mark and then acts on the range that repair_target names; while that
range has another state than normal, it answers busy. ROW_REPAIR with a spare row left in the bank blocks the bank and runs, and
without one ends with the status that says so; ROW_REPAIR_COMPLETE ends it: the row's units that were uncorrectable in the copy
and that no access has read since are counted and poisoned, the copy's reads and writes join the channel's queue, a spare row is
used, the row no longer fails, and the status is done. PAGE_REMAP of a page that is not
the last runs with a copy of it to be made; where the remap table would grow beyond 64 entries it ends with that status.
PAGE_REMAP_COMPLETE counts and poisons the units of the page that read as uncorrectable, retires the page, with the traffic of its
copy, and goes on with the next; retiring the page whose data lie at a place shortens the range by a page and maps that place's page to the place of the last
one, unless it is the last. QUERY_SPARES answers the spare rows left; CLEAR_SUSPECT clears the suspect bit
of the channel. How many spare rows a bank has is the model's free function (log entry 69). [spec/10_memory_tiers.md] -/
def Obligations.RepairsRetireRowsAndPages : Prop :=
  (∀ (s : State) (acc : Nat),
    let m := s.marked acc
    let w := s.reg 0x3100 1
    let u := locRange w
    (s.TakesScalar acc 0x3100 2 1 →
      (s.reg (rangeIdx u) 9 = 0 → s.sparesLeft w ≠ 0 → exec (.rowRepair acc) s = .next ((((m.modRange u fun r =>
        { r with repair := some ⟨1, BitVec.ofNat 64 w, [], true, []⟩ }).setRangeState u 1).setReg 0x3100 3 1).saysDone acc 0x3100 2))
      ∧ (s.reg (rangeIdx u) 9 = 0 → s.sparesLeft w = 0 → exec (.rowRepair acc) s = .next ((m.repairDone w 3).saysDone acc 0x3100 2))
      ∧ (s.reg (rangeIdx u) 9 ≠ 0 → exec (.rowRepair acc) s = .next ((m.setReg 0x3100 3 5).saysDone acc 0x3100 2)))
    ∧ (s.TakesScalar acc 0x3100 2 2 →
      (s.reg (rangeIdx u) 9 ≠ 0 → exec (.pageRemap acc) s = .next ((m.setReg 0x3100 3 5).saysDone acc 0x3100 2))
      ∧ (s.reg (rangeIdx u) 9 = 0 →
        let n := (retirePages (locPages w) (s.range u).remap (s.rangeSize u)).1.length
        (64 < n → exec (.pageRemap acc) s = .next ((m.repairDone w 4).saysDone acc 0x3100 2))
        ∧ (n ≤ 64 → locPage w ≠ s.rangeSize u / pageSize - 1 → exec (.pageRemap acc) s = .next ((((m.setRangeState u 1).setReg
            0x3100 3 1).modRange u fun r => { r with repair := some ⟨2, BitVec.ofNat 64 w, locPages w, false, []⟩ }).saysDone acc 0x3100 2))))
    ∧ (s.TakesScalar acc 0x3100 2 3 →
      (s.reg (rangeIdx u) 9 = 0 → exec (.querySpares acc) s =
        .next (((m.setReg 0x3100 4 (s.sparesLeft w % 256)).repairDone w 2).saysDone acc 0x3100 2))
      ∧ (s.reg (rangeIdx u) 9 ≠ 0 → exec (.querySpares acc) s = .next ((m.setReg 0x3100 3 5).saysDone acc 0x3100 2)))
    ∧ (s.TakesScalar acc 0x3100 2 4 →
      (s.reg (rangeIdx u) 9 = 0 → exec (.clearSuspect acc) s = .next (((m.setReg (rangeIdx u) 3
        (maskClear (s.reg (rangeIdx u) 3) (locChan w))).repairDone w 2).saysDone acc 0x3100 2))
      ∧ (s.reg (rangeIdx u) 9 ≠ 0 → exec (.clearSuspect acc) s = .next ((m.setReg 0x3100 3 5).saysDone acc 0x3100 2))))
  ∧ (∀ (s : State) (lost : List Nat),
    (s.repairing 1 = none → exec (.rowRepairComplete lost) s = .next s)
    ∧ ∀ u r, s.repairing 1 = some (u, r) →
      let w := r.loc.toNat
      let bad := (s.unitsIn u lost).filter fun o =>
        s.locWord u o / 2 ^ 30 = w / 2 ^ 30 && !r.seen.contains ((rangeBase u + o) / 32)
      let t := bad.foldl (fun s o => (s.countLost u o true).poisonUnit u o) s
      let v := ((t.copyTraffic u false (t.rowGranules u w)).copyTraffic u true
        ((t.copyTraffic u false (t.rowGranules u w)).rowGranules u w)).modChan u (locChan w) fun c =>
          { c with repaired := c.repaired + 1 }
      exec (.rowRepairComplete lost) s = .next ((v.modRange u fun x => { x with
        failing := x.failing.filter (· ≠ w >>> 30), spares := SMap.mod 0 x.spares (w / 2 ^ 49) (· + 1) }).repairDone w 2))
  ∧ (∀ (s : State) (lost : List Nat),
    (s.repairing 2 = none → exec (.pageRemapComplete lost) s = .next s)
    ∧ ∀ u r p ps, s.repairing 2 = some (u, r) → r.pages = p :: ps →
      let own := (s.unitsIn u lost).filter fun o => o / pageSize = p
      let bad := (s.lostInPage u p).filter fun o => !own.contains o
      let t := bad.foldl (fun s o => (s.countLost u o false).poisonUnit u o)
        (own.foldl (fun s o => (s.countLost u o true).poisonUnit u o) s)
      let v := ((((t.chargeMove u u pageSize).copyTraffic u false (pageGranules p)).retirePage u p).copyTraffic u true (pageGranules p))
      (ps = [] → exec (.pageRemapComplete lost) s = .next ((v.modRange u fun x =>
        { x with retired := (x.retired ++ [r.loc]).take 128 }).repairDone r.loc.toNat 2))
      ∧ (∀ q qs, ps = q :: qs → q ≠ v.rangeSize u / pageSize - 1 → exec (.pageRemapComplete lost) s =
        .next (v.modRange u fun x => { x with repair := some ⟨2, r.loc, ps, false, []⟩ })))
  ∧ ∀ (s : State) (u p : Nat), u < 8 → Regs.wf s.regs = true → SMap.rising 0 s.tiers.ranges = true →
    let m := (s.range u).remap
    let t := s.rangeSize u / pageSize - 1
    let q := (pageHeld m (s.rangeSize u) p).getD p
    (q ≤ t → (s.retirePage u p).rangeSize u = s.rangeSize u - pageSize)
    ∧ ((s.retirePage u p).range u).remap = (if q = t then SMap.erase m t else if t < q then m
        else SMap.insert (SMap.erase m t) q (SMap.get t m t))
    ∧ (m = [] → p < t → ((s.retirePage u p).range u).remap = [(p, t)])

/-- Each of the first three, accepted, takes the next mark and then acts on the range that mapout_unit names. PLAN on a
range in its normal state computes the layout without the masked channels, shows the size to come and makes the range
planned; with no channel left, or more than 64 remapped pages, it answers limit, and in another state busy. START of a
planned range begins the reflow, with its remapped pages first, and CANCEL discards the plan; each answers busy
otherwise. REFLOW_STEP parks the first remapped page, which is served from the parking area from then on, and then copies the units of one
step and goes down by it, with its traffic in the channels' queues; with nothing left or no reflow it changes nothing. REFLOW_DONE after the last step installs the
plan's size, channels and remap table, and the range is normal again; before, it changes nothing. PORT_DR_WRITE, accepted, shifts its
bits into the data register that port_ir selects, as many as the register is long at most, and keeps in port_dr the bits shifted
out, with port_status 2; what the register first holds is the model's free value (log entry 69). [spec/10_memory_tiers.md] -/
def Obligations.ReflowMovesARange : Prop :=
  (∀ (s : State) (acc : Nat),
    let m := s.marked acc
    let u := s.mapoutRange
    (s.TakesScalar acc 0x3200 4 1 →
      (s.reg (rangeIdx u) 9 ≠ 0 → exec (.plan acc) s = .next ((m.setReg 0x3200 5 5).saysDone acc 0x3200 4))
      ∧ (s.reg (rangeIdx u) 9 = 0 →
        (s.planOf u (s.reg 0x3200 2) = none → exec (.plan acc) s = .next ((m.setReg 0x3200 5 4).saysDone acc 0x3200 4))
        ∧ ∀ p, s.planOf u (s.reg 0x3200 2) = some p →
          (64 < p.remap.length → exec (.plan acc) s = .next ((m.setReg 0x3200 5 4).saysDone acc 0x3200 4))
          ∧ (p.remap.length ≤ 64 → exec (.plan acc) s = .next (((((m.modRange u fun r => { r with plan := some p }).setReg 0x3200 6
              p.size).setReg 0x3200 5 1).setRangeState u 2).saysDone acc 0x3200 4))))
    ∧ (s.TakesScalar acc 0x3200 4 2 →
      (s.reg (rangeIdx u) 9 ≠ 2 → exec (.start acc) s = .next ((m.setReg 0x3200 5 5).saysDone acc 0x3200 4))
      ∧ (s.reg (rangeIdx u) 9 = 2 → exec (.start acc) s = .next (((((m.modRange u fun x =>
          { x with reflow := some ⟨(s.range u).remap.map (·.1), chanBytes u / 256, s.now, s.reg 0x3200 3, []⟩ }).setReg 0x3200 5 2).setReg 0x3200 7
            (chanBytes u / 256)).setRangeState u 3).saysDone acc 0x3200 4)))
    ∧ (s.TakesScalar acc 0x3200 4 3 →
      (s.reg (rangeIdx u) 9 ≠ 2 → exec (.cancel acc) s = .next ((m.setReg 0x3200 5 5).saysDone acc 0x3200 4))
      ∧ (s.reg (rangeIdx u) 9 = 2 → exec (.cancel acc) s = .next ((((m.modRange u fun r => { r with plan := none }).setReg
          0x3200 5 0).setRangeState u 0).saysDone acc 0x3200 4))))
  ∧ (∀ (s : State) (lost : List Nat),
    (s.reflowing = none → exec (.reflowStep lost) s = .next s ∧ exec .reflowDone s = .next s)
    ∧ ∀ u p f, s.reflowing = some (u, p, f) →
      (∀ q l, f.park = q :: l → ∃ t, exec (.reflowStep lost) s = .next t
        ∧ (t.range u).reflow = some { f with park := l, parked := f.parked ++ [q] } ∧ t.active u = s.active u)
      ∧ (∀ o v b, f.parked.idxOf (o / pageSize) < f.parked.length → (locateIn p.active p.remap o).2 / 256 < f.next →
        s.localPlace (f.area + f.parked.idxOf (o / pageSize) * pageSize + o % pageSize) = .range v b → s.servedAt u o = (v, b))
      ∧ (f.park = [] → f.next = 0 → exec (.reflowStep lost) s = .next s)
      ∧ (∀ n, f.park = [] → f.next = n + 1 →
        let k := (activeList p.active).length
        let offs := (List.range k).filterMap fun i => planOffset p (n * k + i)
        let v := (offs.flatMap fun o => (List.range 8).map fun i => o + 32 * i).foldl (fun s o => s.reflowUnit p u o lost)
          (s.copyTraffic u false offs)
        exec (.reflowStep lost) s = .next ((((v.chargeMove u u (256 * offs.length)).modRange u fun r =>
          { r with reflow := some { f with next := n } }).setReg 0x3200 7 n).copyTraffic u true offs))
      ∧ (f.next ≠ 0 ∨ f.park ≠ [] → exec .reflowDone s = .next s)
      ∧ (f.next = 0 → f.park = [] → Regs.wf s.regs = true → SMap.rising 0 s.tiers.ranges = true → p.size < 2 ^ 64 → p.active < 2 ^ 32 →
        ∃ t, exec .reflowDone s = .next t ∧ t.rangeSize u = p.size ∧ t.active u = p.active ∧ (t.range u).remap = p.remap
          ∧ (t.range u).plan = none ∧ (t.range u).reflow = none ∧ t.reg (rangeIdx u) 9 = 0 ∧ t.reg 0x3200 5 = 3))
  ∧ (∀ (s : State) (acc offset : Nat) (bytes : List Byte), s.Takes acc 0x3300 4 offset bytes →
    exec (.portDrWrite acc offset bytes) s = .next (((s.marked acc).portShift bytes).saysDone acc 0x3300 4))
  ∧ ∀ (s : State) (bytes : List Byte),
    let len := max (s.reg 0x3300 3) 1
    let n := min (8 * bytes.length) len
    let k := 4 * s.reg 0x3300 2 + s.reg 0x3300 1 % 4
    let free := Config.portReg (s.reg 0x3300 1 % 4) (s.reg 0x3300 2)
    let old := SMap.get free s.tiers.ports k % 2 ^ len
    (SMap.rising 0 s.blobs = true → (s.portShift bytes).blob 0x3300 4 = leBytes (ceilDiv n 8) (old % 2 ^ n))
    ∧ SMap.get free (s.portShift bytes).tiers.ports k = old / 2 ^ n + leNat bytes % 2 ^ n * 2 ^ (len - n)
    ∧ (s.portShift bytes).mem = s.mem ∧ (s.portShift bytes).tiers.ranges = s.tiers.ranges

/-! ### Quiwen Link: lanes, links and flits -/

/-- LINK_RETRAIN in SERVING of an enabled link that has been DOWN for 1 s, calibrated, not blocked by lanes and on a die that runs
starts its training, and else changes nothing. LINK_UP of a link in training whose lanes are in order, with no message waiting, and
with the same neighbour or no flit that waits for a report, makes it UP with its neighbour, fresh sequence numbers and the credits of
the credit entries, and ends its injections; its flits that wait for LINK_REPORT wait on; its framing count is the model's free value;
with lanes out of order it goes DOWN, is marked with the time and reports it; of a link not in training it changes nothing.
LINK_UP_TIMEOUT of a link enabled for 2 s and not UP marks it as late. LINK_REPORT puts the flits after the one named back
to waiting, ahead of the others; where the link is UP here and awaits no report, it goes DOWN first. [spec/11_quiwen_fabric.md; spec/14_availability_faults.md] -/
def Obligations.LinksTrainAndReport : Prop :=
  (∀ (s : State) (e : Nat),
    (s.top.dev = .serving → maskBit (s.reg 0x8000 2) e = true → s.eng e 1 = 0 → s.laneBlocked e = false →
      maskBit (s.reg 0x1200 11) e = true → s.top.stopped.get (e / 12) = false → usCycles 1000000 ≤ s.now - (s.link e).downAt →
      exec (.linkRetrain e) s = .next (s.setEng e 1 1))
    ∧ (s.top.dev ≠ .serving ∨ maskBit (s.reg 0x8000 2) e = false ∨ s.eng e 1 ≠ 0 ∨ s.laneBlocked e = true
        ∨ s.top.stopped.get (e / 12) = true ∨ s.now - (s.link e).downAt < usCycles 1000000 →
      exec (.linkRetrain e) s = .next s))
  ∧ (∀ (s : State) (e peer : Nat),
    (s.eng e 1 ≠ 1 → ∀ b, exec (.linkUp e peer b) s = .next s)
    ∧ (s.eng e 1 = 1 →
      exec (.linkUp e peer false) s =
        .next ((((s.setEng e 1 0).setEng e 4 (maskSet (s.eng e 4) 31)).modLink e fun l => { l with downAt := s.now }).laneEvent 4 e 0)
      ∧ (e < 24 → s.fab.waiting = [] → s.eng e 2 / 256 = peer / 256 ∨ ((s.link e).held = [] ∧ (s.link e).past = []) →
        ∃ t, exec (.linkUp e peer true) s = .next t ∧ t.linkIsUp e = true
        ∧ (∀ k, k ≠ e → k < 24 → t.linkIsUp k = s.linkIsUp k ∧ t.link k = s.link k)
        ∧ t.fab.late = maskClear s.fab.late e ∧ t.free = s.free + 1
        ∧ (∀ q ∈ t.av.injectedLanes, q.1 / 16 ≠ e)
        ∧ (SMap.rising 0 s.fab.links = true → t.link e = { Link.init with
            credits := (List.range 16).foldl (fun m v => SMap.set 0 m v (s.reg 0x8050 (v + 1))) [],
            progress := s.now, replayAt := s.now, upAt := s.now, past := (s.link e).past,
            awaiting := decide (s.eng e 2 / 256 = peer / 256) && (s.link e).awaiting }))))
  ∧ (∀ (s : State) (e : Nat),
    let from' := SMap.get 0 s.av.linkFrom e
    (s.top.dev = .serving → maskBit (s.reg 0x8000 2) e = true → s.linkIsUp e = false → from' ≠ 0 →
      usCycles 2000000 ≤ s.now + 1 - from' → exec (.linkUpTimeout e) s =
        .next (State.judgeLinks { s with fab := { s.fab with late := maskSet s.fab.late e } }))
    ∧ (s.linkIsUp e = true ∨ s.now + 1 - from' < usCycles 2000000 → exec (.linkUpTimeout e) s = .next s))
  ∧ ∀ (s r : State) (e seq : Nat),
    (s.linkIsUp e = true → (s.link e).awaiting = false → r = (s.takeReport e seq).linkDown e) →
    (s.linkIsUp e = false ∨ (s.link e).awaiting = true → r = s.takeReport e seq) →
    let msgs := ((r.link e).past.filter fun f => (f.seq + 4096 - seq) % 4096 ≠ 0 && (f.seq + 4096 - seq) % 4096 ≤ 2048).flatMap
      fun f => f.msgs
    let u := r.modLink e fun l => { l with past := [], awaiting := false }
    let v : State := { u with fab := { u.fab with
      sent := u.fab.sent.filter fun o => !msgs.any fun x => x.id = o.id,
      waiting := msgs.map (fun o : OutMsg => { o with since := u.now }) ++ u.fab.waiting } }
    ((∃ o ∈ msgs, classOrdered o.msg.cls = true) → exec (.linkReport e seq) s = .next (v.laneEvent 3 e 0).pump)
    ∧ ((∀ o ∈ msgs, classOrdered o.msg.cls = false) → exec (.linkReport e seq) s = .next v.pump)

/-- LANE_FAIL of a receive lane marks
it: where it carries no logical lane, the spare is reported, or takes the link DOWN where a lane waits for it; a lane in use asks for
a good spare that is free, and otherwise takes the link DOWN; a lane that has failed already changes
nothing. SPARE_SWITCH moves the waiting logical lane to the spare, at the receiver, or at the sender once the switch has been acknowledged,
counts it and reports it; with none waiting it changes nothing. INJECTED_LANE_RETURN 1 s after the injection gives a lane that has not
failed its own place back and tells the other end; before, it changes nothing. [spec/11_quiwen_fabric.md; spec/14_availability_faults.md] -/
def Obligations.LanesFailAndAreSpared : Prop :=
  (∀ (s : State) (e lane : Nat),
    (8 < lane ∨ maskBit (s.failedLanes e 1) lane = true → exec (.laneFail e lane) s = .next s)
    ∧ (lane ≤ 8 → maskBit (s.failedLanes e 1) lane = false →
      let u := (s.setEng e 4 (maskSet (s.eng e 4) (16 + lane))).setLaneRx e lane LaneRx.init
      (s.lanesOn e 1 lane = none →
        (lane ≠ 8 → exec (.laneFail e lane) s = .next u)
        ∧ (lane = 8 → (s.link e).rxSpare = none → exec (.laneFail e lane) s = .next (u.laneEvent 1 e lane))
        ∧ (lane = 8 → (s.link e).rxSpare ≠ none → exec (.laneFail e lane) s = .next (u.linkDown e)))
      ∧ ∀ l, s.lanesOn e 1 lane = some l →
        (maskBit (s.failedLanes e 1) 8 = false → s.spareUsed e 1 = false → (s.link e).rxSpare = none →
          exec (.laneFail e lane) s = .next ((u.modLink e fun x => { x with rxSpare := some l }).sendCtl e false))
        ∧ (maskBit (s.failedLanes e 1) 8 = true ∨ s.spareUsed e 1 = true ∨ (s.link e).rxSpare ≠ none →
          exec (.laneFail e lane) s = .next (u.linkDown e))))
  ∧ (∀ (s : State) (e : Nat),
    ((s.link e).rxSpare = none → exec (.spareSwitch e false) s = .next s)
    ∧ ((s.link e).txSpare = none ∨ (s.link e).txAcked = false → exec (.spareSwitch e true) s = .next s)
    ∧ (∀ l, (s.link e).rxSpare = some l → exec (.spareSwitch e false) s =
      .next ((((((s.setLane e 1 l 8).modLink e fun x => { x with rxSpare := none }).sendCtl e false true).bump 0x8003 3 1).laneEvent
        0 e l (decide (SMap.get 0 s.av.injectedLanes (16 * e + l) ≠ 0)))))
    ∧ (∀ l, (s.link e).txSpare = some l → (s.link e).txAcked = true → exec (.spareSwitch e true) s =
      .next (let u := (s.setLane e 0 l 8).modLink e fun x => { x with txSpare := none, txAcked := false }
        ((u.setEng e 4 (maskSet (u.eng e 4) (s.eng e 3 / 2 ^ (4 * l) % 16))).bump 0x8003 3 1).laneEvent 0 e l false)))
  ∧ ∀ (s : State) (e lane : Nat),
    let since := SMap.get 0 s.av.injectedLanes (16 * e + lane)
    let u : State := { s with av := { s.av with injectedLanes := SMap.erase s.av.injectedLanes (16 * e + lane) } }
    (since ≠ 0 → since + usCycles 1000000 ≤ s.now + 1 →
      (maskBit (s.failedLanes e 1) lane = true → exec (.injectedLaneReturn e lane) s = .next u)
      ∧ (maskBit (s.failedLanes e 1) lane = false → exec (.injectedLaneReturn e lane) s =
        .next (((u.setLane e 1 lane lane).modLink e fun l =>
          { l with rxSpare := if l.rxSpare = some lane then none else l.rxSpare }).sendCtl e false true)))
    ∧ (since = 0 ∨ s.now + 1 < since + usCycles 1000000 → exec (.injectedLaneReturn e lane) s = .next s)

/-- No injection waits for a flit of a link. -/
def Sys2Proof.Machine.State.LinkClean (s : State) (e : Nat) : Prop :=
  ∀ l, l < 9 → s.armed 0x9008 e l = false ∧ s.armed 0x9009 e l = false

/-- On a link that is UP, for flits that open no codeword period: DATA_FLIT with a wrong CRC, or with a stripe of an uncorrectable
codeword, is counted and reported, and asks for a NAK; one out of sequence asks
for a NAK, at most one for a gap; the next one in sequence is accepted, its messages are taken in order, and the 64th
one not acknowledged is acknowledged at once; then its header is read; a message for this module joins those that have arrived, and keeps its buffer until it
is consumed. CONTROL_FLIT with a good CRC and all its stripes good has its header read. The header of either frees the flits
acknowledged where ack_valid is set, adds its credits to their VC, notes a spare request unless the lane is on the spare already, and
a switch acknowledged, and replays the held flits on a NAK.
With flits held, REPLAY_TIMEOUT replays them 2 µs after the last progress and the last replay, and ACK_PROGRESS_TIMEOUT takes the link
DOWN 100 µs after the last progress; earlier, or with none held, they change nothing. ACK_TIMER with flits not acknowledged, or slots
to return, sends an acknowledgement. On a link that is not UP none of them changes anything. [spec/11_quiwen_fabric.md] -/
def Obligations.FlitsAreAcceptedAndReplayed : Prop :=
  (∀ (s : State) (e : Nat) (f : Flit), s.linkIsUp e = true → s.LinkClean e → f.code = [] →
    (f.crcOk = false ∨ s.stripeBad e = true → exec (.dataFlit e f) s =
      .next (((s.bump 0x8003 2 1).crcEvent 1 e 0 false).refuseFlit e))
    ∧ (f.crcOk = true → s.stripeBad e = false →
      (f.seq % 4096 ≠ ((s.link e).lastRecv + 1) % 4096 → exec (.dataFlit e f) s = .next (s.refuseFlit e))
      ∧ (f.seq % 4096 = ((s.link e).lastRecv + 1) % 4096 →
        let u := s.modLink e fun l =>
          { l with lastRecv := f.seq % 4096, received := true, nakSent := false, unacked := l.unacked + 1 }
        let v := f.msgs.foldl (fun s m => s.takeMsg e f.vc m) u
        let w := if 64 ≤ (v.link e).unacked then v.sendCtl e false else v
        (f.head.nak = false → exec (.dataFlit e f) s = .next (w.readHeader e f.head).pump)
        ∧ (f.head.nak = true → exec (.dataFlit e f) s = .next ((w.readHeader e f.head).replay e).pump)
        ∧ (∀ m, f.msgs = [m] → f.head.nak = false → m.dst = s.me → s.fab.waiting = [] → ∃ t, exec (.dataFlit e f) s = .next t
          ∧ t.fab.arrived = s.fab.arrived ++ [m] ∧ t.fab.buffers = s.fab.buffers ++ [(m, e, f.vc)] ∧ t.fab.waiting = []
          ∧ t.mem = s.mem))))
  ∧ (∀ (s : State) (e : Nat) (f : CtlFlit), s.linkIsUp e = true → f.code = [] →
    (f.crcOk = false ∨ s.stripeBad e = true → exec (.controlFlit e f) s = .next (((s.bump 0x8003 2 1).crcEvent 1 e 0 false).refuseFlit e))
    ∧ (f.crcOk = true → s.stripeBad e = false →
      (f.head.nak = false → exec (.controlFlit e f) s = .next (s.readHeader e f.head).pump)
      ∧ (f.head.nak = true → exec (.controlFlit e f) s = .next ((s.readHeader e f.head).replay e).pump)))
  ∧ (∀ (s : State) (e : Nat) (h : LinkHeader), SMap.rising 0 s.fab.links = true →
    let l := s.link e
    let t := (s.readHeader e h).link e
    let ask := match h.spareReq with
      | some i => if s.lanesOn e 0 8 = some (i % 8) then none else some (i % 8)
      | none => none
    t = { l with
      held := if h.ackValid then ackHeld (h.ackSeq % 4096) l.held else l.held,
      progress := if t.held.length < l.held.length then s.now else l.progress,
      credits := SMap.mod 0 l.credits (h.creditVc % 16) fun c => c + h.credits % 4096,
      txSpare := if ask.isSome then ask else l.txSpare,
      txAcked := h.spareAck || (l.txAcked && ask.isNone) })
  ∧ (∀ (s : State) (e : Nat), s.linkIsUp e = true →
    ((s.link e).held ≠ [] →
      (usCycles 2 ≤ s.now - max (s.link e).progress (s.link e).replayAt → exec (.replayTimeout e) s = .next (s.replay e))
      ∧ (s.now - max (s.link e).progress (s.link e).replayAt < usCycles 2 → exec (.replayTimeout e) s = .next s)
      ∧ (usCycles 100 ≤ s.now - (s.link e).progress → ∃ t, exec (.ackProgressTimeout e) s = .next t ∧ t = s.linkDown e
        ∧ (e < 24 → Regs.wf s.regs = true → t.linkIsUp e = false))
      ∧ (s.now - (s.link e).progress < usCycles 100 → exec (.ackProgressTimeout e) s = .next s))
    ∧ ((s.link e).held = [] → exec (.replayTimeout e) s = .next s ∧ exec (.ackProgressTimeout e) s = .next s)
    ∧ ((s.link e).unacked ≠ 0 ∨ (s.link e).owed ≠ [] → exec (.ackTimer e) s = .next (s.sendCtl e false))
    ∧ ((s.link e).unacked = 0 → (s.link e).owed = [] → exec (.ackTimer e) s = .next s))
  ∧ ∀ (s : State) (e : Nat), s.linkIsUp e = false →
    (∀ f, exec (.dataFlit e f) s = .next s) ∧ (∀ f, exec (.controlFlit e f) s = .next s)
    ∧ exec (.replayTimeout e) s = .next s ∧ exec (.ackTimer e) s = .next s ∧ exec (.ackProgressTimeout e) s = .next s

/-- Packing a message into the flits of a link: no held flit comes to hold more than its 15 slots, the slots in use rise by those of
the message, the message ends after every one before it, the flits held rise by the number counted before, which take the next sequence
numbers, and every flit but the last held one stays as it was. A new flit has the link header of its sender, with the credits of one
VC, and the next 15 slots of the message. A message shares the last flit only where that flit is of its VC and
was sent in the same control cycle, which is the model's reading of how long a flit stays open (log entry 69).
[spec/11_quiwen_fabric.md] -/
def Obligations.MessagesArePackedBackToBack : Prop :=
  ∀ (l : Link) (vc now : Nat) (o : OutMsg), (∀ f ∈ l.held, f.used ≤ 15) →
    let t := l.pack vc now o
    (∀ f ∈ t.held, f.used ≤ 15)
    ∧ (t.held.map fun f => f.used).sum = (l.held.map fun f => f.used).sum + o.msg.slots
    ∧ (t.held.flatMap fun f => f.msgs) = (l.held.flatMap fun f => f.msgs) ++ [o]
    ∧ t.held.length = l.held.length + l.newFlits vc now o.msg.slots
    ∧ t.nextSeq = (l.nextSeq + l.newFlits vc now o.msg.slots) % 4096
    ∧ t.held.take (l.held.length - 1) = l.held.dropLast
    ∧ ((∀ f ∈ l.held.getLast?, f.vc ≠ vc ∨ f.cycle ≠ now) → t.held.take l.held.length = l.held)
    ∧ (∀ i, l.held.length ≤ i → i < t.held.length →
      (t.held[i]?.map fun f => f.seq) = some ((l.nextSeq + (i - l.held.length)) % 4096)
      ∧ (t.held[i]?.map fun f => f.vc) = some vc
      ∧ (t.held[i]?.map fun f => f.head) = some (l.head false false (l.returns.getD (i - l.held.length) (0, 0)))
      ∧ (t.held[i]?.map fun f => f.content) =
        some ((o.msg.bytes.drop (16 * (l.room vc now + 15 * (i - l.held.length)))).take 240))

/-- The decoder of a receive lane in use, or of the idle spare, takes a codeword. With up to 15
symbol errors, no injection armed on the lane, and the framing word that follows, the lane not more than two codeword periods from any other, the codeword is
good: its errors are added to corrected_symbols, the lane keeps its counter, and its stripes are good, while the symbol errors of
the last 1 ms stay at or below lane_ser_limit. With more than 15 it is uncorrectable: uncorrectable_cw rises by 1, the detector is
raised, and the lane's stripes of the period are bad, so that its flits are refused; the lane fails where more than lane_ucw_limit
codewords of the last 1 ms are uncorrectable, and not before. A framing word that does not follow, or a lane too far from another,
fails the lane at once. A lane that has failed, and one beyond the nine, changes nothing. That a codeword reaches the decoder with
the flit that opens its period is the model's reading (log entry 69). [spec/11_quiwen_fabric.md] -/
def Obligations.CodewordsAreDecodedAndLanesFail : Prop :=
  (∀ (s : State) (e : Nat) (w : Codeword), w.lane ≤ 8 → maskBit (s.failedLanes e 1) w.lane = false → s.framedLanes e w.lane ≠ [] →
    let x := s.laneRx e w.lane
    let log := (x.log.filter fun r => s.now < r.1 + usCycles 1000) ++ (if w.errors = 0 then [] else [(s.now, w.errors)])
    let next := match x.counter with
      | some k => (k + 1) % 256
      | none => w.framing / 2 ^ 12 % 256
    (w.errors ≤ 15 → s.armed 0x9008 e w.lane = false →
      let u (lost : Bool) : State :=
        (s.setEng e 5 (s.eng e 5 + w.errors)).setLaneRx e w.lane { counter := some next, bad := lost, log := log }
      ((∃ l ∈ s.framedLanes e w.lane, w.framing = framingWord l next) → s.skewed e next = false →
        ratioAbove ((log.filter fun r => r.2 ≤ 15).map (·.2)).sum symbolsPerMs (dec32 (BitVec.ofNat 32 (s.reg 0x8000 5))) = false →
        s.takeCodeword e w = u false)
      ∧ ((∃ l ∈ s.framedLanes e w.lane, w.framing = framingWord l next) → s.skewed e next = false →
        ratioAbove ((log.filter fun r => r.2 ≤ 15).map (·.2)).sum symbolsPerMs (dec32 (BitVec.ofNat 32 (s.reg 0x8000 5))) = true →
        s.takeCodeword e w = (u false).failLane e w.lane)
      ∧ ((∀ l ∈ s.framedLanes e w.lane, w.framing ≠ framingWord l next) ∨ s.skewed e next = true →
        s.takeCodeword e w = (u true).failLane e w.lane))
    ∧ (15 < w.errors →
      let u := ((s.setLaneRx e w.lane { counter := x.counter.map fun _ => next, bad := true, log := log }).setEng e 6
        (s.eng e 6 + 1)).crcEvent 0 e w.lane false
      ((log.filter fun r => 15 < r.2).length ≤ s.reg 0x8000 4 → s.takeCodeword e w = u)
      ∧ (s.reg 0x8000 4 < (log.filter fun r => 15 < r.2).length → s.takeCodeword e w = u.failLane e w.lane)))
  ∧ (∀ (s : State) (e : Nat) (w : Codeword), 8 < w.lane ∨ maskBit (s.failedLanes e 1) w.lane = true → s.takeCodeword e w = s)
  ∧ (∀ (s : State) (e : Nat) (f : Flit), s.linkIsUp e = true → (∀ l, l < 9 → s.armed 0x9009 e l = false) →
    let u := f.code.foldl (fun t w => t.takeCodeword e w) s
    (u.linkIsUp e = false → exec (.dataFlit e f) s = .next u)
    ∧ (u.linkIsUp e = true → u.stripeBad e = true → exec (.dataFlit e f) s =
      .next (((u.bump 0x8003 2 1).crcEvent 1 e 0 false).refuseFlit e)))
  ∧ ∀ (s : State) (e l : Nat), l < 8 → (s.laneRx e (s.eng e 3 / 2 ^ (32 + 4 * l) % 16)).bad = true → s.stripeBad e = true

/-- The framing word of a codeword carries 0xA7 in bits 0 to 7, the logical lane in bits 8 to 11 and the codeword counter modulo 256 in
bits 12 to 19. A message made for a logical lane and a counter from 20 flits of 256 bytes holds that framing word in the first bits
of its blocks, and in block i the bytes 32 l to 32 l + 31 of flit i for logical lane l; the codeword is its 514 symbols of 10 bits
and 30 parity symbols of 10 bits. The 256 bytes of a flit hold its link header, the 15 slots of its content and its CRC, in this order,
and the codeword that a lane in use sends is made for its logical lane, and that of the idle spare for lane 0xF without flits. The order of the bits within a message and the field and roots of the code are the model's
(log entry 69). [spec/11_quiwen_fabric.md] -/
def Obligations.CodewordsCarryStripes : Prop :=
  (∀ l k : Nat, l < 16 → framingWord l k % 256 = 0xA7 ∧ framingWord l k / 2 ^ 8 % 16 = l ∧ framingWord l k / 2 ^ 12 = k % 256)
  ∧ (∀ (l k i : Nat) (fs : List (List Byte)), l < 8 → i < 20 → (∀ f ∈ fs, f.length = 256) → fs.length = 20 →
    messageFraming (laneMessage l k fs) = framingWord l k
    ∧ messageStripe (laneMessage l k fs) i = ((fs.getD i []).drop (32 * l)).take 32)
  ∧ (∀ (l k : Nat) (fs : List (List Byte)), (laneCodeword l k fs).length = 544 ∧ ∀ x ∈ laneCodeword l k fs, x < 1024)
  ∧ (∀ f : HeldFlit, f.content.length = 240 → f.bytes.length = 256
    ∧ f.bytes.take 12 = leBytes 12 (headerWord f.head f.seq 0 f.vc f.firstSlot) ∧ (f.bytes.drop 12).take 240 = f.content
    ∧ f.bytes.drop 252 = leBytes 4 (crc32 (f.bytes.take 252)))
  ∧ ∀ (s : State) (e p : Nat) (fs : List (List Byte)),
    (∀ l, l < 8 → s.lanesOn e 0 p = some l → s.txCodeword e p fs = some (laneCodeword l (s.txCounter e) fs))
    ∧ (s.lanesOn e 0 8 = none → maskBit (s.failedLanes e 0) 8 = false → (s.link e).txSpare = none →
      s.txCodeword e 8 fs = some (laneCodeword 0xF (s.txCounter e) []))

/-- Where some class of a link has a message to send, of at most 255 slots, and every weight is at least 1, the round-robin picks a class
that has one. The class whose turn it is sends while its deficit covers its message, which it then pays; where it does not, or where
the class has no message, the turn passes on, with the class's weight added to its deficit or, without a message, with its deficit
dropped. [spec/11_quiwen_fabric.md] -/
def Obligations.ClassesTakeTurnsByDeficit : Prop :=
  (∀ (weight : Nat → Nat) (head : Nat → Option Nat) (t : Nat) (d : SMap Nat), t < 6 → (∀ c k, head c = some k → k ≤ 255) →
    (∃ c, c < 6 ∧ head c ≠ none) →
    (drrPick weight head 1600 t d).1 < 6 ∧ head (drrPick weight head 1600 t d).1 ≠ none)
  ∧ ∀ (weight : Nat → Nat) (head : Nat → Option Nat) (n t k : Nat) (d : SMap Nat),
    (head t = some k → k ≤ SMap.get 0 d t → drrPick weight head (n + 1) t d = (t, SMap.set 0 d t (SMap.get 0 d t - k)))
    ∧ (head t = some k → SMap.get 0 d t < k → 1 ≤ weight t →
      drrPick weight head (n + 1) t d = drrPick weight head n ((t + 1) % 6) (SMap.mod 0 d t fun c => c + weight t))
    ∧ (head t = none → drrPick weight head (n + 1) t d = drrPick weight head n ((t + 1) % 6) (SMap.erase d t))

/-! ### Partitions and accounts -/

/-- A write of partition_select and then of a partition op, both accepted; u is the state between them. -/
structure Sys2Proof.Machine.State.Selects (s u : State) (acc part op : Nat) : Prop where
  wf : Regs.wf s.regs = true
  number : part < 16
  first : s.TakesScalar acc 0x7001 1 part
  between : u = ((s.marked acc).setReg 0x7001 1 part).saysDone acc 0x7001 1
  second : u.TakesScalar acc 0x7001 2 op

/-- PARTITION_CREATE of a NONE partition clears its counters, account and settings and makes it ACTIVE; of another it
changes neither. TEARDOWN of an ACTIVE partition disables its queue pairs, kills its contexts and goes on with its
streams, pins and tables as far as it can: while the group of a step waits to open, the next step waits; with none of them left the
partition is NONE; of another it changes nothing.
FUNCTION_LEVEL_RESET of a virtual function resets it; of the PF every ACTIVE partition is torn down first; the entries of
the function's queue pairs return to their defaults. ENERGY_ESTIMATE adds to the energy of each of the 17 accounts its share, and the
shares of an estimate together are, in whole mJ, from 97 % to 103 % of the input energy of the window; ENERGY_CALIBRATION rescales the
coefficients from what was given and measured since the last one. The estimates, the idle energy and the rescaling are the model's free
functions, and the cut and the rest of the system account its reading (log entry 11).
[spec/12_partitions_scheduling.md; spec/13_host_interface_dictionary.md] -/
def Obligations.PartitionsBeginAndEnd : Prop :=
  (∀ (s u : State) (acc p : Nat), s.Selects u acc p 1 →
    (s.partState p = 0 → ∃ t, exec (.partitionCreate acc p) s = .next t
      ∧ t = (let v := ((u.marked acc).clearRegs (partCounters p ++ partSettings p)).setReg (0x7010 + p) 1 1
          State.saysDone { v with strm := { v.strm with
            ingress := SMap.erase (SMap.erase s.strm.ingress (2 * p)) (2 * p + 1)
            egress := SMap.erase (SMap.erase s.strm.egress (2 * p)) (2 * p + 1) } } acc 0x7001 2)
      ∧ t.partState p = 1 ∧ (∀ k, 1 ≤ k → k ≤ 16 → t.reg (0x7810 + p) k = 0))
    ∧ (s.partState p ≠ 0 → exec (.partitionCreate acc p) s = .next ((u.marked acc).saysDone acc 0x7001 2)))
  ∧ (∀ (s u : State) (acc p : Nat), s.Selects u acc p 2 →
    (s.partState p = 1 →
      let v := (List.range 16).foldl (fun s q => s.writeEnable (p + 1) q 0) ((u.marked acc).setReg (0x7010 + p) 1 2)
      exec (.teardown acc p) s =
        .next ((((v.partCtxs p).foldl (fun s x => s.killCtx x) v).settleOps.tearGo p).saysDone acc 0x7001 2))
    ∧ (s.partState p = 1 → s.ctxOps = [] → s.sl.groups = [] → s.partCtxs p = [] → s.partStacks p = [] → s.ownTables p = [] →
      ∃ t, exec (.teardown acc p) s = .next t ∧ t.partState p = 0)
    ∧ (s.partState p ≠ 1 → exec (.teardown acc p) s = .next ((u.marked acc).saysDone acc 0x7001 2)))
  ∧ (∀ (s : State) (f : Nat), f < 17 → f ≠ 0 →
    exec (.functionLevelReset f) s = .next (s.whenFetched fun _ => (s.resetFn f).settleOps.tearSettle))
  ∧ (∀ s : State, exec (.functionLevelReset 0) s =
    .next (s.whenFetched fun _ => (((List.range 16).foldl (fun s p => s.tearDown p) s).resetFn 0).settleOps.tearSettle))
  ∧ (∀ (s : State) (p : Nat), s.partState p = 2 → s.partCtxs p = [] → s.tearing p = false → (s.tearStreams p).tearing p = true →
    s.tearGo p = s.tearStreams p)
  ∧ (∀ (s : State) (f q k : Nat), f < 17 → q < 16 → 1 ≤ k → k ≤ 16 → Regs.wf s.regs = true →
    (s.resetFn f).qp f q k = State.reset.qp f q k)
  ∧ (∀ s : State, ∃ t, exec .energyEstimate s = .next t
    ∧ (let u := s.busyAll
      let rise (a : Nat) : List Nat := (u.accountOf a).zipIdx.map fun c => c.1 - (SMap.get [] u.pow.acctSeen a).getD c.2 0
      let raw := (List.range 17).map fun a => Config.energyOf (rise a) (BitVec.ofNat 32 (u.reg 0x7800 5))
      let given := energyShares raw (Config.idleEnergy u.free) (u.reg 0x2010 3)
      (∀ a, a < 17 → t.reg (0x7810 + a) 14 = (u.charge a 14 (given.getD a 0)).reg (0x7810 + a) 14)
      ∧ (∀ a k, a < 17 → k ≠ 14 → k < 256 → t.reg (0x7810 + a) k = u.reg (0x7810 + a) k)
      ∧ t.pow.energyGiven = u.pow.energyGiven + given.sum ∧ t.pow.energyIn = u.pow.energyIn + u.reg 0x2010 3) ∧ t.mem = s.mem)
  ∧ (∀ (raw : List Nat) (idle e : Nat), raw.length = 17 →
    97 * e / 1000000 ≤ (energyShares raw idle e).sum ∧ (energyShares raw idle e).sum ≤ 103 * e / 1000000)
  ∧ ∀ s : State, exec .energyCalibration s = .next
    (State.setReg { s with pow := { s.pow with energyGiven := 0, energyIn := 0 } } 0x7800 5
      (Config.energyScale s.pow.energyGiven (s.pow.energyIn / 10000) (BitVec.ofNat 32 (s.reg 0x7800 5))).toNat)

/-! ### Contexts -/

/-- d is a context command with an op at the front of a pair, no context command waits, and no core is handed over. -/
structure Sys2Proof.Machine.State.CtxFront (s : State) (f q : Nat) (d : Desc) (op : Nat) : Prop where
  front : s.Front f q d
  kind : descKind d = 3
  code : descOp d = op
  alone : s.ctxOps = []
  here : s.av.handover = none

/-- The context command at the front of a pair, whichever it is but KILL, answers t. -/
def Sys2Proof.Machine.State.CtxAnswers (s : State) (f q : Nat) (d : Desc) (t : State) : Prop :=
  (s.CtxFront f q d 1 → exec (.contextCreate f q) s = .next t)
  ∧ (s.CtxFront f q d 3 → exec (.swap f q) s = .next t)
  ∧ (s.CtxFront f q d 4 → exec (.switch f q) s = .next t)
  ∧ (s.CtxFront f q d 5 → exec (.ctxExport f q) s = .next t)
  ∧ (s.CtxFront f q d 6 → exec (.ctxImport f q) s = .next t)

/-- A context command that fails a check at its acceptance completes with status fault; one that waits for the header that its checks
read in another module is not taken. Otherwise it is taken, and, with nothing that blocks it, it is checked again and completes with the status of the check that fails; else CREATE makes
the context BINDING on its core, with its partition and seed, and waits where its window is still being filled with zeros; SWAP waits
for the weir point of an outgoing context that
runs, spills one that is parked, and without one begins to restore the incoming one, which is RESTORING where it is not
intact in its place; SWITCH waits for the weir point, and its context is the one that the core goes on with there; EXPORT copies the
image, or completes with error where it is uncorrectable; IMPORT makes a SWAPPED context of an image, or completes with error where
that is uncorrectable. What such a command reads of another module it waits for. KILL, which is checked at once, ends the context's
commands and jobs and clears it: an IDLE one becomes KILLING at once. [spec/12_partitions_scheduling.md;
spec/05_programs_cisterns_schedules.md] -/
def Obligations.ContextCommandsRun : Prop :=
  (∀ (s : State) (f q : Nat) (d : Desc),
    let o : CtxOp := ⟨f, q, s.headAfter f q d, d, .blocked, s.now⟩
    let v : State := s.popDesc f q d
    let looked (r : State) : State := (r.opReads o).foldl (fun r x => r.peekAsk x.1 x.2) r
    let a := looked v
    let w : State := { a with ctxOps := [o] }
    let u := looked w
    let n := coCtx d
    let x := u.ctx n
    let runs (r : State) : Prop := s.CtxAnswers f q d (s.whenFetched fun _ => (w.whenFetched fun _ => r).beginCopy)
    (a.fab.wanted ≠ s.fab.wanted → s.CtxAnswers f q d (s.whenFetched fun _ => a))
    ∧ (a.opDenied o = true → s.CtxAnswers f q d (s.whenFetched fun _ => a.complete f q d (s.headAfter f q d) stFault))
    ∧ (a.opDenied o = false →
      (w.opBlocked o = true → s.CtxAnswers f q d (s.whenFetched fun _ => w))
      ∧ (w.opBlocked o = false →
        (∀ st, u.opFails o = some st → runs (u.endOp o st))
        ∧ (u.opFails o = none →
          (descOp d = 1 → runs (u.createCtx o) ∧ ((u.createCtx o).ctx n).st = .binding ∧ ((u.createCtx o).ctx n).part = o.part
            ∧ ((u.createCtx o).ctx n).core = coCore d
            ∧ ((u.createCtx o).ctx n).seed = BitVec.ofNat 64 (if coSeed d = 0 then s.reg (0x4810 + o.part) 1 else coSeed d)
            ∧ (u.createCtx o).ctxOps = [{ o with phase := .bind }])
          ∧ (descOp d = 3 →
            (coOut d ≠ noCtx → (u.ctx (coOut d)).st = .running → runs { u with ctxOps := [{ o with phase := .weir }] })
            ∧ (coOut d ≠ noCtx → (u.ctx (coOut d)).st ≠ .running → runs (u.beginSpill (coOut d) o))
            ∧ (coOut d = noCtx → runs (u.beginRestore o))
            ∧ (coOut d = noCtx → n ≠ noCtx → x.st = .swapped → u.coreTakes (u.restoreAt o).1 = true →
              (x.mid = true → x.core / 32 = (u.restoreAt o).1 / 32) → (x.intact = false ∨ coSame d = false) →
              ((u.beginRestore o).ctx n).st = .restoring ∧ ((u.beginRestore o).ctx n).core = (u.restoreAt o).1
                ∧ (u.beginRestore o).ctxOps = [{ o with phase := .restore }]))
          ∧ (descOp d = 4 → runs { u with ctxOps := [{ o with phase := .weir }] }
            ∧ State.switchFor { u with ctxOps := [{ o with phase := .weir }] } (u.physOf x.core) = some n)
          ∧ (descOp d = 5 → runs (u.exportCtx o))
          ∧ (descOp d = 6 →
            let r := u.readMem o.part (some o.part) (coImage d) 64 false []
            (r.2.lost ≠ [] → runs ((r.1.bindRead o.part (coProg d) 64).1.endOp o stError))
            ∧ (r.2.lost = [] → runs (u.importCtx o) ∧ ((u.importCtx o).ctx n).st = .swapped ∧ ((u.importCtx o).ctx n).part = o.part
              ∧ ((u.importCtx o).ctx n).core = coCore d ∧ ((u.importCtx o).ctx n).save = coImage d
              ∧ ((u.importCtx o).ctx n).weir = imWeir (BitVec.ofNat 512 (leNat r.2.bytes)) ∧ (u.importCtx o).ctxOps = []))))))
  ∧ ∀ (s : State) (f q : Nat) (d : Desc), s.Front f q d → descKind d = 3 → descOp d = 2 →
    let o : CtxOp := ⟨f, q, s.headAfter f q d, d, .clear, s.now⟩
    let u : State := { s.popDesc f q d with ctxOps := s.ctxOps ++ [o] }
    (∀ st, u.opFails o = some st → exec (.kill f q) s = .next (u.endOp o st))
    ∧ (u.opFails o = none → exec (.kill f q) s = .next (u.killCtx (coCtx d)).settleOps)
    ∧ (u.opFails o = none → s.ctxOps = [] → s.av.handover = none → (s.ctx (coCtx d)).st = .idle → (s.ctx (coCtx d)).job = none →
      (s.ctx (coCtx d)).queue = [] → (∀ k, s.batches k = []) →
      ∃ t, exec (.kill f q) s = .next t ∧ (t.ctx (coCtx d)).st = .killing ∧ t.ctxOps = [o] ∧ t.jobs = s.jobs)

/-- BINDING_COMPLETE loads the manifest of a context that is being bound, which comes to rest, completes its CREATE, and
lets its core go on; RESTORE_COMPLETE ends the restore, but not before the zero-fill of the window has ended; both wait for what they
read of another module.
SPILL_COMPLETE ends the swap-out, once its permit is held where its image needs one, and the SWAP goes on;
ZERO_FILL_COMPLETE of a KILLING context frees it, which then has its reset state.
Each changes nothing where no such command is under way. ALL_BLOCKED of a core all of whose resident contexts have been
blocked for blocked_time, with a SWAPPED context of one of their partitions that has an invocation waiting, counts and
reports it, once; where one of these does not hold it changes nothing. [spec/12_partitions_scheduling.md;
spec/05_programs_cisterns_schedules.md] -/
def Obligations.ContextEventsComplete : Prop :=
  (∀ (s : State) (x : Nat) (ue : List Nat),
    ((s.opIn .bind fun o => coCtx o.desc = x) = none → exec (.bindingComplete x ue) s = .next s)
    ∧ ((s.opIn .restore fun o => coCtx o.desc = x) = none → exec (.restoreComplete x ue) s = .next s)
    ∧ ∀ o : CtxOp,
      ((s.opIn .bind fun o => coCtx o.desc = x) = some o →
        exec (.bindingComplete x ue) s = .next (s.whenFetched fun _ =>
          ((((s.loadAll x ue).restCtx x).endOp o stCompleted).kick (s.physOf (s.ctx x).core)).settleOps))
      ∧ ((s.opIn .restore fun o => coCtx o.desc = x) = some o →
        let c := s.ctx x
        let waits := s.fillPending (s.physOf c.core) x c.rowBase (hdRowSpan c.header) c.handleBase (hdHandleCount c.header)
        (waits = true → exec (.restoreComplete x ue) s = .next s)
        ∧ (waits = false → exec (.restoreComplete x ue) s = .next (s.whenFetched fun _ => (s.finishRestore o ue).settleOps))))
  ∧ (∀ (s : State) (x : Nat) (up : Upsets),
    ((s.opIn .spill fun o => coOut o.desc = x) = none → exec (.spillComplete x up) s = .next s)
    ∧ ∀ o : CtxOp, (s.opIn .spill fun o => coOut o.desc = x) = some o →
      (s.imageSize x ≤ 1024 * s.reg 0x2000 5 ∨ s.holdsPermit ⟨.hbm, .spill x⟩ = true →
        exec (.spillComplete x up) s = .next (s.finishSpill o up).settleOps)
      ∧ (1024 * s.reg 0x2000 5 < s.imageSize x → s.holdsPermit ⟨.hbm, .spill x⟩ = false → exec (.spillComplete x up) s = .next s))
  ∧ (∀ (s : State) (x : Nat),
    ((s.ctx x).st = .killing → exec (.zeroFillComplete x) s = .next (s.releaseCtx x).settleOps.tearSettle)
    ∧ ((s.ctx x).st ≠ .killing → exec (.zeroFillComplete x) s = .next s)
    ∧ (SMap.rising 0 s.ctxs = true → (s.releaseCtx x).ctx x = Ctx.init))
  ∧ ∀ (s : State) (p : Nat),
    let least := (s.residents p).foldl (fun m q => min m (s.now - q.2.blockedFrom)) s.now
    (s.residents p ≠ [] → (s.core p).csq.said = false → (∀ q ∈ s.residents p, q.2.blocked = true) →
      usCycles (s.reg 0x7000 2) ≤ least →
      (∀ x c, s.waitingSwapped p = some (x, c) → exec (.allBlocked p) s =
        .next (((s.bump (0x7010 + c.part) 12 1).modCsq p fun q => { q with said := true }).blockedEvent p x (least / 400) (some c.part)
          false))
      ∧ (s.waitingSwapped p = none → exec (.allBlocked p) s = .next s))
    ∧ (s.residents p = [] ∨ (s.core p).csq.said = true ∨ (∃ q ∈ s.residents p, q.2.blocked = false)
      ∨ least < usCycles (s.reg 0x7000 2) → exec (.allBlocked p) s = .next s)

/-! ### Jobs -/

/-- JOB with a whole run at the front of a pair takes its descriptors, sq_head past them, and starts the job: a context of
another partition completes it with the fault status; one that is FREE, being killed or FAULTED ends it ABORTED, with a free value for
the cause, which the spec does not name (log entry 43); one on a stopped die with die stop; otherwise its invocations are queued. With part of a
run it waits, and a run that is not allowed ends with a free status (R12; log entry 65). ARGUMENT_LOAD of an invocation that waits loads
its rows, or asks another module for each; an unmapped or unreadable row ends the job ABORTED with cause argument, and
with more rows than the handle has the core's slots are left at free values and the invocation goes on (R12; log entry
65). RESULT_STORE of a job whose groups have opened with P past their marks stores
the rows of every invocation and then its record; before, it changes nothing. JOB_ABORT of a job of the pair with the tag
that is not decided aborts it with cause abort and completes; without one it completes with the state status, and one
that is decided is counted as a late abort.
[spec/13_host_interface_dictionary.md; spec/12_partitions_scheduling.md] -/
def Obligations.JobsRunAndStoreResults : Prop :=
  (∀ (s : State) (f q : Nat) (d : Desc), s.Front f q d → descKind d = 1 →
    (jobRun 16 [] (s.pair f q).fetched = .bad → exec (.job f q) s =
      .next (((s.popDesc f q d).freeEnd f q d (s.headAfter f q d)).settle f q))
    ∧ (jobRun 16 [] (s.pair f q).fetched = .part → exec (.job f q) s = .next s)
    ∧ ∀ ds, jobRun 16 [] (s.pair f q).fetched = .whole ds →
      let u := s.popDesc f q d
      let v := u.setPair f q { u.pair f q with fetched := (u.pair f q).fetched.drop (ds.length - 1) }
      let w := v.setQp f q 12 ((v.qp f q 12 + (ds.length - 1)) % 2 ^ 32)
      exec (.job f q) s = .next ((w.takeJob f q (w.qp f q 12) ds).settle f q))
  ∧ (∀ (s : State) (f q : Nat), (s.pair f q).fetched = [] → exec (.job f q) s = .next s)
  ∧ (∀ (s : State) (f q h : Nat) (d : Desc) (l : List Desc),
    let ds := d :: l
    let b := newJob s.nextJob f q h (f - 1) (jbStep d) (descTag d) (descIrq d) (ds.map (invOf s.nextJob)) none
    let u := s.pinsToJob f q s.nextJob
    let v : State := { s with free := s.free + 1 }
    let ends := ((v.pinsToJob f q s.nextJob).releasePins s.nextJob).produce
      (v.jobRecord b stAborted ((Config.freeValue s.free).toNat % 9))
    ((∃ e ∈ ds, (s.ctx (jbCtx e)).st ≠ .free ∧ (s.ctx (jbCtx e)).part ≠ f - 1) → s.takeJob f q h ds = s.complete f q d h stFault)
    ∧ ((∀ e ∈ ds, (s.ctx (jbCtx e)).st = .free ∨ (s.ctx (jbCtx e)).part = f - 1) →
      ((∃ e ∈ ds, (s.ctx (jbCtx e)).st = .free ∨ (s.ctx (jbCtx e)).st = .killing ∨ (s.ctx (jbCtx e)).st = .faulted) →
        s.takeJob f q h ds = ends)
      ∧ ((∀ e ∈ ds, (s.ctx (jbCtx e)).st ≠ .free ∧ (s.ctx (jbCtx e)).st ≠ .killing ∧ (s.ctx (jbCtx e)).st ≠ .faulted) →
        ((∃ e ∈ ds, s.top.stopped.get ((s.ctx (jbCtx e)).core / 32) = true) →
          s.takeJob f q h ds = (u.releasePins s.nextJob).produce (s.jobRecord b stAborted 5))
        ∧ ((∀ e ∈ ds, s.top.stopped.get ((s.ctx (jbCtx e)).core / 32) = false) → s.takeJob f q h ds = u.startJob b))))
  ∧ (∀ (s : State) (p : Nat) (ue : List Nat),
    (s.argsWanted p = none → exec (.argumentLoad p ue) s = .next s)
    ∧ ∀ x i, s.argsWanted p = some (x, i) →
      let c := s.ctx x
      let e := (s.core p).handle (c.hnd i.argHandle)
      (hRows e < i.argRows → exec (.argumentLoad p ue) s = .next ((s.unruly p).argsDone i.job x))
      ∧ (i.argRows ≤ hRows e →
        ((∃ n, n < i.argRows ∧ s.allows (some c.part) (i.argAddr + 512 * n) 512 false = false) →
          exec (.argumentLoad p ue) s = .next (s.unmapped.abortJob i.job 8).settleOps)
        ∧ ((∀ n, n < i.argRows → s.allows (some c.part) (i.argAddr + 512 * n) 512 false = true) →
          (∀ k a, s.place i.argAddr = .remote k a → exec (.argumentLoad p ue) s =
            .next ((List.range i.argRows).foldl (fun s n => s.send { s.msgTo 3 0x0B k with addr := a + 512 * n, count := 512, row := n }
              (.load i.job x ((hBase e + n) % cisternRows))) s))
          ∧ ((∀ k a, s.place i.argAddr ≠ .remote k a) → ∀ u ok, s.loadArgs x c.part i.argAddr (hBase e) 0 ue i.argRows = (u, ok) →
            (ok = true → exec (.argumentLoad p ue) s = .next (u.argsDone i.job x))
            ∧ (ok = false → exec (.argumentLoad p ue) s = .next (u.abortJob i.job 8).settleOps)))))
  ∧ (∀ (s : State) (j : Nat) (up : Upsets),
    (s.job? j = none → exec (.resultStore j up) s = .next s)
    ∧ ∀ b, s.job? j = some b →
      (s.resultsDue b = false → exec (.resultStore j up) s = .next s)
      ∧ (s.resultsDue b = true → exec (.resultStore j up) s = .next ((((b.invs.foldl (fun s i => s.storeInv j i up) s).modJob j
            fun b => { b with invs := b.invs.map fun i => { i with stored := true } }).tryFinish j).settleOps)))
  ∧ ∀ (s : State) (f q : Nat) (d : Desc), s.Front f q d → descKind d = 2 →
    let named (b : Job) : Bool := b.fn = f && b.queue = fld d 3 0 && b.tag = fld d 31 16 && b.stack.isNone
    let u := s.popDesc f q d
    (∀ b, s.jobs.find? (fun b => named b && b.decision.isNone) = some b → exec (.jobAbort f q) s =
      .next (((u.abortJob b.id 3).complete f q d (s.headAfter f q d) stCompleted).settleOps))
    ∧ ((∀ b ∈ s.jobs, named b = false) → exec (.jobAbort f q) s = .next (u.complete f q d (s.headAfter f q d) stState))
    ∧ ((∃ b ∈ s.jobs, named b = true) → (∀ b ∈ s.jobs, named b = true → b.decision.isSome = true) →
      exec (.jobAbort f q) s = .next ((u.bump 0x6800 12 1).complete f q d (s.headAfter f q d) stState))
end

