-- ==== Sys2Proof/Laws/Maps.lean ====
section
/-! SUPPORT. Sparse maps: reading after writing, and the canonical form, which every operation on memory and on the scalar
entries keeps. -/

set_option Elab.async false

namespace Sys2Proof.Machine

variable {α : Type}

theorem SMap.get_insert_same (d : α) (m : SMap α) (k : Nat) (v : α) : SMap.get d (SMap.insert m k v) k = v := by
  induction m with
  | nil => simp [SMap.insert, SMap.get]
  | cons p m ih =>
    obtain ⟨j, a⟩ := p
    simp only [SMap.insert]
    split
    · simp [SMap.get]
    · split
      · simp [SMap.get]
      · next h => simp only [SMap.get, if_neg (Ne.symm h)]; exact ih

theorem SMap.get_insert_other (d : α) (m : SMap α) {k x : Nat} (v : α) (hx : x ≠ k) :
    SMap.get d (SMap.insert m k v) x = SMap.get d m x := by
  induction m with
  | nil => simp [SMap.insert, SMap.get, hx.symm]
  | cons p m ih =>
    obtain ⟨j, a⟩ := p
    simp only [SMap.insert]
    split
    · simp [SMap.get, hx.symm]
    · split
      · next h => subst h; simp [SMap.get, hx.symm]
      · simp [SMap.get, ih]

theorem SMap.get_erase_other (d : α) (m : SMap α) {k x : Nat} (hx : x ≠ k) :
    SMap.get d (SMap.erase m k) x = SMap.get d m x := by
  induction m with
  | nil => rfl
  | cons p m ih =>
    obtain ⟨j, a⟩ := p
    simp only [SMap.erase]
    split
    · next h => subst h; simp [SMap.get, hx.symm]
    · simp [SMap.get, ih]

theorem SMap.rising_mono {lo hi : Nat} (h : lo ≤ hi) {m : SMap α} (hm : SMap.rising hi m = true) : SMap.rising lo m = true := by
  cases m with
  | nil => rfl
  | cons p m =>
    obtain ⟨j, a⟩ := p
    simp only [SMap.rising, Bool.and_eq_true, decide_eq_true_eq] at hm ⊢
    exact ⟨by omega, hm.2⟩

theorem SMap.get_of_rising (d : α) {lo k : Nat} {m : SMap α} (hm : SMap.rising lo m = true) (hk : k < lo) : SMap.get d m k = d := by
  induction m generalizing lo with
  | nil => rfl
  | cons p m ih =>
    obtain ⟨j, a⟩ := p
    simp only [SMap.rising, Bool.and_eq_true, decide_eq_true_eq] at hm
    simp only [SMap.get]
    rw [if_neg (by omega)]
    exact ih hm.2 (by omega)

theorem SMap.get_erase_same (d : α) {lo : Nat} {m : SMap α} (hm : SMap.rising lo m = true) (k : Nat) :
    SMap.get d (SMap.erase m k) k = d := by
  induction m generalizing lo with
  | nil => rfl
  | cons p m ih =>
    obtain ⟨j, a⟩ := p
    simp only [SMap.rising, Bool.and_eq_true, decide_eq_true_eq] at hm
    simp only [SMap.erase]
    split
    · next h => exact SMap.get_of_rising d hm.2 (by omega)
    · next h => simp only [SMap.get, if_neg h]; exact ih hm.2

/-- Reading the key written gives the value written. -/
theorem SMap.get_set_same [DecidableEq α] (d : α) {lo : Nat} {m : SMap α} (hm : SMap.rising lo m = true) (k : Nat) (v : α) :
    SMap.get d (SMap.set d m k v) k = v := by
  unfold SMap.set
  split
  · next h => rw [h]; exact SMap.get_erase_same d hm k
  · exact SMap.get_insert_same d m k v

/-- Every other key reads as before. -/
theorem SMap.get_set_other [DecidableEq α] (d e : α) (m : SMap α) {k x : Nat} (v : α) (hx : x ≠ k) :
    SMap.get d (SMap.set e m k v) x = SMap.get d m x := by
  unfold SMap.set
  split
  · exact SMap.get_erase_other d m hx
  · exact SMap.get_insert_other d m v hx

theorem SMap.rising_erase {lo : Nat} {m : SMap α} (hm : SMap.rising lo m = true) (k : Nat) :
    SMap.rising lo (SMap.erase m k) = true := by
  induction m generalizing lo with
  | nil => rfl
  | cons p m ih =>
    obtain ⟨j, a⟩ := p
    simp only [SMap.rising, Bool.and_eq_true, decide_eq_true_eq] at hm
    simp only [SMap.erase]
    split
    · exact SMap.rising_mono (by omega) hm.2
    · simp only [SMap.rising, Bool.and_eq_true, decide_eq_true_eq]; exact ⟨hm.1, ih hm.2⟩

theorem SMap.rising_insert {lo : Nat} {m : SMap α} (hm : SMap.rising lo m = true) (k : Nat) (v : α) (hk : lo ≤ k) :
    SMap.rising lo (SMap.insert m k v) = true := by
  induction m generalizing lo with
  | nil => simp [SMap.insert, SMap.rising, hk]
  | cons p m ih =>
    obtain ⟨j, a⟩ := p
    simp only [SMap.rising, Bool.and_eq_true, decide_eq_true_eq] at hm
    simp only [SMap.insert]
    split
    · simp only [SMap.rising, Bool.and_eq_true, decide_eq_true_eq]; exact ⟨hk, by omega, hm.2⟩
    · split
      · next h => subst h; simp only [SMap.rising, Bool.and_eq_true, decide_eq_true_eq]; exact ⟨hk, hm.2⟩
      · simp only [SMap.rising, Bool.and_eq_true, decide_eq_true_eq]; exact ⟨hm.1, ih hm.2 (by omega)⟩

theorem SMap.mem_erase {m : SMap α} {k : Nat} {q : Nat × α} (h : q ∈ SMap.erase m k) : q ∈ m := by
  induction m with
  | nil => exact h
  | cons p m ih =>
    obtain ⟨j, a⟩ := p
    simp only [SMap.erase] at h
    split at h
    · exact List.mem_cons_of_mem _ h
    · rcases List.mem_cons.1 h with h | h
      · exact h ▸ List.mem_cons_self ..
      · exact List.mem_cons_of_mem _ (ih h)

theorem SMap.mem_insert {m : SMap α} {k : Nat} {v : α} {q : Nat × α} (h : q ∈ SMap.insert m k v) : q = (k, v) ∨ q ∈ m := by
  induction m with
  | nil => simpa [SMap.insert] using h
  | cons p m ih =>
    obtain ⟨j, a⟩ := p
    simp only [SMap.insert] at h
    split at h
    · exact List.mem_cons.1 h
    · split at h
      · exact (List.mem_cons.1 h).imp id (List.mem_cons_of_mem _)
      · rcases List.mem_cons.1 h with h | h
        · exact .inr (h ▸ List.mem_cons_self ..)
        · exact (ih h).imp id (List.mem_cons_of_mem _)

/-- A write keeps the canonical form. -/
theorem SMap.wf_set [DecidableEq α] {d : α} {m : SMap α} (hm : SMap.wf d m = true) (k : Nat) (v : α) :
    SMap.wf d (SMap.set d m k v) = true := by
  simp only [SMap.wf, Bool.and_eq_true, List.all_eq_true, decide_eq_true_eq] at hm ⊢
  unfold SMap.set
  split
  · exact ⟨SMap.rising_erase hm.1 k, fun q hq => hm.2 q (SMap.mem_erase hq)⟩
  · next h =>
    refine ⟨SMap.rising_insert hm.1 k v (Nat.zero_le k), fun q hq => ?_⟩
    rcases SMap.mem_insert hq with rfl | hq
    · exact h
    · exact hm.2 q hq

theorem SMap.rising_filter {lo : Nat} {m : SMap α} (hm : SMap.rising lo m = true) (p : Nat × α → Bool) :
    SMap.rising lo (m.filter p) = true := by
  induction m generalizing lo with
  | nil => rfl
  | cons q m ih =>
    obtain ⟨j, a⟩ := q
    simp only [SMap.rising, Bool.and_eq_true, decide_eq_true_eq] at hm
    simp only [List.filter]
    split
    · simp only [SMap.rising, Bool.and_eq_true, decide_eq_true_eq]; exact ⟨hm.1, ih hm.2⟩
    · exact SMap.rising_mono (by omega) (ih hm.2)

/-- Dropping entries keeps the canonical form. -/
theorem SMap.wf_filter [DecidableEq α] {d : α} {m : SMap α} (hm : SMap.wf d m = true) (p : Nat × α → Bool) :
    SMap.wf d (m.filter p) = true := by
  simp only [SMap.wf, Bool.and_eq_true, List.all_eq_true] at hm ⊢
  exact ⟨SMap.rising_filter hm.1 p, fun q hq => hm.2 q (List.mem_filter.1 hq).1⟩

/-! ### Memory -/

theorem Memory.wf_put {m : List Host.Cell} (hm : Memory.wf m = true) (a : Nat) (bs : List Byte) :
    Memory.wf (memPut m a bs) = true := by
  induction bs generalizing m a with
  | nil => exact hm
  | cons b bs ih => exact ih (SMap.wf_set hm a b) (a + 1)

theorem Memory.wf_hostStores {m : List Host.Cell} (hm : Memory.wf m = true) (cs : Cells) :
    Memory.wf (hostStores m cs) = true := by
  induction cs generalizing m with
  | nil => exact hm
  | cons c cs ih =>
    obtain ⟨a, b⟩ := c
    simp only [hostStores]
    apply ih
    split
    · exact SMap.wf_set hm a b
    · exact hm

theorem Memory.wf_filter {m : List Host.Cell} (hm : Memory.wf m = true) (p : Host.Cell → Bool) :
    Memory.wf (m.filter p) = true := SMap.wf_filter hm p

theorem Memory.rising {m : List Host.Cell} (hm : Memory.wf m = true) : SMap.rising 0 m = true := by
  simp only [Memory.wf, SMap.wf, Bool.and_eq_true] at hm; exact hm.1

/-- Bytes stored before an address do not touch it. -/
theorem get_memPut_other (m : List Host.Cell) (a : Nat) (bs : List Byte) {x : Nat} (hx : x < a ∨ a + bs.length ≤ x) :
    SMap.get 0 (memPut m a bs) x = SMap.get 0 m x := by
  induction bs generalizing m a with
  | nil => rfl
  | cons b bs ih =>
    simp only [memPut, List.length_cons] at hx ⊢
    rw [ih _ _ (by omega), SMap.get_set_other]
    omega

/-- Reading a byte of those stored gives it. -/
theorem get_memPut_same {m : List Host.Cell} (hm : Memory.wf m = true) (a : Nat) (bs : List Byte) {i : Nat}
    (hi : i < bs.length) : SMap.get 0 (memPut m a bs) (a + i) = bs[i] := by
  induction bs generalizing m a i with
  | nil => simp at hi
  | cons b bs ih =>
    simp only [memPut]
    cases i with
    | zero =>
      rw [get_memPut_other _ _ _ (by omega)]
      exact SMap.get_set_same 0 (Memory.rising hm) a b
    | succ i =>
      have := ih (SMap.wf_set hm a b) (a + 1) (i := i) (by simpa using hi)
      rw [show a + (i + 1) = a + 1 + i by omega, this]
      rfl

/-! ### Scalar entries -/

theorem Regs.rising {m : SMap Nat} (hm : Regs.wf m = true) : SMap.rising 0 m = true := by
  simp only [Regs.wf, Bool.and_eq_true] at hm; exact hm.1

theorem Regs.wf_set {m : SMap Nat} (hm : Regs.wf m = true) (k v : Nat) :
    Regs.wf (SMap.set (regDefault k) m k (v % 2 ^ regBits k)) = true := by
  simp only [Regs.wf, Bool.and_eq_true, List.all_eq_true, decide_eq_true_eq] at hm ⊢
  unfold SMap.set
  split
  · exact ⟨SMap.rising_erase hm.1 k, fun q hq => hm.2 q (SMap.mem_erase hq)⟩
  · next h =>
    refine ⟨SMap.rising_insert hm.1 k _ (Nat.zero_le k), fun q hq => ?_⟩
    rcases SMap.mem_insert hq with rfl | hq
    · exact ⟨h, Nat.mod_lt _ (Nat.two_pow_pos _)⟩
    · exact hm.2 q hq

theorem Regs.wf_erase {m : SMap Nat} (hm : Regs.wf m = true) (k : Nat) : Regs.wf (SMap.erase m k) = true := by
  simp only [Regs.wf, Bool.and_eq_true, List.all_eq_true] at hm ⊢
  exact ⟨SMap.rising_erase hm.1 k, fun q hq => hm.2 q (SMap.mem_erase hq)⟩

theorem Regs.wf_filter {m : SMap Nat} (hm : Regs.wf m = true) (p : Nat × Nat → Bool) : Regs.wf (m.filter p) = true := by
  simp only [Regs.wf, Bool.and_eq_true, List.all_eq_true] at hm ⊢
  exact ⟨SMap.rising_filter hm.1 p, fun q hq => hm.2 q (List.mem_filter.1 hq).1⟩

/-- An accessor's own copy has the entry's width. -/
theorem regBits_akey (acc idx sub : Nat) : regBits (akey acc idx sub) = regBits (dkey idx sub) := by
  have h1 : akey acc idx sub / 256 % 65536 = dkey idx sub / 256 % 65536 := by simp only [akey]; omega
  have h2 : akey acc idx sub % 256 = dkey idx sub % 256 := by simp only [akey]; omega
  simp only [regBits, h1, h2]

end Sys2Proof.Machine
end

