-- ==== Sys2Proof/Laws/State.lean ====
section
/-! SUPPORT. What the simplest updates of the state leave alone: one lemma for each update and each field, all true by
definition. -/

set_option Elab.async false

namespace Sys2Proof.Machine

/-! setReg writes regs alone. -/

@[simp] theorem State.setReg_pending (s : State) (idx sub v : Nat) : (s.setReg idx sub v).pending = s.pending := rfl
@[simp] theorem State.setReg_now (s : State) (idx sub v : Nat) : (s.setReg idx sub v).now = s.now := rfl
@[simp] theorem State.setReg_free (s : State) (idx sub v : Nat) : (s.setReg idx sub v).free = s.free := rfl
@[simp] theorem State.setReg_top (s : State) (idx sub v : Nat) : (s.setReg idx sub v).top = s.top := rfl
@[simp] theorem State.setReg_alloc (s : State) (idx sub v : Nat) : (s.setReg idx sub v).alloc = s.alloc := rfl
@[simp] theorem State.setReg_pow (s : State) (idx sub v : Nat) : (s.setReg idx sub v).pow = s.pow := rfl
@[simp] theorem State.setReg_blobs (s : State) (idx sub v : Nat) : (s.setReg idx sub v).blobs = s.blobs := rfl
@[simp] theorem State.setReg_mem (s : State) (idx sub v : Nat) : (s.setReg idx sub v).mem = s.mem := rfl
@[simp] theorem State.setReg_cores (s : State) (idx sub v : Nat) : (s.setReg idx sub v).cores = s.cores := rfl
@[simp] theorem State.setReg_ctxs (s : State) (idx sub v : Nat) : (s.setReg idx sub v).ctxs = s.ctxs := rfl
@[simp] theorem State.setReg_jobs (s : State) (idx sub v : Nat) : (s.setReg idx sub v).jobs = s.jobs := rfl
@[simp] theorem State.setReg_nextJob (s : State) (idx sub v : Nat) : (s.setReg idx sub v).nextJob = s.nextJob := rfl
@[simp] theorem State.setReg_ctxOps (s : State) (idx sub v : Nat) : (s.setReg idx sub v).ctxOps = s.ctxOps := rfl
@[simp] theorem State.setReg_tiers (s : State) (idx sub v : Nat) : (s.setReg idx sub v).tiers = s.tiers := rfl
@[simp] theorem State.setReg_sl (s : State) (idx sub v : Nat) : (s.setReg idx sub v).sl = s.sl := rfl
@[simp] theorem State.setReg_tab (s : State) (idx sub v : Nat) : (s.setReg idx sub v).tab = s.tab := rfl
@[simp] theorem State.setReg_fab (s : State) (idx sub v : Nat) : (s.setReg idx sub v).fab = s.fab := rfl
@[simp] theorem State.setReg_strm (s : State) (idx sub v : Nat) : (s.setReg idx sub v).strm = s.strm := rfl
@[simp] theorem State.setReg_host (s : State) (idx sub v : Nat) : (s.setReg idx sub v).host = s.host := rfl
@[simp] theorem State.setReg_mgmt (s : State) (idx sub v : Nat) : (s.setReg idx sub v).mgmt = s.mgmt := rfl
@[simp] theorem State.setReg_av (s : State) (idx sub v : Nat) : (s.setReg idx sub v).av = s.av := rfl
@[simp] theorem State.setReg_fw (s : State) (idx sub v : Nat) : (s.setReg idx sub v).fw = s.fw := rfl
@[simp] theorem State.setReg_tap (s : State) (idx sub v : Nat) : (s.setReg idx sub v).tap = s.tap := rfl

/-! setAreg writes regs alone. -/

@[simp] theorem State.setAreg_pending (s : State) (acc idx sub v : Nat) : (s.setAreg acc idx sub v).pending = s.pending := rfl
@[simp] theorem State.setAreg_now (s : State) (acc idx sub v : Nat) : (s.setAreg acc idx sub v).now = s.now := rfl
@[simp] theorem State.setAreg_free (s : State) (acc idx sub v : Nat) : (s.setAreg acc idx sub v).free = s.free := rfl
@[simp] theorem State.setAreg_top (s : State) (acc idx sub v : Nat) : (s.setAreg acc idx sub v).top = s.top := rfl
@[simp] theorem State.setAreg_alloc (s : State) (acc idx sub v : Nat) : (s.setAreg acc idx sub v).alloc = s.alloc := rfl
@[simp] theorem State.setAreg_pow (s : State) (acc idx sub v : Nat) : (s.setAreg acc idx sub v).pow = s.pow := rfl
@[simp] theorem State.setAreg_blobs (s : State) (acc idx sub v : Nat) : (s.setAreg acc idx sub v).blobs = s.blobs := rfl
@[simp] theorem State.setAreg_mem (s : State) (acc idx sub v : Nat) : (s.setAreg acc idx sub v).mem = s.mem := rfl
@[simp] theorem State.setAreg_cores (s : State) (acc idx sub v : Nat) : (s.setAreg acc idx sub v).cores = s.cores := rfl
@[simp] theorem State.setAreg_ctxs (s : State) (acc idx sub v : Nat) : (s.setAreg acc idx sub v).ctxs = s.ctxs := rfl
@[simp] theorem State.setAreg_jobs (s : State) (acc idx sub v : Nat) : (s.setAreg acc idx sub v).jobs = s.jobs := rfl
@[simp] theorem State.setAreg_nextJob (s : State) (acc idx sub v : Nat) : (s.setAreg acc idx sub v).nextJob = s.nextJob := rfl
@[simp] theorem State.setAreg_ctxOps (s : State) (acc idx sub v : Nat) : (s.setAreg acc idx sub v).ctxOps = s.ctxOps := rfl
@[simp] theorem State.setAreg_tiers (s : State) (acc idx sub v : Nat) : (s.setAreg acc idx sub v).tiers = s.tiers := rfl
@[simp] theorem State.setAreg_sl (s : State) (acc idx sub v : Nat) : (s.setAreg acc idx sub v).sl = s.sl := rfl
@[simp] theorem State.setAreg_tab (s : State) (acc idx sub v : Nat) : (s.setAreg acc idx sub v).tab = s.tab := rfl
@[simp] theorem State.setAreg_fab (s : State) (acc idx sub v : Nat) : (s.setAreg acc idx sub v).fab = s.fab := rfl
@[simp] theorem State.setAreg_strm (s : State) (acc idx sub v : Nat) : (s.setAreg acc idx sub v).strm = s.strm := rfl
@[simp] theorem State.setAreg_host (s : State) (acc idx sub v : Nat) : (s.setAreg acc idx sub v).host = s.host := rfl
@[simp] theorem State.setAreg_mgmt (s : State) (acc idx sub v : Nat) : (s.setAreg acc idx sub v).mgmt = s.mgmt := rfl
@[simp] theorem State.setAreg_av (s : State) (acc idx sub v : Nat) : (s.setAreg acc idx sub v).av = s.av := rfl
@[simp] theorem State.setAreg_fw (s : State) (acc idx sub v : Nat) : (s.setAreg acc idx sub v).fw = s.fw := rfl
@[simp] theorem State.setAreg_tap (s : State) (acc idx sub v : Nat) : (s.setAreg acc idx sub v).tap = s.tap := rfl

/-! bump writes regs alone. -/

@[simp] theorem State.bump_pending (s : State) (idx sub n : Nat) : (s.bump idx sub n).pending = s.pending := rfl
@[simp] theorem State.bump_now (s : State) (idx sub n : Nat) : (s.bump idx sub n).now = s.now := rfl
@[simp] theorem State.bump_free (s : State) (idx sub n : Nat) : (s.bump idx sub n).free = s.free := rfl
@[simp] theorem State.bump_top (s : State) (idx sub n : Nat) : (s.bump idx sub n).top = s.top := rfl
@[simp] theorem State.bump_alloc (s : State) (idx sub n : Nat) : (s.bump idx sub n).alloc = s.alloc := rfl
@[simp] theorem State.bump_pow (s : State) (idx sub n : Nat) : (s.bump idx sub n).pow = s.pow := rfl
@[simp] theorem State.bump_blobs (s : State) (idx sub n : Nat) : (s.bump idx sub n).blobs = s.blobs := rfl
@[simp] theorem State.bump_mem (s : State) (idx sub n : Nat) : (s.bump idx sub n).mem = s.mem := rfl
@[simp] theorem State.bump_cores (s : State) (idx sub n : Nat) : (s.bump idx sub n).cores = s.cores := rfl
@[simp] theorem State.bump_ctxs (s : State) (idx sub n : Nat) : (s.bump idx sub n).ctxs = s.ctxs := rfl
@[simp] theorem State.bump_jobs (s : State) (idx sub n : Nat) : (s.bump idx sub n).jobs = s.jobs := rfl
@[simp] theorem State.bump_nextJob (s : State) (idx sub n : Nat) : (s.bump idx sub n).nextJob = s.nextJob := rfl
@[simp] theorem State.bump_ctxOps (s : State) (idx sub n : Nat) : (s.bump idx sub n).ctxOps = s.ctxOps := rfl
@[simp] theorem State.bump_tiers (s : State) (idx sub n : Nat) : (s.bump idx sub n).tiers = s.tiers := rfl
@[simp] theorem State.bump_sl (s : State) (idx sub n : Nat) : (s.bump idx sub n).sl = s.sl := rfl
@[simp] theorem State.bump_tab (s : State) (idx sub n : Nat) : (s.bump idx sub n).tab = s.tab := rfl
@[simp] theorem State.bump_fab (s : State) (idx sub n : Nat) : (s.bump idx sub n).fab = s.fab := rfl
@[simp] theorem State.bump_strm (s : State) (idx sub n : Nat) : (s.bump idx sub n).strm = s.strm := rfl
@[simp] theorem State.bump_host (s : State) (idx sub n : Nat) : (s.bump idx sub n).host = s.host := rfl
@[simp] theorem State.bump_mgmt (s : State) (idx sub n : Nat) : (s.bump idx sub n).mgmt = s.mgmt := rfl
@[simp] theorem State.bump_av (s : State) (idx sub n : Nat) : (s.bump idx sub n).av = s.av := rfl
@[simp] theorem State.bump_fw (s : State) (idx sub n : Nat) : (s.bump idx sub n).fw = s.fw := rfl
@[simp] theorem State.bump_tap (s : State) (idx sub n : Nat) : (s.bump idx sub n).tap = s.tap := rfl

/-! setBlob writes blobs alone. -/

@[simp] theorem State.setBlob_pending (s : State) (idx sub : Nat) (v : List Byte) : (s.setBlob idx sub v).pending = s.pending := rfl
@[simp] theorem State.setBlob_now (s : State) (idx sub : Nat) (v : List Byte) : (s.setBlob idx sub v).now = s.now := rfl
@[simp] theorem State.setBlob_free (s : State) (idx sub : Nat) (v : List Byte) : (s.setBlob idx sub v).free = s.free := rfl
@[simp] theorem State.setBlob_top (s : State) (idx sub : Nat) (v : List Byte) : (s.setBlob idx sub v).top = s.top := rfl
@[simp] theorem State.setBlob_alloc (s : State) (idx sub : Nat) (v : List Byte) : (s.setBlob idx sub v).alloc = s.alloc := rfl
@[simp] theorem State.setBlob_pow (s : State) (idx sub : Nat) (v : List Byte) : (s.setBlob idx sub v).pow = s.pow := rfl
@[simp] theorem State.setBlob_regs (s : State) (idx sub : Nat) (v : List Byte) : (s.setBlob idx sub v).regs = s.regs := rfl
@[simp] theorem State.setBlob_mem (s : State) (idx sub : Nat) (v : List Byte) : (s.setBlob idx sub v).mem = s.mem := rfl
@[simp] theorem State.setBlob_cores (s : State) (idx sub : Nat) (v : List Byte) : (s.setBlob idx sub v).cores = s.cores := rfl
@[simp] theorem State.setBlob_ctxs (s : State) (idx sub : Nat) (v : List Byte) : (s.setBlob idx sub v).ctxs = s.ctxs := rfl
@[simp] theorem State.setBlob_jobs (s : State) (idx sub : Nat) (v : List Byte) : (s.setBlob idx sub v).jobs = s.jobs := rfl
@[simp] theorem State.setBlob_nextJob (s : State) (idx sub : Nat) (v : List Byte) : (s.setBlob idx sub v).nextJob = s.nextJob := rfl
@[simp] theorem State.setBlob_ctxOps (s : State) (idx sub : Nat) (v : List Byte) : (s.setBlob idx sub v).ctxOps = s.ctxOps := rfl
@[simp] theorem State.setBlob_tiers (s : State) (idx sub : Nat) (v : List Byte) : (s.setBlob idx sub v).tiers = s.tiers := rfl
@[simp] theorem State.setBlob_sl (s : State) (idx sub : Nat) (v : List Byte) : (s.setBlob idx sub v).sl = s.sl := rfl
@[simp] theorem State.setBlob_tab (s : State) (idx sub : Nat) (v : List Byte) : (s.setBlob idx sub v).tab = s.tab := rfl
@[simp] theorem State.setBlob_fab (s : State) (idx sub : Nat) (v : List Byte) : (s.setBlob idx sub v).fab = s.fab := rfl
@[simp] theorem State.setBlob_strm (s : State) (idx sub : Nat) (v : List Byte) : (s.setBlob idx sub v).strm = s.strm := rfl
@[simp] theorem State.setBlob_host (s : State) (idx sub : Nat) (v : List Byte) : (s.setBlob idx sub v).host = s.host := rfl
@[simp] theorem State.setBlob_mgmt (s : State) (idx sub : Nat) (v : List Byte) : (s.setBlob idx sub v).mgmt = s.mgmt := rfl
@[simp] theorem State.setBlob_av (s : State) (idx sub : Nat) (v : List Byte) : (s.setBlob idx sub v).av = s.av := rfl
@[simp] theorem State.setBlob_fw (s : State) (idx sub : Nat) (v : List Byte) : (s.setBlob idx sub v).fw = s.fw := rfl
@[simp] theorem State.setBlob_tap (s : State) (idx sub : Nat) (v : List Byte) : (s.setBlob idx sub v).tap = s.tap := rfl

/-! setBlobBit writes blobs alone. -/

@[simp] theorem State.setBlobBit_pending (s : State) (idx sub w b : Nat) : (s.setBlobBit idx sub w b).pending = s.pending := rfl
@[simp] theorem State.setBlobBit_now (s : State) (idx sub w b : Nat) : (s.setBlobBit idx sub w b).now = s.now := rfl
@[simp] theorem State.setBlobBit_free (s : State) (idx sub w b : Nat) : (s.setBlobBit idx sub w b).free = s.free := rfl
@[simp] theorem State.setBlobBit_top (s : State) (idx sub w b : Nat) : (s.setBlobBit idx sub w b).top = s.top := rfl
@[simp] theorem State.setBlobBit_alloc (s : State) (idx sub w b : Nat) : (s.setBlobBit idx sub w b).alloc = s.alloc := rfl
@[simp] theorem State.setBlobBit_pow (s : State) (idx sub w b : Nat) : (s.setBlobBit idx sub w b).pow = s.pow := rfl
@[simp] theorem State.setBlobBit_regs (s : State) (idx sub w b : Nat) : (s.setBlobBit idx sub w b).regs = s.regs := rfl
@[simp] theorem State.setBlobBit_mem (s : State) (idx sub w b : Nat) : (s.setBlobBit idx sub w b).mem = s.mem := rfl
@[simp] theorem State.setBlobBit_cores (s : State) (idx sub w b : Nat) : (s.setBlobBit idx sub w b).cores = s.cores := rfl
@[simp] theorem State.setBlobBit_ctxs (s : State) (idx sub w b : Nat) : (s.setBlobBit idx sub w b).ctxs = s.ctxs := rfl
@[simp] theorem State.setBlobBit_jobs (s : State) (idx sub w b : Nat) : (s.setBlobBit idx sub w b).jobs = s.jobs := rfl
@[simp] theorem State.setBlobBit_nextJob (s : State) (idx sub w b : Nat) : (s.setBlobBit idx sub w b).nextJob = s.nextJob := rfl
@[simp] theorem State.setBlobBit_ctxOps (s : State) (idx sub w b : Nat) : (s.setBlobBit idx sub w b).ctxOps = s.ctxOps := rfl
@[simp] theorem State.setBlobBit_tiers (s : State) (idx sub w b : Nat) : (s.setBlobBit idx sub w b).tiers = s.tiers := rfl
@[simp] theorem State.setBlobBit_sl (s : State) (idx sub w b : Nat) : (s.setBlobBit idx sub w b).sl = s.sl := rfl
@[simp] theorem State.setBlobBit_tab (s : State) (idx sub w b : Nat) : (s.setBlobBit idx sub w b).tab = s.tab := rfl
@[simp] theorem State.setBlobBit_fab (s : State) (idx sub w b : Nat) : (s.setBlobBit idx sub w b).fab = s.fab := rfl
@[simp] theorem State.setBlobBit_strm (s : State) (idx sub w b : Nat) : (s.setBlobBit idx sub w b).strm = s.strm := rfl
@[simp] theorem State.setBlobBit_host (s : State) (idx sub w b : Nat) : (s.setBlobBit idx sub w b).host = s.host := rfl
@[simp] theorem State.setBlobBit_mgmt (s : State) (idx sub w b : Nat) : (s.setBlobBit idx sub w b).mgmt = s.mgmt := rfl
@[simp] theorem State.setBlobBit_av (s : State) (idx sub w b : Nat) : (s.setBlobBit idx sub w b).av = s.av := rfl
@[simp] theorem State.setBlobBit_fw (s : State) (idx sub w b : Nat) : (s.setBlobBit idx sub w b).fw = s.fw := rfl
@[simp] theorem State.setBlobBit_tap (s : State) (idx sub w b : Nat) : (s.setBlobBit idx sub w b).tap = s.tap := rfl

/-! setByte writes mem alone. -/

@[simp] theorem State.setByte_pending (s : State) (a : Nat) (v : Byte) : (s.setByte a v).pending = s.pending := rfl
@[simp] theorem State.setByte_now (s : State) (a : Nat) (v : Byte) : (s.setByte a v).now = s.now := rfl
@[simp] theorem State.setByte_free (s : State) (a : Nat) (v : Byte) : (s.setByte a v).free = s.free := rfl
@[simp] theorem State.setByte_top (s : State) (a : Nat) (v : Byte) : (s.setByte a v).top = s.top := rfl
@[simp] theorem State.setByte_alloc (s : State) (a : Nat) (v : Byte) : (s.setByte a v).alloc = s.alloc := rfl
@[simp] theorem State.setByte_pow (s : State) (a : Nat) (v : Byte) : (s.setByte a v).pow = s.pow := rfl
@[simp] theorem State.setByte_regs (s : State) (a : Nat) (v : Byte) : (s.setByte a v).regs = s.regs := rfl
@[simp] theorem State.setByte_blobs (s : State) (a : Nat) (v : Byte) : (s.setByte a v).blobs = s.blobs := rfl
@[simp] theorem State.setByte_cores (s : State) (a : Nat) (v : Byte) : (s.setByte a v).cores = s.cores := rfl
@[simp] theorem State.setByte_ctxs (s : State) (a : Nat) (v : Byte) : (s.setByte a v).ctxs = s.ctxs := rfl
@[simp] theorem State.setByte_jobs (s : State) (a : Nat) (v : Byte) : (s.setByte a v).jobs = s.jobs := rfl
@[simp] theorem State.setByte_nextJob (s : State) (a : Nat) (v : Byte) : (s.setByte a v).nextJob = s.nextJob := rfl
@[simp] theorem State.setByte_ctxOps (s : State) (a : Nat) (v : Byte) : (s.setByte a v).ctxOps = s.ctxOps := rfl
@[simp] theorem State.setByte_tiers (s : State) (a : Nat) (v : Byte) : (s.setByte a v).tiers = s.tiers := rfl
@[simp] theorem State.setByte_sl (s : State) (a : Nat) (v : Byte) : (s.setByte a v).sl = s.sl := rfl
@[simp] theorem State.setByte_tab (s : State) (a : Nat) (v : Byte) : (s.setByte a v).tab = s.tab := rfl
@[simp] theorem State.setByte_fab (s : State) (a : Nat) (v : Byte) : (s.setByte a v).fab = s.fab := rfl
@[simp] theorem State.setByte_strm (s : State) (a : Nat) (v : Byte) : (s.setByte a v).strm = s.strm := rfl
@[simp] theorem State.setByte_host (s : State) (a : Nat) (v : Byte) : (s.setByte a v).host = s.host := rfl
@[simp] theorem State.setByte_mgmt (s : State) (a : Nat) (v : Byte) : (s.setByte a v).mgmt = s.mgmt := rfl
@[simp] theorem State.setByte_av (s : State) (a : Nat) (v : Byte) : (s.setByte a v).av = s.av := rfl
@[simp] theorem State.setByte_fw (s : State) (a : Nat) (v : Byte) : (s.setByte a v).fw = s.fw := rfl
@[simp] theorem State.setByte_tap (s : State) (a : Nat) (v : Byte) : (s.setByte a v).tap = s.tap := rfl

/-! putBytesAt writes mem alone. -/

@[simp] theorem State.putBytesAt_pending (s : State) (a : Nat) (bs : List Byte) : (s.putBytesAt a bs).pending = s.pending := rfl
@[simp] theorem State.putBytesAt_now (s : State) (a : Nat) (bs : List Byte) : (s.putBytesAt a bs).now = s.now := rfl
@[simp] theorem State.putBytesAt_free (s : State) (a : Nat) (bs : List Byte) : (s.putBytesAt a bs).free = s.free := rfl
@[simp] theorem State.putBytesAt_top (s : State) (a : Nat) (bs : List Byte) : (s.putBytesAt a bs).top = s.top := rfl
@[simp] theorem State.putBytesAt_alloc (s : State) (a : Nat) (bs : List Byte) : (s.putBytesAt a bs).alloc = s.alloc := rfl
@[simp] theorem State.putBytesAt_pow (s : State) (a : Nat) (bs : List Byte) : (s.putBytesAt a bs).pow = s.pow := rfl
@[simp] theorem State.putBytesAt_regs (s : State) (a : Nat) (bs : List Byte) : (s.putBytesAt a bs).regs = s.regs := rfl
@[simp] theorem State.putBytesAt_blobs (s : State) (a : Nat) (bs : List Byte) : (s.putBytesAt a bs).blobs = s.blobs := rfl
@[simp] theorem State.putBytesAt_cores (s : State) (a : Nat) (bs : List Byte) : (s.putBytesAt a bs).cores = s.cores := rfl
@[simp] theorem State.putBytesAt_ctxs (s : State) (a : Nat) (bs : List Byte) : (s.putBytesAt a bs).ctxs = s.ctxs := rfl
@[simp] theorem State.putBytesAt_jobs (s : State) (a : Nat) (bs : List Byte) : (s.putBytesAt a bs).jobs = s.jobs := rfl
@[simp] theorem State.putBytesAt_nextJob (s : State) (a : Nat) (bs : List Byte) : (s.putBytesAt a bs).nextJob = s.nextJob := rfl
@[simp] theorem State.putBytesAt_ctxOps (s : State) (a : Nat) (bs : List Byte) : (s.putBytesAt a bs).ctxOps = s.ctxOps := rfl
@[simp] theorem State.putBytesAt_tiers (s : State) (a : Nat) (bs : List Byte) : (s.putBytesAt a bs).tiers = s.tiers := rfl
@[simp] theorem State.putBytesAt_sl (s : State) (a : Nat) (bs : List Byte) : (s.putBytesAt a bs).sl = s.sl := rfl
@[simp] theorem State.putBytesAt_tab (s : State) (a : Nat) (bs : List Byte) : (s.putBytesAt a bs).tab = s.tab := rfl
@[simp] theorem State.putBytesAt_fab (s : State) (a : Nat) (bs : List Byte) : (s.putBytesAt a bs).fab = s.fab := rfl
@[simp] theorem State.putBytesAt_strm (s : State) (a : Nat) (bs : List Byte) : (s.putBytesAt a bs).strm = s.strm := rfl
@[simp] theorem State.putBytesAt_host (s : State) (a : Nat) (bs : List Byte) : (s.putBytesAt a bs).host = s.host := rfl
@[simp] theorem State.putBytesAt_mgmt (s : State) (a : Nat) (bs : List Byte) : (s.putBytesAt a bs).mgmt = s.mgmt := rfl
@[simp] theorem State.putBytesAt_av (s : State) (a : Nat) (bs : List Byte) : (s.putBytesAt a bs).av = s.av := rfl
@[simp] theorem State.putBytesAt_fw (s : State) (a : Nat) (bs : List Byte) : (s.putBytesAt a bs).fw = s.fw := rfl
@[simp] theorem State.putBytesAt_tap (s : State) (a : Nat) (bs : List Byte) : (s.putBytesAt a bs).tap = s.tap := rfl

/-! putRowAt writes mem alone. -/

@[simp] theorem State.putRowAt_pending (s : State) (a : Nat) (r : Row) : (s.putRowAt a r).pending = s.pending := State.putBytesAt_pending _ _ _
@[simp] theorem State.putRowAt_now (s : State) (a : Nat) (r : Row) : (s.putRowAt a r).now = s.now := State.putBytesAt_now _ _ _
@[simp] theorem State.putRowAt_free (s : State) (a : Nat) (r : Row) : (s.putRowAt a r).free = s.free := State.putBytesAt_free _ _ _
@[simp] theorem State.putRowAt_top (s : State) (a : Nat) (r : Row) : (s.putRowAt a r).top = s.top := State.putBytesAt_top _ _ _
@[simp] theorem State.putRowAt_alloc (s : State) (a : Nat) (r : Row) : (s.putRowAt a r).alloc = s.alloc := State.putBytesAt_alloc _ _ _
@[simp] theorem State.putRowAt_pow (s : State) (a : Nat) (r : Row) : (s.putRowAt a r).pow = s.pow := State.putBytesAt_pow _ _ _
@[simp] theorem State.putRowAt_regs (s : State) (a : Nat) (r : Row) : (s.putRowAt a r).regs = s.regs := State.putBytesAt_regs _ _ _
@[simp] theorem State.putRowAt_blobs (s : State) (a : Nat) (r : Row) : (s.putRowAt a r).blobs = s.blobs := State.putBytesAt_blobs _ _ _
@[simp] theorem State.putRowAt_cores (s : State) (a : Nat) (r : Row) : (s.putRowAt a r).cores = s.cores := State.putBytesAt_cores _ _ _
@[simp] theorem State.putRowAt_ctxs (s : State) (a : Nat) (r : Row) : (s.putRowAt a r).ctxs = s.ctxs := State.putBytesAt_ctxs _ _ _
@[simp] theorem State.putRowAt_jobs (s : State) (a : Nat) (r : Row) : (s.putRowAt a r).jobs = s.jobs := State.putBytesAt_jobs _ _ _
@[simp] theorem State.putRowAt_nextJob (s : State) (a : Nat) (r : Row) : (s.putRowAt a r).nextJob = s.nextJob := State.putBytesAt_nextJob _ _ _
@[simp] theorem State.putRowAt_ctxOps (s : State) (a : Nat) (r : Row) : (s.putRowAt a r).ctxOps = s.ctxOps := State.putBytesAt_ctxOps _ _ _
@[simp] theorem State.putRowAt_tiers (s : State) (a : Nat) (r : Row) : (s.putRowAt a r).tiers = s.tiers := State.putBytesAt_tiers _ _ _
@[simp] theorem State.putRowAt_sl (s : State) (a : Nat) (r : Row) : (s.putRowAt a r).sl = s.sl := State.putBytesAt_sl _ _ _
@[simp] theorem State.putRowAt_tab (s : State) (a : Nat) (r : Row) : (s.putRowAt a r).tab = s.tab := State.putBytesAt_tab _ _ _
@[simp] theorem State.putRowAt_fab (s : State) (a : Nat) (r : Row) : (s.putRowAt a r).fab = s.fab := State.putBytesAt_fab _ _ _
@[simp] theorem State.putRowAt_strm (s : State) (a : Nat) (r : Row) : (s.putRowAt a r).strm = s.strm := State.putBytesAt_strm _ _ _
@[simp] theorem State.putRowAt_host (s : State) (a : Nat) (r : Row) : (s.putRowAt a r).host = s.host := State.putBytesAt_host _ _ _
@[simp] theorem State.putRowAt_mgmt (s : State) (a : Nat) (r : Row) : (s.putRowAt a r).mgmt = s.mgmt := State.putBytesAt_mgmt _ _ _
@[simp] theorem State.putRowAt_av (s : State) (a : Nat) (r : Row) : (s.putRowAt a r).av = s.av := State.putBytesAt_av _ _ _
@[simp] theorem State.putRowAt_fw (s : State) (a : Nat) (r : Row) : (s.putRowAt a r).fw = s.fw := State.putBytesAt_fw _ _ _
@[simp] theorem State.putRowAt_tap (s : State) (a : Nat) (r : Row) : (s.putRowAt a r).tap = s.tap := State.putBytesAt_tap _ _ _

/-! setCore writes cores alone. -/

@[simp] theorem State.setCore_pending (s : State) (p : Nat) (c : Core) : (s.setCore p c).pending = s.pending := rfl
@[simp] theorem State.setCore_now (s : State) (p : Nat) (c : Core) : (s.setCore p c).now = s.now := rfl
@[simp] theorem State.setCore_free (s : State) (p : Nat) (c : Core) : (s.setCore p c).free = s.free := rfl
@[simp] theorem State.setCore_top (s : State) (p : Nat) (c : Core) : (s.setCore p c).top = s.top := rfl
@[simp] theorem State.setCore_alloc (s : State) (p : Nat) (c : Core) : (s.setCore p c).alloc = s.alloc := rfl
@[simp] theorem State.setCore_pow (s : State) (p : Nat) (c : Core) : (s.setCore p c).pow = s.pow := rfl
@[simp] theorem State.setCore_regs (s : State) (p : Nat) (c : Core) : (s.setCore p c).regs = s.regs := rfl
@[simp] theorem State.setCore_blobs (s : State) (p : Nat) (c : Core) : (s.setCore p c).blobs = s.blobs := rfl
@[simp] theorem State.setCore_mem (s : State) (p : Nat) (c : Core) : (s.setCore p c).mem = s.mem := rfl
@[simp] theorem State.setCore_ctxs (s : State) (p : Nat) (c : Core) : (s.setCore p c).ctxs = s.ctxs := rfl
@[simp] theorem State.setCore_jobs (s : State) (p : Nat) (c : Core) : (s.setCore p c).jobs = s.jobs := rfl
@[simp] theorem State.setCore_nextJob (s : State) (p : Nat) (c : Core) : (s.setCore p c).nextJob = s.nextJob := rfl
@[simp] theorem State.setCore_ctxOps (s : State) (p : Nat) (c : Core) : (s.setCore p c).ctxOps = s.ctxOps := rfl
@[simp] theorem State.setCore_tiers (s : State) (p : Nat) (c : Core) : (s.setCore p c).tiers = s.tiers := rfl
@[simp] theorem State.setCore_sl (s : State) (p : Nat) (c : Core) : (s.setCore p c).sl = s.sl := rfl
@[simp] theorem State.setCore_tab (s : State) (p : Nat) (c : Core) : (s.setCore p c).tab = s.tab := rfl
@[simp] theorem State.setCore_fab (s : State) (p : Nat) (c : Core) : (s.setCore p c).fab = s.fab := rfl
@[simp] theorem State.setCore_strm (s : State) (p : Nat) (c : Core) : (s.setCore p c).strm = s.strm := rfl
@[simp] theorem State.setCore_host (s : State) (p : Nat) (c : Core) : (s.setCore p c).host = s.host := rfl
@[simp] theorem State.setCore_mgmt (s : State) (p : Nat) (c : Core) : (s.setCore p c).mgmt = s.mgmt := rfl
@[simp] theorem State.setCore_av (s : State) (p : Nat) (c : Core) : (s.setCore p c).av = s.av := rfl
@[simp] theorem State.setCore_fw (s : State) (p : Nat) (c : Core) : (s.setCore p c).fw = s.fw := rfl
@[simp] theorem State.setCore_tap (s : State) (p : Nat) (c : Core) : (s.setCore p c).tap = s.tap := rfl

/-! modCore writes cores alone. -/

@[simp] theorem State.modCore_pending (s : State) (p : Nat) (f : Core → Core) : (s.modCore p f).pending = s.pending := rfl
@[simp] theorem State.modCore_now (s : State) (p : Nat) (f : Core → Core) : (s.modCore p f).now = s.now := rfl
@[simp] theorem State.modCore_free (s : State) (p : Nat) (f : Core → Core) : (s.modCore p f).free = s.free := rfl
@[simp] theorem State.modCore_top (s : State) (p : Nat) (f : Core → Core) : (s.modCore p f).top = s.top := rfl
@[simp] theorem State.modCore_alloc (s : State) (p : Nat) (f : Core → Core) : (s.modCore p f).alloc = s.alloc := rfl
@[simp] theorem State.modCore_pow (s : State) (p : Nat) (f : Core → Core) : (s.modCore p f).pow = s.pow := rfl
@[simp] theorem State.modCore_regs (s : State) (p : Nat) (f : Core → Core) : (s.modCore p f).regs = s.regs := rfl
@[simp] theorem State.modCore_blobs (s : State) (p : Nat) (f : Core → Core) : (s.modCore p f).blobs = s.blobs := rfl
@[simp] theorem State.modCore_mem (s : State) (p : Nat) (f : Core → Core) : (s.modCore p f).mem = s.mem := rfl
@[simp] theorem State.modCore_ctxs (s : State) (p : Nat) (f : Core → Core) : (s.modCore p f).ctxs = s.ctxs := rfl
@[simp] theorem State.modCore_jobs (s : State) (p : Nat) (f : Core → Core) : (s.modCore p f).jobs = s.jobs := rfl
@[simp] theorem State.modCore_nextJob (s : State) (p : Nat) (f : Core → Core) : (s.modCore p f).nextJob = s.nextJob := rfl
@[simp] theorem State.modCore_ctxOps (s : State) (p : Nat) (f : Core → Core) : (s.modCore p f).ctxOps = s.ctxOps := rfl
@[simp] theorem State.modCore_tiers (s : State) (p : Nat) (f : Core → Core) : (s.modCore p f).tiers = s.tiers := rfl
@[simp] theorem State.modCore_sl (s : State) (p : Nat) (f : Core → Core) : (s.modCore p f).sl = s.sl := rfl
@[simp] theorem State.modCore_tab (s : State) (p : Nat) (f : Core → Core) : (s.modCore p f).tab = s.tab := rfl
@[simp] theorem State.modCore_fab (s : State) (p : Nat) (f : Core → Core) : (s.modCore p f).fab = s.fab := rfl
@[simp] theorem State.modCore_strm (s : State) (p : Nat) (f : Core → Core) : (s.modCore p f).strm = s.strm := rfl
@[simp] theorem State.modCore_host (s : State) (p : Nat) (f : Core → Core) : (s.modCore p f).host = s.host := rfl
@[simp] theorem State.modCore_mgmt (s : State) (p : Nat) (f : Core → Core) : (s.modCore p f).mgmt = s.mgmt := rfl
@[simp] theorem State.modCore_av (s : State) (p : Nat) (f : Core → Core) : (s.modCore p f).av = s.av := rfl
@[simp] theorem State.modCore_fw (s : State) (p : Nat) (f : Core → Core) : (s.modCore p f).fw = s.fw := rfl
@[simp] theorem State.modCore_tap (s : State) (p : Nat) (f : Core → Core) : (s.modCore p f).tap = s.tap := rfl

/-! modCsq writes cores alone. -/

@[simp] theorem State.modCsq_pending (s : State) (p : Nat) (f : Csq → Csq) : (s.modCsq p f).pending = s.pending := rfl
@[simp] theorem State.modCsq_now (s : State) (p : Nat) (f : Csq → Csq) : (s.modCsq p f).now = s.now := rfl
@[simp] theorem State.modCsq_free (s : State) (p : Nat) (f : Csq → Csq) : (s.modCsq p f).free = s.free := rfl
@[simp] theorem State.modCsq_top (s : State) (p : Nat) (f : Csq → Csq) : (s.modCsq p f).top = s.top := rfl
@[simp] theorem State.modCsq_alloc (s : State) (p : Nat) (f : Csq → Csq) : (s.modCsq p f).alloc = s.alloc := rfl
@[simp] theorem State.modCsq_pow (s : State) (p : Nat) (f : Csq → Csq) : (s.modCsq p f).pow = s.pow := rfl
@[simp] theorem State.modCsq_regs (s : State) (p : Nat) (f : Csq → Csq) : (s.modCsq p f).regs = s.regs := rfl
@[simp] theorem State.modCsq_blobs (s : State) (p : Nat) (f : Csq → Csq) : (s.modCsq p f).blobs = s.blobs := rfl
@[simp] theorem State.modCsq_mem (s : State) (p : Nat) (f : Csq → Csq) : (s.modCsq p f).mem = s.mem := rfl
@[simp] theorem State.modCsq_ctxs (s : State) (p : Nat) (f : Csq → Csq) : (s.modCsq p f).ctxs = s.ctxs := rfl
@[simp] theorem State.modCsq_jobs (s : State) (p : Nat) (f : Csq → Csq) : (s.modCsq p f).jobs = s.jobs := rfl
@[simp] theorem State.modCsq_nextJob (s : State) (p : Nat) (f : Csq → Csq) : (s.modCsq p f).nextJob = s.nextJob := rfl
@[simp] theorem State.modCsq_ctxOps (s : State) (p : Nat) (f : Csq → Csq) : (s.modCsq p f).ctxOps = s.ctxOps := rfl
@[simp] theorem State.modCsq_tiers (s : State) (p : Nat) (f : Csq → Csq) : (s.modCsq p f).tiers = s.tiers := rfl
@[simp] theorem State.modCsq_sl (s : State) (p : Nat) (f : Csq → Csq) : (s.modCsq p f).sl = s.sl := rfl
@[simp] theorem State.modCsq_tab (s : State) (p : Nat) (f : Csq → Csq) : (s.modCsq p f).tab = s.tab := rfl
@[simp] theorem State.modCsq_fab (s : State) (p : Nat) (f : Csq → Csq) : (s.modCsq p f).fab = s.fab := rfl
@[simp] theorem State.modCsq_strm (s : State) (p : Nat) (f : Csq → Csq) : (s.modCsq p f).strm = s.strm := rfl
@[simp] theorem State.modCsq_host (s : State) (p : Nat) (f : Csq → Csq) : (s.modCsq p f).host = s.host := rfl
@[simp] theorem State.modCsq_mgmt (s : State) (p : Nat) (f : Csq → Csq) : (s.modCsq p f).mgmt = s.mgmt := rfl
@[simp] theorem State.modCsq_av (s : State) (p : Nat) (f : Csq → Csq) : (s.modCsq p f).av = s.av := rfl
@[simp] theorem State.modCsq_fw (s : State) (p : Nat) (f : Csq → Csq) : (s.modCsq p f).fw = s.fw := rfl
@[simp] theorem State.modCsq_tap (s : State) (p : Nat) (f : Csq → Csq) : (s.modCsq p f).tap = s.tap := rfl

/-! setCtx writes ctxs alone. -/

@[simp] theorem State.setCtx_pending (s : State) (x : Nat) (c : Ctx) : (s.setCtx x c).pending = s.pending := rfl
@[simp] theorem State.setCtx_now (s : State) (x : Nat) (c : Ctx) : (s.setCtx x c).now = s.now := rfl
@[simp] theorem State.setCtx_free (s : State) (x : Nat) (c : Ctx) : (s.setCtx x c).free = s.free := rfl
@[simp] theorem State.setCtx_top (s : State) (x : Nat) (c : Ctx) : (s.setCtx x c).top = s.top := rfl
@[simp] theorem State.setCtx_alloc (s : State) (x : Nat) (c : Ctx) : (s.setCtx x c).alloc = s.alloc := rfl
@[simp] theorem State.setCtx_pow (s : State) (x : Nat) (c : Ctx) : (s.setCtx x c).pow = s.pow := rfl
@[simp] theorem State.setCtx_regs (s : State) (x : Nat) (c : Ctx) : (s.setCtx x c).regs = s.regs := rfl
@[simp] theorem State.setCtx_blobs (s : State) (x : Nat) (c : Ctx) : (s.setCtx x c).blobs = s.blobs := rfl
@[simp] theorem State.setCtx_mem (s : State) (x : Nat) (c : Ctx) : (s.setCtx x c).mem = s.mem := rfl
@[simp] theorem State.setCtx_cores (s : State) (x : Nat) (c : Ctx) : (s.setCtx x c).cores = s.cores := rfl
@[simp] theorem State.setCtx_jobs (s : State) (x : Nat) (c : Ctx) : (s.setCtx x c).jobs = s.jobs := rfl
@[simp] theorem State.setCtx_nextJob (s : State) (x : Nat) (c : Ctx) : (s.setCtx x c).nextJob = s.nextJob := rfl
@[simp] theorem State.setCtx_ctxOps (s : State) (x : Nat) (c : Ctx) : (s.setCtx x c).ctxOps = s.ctxOps := rfl
@[simp] theorem State.setCtx_tiers (s : State) (x : Nat) (c : Ctx) : (s.setCtx x c).tiers = s.tiers := rfl
@[simp] theorem State.setCtx_sl (s : State) (x : Nat) (c : Ctx) : (s.setCtx x c).sl = s.sl := rfl
@[simp] theorem State.setCtx_tab (s : State) (x : Nat) (c : Ctx) : (s.setCtx x c).tab = s.tab := rfl
@[simp] theorem State.setCtx_fab (s : State) (x : Nat) (c : Ctx) : (s.setCtx x c).fab = s.fab := rfl
@[simp] theorem State.setCtx_strm (s : State) (x : Nat) (c : Ctx) : (s.setCtx x c).strm = s.strm := rfl
@[simp] theorem State.setCtx_host (s : State) (x : Nat) (c : Ctx) : (s.setCtx x c).host = s.host := rfl
@[simp] theorem State.setCtx_mgmt (s : State) (x : Nat) (c : Ctx) : (s.setCtx x c).mgmt = s.mgmt := rfl
@[simp] theorem State.setCtx_av (s : State) (x : Nat) (c : Ctx) : (s.setCtx x c).av = s.av := rfl
@[simp] theorem State.setCtx_fw (s : State) (x : Nat) (c : Ctx) : (s.setCtx x c).fw = s.fw := rfl
@[simp] theorem State.setCtx_tap (s : State) (x : Nat) (c : Ctx) : (s.setCtx x c).tap = s.tap := rfl

/-! modCtx writes ctxs alone. -/

@[simp] theorem State.modCtx_pending (s : State) (x : Nat) (f : Ctx → Ctx) : (s.modCtx x f).pending = s.pending := rfl
@[simp] theorem State.modCtx_now (s : State) (x : Nat) (f : Ctx → Ctx) : (s.modCtx x f).now = s.now := rfl
@[simp] theorem State.modCtx_free (s : State) (x : Nat) (f : Ctx → Ctx) : (s.modCtx x f).free = s.free := rfl
@[simp] theorem State.modCtx_top (s : State) (x : Nat) (f : Ctx → Ctx) : (s.modCtx x f).top = s.top := rfl
@[simp] theorem State.modCtx_alloc (s : State) (x : Nat) (f : Ctx → Ctx) : (s.modCtx x f).alloc = s.alloc := rfl
@[simp] theorem State.modCtx_pow (s : State) (x : Nat) (f : Ctx → Ctx) : (s.modCtx x f).pow = s.pow := rfl
@[simp] theorem State.modCtx_regs (s : State) (x : Nat) (f : Ctx → Ctx) : (s.modCtx x f).regs = s.regs := rfl
@[simp] theorem State.modCtx_blobs (s : State) (x : Nat) (f : Ctx → Ctx) : (s.modCtx x f).blobs = s.blobs := rfl
@[simp] theorem State.modCtx_mem (s : State) (x : Nat) (f : Ctx → Ctx) : (s.modCtx x f).mem = s.mem := rfl
@[simp] theorem State.modCtx_cores (s : State) (x : Nat) (f : Ctx → Ctx) : (s.modCtx x f).cores = s.cores := rfl
@[simp] theorem State.modCtx_jobs (s : State) (x : Nat) (f : Ctx → Ctx) : (s.modCtx x f).jobs = s.jobs := rfl
@[simp] theorem State.modCtx_nextJob (s : State) (x : Nat) (f : Ctx → Ctx) : (s.modCtx x f).nextJob = s.nextJob := rfl
@[simp] theorem State.modCtx_ctxOps (s : State) (x : Nat) (f : Ctx → Ctx) : (s.modCtx x f).ctxOps = s.ctxOps := rfl
@[simp] theorem State.modCtx_tiers (s : State) (x : Nat) (f : Ctx → Ctx) : (s.modCtx x f).tiers = s.tiers := rfl
@[simp] theorem State.modCtx_sl (s : State) (x : Nat) (f : Ctx → Ctx) : (s.modCtx x f).sl = s.sl := rfl
@[simp] theorem State.modCtx_tab (s : State) (x : Nat) (f : Ctx → Ctx) : (s.modCtx x f).tab = s.tab := rfl
@[simp] theorem State.modCtx_fab (s : State) (x : Nat) (f : Ctx → Ctx) : (s.modCtx x f).fab = s.fab := rfl
@[simp] theorem State.modCtx_strm (s : State) (x : Nat) (f : Ctx → Ctx) : (s.modCtx x f).strm = s.strm := rfl
@[simp] theorem State.modCtx_host (s : State) (x : Nat) (f : Ctx → Ctx) : (s.modCtx x f).host = s.host := rfl
@[simp] theorem State.modCtx_mgmt (s : State) (x : Nat) (f : Ctx → Ctx) : (s.modCtx x f).mgmt = s.mgmt := rfl
@[simp] theorem State.modCtx_av (s : State) (x : Nat) (f : Ctx → Ctx) : (s.modCtx x f).av = s.av := rfl
@[simp] theorem State.modCtx_fw (s : State) (x : Nat) (f : Ctx → Ctx) : (s.modCtx x f).fw = s.fw := rfl
@[simp] theorem State.modCtx_tap (s : State) (x : Nat) (f : Ctx → Ctx) : (s.modCtx x f).tap = s.tap := rfl

/-! modJob writes jobs alone. -/

@[simp] theorem State.modJob_pending (s : State) (j : Nat) (f : Job → Job) : (s.modJob j f).pending = s.pending := rfl
@[simp] theorem State.modJob_now (s : State) (j : Nat) (f : Job → Job) : (s.modJob j f).now = s.now := rfl
@[simp] theorem State.modJob_free (s : State) (j : Nat) (f : Job → Job) : (s.modJob j f).free = s.free := rfl
@[simp] theorem State.modJob_top (s : State) (j : Nat) (f : Job → Job) : (s.modJob j f).top = s.top := rfl
@[simp] theorem State.modJob_alloc (s : State) (j : Nat) (f : Job → Job) : (s.modJob j f).alloc = s.alloc := rfl
@[simp] theorem State.modJob_pow (s : State) (j : Nat) (f : Job → Job) : (s.modJob j f).pow = s.pow := rfl
@[simp] theorem State.modJob_regs (s : State) (j : Nat) (f : Job → Job) : (s.modJob j f).regs = s.regs := rfl
@[simp] theorem State.modJob_blobs (s : State) (j : Nat) (f : Job → Job) : (s.modJob j f).blobs = s.blobs := rfl
@[simp] theorem State.modJob_mem (s : State) (j : Nat) (f : Job → Job) : (s.modJob j f).mem = s.mem := rfl
@[simp] theorem State.modJob_cores (s : State) (j : Nat) (f : Job → Job) : (s.modJob j f).cores = s.cores := rfl
@[simp] theorem State.modJob_ctxs (s : State) (j : Nat) (f : Job → Job) : (s.modJob j f).ctxs = s.ctxs := rfl
@[simp] theorem State.modJob_nextJob (s : State) (j : Nat) (f : Job → Job) : (s.modJob j f).nextJob = s.nextJob := rfl
@[simp] theorem State.modJob_ctxOps (s : State) (j : Nat) (f : Job → Job) : (s.modJob j f).ctxOps = s.ctxOps := rfl
@[simp] theorem State.modJob_tiers (s : State) (j : Nat) (f : Job → Job) : (s.modJob j f).tiers = s.tiers := rfl
@[simp] theorem State.modJob_sl (s : State) (j : Nat) (f : Job → Job) : (s.modJob j f).sl = s.sl := rfl
@[simp] theorem State.modJob_tab (s : State) (j : Nat) (f : Job → Job) : (s.modJob j f).tab = s.tab := rfl
@[simp] theorem State.modJob_fab (s : State) (j : Nat) (f : Job → Job) : (s.modJob j f).fab = s.fab := rfl
@[simp] theorem State.modJob_strm (s : State) (j : Nat) (f : Job → Job) : (s.modJob j f).strm = s.strm := rfl
@[simp] theorem State.modJob_host (s : State) (j : Nat) (f : Job → Job) : (s.modJob j f).host = s.host := rfl
@[simp] theorem State.modJob_mgmt (s : State) (j : Nat) (f : Job → Job) : (s.modJob j f).mgmt = s.mgmt := rfl
@[simp] theorem State.modJob_av (s : State) (j : Nat) (f : Job → Job) : (s.modJob j f).av = s.av := rfl
@[simp] theorem State.modJob_fw (s : State) (j : Nat) (f : Job → Job) : (s.modJob j f).fw = s.fw := rfl
@[simp] theorem State.modJob_tap (s : State) (j : Nat) (f : Job → Job) : (s.modJob j f).tap = s.tap := rfl

/-! setGov writes pow alone. -/

@[simp] theorem State.setGov_pending (s : State) (d : Nat) (g : Governor) : (s.setGov d g).pending = s.pending := rfl
@[simp] theorem State.setGov_now (s : State) (d : Nat) (g : Governor) : (s.setGov d g).now = s.now := rfl
@[simp] theorem State.setGov_free (s : State) (d : Nat) (g : Governor) : (s.setGov d g).free = s.free := rfl
@[simp] theorem State.setGov_top (s : State) (d : Nat) (g : Governor) : (s.setGov d g).top = s.top := rfl
@[simp] theorem State.setGov_alloc (s : State) (d : Nat) (g : Governor) : (s.setGov d g).alloc = s.alloc := rfl
@[simp] theorem State.setGov_regs (s : State) (d : Nat) (g : Governor) : (s.setGov d g).regs = s.regs := rfl
@[simp] theorem State.setGov_blobs (s : State) (d : Nat) (g : Governor) : (s.setGov d g).blobs = s.blobs := rfl
@[simp] theorem State.setGov_mem (s : State) (d : Nat) (g : Governor) : (s.setGov d g).mem = s.mem := rfl
@[simp] theorem State.setGov_cores (s : State) (d : Nat) (g : Governor) : (s.setGov d g).cores = s.cores := rfl
@[simp] theorem State.setGov_ctxs (s : State) (d : Nat) (g : Governor) : (s.setGov d g).ctxs = s.ctxs := rfl
@[simp] theorem State.setGov_jobs (s : State) (d : Nat) (g : Governor) : (s.setGov d g).jobs = s.jobs := rfl
@[simp] theorem State.setGov_nextJob (s : State) (d : Nat) (g : Governor) : (s.setGov d g).nextJob = s.nextJob := rfl
@[simp] theorem State.setGov_ctxOps (s : State) (d : Nat) (g : Governor) : (s.setGov d g).ctxOps = s.ctxOps := rfl
@[simp] theorem State.setGov_tiers (s : State) (d : Nat) (g : Governor) : (s.setGov d g).tiers = s.tiers := rfl
@[simp] theorem State.setGov_sl (s : State) (d : Nat) (g : Governor) : (s.setGov d g).sl = s.sl := rfl
@[simp] theorem State.setGov_tab (s : State) (d : Nat) (g : Governor) : (s.setGov d g).tab = s.tab := rfl
@[simp] theorem State.setGov_fab (s : State) (d : Nat) (g : Governor) : (s.setGov d g).fab = s.fab := rfl
@[simp] theorem State.setGov_strm (s : State) (d : Nat) (g : Governor) : (s.setGov d g).strm = s.strm := rfl
@[simp] theorem State.setGov_host (s : State) (d : Nat) (g : Governor) : (s.setGov d g).host = s.host := rfl
@[simp] theorem State.setGov_mgmt (s : State) (d : Nat) (g : Governor) : (s.setGov d g).mgmt = s.mgmt := rfl
@[simp] theorem State.setGov_av (s : State) (d : Nat) (g : Governor) : (s.setGov d g).av = s.av := rfl
@[simp] theorem State.setGov_fw (s : State) (d : Nat) (g : Governor) : (s.setGov d g).fw = s.fw := rfl
@[simp] theorem State.setGov_tap (s : State) (d : Nat) (g : Governor) : (s.setGov d g).tap = s.tap := rfl

/-! setPair writes host alone. -/

@[simp] theorem State.setPair_pending (s : State) (f q : Nat) (p : QPair) : (s.setPair f q p).pending = s.pending := rfl
@[simp] theorem State.setPair_now (s : State) (f q : Nat) (p : QPair) : (s.setPair f q p).now = s.now := rfl
@[simp] theorem State.setPair_free (s : State) (f q : Nat) (p : QPair) : (s.setPair f q p).free = s.free := rfl
@[simp] theorem State.setPair_top (s : State) (f q : Nat) (p : QPair) : (s.setPair f q p).top = s.top := rfl
@[simp] theorem State.setPair_alloc (s : State) (f q : Nat) (p : QPair) : (s.setPair f q p).alloc = s.alloc := rfl
@[simp] theorem State.setPair_pow (s : State) (f q : Nat) (p : QPair) : (s.setPair f q p).pow = s.pow := rfl
@[simp] theorem State.setPair_regs (s : State) (f q : Nat) (p : QPair) : (s.setPair f q p).regs = s.regs := rfl
@[simp] theorem State.setPair_blobs (s : State) (f q : Nat) (p : QPair) : (s.setPair f q p).blobs = s.blobs := rfl
@[simp] theorem State.setPair_mem (s : State) (f q : Nat) (p : QPair) : (s.setPair f q p).mem = s.mem := rfl
@[simp] theorem State.setPair_cores (s : State) (f q : Nat) (p : QPair) : (s.setPair f q p).cores = s.cores := rfl
@[simp] theorem State.setPair_ctxs (s : State) (f q : Nat) (p : QPair) : (s.setPair f q p).ctxs = s.ctxs := rfl
@[simp] theorem State.setPair_jobs (s : State) (f q : Nat) (p : QPair) : (s.setPair f q p).jobs = s.jobs := rfl
@[simp] theorem State.setPair_nextJob (s : State) (f q : Nat) (p : QPair) : (s.setPair f q p).nextJob = s.nextJob := rfl
@[simp] theorem State.setPair_ctxOps (s : State) (f q : Nat) (p : QPair) : (s.setPair f q p).ctxOps = s.ctxOps := rfl
@[simp] theorem State.setPair_tiers (s : State) (f q : Nat) (p : QPair) : (s.setPair f q p).tiers = s.tiers := rfl
@[simp] theorem State.setPair_sl (s : State) (f q : Nat) (p : QPair) : (s.setPair f q p).sl = s.sl := rfl
@[simp] theorem State.setPair_tab (s : State) (f q : Nat) (p : QPair) : (s.setPair f q p).tab = s.tab := rfl
@[simp] theorem State.setPair_fab (s : State) (f q : Nat) (p : QPair) : (s.setPair f q p).fab = s.fab := rfl
@[simp] theorem State.setPair_strm (s : State) (f q : Nat) (p : QPair) : (s.setPair f q p).strm = s.strm := rfl
@[simp] theorem State.setPair_mgmt (s : State) (f q : Nat) (p : QPair) : (s.setPair f q p).mgmt = s.mgmt := rfl
@[simp] theorem State.setPair_av (s : State) (f q : Nat) (p : QPair) : (s.setPair f q p).av = s.av := rfl
@[simp] theorem State.setPair_fw (s : State) (f q : Nat) (p : QPair) : (s.setPair f q p).fw = s.fw := rfl
@[simp] theorem State.setPair_tap (s : State) (f q : Nat) (p : QPair) : (s.setPair f q p).tap = s.tap := rfl

/-! complete writes host alone. -/

@[simp] theorem State.complete_pending (s : State) (f q : Nat) (d : Desc) (sqHead status : Nat) (mark : Nat) : (s.complete f q d sqHead status mark).pending = s.pending := rfl
@[simp] theorem State.complete_now (s : State) (f q : Nat) (d : Desc) (sqHead status : Nat) (mark : Nat) : (s.complete f q d sqHead status mark).now = s.now := rfl
@[simp] theorem State.complete_free (s : State) (f q : Nat) (d : Desc) (sqHead status : Nat) (mark : Nat) : (s.complete f q d sqHead status mark).free = s.free := rfl
@[simp] theorem State.complete_top (s : State) (f q : Nat) (d : Desc) (sqHead status : Nat) (mark : Nat) : (s.complete f q d sqHead status mark).top = s.top := rfl
@[simp] theorem State.complete_alloc (s : State) (f q : Nat) (d : Desc) (sqHead status : Nat) (mark : Nat) : (s.complete f q d sqHead status mark).alloc = s.alloc := rfl
@[simp] theorem State.complete_pow (s : State) (f q : Nat) (d : Desc) (sqHead status : Nat) (mark : Nat) : (s.complete f q d sqHead status mark).pow = s.pow := rfl
@[simp] theorem State.complete_regs (s : State) (f q : Nat) (d : Desc) (sqHead status : Nat) (mark : Nat) : (s.complete f q d sqHead status mark).regs = s.regs := rfl
@[simp] theorem State.complete_blobs (s : State) (f q : Nat) (d : Desc) (sqHead status : Nat) (mark : Nat) : (s.complete f q d sqHead status mark).blobs = s.blobs := rfl
@[simp] theorem State.complete_mem (s : State) (f q : Nat) (d : Desc) (sqHead status : Nat) (mark : Nat) : (s.complete f q d sqHead status mark).mem = s.mem := rfl
@[simp] theorem State.complete_cores (s : State) (f q : Nat) (d : Desc) (sqHead status : Nat) (mark : Nat) : (s.complete f q d sqHead status mark).cores = s.cores := rfl
@[simp] theorem State.complete_ctxs (s : State) (f q : Nat) (d : Desc) (sqHead status : Nat) (mark : Nat) : (s.complete f q d sqHead status mark).ctxs = s.ctxs := rfl
@[simp] theorem State.complete_jobs (s : State) (f q : Nat) (d : Desc) (sqHead status : Nat) (mark : Nat) : (s.complete f q d sqHead status mark).jobs = s.jobs := rfl
@[simp] theorem State.complete_nextJob (s : State) (f q : Nat) (d : Desc) (sqHead status : Nat) (mark : Nat) : (s.complete f q d sqHead status mark).nextJob = s.nextJob := rfl
@[simp] theorem State.complete_ctxOps (s : State) (f q : Nat) (d : Desc) (sqHead status : Nat) (mark : Nat) : (s.complete f q d sqHead status mark).ctxOps = s.ctxOps := rfl
@[simp] theorem State.complete_tiers (s : State) (f q : Nat) (d : Desc) (sqHead status : Nat) (mark : Nat) : (s.complete f q d sqHead status mark).tiers = s.tiers := rfl
@[simp] theorem State.complete_sl (s : State) (f q : Nat) (d : Desc) (sqHead status : Nat) (mark : Nat) : (s.complete f q d sqHead status mark).sl = s.sl := rfl
@[simp] theorem State.complete_tab (s : State) (f q : Nat) (d : Desc) (sqHead status : Nat) (mark : Nat) : (s.complete f q d sqHead status mark).tab = s.tab := rfl
@[simp] theorem State.complete_fab (s : State) (f q : Nat) (d : Desc) (sqHead status : Nat) (mark : Nat) : (s.complete f q d sqHead status mark).fab = s.fab := rfl
@[simp] theorem State.complete_strm (s : State) (f q : Nat) (d : Desc) (sqHead status : Nat) (mark : Nat) : (s.complete f q d sqHead status mark).strm = s.strm := rfl
@[simp] theorem State.complete_mgmt (s : State) (f q : Nat) (d : Desc) (sqHead status : Nat) (mark : Nat) : (s.complete f q d sqHead status mark).mgmt = s.mgmt := rfl
@[simp] theorem State.complete_av (s : State) (f q : Nat) (d : Desc) (sqHead status : Nat) (mark : Nat) : (s.complete f q d sqHead status mark).av = s.av := rfl
@[simp] theorem State.complete_fw (s : State) (f q : Nat) (d : Desc) (sqHead status : Nat) (mark : Nat) : (s.complete f q d sqHead status mark).fw = s.fw := rfl
@[simp] theorem State.complete_tap (s : State) (f q : Nat) (d : Desc) (sqHead status : Nat) (mark : Nat) : (s.complete f q d sqHead status mark).tap = s.tap := rfl

/-! modRange writes tiers alone. -/

@[simp] theorem State.modRange_pending (s : State) (u : Nat) (f : Range → Range) : (s.modRange u f).pending = s.pending := rfl
@[simp] theorem State.modRange_now (s : State) (u : Nat) (f : Range → Range) : (s.modRange u f).now = s.now := rfl
@[simp] theorem State.modRange_free (s : State) (u : Nat) (f : Range → Range) : (s.modRange u f).free = s.free := rfl
@[simp] theorem State.modRange_top (s : State) (u : Nat) (f : Range → Range) : (s.modRange u f).top = s.top := rfl
@[simp] theorem State.modRange_alloc (s : State) (u : Nat) (f : Range → Range) : (s.modRange u f).alloc = s.alloc := rfl
@[simp] theorem State.modRange_pow (s : State) (u : Nat) (f : Range → Range) : (s.modRange u f).pow = s.pow := rfl
@[simp] theorem State.modRange_regs (s : State) (u : Nat) (f : Range → Range) : (s.modRange u f).regs = s.regs := rfl
@[simp] theorem State.modRange_blobs (s : State) (u : Nat) (f : Range → Range) : (s.modRange u f).blobs = s.blobs := rfl
@[simp] theorem State.modRange_mem (s : State) (u : Nat) (f : Range → Range) : (s.modRange u f).mem = s.mem := rfl
@[simp] theorem State.modRange_cores (s : State) (u : Nat) (f : Range → Range) : (s.modRange u f).cores = s.cores := rfl
@[simp] theorem State.modRange_ctxs (s : State) (u : Nat) (f : Range → Range) : (s.modRange u f).ctxs = s.ctxs := rfl
@[simp] theorem State.modRange_jobs (s : State) (u : Nat) (f : Range → Range) : (s.modRange u f).jobs = s.jobs := rfl
@[simp] theorem State.modRange_nextJob (s : State) (u : Nat) (f : Range → Range) : (s.modRange u f).nextJob = s.nextJob := rfl
@[simp] theorem State.modRange_ctxOps (s : State) (u : Nat) (f : Range → Range) : (s.modRange u f).ctxOps = s.ctxOps := rfl
@[simp] theorem State.modRange_sl (s : State) (u : Nat) (f : Range → Range) : (s.modRange u f).sl = s.sl := rfl
@[simp] theorem State.modRange_tab (s : State) (u : Nat) (f : Range → Range) : (s.modRange u f).tab = s.tab := rfl
@[simp] theorem State.modRange_fab (s : State) (u : Nat) (f : Range → Range) : (s.modRange u f).fab = s.fab := rfl
@[simp] theorem State.modRange_strm (s : State) (u : Nat) (f : Range → Range) : (s.modRange u f).strm = s.strm := rfl
@[simp] theorem State.modRange_host (s : State) (u : Nat) (f : Range → Range) : (s.modRange u f).host = s.host := rfl
@[simp] theorem State.modRange_mgmt (s : State) (u : Nat) (f : Range → Range) : (s.modRange u f).mgmt = s.mgmt := rfl
@[simp] theorem State.modRange_av (s : State) (u : Nat) (f : Range → Range) : (s.modRange u f).av = s.av := rfl
@[simp] theorem State.modRange_fw (s : State) (u : Nat) (f : Range → Range) : (s.modRange u f).fw = s.fw := rfl
@[simp] theorem State.modRange_tap (s : State) (u : Nat) (f : Range → Range) : (s.modRange u f).tap = s.tap := rfl

/-! modChan writes tiers alone. -/

@[simp] theorem State.modChan_pending (s : State) (u c : Nat) (f : Channel → Channel) : (s.modChan u c f).pending = s.pending := rfl
@[simp] theorem State.modChan_now (s : State) (u c : Nat) (f : Channel → Channel) : (s.modChan u c f).now = s.now := rfl
@[simp] theorem State.modChan_free (s : State) (u c : Nat) (f : Channel → Channel) : (s.modChan u c f).free = s.free := rfl
@[simp] theorem State.modChan_top (s : State) (u c : Nat) (f : Channel → Channel) : (s.modChan u c f).top = s.top := rfl
@[simp] theorem State.modChan_alloc (s : State) (u c : Nat) (f : Channel → Channel) : (s.modChan u c f).alloc = s.alloc := rfl
@[simp] theorem State.modChan_pow (s : State) (u c : Nat) (f : Channel → Channel) : (s.modChan u c f).pow = s.pow := rfl
@[simp] theorem State.modChan_regs (s : State) (u c : Nat) (f : Channel → Channel) : (s.modChan u c f).regs = s.regs := rfl
@[simp] theorem State.modChan_blobs (s : State) (u c : Nat) (f : Channel → Channel) : (s.modChan u c f).blobs = s.blobs := rfl
@[simp] theorem State.modChan_mem (s : State) (u c : Nat) (f : Channel → Channel) : (s.modChan u c f).mem = s.mem := rfl
@[simp] theorem State.modChan_cores (s : State) (u c : Nat) (f : Channel → Channel) : (s.modChan u c f).cores = s.cores := rfl
@[simp] theorem State.modChan_ctxs (s : State) (u c : Nat) (f : Channel → Channel) : (s.modChan u c f).ctxs = s.ctxs := rfl
@[simp] theorem State.modChan_jobs (s : State) (u c : Nat) (f : Channel → Channel) : (s.modChan u c f).jobs = s.jobs := rfl
@[simp] theorem State.modChan_nextJob (s : State) (u c : Nat) (f : Channel → Channel) : (s.modChan u c f).nextJob = s.nextJob := rfl
@[simp] theorem State.modChan_ctxOps (s : State) (u c : Nat) (f : Channel → Channel) : (s.modChan u c f).ctxOps = s.ctxOps := rfl
@[simp] theorem State.modChan_sl (s : State) (u c : Nat) (f : Channel → Channel) : (s.modChan u c f).sl = s.sl := rfl
@[simp] theorem State.modChan_tab (s : State) (u c : Nat) (f : Channel → Channel) : (s.modChan u c f).tab = s.tab := rfl
@[simp] theorem State.modChan_fab (s : State) (u c : Nat) (f : Channel → Channel) : (s.modChan u c f).fab = s.fab := rfl
@[simp] theorem State.modChan_strm (s : State) (u c : Nat) (f : Channel → Channel) : (s.modChan u c f).strm = s.strm := rfl
@[simp] theorem State.modChan_host (s : State) (u c : Nat) (f : Channel → Channel) : (s.modChan u c f).host = s.host := rfl
@[simp] theorem State.modChan_mgmt (s : State) (u c : Nat) (f : Channel → Channel) : (s.modChan u c f).mgmt = s.mgmt := rfl
@[simp] theorem State.modChan_av (s : State) (u c : Nat) (f : Channel → Channel) : (s.modChan u c f).av = s.av := rfl
@[simp] theorem State.modChan_fw (s : State) (u c : Nat) (f : Channel → Channel) : (s.modChan u c f).fw = s.fw := rfl
@[simp] theorem State.modChan_tap (s : State) (u c : Nat) (f : Channel → Channel) : (s.modChan u c f).tap = s.tap := rfl

/-! setLines writes tiers alone. -/

@[simp] theorem State.setLines_pending (s : State) (k : Nat) (l : List Line) : (s.setLines k l).pending = s.pending := rfl
@[simp] theorem State.setLines_now (s : State) (k : Nat) (l : List Line) : (s.setLines k l).now = s.now := rfl
@[simp] theorem State.setLines_free (s : State) (k : Nat) (l : List Line) : (s.setLines k l).free = s.free := rfl
@[simp] theorem State.setLines_top (s : State) (k : Nat) (l : List Line) : (s.setLines k l).top = s.top := rfl
@[simp] theorem State.setLines_alloc (s : State) (k : Nat) (l : List Line) : (s.setLines k l).alloc = s.alloc := rfl
@[simp] theorem State.setLines_pow (s : State) (k : Nat) (l : List Line) : (s.setLines k l).pow = s.pow := rfl
@[simp] theorem State.setLines_regs (s : State) (k : Nat) (l : List Line) : (s.setLines k l).regs = s.regs := rfl
@[simp] theorem State.setLines_blobs (s : State) (k : Nat) (l : List Line) : (s.setLines k l).blobs = s.blobs := rfl
@[simp] theorem State.setLines_mem (s : State) (k : Nat) (l : List Line) : (s.setLines k l).mem = s.mem := rfl
@[simp] theorem State.setLines_cores (s : State) (k : Nat) (l : List Line) : (s.setLines k l).cores = s.cores := rfl
@[simp] theorem State.setLines_ctxs (s : State) (k : Nat) (l : List Line) : (s.setLines k l).ctxs = s.ctxs := rfl
@[simp] theorem State.setLines_jobs (s : State) (k : Nat) (l : List Line) : (s.setLines k l).jobs = s.jobs := rfl
@[simp] theorem State.setLines_nextJob (s : State) (k : Nat) (l : List Line) : (s.setLines k l).nextJob = s.nextJob := rfl
@[simp] theorem State.setLines_ctxOps (s : State) (k : Nat) (l : List Line) : (s.setLines k l).ctxOps = s.ctxOps := rfl
@[simp] theorem State.setLines_sl (s : State) (k : Nat) (l : List Line) : (s.setLines k l).sl = s.sl := rfl
@[simp] theorem State.setLines_tab (s : State) (k : Nat) (l : List Line) : (s.setLines k l).tab = s.tab := rfl
@[simp] theorem State.setLines_fab (s : State) (k : Nat) (l : List Line) : (s.setLines k l).fab = s.fab := rfl
@[simp] theorem State.setLines_strm (s : State) (k : Nat) (l : List Line) : (s.setLines k l).strm = s.strm := rfl
@[simp] theorem State.setLines_host (s : State) (k : Nat) (l : List Line) : (s.setLines k l).host = s.host := rfl
@[simp] theorem State.setLines_mgmt (s : State) (k : Nat) (l : List Line) : (s.setLines k l).mgmt = s.mgmt := rfl
@[simp] theorem State.setLines_av (s : State) (k : Nat) (l : List Line) : (s.setLines k l).av = s.av := rfl
@[simp] theorem State.setLines_fw (s : State) (k : Nat) (l : List Line) : (s.setLines k l).fw = s.fw := rfl
@[simp] theorem State.setLines_tap (s : State) (k : Nat) (l : List Line) : (s.setLines k l).tap = s.tap := rfl

/-! setLink writes fab alone. -/

@[simp] theorem State.setLink_pending (s : State) (e : Nat) (l : Link) : (s.setLink e l).pending = s.pending := rfl
@[simp] theorem State.setLink_now (s : State) (e : Nat) (l : Link) : (s.setLink e l).now = s.now := rfl
@[simp] theorem State.setLink_free (s : State) (e : Nat) (l : Link) : (s.setLink e l).free = s.free := rfl
@[simp] theorem State.setLink_top (s : State) (e : Nat) (l : Link) : (s.setLink e l).top = s.top := rfl
@[simp] theorem State.setLink_alloc (s : State) (e : Nat) (l : Link) : (s.setLink e l).alloc = s.alloc := rfl
@[simp] theorem State.setLink_pow (s : State) (e : Nat) (l : Link) : (s.setLink e l).pow = s.pow := rfl
@[simp] theorem State.setLink_regs (s : State) (e : Nat) (l : Link) : (s.setLink e l).regs = s.regs := rfl
@[simp] theorem State.setLink_blobs (s : State) (e : Nat) (l : Link) : (s.setLink e l).blobs = s.blobs := rfl
@[simp] theorem State.setLink_mem (s : State) (e : Nat) (l : Link) : (s.setLink e l).mem = s.mem := rfl
@[simp] theorem State.setLink_cores (s : State) (e : Nat) (l : Link) : (s.setLink e l).cores = s.cores := rfl
@[simp] theorem State.setLink_ctxs (s : State) (e : Nat) (l : Link) : (s.setLink e l).ctxs = s.ctxs := rfl
@[simp] theorem State.setLink_jobs (s : State) (e : Nat) (l : Link) : (s.setLink e l).jobs = s.jobs := rfl
@[simp] theorem State.setLink_nextJob (s : State) (e : Nat) (l : Link) : (s.setLink e l).nextJob = s.nextJob := rfl
@[simp] theorem State.setLink_ctxOps (s : State) (e : Nat) (l : Link) : (s.setLink e l).ctxOps = s.ctxOps := rfl
@[simp] theorem State.setLink_tiers (s : State) (e : Nat) (l : Link) : (s.setLink e l).tiers = s.tiers := rfl
@[simp] theorem State.setLink_sl (s : State) (e : Nat) (l : Link) : (s.setLink e l).sl = s.sl := rfl
@[simp] theorem State.setLink_tab (s : State) (e : Nat) (l : Link) : (s.setLink e l).tab = s.tab := rfl
@[simp] theorem State.setLink_strm (s : State) (e : Nat) (l : Link) : (s.setLink e l).strm = s.strm := rfl
@[simp] theorem State.setLink_host (s : State) (e : Nat) (l : Link) : (s.setLink e l).host = s.host := rfl
@[simp] theorem State.setLink_mgmt (s : State) (e : Nat) (l : Link) : (s.setLink e l).mgmt = s.mgmt := rfl
@[simp] theorem State.setLink_av (s : State) (e : Nat) (l : Link) : (s.setLink e l).av = s.av := rfl
@[simp] theorem State.setLink_fw (s : State) (e : Nat) (l : Link) : (s.setLink e l).fw = s.fw := rfl
@[simp] theorem State.setLink_tap (s : State) (e : Nat) (l : Link) : (s.setLink e l).tap = s.tap := rfl

/-! setEng writes regs alone. -/

@[simp] theorem State.setEng_pending (s : State) (e sub v : Nat) : (s.setEng e sub v).pending = s.pending := rfl
@[simp] theorem State.setEng_now (s : State) (e sub v : Nat) : (s.setEng e sub v).now = s.now := rfl
@[simp] theorem State.setEng_free (s : State) (e sub v : Nat) : (s.setEng e sub v).free = s.free := rfl
@[simp] theorem State.setEng_top (s : State) (e sub v : Nat) : (s.setEng e sub v).top = s.top := rfl
@[simp] theorem State.setEng_alloc (s : State) (e sub v : Nat) : (s.setEng e sub v).alloc = s.alloc := rfl
@[simp] theorem State.setEng_pow (s : State) (e sub v : Nat) : (s.setEng e sub v).pow = s.pow := rfl
@[simp] theorem State.setEng_blobs (s : State) (e sub v : Nat) : (s.setEng e sub v).blobs = s.blobs := rfl
@[simp] theorem State.setEng_mem (s : State) (e sub v : Nat) : (s.setEng e sub v).mem = s.mem := rfl
@[simp] theorem State.setEng_cores (s : State) (e sub v : Nat) : (s.setEng e sub v).cores = s.cores := rfl
@[simp] theorem State.setEng_ctxs (s : State) (e sub v : Nat) : (s.setEng e sub v).ctxs = s.ctxs := rfl
@[simp] theorem State.setEng_jobs (s : State) (e sub v : Nat) : (s.setEng e sub v).jobs = s.jobs := rfl
@[simp] theorem State.setEng_nextJob (s : State) (e sub v : Nat) : (s.setEng e sub v).nextJob = s.nextJob := rfl
@[simp] theorem State.setEng_ctxOps (s : State) (e sub v : Nat) : (s.setEng e sub v).ctxOps = s.ctxOps := rfl
@[simp] theorem State.setEng_tiers (s : State) (e sub v : Nat) : (s.setEng e sub v).tiers = s.tiers := rfl
@[simp] theorem State.setEng_sl (s : State) (e sub v : Nat) : (s.setEng e sub v).sl = s.sl := rfl
@[simp] theorem State.setEng_tab (s : State) (e sub v : Nat) : (s.setEng e sub v).tab = s.tab := rfl
@[simp] theorem State.setEng_fab (s : State) (e sub v : Nat) : (s.setEng e sub v).fab = s.fab := rfl
@[simp] theorem State.setEng_strm (s : State) (e sub v : Nat) : (s.setEng e sub v).strm = s.strm := rfl
@[simp] theorem State.setEng_host (s : State) (e sub v : Nat) : (s.setEng e sub v).host = s.host := rfl
@[simp] theorem State.setEng_mgmt (s : State) (e sub v : Nat) : (s.setEng e sub v).mgmt = s.mgmt := rfl
@[simp] theorem State.setEng_av (s : State) (e sub v : Nat) : (s.setEng e sub v).av = s.av := rfl
@[simp] theorem State.setEng_fw (s : State) (e sub v : Nat) : (s.setEng e sub v).fw = s.fw := rfl
@[simp] theorem State.setEng_tap (s : State) (e sub v : Nat) : (s.setEng e sub v).tap = s.tap := rfl

/-! setPin writes sl alone. -/

@[simp] theorem State.setPin_pending (s : State) (die slot : Nat) (p : Option Pin) : (s.setPin die slot p).pending = s.pending := rfl
@[simp] theorem State.setPin_now (s : State) (die slot : Nat) (p : Option Pin) : (s.setPin die slot p).now = s.now := rfl
@[simp] theorem State.setPin_free (s : State) (die slot : Nat) (p : Option Pin) : (s.setPin die slot p).free = s.free := rfl
@[simp] theorem State.setPin_top (s : State) (die slot : Nat) (p : Option Pin) : (s.setPin die slot p).top = s.top := rfl
@[simp] theorem State.setPin_alloc (s : State) (die slot : Nat) (p : Option Pin) : (s.setPin die slot p).alloc = s.alloc := rfl
@[simp] theorem State.setPin_pow (s : State) (die slot : Nat) (p : Option Pin) : (s.setPin die slot p).pow = s.pow := rfl
@[simp] theorem State.setPin_regs (s : State) (die slot : Nat) (p : Option Pin) : (s.setPin die slot p).regs = s.regs := rfl
@[simp] theorem State.setPin_blobs (s : State) (die slot : Nat) (p : Option Pin) : (s.setPin die slot p).blobs = s.blobs := rfl
@[simp] theorem State.setPin_mem (s : State) (die slot : Nat) (p : Option Pin) : (s.setPin die slot p).mem = s.mem := rfl
@[simp] theorem State.setPin_cores (s : State) (die slot : Nat) (p : Option Pin) : (s.setPin die slot p).cores = s.cores := rfl
@[simp] theorem State.setPin_ctxs (s : State) (die slot : Nat) (p : Option Pin) : (s.setPin die slot p).ctxs = s.ctxs := rfl
@[simp] theorem State.setPin_jobs (s : State) (die slot : Nat) (p : Option Pin) : (s.setPin die slot p).jobs = s.jobs := rfl
@[simp] theorem State.setPin_nextJob (s : State) (die slot : Nat) (p : Option Pin) : (s.setPin die slot p).nextJob = s.nextJob := rfl
@[simp] theorem State.setPin_ctxOps (s : State) (die slot : Nat) (p : Option Pin) : (s.setPin die slot p).ctxOps = s.ctxOps := rfl
@[simp] theorem State.setPin_tiers (s : State) (die slot : Nat) (p : Option Pin) : (s.setPin die slot p).tiers = s.tiers := rfl
@[simp] theorem State.setPin_tab (s : State) (die slot : Nat) (p : Option Pin) : (s.setPin die slot p).tab = s.tab := rfl
@[simp] theorem State.setPin_fab (s : State) (die slot : Nat) (p : Option Pin) : (s.setPin die slot p).fab = s.fab := rfl
@[simp] theorem State.setPin_strm (s : State) (die slot : Nat) (p : Option Pin) : (s.setPin die slot p).strm = s.strm := rfl
@[simp] theorem State.setPin_host (s : State) (die slot : Nat) (p : Option Pin) : (s.setPin die slot p).host = s.host := rfl
@[simp] theorem State.setPin_mgmt (s : State) (die slot : Nat) (p : Option Pin) : (s.setPin die slot p).mgmt = s.mgmt := rfl
@[simp] theorem State.setPin_av (s : State) (die slot : Nat) (p : Option Pin) : (s.setPin die slot p).av = s.av := rfl
@[simp] theorem State.setPin_fw (s : State) (die slot : Nat) (p : Option Pin) : (s.setPin die slot p).fw = s.fw := rfl
@[simp] theorem State.setPin_tap (s : State) (die slot : Nat) (p : Option Pin) : (s.setPin die slot p).tap = s.tap := rfl

/-! modGroup writes sl alone. -/

@[simp] theorem State.modGroup_pending (s : State) (g : Nat) (f : Group → Group) : (s.modGroup g f).pending = s.pending := rfl
@[simp] theorem State.modGroup_now (s : State) (g : Nat) (f : Group → Group) : (s.modGroup g f).now = s.now := rfl
@[simp] theorem State.modGroup_free (s : State) (g : Nat) (f : Group → Group) : (s.modGroup g f).free = s.free := rfl
@[simp] theorem State.modGroup_top (s : State) (g : Nat) (f : Group → Group) : (s.modGroup g f).top = s.top := rfl
@[simp] theorem State.modGroup_alloc (s : State) (g : Nat) (f : Group → Group) : (s.modGroup g f).alloc = s.alloc := rfl
@[simp] theorem State.modGroup_pow (s : State) (g : Nat) (f : Group → Group) : (s.modGroup g f).pow = s.pow := rfl
@[simp] theorem State.modGroup_regs (s : State) (g : Nat) (f : Group → Group) : (s.modGroup g f).regs = s.regs := rfl
@[simp] theorem State.modGroup_blobs (s : State) (g : Nat) (f : Group → Group) : (s.modGroup g f).blobs = s.blobs := rfl
@[simp] theorem State.modGroup_mem (s : State) (g : Nat) (f : Group → Group) : (s.modGroup g f).mem = s.mem := rfl
@[simp] theorem State.modGroup_cores (s : State) (g : Nat) (f : Group → Group) : (s.modGroup g f).cores = s.cores := rfl
@[simp] theorem State.modGroup_ctxs (s : State) (g : Nat) (f : Group → Group) : (s.modGroup g f).ctxs = s.ctxs := rfl
@[simp] theorem State.modGroup_jobs (s : State) (g : Nat) (f : Group → Group) : (s.modGroup g f).jobs = s.jobs := rfl
@[simp] theorem State.modGroup_nextJob (s : State) (g : Nat) (f : Group → Group) : (s.modGroup g f).nextJob = s.nextJob := rfl
@[simp] theorem State.modGroup_ctxOps (s : State) (g : Nat) (f : Group → Group) : (s.modGroup g f).ctxOps = s.ctxOps := rfl
@[simp] theorem State.modGroup_tiers (s : State) (g : Nat) (f : Group → Group) : (s.modGroup g f).tiers = s.tiers := rfl
@[simp] theorem State.modGroup_tab (s : State) (g : Nat) (f : Group → Group) : (s.modGroup g f).tab = s.tab := rfl
@[simp] theorem State.modGroup_fab (s : State) (g : Nat) (f : Group → Group) : (s.modGroup g f).fab = s.fab := rfl
@[simp] theorem State.modGroup_strm (s : State) (g : Nat) (f : Group → Group) : (s.modGroup g f).strm = s.strm := rfl
@[simp] theorem State.modGroup_host (s : State) (g : Nat) (f : Group → Group) : (s.modGroup g f).host = s.host := rfl
@[simp] theorem State.modGroup_mgmt (s : State) (g : Nat) (f : Group → Group) : (s.modGroup g f).mgmt = s.mgmt := rfl
@[simp] theorem State.modGroup_av (s : State) (g : Nat) (f : Group → Group) : (s.modGroup g f).av = s.av := rfl
@[simp] theorem State.modGroup_fw (s : State) (g : Nat) (f : Group → Group) : (s.modGroup g f).fw = s.fw := rfl
@[simp] theorem State.modGroup_tap (s : State) (g : Nat) (f : Group → Group) : (s.modGroup g f).tap = s.tap := rfl

/-! unlock writes sl alone. -/

@[simp] theorem State.unlock_pending (s : State) (g : Nat) : (s.unlock g).pending = s.pending := rfl
@[simp] theorem State.unlock_now (s : State) (g : Nat) : (s.unlock g).now = s.now := rfl
@[simp] theorem State.unlock_free (s : State) (g : Nat) : (s.unlock g).free = s.free := rfl
@[simp] theorem State.unlock_top (s : State) (g : Nat) : (s.unlock g).top = s.top := rfl
@[simp] theorem State.unlock_alloc (s : State) (g : Nat) : (s.unlock g).alloc = s.alloc := rfl
@[simp] theorem State.unlock_pow (s : State) (g : Nat) : (s.unlock g).pow = s.pow := rfl
@[simp] theorem State.unlock_regs (s : State) (g : Nat) : (s.unlock g).regs = s.regs := rfl
@[simp] theorem State.unlock_blobs (s : State) (g : Nat) : (s.unlock g).blobs = s.blobs := rfl
@[simp] theorem State.unlock_mem (s : State) (g : Nat) : (s.unlock g).mem = s.mem := rfl
@[simp] theorem State.unlock_cores (s : State) (g : Nat) : (s.unlock g).cores = s.cores := rfl
@[simp] theorem State.unlock_ctxs (s : State) (g : Nat) : (s.unlock g).ctxs = s.ctxs := rfl
@[simp] theorem State.unlock_jobs (s : State) (g : Nat) : (s.unlock g).jobs = s.jobs := rfl
@[simp] theorem State.unlock_nextJob (s : State) (g : Nat) : (s.unlock g).nextJob = s.nextJob := rfl
@[simp] theorem State.unlock_ctxOps (s : State) (g : Nat) : (s.unlock g).ctxOps = s.ctxOps := rfl
@[simp] theorem State.unlock_tiers (s : State) (g : Nat) : (s.unlock g).tiers = s.tiers := rfl
@[simp] theorem State.unlock_tab (s : State) (g : Nat) : (s.unlock g).tab = s.tab := rfl
@[simp] theorem State.unlock_fab (s : State) (g : Nat) : (s.unlock g).fab = s.fab := rfl
@[simp] theorem State.unlock_strm (s : State) (g : Nat) : (s.unlock g).strm = s.strm := rfl
@[simp] theorem State.unlock_host (s : State) (g : Nat) : (s.unlock g).host = s.host := rfl
@[simp] theorem State.unlock_mgmt (s : State) (g : Nat) : (s.unlock g).mgmt = s.mgmt := rfl
@[simp] theorem State.unlock_av (s : State) (g : Nat) : (s.unlock g).av = s.av := rfl
@[simp] theorem State.unlock_fw (s : State) (g : Nat) : (s.unlock g).fw = s.fw := rfl
@[simp] theorem State.unlock_tap (s : State) (g : Nat) : (s.unlock g).tap = s.tap := rfl

/-! setHomeMark writes tab alone. -/

@[simp] theorem State.setHomeMark_pending (s : State) (t r m : Nat) : (s.setHomeMark t r m).pending = s.pending := rfl
@[simp] theorem State.setHomeMark_now (s : State) (t r m : Nat) : (s.setHomeMark t r m).now = s.now := rfl
@[simp] theorem State.setHomeMark_free (s : State) (t r m : Nat) : (s.setHomeMark t r m).free = s.free := rfl
@[simp] theorem State.setHomeMark_top (s : State) (t r m : Nat) : (s.setHomeMark t r m).top = s.top := rfl
@[simp] theorem State.setHomeMark_alloc (s : State) (t r m : Nat) : (s.setHomeMark t r m).alloc = s.alloc := rfl
@[simp] theorem State.setHomeMark_pow (s : State) (t r m : Nat) : (s.setHomeMark t r m).pow = s.pow := rfl
@[simp] theorem State.setHomeMark_regs (s : State) (t r m : Nat) : (s.setHomeMark t r m).regs = s.regs := rfl
@[simp] theorem State.setHomeMark_blobs (s : State) (t r m : Nat) : (s.setHomeMark t r m).blobs = s.blobs := rfl
@[simp] theorem State.setHomeMark_mem (s : State) (t r m : Nat) : (s.setHomeMark t r m).mem = s.mem := rfl
@[simp] theorem State.setHomeMark_cores (s : State) (t r m : Nat) : (s.setHomeMark t r m).cores = s.cores := rfl
@[simp] theorem State.setHomeMark_ctxs (s : State) (t r m : Nat) : (s.setHomeMark t r m).ctxs = s.ctxs := rfl
@[simp] theorem State.setHomeMark_jobs (s : State) (t r m : Nat) : (s.setHomeMark t r m).jobs = s.jobs := rfl
@[simp] theorem State.setHomeMark_nextJob (s : State) (t r m : Nat) : (s.setHomeMark t r m).nextJob = s.nextJob := rfl
@[simp] theorem State.setHomeMark_ctxOps (s : State) (t r m : Nat) : (s.setHomeMark t r m).ctxOps = s.ctxOps := rfl
@[simp] theorem State.setHomeMark_tiers (s : State) (t r m : Nat) : (s.setHomeMark t r m).tiers = s.tiers := rfl
@[simp] theorem State.setHomeMark_sl (s : State) (t r m : Nat) : (s.setHomeMark t r m).sl = s.sl := rfl
@[simp] theorem State.setHomeMark_fab (s : State) (t r m : Nat) : (s.setHomeMark t r m).fab = s.fab := rfl
@[simp] theorem State.setHomeMark_strm (s : State) (t r m : Nat) : (s.setHomeMark t r m).strm = s.strm := rfl
@[simp] theorem State.setHomeMark_host (s : State) (t r m : Nat) : (s.setHomeMark t r m).host = s.host := rfl
@[simp] theorem State.setHomeMark_mgmt (s : State) (t r m : Nat) : (s.setHomeMark t r m).mgmt = s.mgmt := rfl
@[simp] theorem State.setHomeMark_av (s : State) (t r m : Nat) : (s.setHomeMark t r m).av = s.av := rfl
@[simp] theorem State.setHomeMark_fw (s : State) (t r m : Nat) : (s.setHomeMark t r m).fw = s.fw := rfl
@[simp] theorem State.setHomeMark_tap (s : State) (t r m : Nat) : (s.setHomeMark t r m).tap = s.tap := rfl

/-! setMailbox writes host alone. -/

@[simp] theorem State.setMailbox_pending (s : State) (acc : Nat) (m : Mailbox) : (s.setMailbox acc m).pending = s.pending := rfl
@[simp] theorem State.setMailbox_now (s : State) (acc : Nat) (m : Mailbox) : (s.setMailbox acc m).now = s.now := rfl
@[simp] theorem State.setMailbox_free (s : State) (acc : Nat) (m : Mailbox) : (s.setMailbox acc m).free = s.free := rfl
@[simp] theorem State.setMailbox_top (s : State) (acc : Nat) (m : Mailbox) : (s.setMailbox acc m).top = s.top := rfl
@[simp] theorem State.setMailbox_alloc (s : State) (acc : Nat) (m : Mailbox) : (s.setMailbox acc m).alloc = s.alloc := rfl
@[simp] theorem State.setMailbox_pow (s : State) (acc : Nat) (m : Mailbox) : (s.setMailbox acc m).pow = s.pow := rfl
@[simp] theorem State.setMailbox_regs (s : State) (acc : Nat) (m : Mailbox) : (s.setMailbox acc m).regs = s.regs := rfl
@[simp] theorem State.setMailbox_blobs (s : State) (acc : Nat) (m : Mailbox) : (s.setMailbox acc m).blobs = s.blobs := rfl
@[simp] theorem State.setMailbox_mem (s : State) (acc : Nat) (m : Mailbox) : (s.setMailbox acc m).mem = s.mem := rfl
@[simp] theorem State.setMailbox_cores (s : State) (acc : Nat) (m : Mailbox) : (s.setMailbox acc m).cores = s.cores := rfl
@[simp] theorem State.setMailbox_ctxs (s : State) (acc : Nat) (m : Mailbox) : (s.setMailbox acc m).ctxs = s.ctxs := rfl
@[simp] theorem State.setMailbox_jobs (s : State) (acc : Nat) (m : Mailbox) : (s.setMailbox acc m).jobs = s.jobs := rfl
@[simp] theorem State.setMailbox_nextJob (s : State) (acc : Nat) (m : Mailbox) : (s.setMailbox acc m).nextJob = s.nextJob := rfl
@[simp] theorem State.setMailbox_ctxOps (s : State) (acc : Nat) (m : Mailbox) : (s.setMailbox acc m).ctxOps = s.ctxOps := rfl
@[simp] theorem State.setMailbox_tiers (s : State) (acc : Nat) (m : Mailbox) : (s.setMailbox acc m).tiers = s.tiers := rfl
@[simp] theorem State.setMailbox_sl (s : State) (acc : Nat) (m : Mailbox) : (s.setMailbox acc m).sl = s.sl := rfl
@[simp] theorem State.setMailbox_tab (s : State) (acc : Nat) (m : Mailbox) : (s.setMailbox acc m).tab = s.tab := rfl
@[simp] theorem State.setMailbox_fab (s : State) (acc : Nat) (m : Mailbox) : (s.setMailbox acc m).fab = s.fab := rfl
@[simp] theorem State.setMailbox_strm (s : State) (acc : Nat) (m : Mailbox) : (s.setMailbox acc m).strm = s.strm := rfl
@[simp] theorem State.setMailbox_mgmt (s : State) (acc : Nat) (m : Mailbox) : (s.setMailbox acc m).mgmt = s.mgmt := rfl
@[simp] theorem State.setMailbox_av (s : State) (acc : Nat) (m : Mailbox) : (s.setMailbox acc m).av = s.av := rfl
@[simp] theorem State.setMailbox_fw (s : State) (acc : Nat) (m : Mailbox) : (s.setMailbox acc m).fw = s.fw := rfl
@[simp] theorem State.setMailbox_tap (s : State) (acc : Nat) (m : Mailbox) : (s.setMailbox acc m).tap = s.tap := rfl

/-! modEntry writes strm alone. -/

@[simp] theorem State.modEntry_pending (s : State) (n : Nat) (f : Desc → Desc) : (s.modEntry n f).pending = s.pending := rfl
@[simp] theorem State.modEntry_now (s : State) (n : Nat) (f : Desc → Desc) : (s.modEntry n f).now = s.now := rfl
@[simp] theorem State.modEntry_free (s : State) (n : Nat) (f : Desc → Desc) : (s.modEntry n f).free = s.free := rfl
@[simp] theorem State.modEntry_top (s : State) (n : Nat) (f : Desc → Desc) : (s.modEntry n f).top = s.top := rfl
@[simp] theorem State.modEntry_alloc (s : State) (n : Nat) (f : Desc → Desc) : (s.modEntry n f).alloc = s.alloc := rfl
@[simp] theorem State.modEntry_pow (s : State) (n : Nat) (f : Desc → Desc) : (s.modEntry n f).pow = s.pow := rfl
@[simp] theorem State.modEntry_regs (s : State) (n : Nat) (f : Desc → Desc) : (s.modEntry n f).regs = s.regs := rfl
@[simp] theorem State.modEntry_blobs (s : State) (n : Nat) (f : Desc → Desc) : (s.modEntry n f).blobs = s.blobs := rfl
@[simp] theorem State.modEntry_mem (s : State) (n : Nat) (f : Desc → Desc) : (s.modEntry n f).mem = s.mem := rfl
@[simp] theorem State.modEntry_cores (s : State) (n : Nat) (f : Desc → Desc) : (s.modEntry n f).cores = s.cores := rfl
@[simp] theorem State.modEntry_ctxs (s : State) (n : Nat) (f : Desc → Desc) : (s.modEntry n f).ctxs = s.ctxs := rfl
@[simp] theorem State.modEntry_jobs (s : State) (n : Nat) (f : Desc → Desc) : (s.modEntry n f).jobs = s.jobs := rfl
@[simp] theorem State.modEntry_nextJob (s : State) (n : Nat) (f : Desc → Desc) : (s.modEntry n f).nextJob = s.nextJob := rfl
@[simp] theorem State.modEntry_ctxOps (s : State) (n : Nat) (f : Desc → Desc) : (s.modEntry n f).ctxOps = s.ctxOps := rfl
@[simp] theorem State.modEntry_tiers (s : State) (n : Nat) (f : Desc → Desc) : (s.modEntry n f).tiers = s.tiers := rfl
@[simp] theorem State.modEntry_sl (s : State) (n : Nat) (f : Desc → Desc) : (s.modEntry n f).sl = s.sl := rfl
@[simp] theorem State.modEntry_tab (s : State) (n : Nat) (f : Desc → Desc) : (s.modEntry n f).tab = s.tab := rfl
@[simp] theorem State.modEntry_fab (s : State) (n : Nat) (f : Desc → Desc) : (s.modEntry n f).fab = s.fab := rfl
@[simp] theorem State.modEntry_host (s : State) (n : Nat) (f : Desc → Desc) : (s.modEntry n f).host = s.host := rfl
@[simp] theorem State.modEntry_mgmt (s : State) (n : Nat) (f : Desc → Desc) : (s.modEntry n f).mgmt = s.mgmt := rfl
@[simp] theorem State.modEntry_av (s : State) (n : Nat) (f : Desc → Desc) : (s.modEntry n f).av = s.av := rfl
@[simp] theorem State.modEntry_fw (s : State) (n : Nat) (f : Desc → Desc) : (s.modEntry n f).fw = s.fw := rfl
@[simp] theorem State.modEntry_tap (s : State) (n : Nat) (f : Desc → Desc) : (s.modEntry n f).tap = s.tap := rfl

/-! setBatches writes strm alone. -/

@[simp] theorem State.setBatches_pending (s : State) (n : Nat) (l : List Batch) : (s.setBatches n l).pending = s.pending := rfl
@[simp] theorem State.setBatches_now (s : State) (n : Nat) (l : List Batch) : (s.setBatches n l).now = s.now := rfl
@[simp] theorem State.setBatches_free (s : State) (n : Nat) (l : List Batch) : (s.setBatches n l).free = s.free := rfl
@[simp] theorem State.setBatches_top (s : State) (n : Nat) (l : List Batch) : (s.setBatches n l).top = s.top := rfl
@[simp] theorem State.setBatches_alloc (s : State) (n : Nat) (l : List Batch) : (s.setBatches n l).alloc = s.alloc := rfl
@[simp] theorem State.setBatches_pow (s : State) (n : Nat) (l : List Batch) : (s.setBatches n l).pow = s.pow := rfl
@[simp] theorem State.setBatches_regs (s : State) (n : Nat) (l : List Batch) : (s.setBatches n l).regs = s.regs := rfl
@[simp] theorem State.setBatches_blobs (s : State) (n : Nat) (l : List Batch) : (s.setBatches n l).blobs = s.blobs := rfl
@[simp] theorem State.setBatches_mem (s : State) (n : Nat) (l : List Batch) : (s.setBatches n l).mem = s.mem := rfl
@[simp] theorem State.setBatches_cores (s : State) (n : Nat) (l : List Batch) : (s.setBatches n l).cores = s.cores := rfl
@[simp] theorem State.setBatches_ctxs (s : State) (n : Nat) (l : List Batch) : (s.setBatches n l).ctxs = s.ctxs := rfl
@[simp] theorem State.setBatches_jobs (s : State) (n : Nat) (l : List Batch) : (s.setBatches n l).jobs = s.jobs := rfl
@[simp] theorem State.setBatches_nextJob (s : State) (n : Nat) (l : List Batch) : (s.setBatches n l).nextJob = s.nextJob := rfl
@[simp] theorem State.setBatches_ctxOps (s : State) (n : Nat) (l : List Batch) : (s.setBatches n l).ctxOps = s.ctxOps := rfl
@[simp] theorem State.setBatches_tiers (s : State) (n : Nat) (l : List Batch) : (s.setBatches n l).tiers = s.tiers := rfl
@[simp] theorem State.setBatches_sl (s : State) (n : Nat) (l : List Batch) : (s.setBatches n l).sl = s.sl := rfl
@[simp] theorem State.setBatches_tab (s : State) (n : Nat) (l : List Batch) : (s.setBatches n l).tab = s.tab := rfl
@[simp] theorem State.setBatches_fab (s : State) (n : Nat) (l : List Batch) : (s.setBatches n l).fab = s.fab := rfl
@[simp] theorem State.setBatches_host (s : State) (n : Nat) (l : List Batch) : (s.setBatches n l).host = s.host := rfl
@[simp] theorem State.setBatches_mgmt (s : State) (n : Nat) (l : List Batch) : (s.setBatches n l).mgmt = s.mgmt := rfl
@[simp] theorem State.setBatches_av (s : State) (n : Nat) (l : List Batch) : (s.setBatches n l).av = s.av := rfl
@[simp] theorem State.setBatches_fw (s : State) (n : Nat) (l : List Batch) : (s.setBatches n l).fw = s.fw := rfl
@[simp] theorem State.setBatches_tap (s : State) (n : Nat) (l : List Batch) : (s.setBatches n l).tap = s.tap := rfl

/-! modChunk writes strm alone. -/

@[simp] theorem State.modChunk_pending (s : State) (c : Nat) (f : Chunk → Chunk) : (s.modChunk c f).pending = s.pending := rfl
@[simp] theorem State.modChunk_now (s : State) (c : Nat) (f : Chunk → Chunk) : (s.modChunk c f).now = s.now := rfl
@[simp] theorem State.modChunk_free (s : State) (c : Nat) (f : Chunk → Chunk) : (s.modChunk c f).free = s.free := rfl
@[simp] theorem State.modChunk_top (s : State) (c : Nat) (f : Chunk → Chunk) : (s.modChunk c f).top = s.top := rfl
@[simp] theorem State.modChunk_alloc (s : State) (c : Nat) (f : Chunk → Chunk) : (s.modChunk c f).alloc = s.alloc := rfl
@[simp] theorem State.modChunk_pow (s : State) (c : Nat) (f : Chunk → Chunk) : (s.modChunk c f).pow = s.pow := rfl
@[simp] theorem State.modChunk_regs (s : State) (c : Nat) (f : Chunk → Chunk) : (s.modChunk c f).regs = s.regs := rfl
@[simp] theorem State.modChunk_blobs (s : State) (c : Nat) (f : Chunk → Chunk) : (s.modChunk c f).blobs = s.blobs := rfl
@[simp] theorem State.modChunk_mem (s : State) (c : Nat) (f : Chunk → Chunk) : (s.modChunk c f).mem = s.mem := rfl
@[simp] theorem State.modChunk_cores (s : State) (c : Nat) (f : Chunk → Chunk) : (s.modChunk c f).cores = s.cores := rfl
@[simp] theorem State.modChunk_ctxs (s : State) (c : Nat) (f : Chunk → Chunk) : (s.modChunk c f).ctxs = s.ctxs := rfl
@[simp] theorem State.modChunk_jobs (s : State) (c : Nat) (f : Chunk → Chunk) : (s.modChunk c f).jobs = s.jobs := rfl
@[simp] theorem State.modChunk_nextJob (s : State) (c : Nat) (f : Chunk → Chunk) : (s.modChunk c f).nextJob = s.nextJob := rfl
@[simp] theorem State.modChunk_ctxOps (s : State) (c : Nat) (f : Chunk → Chunk) : (s.modChunk c f).ctxOps = s.ctxOps := rfl
@[simp] theorem State.modChunk_tiers (s : State) (c : Nat) (f : Chunk → Chunk) : (s.modChunk c f).tiers = s.tiers := rfl
@[simp] theorem State.modChunk_sl (s : State) (c : Nat) (f : Chunk → Chunk) : (s.modChunk c f).sl = s.sl := rfl
@[simp] theorem State.modChunk_tab (s : State) (c : Nat) (f : Chunk → Chunk) : (s.modChunk c f).tab = s.tab := rfl
@[simp] theorem State.modChunk_fab (s : State) (c : Nat) (f : Chunk → Chunk) : (s.modChunk c f).fab = s.fab := rfl
@[simp] theorem State.modChunk_host (s : State) (c : Nat) (f : Chunk → Chunk) : (s.modChunk c f).host = s.host := rfl
@[simp] theorem State.modChunk_mgmt (s : State) (c : Nat) (f : Chunk → Chunk) : (s.modChunk c f).mgmt = s.mgmt := rfl
@[simp] theorem State.modChunk_av (s : State) (c : Nat) (f : Chunk → Chunk) : (s.modChunk c f).av = s.av := rfl
@[simp] theorem State.modChunk_fw (s : State) (c : Nat) (f : Chunk → Chunk) : (s.modChunk c f).fw = s.fw := rfl
@[simp] theorem State.modChunk_tap (s : State) (c : Nat) (f : Chunk → Chunk) : (s.modChunk c f).tap = s.tap := rfl

/-! dropChunk writes strm alone. -/

@[simp] theorem State.dropChunk_pending (s : State) (c : Nat) : (s.dropChunk c).pending = s.pending := rfl
@[simp] theorem State.dropChunk_now (s : State) (c : Nat) : (s.dropChunk c).now = s.now := rfl
@[simp] theorem State.dropChunk_free (s : State) (c : Nat) : (s.dropChunk c).free = s.free := rfl
@[simp] theorem State.dropChunk_top (s : State) (c : Nat) : (s.dropChunk c).top = s.top := rfl
@[simp] theorem State.dropChunk_alloc (s : State) (c : Nat) : (s.dropChunk c).alloc = s.alloc := rfl
@[simp] theorem State.dropChunk_pow (s : State) (c : Nat) : (s.dropChunk c).pow = s.pow := rfl
@[simp] theorem State.dropChunk_regs (s : State) (c : Nat) : (s.dropChunk c).regs = s.regs := rfl
@[simp] theorem State.dropChunk_blobs (s : State) (c : Nat) : (s.dropChunk c).blobs = s.blobs := rfl
@[simp] theorem State.dropChunk_mem (s : State) (c : Nat) : (s.dropChunk c).mem = s.mem := rfl
@[simp] theorem State.dropChunk_cores (s : State) (c : Nat) : (s.dropChunk c).cores = s.cores := rfl
@[simp] theorem State.dropChunk_ctxs (s : State) (c : Nat) : (s.dropChunk c).ctxs = s.ctxs := rfl
@[simp] theorem State.dropChunk_jobs (s : State) (c : Nat) : (s.dropChunk c).jobs = s.jobs := rfl
@[simp] theorem State.dropChunk_nextJob (s : State) (c : Nat) : (s.dropChunk c).nextJob = s.nextJob := rfl
@[simp] theorem State.dropChunk_ctxOps (s : State) (c : Nat) : (s.dropChunk c).ctxOps = s.ctxOps := rfl
@[simp] theorem State.dropChunk_tiers (s : State) (c : Nat) : (s.dropChunk c).tiers = s.tiers := rfl
@[simp] theorem State.dropChunk_sl (s : State) (c : Nat) : (s.dropChunk c).sl = s.sl := rfl
@[simp] theorem State.dropChunk_tab (s : State) (c : Nat) : (s.dropChunk c).tab = s.tab := rfl
@[simp] theorem State.dropChunk_fab (s : State) (c : Nat) : (s.dropChunk c).fab = s.fab := rfl
@[simp] theorem State.dropChunk_host (s : State) (c : Nat) : (s.dropChunk c).host = s.host := rfl
@[simp] theorem State.dropChunk_mgmt (s : State) (c : Nat) : (s.dropChunk c).mgmt = s.mgmt := rfl
@[simp] theorem State.dropChunk_av (s : State) (c : Nat) : (s.dropChunk c).av = s.av := rfl
@[simp] theorem State.dropChunk_fw (s : State) (c : Nat) : (s.dropChunk c).fw = s.fw := rfl
@[simp] theorem State.dropChunk_tap (s : State) (c : Nat) : (s.dropChunk c).tap = s.tap := rfl

/-! modRing writes strm alone. -/

@[simp] theorem State.modRing_pending (s : State) (n : Nat) (f : Ring → Ring) : (s.modRing n f).pending = s.pending := rfl
@[simp] theorem State.modRing_now (s : State) (n : Nat) (f : Ring → Ring) : (s.modRing n f).now = s.now := rfl
@[simp] theorem State.modRing_free (s : State) (n : Nat) (f : Ring → Ring) : (s.modRing n f).free = s.free := rfl
@[simp] theorem State.modRing_top (s : State) (n : Nat) (f : Ring → Ring) : (s.modRing n f).top = s.top := rfl
@[simp] theorem State.modRing_alloc (s : State) (n : Nat) (f : Ring → Ring) : (s.modRing n f).alloc = s.alloc := rfl
@[simp] theorem State.modRing_pow (s : State) (n : Nat) (f : Ring → Ring) : (s.modRing n f).pow = s.pow := rfl
@[simp] theorem State.modRing_regs (s : State) (n : Nat) (f : Ring → Ring) : (s.modRing n f).regs = s.regs := rfl
@[simp] theorem State.modRing_blobs (s : State) (n : Nat) (f : Ring → Ring) : (s.modRing n f).blobs = s.blobs := rfl
@[simp] theorem State.modRing_mem (s : State) (n : Nat) (f : Ring → Ring) : (s.modRing n f).mem = s.mem := rfl
@[simp] theorem State.modRing_cores (s : State) (n : Nat) (f : Ring → Ring) : (s.modRing n f).cores = s.cores := rfl
@[simp] theorem State.modRing_ctxs (s : State) (n : Nat) (f : Ring → Ring) : (s.modRing n f).ctxs = s.ctxs := rfl
@[simp] theorem State.modRing_jobs (s : State) (n : Nat) (f : Ring → Ring) : (s.modRing n f).jobs = s.jobs := rfl
@[simp] theorem State.modRing_nextJob (s : State) (n : Nat) (f : Ring → Ring) : (s.modRing n f).nextJob = s.nextJob := rfl
@[simp] theorem State.modRing_ctxOps (s : State) (n : Nat) (f : Ring → Ring) : (s.modRing n f).ctxOps = s.ctxOps := rfl
@[simp] theorem State.modRing_tiers (s : State) (n : Nat) (f : Ring → Ring) : (s.modRing n f).tiers = s.tiers := rfl
@[simp] theorem State.modRing_sl (s : State) (n : Nat) (f : Ring → Ring) : (s.modRing n f).sl = s.sl := rfl
@[simp] theorem State.modRing_tab (s : State) (n : Nat) (f : Ring → Ring) : (s.modRing n f).tab = s.tab := rfl
@[simp] theorem State.modRing_fab (s : State) (n : Nat) (f : Ring → Ring) : (s.modRing n f).fab = s.fab := rfl
@[simp] theorem State.modRing_host (s : State) (n : Nat) (f : Ring → Ring) : (s.modRing n f).host = s.host := rfl
@[simp] theorem State.modRing_mgmt (s : State) (n : Nat) (f : Ring → Ring) : (s.modRing n f).mgmt = s.mgmt := rfl
@[simp] theorem State.modRing_av (s : State) (n : Nat) (f : Ring → Ring) : (s.modRing n f).av = s.av := rfl
@[simp] theorem State.modRing_fw (s : State) (n : Nat) (f : Ring → Ring) : (s.modRing n f).fw = s.fw := rfl
@[simp] theorem State.modRing_tap (s : State) (n : Nat) (f : Ring → Ring) : (s.modRing n f).tap = s.tap := rfl

/-! modAccums writes sl alone. -/

@[simp] theorem State.modAccums_pending (s : State) (f : List Accum → List Accum) : (s.modAccums f).pending = s.pending := rfl
@[simp] theorem State.modAccums_now (s : State) (f : List Accum → List Accum) : (s.modAccums f).now = s.now := rfl
@[simp] theorem State.modAccums_free (s : State) (f : List Accum → List Accum) : (s.modAccums f).free = s.free := rfl
@[simp] theorem State.modAccums_top (s : State) (f : List Accum → List Accum) : (s.modAccums f).top = s.top := rfl
@[simp] theorem State.modAccums_alloc (s : State) (f : List Accum → List Accum) : (s.modAccums f).alloc = s.alloc := rfl
@[simp] theorem State.modAccums_pow (s : State) (f : List Accum → List Accum) : (s.modAccums f).pow = s.pow := rfl
@[simp] theorem State.modAccums_regs (s : State) (f : List Accum → List Accum) : (s.modAccums f).regs = s.regs := rfl
@[simp] theorem State.modAccums_blobs (s : State) (f : List Accum → List Accum) : (s.modAccums f).blobs = s.blobs := rfl
@[simp] theorem State.modAccums_mem (s : State) (f : List Accum → List Accum) : (s.modAccums f).mem = s.mem := rfl
@[simp] theorem State.modAccums_cores (s : State) (f : List Accum → List Accum) : (s.modAccums f).cores = s.cores := rfl
@[simp] theorem State.modAccums_ctxs (s : State) (f : List Accum → List Accum) : (s.modAccums f).ctxs = s.ctxs := rfl
@[simp] theorem State.modAccums_jobs (s : State) (f : List Accum → List Accum) : (s.modAccums f).jobs = s.jobs := rfl
@[simp] theorem State.modAccums_nextJob (s : State) (f : List Accum → List Accum) : (s.modAccums f).nextJob = s.nextJob := rfl
@[simp] theorem State.modAccums_ctxOps (s : State) (f : List Accum → List Accum) : (s.modAccums f).ctxOps = s.ctxOps := rfl
@[simp] theorem State.modAccums_tiers (s : State) (f : List Accum → List Accum) : (s.modAccums f).tiers = s.tiers := rfl
@[simp] theorem State.modAccums_tab (s : State) (f : List Accum → List Accum) : (s.modAccums f).tab = s.tab := rfl
@[simp] theorem State.modAccums_fab (s : State) (f : List Accum → List Accum) : (s.modAccums f).fab = s.fab := rfl
@[simp] theorem State.modAccums_strm (s : State) (f : List Accum → List Accum) : (s.modAccums f).strm = s.strm := rfl
@[simp] theorem State.modAccums_host (s : State) (f : List Accum → List Accum) : (s.modAccums f).host = s.host := rfl
@[simp] theorem State.modAccums_mgmt (s : State) (f : List Accum → List Accum) : (s.modAccums f).mgmt = s.mgmt := rfl
@[simp] theorem State.modAccums_av (s : State) (f : List Accum → List Accum) : (s.modAccums f).av = s.av := rfl
@[simp] theorem State.modAccums_fw (s : State) (f : List Accum → List Accum) : (s.modAccums f).fw = s.fw := rfl
@[simp] theorem State.modAccums_tap (s : State) (f : List Accum → List Accum) : (s.modAccums f).tap = s.tap := rfl

/-! dropEmptyGroups writes sl alone. -/

@[simp] theorem State.dropEmptyGroups_pending (s : State) : (s.dropEmptyGroups ).pending = s.pending := rfl
@[simp] theorem State.dropEmptyGroups_now (s : State) : (s.dropEmptyGroups ).now = s.now := rfl
@[simp] theorem State.dropEmptyGroups_free (s : State) : (s.dropEmptyGroups ).free = s.free := rfl
@[simp] theorem State.dropEmptyGroups_top (s : State) : (s.dropEmptyGroups ).top = s.top := rfl
@[simp] theorem State.dropEmptyGroups_alloc (s : State) : (s.dropEmptyGroups ).alloc = s.alloc := rfl
@[simp] theorem State.dropEmptyGroups_pow (s : State) : (s.dropEmptyGroups ).pow = s.pow := rfl
@[simp] theorem State.dropEmptyGroups_regs (s : State) : (s.dropEmptyGroups ).regs = s.regs := rfl
@[simp] theorem State.dropEmptyGroups_blobs (s : State) : (s.dropEmptyGroups ).blobs = s.blobs := rfl
@[simp] theorem State.dropEmptyGroups_mem (s : State) : (s.dropEmptyGroups ).mem = s.mem := rfl
@[simp] theorem State.dropEmptyGroups_cores (s : State) : (s.dropEmptyGroups ).cores = s.cores := rfl
@[simp] theorem State.dropEmptyGroups_ctxs (s : State) : (s.dropEmptyGroups ).ctxs = s.ctxs := rfl
@[simp] theorem State.dropEmptyGroups_jobs (s : State) : (s.dropEmptyGroups ).jobs = s.jobs := rfl
@[simp] theorem State.dropEmptyGroups_nextJob (s : State) : (s.dropEmptyGroups ).nextJob = s.nextJob := rfl
@[simp] theorem State.dropEmptyGroups_ctxOps (s : State) : (s.dropEmptyGroups ).ctxOps = s.ctxOps := rfl
@[simp] theorem State.dropEmptyGroups_tiers (s : State) : (s.dropEmptyGroups ).tiers = s.tiers := rfl
@[simp] theorem State.dropEmptyGroups_tab (s : State) : (s.dropEmptyGroups ).tab = s.tab := rfl
@[simp] theorem State.dropEmptyGroups_fab (s : State) : (s.dropEmptyGroups ).fab = s.fab := rfl
@[simp] theorem State.dropEmptyGroups_strm (s : State) : (s.dropEmptyGroups ).strm = s.strm := rfl
@[simp] theorem State.dropEmptyGroups_host (s : State) : (s.dropEmptyGroups ).host = s.host := rfl
@[simp] theorem State.dropEmptyGroups_mgmt (s : State) : (s.dropEmptyGroups ).mgmt = s.mgmt := rfl
@[simp] theorem State.dropEmptyGroups_av (s : State) : (s.dropEmptyGroups ).av = s.av := rfl
@[simp] theorem State.dropEmptyGroups_fw (s : State) : (s.dropEmptyGroups ).fw = s.fw := rfl
@[simp] theorem State.dropEmptyGroups_tap (s : State) : (s.dropEmptyGroups ).tap = s.tap := rfl

/-! setApply writes sl alone. -/

@[simp] theorem State.setApply_pending (s : State) (a b : Apply) : (s.setApply a b).pending = s.pending := rfl
@[simp] theorem State.setApply_now (s : State) (a b : Apply) : (s.setApply a b).now = s.now := rfl
@[simp] theorem State.setApply_free (s : State) (a b : Apply) : (s.setApply a b).free = s.free := rfl
@[simp] theorem State.setApply_top (s : State) (a b : Apply) : (s.setApply a b).top = s.top := rfl
@[simp] theorem State.setApply_alloc (s : State) (a b : Apply) : (s.setApply a b).alloc = s.alloc := rfl
@[simp] theorem State.setApply_pow (s : State) (a b : Apply) : (s.setApply a b).pow = s.pow := rfl
@[simp] theorem State.setApply_regs (s : State) (a b : Apply) : (s.setApply a b).regs = s.regs := rfl
@[simp] theorem State.setApply_blobs (s : State) (a b : Apply) : (s.setApply a b).blobs = s.blobs := rfl
@[simp] theorem State.setApply_mem (s : State) (a b : Apply) : (s.setApply a b).mem = s.mem := rfl
@[simp] theorem State.setApply_cores (s : State) (a b : Apply) : (s.setApply a b).cores = s.cores := rfl
@[simp] theorem State.setApply_ctxs (s : State) (a b : Apply) : (s.setApply a b).ctxs = s.ctxs := rfl
@[simp] theorem State.setApply_jobs (s : State) (a b : Apply) : (s.setApply a b).jobs = s.jobs := rfl
@[simp] theorem State.setApply_nextJob (s : State) (a b : Apply) : (s.setApply a b).nextJob = s.nextJob := rfl
@[simp] theorem State.setApply_ctxOps (s : State) (a b : Apply) : (s.setApply a b).ctxOps = s.ctxOps := rfl
@[simp] theorem State.setApply_tiers (s : State) (a b : Apply) : (s.setApply a b).tiers = s.tiers := rfl
@[simp] theorem State.setApply_tab (s : State) (a b : Apply) : (s.setApply a b).tab = s.tab := rfl
@[simp] theorem State.setApply_fab (s : State) (a b : Apply) : (s.setApply a b).fab = s.fab := rfl
@[simp] theorem State.setApply_strm (s : State) (a b : Apply) : (s.setApply a b).strm = s.strm := rfl
@[simp] theorem State.setApply_host (s : State) (a b : Apply) : (s.setApply a b).host = s.host := rfl
@[simp] theorem State.setApply_mgmt (s : State) (a b : Apply) : (s.setApply a b).mgmt = s.mgmt := rfl
@[simp] theorem State.setApply_av (s : State) (a b : Apply) : (s.setApply a b).av = s.av := rfl
@[simp] theorem State.setApply_fw (s : State) (a b : Apply) : (s.setApply a b).fw = s.fw := rfl
@[simp] theorem State.setApply_tap (s : State) (a b : Apply) : (s.setApply a b).tap = s.tap := rfl

/-! consumeMsg writes fab alone. -/

@[simp] theorem State.consumeMsg_pending (s : State) (m : FabMsg) : (s.consumeMsg m).pending = s.pending := rfl
@[simp] theorem State.consumeMsg_now (s : State) (m : FabMsg) : (s.consumeMsg m).now = s.now := rfl
@[simp] theorem State.consumeMsg_free (s : State) (m : FabMsg) : (s.consumeMsg m).free = s.free := rfl
@[simp] theorem State.consumeMsg_top (s : State) (m : FabMsg) : (s.consumeMsg m).top = s.top := rfl
@[simp] theorem State.consumeMsg_alloc (s : State) (m : FabMsg) : (s.consumeMsg m).alloc = s.alloc := rfl
@[simp] theorem State.consumeMsg_pow (s : State) (m : FabMsg) : (s.consumeMsg m).pow = s.pow := rfl
@[simp] theorem State.consumeMsg_regs (s : State) (m : FabMsg) : (s.consumeMsg m).regs = s.regs := rfl
@[simp] theorem State.consumeMsg_blobs (s : State) (m : FabMsg) : (s.consumeMsg m).blobs = s.blobs := rfl
@[simp] theorem State.consumeMsg_mem (s : State) (m : FabMsg) : (s.consumeMsg m).mem = s.mem := rfl
@[simp] theorem State.consumeMsg_cores (s : State) (m : FabMsg) : (s.consumeMsg m).cores = s.cores := rfl
@[simp] theorem State.consumeMsg_ctxs (s : State) (m : FabMsg) : (s.consumeMsg m).ctxs = s.ctxs := rfl
@[simp] theorem State.consumeMsg_jobs (s : State) (m : FabMsg) : (s.consumeMsg m).jobs = s.jobs := rfl
@[simp] theorem State.consumeMsg_nextJob (s : State) (m : FabMsg) : (s.consumeMsg m).nextJob = s.nextJob := rfl
@[simp] theorem State.consumeMsg_ctxOps (s : State) (m : FabMsg) : (s.consumeMsg m).ctxOps = s.ctxOps := rfl
@[simp] theorem State.consumeMsg_tiers (s : State) (m : FabMsg) : (s.consumeMsg m).tiers = s.tiers := rfl
@[simp] theorem State.consumeMsg_sl (s : State) (m : FabMsg) : (s.consumeMsg m).sl = s.sl := rfl
@[simp] theorem State.consumeMsg_tab (s : State) (m : FabMsg) : (s.consumeMsg m).tab = s.tab := rfl
@[simp] theorem State.consumeMsg_strm (s : State) (m : FabMsg) : (s.consumeMsg m).strm = s.strm := rfl
@[simp] theorem State.consumeMsg_host (s : State) (m : FabMsg) : (s.consumeMsg m).host = s.host := rfl
@[simp] theorem State.consumeMsg_mgmt (s : State) (m : FabMsg) : (s.consumeMsg m).mgmt = s.mgmt := rfl
@[simp] theorem State.consumeMsg_av (s : State) (m : FabMsg) : (s.consumeMsg m).av = s.av := rfl
@[simp] theorem State.consumeMsg_fw (s : State) (m : FabMsg) : (s.consumeMsg m).fw = s.fw := rfl
@[simp] theorem State.consumeMsg_tap (s : State) (m : FabMsg) : (s.consumeMsg m).tap = s.tap := rfl

/-! modOp writes ctxOps alone. -/

@[simp] theorem State.modOp_pending (s : State) (f : CtxOp → Bool) (g : CtxOp → CtxOp) : (s.modOp f g).pending = s.pending := rfl
@[simp] theorem State.modOp_now (s : State) (f : CtxOp → Bool) (g : CtxOp → CtxOp) : (s.modOp f g).now = s.now := rfl
@[simp] theorem State.modOp_free (s : State) (f : CtxOp → Bool) (g : CtxOp → CtxOp) : (s.modOp f g).free = s.free := rfl
@[simp] theorem State.modOp_top (s : State) (f : CtxOp → Bool) (g : CtxOp → CtxOp) : (s.modOp f g).top = s.top := rfl
@[simp] theorem State.modOp_alloc (s : State) (f : CtxOp → Bool) (g : CtxOp → CtxOp) : (s.modOp f g).alloc = s.alloc := rfl
@[simp] theorem State.modOp_pow (s : State) (f : CtxOp → Bool) (g : CtxOp → CtxOp) : (s.modOp f g).pow = s.pow := rfl
@[simp] theorem State.modOp_regs (s : State) (f : CtxOp → Bool) (g : CtxOp → CtxOp) : (s.modOp f g).regs = s.regs := rfl
@[simp] theorem State.modOp_blobs (s : State) (f : CtxOp → Bool) (g : CtxOp → CtxOp) : (s.modOp f g).blobs = s.blobs := rfl
@[simp] theorem State.modOp_mem (s : State) (f : CtxOp → Bool) (g : CtxOp → CtxOp) : (s.modOp f g).mem = s.mem := rfl
@[simp] theorem State.modOp_cores (s : State) (f : CtxOp → Bool) (g : CtxOp → CtxOp) : (s.modOp f g).cores = s.cores := rfl
@[simp] theorem State.modOp_ctxs (s : State) (f : CtxOp → Bool) (g : CtxOp → CtxOp) : (s.modOp f g).ctxs = s.ctxs := rfl
@[simp] theorem State.modOp_jobs (s : State) (f : CtxOp → Bool) (g : CtxOp → CtxOp) : (s.modOp f g).jobs = s.jobs := rfl
@[simp] theorem State.modOp_nextJob (s : State) (f : CtxOp → Bool) (g : CtxOp → CtxOp) : (s.modOp f g).nextJob = s.nextJob := rfl
@[simp] theorem State.modOp_tiers (s : State) (f : CtxOp → Bool) (g : CtxOp → CtxOp) : (s.modOp f g).tiers = s.tiers := rfl
@[simp] theorem State.modOp_sl (s : State) (f : CtxOp → Bool) (g : CtxOp → CtxOp) : (s.modOp f g).sl = s.sl := rfl
@[simp] theorem State.modOp_tab (s : State) (f : CtxOp → Bool) (g : CtxOp → CtxOp) : (s.modOp f g).tab = s.tab := rfl
@[simp] theorem State.modOp_fab (s : State) (f : CtxOp → Bool) (g : CtxOp → CtxOp) : (s.modOp f g).fab = s.fab := rfl
@[simp] theorem State.modOp_strm (s : State) (f : CtxOp → Bool) (g : CtxOp → CtxOp) : (s.modOp f g).strm = s.strm := rfl
@[simp] theorem State.modOp_host (s : State) (f : CtxOp → Bool) (g : CtxOp → CtxOp) : (s.modOp f g).host = s.host := rfl
@[simp] theorem State.modOp_mgmt (s : State) (f : CtxOp → Bool) (g : CtxOp → CtxOp) : (s.modOp f g).mgmt = s.mgmt := rfl
@[simp] theorem State.modOp_av (s : State) (f : CtxOp → Bool) (g : CtxOp → CtxOp) : (s.modOp f g).av = s.av := rfl
@[simp] theorem State.modOp_fw (s : State) (f : CtxOp → Bool) (g : CtxOp → CtxOp) : (s.modOp f g).fw = s.fw := rfl
@[simp] theorem State.modOp_tap (s : State) (f : CtxOp → Bool) (g : CtxOp → CtxOp) : (s.modOp f g).tap = s.tap := rfl

/-! modDomain writes strm alone. -/

@[simp] theorem State.modDomain_pending (s : State) (d : Nat) (f : Domain → Domain) : (s.modDomain d f).pending = s.pending := rfl
@[simp] theorem State.modDomain_now (s : State) (d : Nat) (f : Domain → Domain) : (s.modDomain d f).now = s.now := rfl
@[simp] theorem State.modDomain_free (s : State) (d : Nat) (f : Domain → Domain) : (s.modDomain d f).free = s.free := rfl
@[simp] theorem State.modDomain_top (s : State) (d : Nat) (f : Domain → Domain) : (s.modDomain d f).top = s.top := rfl
@[simp] theorem State.modDomain_alloc (s : State) (d : Nat) (f : Domain → Domain) : (s.modDomain d f).alloc = s.alloc := rfl
@[simp] theorem State.modDomain_pow (s : State) (d : Nat) (f : Domain → Domain) : (s.modDomain d f).pow = s.pow := rfl
@[simp] theorem State.modDomain_regs (s : State) (d : Nat) (f : Domain → Domain) : (s.modDomain d f).regs = s.regs := rfl
@[simp] theorem State.modDomain_blobs (s : State) (d : Nat) (f : Domain → Domain) : (s.modDomain d f).blobs = s.blobs := rfl
@[simp] theorem State.modDomain_mem (s : State) (d : Nat) (f : Domain → Domain) : (s.modDomain d f).mem = s.mem := rfl
@[simp] theorem State.modDomain_cores (s : State) (d : Nat) (f : Domain → Domain) : (s.modDomain d f).cores = s.cores := rfl
@[simp] theorem State.modDomain_ctxs (s : State) (d : Nat) (f : Domain → Domain) : (s.modDomain d f).ctxs = s.ctxs := rfl
@[simp] theorem State.modDomain_jobs (s : State) (d : Nat) (f : Domain → Domain) : (s.modDomain d f).jobs = s.jobs := rfl
@[simp] theorem State.modDomain_nextJob (s : State) (d : Nat) (f : Domain → Domain) : (s.modDomain d f).nextJob = s.nextJob := rfl
@[simp] theorem State.modDomain_ctxOps (s : State) (d : Nat) (f : Domain → Domain) : (s.modDomain d f).ctxOps = s.ctxOps := rfl
@[simp] theorem State.modDomain_tiers (s : State) (d : Nat) (f : Domain → Domain) : (s.modDomain d f).tiers = s.tiers := rfl
@[simp] theorem State.modDomain_sl (s : State) (d : Nat) (f : Domain → Domain) : (s.modDomain d f).sl = s.sl := rfl
@[simp] theorem State.modDomain_tab (s : State) (d : Nat) (f : Domain → Domain) : (s.modDomain d f).tab = s.tab := rfl
@[simp] theorem State.modDomain_fab (s : State) (d : Nat) (f : Domain → Domain) : (s.modDomain d f).fab = s.fab := rfl
@[simp] theorem State.modDomain_host (s : State) (d : Nat) (f : Domain → Domain) : (s.modDomain d f).host = s.host := rfl
@[simp] theorem State.modDomain_mgmt (s : State) (d : Nat) (f : Domain → Domain) : (s.modDomain d f).mgmt = s.mgmt := rfl
@[simp] theorem State.modDomain_av (s : State) (d : Nat) (f : Domain → Domain) : (s.modDomain d f).av = s.av := rfl
@[simp] theorem State.modDomain_fw (s : State) (d : Nat) (f : Domain → Domain) : (s.modDomain d f).fw = s.fw := rfl
@[simp] theorem State.modDomain_tap (s : State) (d : Nat) (f : Domain → Domain) : (s.modDomain d f).tap = s.tap := rfl

/-! modIntake writes strm alone. -/

@[simp] theorem State.modIntake_pending (s : State) (n : Nat) (f : Intake → Intake) : (s.modIntake n f).pending = s.pending := rfl
@[simp] theorem State.modIntake_now (s : State) (n : Nat) (f : Intake → Intake) : (s.modIntake n f).now = s.now := rfl
@[simp] theorem State.modIntake_free (s : State) (n : Nat) (f : Intake → Intake) : (s.modIntake n f).free = s.free := rfl
@[simp] theorem State.modIntake_top (s : State) (n : Nat) (f : Intake → Intake) : (s.modIntake n f).top = s.top := rfl
@[simp] theorem State.modIntake_alloc (s : State) (n : Nat) (f : Intake → Intake) : (s.modIntake n f).alloc = s.alloc := rfl
@[simp] theorem State.modIntake_pow (s : State) (n : Nat) (f : Intake → Intake) : (s.modIntake n f).pow = s.pow := rfl
@[simp] theorem State.modIntake_regs (s : State) (n : Nat) (f : Intake → Intake) : (s.modIntake n f).regs = s.regs := rfl
@[simp] theorem State.modIntake_blobs (s : State) (n : Nat) (f : Intake → Intake) : (s.modIntake n f).blobs = s.blobs := rfl
@[simp] theorem State.modIntake_mem (s : State) (n : Nat) (f : Intake → Intake) : (s.modIntake n f).mem = s.mem := rfl
@[simp] theorem State.modIntake_cores (s : State) (n : Nat) (f : Intake → Intake) : (s.modIntake n f).cores = s.cores := rfl
@[simp] theorem State.modIntake_ctxs (s : State) (n : Nat) (f : Intake → Intake) : (s.modIntake n f).ctxs = s.ctxs := rfl
@[simp] theorem State.modIntake_jobs (s : State) (n : Nat) (f : Intake → Intake) : (s.modIntake n f).jobs = s.jobs := rfl
@[simp] theorem State.modIntake_nextJob (s : State) (n : Nat) (f : Intake → Intake) : (s.modIntake n f).nextJob = s.nextJob := rfl
@[simp] theorem State.modIntake_ctxOps (s : State) (n : Nat) (f : Intake → Intake) : (s.modIntake n f).ctxOps = s.ctxOps := rfl
@[simp] theorem State.modIntake_tiers (s : State) (n : Nat) (f : Intake → Intake) : (s.modIntake n f).tiers = s.tiers := rfl
@[simp] theorem State.modIntake_sl (s : State) (n : Nat) (f : Intake → Intake) : (s.modIntake n f).sl = s.sl := rfl
@[simp] theorem State.modIntake_tab (s : State) (n : Nat) (f : Intake → Intake) : (s.modIntake n f).tab = s.tab := rfl
@[simp] theorem State.modIntake_fab (s : State) (n : Nat) (f : Intake → Intake) : (s.modIntake n f).fab = s.fab := rfl
@[simp] theorem State.modIntake_host (s : State) (n : Nat) (f : Intake → Intake) : (s.modIntake n f).host = s.host := rfl
@[simp] theorem State.modIntake_mgmt (s : State) (n : Nat) (f : Intake → Intake) : (s.modIntake n f).mgmt = s.mgmt := rfl
@[simp] theorem State.modIntake_av (s : State) (n : Nat) (f : Intake → Intake) : (s.modIntake n f).av = s.av := rfl
@[simp] theorem State.modIntake_fw (s : State) (n : Nat) (f : Intake → Intake) : (s.modIntake n f).fw = s.fw := rfl
@[simp] theorem State.modIntake_tap (s : State) (n : Nat) (f : Intake → Intake) : (s.modIntake n f).tap = s.tap := rfl

/-! clearReg writes regs alone. -/

@[simp] theorem State.clearReg_pending (s : State) (idx sub : Nat) : (s.clearReg idx sub).pending = s.pending := rfl
@[simp] theorem State.clearReg_now (s : State) (idx sub : Nat) : (s.clearReg idx sub).now = s.now := rfl
@[simp] theorem State.clearReg_free (s : State) (idx sub : Nat) : (s.clearReg idx sub).free = s.free := rfl
@[simp] theorem State.clearReg_top (s : State) (idx sub : Nat) : (s.clearReg idx sub).top = s.top := rfl
@[simp] theorem State.clearReg_alloc (s : State) (idx sub : Nat) : (s.clearReg idx sub).alloc = s.alloc := rfl
@[simp] theorem State.clearReg_pow (s : State) (idx sub : Nat) : (s.clearReg idx sub).pow = s.pow := rfl
@[simp] theorem State.clearReg_blobs (s : State) (idx sub : Nat) : (s.clearReg idx sub).blobs = s.blobs := rfl
@[simp] theorem State.clearReg_mem (s : State) (idx sub : Nat) : (s.clearReg idx sub).mem = s.mem := rfl
@[simp] theorem State.clearReg_cores (s : State) (idx sub : Nat) : (s.clearReg idx sub).cores = s.cores := rfl
@[simp] theorem State.clearReg_ctxs (s : State) (idx sub : Nat) : (s.clearReg idx sub).ctxs = s.ctxs := rfl
@[simp] theorem State.clearReg_jobs (s : State) (idx sub : Nat) : (s.clearReg idx sub).jobs = s.jobs := rfl
@[simp] theorem State.clearReg_nextJob (s : State) (idx sub : Nat) : (s.clearReg idx sub).nextJob = s.nextJob := rfl
@[simp] theorem State.clearReg_ctxOps (s : State) (idx sub : Nat) : (s.clearReg idx sub).ctxOps = s.ctxOps := rfl
@[simp] theorem State.clearReg_tiers (s : State) (idx sub : Nat) : (s.clearReg idx sub).tiers = s.tiers := rfl
@[simp] theorem State.clearReg_sl (s : State) (idx sub : Nat) : (s.clearReg idx sub).sl = s.sl := rfl
@[simp] theorem State.clearReg_tab (s : State) (idx sub : Nat) : (s.clearReg idx sub).tab = s.tab := rfl
@[simp] theorem State.clearReg_fab (s : State) (idx sub : Nat) : (s.clearReg idx sub).fab = s.fab := rfl
@[simp] theorem State.clearReg_strm (s : State) (idx sub : Nat) : (s.clearReg idx sub).strm = s.strm := rfl
@[simp] theorem State.clearReg_host (s : State) (idx sub : Nat) : (s.clearReg idx sub).host = s.host := rfl
@[simp] theorem State.clearReg_mgmt (s : State) (idx sub : Nat) : (s.clearReg idx sub).mgmt = s.mgmt := rfl
@[simp] theorem State.clearReg_av (s : State) (idx sub : Nat) : (s.clearReg idx sub).av = s.av := rfl
@[simp] theorem State.clearReg_fw (s : State) (idx sub : Nat) : (s.clearReg idx sub).fw = s.fw := rfl
@[simp] theorem State.clearReg_tap (s : State) (idx sub : Nat) : (s.clearReg idx sub).tap = s.tap := rfl

/-! setAblob writes blobs alone. -/

@[simp] theorem State.setAblob_pending (s : State) (acc idx sub : Nat) (v : List Byte) : (s.setAblob acc idx sub v).pending = s.pending := rfl
@[simp] theorem State.setAblob_now (s : State) (acc idx sub : Nat) (v : List Byte) : (s.setAblob acc idx sub v).now = s.now := rfl
@[simp] theorem State.setAblob_free (s : State) (acc idx sub : Nat) (v : List Byte) : (s.setAblob acc idx sub v).free = s.free := rfl
@[simp] theorem State.setAblob_top (s : State) (acc idx sub : Nat) (v : List Byte) : (s.setAblob acc idx sub v).top = s.top := rfl
@[simp] theorem State.setAblob_alloc (s : State) (acc idx sub : Nat) (v : List Byte) : (s.setAblob acc idx sub v).alloc = s.alloc := rfl
@[simp] theorem State.setAblob_pow (s : State) (acc idx sub : Nat) (v : List Byte) : (s.setAblob acc idx sub v).pow = s.pow := rfl
@[simp] theorem State.setAblob_regs (s : State) (acc idx sub : Nat) (v : List Byte) : (s.setAblob acc idx sub v).regs = s.regs := rfl
@[simp] theorem State.setAblob_mem (s : State) (acc idx sub : Nat) (v : List Byte) : (s.setAblob acc idx sub v).mem = s.mem := rfl
@[simp] theorem State.setAblob_cores (s : State) (acc idx sub : Nat) (v : List Byte) : (s.setAblob acc idx sub v).cores = s.cores := rfl
@[simp] theorem State.setAblob_ctxs (s : State) (acc idx sub : Nat) (v : List Byte) : (s.setAblob acc idx sub v).ctxs = s.ctxs := rfl
@[simp] theorem State.setAblob_jobs (s : State) (acc idx sub : Nat) (v : List Byte) : (s.setAblob acc idx sub v).jobs = s.jobs := rfl
@[simp] theorem State.setAblob_nextJob (s : State) (acc idx sub : Nat) (v : List Byte) : (s.setAblob acc idx sub v).nextJob = s.nextJob := rfl
@[simp] theorem State.setAblob_ctxOps (s : State) (acc idx sub : Nat) (v : List Byte) : (s.setAblob acc idx sub v).ctxOps = s.ctxOps := rfl
@[simp] theorem State.setAblob_tiers (s : State) (acc idx sub : Nat) (v : List Byte) : (s.setAblob acc idx sub v).tiers = s.tiers := rfl
@[simp] theorem State.setAblob_sl (s : State) (acc idx sub : Nat) (v : List Byte) : (s.setAblob acc idx sub v).sl = s.sl := rfl
@[simp] theorem State.setAblob_tab (s : State) (acc idx sub : Nat) (v : List Byte) : (s.setAblob acc idx sub v).tab = s.tab := rfl
@[simp] theorem State.setAblob_fab (s : State) (acc idx sub : Nat) (v : List Byte) : (s.setAblob acc idx sub v).fab = s.fab := rfl
@[simp] theorem State.setAblob_strm (s : State) (acc idx sub : Nat) (v : List Byte) : (s.setAblob acc idx sub v).strm = s.strm := rfl
@[simp] theorem State.setAblob_host (s : State) (acc idx sub : Nat) (v : List Byte) : (s.setAblob acc idx sub v).host = s.host := rfl
@[simp] theorem State.setAblob_mgmt (s : State) (acc idx sub : Nat) (v : List Byte) : (s.setAblob acc idx sub v).mgmt = s.mgmt := rfl
@[simp] theorem State.setAblob_av (s : State) (acc idx sub : Nat) (v : List Byte) : (s.setAblob acc idx sub v).av = s.av := rfl
@[simp] theorem State.setAblob_fw (s : State) (acc idx sub : Nat) (v : List Byte) : (s.setAblob acc idx sub v).fw = s.fw := rfl
@[simp] theorem State.setAblob_tap (s : State) (acc idx sub : Nat) (v : List Byte) : (s.setAblob acc idx sub v).tap = s.tap := rfl

/-! modFw writes fw alone. -/

@[simp] theorem State.modFw_pending (s : State) (f : Firmware → Firmware) : (s.modFw f).pending = s.pending := rfl
@[simp] theorem State.modFw_now (s : State) (f : Firmware → Firmware) : (s.modFw f).now = s.now := rfl
@[simp] theorem State.modFw_free (s : State) (f : Firmware → Firmware) : (s.modFw f).free = s.free := rfl
@[simp] theorem State.modFw_top (s : State) (f : Firmware → Firmware) : (s.modFw f).top = s.top := rfl
@[simp] theorem State.modFw_alloc (s : State) (f : Firmware → Firmware) : (s.modFw f).alloc = s.alloc := rfl
@[simp] theorem State.modFw_pow (s : State) (f : Firmware → Firmware) : (s.modFw f).pow = s.pow := rfl
@[simp] theorem State.modFw_regs (s : State) (f : Firmware → Firmware) : (s.modFw f).regs = s.regs := rfl
@[simp] theorem State.modFw_blobs (s : State) (f : Firmware → Firmware) : (s.modFw f).blobs = s.blobs := rfl
@[simp] theorem State.modFw_mem (s : State) (f : Firmware → Firmware) : (s.modFw f).mem = s.mem := rfl
@[simp] theorem State.modFw_cores (s : State) (f : Firmware → Firmware) : (s.modFw f).cores = s.cores := rfl
@[simp] theorem State.modFw_ctxs (s : State) (f : Firmware → Firmware) : (s.modFw f).ctxs = s.ctxs := rfl
@[simp] theorem State.modFw_jobs (s : State) (f : Firmware → Firmware) : (s.modFw f).jobs = s.jobs := rfl
@[simp] theorem State.modFw_nextJob (s : State) (f : Firmware → Firmware) : (s.modFw f).nextJob = s.nextJob := rfl
@[simp] theorem State.modFw_ctxOps (s : State) (f : Firmware → Firmware) : (s.modFw f).ctxOps = s.ctxOps := rfl
@[simp] theorem State.modFw_tiers (s : State) (f : Firmware → Firmware) : (s.modFw f).tiers = s.tiers := rfl
@[simp] theorem State.modFw_sl (s : State) (f : Firmware → Firmware) : (s.modFw f).sl = s.sl := rfl
@[simp] theorem State.modFw_tab (s : State) (f : Firmware → Firmware) : (s.modFw f).tab = s.tab := rfl
@[simp] theorem State.modFw_fab (s : State) (f : Firmware → Firmware) : (s.modFw f).fab = s.fab := rfl
@[simp] theorem State.modFw_strm (s : State) (f : Firmware → Firmware) : (s.modFw f).strm = s.strm := rfl
@[simp] theorem State.modFw_host (s : State) (f : Firmware → Firmware) : (s.modFw f).host = s.host := rfl
@[simp] theorem State.modFw_mgmt (s : State) (f : Firmware → Firmware) : (s.modFw f).mgmt = s.mgmt := rfl
@[simp] theorem State.modFw_av (s : State) (f : Firmware → Firmware) : (s.modFw f).av = s.av := rfl
@[simp] theorem State.modFw_tap (s : State) (f : Firmware → Firmware) : (s.modFw f).tap = s.tap := rfl

/-! stick writes top alone. -/

@[simp] theorem State.stick_pending (s : State) : (s.stick ).pending = s.pending := rfl
@[simp] theorem State.stick_now (s : State) : (s.stick ).now = s.now := rfl
@[simp] theorem State.stick_free (s : State) : (s.stick ).free = s.free := rfl
@[simp] theorem State.stick_alloc (s : State) : (s.stick ).alloc = s.alloc := rfl
@[simp] theorem State.stick_pow (s : State) : (s.stick ).pow = s.pow := rfl
@[simp] theorem State.stick_regs (s : State) : (s.stick ).regs = s.regs := rfl
@[simp] theorem State.stick_blobs (s : State) : (s.stick ).blobs = s.blobs := rfl
@[simp] theorem State.stick_mem (s : State) : (s.stick ).mem = s.mem := rfl
@[simp] theorem State.stick_cores (s : State) : (s.stick ).cores = s.cores := rfl
@[simp] theorem State.stick_ctxs (s : State) : (s.stick ).ctxs = s.ctxs := rfl
@[simp] theorem State.stick_jobs (s : State) : (s.stick ).jobs = s.jobs := rfl
@[simp] theorem State.stick_nextJob (s : State) : (s.stick ).nextJob = s.nextJob := rfl
@[simp] theorem State.stick_ctxOps (s : State) : (s.stick ).ctxOps = s.ctxOps := rfl
@[simp] theorem State.stick_tiers (s : State) : (s.stick ).tiers = s.tiers := rfl
@[simp] theorem State.stick_sl (s : State) : (s.stick ).sl = s.sl := rfl
@[simp] theorem State.stick_tab (s : State) : (s.stick ).tab = s.tab := rfl
@[simp] theorem State.stick_fab (s : State) : (s.stick ).fab = s.fab := rfl
@[simp] theorem State.stick_strm (s : State) : (s.stick ).strm = s.strm := rfl
@[simp] theorem State.stick_host (s : State) : (s.stick ).host = s.host := rfl
@[simp] theorem State.stick_mgmt (s : State) : (s.stick ).mgmt = s.mgmt := rfl
@[simp] theorem State.stick_av (s : State) : (s.stick ).av = s.av := rfl
@[simp] theorem State.stick_fw (s : State) : (s.stick ).fw = s.fw := rfl
@[simp] theorem State.stick_tap (s : State) : (s.stick ).tap = s.tap := rfl

/-! respond writes mgmt alone. -/

@[simp] theorem State.respond_pending (s : State) (l : List Byte) : (s.respond l).pending = s.pending := rfl
@[simp] theorem State.respond_now (s : State) (l : List Byte) : (s.respond l).now = s.now := rfl
@[simp] theorem State.respond_free (s : State) (l : List Byte) : (s.respond l).free = s.free := rfl
@[simp] theorem State.respond_top (s : State) (l : List Byte) : (s.respond l).top = s.top := rfl
@[simp] theorem State.respond_alloc (s : State) (l : List Byte) : (s.respond l).alloc = s.alloc := rfl
@[simp] theorem State.respond_pow (s : State) (l : List Byte) : (s.respond l).pow = s.pow := rfl
@[simp] theorem State.respond_regs (s : State) (l : List Byte) : (s.respond l).regs = s.regs := rfl
@[simp] theorem State.respond_blobs (s : State) (l : List Byte) : (s.respond l).blobs = s.blobs := rfl
@[simp] theorem State.respond_mem (s : State) (l : List Byte) : (s.respond l).mem = s.mem := rfl
@[simp] theorem State.respond_cores (s : State) (l : List Byte) : (s.respond l).cores = s.cores := rfl
@[simp] theorem State.respond_ctxs (s : State) (l : List Byte) : (s.respond l).ctxs = s.ctxs := rfl
@[simp] theorem State.respond_jobs (s : State) (l : List Byte) : (s.respond l).jobs = s.jobs := rfl
@[simp] theorem State.respond_nextJob (s : State) (l : List Byte) : (s.respond l).nextJob = s.nextJob := rfl
@[simp] theorem State.respond_ctxOps (s : State) (l : List Byte) : (s.respond l).ctxOps = s.ctxOps := rfl
@[simp] theorem State.respond_tiers (s : State) (l : List Byte) : (s.respond l).tiers = s.tiers := rfl
@[simp] theorem State.respond_sl (s : State) (l : List Byte) : (s.respond l).sl = s.sl := rfl
@[simp] theorem State.respond_tab (s : State) (l : List Byte) : (s.respond l).tab = s.tab := rfl
@[simp] theorem State.respond_fab (s : State) (l : List Byte) : (s.respond l).fab = s.fab := rfl
@[simp] theorem State.respond_strm (s : State) (l : List Byte) : (s.respond l).strm = s.strm := rfl
@[simp] theorem State.respond_host (s : State) (l : List Byte) : (s.respond l).host = s.host := rfl
@[simp] theorem State.respond_av (s : State) (l : List Byte) : (s.respond l).av = s.av := rfl
@[simp] theorem State.respond_fw (s : State) (l : List Byte) : (s.respond l).fw = s.fw := rfl
@[simp] theorem State.respond_tap (s : State) (l : List Byte) : (s.respond l).tap = s.tap := rfl

/-! produce writes host alone. -/

@[simp] theorem State.produce_pending (s : State) (r : CRec) : (s.produce r).pending = s.pending := rfl
@[simp] theorem State.produce_now (s : State) (r : CRec) : (s.produce r).now = s.now := rfl
@[simp] theorem State.produce_free (s : State) (r : CRec) : (s.produce r).free = s.free := rfl
@[simp] theorem State.produce_top (s : State) (r : CRec) : (s.produce r).top = s.top := rfl
@[simp] theorem State.produce_alloc (s : State) (r : CRec) : (s.produce r).alloc = s.alloc := rfl
@[simp] theorem State.produce_pow (s : State) (r : CRec) : (s.produce r).pow = s.pow := rfl
@[simp] theorem State.produce_regs (s : State) (r : CRec) : (s.produce r).regs = s.regs := rfl
@[simp] theorem State.produce_blobs (s : State) (r : CRec) : (s.produce r).blobs = s.blobs := rfl
@[simp] theorem State.produce_mem (s : State) (r : CRec) : (s.produce r).mem = s.mem := rfl
@[simp] theorem State.produce_cores (s : State) (r : CRec) : (s.produce r).cores = s.cores := rfl
@[simp] theorem State.produce_ctxs (s : State) (r : CRec) : (s.produce r).ctxs = s.ctxs := rfl
@[simp] theorem State.produce_jobs (s : State) (r : CRec) : (s.produce r).jobs = s.jobs := rfl
@[simp] theorem State.produce_nextJob (s : State) (r : CRec) : (s.produce r).nextJob = s.nextJob := rfl
@[simp] theorem State.produce_ctxOps (s : State) (r : CRec) : (s.produce r).ctxOps = s.ctxOps := rfl
@[simp] theorem State.produce_tiers (s : State) (r : CRec) : (s.produce r).tiers = s.tiers := rfl
@[simp] theorem State.produce_sl (s : State) (r : CRec) : (s.produce r).sl = s.sl := rfl
@[simp] theorem State.produce_tab (s : State) (r : CRec) : (s.produce r).tab = s.tab := rfl
@[simp] theorem State.produce_fab (s : State) (r : CRec) : (s.produce r).fab = s.fab := rfl
@[simp] theorem State.produce_strm (s : State) (r : CRec) : (s.produce r).strm = s.strm := rfl
@[simp] theorem State.produce_mgmt (s : State) (r : CRec) : (s.produce r).mgmt = s.mgmt := rfl
@[simp] theorem State.produce_av (s : State) (r : CRec) : (s.produce r).av = s.av := rfl
@[simp] theorem State.produce_fw (s : State) (r : CRec) : (s.produce r).fw = s.fw := rfl
@[simp] theorem State.produce_tap (s : State) (r : CRec) : (s.produce r).tap = s.tap := rfl

/-! consume writes regs alone. -/

@[simp] theorem State.consume_pending (s : State) (det : Nat) : (s.consume det).pending = s.pending := 
  (State.bump_pending _ _ _ _).trans (State.setReg_pending _ _ _ _)
@[simp] theorem State.consume_now (s : State) (det : Nat) : (s.consume det).now = s.now := 
  (State.bump_now _ _ _ _).trans (State.setReg_now _ _ _ _)
@[simp] theorem State.consume_free (s : State) (det : Nat) : (s.consume det).free = s.free := 
  (State.bump_free _ _ _ _).trans (State.setReg_free _ _ _ _)
@[simp] theorem State.consume_top (s : State) (det : Nat) : (s.consume det).top = s.top := 
  (State.bump_top _ _ _ _).trans (State.setReg_top _ _ _ _)
@[simp] theorem State.consume_alloc (s : State) (det : Nat) : (s.consume det).alloc = s.alloc := 
  (State.bump_alloc _ _ _ _).trans (State.setReg_alloc _ _ _ _)
@[simp] theorem State.consume_pow (s : State) (det : Nat) : (s.consume det).pow = s.pow := 
  (State.bump_pow _ _ _ _).trans (State.setReg_pow _ _ _ _)
@[simp] theorem State.consume_blobs (s : State) (det : Nat) : (s.consume det).blobs = s.blobs := 
  (State.bump_blobs _ _ _ _).trans (State.setReg_blobs _ _ _ _)
@[simp] theorem State.consume_mem (s : State) (det : Nat) : (s.consume det).mem = s.mem := 
  (State.bump_mem _ _ _ _).trans (State.setReg_mem _ _ _ _)
@[simp] theorem State.consume_cores (s : State) (det : Nat) : (s.consume det).cores = s.cores := 
  (State.bump_cores _ _ _ _).trans (State.setReg_cores _ _ _ _)
@[simp] theorem State.consume_ctxs (s : State) (det : Nat) : (s.consume det).ctxs = s.ctxs := 
  (State.bump_ctxs _ _ _ _).trans (State.setReg_ctxs _ _ _ _)
@[simp] theorem State.consume_jobs (s : State) (det : Nat) : (s.consume det).jobs = s.jobs := 
  (State.bump_jobs _ _ _ _).trans (State.setReg_jobs _ _ _ _)
@[simp] theorem State.consume_nextJob (s : State) (det : Nat) : (s.consume det).nextJob = s.nextJob := 
  (State.bump_nextJob _ _ _ _).trans (State.setReg_nextJob _ _ _ _)
@[simp] theorem State.consume_ctxOps (s : State) (det : Nat) : (s.consume det).ctxOps = s.ctxOps := 
  (State.bump_ctxOps _ _ _ _).trans (State.setReg_ctxOps _ _ _ _)
@[simp] theorem State.consume_tiers (s : State) (det : Nat) : (s.consume det).tiers = s.tiers := 
  (State.bump_tiers _ _ _ _).trans (State.setReg_tiers _ _ _ _)
@[simp] theorem State.consume_sl (s : State) (det : Nat) : (s.consume det).sl = s.sl := 
  (State.bump_sl _ _ _ _).trans (State.setReg_sl _ _ _ _)
@[simp] theorem State.consume_tab (s : State) (det : Nat) : (s.consume det).tab = s.tab := 
  (State.bump_tab _ _ _ _).trans (State.setReg_tab _ _ _ _)
@[simp] theorem State.consume_fab (s : State) (det : Nat) : (s.consume det).fab = s.fab := 
  (State.bump_fab _ _ _ _).trans (State.setReg_fab _ _ _ _)
@[simp] theorem State.consume_strm (s : State) (det : Nat) : (s.consume det).strm = s.strm := 
  (State.bump_strm _ _ _ _).trans (State.setReg_strm _ _ _ _)
@[simp] theorem State.consume_host (s : State) (det : Nat) : (s.consume det).host = s.host := 
  (State.bump_host _ _ _ _).trans (State.setReg_host _ _ _ _)
@[simp] theorem State.consume_mgmt (s : State) (det : Nat) : (s.consume det).mgmt = s.mgmt := 
  (State.bump_mgmt _ _ _ _).trans (State.setReg_mgmt _ _ _ _)
@[simp] theorem State.consume_av (s : State) (det : Nat) : (s.consume det).av = s.av := 
  (State.bump_av _ _ _ _).trans (State.setReg_av _ _ _ _)
@[simp] theorem State.consume_fw (s : State) (det : Nat) : (s.consume det).fw = s.fw := 
  (State.bump_fw _ _ _ _).trans (State.setReg_fw _ _ _ _)
@[simp] theorem State.consume_tap (s : State) (det : Nat) : (s.consume det).tap = s.tap := 
  (State.bump_tap _ _ _ _).trans (State.setReg_tap _ _ _ _)

/-! charge writes regs at most. -/

@[simp] theorem State.charge_pending (s : State) (a sub n : Nat) : (s.charge a sub n).pending = s.pending := by
  unfold State.charge; split <;> rfl
@[simp] theorem State.charge_now (s : State) (a sub n : Nat) : (s.charge a sub n).now = s.now := by
  unfold State.charge; split <;> rfl
@[simp] theorem State.charge_free (s : State) (a sub n : Nat) : (s.charge a sub n).free = s.free := by
  unfold State.charge; split <;> rfl
@[simp] theorem State.charge_top (s : State) (a sub n : Nat) : (s.charge a sub n).top = s.top := by
  unfold State.charge; split <;> rfl
@[simp] theorem State.charge_alloc (s : State) (a sub n : Nat) : (s.charge a sub n).alloc = s.alloc := by
  unfold State.charge; split <;> rfl
@[simp] theorem State.charge_pow (s : State) (a sub n : Nat) : (s.charge a sub n).pow = s.pow := by
  unfold State.charge; split <;> rfl
@[simp] theorem State.charge_blobs (s : State) (a sub n : Nat) : (s.charge a sub n).blobs = s.blobs := by
  unfold State.charge; split <;> rfl
@[simp] theorem State.charge_mem (s : State) (a sub n : Nat) : (s.charge a sub n).mem = s.mem := by
  unfold State.charge; split <;> rfl
@[simp] theorem State.charge_cores (s : State) (a sub n : Nat) : (s.charge a sub n).cores = s.cores := by
  unfold State.charge; split <;> rfl
@[simp] theorem State.charge_ctxs (s : State) (a sub n : Nat) : (s.charge a sub n).ctxs = s.ctxs := by
  unfold State.charge; split <;> rfl
@[simp] theorem State.charge_jobs (s : State) (a sub n : Nat) : (s.charge a sub n).jobs = s.jobs := by
  unfold State.charge; split <;> rfl
@[simp] theorem State.charge_nextJob (s : State) (a sub n : Nat) : (s.charge a sub n).nextJob = s.nextJob := by
  unfold State.charge; split <;> rfl
@[simp] theorem State.charge_ctxOps (s : State) (a sub n : Nat) : (s.charge a sub n).ctxOps = s.ctxOps := by
  unfold State.charge; split <;> rfl
@[simp] theorem State.charge_tiers (s : State) (a sub n : Nat) : (s.charge a sub n).tiers = s.tiers := by
  unfold State.charge; split <;> rfl
@[simp] theorem State.charge_sl (s : State) (a sub n : Nat) : (s.charge a sub n).sl = s.sl := by
  unfold State.charge; split <;> rfl
@[simp] theorem State.charge_tab (s : State) (a sub n : Nat) : (s.charge a sub n).tab = s.tab := by
  unfold State.charge; split <;> rfl
@[simp] theorem State.charge_fab (s : State) (a sub n : Nat) : (s.charge a sub n).fab = s.fab := by
  unfold State.charge; split <;> rfl
@[simp] theorem State.charge_strm (s : State) (a sub n : Nat) : (s.charge a sub n).strm = s.strm := by
  unfold State.charge; split <;> rfl
@[simp] theorem State.charge_host (s : State) (a sub n : Nat) : (s.charge a sub n).host = s.host := by
  unfold State.charge; split <;> rfl
@[simp] theorem State.charge_mgmt (s : State) (a sub n : Nat) : (s.charge a sub n).mgmt = s.mgmt := by
  unfold State.charge; split <;> rfl
@[simp] theorem State.charge_av (s : State) (a sub n : Nat) : (s.charge a sub n).av = s.av := by
  unfold State.charge; split <;> rfl
@[simp] theorem State.charge_fw (s : State) (a sub n : Nat) : (s.charge a sub n).fw = s.fw := by
  unfold State.charge; split <;> rfl
@[simp] theorem State.charge_tap (s : State) (a sub n : Nat) : (s.charge a sub n).tap = s.tap := by
  unfold State.charge; split <;> rfl

/-! regMax writes regs at most. -/

@[simp] theorem State.regMax_pending (s : State) (i j v : Nat) : (s.regMax i j v).pending = s.pending := by
  unfold State.regMax; split <;> rfl
@[simp] theorem State.regMax_now (s : State) (i j v : Nat) : (s.regMax i j v).now = s.now := by
  unfold State.regMax; split <;> rfl
@[simp] theorem State.regMax_free (s : State) (i j v : Nat) : (s.regMax i j v).free = s.free := by
  unfold State.regMax; split <;> rfl
@[simp] theorem State.regMax_top (s : State) (i j v : Nat) : (s.regMax i j v).top = s.top := by
  unfold State.regMax; split <;> rfl
@[simp] theorem State.regMax_alloc (s : State) (i j v : Nat) : (s.regMax i j v).alloc = s.alloc := by
  unfold State.regMax; split <;> rfl
@[simp] theorem State.regMax_pow (s : State) (i j v : Nat) : (s.regMax i j v).pow = s.pow := by
  unfold State.regMax; split <;> rfl
@[simp] theorem State.regMax_blobs (s : State) (i j v : Nat) : (s.regMax i j v).blobs = s.blobs := by
  unfold State.regMax; split <;> rfl
@[simp] theorem State.regMax_mem (s : State) (i j v : Nat) : (s.regMax i j v).mem = s.mem := by
  unfold State.regMax; split <;> rfl
@[simp] theorem State.regMax_cores (s : State) (i j v : Nat) : (s.regMax i j v).cores = s.cores := by
  unfold State.regMax; split <;> rfl
@[simp] theorem State.regMax_ctxs (s : State) (i j v : Nat) : (s.regMax i j v).ctxs = s.ctxs := by
  unfold State.regMax; split <;> rfl
@[simp] theorem State.regMax_jobs (s : State) (i j v : Nat) : (s.regMax i j v).jobs = s.jobs := by
  unfold State.regMax; split <;> rfl
@[simp] theorem State.regMax_nextJob (s : State) (i j v : Nat) : (s.regMax i j v).nextJob = s.nextJob := by
  unfold State.regMax; split <;> rfl
@[simp] theorem State.regMax_ctxOps (s : State) (i j v : Nat) : (s.regMax i j v).ctxOps = s.ctxOps := by
  unfold State.regMax; split <;> rfl
@[simp] theorem State.regMax_tiers (s : State) (i j v : Nat) : (s.regMax i j v).tiers = s.tiers := by
  unfold State.regMax; split <;> rfl
@[simp] theorem State.regMax_sl (s : State) (i j v : Nat) : (s.regMax i j v).sl = s.sl := by
  unfold State.regMax; split <;> rfl
@[simp] theorem State.regMax_tab (s : State) (i j v : Nat) : (s.regMax i j v).tab = s.tab := by
  unfold State.regMax; split <;> rfl
@[simp] theorem State.regMax_fab (s : State) (i j v : Nat) : (s.regMax i j v).fab = s.fab := by
  unfold State.regMax; split <;> rfl
@[simp] theorem State.regMax_strm (s : State) (i j v : Nat) : (s.regMax i j v).strm = s.strm := by
  unfold State.regMax; split <;> rfl
@[simp] theorem State.regMax_host (s : State) (i j v : Nat) : (s.regMax i j v).host = s.host := by
  unfold State.regMax; split <;> rfl
@[simp] theorem State.regMax_mgmt (s : State) (i j v : Nat) : (s.regMax i j v).mgmt = s.mgmt := by
  unfold State.regMax; split <;> rfl
@[simp] theorem State.regMax_av (s : State) (i j v : Nat) : (s.regMax i j v).av = s.av := by
  unfold State.regMax; split <;> rfl
@[simp] theorem State.regMax_fw (s : State) (i j v : Nat) : (s.regMax i j v).fw = s.fw := by
  unfold State.regMax; split <;> rfl
@[simp] theorem State.regMax_tap (s : State) (i j v : Nat) : (s.regMax i j v).tap = s.tap := by
  unfold State.regMax; split <;> rfl

/-! askPermit writes pow at most. -/

@[simp] theorem State.askPermit_pending (s : State) (p : Permit) : (s.askPermit p).pending = s.pending := by
  unfold State.askPermit; dsimp only; (repeat' split) <;> simp
@[simp] theorem State.askPermit_now (s : State) (p : Permit) : (s.askPermit p).now = s.now := by
  unfold State.askPermit; dsimp only; (repeat' split) <;> simp
@[simp] theorem State.askPermit_free (s : State) (p : Permit) : (s.askPermit p).free = s.free := by
  unfold State.askPermit; dsimp only; (repeat' split) <;> simp
@[simp] theorem State.askPermit_top (s : State) (p : Permit) : (s.askPermit p).top = s.top := by
  unfold State.askPermit; dsimp only; (repeat' split) <;> simp
@[simp] theorem State.askPermit_alloc (s : State) (p : Permit) : (s.askPermit p).alloc = s.alloc := by
  unfold State.askPermit; dsimp only; (repeat' split) <;> simp
@[simp] theorem State.askPermit_regs (s : State) (p : Permit) : (s.askPermit p).regs = s.regs := by
  unfold State.askPermit; dsimp only; (repeat' split) <;> simp
@[simp] theorem State.askPermit_blobs (s : State) (p : Permit) : (s.askPermit p).blobs = s.blobs := by
  unfold State.askPermit; dsimp only; (repeat' split) <;> simp
@[simp] theorem State.askPermit_mem (s : State) (p : Permit) : (s.askPermit p).mem = s.mem := by
  unfold State.askPermit; dsimp only; (repeat' split) <;> simp
@[simp] theorem State.askPermit_cores (s : State) (p : Permit) : (s.askPermit p).cores = s.cores := by
  unfold State.askPermit; dsimp only; (repeat' split) <;> simp
@[simp] theorem State.askPermit_ctxs (s : State) (p : Permit) : (s.askPermit p).ctxs = s.ctxs := by
  unfold State.askPermit; dsimp only; (repeat' split) <;> simp
@[simp] theorem State.askPermit_jobs (s : State) (p : Permit) : (s.askPermit p).jobs = s.jobs := by
  unfold State.askPermit; dsimp only; (repeat' split) <;> simp
@[simp] theorem State.askPermit_nextJob (s : State) (p : Permit) : (s.askPermit p).nextJob = s.nextJob := by
  unfold State.askPermit; dsimp only; (repeat' split) <;> simp
@[simp] theorem State.askPermit_ctxOps (s : State) (p : Permit) : (s.askPermit p).ctxOps = s.ctxOps := by
  unfold State.askPermit; dsimp only; (repeat' split) <;> simp
@[simp] theorem State.askPermit_tiers (s : State) (p : Permit) : (s.askPermit p).tiers = s.tiers := by
  unfold State.askPermit; dsimp only; (repeat' split) <;> simp
@[simp] theorem State.askPermit_sl (s : State) (p : Permit) : (s.askPermit p).sl = s.sl := by
  unfold State.askPermit; dsimp only; (repeat' split) <;> simp
@[simp] theorem State.askPermit_tab (s : State) (p : Permit) : (s.askPermit p).tab = s.tab := by
  unfold State.askPermit; dsimp only; (repeat' split) <;> simp
@[simp] theorem State.askPermit_fab (s : State) (p : Permit) : (s.askPermit p).fab = s.fab := by
  unfold State.askPermit; dsimp only; (repeat' split) <;> simp
@[simp] theorem State.askPermit_strm (s : State) (p : Permit) : (s.askPermit p).strm = s.strm := by
  unfold State.askPermit; dsimp only; (repeat' split) <;> simp
@[simp] theorem State.askPermit_host (s : State) (p : Permit) : (s.askPermit p).host = s.host := by
  unfold State.askPermit; dsimp only; (repeat' split) <;> simp
@[simp] theorem State.askPermit_mgmt (s : State) (p : Permit) : (s.askPermit p).mgmt = s.mgmt := by
  unfold State.askPermit; dsimp only; (repeat' split) <;> simp
@[simp] theorem State.askPermit_av (s : State) (p : Permit) : (s.askPermit p).av = s.av := by
  unfold State.askPermit; dsimp only; (repeat' split) <;> simp
@[simp] theorem State.askPermit_fw (s : State) (p : Permit) : (s.askPermit p).fw = s.fw := by
  unfold State.askPermit; dsimp only; (repeat' split) <;> simp
@[simp] theorem State.askPermit_tap (s : State) (p : Permit) : (s.askPermit p).tap = s.tap := by
  unfold State.askPermit; dsimp only; (repeat' split) <;> simp

/-! returnPermit writes pow at most. -/

@[simp] theorem State.returnPermit_pending (s : State) (p : Permit) : (s.returnPermit p).pending = s.pending := by
  unfold State.returnPermit; dsimp only; (repeat' split) <;> simp
@[simp] theorem State.returnPermit_now (s : State) (p : Permit) : (s.returnPermit p).now = s.now := by
  unfold State.returnPermit; dsimp only; (repeat' split) <;> simp
@[simp] theorem State.returnPermit_free (s : State) (p : Permit) : (s.returnPermit p).free = s.free := by
  unfold State.returnPermit; dsimp only; (repeat' split) <;> simp
@[simp] theorem State.returnPermit_top (s : State) (p : Permit) : (s.returnPermit p).top = s.top := by
  unfold State.returnPermit; dsimp only; (repeat' split) <;> simp
@[simp] theorem State.returnPermit_alloc (s : State) (p : Permit) : (s.returnPermit p).alloc = s.alloc := by
  unfold State.returnPermit; dsimp only; (repeat' split) <;> simp
@[simp] theorem State.returnPermit_regs (s : State) (p : Permit) : (s.returnPermit p).regs = s.regs := by
  unfold State.returnPermit; dsimp only; (repeat' split) <;> simp
@[simp] theorem State.returnPermit_blobs (s : State) (p : Permit) : (s.returnPermit p).blobs = s.blobs := by
  unfold State.returnPermit; dsimp only; (repeat' split) <;> simp
@[simp] theorem State.returnPermit_mem (s : State) (p : Permit) : (s.returnPermit p).mem = s.mem := by
  unfold State.returnPermit; dsimp only; (repeat' split) <;> simp
@[simp] theorem State.returnPermit_cores (s : State) (p : Permit) : (s.returnPermit p).cores = s.cores := by
  unfold State.returnPermit; dsimp only; (repeat' split) <;> simp
@[simp] theorem State.returnPermit_ctxs (s : State) (p : Permit) : (s.returnPermit p).ctxs = s.ctxs := by
  unfold State.returnPermit; dsimp only; (repeat' split) <;> simp
@[simp] theorem State.returnPermit_jobs (s : State) (p : Permit) : (s.returnPermit p).jobs = s.jobs := by
  unfold State.returnPermit; dsimp only; (repeat' split) <;> simp
@[simp] theorem State.returnPermit_nextJob (s : State) (p : Permit) : (s.returnPermit p).nextJob = s.nextJob := by
  unfold State.returnPermit; dsimp only; (repeat' split) <;> simp
@[simp] theorem State.returnPermit_ctxOps (s : State) (p : Permit) : (s.returnPermit p).ctxOps = s.ctxOps := by
  unfold State.returnPermit; dsimp only; (repeat' split) <;> simp
@[simp] theorem State.returnPermit_tiers (s : State) (p : Permit) : (s.returnPermit p).tiers = s.tiers := by
  unfold State.returnPermit; dsimp only; (repeat' split) <;> simp
@[simp] theorem State.returnPermit_sl (s : State) (p : Permit) : (s.returnPermit p).sl = s.sl := by
  unfold State.returnPermit; dsimp only; (repeat' split) <;> simp
@[simp] theorem State.returnPermit_tab (s : State) (p : Permit) : (s.returnPermit p).tab = s.tab := by
  unfold State.returnPermit; dsimp only; (repeat' split) <;> simp
@[simp] theorem State.returnPermit_fab (s : State) (p : Permit) : (s.returnPermit p).fab = s.fab := by
  unfold State.returnPermit; dsimp only; (repeat' split) <;> simp
@[simp] theorem State.returnPermit_strm (s : State) (p : Permit) : (s.returnPermit p).strm = s.strm := by
  unfold State.returnPermit; dsimp only; (repeat' split) <;> simp
@[simp] theorem State.returnPermit_host (s : State) (p : Permit) : (s.returnPermit p).host = s.host := by
  unfold State.returnPermit; dsimp only; (repeat' split) <;> simp
@[simp] theorem State.returnPermit_mgmt (s : State) (p : Permit) : (s.returnPermit p).mgmt = s.mgmt := by
  unfold State.returnPermit; dsimp only; (repeat' split) <;> simp
@[simp] theorem State.returnPermit_av (s : State) (p : Permit) : (s.returnPermit p).av = s.av := by
  unfold State.returnPermit; dsimp only; (repeat' split) <;> simp
@[simp] theorem State.returnPermit_fw (s : State) (p : Permit) : (s.returnPermit p).fw = s.fw := by
  unfold State.returnPermit; dsimp only; (repeat' split) <;> simp
@[simp] theorem State.returnPermit_tap (s : State) (p : Permit) : (s.returnPermit p).tap = s.tap := by
  unfold State.returnPermit; dsimp only; (repeat' split) <;> simp

/-! signal writes host at most. -/

@[simp] theorem State.signal_pending (s : State) (f v : Nat) : (s.signal f v).pending = s.pending := by
  unfold State.signal; dsimp only; split <;> rfl
@[simp] theorem State.signal_now (s : State) (f v : Nat) : (s.signal f v).now = s.now := by
  unfold State.signal; dsimp only; split <;> rfl
@[simp] theorem State.signal_free (s : State) (f v : Nat) : (s.signal f v).free = s.free := by
  unfold State.signal; dsimp only; split <;> rfl
@[simp] theorem State.signal_top (s : State) (f v : Nat) : (s.signal f v).top = s.top := by
  unfold State.signal; dsimp only; split <;> rfl
@[simp] theorem State.signal_alloc (s : State) (f v : Nat) : (s.signal f v).alloc = s.alloc := by
  unfold State.signal; dsimp only; split <;> rfl
@[simp] theorem State.signal_pow (s : State) (f v : Nat) : (s.signal f v).pow = s.pow := by
  unfold State.signal; dsimp only; split <;> rfl
@[simp] theorem State.signal_regs (s : State) (f v : Nat) : (s.signal f v).regs = s.regs := by
  unfold State.signal; dsimp only; split <;> rfl
@[simp] theorem State.signal_blobs (s : State) (f v : Nat) : (s.signal f v).blobs = s.blobs := by
  unfold State.signal; dsimp only; split <;> rfl
@[simp] theorem State.signal_mem (s : State) (f v : Nat) : (s.signal f v).mem = s.mem := by
  unfold State.signal; dsimp only; split <;> rfl
@[simp] theorem State.signal_cores (s : State) (f v : Nat) : (s.signal f v).cores = s.cores := by
  unfold State.signal; dsimp only; split <;> rfl
@[simp] theorem State.signal_ctxs (s : State) (f v : Nat) : (s.signal f v).ctxs = s.ctxs := by
  unfold State.signal; dsimp only; split <;> rfl
@[simp] theorem State.signal_jobs (s : State) (f v : Nat) : (s.signal f v).jobs = s.jobs := by
  unfold State.signal; dsimp only; split <;> rfl
@[simp] theorem State.signal_nextJob (s : State) (f v : Nat) : (s.signal f v).nextJob = s.nextJob := by
  unfold State.signal; dsimp only; split <;> rfl
@[simp] theorem State.signal_ctxOps (s : State) (f v : Nat) : (s.signal f v).ctxOps = s.ctxOps := by
  unfold State.signal; dsimp only; split <;> rfl
@[simp] theorem State.signal_tiers (s : State) (f v : Nat) : (s.signal f v).tiers = s.tiers := by
  unfold State.signal; dsimp only; split <;> rfl
@[simp] theorem State.signal_sl (s : State) (f v : Nat) : (s.signal f v).sl = s.sl := by
  unfold State.signal; dsimp only; split <;> rfl
@[simp] theorem State.signal_tab (s : State) (f v : Nat) : (s.signal f v).tab = s.tab := by
  unfold State.signal; dsimp only; split <;> rfl
@[simp] theorem State.signal_fab (s : State) (f v : Nat) : (s.signal f v).fab = s.fab := by
  unfold State.signal; dsimp only; split <;> rfl
@[simp] theorem State.signal_strm (s : State) (f v : Nat) : (s.signal f v).strm = s.strm := by
  unfold State.signal; dsimp only; split <;> rfl
@[simp] theorem State.signal_mgmt (s : State) (f v : Nat) : (s.signal f v).mgmt = s.mgmt := by
  unfold State.signal; dsimp only; split <;> rfl
@[simp] theorem State.signal_av (s : State) (f v : Nat) : (s.signal f v).av = s.av := by
  unfold State.signal; dsimp only; split <;> rfl
@[simp] theorem State.signal_fw (s : State) (f v : Nat) : (s.signal f v).fw = s.fw := by
  unfold State.signal; dsimp only; split <;> rfl
@[simp] theorem State.signal_tap (s : State) (f v : Nat) : (s.signal f v).tap = s.tap := by
  unfold State.signal; dsimp only; split <;> rfl

end Sys2Proof.Machine
end

