-- ==== Sys2Proof/Laws/Regs.lean ====
section
/-! SUPPORT. Reading a scalar entry after an operation has written one, and the fields that the storing operations leave. -/

set_option Elab.async false

namespace Sys2Proof.Machine

theorem State.reg_setReg_same {s : State} (h : Regs.wf s.regs = true) (i j v : Nat) :
    (s.setReg i j v).reg i j = v % 2 ^ regBits (dkey i j) :=
  SMap.get_set_same _ (Regs.rising h) _ _

theorem State.reg_setReg_other {s : State} {i j a b : Nat} (v : Nat) (hk : dkey a b ≠ dkey i j) :
    (s.setReg i j v).reg a b = s.reg a b :=
  SMap.get_set_other _ _ _ _ hk

theorem State.reg_bump_other {s : State} {i j a b : Nat} (n : Nat) (hk : dkey a b ≠ dkey i j) :
    (s.bump i j n).reg a b = s.reg a b := State.reg_setReg_other _ hk

theorem State.reg_bump_same {s : State} (h : Regs.wf s.regs = true) (i j n : Nat) :
    (s.bump i j n).reg i j = (s.reg i j + n) % 2 ^ regBits (dkey i j) := State.reg_setReg_same h _ _ _

theorem State.wf_setReg {s : State} (h : Regs.wf s.regs = true) (i j v : Nat) : Regs.wf (s.setReg i j v).regs = true :=
  Regs.wf_set h _ _

/-- A byte outside the bytes stored reads as before. -/
theorem State.byteAt_putBytesAt_other {s : State} {a x : Nat} (bs : List Byte) (h : x < a ∨ a + bs.length ≤ x) :
    (s.putBytesAt a bs).byteAt x = s.byteAt x := get_memPut_other _ _ _ h

end Sys2Proof.Machine
end

