-- ==== Sys2Proof/Laws/Frames.lean ====
section
/-! SUPPORT. What the operations that raise a detector leave alone, field by field. -/

set_option Elab.async false

namespace Sys2Proof.Machine

/-- Two states that agree in every field are one. -/
theorem State.ext_fields {s t : State}
    (h0 : t.pending = s.pending)
    (h1 : t.now = s.now)
    (h2 : t.free = s.free)
    (h3 : t.top = s.top)
    (h4 : t.alloc = s.alloc)
    (h5 : t.pow = s.pow)
    (h6 : t.regs = s.regs)
    (h7 : t.blobs = s.blobs)
    (h8 : t.mem = s.mem)
    (h9 : t.cores = s.cores)
    (h10 : t.ctxs = s.ctxs)
    (h11 : t.jobs = s.jobs)
    (h12 : t.nextJob = s.nextJob)
    (h13 : t.ctxOps = s.ctxOps)
    (h14 : t.tiers = s.tiers)
    (h15 : t.sl = s.sl)
    (h16 : t.tab = s.tab)
    (h17 : t.fab = s.fab)
    (h18 : t.strm = s.strm)
    (h19 : t.host = s.host)
    (h20 : t.mgmt = s.mgmt)
    (h21 : t.av = s.av)
    (h22 : t.fw = s.fw)
    (h23 : t.tap = s.tap) : t = s := by
  cases s; cases t; simp_all

@[simp] theorem State.toManagement_pending (s : State) (n : Nat) (r : Rec) : (s.toManagement n r).pending = s.pending := by
  unfold State.toManagement; split <;> rfl
@[simp] theorem State.toManagement_now (s : State) (n : Nat) (r : Rec) : (s.toManagement n r).now = s.now := by
  unfold State.toManagement; split <;> rfl
@[simp] theorem State.toManagement_free (s : State) (n : Nat) (r : Rec) : (s.toManagement n r).free = s.free := by
  unfold State.toManagement; split <;> rfl
@[simp] theorem State.toManagement_top (s : State) (n : Nat) (r : Rec) : (s.toManagement n r).top = s.top := by
  unfold State.toManagement; split <;> rfl
@[simp] theorem State.toManagement_alloc (s : State) (n : Nat) (r : Rec) : (s.toManagement n r).alloc = s.alloc := by
  unfold State.toManagement; split <;> rfl
@[simp] theorem State.toManagement_pow (s : State) (n : Nat) (r : Rec) : (s.toManagement n r).pow = s.pow := by
  unfold State.toManagement; split <;> rfl
@[simp] theorem State.toManagement_regs (s : State) (n : Nat) (r : Rec) : (s.toManagement n r).regs = s.regs := by
  unfold State.toManagement; split <;> rfl
@[simp] theorem State.toManagement_blobs (s : State) (n : Nat) (r : Rec) : (s.toManagement n r).blobs = s.blobs := by
  unfold State.toManagement; split <;> rfl
@[simp] theorem State.toManagement_mem (s : State) (n : Nat) (r : Rec) : (s.toManagement n r).mem = s.mem := by
  unfold State.toManagement; split <;> rfl
@[simp] theorem State.toManagement_cores (s : State) (n : Nat) (r : Rec) : (s.toManagement n r).cores = s.cores := by
  unfold State.toManagement; split <;> rfl
@[simp] theorem State.toManagement_ctxs (s : State) (n : Nat) (r : Rec) : (s.toManagement n r).ctxs = s.ctxs := by
  unfold State.toManagement; split <;> rfl
@[simp] theorem State.toManagement_jobs (s : State) (n : Nat) (r : Rec) : (s.toManagement n r).jobs = s.jobs := by
  unfold State.toManagement; split <;> rfl
@[simp] theorem State.toManagement_nextJob (s : State) (n : Nat) (r : Rec) : (s.toManagement n r).nextJob = s.nextJob := by
  unfold State.toManagement; split <;> rfl
@[simp] theorem State.toManagement_ctxOps (s : State) (n : Nat) (r : Rec) : (s.toManagement n r).ctxOps = s.ctxOps := by
  unfold State.toManagement; split <;> rfl
@[simp] theorem State.toManagement_tiers (s : State) (n : Nat) (r : Rec) : (s.toManagement n r).tiers = s.tiers := by
  unfold State.toManagement; split <;> rfl
@[simp] theorem State.toManagement_sl (s : State) (n : Nat) (r : Rec) : (s.toManagement n r).sl = s.sl := by
  unfold State.toManagement; split <;> rfl
@[simp] theorem State.toManagement_tab (s : State) (n : Nat) (r : Rec) : (s.toManagement n r).tab = s.tab := by
  unfold State.toManagement; split <;> rfl
@[simp] theorem State.toManagement_fab (s : State) (n : Nat) (r : Rec) : (s.toManagement n r).fab = s.fab := by
  unfold State.toManagement; split <;> rfl
@[simp] theorem State.toManagement_strm (s : State) (n : Nat) (r : Rec) : (s.toManagement n r).strm = s.strm := by
  unfold State.toManagement; split <;> rfl
@[simp] theorem State.toManagement_host (s : State) (n : Nat) (r : Rec) : (s.toManagement n r).host = s.host := by
  unfold State.toManagement; split <;> rfl
@[simp] theorem State.toManagement_av (s : State) (n : Nat) (r : Rec) : (s.toManagement n r).av = s.av := by
  unfold State.toManagement; split <;> rfl
@[simp] theorem State.toManagement_fw (s : State) (n : Nat) (r : Rec) : (s.toManagement n r).fw = s.fw := by
  unfold State.toManagement; split <;> rfl
@[simp] theorem State.toManagement_tap (s : State) (n : Nat) (r : Rec) : (s.toManagement n r).tap = s.tap := by
  unfold State.toManagement; split <;> rfl

@[simp] theorem State.putFor_pending (s : State) (f a : Nat) (bs : List Byte) : (s.putFor f a bs).pending = s.pending := by
  unfold State.putFor; split <;> simp
@[simp] theorem State.putFor_now (s : State) (f a : Nat) (bs : List Byte) : (s.putFor f a bs).now = s.now := by
  unfold State.putFor; split <;> simp
@[simp] theorem State.putFor_free (s : State) (f a : Nat) (bs : List Byte) : (s.putFor f a bs).free = s.free := by
  unfold State.putFor; split <;> simp
@[simp] theorem State.putFor_top (s : State) (f a : Nat) (bs : List Byte) : (s.putFor f a bs).top = s.top := by
  unfold State.putFor; split <;> simp
@[simp] theorem State.putFor_alloc (s : State) (f a : Nat) (bs : List Byte) : (s.putFor f a bs).alloc = s.alloc := by
  unfold State.putFor; split <;> simp
@[simp] theorem State.putFor_pow (s : State) (f a : Nat) (bs : List Byte) : (s.putFor f a bs).pow = s.pow := by
  unfold State.putFor; split <;> simp
@[simp] theorem State.putFor_blobs (s : State) (f a : Nat) (bs : List Byte) : (s.putFor f a bs).blobs = s.blobs := by
  unfold State.putFor; split <;> simp
@[simp] theorem State.putFor_cores (s : State) (f a : Nat) (bs : List Byte) : (s.putFor f a bs).cores = s.cores := by
  unfold State.putFor; split <;> simp
@[simp] theorem State.putFor_ctxs (s : State) (f a : Nat) (bs : List Byte) : (s.putFor f a bs).ctxs = s.ctxs := by
  unfold State.putFor; split <;> simp
@[simp] theorem State.putFor_jobs (s : State) (f a : Nat) (bs : List Byte) : (s.putFor f a bs).jobs = s.jobs := by
  unfold State.putFor; split <;> simp
@[simp] theorem State.putFor_nextJob (s : State) (f a : Nat) (bs : List Byte) : (s.putFor f a bs).nextJob = s.nextJob := by
  unfold State.putFor; split <;> simp
@[simp] theorem State.putFor_ctxOps (s : State) (f a : Nat) (bs : List Byte) : (s.putFor f a bs).ctxOps = s.ctxOps := by
  unfold State.putFor; split <;> simp
@[simp] theorem State.putFor_tiers (s : State) (f a : Nat) (bs : List Byte) : (s.putFor f a bs).tiers = s.tiers := by
  unfold State.putFor; split <;> simp
@[simp] theorem State.putFor_sl (s : State) (f a : Nat) (bs : List Byte) : (s.putFor f a bs).sl = s.sl := by
  unfold State.putFor; split <;> simp
@[simp] theorem State.putFor_tab (s : State) (f a : Nat) (bs : List Byte) : (s.putFor f a bs).tab = s.tab := by
  unfold State.putFor; split <;> simp
@[simp] theorem State.putFor_fab (s : State) (f a : Nat) (bs : List Byte) : (s.putFor f a bs).fab = s.fab := by
  unfold State.putFor; split <;> simp
@[simp] theorem State.putFor_strm (s : State) (f a : Nat) (bs : List Byte) : (s.putFor f a bs).strm = s.strm := by
  unfold State.putFor; split <;> simp
@[simp] theorem State.putFor_host (s : State) (f a : Nat) (bs : List Byte) : (s.putFor f a bs).host = s.host := by
  unfold State.putFor; split <;> simp
@[simp] theorem State.putFor_mgmt (s : State) (f a : Nat) (bs : List Byte) : (s.putFor f a bs).mgmt = s.mgmt := by
  unfold State.putFor; split <;> simp
@[simp] theorem State.putFor_av (s : State) (f a : Nat) (bs : List Byte) : (s.putFor f a bs).av = s.av := by
  unfold State.putFor; split <;> simp
@[simp] theorem State.putFor_fw (s : State) (f a : Nat) (bs : List Byte) : (s.putFor f a bs).fw = s.fw := by
  unfold State.putFor; split <;> simp
@[simp] theorem State.putFor_tap (s : State) (f a : Nat) (bs : List Byte) : (s.putFor f a bs).tap = s.tap := by
  unfold State.putFor; split <;> simp

@[simp] theorem State.putEvent_pending (s : State) (f : Nat) (r : Rec) : (s.putEvent f r).pending = s.pending := by
  unfold State.putEvent; dsimp only; split <;> simp
@[simp] theorem State.putEvent_now (s : State) (f : Nat) (r : Rec) : (s.putEvent f r).now = s.now := by
  unfold State.putEvent; dsimp only; split <;> simp
@[simp] theorem State.putEvent_free (s : State) (f : Nat) (r : Rec) : (s.putEvent f r).free = s.free := by
  unfold State.putEvent; dsimp only; split <;> simp
@[simp] theorem State.putEvent_top (s : State) (f : Nat) (r : Rec) : (s.putEvent f r).top = s.top := by
  unfold State.putEvent; dsimp only; split <;> simp
@[simp] theorem State.putEvent_alloc (s : State) (f : Nat) (r : Rec) : (s.putEvent f r).alloc = s.alloc := by
  unfold State.putEvent; dsimp only; split <;> simp
@[simp] theorem State.putEvent_pow (s : State) (f : Nat) (r : Rec) : (s.putEvent f r).pow = s.pow := by
  unfold State.putEvent; dsimp only; split <;> simp
@[simp] theorem State.putEvent_blobs (s : State) (f : Nat) (r : Rec) : (s.putEvent f r).blobs = s.blobs := by
  unfold State.putEvent; dsimp only; split <;> simp
@[simp] theorem State.putEvent_cores (s : State) (f : Nat) (r : Rec) : (s.putEvent f r).cores = s.cores := by
  unfold State.putEvent; dsimp only; split <;> simp
@[simp] theorem State.putEvent_ctxs (s : State) (f : Nat) (r : Rec) : (s.putEvent f r).ctxs = s.ctxs := by
  unfold State.putEvent; dsimp only; split <;> simp
@[simp] theorem State.putEvent_jobs (s : State) (f : Nat) (r : Rec) : (s.putEvent f r).jobs = s.jobs := by
  unfold State.putEvent; dsimp only; split <;> simp
@[simp] theorem State.putEvent_nextJob (s : State) (f : Nat) (r : Rec) : (s.putEvent f r).nextJob = s.nextJob := by
  unfold State.putEvent; dsimp only; split <;> simp
@[simp] theorem State.putEvent_ctxOps (s : State) (f : Nat) (r : Rec) : (s.putEvent f r).ctxOps = s.ctxOps := by
  unfold State.putEvent; dsimp only; split <;> simp
@[simp] theorem State.putEvent_tiers (s : State) (f : Nat) (r : Rec) : (s.putEvent f r).tiers = s.tiers := by
  unfold State.putEvent; dsimp only; split <;> simp
@[simp] theorem State.putEvent_sl (s : State) (f : Nat) (r : Rec) : (s.putEvent f r).sl = s.sl := by
  unfold State.putEvent; dsimp only; split <;> simp
@[simp] theorem State.putEvent_tab (s : State) (f : Nat) (r : Rec) : (s.putEvent f r).tab = s.tab := by
  unfold State.putEvent; dsimp only; split <;> simp
@[simp] theorem State.putEvent_fab (s : State) (f : Nat) (r : Rec) : (s.putEvent f r).fab = s.fab := by
  unfold State.putEvent; dsimp only; split <;> simp
@[simp] theorem State.putEvent_strm (s : State) (f : Nat) (r : Rec) : (s.putEvent f r).strm = s.strm := by
  unfold State.putEvent; dsimp only; split <;> simp
@[simp] theorem State.putEvent_mgmt (s : State) (f : Nat) (r : Rec) : (s.putEvent f r).mgmt = s.mgmt := by
  unfold State.putEvent; dsimp only; split <;> simp
@[simp] theorem State.putEvent_av (s : State) (f : Nat) (r : Rec) : (s.putEvent f r).av = s.av := by
  unfold State.putEvent; dsimp only; split <;> simp
@[simp] theorem State.putEvent_fw (s : State) (f : Nat) (r : Rec) : (s.putEvent f r).fw = s.fw := by
  unfold State.putEvent; dsimp only; split <;> simp
@[simp] theorem State.putEvent_tap (s : State) (f : Nat) (r : Rec) : (s.putEvent f r).tap = s.tap := by
  unfold State.putEvent; dsimp only; split <;> simp

@[simp] theorem State.postEvent_pending (s : State) (f : Nat) (r : Rec) : (s.postEvent f r).pending = s.pending := by
  unfold State.postEvent; split <;> simp
@[simp] theorem State.postEvent_now (s : State) (f : Nat) (r : Rec) : (s.postEvent f r).now = s.now := by
  unfold State.postEvent; split <;> simp
@[simp] theorem State.postEvent_free (s : State) (f : Nat) (r : Rec) : (s.postEvent f r).free = s.free := by
  unfold State.postEvent; split <;> simp
@[simp] theorem State.postEvent_top (s : State) (f : Nat) (r : Rec) : (s.postEvent f r).top = s.top := by
  unfold State.postEvent; split <;> simp
@[simp] theorem State.postEvent_alloc (s : State) (f : Nat) (r : Rec) : (s.postEvent f r).alloc = s.alloc := by
  unfold State.postEvent; split <;> simp
@[simp] theorem State.postEvent_pow (s : State) (f : Nat) (r : Rec) : (s.postEvent f r).pow = s.pow := by
  unfold State.postEvent; split <;> simp
@[simp] theorem State.postEvent_blobs (s : State) (f : Nat) (r : Rec) : (s.postEvent f r).blobs = s.blobs := by
  unfold State.postEvent; split <;> simp
@[simp] theorem State.postEvent_cores (s : State) (f : Nat) (r : Rec) : (s.postEvent f r).cores = s.cores := by
  unfold State.postEvent; split <;> simp
@[simp] theorem State.postEvent_ctxs (s : State) (f : Nat) (r : Rec) : (s.postEvent f r).ctxs = s.ctxs := by
  unfold State.postEvent; split <;> simp
@[simp] theorem State.postEvent_jobs (s : State) (f : Nat) (r : Rec) : (s.postEvent f r).jobs = s.jobs := by
  unfold State.postEvent; split <;> simp
@[simp] theorem State.postEvent_nextJob (s : State) (f : Nat) (r : Rec) : (s.postEvent f r).nextJob = s.nextJob := by
  unfold State.postEvent; split <;> simp
@[simp] theorem State.postEvent_ctxOps (s : State) (f : Nat) (r : Rec) : (s.postEvent f r).ctxOps = s.ctxOps := by
  unfold State.postEvent; split <;> simp
@[simp] theorem State.postEvent_tiers (s : State) (f : Nat) (r : Rec) : (s.postEvent f r).tiers = s.tiers := by
  unfold State.postEvent; split <;> simp
@[simp] theorem State.postEvent_sl (s : State) (f : Nat) (r : Rec) : (s.postEvent f r).sl = s.sl := by
  unfold State.postEvent; split <;> simp
@[simp] theorem State.postEvent_tab (s : State) (f : Nat) (r : Rec) : (s.postEvent f r).tab = s.tab := by
  unfold State.postEvent; split <;> simp
@[simp] theorem State.postEvent_fab (s : State) (f : Nat) (r : Rec) : (s.postEvent f r).fab = s.fab := by
  unfold State.postEvent; split <;> simp
@[simp] theorem State.postEvent_strm (s : State) (f : Nat) (r : Rec) : (s.postEvent f r).strm = s.strm := by
  unfold State.postEvent; split <;> simp
@[simp] theorem State.postEvent_mgmt (s : State) (f : Nat) (r : Rec) : (s.postEvent f r).mgmt = s.mgmt := by
  unfold State.postEvent; split <;> simp
@[simp] theorem State.postEvent_av (s : State) (f : Nat) (r : Rec) : (s.postEvent f r).av = s.av := by
  unfold State.postEvent; split <;> simp
@[simp] theorem State.postEvent_fw (s : State) (f : Nat) (r : Rec) : (s.postEvent f r).fw = s.fw := by
  unfold State.postEvent; split <;> simp
@[simp] theorem State.postEvent_tap (s : State) (f : Nat) (r : Rec) : (s.postEvent f r).tap = s.tap := by
  unfold State.postEvent; split <;> simp

@[simp] theorem State.postRecord_pending (s : State) (r : Raise) (ev : Rec) : (s.postRecord r ev).pending = s.pending := by
  unfold State.postRecord; dsimp only; (repeat' split) <;> simp
@[simp] theorem State.postRecord_now (s : State) (r : Raise) (ev : Rec) : (s.postRecord r ev).now = s.now := by
  unfold State.postRecord; dsimp only; (repeat' split) <;> simp
@[simp] theorem State.postRecord_free (s : State) (r : Raise) (ev : Rec) : (s.postRecord r ev).free = s.free := by
  unfold State.postRecord; dsimp only; (repeat' split) <;> simp
@[simp] theorem State.postRecord_top (s : State) (r : Raise) (ev : Rec) : (s.postRecord r ev).top = s.top := by
  unfold State.postRecord; dsimp only; (repeat' split) <;> simp
@[simp] theorem State.postRecord_alloc (s : State) (r : Raise) (ev : Rec) : (s.postRecord r ev).alloc = s.alloc := by
  unfold State.postRecord; dsimp only; (repeat' split) <;> simp
@[simp] theorem State.postRecord_pow (s : State) (r : Raise) (ev : Rec) : (s.postRecord r ev).pow = s.pow := by
  unfold State.postRecord; dsimp only; (repeat' split) <;> simp
@[simp] theorem State.postRecord_blobs (s : State) (r : Raise) (ev : Rec) : (s.postRecord r ev).blobs = s.blobs := by
  unfold State.postRecord; dsimp only; (repeat' split) <;> simp
@[simp] theorem State.postRecord_cores (s : State) (r : Raise) (ev : Rec) : (s.postRecord r ev).cores = s.cores := by
  unfold State.postRecord; dsimp only; (repeat' split) <;> simp
@[simp] theorem State.postRecord_ctxs (s : State) (r : Raise) (ev : Rec) : (s.postRecord r ev).ctxs = s.ctxs := by
  unfold State.postRecord; dsimp only; (repeat' split) <;> simp
@[simp] theorem State.postRecord_jobs (s : State) (r : Raise) (ev : Rec) : (s.postRecord r ev).jobs = s.jobs := by
  unfold State.postRecord; dsimp only; (repeat' split) <;> simp
@[simp] theorem State.postRecord_nextJob (s : State) (r : Raise) (ev : Rec) : (s.postRecord r ev).nextJob = s.nextJob := by
  unfold State.postRecord; dsimp only; (repeat' split) <;> simp
@[simp] theorem State.postRecord_ctxOps (s : State) (r : Raise) (ev : Rec) : (s.postRecord r ev).ctxOps = s.ctxOps := by
  unfold State.postRecord; dsimp only; (repeat' split) <;> simp
@[simp] theorem State.postRecord_tiers (s : State) (r : Raise) (ev : Rec) : (s.postRecord r ev).tiers = s.tiers := by
  unfold State.postRecord; dsimp only; (repeat' split) <;> simp
@[simp] theorem State.postRecord_sl (s : State) (r : Raise) (ev : Rec) : (s.postRecord r ev).sl = s.sl := by
  unfold State.postRecord; dsimp only; (repeat' split) <;> simp
@[simp] theorem State.postRecord_tab (s : State) (r : Raise) (ev : Rec) : (s.postRecord r ev).tab = s.tab := by
  unfold State.postRecord; dsimp only; (repeat' split) <;> simp
@[simp] theorem State.postRecord_fab (s : State) (r : Raise) (ev : Rec) : (s.postRecord r ev).fab = s.fab := by
  unfold State.postRecord; dsimp only; (repeat' split) <;> simp
@[simp] theorem State.postRecord_strm (s : State) (r : Raise) (ev : Rec) : (s.postRecord r ev).strm = s.strm := by
  unfold State.postRecord; dsimp only; (repeat' split) <;> simp
@[simp] theorem State.postRecord_fw (s : State) (r : Raise) (ev : Rec) : (s.postRecord r ev).fw = s.fw := by
  unfold State.postRecord; dsimp only; (repeat' split) <;> simp
@[simp] theorem State.postRecord_tap (s : State) (r : Raise) (ev : Rec) : (s.postRecord r ev).tap = s.tap := by
  unfold State.postRecord; dsimp only; (repeat' split) <;> simp

@[simp] theorem State.holdRecord_pending (s : State) (r : Raise) (ev : Rec) : (s.holdRecord r ev).pending = s.pending := rfl
@[simp] theorem State.holdRecord_now (s : State) (r : Raise) (ev : Rec) : (s.holdRecord r ev).now = s.now := rfl
@[simp] theorem State.holdRecord_free (s : State) (r : Raise) (ev : Rec) : (s.holdRecord r ev).free = s.free := rfl
@[simp] theorem State.holdRecord_top (s : State) (r : Raise) (ev : Rec) : (s.holdRecord r ev).top = s.top := rfl
@[simp] theorem State.holdRecord_alloc (s : State) (r : Raise) (ev : Rec) : (s.holdRecord r ev).alloc = s.alloc := rfl
@[simp] theorem State.holdRecord_pow (s : State) (r : Raise) (ev : Rec) : (s.holdRecord r ev).pow = s.pow := rfl
@[simp] theorem State.holdRecord_cores (s : State) (r : Raise) (ev : Rec) : (s.holdRecord r ev).cores = s.cores := rfl
@[simp] theorem State.holdRecord_ctxs (s : State) (r : Raise) (ev : Rec) : (s.holdRecord r ev).ctxs = s.ctxs := rfl
@[simp] theorem State.holdRecord_jobs (s : State) (r : Raise) (ev : Rec) : (s.holdRecord r ev).jobs = s.jobs := rfl
@[simp] theorem State.holdRecord_nextJob (s : State) (r : Raise) (ev : Rec) : (s.holdRecord r ev).nextJob = s.nextJob := rfl
@[simp] theorem State.holdRecord_ctxOps (s : State) (r : Raise) (ev : Rec) : (s.holdRecord r ev).ctxOps = s.ctxOps := rfl
@[simp] theorem State.holdRecord_tiers (s : State) (r : Raise) (ev : Rec) : (s.holdRecord r ev).tiers = s.tiers := rfl
@[simp] theorem State.holdRecord_sl (s : State) (r : Raise) (ev : Rec) : (s.holdRecord r ev).sl = s.sl := rfl
@[simp] theorem State.holdRecord_tab (s : State) (r : Raise) (ev : Rec) : (s.holdRecord r ev).tab = s.tab := rfl
@[simp] theorem State.holdRecord_fab (s : State) (r : Raise) (ev : Rec) : (s.holdRecord r ev).fab = s.fab := rfl
@[simp] theorem State.holdRecord_strm (s : State) (r : Raise) (ev : Rec) : (s.holdRecord r ev).strm = s.strm := rfl
@[simp] theorem State.holdRecord_fw (s : State) (r : Raise) (ev : Rec) : (s.holdRecord r ev).fw = s.fw := rfl
@[simp] theorem State.holdRecord_tap (s : State) (r : Raise) (ev : Rec) : (s.holdRecord r ev).tap = s.tap := rfl
@[simp] theorem State.notePosted_pending (s : State) (det : Nat) : (s.notePosted det).pending = s.pending := rfl
@[simp] theorem State.notePosted_now (s : State) (det : Nat) : (s.notePosted det).now = s.now := rfl
@[simp] theorem State.notePosted_free (s : State) (det : Nat) : (s.notePosted det).free = s.free := rfl
@[simp] theorem State.notePosted_top (s : State) (det : Nat) : (s.notePosted det).top = s.top := rfl
@[simp] theorem State.notePosted_alloc (s : State) (det : Nat) : (s.notePosted det).alloc = s.alloc := rfl
@[simp] theorem State.notePosted_pow (s : State) (det : Nat) : (s.notePosted det).pow = s.pow := rfl
@[simp] theorem State.notePosted_cores (s : State) (det : Nat) : (s.notePosted det).cores = s.cores := rfl
@[simp] theorem State.notePosted_ctxs (s : State) (det : Nat) : (s.notePosted det).ctxs = s.ctxs := rfl
@[simp] theorem State.notePosted_jobs (s : State) (det : Nat) : (s.notePosted det).jobs = s.jobs := rfl
@[simp] theorem State.notePosted_nextJob (s : State) (det : Nat) : (s.notePosted det).nextJob = s.nextJob := rfl
@[simp] theorem State.notePosted_ctxOps (s : State) (det : Nat) : (s.notePosted det).ctxOps = s.ctxOps := rfl
@[simp] theorem State.notePosted_tiers (s : State) (det : Nat) : (s.notePosted det).tiers = s.tiers := rfl
@[simp] theorem State.notePosted_sl (s : State) (det : Nat) : (s.notePosted det).sl = s.sl := rfl
@[simp] theorem State.notePosted_tab (s : State) (det : Nat) : (s.notePosted det).tab = s.tab := rfl
@[simp] theorem State.notePosted_fab (s : State) (det : Nat) : (s.notePosted det).fab = s.fab := rfl
@[simp] theorem State.notePosted_strm (s : State) (det : Nat) : (s.notePosted det).strm = s.strm := rfl
@[simp] theorem State.notePosted_fw (s : State) (det : Nat) : (s.notePosted det).fw = s.fw := rfl
@[simp] theorem State.notePosted_tap (s : State) (det : Nat) : (s.notePosted det).tap = s.tap := rfl

@[simp] theorem State.raise_pending (s : State) (r : Raise) : (s.raise r).pending = s.pending := by
  unfold State.raise; dsimp only; (repeat' split) <;> simp
@[simp] theorem State.raise_now (s : State) (r : Raise) : (s.raise r).now = s.now := by
  unfold State.raise; dsimp only; (repeat' split) <;> simp
@[simp] theorem State.raise_free (s : State) (r : Raise) : (s.raise r).free = s.free := by
  unfold State.raise; dsimp only; (repeat' split) <;> simp
@[simp] theorem State.raise_top (s : State) (r : Raise) : (s.raise r).top = s.top := by
  unfold State.raise; dsimp only; (repeat' split) <;> simp
@[simp] theorem State.raise_alloc (s : State) (r : Raise) : (s.raise r).alloc = s.alloc := by
  unfold State.raise; dsimp only; (repeat' split) <;> simp
@[simp] theorem State.raise_pow (s : State) (r : Raise) : (s.raise r).pow = s.pow := by
  unfold State.raise; dsimp only; (repeat' split) <;> simp
@[simp] theorem State.raise_cores (s : State) (r : Raise) : (s.raise r).cores = s.cores := by
  unfold State.raise; dsimp only; (repeat' split) <;> simp
@[simp] theorem State.raise_ctxs (s : State) (r : Raise) : (s.raise r).ctxs = s.ctxs := by
  unfold State.raise; dsimp only; (repeat' split) <;> simp
@[simp] theorem State.raise_jobs (s : State) (r : Raise) : (s.raise r).jobs = s.jobs := by
  unfold State.raise; dsimp only; (repeat' split) <;> simp
@[simp] theorem State.raise_nextJob (s : State) (r : Raise) : (s.raise r).nextJob = s.nextJob := by
  unfold State.raise; dsimp only; (repeat' split) <;> simp
@[simp] theorem State.raise_ctxOps (s : State) (r : Raise) : (s.raise r).ctxOps = s.ctxOps := by
  unfold State.raise; dsimp only; (repeat' split) <;> simp
@[simp] theorem State.raise_tiers (s : State) (r : Raise) : (s.raise r).tiers = s.tiers := by
  unfold State.raise; dsimp only; (repeat' split) <;> simp
@[simp] theorem State.raise_sl (s : State) (r : Raise) : (s.raise r).sl = s.sl := by
  unfold State.raise; dsimp only; (repeat' split) <;> simp
@[simp] theorem State.raise_tab (s : State) (r : Raise) : (s.raise r).tab = s.tab := by
  unfold State.raise; dsimp only; (repeat' split) <;> simp
@[simp] theorem State.raise_fab (s : State) (r : Raise) : (s.raise r).fab = s.fab := by
  unfold State.raise; dsimp only; (repeat' split) <;> simp
@[simp] theorem State.raise_strm (s : State) (r : Raise) : (s.raise r).strm = s.strm := by
  unfold State.raise; dsimp only; (repeat' split) <;> simp
@[simp] theorem State.raise_fw (s : State) (r : Raise) : (s.raise r).fw = s.fw := by
  unfold State.raise; dsimp only; (repeat' split) <;> simp
@[simp] theorem State.raise_tap (s : State) (r : Raise) : (s.raise r).tap = s.tap := by
  unfold State.raise; dsimp only; (repeat' split) <;> simp

@[simp] theorem State.setCause_pending (s : State) (b : Nat) (on : Bool) : (s.setCause b on).pending = s.pending := by
  unfold State.setCause; dsimp only; split <;> split <;> rfl
@[simp] theorem State.setCause_now (s : State) (b : Nat) (on : Bool) : (s.setCause b on).now = s.now := by
  unfold State.setCause; dsimp only; split <;> split <;> rfl
@[simp] theorem State.setCause_free (s : State) (b : Nat) (on : Bool) : (s.setCause b on).free = s.free := by
  unfold State.setCause; dsimp only; split <;> split <;> rfl
@[simp] theorem State.setCause_top (s : State) (b : Nat) (on : Bool) : (s.setCause b on).top = s.top := by
  unfold State.setCause; dsimp only; split <;> split <;> rfl
@[simp] theorem State.setCause_alloc (s : State) (b : Nat) (on : Bool) : (s.setCause b on).alloc = s.alloc := by
  unfold State.setCause; dsimp only; split <;> split <;> rfl
@[simp] theorem State.setCause_pow (s : State) (b : Nat) (on : Bool) : (s.setCause b on).pow = s.pow := by
  unfold State.setCause; dsimp only; split <;> split <;> rfl
@[simp] theorem State.setCause_blobs (s : State) (b : Nat) (on : Bool) : (s.setCause b on).blobs = s.blobs := by
  unfold State.setCause; dsimp only; split <;> split <;> rfl
@[simp] theorem State.setCause_mem (s : State) (b : Nat) (on : Bool) : (s.setCause b on).mem = s.mem := by
  unfold State.setCause; dsimp only; split <;> split <;> rfl
@[simp] theorem State.setCause_cores (s : State) (b : Nat) (on : Bool) : (s.setCause b on).cores = s.cores := by
  unfold State.setCause; dsimp only; split <;> split <;> rfl
@[simp] theorem State.setCause_ctxs (s : State) (b : Nat) (on : Bool) : (s.setCause b on).ctxs = s.ctxs := by
  unfold State.setCause; dsimp only; split <;> split <;> rfl
@[simp] theorem State.setCause_jobs (s : State) (b : Nat) (on : Bool) : (s.setCause b on).jobs = s.jobs := by
  unfold State.setCause; dsimp only; split <;> split <;> rfl
@[simp] theorem State.setCause_nextJob (s : State) (b : Nat) (on : Bool) : (s.setCause b on).nextJob = s.nextJob := by
  unfold State.setCause; dsimp only; split <;> split <;> rfl
@[simp] theorem State.setCause_ctxOps (s : State) (b : Nat) (on : Bool) : (s.setCause b on).ctxOps = s.ctxOps := by
  unfold State.setCause; dsimp only; split <;> split <;> rfl
@[simp] theorem State.setCause_tiers (s : State) (b : Nat) (on : Bool) : (s.setCause b on).tiers = s.tiers := by
  unfold State.setCause; dsimp only; split <;> split <;> rfl
@[simp] theorem State.setCause_sl (s : State) (b : Nat) (on : Bool) : (s.setCause b on).sl = s.sl := by
  unfold State.setCause; dsimp only; split <;> split <;> rfl
@[simp] theorem State.setCause_tab (s : State) (b : Nat) (on : Bool) : (s.setCause b on).tab = s.tab := by
  unfold State.setCause; dsimp only; split <;> split <;> rfl
@[simp] theorem State.setCause_fab (s : State) (b : Nat) (on : Bool) : (s.setCause b on).fab = s.fab := by
  unfold State.setCause; dsimp only; split <;> split <;> rfl
@[simp] theorem State.setCause_strm (s : State) (b : Nat) (on : Bool) : (s.setCause b on).strm = s.strm := by
  unfold State.setCause; dsimp only; split <;> split <;> rfl
@[simp] theorem State.setCause_host (s : State) (b : Nat) (on : Bool) : (s.setCause b on).host = s.host := by
  unfold State.setCause; dsimp only; split <;> split <;> rfl
@[simp] theorem State.setCause_mgmt (s : State) (b : Nat) (on : Bool) : (s.setCause b on).mgmt = s.mgmt := by
  unfold State.setCause; dsimp only; split <;> split <;> rfl
@[simp] theorem State.setCause_av (s : State) (b : Nat) (on : Bool) : (s.setCause b on).av = s.av := by
  unfold State.setCause; dsimp only; split <;> split <;> rfl
@[simp] theorem State.setCause_fw (s : State) (b : Nat) (on : Bool) : (s.setCause b on).fw = s.fw := by
  unfold State.setCause; dsimp only; split <;> split <;> rfl
@[simp] theorem State.setCause_tap (s : State) (b : Nat) (on : Bool) : (s.setCause b on).tap = s.tap := by
  unfold State.setCause; dsimp only; split <;> split <;> rfl

end Sys2Proof.Machine
end

