-- ==== Sys2Proof/Laws/Keeps.lean ====
section
/-! SUPPORT. What every operation of the model keeps: the queue of commands, and the safety of the state. Each operation gets
one lemma, in the form in which it is applied to the operation's place in a longer body. -/

set_option Elab.async false

namespace Sys2Proof.Machine

/-- READY or SERVING. -/
def DevState.up (a : DevState) : Prop := a = .ready ∨ a = .serving

/-- The device state stands, or moves between READY and SERVING. -/
def DevState.keeps (a b : DevState) : Prop := b = a ∨ a.up ∧ b.up

theorem DevState.keeps_trans {a b c : DevState} (h : a.keeps b) (g : b.keeps c) : a.keeps c := by
  unfold DevState.keeps at *
  rcases g with rfl | ⟨hb, hc⟩
  · exact h
  · rcases h with rfl | ⟨ha, _⟩
    · exact .inr ⟨hb, hc⟩
    · exact .inr ⟨ha, hc⟩

theorem DevState.goes_of_keeps {a b : DevState} (h : a.keeps b) : a.goes b = true := by
  unfold DevState.keeps DevState.up at h
  rcases h with rfl | ⟨ha, hb⟩
  · cases b <;> rfl
  · rcases ha with rfl | rfl <;> rcases hb with rfl | rfl <;> rfl

theorem DevState.goes_refl (a : DevState) : a.goes a = true := goes_of_keeps (.inl rfl)

theorem DevState.goes_reset (a : DevState) : a.goes .reset = true := by cases a <;> rfl

/-- Number of a field. -/
def Field.idx : Field → Nat
  | .now => 1
  | .free => 2
  | .top => 3
  | .alloc => 4
  | .pow => 5
  | .regs => 6
  | .blobs => 7
  | .mem => 8
  | .cores => 9
  | .ctxs => 10
  | .jobs => 11
  | .nextJob => 12
  | .ctxOps => 13
  | .tiers => 14
  | .sl => 15
  | .tab => 16
  | .fab => 17
  | .strm => 18
  | .host => 19
  | .mgmt => 20
  | .av => 21
  | .fw => 22
  | .tap => 23

/-- A set of fields, as a mask, lies in another. -/
def Sub (a b : Nat) : Prop := ∀ i, a.testBit i = true → b.testBit i = true

theorem Sub.refl (a : Nat) : Sub a a := fun _ h => h

theorem Sub.of {a b m : Nat} (h : Sub b m) (e : (a &&& b == a) = true) : Sub a m := by
  intro i hi
  have e := eq_of_beq e
  rw [← e, Nat.testBit_and, Bool.and_eq_true] at hi
  exact h i hi.2

theorem Sub.bit {b m : Nat} (h : Sub b m) {i : Nat} (e : b.testBit i = true) : m.testBit i = true := h i e

/-- t agrees with r in every field that a mask does not hold. -/
def Frame (m : Nat) (r t : State) : Prop := ∀ f : Field, m.testBit f.idx = false → r.agree t f

theorem Frame.refl (m : Nat) (s : State) : Frame m s s := fun f _ => by cases f <;> exact rfl

theorem Frame.trans {m : Nat} {r s t : State} (h : Frame m r s) (g : Frame m s t) : Frame m r t := by
  intro f hf
  have a := h f hf
  have b := g f hf
  cases f <;> exact Eq.trans b a

theorem Frame.mono {a b : Nat} {r t : State} (h : Frame a r t) (hs : Sub a b) : Frame b r t := by
  intro f hf
  refine h f ?_
  cases e : a.testBit f.idx with
  | false => rfl
  | true => rw [hs _ e] at hf; cases hf

theorem Frame.full (r t : State) : Frame 16777215 r t := fun f hf => by cases f <;> cases hf

theorem Frame.top {m : Nat} (s : State) (top : Top) (ht : m.testBit 3 = true := by exact Sub.bit (by assumption) (by decide)) :
    Frame m s { s with top := top } := fun f hf => by
  cases f with
  | top => rw [show m.testBit 3 = false from hf] at ht; cases ht
  | _ => rfl

/-- The new value of a field is the old one, or the mask holds the field. -/
def Held {α : Type} (m i : Nat) (new old : α) : Prop := m.testBit i = true ∨ new = old

theorem Held.same {α : Type} {m i : Nat} {x : α} : Held m i x x := .inr rfl

theorem Held.bit {α : Type} {b m i : Nat} {x y : α} (h : Sub b m) (e : b.testBit i = true) : Held m i x y := .inl (h i e)

theorem Held.eq {α : Type} {m i : Nat} {x y : α} (h : Held m i x y) (e : m.testBit i = false) : x = y := by
  rcases h with h | h
  · rw [e] at h; cases h
  · exact h

/-- What every command's next state t owes to s: the queue stands, a safe state stays safe, and the device state changes only
as Table 2 of 15 gives, and the fields that the mask does not hold stand. -/
structure StepSafe (m : Nat) (s t : State) : Prop where
  pending : t.pending = s.pending
  safe : s.Safe → t.Safe
  dev : s.top.dev.goes t.top.dev = true
  frame : Frame m s t

/-- From r to t the queue and the reset pins stand, the device state does as DevState.keeps says, and each part of a safe
state that held of r holds of t. -/
structure Keeps (m : Nat) (r t : State) : Prop where intro ::
  pending : t.pending = r.pending
  memory : Memory.wf r.mem = true → Memory.wf t.mem = true
  regs : Regs.wf r.regs = true → Regs.wf t.regs = true
  alloc : r.alloc.balanced → t.alloc.balanced
  top : r.top.safe → t.top.safe
  power : t.top.pwrGood = r.top.pwrGood
  pin : t.top.sysResetN = r.top.sysResetN
  dev : r.top.dev.keeps t.top.dev
  frame : Frame m r t

/-- The same of every state that an answer holds. -/
def KeepsP {α : Type} (m : Nat) (r : State) (p : State × α) : Prop := Keeps m r p.1

structure KeepsO (m : Nat) (r : State) (o : Option State) : Prop where intro ::
  some : ∀ t, o = some t → Keeps m r t

structure KeepsX (m : Nat) (r : State) (o : Host.Outcome State Fault Refusal) : Prop where intro ::
  next : ∀ t, o = .next t → Keeps m r t

structure KeepsE (m : Nat) (r : State) (o : Except Fault State) : Prop where intro ::
  ok : ∀ t, o = .ok t → Keeps m r t

structure KeepsI (m : Nat) (r : State) (o : Issue) : Prop where intro ::
  aborted : ∀ t, o = .aborted t → Keeps m r t
  go : ∀ t x d, o = .go t x d → Keeps m r t

structure KeepsG (m : Nat) (r : State) (g : GtuIssue) : Prop where intro ::
  stop : ∀ t, g = .stop t → Keeps m r t
  go : ∀ t x d, g = .go t x d → Keeps m r t

structure KeepsC (m : Nat) (r : State) (o : Check) : Prop where intro ::
  goOn : ∀ t l, o = .goOn t l → Keeps m r t
  widen : ∀ t, o = .widen t → Keeps m r t
  wait : ∀ t, o = .wait t → Keeps m r t

namespace Keeps

variable {m : Nat} {r s t : State}

theorem refl (s : State) : Keeps m s s := ⟨rfl, id, id, id, id, rfl, rfl, .inl rfl, Frame.refl m s⟩

theorem trans (h : Keeps m r s) (g : Keeps m s t) : Keeps m r t :=
  ⟨g.pending.trans h.pending, fun x => g.memory (h.memory x), fun x => g.regs (h.regs x), fun x => g.alloc (h.alloc x),
    fun x => g.top (h.top x), g.power.trans h.power, g.pin.trans h.pin, DevState.keeps_trans h.dev g.dev, h.frame.trans g.frame⟩

theorem safe (h : Keeps m r t) (hr : r.Safe) : t.Safe := ⟨h.memory hr.memory, h.regs hr.regs, h.alloc hr.alloc, h.top hr.top⟩

theorem stepSafe (h : Keeps m s t) : StepSafe m s t := ⟨h.pending, h.safe, DevState.goes_of_keeps h.dev, h.frame⟩

/-- An update of the fields that no part of safety looks at. -/
theorem update (h : Keeps m r s) {now free pow blobs cores ctxs jobs nextJob ctxOps tiers sl tab fab strm host mgmt av fw tap}
    (e1 : Held m 1 now s.now := by first | exact Held.bit (by assumption) (by decide) | exact Held.same)
    (e2 : Held m 2 free s.free := by first | exact Held.bit (by assumption) (by decide) | exact Held.same)
    (e5 : Held m 5 pow s.pow := by first | exact Held.bit (by assumption) (by decide) | exact Held.same)
    (e7 : Held m 7 blobs s.blobs := by first | exact Held.bit (by assumption) (by decide) | exact Held.same)
    (e9 : Held m 9 cores s.cores := by first | exact Held.bit (by assumption) (by decide) | exact Held.same)
    (e10 : Held m 10 ctxs s.ctxs := by first | exact Held.bit (by assumption) (by decide) | exact Held.same)
    (e11 : Held m 11 jobs s.jobs := by first | exact Held.bit (by assumption) (by decide) | exact Held.same)
    (e12 : Held m 12 nextJob s.nextJob := by first | exact Held.bit (by assumption) (by decide) | exact Held.same)
    (e13 : Held m 13 ctxOps s.ctxOps := by first | exact Held.bit (by assumption) (by decide) | exact Held.same)
    (e14 : Held m 14 tiers s.tiers := by first | exact Held.bit (by assumption) (by decide) | exact Held.same)
    (e15 : Held m 15 sl s.sl := by first | exact Held.bit (by assumption) (by decide) | exact Held.same)
    (e16 : Held m 16 tab s.tab := by first | exact Held.bit (by assumption) (by decide) | exact Held.same)
    (e17 : Held m 17 fab s.fab := by first | exact Held.bit (by assumption) (by decide) | exact Held.same)
    (e18 : Held m 18 strm s.strm := by first | exact Held.bit (by assumption) (by decide) | exact Held.same)
    (e19 : Held m 19 host s.host := by first | exact Held.bit (by assumption) (by decide) | exact Held.same)
    (e20 : Held m 20 mgmt s.mgmt := by first | exact Held.bit (by assumption) (by decide) | exact Held.same)
    (e21 : Held m 21 av s.av := by first | exact Held.bit (by assumption) (by decide) | exact Held.same)
    (e22 : Held m 22 fw s.fw := by first | exact Held.bit (by assumption) (by decide) | exact Held.same)
    (e23 : Held m 23 tap s.tap := by first | exact Held.bit (by assumption) (by decide) | exact Held.same) :
    Keeps m r (State.mk s.pending now free s.top s.alloc pow s.regs blobs s.mem cores ctxs jobs nextJob ctxOps tiers sl tab fab strm
      host mgmt av fw tap) := by
  refine ⟨h.pending, h.memory, h.regs, h.alloc, h.top, h.power, h.pin, h.dev, fun f hf => ?_⟩
  have g := h.frame f hf
  cases f
  · exact (Held.eq e1 hf).trans g
  · exact (Held.eq e2 hf).trans g
  · exact g
  · exact g
  · exact (Held.eq e5 hf).trans g
  · exact g
  · exact (Held.eq e7 hf).trans g
  · exact g
  · exact (Held.eq e9 hf).trans g
  · exact (Held.eq e10 hf).trans g
  · exact (Held.eq e11 hf).trans g
  · exact (Held.eq e12 hf).trans g
  · exact (Held.eq e13 hf).trans g
  · exact (Held.eq e14 hf).trans g
  · exact (Held.eq e15 hf).trans g
  · exact (Held.eq e16 hf).trans g
  · exact (Held.eq e17 hf).trans g
  · exact (Held.eq e18 hf).trans g
  · exact (Held.eq e19 hf).trans g
  · exact (Held.eq e20 hf).trans g
  · exact (Held.eq e21 hf).trans g
  · exact (Held.eq e22 hf).trans g
  · exact (Held.eq e23 hf).trans g

/-- An update of the pins and the bring-up progress that leaves the device state and the reset pins. -/
theorem updateTop (h : Keeps m r s) {top : Top} {now free pow blobs cores ctxs jobs nextJob ctxOps tiers sl tab fab strm host mgmt av fw tap}
    (e1 : Held m 1 now s.now := by first | exact Held.bit (by assumption) (by decide) | exact Held.same)
    (e2 : Held m 2 free s.free := by first | exact Held.bit (by assumption) (by decide) | exact Held.same)
    (e5 : Held m 5 pow s.pow := by first | exact Held.bit (by assumption) (by decide) | exact Held.same)
    (e7 : Held m 7 blobs s.blobs := by first | exact Held.bit (by assumption) (by decide) | exact Held.same)
    (e9 : Held m 9 cores s.cores := by first | exact Held.bit (by assumption) (by decide) | exact Held.same)
    (e10 : Held m 10 ctxs s.ctxs := by first | exact Held.bit (by assumption) (by decide) | exact Held.same)
    (e11 : Held m 11 jobs s.jobs := by first | exact Held.bit (by assumption) (by decide) | exact Held.same)
    (e12 : Held m 12 nextJob s.nextJob := by first | exact Held.bit (by assumption) (by decide) | exact Held.same)
    (e13 : Held m 13 ctxOps s.ctxOps := by first | exact Held.bit (by assumption) (by decide) | exact Held.same)
    (e14 : Held m 14 tiers s.tiers := by first | exact Held.bit (by assumption) (by decide) | exact Held.same)
    (e15 : Held m 15 sl s.sl := by first | exact Held.bit (by assumption) (by decide) | exact Held.same)
    (e16 : Held m 16 tab s.tab := by first | exact Held.bit (by assumption) (by decide) | exact Held.same)
    (e17 : Held m 17 fab s.fab := by first | exact Held.bit (by assumption) (by decide) | exact Held.same)
    (e18 : Held m 18 strm s.strm := by first | exact Held.bit (by assumption) (by decide) | exact Held.same)
    (e19 : Held m 19 host s.host := by first | exact Held.bit (by assumption) (by decide) | exact Held.same)
    (e20 : Held m 20 mgmt s.mgmt := by first | exact Held.bit (by assumption) (by decide) | exact Held.same)
    (e21 : Held m 21 av s.av := by first | exact Held.bit (by assumption) (by decide) | exact Held.same)
    (e22 : Held m 22 fw s.fw := by first | exact Held.bit (by assumption) (by decide) | exact Held.same)
    (e23 : Held m 23 tap s.tap := by first | exact Held.bit (by assumption) (by decide) | exact Held.same)
    (hd : top.dev = s.top.dev := by rfl) (hp : top.pwrGood = s.top.pwrGood := by rfl)
    (hn : top.sysResetN = s.top.sysResetN := by rfl) (hc : top.resetDone = s.top.resetDone := by rfl)
    (ht : m.testBit 3 = true := by exact Sub.bit (by assumption) (by decide)) :
    Keeps m r (State.mk s.pending now free top s.alloc pow s.regs blobs s.mem cores ctxs jobs nextJob ctxOps tiers sl tab fab strm
      host mgmt av fw tap) := by
  refine ⟨h.pending, h.memory, h.regs, h.alloc, fun x => by simpa [Top.safe, hd, hp, hn, hc] using h.top x, hp.trans h.power,
    hn.trans h.pin, hd ▸ h.dev, fun f hf => ?_⟩
  have g := h.frame f hf
  cases f
  · exact (Held.eq e1 hf).trans g
  · exact (Held.eq e2 hf).trans g
  · exact (by rw [show m.testBit 3 = false from hf] at ht; cases ht)
  · exact g
  · exact (Held.eq e5 hf).trans g
  · exact g
  · exact (Held.eq e7 hf).trans g
  · exact g
  · exact (Held.eq e9 hf).trans g
  · exact (Held.eq e10 hf).trans g
  · exact (Held.eq e11 hf).trans g
  · exact (Held.eq e12 hf).trans g
  · exact (Held.eq e13 hf).trans g
  · exact (Held.eq e14 hf).trans g
  · exact (Held.eq e15 hf).trans g
  · exact (Held.eq e16 hf).trans g
  · exact (Held.eq e17 hf).trans g
  · exact (Held.eq e18 hf).trans g
  · exact (Held.eq e19 hf).trans g
  · exact (Held.eq e20 hf).trans g
  · exact (Held.eq e21 hf).trans g
  · exact (Held.eq e22 hf).trans g
  · exact (Held.eq e23 hf).trans g

/-- An update of the memory by an operation that keeps its form. -/
theorem updateMem (h : Keeps m r s) {mem} (hm : Memory.wf s.mem = true → Memory.wf mem = true)
    (hb : m.testBit 8 = true := by exact Sub.bit (by assumption) (by decide)) :
    Keeps m r { s with mem := mem } := by
  refine ⟨h.pending, fun x => hm (h.memory x), h.regs, h.alloc, h.top, h.power, h.pin, h.dev, fun f hf => ?_⟩
  have g := h.frame f hf
  cases f
  · exact g
  · exact g
  · exact g
  · exact g
  · exact g
  · exact g
  · exact g
  · exact (by rw [show m.testBit 8 = false from hf] at hb; cases hb)
  · exact g
  · exact g
  · exact g
  · exact g
  · exact g
  · exact g
  · exact g
  · exact g
  · exact g
  · exact g
  · exact g
  · exact g
  · exact g
  · exact g
  · exact g

/-- An update of the scalar entries by an operation that keeps their form. -/
theorem updateRegs (h : Keeps m r s) {regs} (hm : Regs.wf s.regs = true → Regs.wf regs = true)
    (hb : m.testBit 6 = true := by exact Sub.bit (by assumption) (by decide)) :
    Keeps m r { s with regs := regs } := by
  refine ⟨h.pending, h.memory, fun x => hm (h.regs x), h.alloc, h.top, h.power, h.pin, h.dev, fun f hf => ?_⟩
  have g := h.frame f hf
  cases f
  · exact g
  · exact g
  · exact g
  · exact g
  · exact g
  · exact (by rw [show m.testBit 6 = false from hf] at hb; cases hb)
  · exact g
  · exact g
  · exact g
  · exact g
  · exact g
  · exact g
  · exact g
  · exact g
  · exact g
  · exact g
  · exact g
  · exact g
  · exact g
  · exact g
  · exact g
  · exact g
  · exact g

/-- An update of the division of the budget. -/
theorem updateAlloc (h : Keeps m r s) {alloc : Alloc} (hm : s.alloc.balanced → alloc.balanced)
    (hb : m.testBit 4 = true := by exact Sub.bit (by assumption) (by decide)) :
    Keeps m r { s with alloc := alloc } := by
  refine ⟨h.pending, h.memory, h.regs, fun x => hm (h.alloc x), h.top, h.power, h.pin, h.dev, fun f hf => ?_⟩
  have g := h.frame f hf
  cases f
  · exact g
  · exact g
  · exact g
  · exact (by rw [show m.testBit 4 = false from hf] at hb; cases hb)
  · exact g
  · exact g
  · exact g
  · exact g
  · exact g
  · exact g
  · exact g
  · exact g
  · exact g
  · exact g
  · exact g
  · exact g
  · exact g
  · exact g
  · exact g
  · exact g
  · exact g
  · exact g
  · exact g

theorem foldl {α : Type} {f : State → α → State} (h : Keeps m r s) (l : List α)
    (hf : ∀ (x : State) (a : α), Keeps m r x → Keeps m r (f x a)) : Keeps m r (l.foldl f s) := by
  induction l generalizing s with
  | nil => exact h
  | cons a l ih => exact ih (hf s a h)

theorem foldlP {α β : Type} {f : State × β → α → State × β} {p : State × β} (h : KeepsP m r p) (l : List α)
    (hf : ∀ (x : State × β) (a : α), KeepsP m r x → KeepsP m r (f x a)) : KeepsP m r (l.foldl f p) := by
  induction l generalizing p with
  | nil => exact h
  | cons a l ih => exact ih (hf p a h)

theorem pair {β : Type} {b : β} (h : Keeps m r s) : KeepsP m r (s, b) := h

theorem fst {β : Type} {p : State × β} (h : KeepsP m r p) : Keeps m r p.1 := h

theorem ofPair {β : Type} {p : State × β} {b : β} (e : p = (t, b)) (h : KeepsP m r p) : Keeps m r t := by
  subst e; exact h

theorem ofSome {o : Option State} (e : o = some t) (h : KeepsO m r o) : Keeps m r t := h.some t e

theorem ofOk {o : Except Fault State} (e : o = .ok t) (h : KeepsE m r o) : Keeps m r t := h.ok t e

theorem ofNext {o : Host.Outcome State Fault Refusal} (e : o = .next t) (h : KeepsX m r o) : Keeps m r t := h.next t e

theorem some (h : Keeps m r s) : KeepsO m r (some s) := ⟨fun _ e => Option.some.inj e ▸ h⟩

theorem none : KeepsO m r none := ⟨fun _ e => nomatch e⟩

theorem next (h : Keeps m r s) : KeepsX m r (.next s) := ⟨fun _ e => Host.Outcome.next.inj e ▸ h⟩

theorem fault {f : Fault} : KeepsX m r (.fault f) := ⟨fun _ e => nomatch e⟩

theorem refused {f : Refusal} : KeepsX m r (.refused f) := ⟨fun _ e => nomatch e⟩

theorem ok (h : Keeps m r s) : KeepsE m r (.ok s) := ⟨fun _ e => Except.ok.inj e ▸ h⟩

theorem error {f : Fault} : KeepsE m r (.error f) := ⟨fun _ e => nomatch e⟩

theorem idle : KeepsI m r .idle := ⟨fun _ e => (nomatch e), fun _ _ _ e => nomatch e⟩

theorem aborted (h : Keeps m r s) : KeepsI m r (.aborted s) := ⟨fun _ e => (Issue.aborted.inj e ▸ h), fun _ _ _ e => nomatch e⟩

theorem go {x : Ctx} {d : Nat} (h : Keeps m r s) : KeepsI m r (.go s x d) :=
  ⟨fun _ e => (nomatch e), fun _ _ _ e => (Issue.go.inj e).1 ▸ h⟩

theorem ofAborted {o : Issue} (e : o = .aborted t) (h : KeepsI m r o) : Keeps m r t := h.aborted t e

theorem ofGo {o : Issue} {x : Ctx} {d : Nat} (e : o = .go t x d) (h : KeepsI m r o) : Keeps m r t := h.go t x d e

theorem stop (h : Keeps m r s) : KeepsG m r (.stop s) :=
  ⟨fun _ e => GtuIssue.stop.inj e ▸ h, fun _ _ _ e => nomatch e⟩

theorem gtuGo {x : Ctx} {d : Nat} (h : Keeps m r s) : KeepsG m r (.go s x d) :=
  ⟨fun _ e => (nomatch e), fun _ _ _ e => (GtuIssue.go.inj e).1 ▸ h⟩

theorem ofStop {o : GtuIssue} (e : o = .stop t) (h : KeepsG m r o) : Keeps m r t := h.stop t e

theorem ofGtuGo {o : GtuIssue} {x : Ctx} {d : Nat} (e : o = .go t x d) (h : KeepsG m r o) : Keeps m r t := h.go t x d e

theorem goOn {l : List Nat} (h : Keeps m r s) : KeepsC m r (.goOn s l) :=
  ⟨fun _ _ e => (Check.goOn.inj e).1 ▸ h, fun _ e => (nomatch e), fun _ e => nomatch e⟩

theorem widen (h : Keeps m r s) : KeepsC m r (.widen s) :=
  ⟨fun _ _ e => (nomatch e), fun _ e => Check.widen.inj e ▸ h, fun _ e => nomatch e⟩

theorem wait (h : Keeps m r s) : KeepsC m r (.wait s) :=
  ⟨fun _ _ e => (nomatch e), fun _ e => (nomatch e), fun _ e => Check.wait.inj e ▸ h⟩

theorem bad : KeepsC m r .bad := ⟨fun _ _ e => (nomatch e), fun _ e => (nomatch e), fun _ e => nomatch e⟩

theorem ofGoOn {o : Check} {l : List Nat} (e : o = .goOn t l) (h : KeepsC m r o) : Keeps m r t := h.goOn t l e

theorem ofWait {o : Check} (e : o = .wait t) (h : KeepsC m r o) : Keeps m r t := h.wait t e

theorem ofWiden {o : Check} (e : o = .widen t) (h : KeepsC m r o) : Keeps m r t := h.widen t e

theorem getD {o : Option State} (h : KeepsO m r o) (g : Keeps m r s) : Keeps m r (o.getD s) := by
  cases o with
  | none => exact g
  | some t => exact h.some t rfl

end Keeps

end Sys2Proof.Machine
end

