-- ==== Sys2Proof/Laws/Keeps/Ops.lean ====
section
/-! SUPPORT. What the operations of Machine/Ops.lean keep. -/

set_option Elab.async false

namespace Sys2Proof.Machine

theorem Keeps.setReg {fm : Nat} {r s : State} (h : Keeps fm r s)
    (hm : Sub 64 fm := by exact Sub.of (by assumption) (by decide)) {idx sub v} : Keeps fm r (State.setReg s idx sub v) :=
  h.updateRegs fun x => Regs.wf_set x _ _

theorem Keeps.setAreg {fm : Nat} {r s : State} (h : Keeps fm r s)
    (hm : Sub 64 fm := by exact Sub.of (by assumption) (by decide)) {acc idx sub v} : Keeps fm r (State.setAreg s acc idx sub v) :=
  h.updateRegs fun x => regBits_akey acc idx sub ▸ Regs.wf_set x (akey acc idx sub) v

theorem Keeps.bump {fm : Nat} {r s : State} (h : Keeps fm r s)
    (hm : Sub 64 fm := by exact Sub.of (by assumption) (by decide)) {idx sub n} : Keeps fm r (State.bump s idx sub n) := by
  unfold State.bump
  exact Keeps.setReg h

theorem Keeps.regMax {fm : Nat} {r s : State} (h : Keeps fm r s)
    (hm : Sub 64 fm := by exact Sub.of (by assumption) (by decide)) {idx sub v} : Keeps fm r (State.regMax s idx sub v) := by
  unfold State.regMax
  split
  · exact Keeps.setReg h
  · exact h

theorem Keeps.setBlob {fm : Nat} {r s : State} (h : Keeps fm r s)
    (hm : Sub 128 fm := by exact Sub.of (by assumption) (by decide)) {idx sub v} :
    Keeps fm r (State.setBlob s idx sub v) := by
  unfold State.setBlob
  exact Keeps.update h

theorem Keeps.setBlobBit {fm : Nat} {r s : State} (h : Keeps fm r s)
    (hm : Sub 128 fm := by exact Sub.of (by assumption) (by decide)) {idx sub w b} :
    Keeps fm r (State.setBlobBit s idx sub w b) := by
  unfold State.setBlobBit
  exact Keeps.setBlob h

theorem Keeps.setByte {fm : Nat} {r s : State} (h : Keeps fm r s)
    (hm : Sub 256 fm := by exact Sub.of (by assumption) (by decide)) {a v} : Keeps fm r (State.setByte s a v) :=
  h.updateMem fun x => SMap.wf_set x a v

theorem Keeps.putBytesAt {fm : Nat} {r s : State} (h : Keeps fm r s)
    (hm : Sub 256 fm := by exact Sub.of (by assumption) (by decide)) {a bs} : Keeps fm r (State.putBytesAt s a bs) :=
  h.updateMem fun x => Memory.wf_put x a bs

theorem Keeps.putRowAt {fm : Nat} {r s : State} (h : Keeps fm r s)
    (hm : Sub 256 fm := by exact Sub.of (by assumption) (by decide)) {a r'} : Keeps fm r (State.putRowAt s a r') := by
  unfold State.putRowAt
  exact Keeps.putBytesAt h

theorem Keeps.setCore {fm : Nat} {r s : State} (h : Keeps fm r s)
    (hm : Sub 512 fm := by exact Sub.of (by assumption) (by decide)) {p c} : Keeps fm r (State.setCore s p c) := by
  unfold State.setCore
  exact Keeps.update h

theorem Keeps.modCore {fm : Nat} {r s : State} (h : Keeps fm r s)
    (hm : Sub 512 fm := by exact Sub.of (by assumption) (by decide)) {p f} : Keeps fm r (State.modCore s p f) := by
  unfold State.modCore
  exact Keeps.setCore h

theorem Keeps.modCsq {fm : Nat} {r s : State} (h : Keeps fm r s)
    (hm : Sub 512 fm := by exact Sub.of (by assumption) (by decide)) {p f} : Keeps fm r (State.modCsq s p f) := by
  unfold State.modCsq
  exact Keeps.modCore h

theorem Keeps.setCtx {fm : Nat} {r s : State} (h : Keeps fm r s)
    (hm : Sub 1024 fm := by exact Sub.of (by assumption) (by decide)) {x c} : Keeps fm r (State.setCtx s x c) := by
  unfold State.setCtx
  exact Keeps.update h

theorem Keeps.modCtx {fm : Nat} {r s : State} (h : Keeps fm r s)
    (hm : Sub 1024 fm := by exact Sub.of (by assumption) (by decide)) {x f} : Keeps fm r (State.modCtx s x f) := by
  unfold State.modCtx
  exact Keeps.setCtx h

theorem Keeps.modJob {fm : Nat} {r s : State} (h : Keeps fm r s)
    (hm : Sub 2048 fm := by exact Sub.of (by assumption) (by decide)) {j f} : Keeps fm r (State.modJob s j f) := by
  unfold State.modJob
  exact Keeps.update h

theorem Keeps.setGov {fm : Nat} {r s : State} (h : Keeps fm r s)
    (hm : Sub 32 fm := by exact Sub.of (by assumption) (by decide)) {d g} : Keeps fm r (State.setGov s d g) := by
  unfold State.setGov
  exact Keeps.update h

theorem Keeps.askPermit {fm : Nat} {r s : State} (h : Keeps fm r s)
    (hm : Sub 32 fm := by exact Sub.of (by assumption) (by decide)) {p} : Keeps fm r (State.askPermit s p) := by
  unfold State.askPermit
  dsimp only
  split
  · exact h
  · split
    · exact Keeps.setGov h
    · exact Keeps.setGov h

theorem Keeps.returnPermit {fm : Nat} {r s : State} (h : Keeps fm r s)
    (hm : Sub 32 fm := by exact Sub.of (by assumption) (by decide)) {p} : Keeps fm r (State.returnPermit s p) := by
  unfold State.returnPermit
  dsimp only
  split
  · exact Keeps.setGov h
  · split
    · exact Keeps.setGov h
    · exact h

theorem Keeps.signal {fm : Nat} {r s : State} (h : Keeps fm r s)
    (hm : Sub 524288 fm := by exact Sub.of (by assumption) (by decide)) {fn vec} : Keeps fm r (State.signal s fn vec) := by
  unfold State.signal
  dsimp only
  split
  · exact Keeps.update h
  · exact Keeps.update h

theorem Keeps.sendPending {fm : Nat} {r s : State} (h : Keeps fm r s)
    (hm : Sub 524288 fm := by exact Sub.of (by assumption) (by decide)) {fn} :
    Keeps fm r (Sys2Proof.Machine.State.sendPending s fn) := by
  unfold Sys2Proof.Machine.State.sendPending
  dsimp only
  refine Keeps.foldl h _ ?_
  intro x0 a0 h0
  split
  · exact Keeps.signal (Keeps.update h0)
  · exact h0

theorem Keeps.signalVec {fm : Nat} {r s : State} (h : Keeps fm r s)
    (hm : Sub 524292 fm := by exact Sub.of (by assumption) (by decide)) {fn vec} :
    Keeps fm r (Sys2Proof.Machine.State.signalVec s fn vec) := by
  unfold Sys2Proof.Machine.State.signalVec
  dsimp only
  split
  · exact Keeps.signal h
  · split
    · exact Keeps.update h
    · exact Keeps.signal (Keeps.update h)

theorem Keeps.putFor {fm : Nat} {r s : State} (h : Keeps fm r s)
    (hm : Sub 320 fm := by exact Sub.of (by assumption) (by decide)) {fn a bs} :
    Keeps fm r (State.putFor s fn a bs) := by
  unfold State.putFor
  split
  · exact Keeps.putBytesAt h
  · exact Keeps.bump h

theorem Keeps.putEvent {fm : Nat} {r s : State} (h : Keeps fm r s)
    (hm : Sub 524608 fm := by exact Sub.of (by assumption) (by decide)) {fn y3} :
    Keeps fm r (Sys2Proof.Machine.State.putEvent s fn y3) := by
  unfold Sys2Proof.Machine.State.putEvent
  dsimp only
  split
  · exact Keeps.bump h
  · exact Keeps.signal (Keeps.bump (Keeps.putFor (Keeps.update (Keeps.putFor h))))

theorem Keeps.postEvent {fm : Nat} {r s : State} (h : Keeps fm r s)
    (hm : Sub 524608 fm := by exact Sub.of (by assumption) (by decide)) {fn r'} : Keeps fm r (State.postEvent s fn r') := by
  unfold State.postEvent
  dsimp only
  split
  · exact Keeps.update h
  · exact Keeps.putEvent h

theorem Keeps.toManagement {fm : Nat} {r s : State} (h : Keeps fm r s)
    (hm : Sub 1048576 fm := by exact Sub.of (by assumption) (by decide)) {sev r'} :
    Keeps fm r (State.toManagement s sev r') := by
  unfold State.toManagement
  dsimp only
  split
  · exact Keeps.update h
  · exact h

theorem Keeps.postRecord {fm : Nat} {r s : State} (h : Keeps fm r s)
    (hm : Sub 1573184 fm := by exact Sub.of (by assumption) (by decide)) {r' ev} :
    Keeps fm r (State.postRecord s r' ev) := by
  unfold State.postRecord
  dsimp only
  split
  · exact Keeps.postEvent (Keeps.postEvent (Keeps.toManagement h))
  · exact Keeps.postEvent (Keeps.toManagement h)

theorem Keeps.holdRecord {fm : Nat} {r s : State} (h : Keeps fm r s)
    (hm : Sub 2097152 fm := by exact Sub.of (by assumption) (by decide)) {y0 ev} :
    Keeps fm r (Sys2Proof.Machine.State.holdRecord s y0 ev) := by
  unfold Sys2Proof.Machine.State.holdRecord
  dsimp only
  exact Keeps.update h

theorem Keeps.notePosted {fm : Nat} {r s : State} (h : Keeps fm r s)
    (hm : Sub 2097152 fm := by exact Sub.of (by assumption) (by decide)) {det} :
    Keeps fm r (Sys2Proof.Machine.State.notePosted s det) := by
  unfold Sys2Proof.Machine.State.notePosted
  dsimp only
  exact Keeps.update h

theorem Keeps.raise {fm : Nat} {r s : State} (h : Keeps fm r s)
    (hm : Sub 3670464 fm := by exact Sub.of (by assumption) (by decide)) {r'} : Keeps fm r (State.raise s r') := by
  unfold State.raise
  dsimp only
  split
  · split
    · split
      · exact Keeps.holdRecord (Keeps.setReg (Keeps.setBlob (Keeps.bump h)))
      · exact Keeps.toManagement (Keeps.holdRecord (Keeps.setReg (Keeps.setBlob (Keeps.bump h))))
    · split
      · exact Keeps.setReg (Keeps.setBlob (Keeps.bump h))
      · exact Keeps.notePosted (Keeps.postRecord (Keeps.setReg (Keeps.setBlob (Keeps.bump h))))
  · split
    · split
      · exact Keeps.holdRecord (Keeps.setBlob (Keeps.bump h))
      · exact Keeps.toManagement (Keeps.holdRecord (Keeps.setBlob (Keeps.bump h)))
    · split
      · exact Keeps.setBlob (Keeps.bump h)
      · exact Keeps.notePosted (Keeps.postRecord (Keeps.setBlob (Keeps.bump h)))

theorem Keeps.consume {fm : Nat} {r s : State} (h : Keeps fm r s)
    (hm : Sub 64 fm := by exact Sub.of (by assumption) (by decide)) {det} : Keeps fm r (State.consume s det) := by
  unfold State.consume
  exact Keeps.bump (Keeps.setReg h)

theorem Keeps.setCause {fm : Nat} {r s : State} (h : Keeps fm r s)
    (hm : Sub 64 fm := by exact Sub.of (by assumption) (by decide)) {bit on} : Keeps fm r (State.setCause s bit on) := by
  unfold State.setCause
  dsimp only
  split
  · split
    · exact Keeps.setReg (Keeps.setReg h)
    · exact Keeps.setReg h
  · split
    · exact Keeps.setReg (Keeps.setReg h)
    · exact Keeps.setReg h

theorem Keeps.setPair {fm : Nat} {r s : State} (h : Keeps fm r s)
    (hm : Sub 524288 fm := by exact Sub.of (by assumption) (by decide)) {f q p} : Keeps fm r (State.setPair s f q p) := by
  unfold State.setPair
  exact Keeps.update h

theorem Keeps.produce {fm : Nat} {r s : State} (h : Keeps fm r s)
    (hm : Sub 524288 fm := by exact Sub.of (by assumption) (by decide)) {r'} : Keeps fm r (State.produce s r') := by
  unfold State.produce
  exact Keeps.update h

theorem Keeps.complete {fm : Nat} {r s : State} (h : Keeps fm r s)
    (hm : Sub 524288 fm := by exact Sub.of (by assumption) (by decide)) {f q d sqHead status mark} :
    Keeps fm r (State.complete s f q d sqHead status mark) := by
  unfold State.complete
  exact Keeps.produce h

theorem Keeps.charge {fm : Nat} {r s : State} (h : Keeps fm r s)
    (hm : Sub 64 fm := by exact Sub.of (by assumption) (by decide)) {a sub n} : Keeps fm r (State.charge s a sub n) := by
  unfold State.charge
  split
  · exact h
  · exact Keeps.bump h

end Sys2Proof.Machine
end

