-- ==== Sys2Proof/Laws/Keeps/Power.lean ====
section
/-! SUPPORT. What the operations of Machine/Power.lean keep. -/

set_option Elab.async false

namespace Sys2Proof.Machine

theorem Keeps.setHeld {fm : Nat} {r s : State} (h : Keeps fm r s)
    (hm : Sub 32 fm := by exact Sub.of (by assumption) (by decide)) {d l} : Keeps fm r (State.setHeld s d l) := by
  unfold State.setHeld
  exact Keeps.setGov h

theorem Keeps.countWait {fm : Nat} {r s : State} (h : Keeps fm r s)
    (hm : Sub 64 fm := by exact Sub.of (by assumption) (by decide)) {d a} : Keeps fm r (State.countWait s d a) := by
  unfold State.countWait
  dsimp only
  split
  · split
    · exact Keeps.regMax (Keeps.bump (Keeps.bump h))
    · exact h
  · split
    · exact Keeps.regMax (Keeps.bump (Keeps.bump h))
    · exact h

theorem Keeps.grant {fm : Nat} {r s : State} (h : Keeps fm r s)
    (hm : Sub 96 fm := by exact Sub.of (by assumption) (by decide)) {d a rest} : Keeps fm r (State.grant s d a rest) := by
  unfold State.grant
  exact Keeps.countWait (Keeps.bump (Keeps.setGov (Keeps.setHeld h)))

theorem Keeps.serveLoop {fm : Nat} {r a' : State} (h : Keeps fm r a')
    (hm : Sub 96 fm := by exact Sub.of (by assumption) (by decide)) {a a''} : Keeps fm r (State.serveLoop a a' a'') := by
  induction a generalizing a' a'' with
  | zero =>
    unfold State.serveLoop
    exact h
  | succ m ih =>
    unfold State.serveLoop
    dsimp only
    split
    · exact h
    · split
      · exact h
      · split
        · exact ih (Keeps.grant h)
        · exact Keeps.setGov h

theorem Keeps.serveDie {fm : Nat} {r s : State} (h : Keeps fm r s)
    (hm : Sub 96 fm := by exact Sub.of (by assumption) (by decide)) {d} : Keeps fm r (State.serveDie s d) := by
  unfold State.serveDie
  exact Keeps.serveLoop h

theorem Keeps.serveBoth {fm : Nat} {r s : State} (h : Keeps fm r s)
    (hm : Sub 96 fm := by exact Sub.of (by assumption) (by decide)) : Keeps fm r (State.serveBoth s) := by
  unfold State.serveBoth
  exact Keeps.serveDie (Keeps.serveDie h)

theorem Keeps.doPermitRequest {fm : Nat} {r s : State} (h : Keeps fm r s)
    (hm : Sub 96 fm := by exact Sub.of (by assumption) (by decide)) {d n} : Keeps fm r (State.doPermitRequest s d n) := by
  unfold State.doPermitRequest
  dsimp only
  refine Keeps.serveDie (Keeps.setGov ?_)
  split
  · exact Keeps.consume h
  · exact h

theorem Keeps.execPermitRequest {fm : Nat} {r s : State} (h : Keeps fm r s)
    (hm : Sub 96 fm := by exact Sub.of (by assumption) (by decide)) {d n} : KeepsX fm r (execPermitRequest d n s) := by
  unfold Sys2Proof.Machine.execPermitRequest
  exact Keeps.next (Keeps.doPermitRequest h)

theorem Alloc.balanced_move {a : Alloc} (h : a.balanced) (d : Nat) (x : Int) : (a.move d x).balanced := by
  simp only [Alloc.balanced, Alloc.inForce] at h ⊢
  unfold Alloc.move
  split <;> dsimp only <;> omega

theorem Alloc.balanced_withhold {a : Alloc} (h : a.balanced) (d : Nat) {x : Int} (hx : 0 < x) : (a.withhold d x).balanced := by
  simp only [Alloc.balanced, Alloc.inForce] at h ⊢
  unfold Alloc.withhold
  split <;> dsimp only <;> omega

theorem Alloc.balanced_release {a : Alloc} (h : a.balanced) (d : Nat) : (a.release d).balanced := by
  simp only [Alloc.balanced, Alloc.inForce] at h ⊢
  unfold Alloc.release
  split <;> dsimp only <;> omega

theorem Alloc.balanced_rebudget {a : Alloc} (h : a.balanced) (b : Int) : (a.rebudget b).balanced := by
  simp only [Alloc.balanced, Alloc.inForce] at h ⊢
  unfold Alloc.rebudget
  dsimp only
  omega

theorem Keeps.doLoanRequest {fm : Nat} {r s : State} (h : Keeps fm r s)
    (hm : Sub 112 fm := by exact Sub.of (by assumption) (by decide)) {d} : Keeps fm r (State.doLoanRequest s d) := by
  unfold State.doLoanRequest
  dsimp only
  split
  · split
    · exact Keeps.setGov (Keeps.bump (h.updateAlloc fun x => Alloc.balanced_move x _ _))
    · exact Keeps.setGov h
  · exact h

theorem Keeps.execLoanRequest {fm : Nat} {r s : State} (h : Keeps fm r s)
    (hm : Sub 112 fm := by exact Sub.of (by assumption) (by decide)) {d} : KeepsX fm r (execLoanRequest d s) := by
  unfold Sys2Proof.Machine.execLoanRequest
  exact Keeps.next (Keeps.doLoanRequest h)

theorem Keeps.doLoanReply {fm : Nat} {r s : State} (h : Keeps fm r s)
    (hm : Sub 96 fm := by exact Sub.of (by assumption) (by decide)) {d} : Keeps fm r (State.doLoanReply s d) := by
  unfold State.doLoanReply
  dsimp only
  split
  · exact h
  · split
    · exact Keeps.serveDie (Keeps.setGov h)
    · exact Keeps.setGov h

theorem Keeps.execLoanReply {fm : Nat} {r s : State} (h : Keeps fm r s)
    (hm : Sub 96 fm := by exact Sub.of (by assumption) (by decide)) {d} : KeepsX fm r (execLoanReply d s) := by
  unfold Sys2Proof.Machine.execLoanReply
  exact Keeps.next (Keeps.doLoanReply h)

theorem Keeps.execLoanRetry {fm : Nat} {r s : State} (h : Keeps fm r s)
    (hm : Sub 96 fm := by exact Sub.of (by assumption) (by decide)) {d} : KeepsX fm r (execLoanRetry d s) := by
  unfold Sys2Proof.Machine.execLoanRetry
  exact Keeps.next (Keeps.serveDie h)

theorem Keeps.doPermitReturn {fm : Nat} {r s : State} (h : Keeps fm r s)
    (hm : Sub 96 fm := by exact Sub.of (by assumption) (by decide)) {d n} : Keeps fm r (State.doPermitReturn s d n) := by
  unfold State.doPermitReturn
  exact Keeps.serveDie (Keeps.serveDie (Keeps.setGov (Keeps.setHeld h)))

theorem Keeps.execPermitReturn {fm : Nat} {r s : State} (h : Keeps fm r s)
    (hm : Sub 96 fm := by exact Sub.of (by assumption) (by decide)) {d n} : KeepsX fm r (execPermitReturn d n s) := by
  unfold Sys2Proof.Machine.execPermitReturn
  exact Keeps.next (Keeps.doPermitReturn h)

theorem Keeps.raiseTimeouts {fm : Nat} {r s : State} (h : Keeps fm r s)
    (hm : Sub 3670464 fm := by exact Sub.of (by assumption) (by decide)) {d a} :
    KeepsP fm r (State.raiseTimeouts s d a) := by
  induction a generalizing s d with
  | nil =>
    unfold State.raiseTimeouts
    exact Keeps.pair h
  | cons b l ih =>
    unfold State.raiseTimeouts
    dsimp only
    refine Keeps.pair (Keeps.fst (ih ?_))
    split
    · exact Keeps.raise h
    · exact h

theorem Keeps.doPermitTimeout {fm : Nat} {r s : State} (h : Keeps fm r s)
    (hm : Sub 3670496 fm := by exact Sub.of (by assumption) (by decide)) {d} : Keeps fm r (State.doPermitTimeout s d) := by
  unfold State.doPermitTimeout
  exact Keeps.setGov (Keeps.fst (Keeps.raiseTimeouts h))

theorem Keeps.execPermitTimeout {fm : Nat} {r s : State} (h : Keeps fm r s)
    (hm : Sub 3670496 fm := by exact Sub.of (by assumption) (by decide)) {d} : KeepsX fm r (execPermitTimeout d s) := by
  unfold Sys2Proof.Machine.execPermitTimeout
  exact Keeps.next (Keeps.doPermitTimeout h)

theorem Keeps.windowFloor {fm : Nat} {r s : State} (h : Keeps fm r s)
    (hm : Sub 32 fm := by exact Sub.of (by assumption) (by decide)) {d rail} : Keeps fm r (State.windowFloor s d rail) := by
  unfold State.windowFloor
  exact Keeps.setGov h

theorem Keeps.rebalance {fm : Nat} {r s : State} (h : Keeps fm r s)
    (hm : Sub 16 fm := by exact Sub.of (by assumption) (by decide)) : Keeps fm r (State.rebalance s) := by
  unfold State.rebalance
  extract_lets -merge -useContext +onlyGivenNames h0 h1 giver x
  clear_value giver x
  split
  · exact h.updateAlloc fun x => Alloc.balanced_move x _ _
  · exact h

theorem Keeps.judgeHeat {fm : Nat} {r s : State} (h : Keeps fm r s)
    (hm : Sub 3670512 fm := by exact Sub.of (by assumption) (by decide)) {d junction sensor cases} : Keeps fm r (State.judgeHeat s d junction sensor cases) := by
  unfold State.judgeHeat
  extract_lets -merge -useContext +onlyGivenNames g soft opt real inj still s'
  have k : Keeps fm r s' := by
    dsimp only [s']
    split
    · exact Keeps.consume h
    · exact h
  clear_value g soft opt real inj still s'
  split
  · exact k
  · split
    · extract_lets -merge -useContext +onlyGivenNames room x s1 g2 s2
      have k1 : Keeps fm r s1 := by
        dsimp only [s1]
        split
        · next hx => exact k.updateAlloc fun y => Alloc.balanced_withhold y d hx
        · exact k
      have k2 : Keeps fm r s2 := Keeps.setGov k1
      clear_value s2
      split
      · exact Keeps.raise k2
      · exact k2
    · split
      · exact (Keeps.setGov k).updateAlloc fun y => Alloc.balanced_release y d
      · exact Keeps.setGov k

theorem Keeps.storeSensors {fm : Nat} {r s : State} (h : Keeps fm r s)
    (hm : Sub 96 fm := by exact Sub.of (by assumption) (by decide)) {o} : Keeps fm r (State.storeSensors s o) := by
  unfold State.storeSensors
  dsimp only
  refine Keeps.setReg (Keeps.setReg (Keeps.setReg (Keeps.setReg (Keeps.setReg (Keeps.setReg (Keeps.setReg (Keeps.update ?_)))))))
  split
  · exact h
  · exact Keeps.setReg h

theorem Keeps.injectOver {fm : Nat} {r s : State} (h : Keeps fm r s)
    (hm : Sub 3670496 fm := by exact Sub.of (by assumption) (by decide)) : Keeps fm r (State.injectOver s) := by
  unfold State.injectOver
  dsimp only
  split
  · exact Keeps.raise (Keeps.update (Keeps.consume h))
  · exact h

theorem Keeps.doWindowEnd {fm : Nat} {r s : State} (h : Keeps fm r s)
    (hm : Sub 3670512 fm := by exact Sub.of (by assumption) (by decide)) {o} : Keeps fm r (State.doWindowEnd s o) := by
  unfold State.doWindowEnd
  dsimp only
  split
  · exact h
  · exact Keeps.serveBoth (Keeps.injectOver (Keeps.judgeHeat (Keeps.judgeHeat (Keeps.rebalance (Keeps.windowFloor (Keeps.windowFloor (Keeps.storeSensors h)))))))

theorem Keeps.execGovernorWindowEnd {fm : Nat} {r s : State} (h : Keeps fm r s)
    (hm : Sub 3670512 fm := by exact Sub.of (by assumption) (by decide)) {o} : KeepsX fm r (execGovernorWindowEnd o s) := by
  unfold Sys2Proof.Machine.execGovernorWindowEnd
  exact Keeps.next (Keeps.doWindowEnd h)

theorem Keeps.deny {fm : Nat} {r s : State} (h : Keeps fm r s)
    (hm : Sub 64 fm := by exact Sub.of (by assumption) (by decide)) : Keeps fm r (State.deny s) := by
  unfold State.deny
  exact Keeps.bump h

theorem Keeps.setBudget {fm : Nat} {r s : State} (h : Keeps fm r s)
    (hm : Sub 112 fm := by exact Sub.of (by assumption) (by decide)) {v} : Keeps fm r (State.setBudget s v) :=
  Keeps.serveBoth (h.updateAlloc fun x => Alloc.balanced_rebudget x _)

theorem Keeps.doPowerSample {fm : Nat} {r s : State} (h : Keeps fm r s)
    (hm : Sub 32 fm := by exact Sub.of (by assumption) (by decide)) {mw} : Keeps fm r (State.doPowerSample s mw) := by
  unfold State.doPowerSample
  exact Keeps.update h

theorem Keeps.execPowerSample {fm : Nat} {r s : State} (h : Keeps fm r s)
    (hm : Sub 32 fm := by exact Sub.of (by assumption) (by decide)) {mw} : KeepsX fm r (execPowerSample mw s) := by
  unfold Sys2Proof.Machine.execPowerSample
  exact Keeps.next (Keeps.doPowerSample h)

theorem Keeps.execOverBudget {fm : Nat} {r s : State} (h : Keeps fm r s)
    (hm : Sub 3670496 fm := by exact Sub.of (by assumption) (by decide)) : KeepsX fm r (execOverBudget s) := by
  unfold Sys2Proof.Machine.execOverBudget
  dsimp only
  refine Keeps.next ?_
  split
  · exact Keeps.raise (Keeps.update h)
  · exact h

theorem Keeps.execOverBudgetClear {fm : Nat} {r s : State} (h : Keeps fm r s)
    (hm : Sub 96 fm := by exact Sub.of (by assumption) (by decide)) : KeepsX fm r (execOverBudgetClear s) := by
  unfold Sys2Proof.Machine.execOverBudgetClear
  dsimp only
  refine Keeps.next ?_
  split
  · exact Keeps.serveBoth (Keeps.update h)
  · exact h

theorem Keeps.execEngineGate {fm : Nat} {r s : State} (h : Keeps fm r s)
    (hm : Sub 512 fm := by exact Sub.of (by assumption) (by decide)) {p e} : KeepsX fm r (execEngineGate p e s) := by
  unfold Sys2Proof.Machine.execEngineGate
  refine Keeps.next ?_
  split
  · exact Keeps.modCore h
  · exact h

theorem Keeps.execBankRetention {fm : Nat} {r s : State} (h : Keeps fm r s)
    (hm : Sub 512 fm := by exact Sub.of (by assumption) (by decide)) {p b} : KeepsX fm r (execBankRetention p b s) := by
  unfold Sys2Proof.Machine.execBankRetention
  refine Keeps.next ?_
  split
  · exact Keeps.modCore h
  · exact h

theorem Keeps.execSliceRetention {fm : Nat} {r s : State} (h : Keeps fm r s)
    (hm : Sub 32 fm := by exact Sub.of (by assumption) (by decide)) {d sl} : KeepsX fm r (execSliceRetention d sl s) := by
  unfold Sys2Proof.Machine.execSliceRetention
  dsimp only
  refine Keeps.next ?_
  split
  · exact Keeps.update h
  · exact h

theorem Keeps.useBank {fm : Nat} {r s : State} (h : Keeps fm r s)
    (hm : Sub 512 fm := by exact Sub.of (by assumption) (by decide)) {p b} : Keeps fm r (State.useBank s p b) := by
  unfold State.useBank
  exact Keeps.modCore h

theorem Keeps.useEngine {fm : Nat} {r s : State} (h : Keeps fm r s)
    (hm : Sub 512 fm := by exact Sub.of (by assumption) (by decide)) {p e} : Keeps fm r (State.useEngine s p e) := by
  unfold State.useEngine
  exact Keeps.modCore h

end Sys2Proof.Machine
end

