-- ==== Sys2Proof/Laws/Keeps/Cistern.lean ====
section
/-! SUPPORT. What the operations of Machine/Cistern.lean keep. -/

set_option Elab.async false

namespace Sys2Proof.Machine

theorem Keeps.useRows {fm : Nat} {r s : State} (h : Keeps fm r s)
    (hm : Sub 512 fm := by exact Sub.of (by assumption) (by decide)) {p rows} :
    Keeps fm r (State.useRows s p rows) := by
  unfold State.useRows
  refine Keeps.foldl h _ ?_
  intro x0 a0 h0
  split
  · exact Keeps.useBank h0
  · exact h0

theorem Keeps.zeroRowsOf {fm : Nat} {r s : State} (h : Keeps fm r s)
    (hm : Sub 512 fm := by exact Sub.of (by assumption) (by decide)) {p rows} :
    Keeps fm r (State.zeroRowsOf s p rows) := by
  unfold State.zeroRowsOf
  exact Keeps.useRows (Keeps.modCore h)

theorem Keeps.flagsBy {fm : Nat} {r s : State} (h : Keeps fm r s)
    (hm : Sub 1024 fm := by exact Sub.of (by assumption) (by decide)) {p hs} :
    Keeps fm r (Sys2Proof.Machine.State.flagsBy s p hs) := by
  unfold Sys2Proof.Machine.State.flagsBy
  dsimp only
  split
  · exact Keeps.modCtx h
  · exact h

theorem Keeps.correctRow {fm : Nat} {r s : State} (h : Keeps fm r s)
    (hm : Sub 3670976 fm := by exact Sub.of (by assumption) (by decide)) {p y2 owner inj} :
    Keeps fm r (Sys2Proof.Machine.State.correctRow s p y2 owner inj) := by
  unfold Sys2Proof.Machine.State.correctRow
  dsimp only
  exact Keeps.modCore (Keeps.raise h)

theorem Keeps.loseRow {fm : Nat} {r s : State} (h : Keeps fm r s)
    (hm : Sub 3670464 fm := by exact Sub.of (by assumption) (by decide)) {p r' unit part inj} :
    Keeps fm r (State.loseRow s p r' unit part inj) := by
  unfold State.loseRow
  exact Keeps.raise h

theorem Keeps.readRows {fm : Nat} {r s : State} (h : Keeps fm r s)
    (hm : Sub 3670976 fm := by exact Sub.of (by assumption) (by decide)) {p part unit rows up} :
    KeepsP fm r (State.readRows s p part unit rows up) := by
  unfold State.readRows
  dsimp only
  split
  · refine Keeps.pair (Keeps.loseRow ?_)
    split
    · split
      · exact Keeps.correctRow (Keeps.consume (Keeps.foldl (Keeps.foldl h _ (fun _ _ h0 => Keeps.useBank h0)) _ (fun _ _ h0 => Keeps.correctRow h0)))
      · exact Keeps.foldl (Keeps.foldl h _ (fun _ _ h0 => Keeps.useBank h0)) _ (fun _ _ h0 => Keeps.correctRow h0)
    · exact Keeps.foldl (Keeps.foldl h _ (fun _ _ h0 => Keeps.useBank h0)) _ (fun _ _ h0 => Keeps.correctRow h0)
  · split
    · split
      · split
        · split
          · exact Keeps.pair (Keeps.loseRow (Keeps.consume (Keeps.correctRow (Keeps.consume (Keeps.foldl (Keeps.foldl h _ (fun _ _ h0 => Keeps.useBank h0)) _ (fun _ _ h0 => Keeps.correctRow h0))))))
          · exact Keeps.pair (Keeps.correctRow (Keeps.consume (Keeps.foldl (Keeps.foldl h _ (fun _ _ h0 => Keeps.useBank h0)) _ (fun _ _ h0 => Keeps.correctRow h0))))
        · split
          · exact Keeps.pair (Keeps.loseRow (Keeps.consume (Keeps.foldl (Keeps.foldl h _ (fun _ _ h0 => Keeps.useBank h0)) _ (fun _ _ h0 => Keeps.correctRow h0))))
          · exact Keeps.pair (Keeps.foldl (Keeps.foldl h _ (fun _ _ h0 => Keeps.useBank h0)) _ (fun _ _ h0 => Keeps.correctRow h0))
      · split
        · exact Keeps.pair (Keeps.loseRow (Keeps.consume (Keeps.foldl (Keeps.foldl h _ (fun _ _ h0 => Keeps.useBank h0)) _ (fun _ _ h0 => Keeps.correctRow h0))))
        · exact Keeps.pair (Keeps.foldl (Keeps.foldl h _ (fun _ _ h0 => Keeps.useBank h0)) _ (fun _ _ h0 => Keeps.correctRow h0))
    · refine Keeps.pair ?_
      split
      · split
        · exact Keeps.correctRow (Keeps.consume (Keeps.foldl (Keeps.foldl h _ (fun _ _ h0 => Keeps.useBank h0)) _ (fun _ _ h0 => Keeps.correctRow h0)))
        · exact Keeps.foldl (Keeps.foldl h _ (fun _ _ h0 => Keeps.useBank h0)) _ (fun _ _ h0 => Keeps.correctRow h0)
      · exact Keeps.foldl (Keeps.foldl h _ (fun _ _ h0 => Keeps.useBank h0)) _ (fun _ _ h0 => Keeps.correctRow h0)

theorem Keeps.readEach {fm : Nat} {r s : State} (h : Keeps fm r s)
    (hm : Sub 3670976 fm := by exact Sub.of (by assumption) (by decide)) {p part unit l up} :
    KeepsP fm r (State.readEach s p part unit l up) := by
  induction l generalizing s with
  | nil => exact Keeps.pair h
  | cons a l ih =>
    unfold State.readEach
    exact Keeps.pair (Keeps.fst (ih (Keeps.fst (Keeps.readRows h))))

theorem Keeps.runBank {fm : Nat} {r s : State} (h : Keeps fm r s)
    (hm : Sub 576 fm := by exact Sub.of (by assumption) (by decide)) {p u n seed tid first last w part draws reloads} :
    Keeps fm r (State.runBank s p u n seed tid first last w part draws reloads) := by
  unfold State.runBank
  dsimp only
  exact Keeps.bump (Keeps.bump (Keeps.bump (Keeps.bump (Keeps.modCore h))))

theorem Keeps.execScrubWriteBack {fm : Nat} {r s : State} (h : Keeps fm r s)
    (hm : Sub 512 fm := by exact Sub.of (by assumption) (by decide)) {p} : KeepsX fm r (execScrubWriteBack p s) := by
  unfold Sys2Proof.Machine.execScrubWriteBack
  refine Keeps.next ?_
  split
  · exact h
  · exact Keeps.useBank (Keeps.modCore h)

end Sys2Proof.Machine
end

