-- ==== Sys2Proof/Laws/Keeps/Memory.lean ====
section
/-! SUPPORT. What the operations of Machine/Memory.lean keep. -/

set_option Elab.async false

namespace Sys2Proof.Machine

theorem Keeps.unmapped {fm : Nat} {r s : State} (h : Keeps fm r s)
    (hm : Sub 64 fm := by exact Sub.of (by assumption) (by decide)) : Keeps fm r (State.unmapped s) := by
  unfold State.unmapped
  exact Keeps.bump h

theorem Keeps.modRange {fm : Nat} {r s : State} (h : Keeps fm r s)
    (hm : Sub 16384 fm := by exact Sub.of (by assumption) (by decide)) {u f} : Keeps fm r (State.modRange s u f) := by
  unfold State.modRange
  exact Keeps.update h

theorem Keeps.modChan {fm : Nat} {r s : State} (h : Keeps fm r s)
    (hm : Sub 16384 fm := by exact Sub.of (by assumption) (by decide)) {u c f} : Keeps fm r (State.modChan s u c f) := by
  unfold State.modChan
  exact Keeps.update h

theorem Keeps.request {fm : Nat} {r s : State} (h : Keeps fm r s)
    (hm : Sub 16384 fm := by exact Sub.of (by assumption) (by decide)) {u off kind narrow units lost} :
    Keeps fm r (Sys2Proof.Machine.State.request s u off kind narrow units lost) := by
  unfold Sys2Proof.Machine.State.request
  dsimp only
  exact Keeps.modChan h

theorem Keeps.setLines {fm : Nat} {r s : State} (h : Keeps fm r s)
    (hm : Sub 16384 fm := by exact Sub.of (by assumption) (by decide)) {k l} : Keeps fm r (State.setLines s k l) := by
  unfold State.setLines
  exact Keeps.update h

theorem Keeps.writeLine {fm : Nat} {r s : State} (h : Keeps fm r s)
    (hm : Sub 16384 fm := by exact Sub.of (by assumption) (by decide)) {u x} :
    Keeps fm r (Sys2Proof.Machine.State.writeLine s u x) := by
  unfold Sys2Proof.Machine.State.writeLine
  exact Keeps.request h

theorem Keeps.combine {fm : Nat} {r s : State} (h : Keeps fm r s)
    (hm : Sub 16384 fm := by exact Sub.of (by assumption) (by decide)) {u off units} :
    Keeps fm r (State.combine s u off units) := by
  unfold State.combine
  exact Keeps.foldl (Keeps.setLines h) _ (fun _ _ h0 => Keeps.request h0)

theorem Keeps.clearUnit {fm : Nat} {r s : State} (h : Keeps fm r s)
    (hm : Sub 16384 fm := by exact Sub.of (by assumption) (by decide)) {kind u off} :
    Keeps fm r (Sys2Proof.Machine.State.clearUnit s kind u off) := by
  unfold Sys2Proof.Machine.State.clearUnit
  dsimp only
  exact Keeps.modChan h

theorem Keeps.coverUnit {fm : Nat} {r s : State} (h : Keeps fm r s)
    (hm : Sub 16384 fm := by exact Sub.of (by assumption) (by decide)) {u off} :
    Keeps fm r (Sys2Proof.Machine.State.coverUnit s u off) := by
  unfold Sys2Proof.Machine.State.coverUnit
  exact Keeps.clearUnit h

theorem Keeps.dropFromLine {fm : Nat} {r s : State} (h : Keeps fm r s)
    (hm : Sub 16384 fm := by exact Sub.of (by assumption) (by decide)) {u off} :
    Keeps fm r (Sys2Proof.Machine.State.dropFromLine s u off) := by
  unfold Sys2Proof.Machine.State.dropFromLine
  dsimp only
  split
  · exact Keeps.setLines (Keeps.clearUnit h)
  · exact Keeps.clearUnit h

theorem Keeps.memEvent {fm : Nat} {r s : State} (h : Keeps fm r s)
    (hm : Sub 3670464 fm := by exact Sub.of (by assumption) (by decide)) {cause loc aux inj ovf degrades} :
    Keeps fm r (State.memEvent s cause loc aux inj ovf degrades) := by
  unfold State.memEvent
  exact Keeps.raise h

theorem Keeps.setPoison {fm : Nat} {r s : State} (h : Keeps fm r s)
    (hm : Sub 16448 fm := by exact Sub.of (by assumption) (by decide)) {u l} : Keeps fm r (State.setPoison s u l) := by
  unfold State.setPoison
  exact Keeps.setReg (Keeps.modRange h)

theorem Keeps.poisonUnit {fm : Nat} {r s : State} (h : Keeps fm r s)
    (hm : Sub 3686848 fm := by exact Sub.of (by assumption) (by decide)) {u off} :
    Keeps fm r (State.poisonUnit s u off) := by
  unfold State.poisonUnit
  dsimp only
  split
  · exact h
  · split
    · exact Keeps.memEvent (Keeps.putBytesAt (Keeps.bump h))
    · exact Keeps.setPoison (Keeps.bump h)

theorem Keeps.failRow {fm : Nat} {r s : State} (h : Keeps fm r s)
    (hm : Sub 3686848 fm := by exact Sub.of (by assumption) (by decide)) {u off} : Keeps fm r (State.failRow s u off) := by
  unfold State.failRow
  dsimp only
  split
  · exact h
  · exact Keeps.memEvent (Keeps.modRange h)

theorem Keeps.countLost {fm : Nat} {r s : State} (h : Keeps fm r s)
    (hm : Sub 3686848 fm := by exact Sub.of (by assumption) (by decide)) {u off own} :
    Keeps fm r (State.countLost s u off own) := by
  unfold State.countLost
  dsimp only
  split
  · exact Keeps.failRow (Keeps.modChan (Keeps.bump h))
  · exact Keeps.modChan (Keeps.bump h)

theorem Keeps.countCorrected {fm : Nat} {r s : State} (h : Keeps fm r s)
    (hm : Sub 3686848 fm := by exact Sub.of (by assumption) (by decide)) {u off} :
    Keeps fm r (State.countCorrected s u off) := by
  unfold State.countCorrected
  dsimp only
  split
  · exact Keeps.failRow (Keeps.modRange (Keeps.modChan (Keeps.bump h)))
  · exact Keeps.modRange (Keeps.modChan (Keeps.bump h))

theorem Keeps.injectFail {fm : Nat} {r s : State} (h : Keeps fm r s)
    (hm : Sub 3686848 fm := by exact Sub.of (by assumption) (by decide)) {u off} :
    Keeps fm r (State.injectFail s u off) := by
  unfold State.injectFail
  dsimp only
  refine Keeps.memEvent ?_
  split
  · exact h
  · exact Keeps.modRange h

theorem Keeps.injectRead {fm : Nat} {r s : State} (h : Keeps fm r s)
    (hm : Sub 3686848 fm := by exact Sub.of (by assumption) (by decide)) {u off} :
    KeepsP fm r (State.injectRead s u off) := by
  unfold State.injectRead
  dsimp only
  split
  · exact Keeps.pair (Keeps.countCorrected (Keeps.memEvent (Keeps.consume h)))
  · split
    · exact Keeps.pair (Keeps.countLost (Keeps.injectFail (Keeps.consume h)))
    · split
      · exact Keeps.pair (Keeps.injectFail (Keeps.consume h))
      · exact Keeps.pair h

theorem Keeps.noteSeen {fm : Nat} {r s : State} (h : Keeps fm r s)
    (hm : Sub 16384 fm := by exact Sub.of (by assumption) (by decide)) {u off} :
    Keeps fm r (Sys2Proof.Machine.State.noteSeen s u off) := by
  unfold Sys2Proof.Machine.State.noteSeen
  split
  · split
    · exact Keeps.modRange h
    · exact h
  · exact h

theorem Keeps.judgeUnits {fm : Nat} {r s : State} (h : Keeps fm r s)
    (hm : Sub 3686848 fm := by exact Sub.of (by assumption) (by decide)) {u lost a} :
    KeepsP fm r (State.judgeUnits s u lost a) := by
  induction a generalizing s u lost with
  | nil =>
    unfold State.judgeUnits
    exact Keeps.pair h
  | cons b l ih =>
    unfold State.judgeUnits
    dsimp only
    split
    · exact ih (Keeps.coverUnit h)
    · split
      · exact Keeps.pair (Keeps.fst (ih (Keeps.countLost h)))
      · exact Keeps.pair (Keeps.fst (ih (Keeps.noteSeen (Keeps.fst (Keeps.injectRead h)))))

theorem Keeps.requestRead {fm : Nat} {r s : State} (h : Keeps fm r s)
    (hm : Sub 16384 fm := by exact Sub.of (by assumption) (by decide)) {u off n narrow lost} :
    Keeps fm r (Sys2Proof.Machine.State.requestRead s u off n narrow lost) := by
  unfold Sys2Proof.Machine.State.requestRead
  dsimp only
  refine Keeps.foldl h _ ?_
  intro x0 a0 h0
  split
  · split
    · exact h0
    · exact Keeps.request h0
  · split
    · exact h0
    · exact Keeps.request h0

theorem Keeps.dropWrite {fm : Nat} {r s : State} (h : Keeps fm r s)
    (hm : Sub 128 fm := by exact Sub.of (by assumption) (by decide)) {u c} : Keeps fm r (State.dropWrite s u c) := by
  unfold State.dropWrite
  exact Keeps.setBlobBit h

theorem Keeps.writeUnit {fm : Nat} {r s : State} (h : Keeps fm r s)
    (hm : Sub 16832 fm := by exact Sub.of (by assumption) (by decide)) {u off bs} :
    Keeps fm r (State.writeUnit s u off bs) := by
  unfold State.writeUnit
  dsimp only
  split
  · exact h
  · split
    · exact Keeps.dropWrite h
    · split
      · refine Keeps.putBytesAt ?_
        split
        · exact Keeps.setPoison (Keeps.combine (Keeps.coverUnit h))
        · exact Keeps.combine (Keeps.coverUnit h)
      · split
        · exact Keeps.putBytesAt (Keeps.combine (Keeps.coverUnit h))
        · split
          · exact Keeps.putBytesAt (Keeps.combine (Keeps.request (Keeps.coverUnit h)))
          · exact Keeps.request (Keeps.coverUnit h)

theorem Keeps.writeRange {fm : Nat} {r s : State} (h : Keeps fm r s)
    (hm : Sub 16832 fm := by exact Sub.of (by assumption) (by decide)) {u off bs} :
    Keeps fm r (State.writeRange s u off bs) := by
  unfold State.writeRange
  exact Keeps.foldl h _ (fun _ _ h0 => Keeps.writeUnit h0)

theorem Keeps.useSlice {fm : Nat} {r s : State} (h : Keeps fm r s)
    (hm : Sub 32 fm := by exact Sub.of (by assumption) (by decide)) {die off} : Keeps fm r (State.useSlice s die off) := by
  unfold State.useSlice
  exact Keeps.update h

theorem Keeps.useSlices {fm : Nat} {r s : State} (h : Keeps fm r s)
    (hm : Sub 32 fm := by exact Sub.of (by assumption) (by decide)) {die off n} :
    Keeps fm r (State.useSlices s die off n) := by
  unfold State.useSlices
  exact Keeps.foldl h _ (fun _ _ h0 => Keeps.useSlice h0)

theorem Keeps.putResv {fm : Nat} {r s : State} (h : Keeps fm r s)
    (hm : Sub 16416 fm := by exact Sub.of (by assumption) (by decide)) {die off bs} :
    Keeps fm r (State.putResv s die off bs) := by
  unfold State.putResv
  dsimp only
  exact Keeps.update (Keeps.useSlices h)

theorem Keeps.execChannelPowerDown {fm : Nat} {r s : State} (h : Keeps fm r s)
    (hm : Sub 16384 fm := by exact Sub.of (by assumption) (by decide)) {u c} : KeepsX fm r (execChannelPowerDown u c s) := by
  unfold Sys2Proof.Machine.execChannelPowerDown
  refine Keeps.next ?_
  split
  · exact Keeps.modChan h
  · exact h

theorem Keeps.suspect {fm : Nat} {r s : State} (h : Keeps fm r s)
    (hm : Sub 3670464 fm := by exact Sub.of (by assumption) (by decide)) {u c} : Keeps fm r (State.suspect s u c) := by
  unfold State.suspect
  dsimp only
  split
  · exact h
  · exact Keeps.memEvent (Keeps.setReg h)

theorem Keeps.reissue {fm : Nat} {r s : State} (h : Keeps fm r s)
    (hm : Sub 3686848 fm := by exact Sub.of (by assumption) (by decide)) {u c n} : Keeps fm r (State.reissue s u c n) := by
  unfold State.reissue
  dsimp only
  split
  · exact h
  · split
    · exact Keeps.suspect (Keeps.modChan (Keeps.bump h))
    · exact Keeps.modChan (Keeps.bump h)

theorem Keeps.retried {fm : Nat} {r s : State} (h : Keeps fm r s)
    (hm : Sub 3686848 fm := by exact Sub.of (by assumption) (by decide)) {u c q k} :
    Keeps fm r (Sys2Proof.Machine.State.retried s u c q k) := by
  unfold Sys2Proof.Machine.State.retried
  dsimp only
  split
  · exact Keeps.reissue (Keeps.raise h)
  · split
    · exact Keeps.reissue (Keeps.raise (Keeps.consume h))
    · exact h

theorem Keeps.failUnit {fm : Nat} {r s : State} (h : Keeps fm r s)
    (hm : Sub 3686848 fm := by exact Sub.of (by assumption) (by decide)) {q off own} :
    Keeps fm r (Sys2Proof.Machine.State.failUnit s q off own) := by
  unfold Sys2Proof.Machine.State.failUnit
  dsimp only
  split
  · exact Keeps.poisonUnit (Keeps.dropFromLine (Keeps.countLost h))
  · exact Keeps.memEvent (Keeps.countLost h)
  · exact h

theorem Keeps.readUnit {fm : Nat} {r s : State} (h : Keeps fm r s)
    (hm : Sub 3686848 fm := by exact Sub.of (by assumption) (by decide)) {q k off} :
    Keeps fm r (Sys2Proof.Machine.State.readUnit s q k off) := by
  unfold Sys2Proof.Machine.State.readUnit
  dsimp only
  split
  · refine Keeps.failUnit ?_
    split
    · refine Keeps.modChan (Keeps.bump ?_)
      split
      · exact Keeps.bump h
      · exact h
    · split
      · exact Keeps.bump h
      · exact h
  · split
    · refine Keeps.combine (Keeps.countCorrected ?_)
      split
      · refine Keeps.modChan (Keeps.bump ?_)
        split
        · exact Keeps.bump h
        · exact h
      · split
        · exact Keeps.bump h
        · exact h
    · split
      · refine Keeps.countCorrected ?_
        split
        · refine Keeps.modChan (Keeps.bump ?_)
          split
          · exact Keeps.bump h
          · exact h
        · split
          · exact Keeps.bump h
          · exact h
      · split
        · refine Keeps.modChan (Keeps.bump ?_)
          split
          · exact Keeps.bump h
          · exact h
        · split
          · exact Keeps.bump h
          · exact h

theorem Keeps.ownRead {fm : Nat} {r s : State} (h : Keeps fm r s)
    (hm : Sub 3686848 fm := by exact Sub.of (by assumption) (by decide)) {q k off} :
    Keeps fm r (Sys2Proof.Machine.State.ownRead s q k off) := by
  unfold Sys2Proof.Machine.State.ownRead
  dsimp only
  split
  · exact Keeps.failUnit h
  · split
    · exact Keeps.readUnit h
    · split
      · exact Keeps.readUnit (Keeps.ofPair (by assumption) (Keeps.injectRead h))
      · split
        · exact Keeps.poisonUnit (Keeps.dropFromLine (Keeps.ofPair (by assumption) (Keeps.injectRead h)))
        · exact Keeps.ofPair (by assumption) (Keeps.injectRead h)

theorem Keeps.writtenUnit {fm : Nat} {r s : State} (h : Keeps fm r s)
    (hm : Sub 16576 fm := by exact Sub.of (by assumption) (by decide)) {q off} :
    Keeps fm r (Sys2Proof.Machine.State.writtenUnit s q off) := by
  unfold Sys2Proof.Machine.State.writtenUnit
  dsimp only
  split
  · exact Keeps.dropWrite h
  · split
    · exact Keeps.setPoison h
    · exact h

theorem Keeps.transfer {fm : Nat} {r s : State} (h : Keeps fm r s)
    (hm : Sub 3686848 fm := by exact Sub.of (by assumption) (by decide)) {u c q k} :
    Keeps fm r (State.transfer s u c q k) := by
  unfold State.transfer
  dsimp only
  split
  · refine Keeps.foldl (Keeps.suspect (Keeps.modChan (Keeps.bump (Keeps.retried h)))) _ ?_
    intro x0 a0 h0
    split
    · exact Keeps.poisonUnit h0
    · exact Keeps.failUnit h0
  · refine Keeps.foldl (Keeps.retried h) _ ?_
    intro x0 a0 h0
    split
    · exact Keeps.writtenUnit h0
    · split
      · exact h0
      · exact Keeps.readUnit h0
    · exact Keeps.ownRead h0

theorem Keeps.execMemoryRequest {fm : Nat} {r s : State} (h : Keeps fm r s)
    (hm : Sub 3686848 fm := by exact Sub.of (by assumption) (by decide)) {u c k} :
    KeepsX fm r (execMemoryRequest u c k s) := by
  unfold Sys2Proof.Machine.execMemoryRequest
  refine Keeps.next ?_
  split
  · exact Keeps.transfer (Keeps.modChan h)
  · exact h

theorem Keeps.execWcbAgeExpiry {fm : Nat} {r s : State} (h : Keeps fm r s)
    (hm : Sub 16384 fm := by exact Sub.of (by assumption) (by decide)) {u g} : KeepsX fm r (execWcbAgeExpiry u g s) := by
  unfold Sys2Proof.Machine.execWcbAgeExpiry
  refine Keeps.next ?_
  split
  · split
    · exact Keeps.writeLine (Keeps.setLines h)
    · exact h
  · exact h

theorem Keeps.execMemoryPatrol {fm : Nat} {r s : State} (h : Keeps fm r s)
    (hm : Sub 16448 fm := by exact Sub.of (by assumption) (by decide)) {u unit} :
    KeepsX fm r (Sys2Proof.Machine.execMemoryPatrol u unit s) := by
  unfold Sys2Proof.Machine.execMemoryPatrol
  dsimp only
  refine Keeps.next ?_
  split
  · exact h
  · exact Keeps.request (Keeps.charge h)

theorem Keeps.setRangeState {fm : Nat} {r s : State} (h : Keeps fm r s)
    (hm : Sub 64 fm := by exact Sub.of (by assumption) (by decide)) {u v} : Keeps fm r (State.setRangeState s u v) := by
  unfold State.setRangeState
  exact Keeps.setReg h

theorem Keeps.repairDone {fm : Nat} {r s : State} (h : Keeps fm r s)
    (hm : Sub 3686848 fm := by exact Sub.of (by assumption) (by decide)) {w status} :
    Keeps fm r (State.repairDone s w status) := by
  unfold State.repairDone
  dsimp only
  refine Keeps.memEvent ?_
  split
  · exact Keeps.setRangeState (Keeps.setReg (Keeps.modRange h))
  · exact Keeps.setReg (Keeps.modRange h)

theorem Keeps.beginRepair {fm : Nat} {r s : State} (h : Keeps fm r s) {f : State → Nat → Nat → State}
    (hf : ∀ s w u, Keeps fm r s → Keeps fm r (f s w u)) (hm : Sub 64 fm := by exact Sub.of (by assumption) (by decide)) : Keeps fm r (State.beginRepair s f) := by
  unfold State.beginRepair
  dsimp only
  split
  · exact Keeps.setReg h
  · exact hf _ _ _ h

theorem Keeps.rowRepair {fm : Nat} {r s : State} (h : Keeps fm r s)
    (hm : Sub 3686848 fm := by exact Sub.of (by assumption) (by decide)) : Keeps fm r (State.rowRepair s) := by
  unfold State.rowRepair
  refine Keeps.beginRepair h ?_
  intro y0 y1 y2 y3
  split
  · exact Keeps.repairDone y3
  · exact Keeps.setReg (Keeps.setRangeState (Keeps.modRange y3))

theorem Keeps.chargeMove {fm : Nat} {r s : State} (h : Keeps fm r s)
    (hm : Sub 64 fm := by exact Sub.of (by assumption) (by decide)) {u v n} :
    Keeps fm r (Sys2Proof.Machine.State.chargeMove s u v n) := by
  unfold Sys2Proof.Machine.State.chargeMove
  exact Keeps.charge (Keeps.charge h)

theorem Keeps.loseUnit {fm : Nat} {r s : State} (h : Keeps fm r s)
    (hm : Sub 3686848 fm := by exact Sub.of (by assumption) (by decide)) {u off} :
    Keeps fm r (Sys2Proof.Machine.State.loseUnit s u off) := by
  unfold Sys2Proof.Machine.State.loseUnit
  exact Keeps.poisonUnit (Keeps.countLost h)

theorem Keeps.copyTraffic {fm : Nat} {r s : State} (h : Keeps fm r s)
    (hm : Sub 16512 fm := by exact Sub.of (by assumption) (by decide)) {u write offs} :
    Keeps fm r (Sys2Proof.Machine.State.copyTraffic s u write offs) := by
  unfold Sys2Proof.Machine.State.copyTraffic
  dsimp only
  refine Keeps.foldl h _ ?_
  intro x0 a0 h0
  split
  · exact Keeps.request h0
  · split
    · exact Keeps.dropWrite h0
    · split
      · exact h0
      · exact Keeps.request h0

theorem Keeps.execRowRepairComplete {fm : Nat} {r s : State} (h : Keeps fm r s)
    (hm : Sub 3686848 fm := by exact Sub.of (by assumption) (by decide)) {lost} :
    KeepsX fm r (Sys2Proof.Machine.execRowRepairComplete lost s) := by
  unfold Sys2Proof.Machine.execRowRepairComplete
  dsimp only
  refine Keeps.next ?_
  split
  · exact h
  · exact Keeps.repairDone (Keeps.modRange (Keeps.modChan (Keeps.copyTraffic (Keeps.copyTraffic (Keeps.foldl h _ (fun _ _ h0 => Keeps.loseUnit h0))))))

theorem Keeps.retirePage {fm : Nat} {r s : State} (h : Keeps fm r s)
    (hm : Sub 16448 fm := by exact Sub.of (by assumption) (by decide)) {u p} : Keeps fm r (State.retirePage s u p) := by
  unfold State.retirePage
  exact Keeps.setPoison (Keeps.setReg (Keeps.bump (Keeps.setReg (Keeps.modRange h))))

theorem Keeps.retireNext {fm : Nat} {r s : State} (h : Keeps fm r s)
    (hm : Sub 3686848 fm := by exact Sub.of (by assumption) (by decide)) {u w a} :
    Keeps fm r (State.retireNext s u w a) := by
  induction a generalizing s u w with
  | nil =>
    unfold State.retireNext
    exact Keeps.repairDone (Keeps.modRange h)
  | cons b l ih =>
    unfold State.retireNext
    split
    · exact ih (Keeps.retirePage h)
    · exact Keeps.modRange h

theorem Keeps.pageRemap {fm : Nat} {r s : State} (h : Keeps fm r s)
    (hm : Sub 3686848 fm := by exact Sub.of (by assumption) (by decide)) : Keeps fm r (State.pageRemap s) := by
  unfold State.pageRemap
  dsimp only
  refine Keeps.beginRepair h ?_
  intro y0 y1 y2 y3
  split
  · exact Keeps.repairDone y3
  · exact Keeps.retireNext (Keeps.setReg (Keeps.setRangeState y3))

theorem Keeps.execPageRemapComplete {fm : Nat} {r s : State} (h : Keeps fm r s)
    (hm : Sub 3686848 fm := by exact Sub.of (by assumption) (by decide)) {lost} :
    KeepsX fm r (execPageRemapComplete lost s) := by
  unfold Sys2Proof.Machine.execPageRemapComplete
  dsimp only
  refine Keeps.next ?_
  split
  · exact h
  · split
    · exact h
    · exact Keeps.retireNext (Keeps.copyTraffic (Keeps.retirePage (Keeps.copyTraffic (Keeps.chargeMove (Keeps.foldl (Keeps.foldl h _ (fun _ _ h0 => Keeps.loseUnit h0)) _ (fun _ _ h0 => Keeps.poisonUnit (Keeps.countLost h0)))))))

theorem Keeps.querySpares {fm : Nat} {r s : State} (h : Keeps fm r s)
    (hm : Sub 3686848 fm := by exact Sub.of (by assumption) (by decide)) : Keeps fm r (State.querySpares s) := by
  unfold State.querySpares
  refine Keeps.beginRepair h ?_
  intro y0 y1 y2 y3
  exact Keeps.repairDone (Keeps.setReg y3)

theorem Keeps.clearSuspect {fm : Nat} {r s : State} (h : Keeps fm r s)
    (hm : Sub 3686848 fm := by exact Sub.of (by assumption) (by decide)) : Keeps fm r (State.clearSuspect s) := by
  unfold State.clearSuspect
  dsimp only
  refine Keeps.beginRepair h ?_
  intro y0 y1 y2 y3
  exact Keeps.repairDone (Keeps.setReg y3)

theorem Keeps.planReflow {fm : Nat} {r s : State} (h : Keeps fm r s)
    (hm : Sub 16448 fm := by exact Sub.of (by assumption) (by decide)) : Keeps fm r (State.planReflow s) := by
  unfold State.planReflow
  dsimp only
  split
  · exact Keeps.setReg h
  · split
    · exact Keeps.setReg h
    · split
      · exact Keeps.setReg h
      · exact Keeps.setRangeState (Keeps.setReg (Keeps.setReg (Keeps.modRange h)))

theorem Keeps.startReflow {fm : Nat} {r s : State} (h : Keeps fm r s)
    (hm : Sub 16448 fm := by exact Sub.of (by assumption) (by decide)) : Keeps fm r (State.startReflow s) := by
  unfold State.startReflow
  dsimp only
  split
  · exact Keeps.setReg h
  · exact Keeps.setRangeState (Keeps.setReg (Keeps.setReg (Keeps.modRange h)))

theorem Keeps.cancelPlan {fm : Nat} {r s : State} (h : Keeps fm r s)
    (hm : Sub 16448 fm := by exact Sub.of (by assumption) (by decide)) : Keeps fm r (State.cancelPlan s) := by
  unfold State.cancelPlan
  dsimp only
  split
  · exact Keeps.setReg h
  · exact Keeps.setRangeState (Keeps.setReg (Keeps.modRange h))

theorem Keeps.reflowLost {fm : Nat} {r s : State} (h : Keeps fm r s)
    (hm : Sub 3686848 fm := by exact Sub.of (by assumption) (by decide)) {u off own} :
    Keeps fm r (Sys2Proof.Machine.State.reflowLost s u off own) := by
  unfold Sys2Proof.Machine.State.reflowLost
  dsimp only
  exact Keeps.memEvent (Keeps.bump (Keeps.poisonUnit (Keeps.countLost h)))

theorem Keeps.reflowUnit {fm : Nat} {r s : State} (h : Keeps fm r s)
    (hm : Sub 3686848 fm := by exact Sub.of (by assumption) (by decide)) {p u off lost} :
    Keeps fm r (Sys2Proof.Machine.State.reflowUnit s p u off lost) := by
  unfold Sys2Proof.Machine.State.reflowUnit
  dsimp only
  split
  · exact Keeps.dropWrite h
  · split
    · split
      · exact h
      · exact Keeps.reflowLost h
    · split
      · exact Keeps.reflowLost h
      · split
        · exact Keeps.reflowLost h
        · split
          · exact h
          · exact Keeps.putBytesAt h

theorem Keeps.parkUnit {fm : Nat} {r s : State} (h : Keeps fm r s)
    (hm : Sub 3686848 fm := by exact Sub.of (by assumption) (by decide)) {u off v o lost} :
    Keeps fm r (Sys2Proof.Machine.State.parkUnit s u off v o lost) := by
  unfold Sys2Proof.Machine.State.parkUnit
  dsimp only
  split
  · exact Keeps.writeUnit h
  · split
    · exact Keeps.setPoison (Keeps.poisonUnit (Keeps.countLost h))
    · exact Keeps.writeUnit h

theorem Keeps.parkPage {fm : Nat} {r s : State} (h : Keeps fm r s)
    (hm : Sub 3686848 fm := by exact Sub.of (by assumption) (by decide)) {u p f lost} :
    Keeps fm r (Sys2Proof.Machine.State.parkPage s u p f lost) := by
  unfold Sys2Proof.Machine.State.parkPage
  dsimp only
  refine Keeps.modRange ?_
  split
  · refine Keeps.chargeMove (Keeps.foldl (Keeps.copyTraffic h) _ ?_)
    intro x0 a0 h0
    split
    · exact Keeps.parkUnit h0
    · exact h0
  · refine Keeps.foldl (Keeps.copyTraffic h) _ ?_
    intro x0 a0 h0
    split
    · exact Keeps.parkUnit h0
    · exact h0

theorem Keeps.execReflowStep {fm : Nat} {r s : State} (h : Keeps fm r s)
    (hm : Sub 3686848 fm := by exact Sub.of (by assumption) (by decide)) {lost} : KeepsX fm r (execReflowStep lost s) := by
  unfold Sys2Proof.Machine.execReflowStep
  dsimp only
  refine Keeps.next ?_
  split
  · exact h
  · split
    · exact Keeps.parkPage h
    · split
      · exact h
      · exact Keeps.copyTraffic (Keeps.setReg (Keeps.modRange (Keeps.chargeMove (Keeps.foldl (Keeps.copyTraffic h) _ (fun _ _ h0 => Keeps.reflowUnit h0)))))

theorem Keeps.judgeRanges {fm : Nat} {r s : State} (h : Keeps fm r s)
    (hm : Sub 64 fm := by exact Sub.of (by assumption) (by decide)) : Keeps fm r (State.judgeRanges s) := by
  unfold State.judgeRanges
  exact Keeps.setCause h

theorem Keeps.installPlan {fm : Nat} {r s : State} (h : Keeps fm r s)
    (hm : Sub 16448 fm := by exact Sub.of (by assumption) (by decide)) {u p} :
    Keeps fm r (Sys2Proof.Machine.State.installPlan s u p) := by
  unfold Sys2Proof.Machine.State.installPlan
  dsimp only
  exact Keeps.setPoison (Keeps.setReg (Keeps.setReg (Keeps.setReg (Keeps.setReg (Keeps.setReg (Keeps.modRange h))))))

theorem Keeps.execReflowDone {fm : Nat} {r s : State} (h : Keeps fm r s)
    (hm : Sub 3686848 fm := by exact Sub.of (by assumption) (by decide)) : KeepsX fm r (execReflowDone s) := by
  unfold Sys2Proof.Machine.execReflowDone
  refine Keeps.next ?_
  split
  · exact h
  · split
    · exact h
    · exact Keeps.memEvent (Keeps.judgeRanges (Keeps.setRangeState (Keeps.setReg (Keeps.setReg (Keeps.installPlan h)))))

theorem Keeps.portShift {fm : Nat} {r s : State} (h : Keeps fm r s)
    (hm : Sub 16576 fm := by exact Sub.of (by assumption) (by decide)) {out} : Keeps fm r (State.portShift s out) := by
  unfold State.portShift
  dsimp only
  exact Keeps.setReg (Keeps.setBlob (Keeps.update h))

end Sys2Proof.Machine
end

