-- ==== Sys2Proof/Laws/Keeps/Fabric.lean ====
section
/-! SUPPORT. What the operations of Machine/Fabric.lean keep. -/

set_option Elab.async false

namespace Sys2Proof.Machine

theorem Keeps.setLink {fm : Nat} {r s : State} (h : Keeps fm r s)
    (hm : Sub 131072 fm := by exact Sub.of (by assumption) (by decide)) {e l} : Keeps fm r (State.setLink s e l) := by
  unfold State.setLink
  exact Keeps.update h

theorem Keeps.modLink {fm : Nat} {r s : State} (h : Keeps fm r s)
    (hm : Sub 131072 fm := by exact Sub.of (by assumption) (by decide)) {e f} : Keeps fm r (State.modLink s e f) := by
  unfold State.modLink
  exact Keeps.setLink h

theorem Keeps.setEng {fm : Nat} {r s : State} (h : Keeps fm r s)
    (hm : Sub 64 fm := by exact Sub.of (by assumption) (by decide)) {e sub v} : Keeps fm r (State.setEng s e sub v) := by
  unfold State.setEng
  exact Keeps.setReg h

theorem Keeps.laneEvent {fm : Nat} {r s : State} (h : Keeps fm r s)
    (hm : Sub 3670464 fm := by exact Sub.of (by assumption) (by decide)) {cause e lane inj} :
    Keeps fm r (State.laneEvent s cause e lane inj) := by
  unfold State.laneEvent
  exact Keeps.raise h

theorem Keeps.transmit {fm : Nat} {r s : State} (h : Keeps fm r s)
    (hm : Sub 131136 fm := by exact Sub.of (by assumption) (by decide)) {e vc o} : Keeps fm r (State.transmit s e vc o) := by
  unfold State.transmit
  dsimp only
  split
  · exact Keeps.update (Keeps.bump (Keeps.update (Keeps.setLink h)))
  · exact Keeps.bump (Keeps.update (Keeps.setLink h))

theorem Keeps.pumpList {fm : Nat} {r s : State} (h : Keeps fm r s)
    (hm : Sub 131136 fm := by exact Sub.of (by assumption) (by decide)) {kept a} :
    KeepsP fm r (State.pumpList s kept a) := by
  induction a generalizing s kept with
  | nil =>
    unfold State.pumpList
    exact Keeps.pair h
  | cons b l ih =>
    unfold State.pumpList
    split
    · exact ih (Keeps.transmit h)
    · exact ih h

theorem Keeps.pumpTurns (n : Nat) {fm : Nat} {r s : State} (h : Keeps fm r s)
    (hm : Sub 131136 fm := by exact Sub.of (by assumption) (by decide)) {l} : KeepsP fm r (State.pumpTurns n s l) := by
  induction n generalizing s l with
  | zero => exact Keeps.pair h
  | succ n ih =>
    unfold State.pumpTurns
    split
    · exact Keeps.pair h
    · exact ih (Keeps.transmit (Keeps.modLink h))

theorem Keeps.pump {fm : Nat} {r s : State} (h : Keeps fm r s)
    (hm : Sub 131136 fm := by exact Sub.of (by assumption) (by decide)) : Keeps fm r (State.pump s) := by
  unfold State.pump
  exact Keeps.update (Keeps.fst (Keeps.pumpTurns _ (Keeps.fst (Keeps.pumpList h))))

theorem Keeps.send {fm : Nat} {r s : State} (h : Keeps fm r s)
    (hm : Sub 131136 fm := by exact Sub.of (by assumption) (by decide)) {m use} : Keeps fm r (State.send s m use) := by
  unfold State.send
  dsimp only
  refine Keeps.pump ?_
  split
  · split
    · exact Keeps.bump (Keeps.update h)
    · exact Keeps.update h
  · split
    · exact Keeps.bump (Keeps.update h)
    · exact Keeps.update h

theorem Keeps.answered {fm : Nat} {r s : State} (h : Keeps fm r s)
    (hm : Sub 131072 fm := by exact Sub.of (by assumption) (by decide)) {m} : KeepsP fm r (State.answered s m) := by
  unfold State.answered
  dsimp only
  split
  · exact Keeps.pair (Keeps.update h)
  · exact Keeps.pair h

theorem Keeps.releaseHolds {fm : Nat} {r s : State} (h : Keeps fm r s)
    (hm : Sub 131136 fm := by exact Sub.of (by assumption) (by decide)) : Keeps fm r (State.releaseHolds s) := by
  unfold State.releaseHolds
  dsimp only
  split
  · exact h
  · exact Keeps.pump (Keeps.bump (Keeps.update h))

theorem Keeps.newOrdered {fm : Nat} {r s : State} (h : Keeps fm r s)
    (hm : Sub 131072 fm := by exact Sub.of (by assumption) (by decide)) {t} : Keeps fm r (State.newOrdered s t) := by
  unfold State.newOrdered
  exact Keeps.update h

theorem Keeps.routesChanged {fm : Nat} {r s : State} (h : Keeps fm r s)
    (hm : Sub 131136 fm := by exact Sub.of (by assumption) (by decide)) {old trunks} :
    Keeps fm r (State.routesChanged s old trunks) := by
  unfold State.routesChanged
  dsimp only
  exact Keeps.releaseHolds (Keeps.bump (Keeps.update (Keeps.foldl h _ (fun _ _ h0 => Keeps.newOrdered h0))))

theorem Keeps.writeRoutes {fm : Nat} {r s : State} (h : Keeps fm r s)
    (hm : Sub 128 fm := by exact Sub.of (by assumption) (by decide)) {offset bytes} :
    Keeps fm r (State.writeRoutes s offset bytes) := by
  unfold State.writeRoutes
  exact Keeps.setBlob h

theorem Keeps.judgeLinks {fm : Nat} {r s : State} (h : Keeps fm r s)
    (hm : Sub 64 fm := by exact Sub.of (by assumption) (by decide)) : Keeps fm r (State.judgeLinks s) := by
  unfold State.judgeLinks
  exact Keeps.setCause h

theorem Keeps.loseHeld {fm : Nat} {r s : State} (h : Keeps fm r s)
    (hm : Sub 131136 fm := by exact Sub.of (by assumption) (by decide)) {e} :
    Keeps fm r (Sys2Proof.Machine.State.loseHeld s e) := by
  unfold Sys2Proof.Machine.State.loseHeld
  dsimp only
  exact Keeps.foldl (Keeps.update (Keeps.modLink h)) _ (fun _ _ h0 => Keeps.bump h0)

theorem Keeps.lapse {fm : Nat} {r s : State} (h : Keeps fm r s)
    (hm : Sub 131072 fm := by exact Sub.of (by assumption) (by decide)) {e} :
    Keeps fm r (Sys2Proof.Machine.State.lapse s e) := by
  unfold Sys2Proof.Machine.State.lapse
  dsimp only
  exact Keeps.update h

theorem Keeps.report {fm : Nat} {r s : State} (h : Keeps fm r s)
    (hm : Sub 131072 fm := by exact Sub.of (by assumption) (by decide)) {e} :
    Keeps fm r (Sys2Proof.Machine.State.report s e) := by
  unfold Sys2Proof.Machine.State.report
  dsimp only
  exact Keeps.update h

theorem Keeps.linkDrop {fm : Nat} {r s : State} (h : Keeps fm r s)
    (hm : Sub 131136 fm := by exact Sub.of (by assumption) (by decide)) {e} : Keeps fm r (State.linkDrop s e) := by
  unfold State.linkDrop
  dsimp only
  split
  · exact h
  · split
    · exact Keeps.modLink (Keeps.setEng h)
    · split
      · exact Keeps.pump (Keeps.report (Keeps.modLink (Keeps.lapse (Keeps.modLink (Keeps.setEng h)))))
      · exact Keeps.update (Keeps.foldl (Keeps.modLink (Keeps.lapse (Keeps.modLink (Keeps.setEng h)))) _ (fun _ _ h0 => Keeps.loseHeld h0))

theorem Keeps.linkDown {fm : Nat} {r s : State} (h : Keeps fm r s)
    (hm : Sub 3801536 fm := by exact Sub.of (by assumption) (by decide)) {e inj} :
    Keeps fm r (Sys2Proof.Machine.State.linkDown s e inj) := by
  unfold Sys2Proof.Machine.State.linkDown
  split
  · exact Keeps.laneEvent (Keeps.bump (Keeps.linkDrop h))
  · exact Keeps.linkDrop h

theorem Keeps.startTraining {fm : Nat} {r s : State} (h : Keeps fm r s)
    (hm : Sub 64 fm := by exact Sub.of (by assumption) (by decide)) {e} : Keeps fm r (State.startTraining s e) := by
  unfold State.startTraining
  split
  · exact Keeps.setEng h
  · exact h

theorem Keeps.execLinkRetrain {fm : Nat} {r s : State} (h : Keeps fm r s)
    (hm : Sub 64 fm := by exact Sub.of (by assumption) (by decide)) {e} : KeepsX fm r (execLinkRetrain e s) := by
  unfold Sys2Proof.Machine.execLinkRetrain
  refine Keeps.next ?_
  split
  · exact Keeps.startTraining h
  · exact h

theorem Keeps.mapLanes {fm : Nat} {r s : State} (h : Keeps fm r s)
    (hm : Sub 64 fm := by exact Sub.of (by assumption) (by decide)) {e} :
    Keeps fm r (Sys2Proof.Machine.State.mapLanes s e) := by
  unfold Sys2Proof.Machine.State.mapLanes
  exact Keeps.setEng h

theorem Keeps.freshLink {fm : Nat} {r s : State} (h : Keeps fm r s)
    (hm : Sub 131072 fm := by exact Sub.of (by assumption) (by decide)) {e} :
    Keeps fm r (Sys2Proof.Machine.State.freshLink s e) := by
  unfold Sys2Proof.Machine.State.freshLink
  dsimp only
  exact Keeps.setLink h

theorem Keeps.execLinkUp {fm : Nat} {r s : State} (h : Keeps fm r s)
    (hm : Sub 3801540 fm := by exact Sub.of (by assumption) (by decide)) {e peer lanesOk} :
    KeepsX fm r (execLinkUp e peer lanesOk s) := by
  unfold Sys2Proof.Machine.execLinkUp
  dsimp only
  refine Keeps.next ?_
  split
  · exact h
  · split
    · exact Keeps.laneEvent (Keeps.modLink (Keeps.setEng (Keeps.setEng h)))
    · refine Keeps.pump (Keeps.judgeLinks (Keeps.update (Keeps.setEng (Keeps.mapLanes (Keeps.setEng (Keeps.setEng (Keeps.freshLink ?_)))))))
      split
      · exact h
      · exact Keeps.loseHeld h

theorem Keeps.writeLinkEnable {fm : Nat} {r s : State} (h : Keeps fm r s)
    (hm : Sub 3801536 fm := by exact Sub.of (by assumption) (by decide)) {v} : Keeps fm r (State.writeLinkEnable s v) := by
  unfold State.writeLinkEnable
  dsimp only
  refine Keeps.judgeLinks (Keeps.foldl (Keeps.setReg h) _ ?_)
  intro x0 a0 h0
  split
  · split
    · exact h0
    · exact Keeps.startTraining (Keeps.update h0)
  · refine Keeps.update ?_
    split
    · exact Keeps.linkDown h0
    · exact h0

theorem Keeps.execLinkUpTimeout {fm : Nat} {r s : State} (h : Keeps fm r s)
    (hm : Sub 131136 fm := by exact Sub.of (by assumption) (by decide)) {e} : KeepsX fm r (execLinkUpTimeout e s) := by
  unfold Sys2Proof.Machine.execLinkUpTimeout
  dsimp only
  refine Keeps.next ?_
  split
  · exact Keeps.judgeLinks (Keeps.update h)
  · exact h

theorem Keeps.takeReport {fm : Nat} {r s : State} (h : Keeps fm r s)
    (hm : Sub 131072 fm := by exact Sub.of (by assumption) (by decide)) {e seq} :
    Keeps fm r (Sys2Proof.Machine.State.takeReport s e seq) := by
  unfold Sys2Proof.Machine.State.takeReport
  split
  · exact Keeps.update h
  · exact h

theorem Keeps.execLinkReport {fm : Nat} {r s : State} (h : Keeps fm r s)
    (hm : Sub 3801536 fm := by exact Sub.of (by assumption) (by decide)) {e seq} : KeepsX fm r (execLinkReport e seq s) := by
  unfold Sys2Proof.Machine.execLinkReport
  dsimp only
  refine Keeps.next (Keeps.pump ?_)
  split
  · split
    · exact Keeps.laneEvent (Keeps.update (Keeps.modLink (Keeps.linkDown (Keeps.takeReport h))))
    · exact Keeps.update (Keeps.modLink (Keeps.linkDown (Keeps.takeReport h)))
  · split
    · exact Keeps.laneEvent (Keeps.update (Keeps.modLink (Keeps.takeReport h)))
    · exact Keeps.update (Keeps.modLink (Keeps.takeReport h))

theorem Keeps.sendCtl {fm : Nat} {r s : State} (h : Keeps fm r s)
    (hm : Sub 131072 fm := by exact Sub.of (by assumption) (by decide)) {e nak ack} :
    Keeps fm r (State.sendCtl s e nak ack) := by
  unfold State.sendCtl
  exact Keeps.modLink h

theorem Keeps.takeMsg {fm : Nat} {r s : State} (h : Keeps fm r s)
    (hm : Sub 131136 fm := by exact Sub.of (by assumption) (by decide)) {e vc m} : Keeps fm r (State.takeMsg s e vc m) := by
  unfold State.takeMsg
  dsimp only
  split
  · exact Keeps.update (Keeps.bump h)
  · exact Keeps.update h

theorem Keeps.crcEvent {fm : Nat} {r s : State} (h : Keeps fm r s)
    (hm : Sub 3670464 fm := by exact Sub.of (by assumption) (by decide)) {cause e lane inj} :
    Keeps fm r (State.crcEvent s cause e lane inj) := by
  unfold State.crcEvent
  exact Keeps.raise h

theorem Keeps.refuseFlit {fm : Nat} {r s : State} (h : Keeps fm r s)
    (hm : Sub 131072 fm := by exact Sub.of (by assumption) (by decide)) {e} : Keeps fm r (State.refuseFlit s e) := by
  unfold State.refuseFlit
  split
  · exact h
  · exact Keeps.modLink (Keeps.sendCtl h)

theorem Keeps.deadLane {fm : Nat} {r s : State} (h : Keeps fm r s)
    (hm : Sub 3801536 fm := by exact Sub.of (by assumption) (by decide)) {e l} :
    Keeps fm r (Sys2Proof.Machine.State.deadLane s e l) := by
  unfold Sys2Proof.Machine.State.deadLane
  dsimp only
  split
  · exact Keeps.linkDown h
  · exact Keeps.sendCtl (Keeps.modLink (Keeps.update h))

theorem Keeps.injectLane {fm : Nat} {r s : State} (h : Keeps fm r s)
    (hm : Sub 3801536 fm := by exact Sub.of (by assumption) (by decide)) {e} :
    Keeps fm r (Sys2Proof.Machine.State.injectLane s e) := by
  unfold Sys2Proof.Machine.State.injectLane
  split
  · split
    · exact h
    · exact Keeps.deadLane (Keeps.consume h)
  · exact h

theorem Keeps.setLaneRx {fm : Nat} {r s : State} (h : Keeps fm r s)
    (hm : Sub 131072 fm := by exact Sub.of (by assumption) (by decide)) {e p x} :
    Keeps fm r (Sys2Proof.Machine.State.setLaneRx s e p x) := by
  unfold Sys2Proof.Machine.State.setLaneRx
  exact Keeps.modLink h

theorem Keeps.failLane {fm : Nat} {r s : State} (h : Keeps fm r s)
    (hm : Sub 3801536 fm := by exact Sub.of (by assumption) (by decide)) {e lane} :
    Keeps fm r (Sys2Proof.Machine.State.failLane s e lane) := by
  unfold Sys2Proof.Machine.State.failLane
  dsimp only
  split
  · exact h
  · split
    · split
      · exact Keeps.setLaneRx (Keeps.setEng h)
      · split
        · exact Keeps.linkDown (Keeps.setLaneRx (Keeps.setEng h))
        · exact Keeps.laneEvent (Keeps.setLaneRx (Keeps.setEng h))
    · split
      · exact Keeps.sendCtl (Keeps.modLink (Keeps.setLaneRx (Keeps.setEng h)))
      · exact Keeps.linkDown (Keeps.setLaneRx (Keeps.setEng h))

theorem Keeps.takeCodeword {fm : Nat} {r s : State} (h : Keeps fm r s)
    (hm : Sub 3801536 fm := by exact Sub.of (by assumption) (by decide)) {e w} :
    Keeps fm r (Sys2Proof.Machine.State.takeCodeword s e w) := by
  unfold Sys2Proof.Machine.State.takeCodeword
  dsimp only
  split
  · exact h
  · split
    · split
      · split
        · split
          · split
            · exact Keeps.failLane (Keeps.crcEvent (Keeps.setEng (Keeps.setLaneRx (Keeps.consume h))))
            · exact Keeps.crcEvent (Keeps.setEng (Keeps.setLaneRx (Keeps.consume h)))
          · split
            · exact Keeps.failLane (Keeps.crcEvent (Keeps.setEng (Keeps.setLaneRx (Keeps.consume h))))
            · exact Keeps.crcEvent (Keeps.setEng (Keeps.setLaneRx (Keeps.consume h)))
        · split
          · split
            · exact Keeps.failLane (Keeps.crcEvent (Keeps.setEng (Keeps.setLaneRx (Keeps.consume h))))
            · exact Keeps.crcEvent (Keeps.setEng (Keeps.setLaneRx (Keeps.consume h)))
          · split
            · exact Keeps.failLane (Keeps.crcEvent (Keeps.setEng (Keeps.setLaneRx (Keeps.consume h))))
            · exact Keeps.crcEvent (Keeps.setEng (Keeps.setLaneRx (Keeps.consume h)))
      · split
        · split
          · split
            · exact Keeps.failLane (Keeps.setLaneRx (Keeps.setEng (Keeps.consume h)))
            · exact Keeps.setLaneRx (Keeps.setEng (Keeps.consume h))
          · split
            · exact Keeps.failLane (Keeps.setLaneRx (Keeps.setEng (Keeps.consume h)))
            · exact Keeps.setLaneRx (Keeps.setEng (Keeps.consume h))
        · split
          · split
            · exact Keeps.failLane (Keeps.setLaneRx (Keeps.setEng (Keeps.consume h)))
            · exact Keeps.setLaneRx (Keeps.setEng (Keeps.consume h))
          · split
            · exact Keeps.failLane (Keeps.setLaneRx (Keeps.setEng (Keeps.consume h)))
            · exact Keeps.setLaneRx (Keeps.setEng (Keeps.consume h))
    · split
      · split
        · split
          · split
            · exact Keeps.failLane (Keeps.crcEvent (Keeps.setEng (Keeps.setLaneRx h)))
            · exact Keeps.crcEvent (Keeps.setEng (Keeps.setLaneRx h))
          · split
            · exact Keeps.failLane (Keeps.crcEvent (Keeps.setEng (Keeps.setLaneRx h)))
            · exact Keeps.crcEvent (Keeps.setEng (Keeps.setLaneRx h))
        · split
          · split
            · exact Keeps.failLane (Keeps.crcEvent (Keeps.setEng (Keeps.setLaneRx h)))
            · exact Keeps.crcEvent (Keeps.setEng (Keeps.setLaneRx h))
          · split
            · exact Keeps.failLane (Keeps.crcEvent (Keeps.setEng (Keeps.setLaneRx h)))
            · exact Keeps.crcEvent (Keeps.setEng (Keeps.setLaneRx h))
      · split
        · split
          · split
            · exact Keeps.failLane (Keeps.setLaneRx (Keeps.setEng h))
            · exact Keeps.setLaneRx (Keeps.setEng h)
          · split
            · exact Keeps.failLane (Keeps.setLaneRx (Keeps.setEng h))
            · exact Keeps.setLaneRx (Keeps.setEng h)
        · split
          · split
            · exact Keeps.failLane (Keeps.setLaneRx (Keeps.setEng h))
            · exact Keeps.setLaneRx (Keeps.setEng h)
          · split
            · exact Keeps.failLane (Keeps.setLaneRx (Keeps.setEng h))
            · exact Keeps.setLaneRx (Keeps.setEng h)

theorem Keeps.badFlit {fm : Nat} {r s : State} (h : Keeps fm r s)
    (hm : Sub 3801536 fm := by exact Sub.of (by assumption) (by decide)) {e} :
    Keeps fm r (Sys2Proof.Machine.State.badFlit s e) := by
  unfold Sys2Proof.Machine.State.badFlit
  exact Keeps.refuseFlit (Keeps.crcEvent (Keeps.bump h))

theorem Keeps.replay {fm : Nat} {r s : State} (h : Keeps fm r s)
    (hm : Sub 3801536 fm := by exact Sub.of (by assumption) (by decide)) {e} : Keeps fm r (State.replay s e) := by
  unfold State.replay
  dsimp only
  split
  · exact Keeps.linkDown (Keeps.modLink (Keeps.setEng (Keeps.bump h)))
  · exact Keeps.modLink (Keeps.setEng (Keeps.bump h))

theorem Keeps.readHeader {fm : Nat} {r s : State} (h : Keeps fm r s)
    (hm : Sub 131072 fm := by exact Sub.of (by assumption) (by decide)) {e y2} :
    Keeps fm r (Sys2Proof.Machine.State.readHeader s e y2) := by
  unfold Sys2Proof.Machine.State.readHeader
  dsimp only
  exact Keeps.modLink h

theorem Keeps.takeHeader {fm : Nat} {r s : State} (h : Keeps fm r s)
    (hm : Sub 3801536 fm := by exact Sub.of (by assumption) (by decide)) {e y2} :
    Keeps fm r (Sys2Proof.Machine.State.takeHeader s e y2) := by
  unfold Sys2Proof.Machine.State.takeHeader
  dsimp only
  split
  · exact Keeps.replay (Keeps.readHeader h)
  · exact Keeps.readHeader h

theorem Keeps.execDataFlit {fm : Nat} {r s : State} (h : Keeps fm r s)
    (hm : Sub 3801536 fm := by exact Sub.of (by assumption) (by decide)) {e f} : KeepsX fm r (execDataFlit e f s) := by
  unfold Sys2Proof.Machine.execDataFlit
  dsimp only
  refine Keeps.next ?_
  split
  · exact h
  · split
    · exact Keeps.foldl (Keeps.injectLane h) _ (fun _ _ h0 => Keeps.takeCodeword h0)
    · split
      · exact Keeps.badFlit (Keeps.foldl (Keeps.injectLane h) _ (fun _ _ h0 => Keeps.takeCodeword h0))
      · split
        · exact Keeps.refuseFlit (Keeps.foldl (Keeps.injectLane h) _ (fun _ _ h0 => Keeps.takeCodeword h0))
        · refine Keeps.pump (Keeps.takeHeader ?_)
          split
          · exact Keeps.sendCtl (Keeps.foldl (Keeps.modLink (Keeps.foldl (Keeps.injectLane h) _ (fun _ _ h0 => Keeps.takeCodeword h0))) _ (fun _ _ h0 => Keeps.takeMsg h0))
          · exact Keeps.foldl (Keeps.modLink (Keeps.foldl (Keeps.injectLane h) _ (fun _ _ h0 => Keeps.takeCodeword h0))) _ (fun _ _ h0 => Keeps.takeMsg h0)

theorem Keeps.execControlFlit {fm : Nat} {r s : State} (h : Keeps fm r s)
    (hm : Sub 3801536 fm := by exact Sub.of (by assumption) (by decide)) {e f} : KeepsX fm r (execControlFlit e f s) := by
  unfold Sys2Proof.Machine.execControlFlit
  dsimp only
  refine Keeps.next ?_
  split
  · split
    · exact Keeps.foldl h _ (fun _ _ h0 => Keeps.takeCodeword h0)
    · split
      · exact Keeps.badFlit (Keeps.foldl h _ (fun _ _ h0 => Keeps.takeCodeword h0))
      · exact Keeps.pump (Keeps.takeHeader (Keeps.foldl h _ (fun _ _ h0 => Keeps.takeCodeword h0)))
  · split
    · exact h
    · split
      · exact Keeps.badFlit h
      · exact Keeps.pump (Keeps.takeHeader h)

theorem Keeps.execReplayTimeout {fm : Nat} {r s : State} (h : Keeps fm r s)
    (hm : Sub 3801536 fm := by exact Sub.of (by assumption) (by decide)) {e} : KeepsX fm r (execReplayTimeout e s) := by
  unfold Sys2Proof.Machine.execReplayTimeout
  dsimp only
  refine Keeps.next ?_
  split
  · exact Keeps.replay h
  · exact h

theorem Keeps.execAckTimer {fm : Nat} {r s : State} (h : Keeps fm r s)
    (hm : Sub 131072 fm := by exact Sub.of (by assumption) (by decide)) {e} : KeepsX fm r (execAckTimer e s) := by
  unfold Sys2Proof.Machine.execAckTimer
  refine Keeps.next ?_
  split
  · exact Keeps.sendCtl h
  · exact h

theorem Keeps.execAckProgressTimeout {fm : Nat} {r s : State} (h : Keeps fm r s)
    (hm : Sub 3801536 fm := by exact Sub.of (by assumption) (by decide)) {e} : KeepsX fm r (execAckProgressTimeout e s) := by
  unfold Sys2Proof.Machine.execAckProgressTimeout
  dsimp only
  refine Keeps.next ?_
  split
  · exact Keeps.linkDown h
  · exact h

theorem Keeps.setLane {fm : Nat} {r s : State} (h : Keeps fm r s)
    (hm : Sub 64 fm := by exact Sub.of (by assumption) (by decide)) {e dir l phys} :
    Keeps fm r (State.setLane s e dir l phys) := by
  unfold State.setLane
  exact Keeps.setEng h

theorem Keeps.execLaneFail {fm : Nat} {r s : State} (h : Keeps fm r s)
    (hm : Sub 3801536 fm := by exact Sub.of (by assumption) (by decide)) {e lane} : KeepsX fm r (execLaneFail e lane s) := by
  unfold Sys2Proof.Machine.execLaneFail
  exact Keeps.next (Keeps.failLane h)

theorem Keeps.execSpareSwitch {fm : Nat} {r s : State} (h : Keeps fm r s)
    (hm : Sub 3801536 fm := by exact Sub.of (by assumption) (by decide)) {e tx} : KeepsX fm r (execSpareSwitch e tx s) := by
  unfold Sys2Proof.Machine.execSpareSwitch
  dsimp only
  refine Keeps.next ?_
  split
  · exact h
  · refine Keeps.laneEvent (Keeps.bump ?_)
    split
    · exact Keeps.setEng (Keeps.modLink (Keeps.setLane h))
    · exact Keeps.sendCtl (Keeps.modLink (Keeps.setLane h))

theorem Keeps.execInjectedLaneReturn {fm : Nat} {r s : State} (h : Keeps fm r s)
    (hm : Sub 2228288 fm := by exact Sub.of (by assumption) (by decide)) {e lane} :
    KeepsX fm r (execInjectedLaneReturn e lane s) := by
  unfold Sys2Proof.Machine.execInjectedLaneReturn
  dsimp only
  refine Keeps.next ?_
  split
  · exact h
  · split
    · exact Keeps.update h
    · exact Keeps.sendCtl (Keeps.modLink (Keeps.setLane (Keeps.update h)))

theorem Keeps.sendBytes {fm : Nat} {r s : State} (h : Keeps fm r s)
    (hm : Sub 131136 fm := by exact Sub.of (by assumption) (by decide)) {k a n data} :
    Keeps fm r (Sys2Proof.Machine.State.sendBytes s k a n data) := by
  unfold Sys2Proof.Machine.State.sendBytes
  dsimp only
  exact Keeps.foldl h _ (fun _ _ h0 => Keeps.send h0)

theorem Keeps.useFetch {fm : Nat} {r s : State} (h : Keeps fm r s)
    (hm : Sub 131072 fm := by exact Sub.of (by assumption) (by decide)) {a n} :
    KeepsP fm r (Sys2Proof.Machine.State.useFetch s a n) := by
  unfold Sys2Proof.Machine.State.useFetch
  dsimp only
  split
  · exact Keeps.pair (Keeps.update h)
  · exact Keeps.pair (Keeps.update h)

theorem Keeps.peekAsk {fm : Nat} {r s : State} (h : Keeps fm r s)
    (hm : Sub 131072 fm := by exact Sub.of (by assumption) (by decide)) {a n} :
    Keeps fm r (Sys2Proof.Machine.State.peekAsk s a n) := by
  unfold Sys2Proof.Machine.State.peekAsk
  split
  · exact Keeps.fst (Keeps.useFetch h)
  · exact h

theorem Keeps.askBytes {fm : Nat} {r s : State} (h : Keeps fm r s)
    (hm : Sub 131136 fm := by exact Sub.of (by assumption) (by decide)) {a n} :
    Keeps fm r (Sys2Proof.Machine.State.askBytes s a n) := by
  unfold Sys2Proof.Machine.State.askBytes
  dsimp only
  split
  · exact Keeps.foldl (Keeps.update h) _ (fun _ _ h0 => Keeps.send h0)
  · exact h

/-- What a run that waits for bytes keeps, the run itself keeps. -/
theorem Keeps.whenFetched {fm : Nat} {r s : State} (h : Keeps fm r s) {run : State → State}
    (hr : ∀ x, Keeps fm r x → Keeps fm r (run x)) (hm : Sub 131136 fm := by exact Sub.of (by assumption) (by decide)) :
    Keeps fm r (s.whenFetched run) := by
  unfold State.whenFetched
  dsimp only
  split
  · exact Keeps.foldl h _ (fun _ _ h0 => Keeps.askBytes h0)
  · split
    · exact Keeps.update (hr _ h)
    · exact hr _ h

theorem Keeps.fetchPart {fm : Nat} {r s : State} (h : Keeps fm r s)
    (hm : Sub 131072 fm := by exact Sub.of (by assumption) (by decide)) {a n i status bs} :
    Keeps fm r (Sys2Proof.Machine.State.fetchPart s a n i status bs) := by
  unfold Sys2Proof.Machine.State.fetchPart
  dsimp only
  exact Keeps.update h

theorem Keeps.readMem {fm : Nat} {r s : State} (h : Keeps fm r s)
    (hm : Sub 3817920 fm := by exact Sub.of (by assumption) (by decide)) {acct part a n narrow lost} :
    KeepsP fm r (Sys2Proof.Machine.State.readMem s acct part a n narrow lost) := by
  unfold Sys2Proof.Machine.State.readMem
  dsimp only
  split
  · exact Keeps.pair (Keeps.unmapped h)
  · split
    · exact Keeps.pair (Keeps.requestRead (Keeps.fst (Keeps.judgeUnits (Keeps.charge h))))
    · split
      · exact Keeps.pair (Keeps.charge h)
      · exact Keeps.pair (Keeps.charge h)
    · split
      · exact Keeps.pair (Keeps.ofPair (by assumption) (Keeps.useFetch (Keeps.charge h)))
      · exact Keeps.pair (Keeps.ofPair (by assumption) (Keeps.useFetch (Keeps.charge h)))
      · exact Keeps.pair (Keeps.ofPair (by assumption) (Keeps.useFetch (Keeps.charge h)))
    · exact Keeps.pair (Keeps.charge h)

theorem Keeps.writeMem {fm : Nat} {r s : State} (h : Keeps fm r s)
    (hm : Sub 147904 fm := by exact Sub.of (by assumption) (by decide)) {acct part a bs} :
    KeepsP fm r (Sys2Proof.Machine.State.writeMem s acct part a bs) := by
  unfold Sys2Proof.Machine.State.writeMem
  dsimp only
  split
  · exact Keeps.pair (Keeps.unmapped h)
  · split
    · exact Keeps.pair (Keeps.writeRange (Keeps.charge h))
    · exact Keeps.pair (Keeps.putBytesAt (Keeps.charge h))
    · exact Keeps.pair (Keeps.sendBytes (Keeps.charge h))
    · exact Keeps.pair (Keeps.charge h)

end Sys2Proof.Machine
end

