-- ==== Sys2Proof/Laws/Keeps/Sluice.lean ====
section
/-! SUPPORT. What the operations of Machine/Sluice.lean keep. -/

set_option Elab.async false

namespace Sys2Proof.Machine

theorem Keeps.setPin {fm : Nat} {r s : State} (h : Keeps fm r s)
    (hm : Sub 32768 fm := by exact Sub.of (by assumption) (by decide)) {die slot p} :
    Keeps fm r (State.setPin s die slot p) := by
  unfold State.setPin
  exact Keeps.update h

theorem Keeps.letGo {fm : Nat} {r s : State} (h : Keeps fm r s)
    (hm : Sub 32768 fm := by exact Sub.of (by assumption) (by decide)) {f} :
    Keeps fm r (Sys2Proof.Machine.State.letGo s f) := by
  unfold Sys2Proof.Machine.State.letGo
  dsimp only
  exact Keeps.update h

theorem Keeps.prune {fm : Nat} {r s : State} (h : Keeps fm r s)
    (hm : Sub 65536 fm := by exact Sub.of (by assumption) (by decide)) : Keeps fm r (State.prune s) := by
  unfold State.prune
  exact Keeps.update h

theorem Keeps.modGroup {fm : Nat} {r s : State} (h : Keeps fm r s)
    (hm : Sub 32768 fm := by exact Sub.of (by assumption) (by decide)) {g f} : Keeps fm r (State.modGroup s g f) := by
  unfold State.modGroup
  exact Keeps.update h

theorem Keeps.beginGroup {fm : Nat} {r s : State} (h : Keeps fm r s)
    (hm : Sub 32768 fm := by exact Sub.of (by assumption) (by decide)) {i die part after} :
    KeepsP fm r (State.beginGroup s i die part after) := by
  unfold State.beginGroup
  exact Keeps.pair (Keeps.update h)

theorem Keeps.jobGroup {fm : Nat} {r s : State} (h : Keeps fm r s)
    (hm : Sub 32768 fm := by exact Sub.of (by assumption) (by decide)) {job slot die part} :
    KeepsP fm r (State.jobGroup s job slot die part) := by
  unfold State.jobGroup
  split
  · exact Keeps.pair h
  · exact Keeps.beginGroup h

theorem Keeps.failGroup {fm : Nat} {r s : State} (h : Keeps fm r s)
    (hm : Sub 32832 fm := by exact Sub.of (by assumption) (by decide)) {g} : Keeps fm r (State.failGroup s g) := by
  unfold State.failGroup
  split
  · split
    · exact h
    · exact Keeps.bump (Keeps.modGroup h)
  · exact h

theorem Keeps.addItem {fm : Nat} {r s : State} (h : Keeps fm r s)
    (hm : Sub 32832 fm := by exact Sub.of (by assumption) (by decide)) {g i} : Keeps fm r (State.addItem s g i) := by
  unfold State.addItem
  dsimp only
  split
  · exact Keeps.modGroup h
  · exact Keeps.failGroup h

theorem Keeps.putStaged {fm : Nat} {r s : State} (h : Keeps fm r s)
    (hm : Sub 32768 fm := by exact Sub.of (by assumption) (by decide)) {w} : Keeps fm r (State.putStaged s w) := by
  unfold State.putStaged
  exact Keeps.foldl (Keeps.foldl h _ (fun _ _ h0 => Keeps.update h0)) _ (fun _ _ h0 => Keeps.update h0)

theorem Keeps.noteFull {fm : Nat} {r s : State} (h : Keeps fm r s)
    (hm : Sub 3703232 fm := by exact Sub.of (by assumption) (by decide)) {d inj} :
    Keeps fm r (Sys2Proof.Machine.State.noteFull s d inj) := by
  unfold Sys2Proof.Machine.State.noteFull
  dsimp only
  split
  · exact Keeps.raise (Keeps.update (Keeps.bump h))
  · exact Keeps.bump h

theorem Keeps.loseParts {fm : Nat} {r s : State} (h : Keeps fm r s)
    (hm : Sub 32768 fm := by exact Sub.of (by assumption) (by decide)) {gs} :
    Keeps fm r (Sys2Proof.Machine.State.loseParts s gs) := by
  unfold Sys2Proof.Machine.State.loseParts
  dsimp only
  exact Keeps.update h

theorem Keeps.stage {fm : Nat} {r s : State} (h : Keeps fm r s)
    (hm : Sub 3703232 fm := by exact Sub.of (by assumption) (by decide)) {d part vs bs} :
    Keeps fm r (State.stage s d part vs bs) := by
  unfold State.stage
  dsimp only
  split
  · exact Keeps.loseParts h
  · split
    · exact Keeps.putStaged h
    · refine Keeps.update (Keeps.foldl ?_ _ (fun _ _ h0 => Keeps.noteFull h0))
      split
      · split
        · exact Keeps.bump (Keeps.consume h)
        · exact Keeps.consume h
      · split
        · exact Keeps.bump h
        · exact h

theorem Keeps.resumeStaging {fm : Nat} {r s : State} (h : Keeps fm r s)
    (hm : Sub 32832 fm := by exact Sub.of (by assumption) (by decide)) {d} : Keeps fm r (State.resumeStaging s d) := by
  unfold State.resumeStaging
  dsimp only
  split
  · exact Keeps.foldl (Keeps.putStaged (Keeps.update h)) _ (fun _ _ h0 => Keeps.bump h0)
  · exact h

theorem Keeps.rearm {fm : Nat} {r s : State} (h : Keeps fm r s)
    (hm : Sub 32768 fm := by exact Sub.of (by assumption) (by decide)) {d} : Keeps fm r (State.rearm s d) := by
  unfold State.rearm
  dsimp only
  split
  · exact Keeps.update h
  · exact h

theorem Keeps.dropStaged {fm : Nat} {r s : State} (h : Keeps fm r s)
    (hm : Sub 32768 fm := by exact Sub.of (by assumption) (by decide)) {fv fb} : Keeps fm r (State.dropStaged s fv fb) := by
  unfold State.dropStaged
  dsimp only
  exact Keeps.rearm (Keeps.rearm (Keeps.update h))

theorem Keeps.lockRow {fm : Nat} {r s : State} (h : Keeps fm r s)
    (hm : Sub 32768 fm := by exact Sub.of (by assumption) (by decide)) {t r' g} : Keeps fm r (State.lockRow s t r' g) := by
  unfold State.lockRow
  dsimp only
  split
  · exact h
  · exact Keeps.update h

theorem Keeps.unlock {fm : Nat} {r s : State} (h : Keeps fm r s)
    (hm : Sub 32768 fm := by exact Sub.of (by assumption) (by decide)) {g} : Keeps fm r (State.unlock s g) := by
  unfold State.unlock
  exact Keeps.update h

theorem Keeps.discardGroup {fm : Nat} {r s : State} (h : Keeps fm r s)
    (hm : Sub 32832 fm := by exact Sub.of (by assumption) (by decide)) {g} : Keeps fm r (State.discardGroup s g) := by
  unfold State.discardGroup
  dsimp only
  split
  · split
    · exact Keeps.bump (Keeps.bump (Keeps.update (Keeps.unlock (Keeps.dropStaged h))))
    · exact Keeps.bump (Keeps.update (Keeps.unlock (Keeps.dropStaged h)))
  · exact Keeps.update (Keeps.unlock (Keeps.dropStaged h))

theorem Keeps.dirChange {fm : Nat} {r s : State} (h : Keeps fm r s)
    (hm : Sub 65536 fm := by exact Sub.of (by assumption) (by decide)) {d t r' m e} :
    Keeps fm r (State.dirChange s d t r' m e) := by
  unfold State.dirChange
  exact Keeps.update h

theorem Keeps.setTable {fm : Nat} {r s : State} (h : Keeps fm r s)
    (hm : Sub 65600 fm := by exact Sub.of (by assumption) (by decide)) {t m d} : Keeps fm r (State.setTable s t m d) := by
  unfold State.setTable
  exact Keeps.setReg (Keeps.update h)

theorem Keeps.setHomeMark {fm : Nat} {r s : State} (h : Keeps fm r s)
    (hm : Sub 65536 fm := by exact Sub.of (by assumption) (by decide)) {t r' m} :
    Keeps fm r (State.setHomeMark s t r' m) := by
  unfold State.setHomeMark
  exact Keeps.update h

theorem Keeps.copyVersions {fm : Nat} {r s : State} (h : Keeps fm r s)
    (hm : Sub 32768 fm := by exact Sub.of (by assumption) (by decide)) {t r' d} :
    Keeps fm r (State.copyVersions s t r' d) := by
  unfold State.copyVersions
  dsimp only
  split
  · exact h
  · exact Keeps.update h

theorem Keeps.dropPeers {fm : Nat} {r s : State} (h : Keeps fm r s)
    (hm : Sub 131136 fm := by exact Sub.of (by assumption) (by decide)) {t} :
    Keeps fm r (Sys2Proof.Machine.State.dropPeers s t) := by
  unfold Sys2Proof.Machine.State.dropPeers
  dsimp only
  exact Keeps.foldl h _ (fun _ _ h0 => Keeps.foldl h0 _ (fun _ _ h1 => Keeps.send h1))

theorem Keeps.applyItem {fm : Nat} {r s : State} (h : Keeps fm r s)
    (hm : Sub 493120 fm := by exact Sub.of (by assumption) (by decide)) {m i} : Keeps fm r (State.applyItem s m i) := by
  unfold State.applyItem
  dsimp only
  split
  · exact Keeps.update h
  · split
    · exact Keeps.update (Keeps.dropPeers (Keeps.setTable h))
    · exact Keeps.setTable h
  · exact Keeps.bump (Keeps.bump (Keeps.setTable h))
  · exact Keeps.copyVersions (Keeps.dirChange h)
  · split
    · exact Keeps.dirChange h
    · exact h
  · exact Keeps.setHomeMark (Keeps.foldl h _ (fun _ _ h0 => Keeps.dirChange h0))
  · exact Keeps.update h
  · exact Keeps.update h
  · exact Keeps.update h
  · split
    · exact Keeps.modCtx h
    · exact Keeps.modCore h
  · exact h

theorem Keeps.takeItem {fm : Nat} {r s : State} (h : Keeps fm r s)
    (hm : Sub 493120 fm := by exact Sub.of (by assumption) (by decide)) {m i} :
    Keeps fm r (Sys2Proof.Machine.State.takeItem s m i) := by
  unfold Sys2Proof.Machine.State.takeItem
  dsimp only
  split
  · exact h
  · split
    · exact Keeps.update h
    · exact Keeps.applyItem h

theorem Keeps.takeLater {fm : Nat} {r s : State} (h : Keeps fm r s)
    (hm : Sub 493120 fm := by exact Sub.of (by assumption) (by decide)) :
    Keeps fm r (Sys2Proof.Machine.State.takeLater s) := by
  unfold Sys2Proof.Machine.State.takeLater
  dsimp only
  exact Keeps.foldl (Keeps.update h) _ (fun _ _ h0 => Keeps.applyItem h0)

theorem Keeps.writeBlock {fm : Nat} {r s : State} (h : Keeps fm r s)
    (hm : Sub 147936 fm := by exact Sub.of (by assumption) (by decide)) {job b} : Keeps fm r (State.writeBlock s job b) := by
  unfold State.writeBlock
  dsimp only
  split
  · exact Keeps.foldl h _ (fun _ _ h0 => Keeps.putResv h0)
  · refine Keeps.foldl h _ ?_
    intro x0 a0 h0
    split
    · exact Keeps.send (Keeps.charge h0)
    · exact Keeps.fst (Keeps.writeMem h0)

theorem Keeps.takeMark {fm : Nat} {r s : State} (h : Keeps fm r s)
    (hm : Sub 32768 fm := by exact Sub.of (by assumption) (by decide)) : Keeps fm r (State.takeMark s) := by
  unfold State.takeMark
  exact Keeps.update h

theorem Keeps.countOpened {fm : Nat} {r s : State} (h : Keeps fm r s)
    (hm : Sub 64 fm := by exact Sub.of (by assumption) (by decide)) {part} : Keeps fm r (State.countOpened s part) := by
  unfold State.countOpened
  dsimp only
  split
  · exact Keeps.bump (Keeps.bump h)
  · exact Keeps.bump h

theorem Keeps.spread {fm : Nat} {r s : State} (h : Keeps fm r s)
    (hm : Sub 32768 fm := by exact Sub.of (by assumption) (by decide)) {g} :
    Keeps fm r (Sys2Proof.Machine.State.spread s g) := by
  unfold Sys2Proof.Machine.State.spread
  dsimp only
  refine Keeps.foldl h _ ?_
  intro x0 a0 h0
  split
  · exact h0
  · exact Keeps.update h0

theorem Keeps.openGroup {fm : Nat} {r s : State} (h : Keeps fm r s)
    (hm : Sub 1034208 fm := by exact Sub.of (by assumption) (by decide)) {x} : Keeps fm r (State.openGroup s x) := by
  unfold State.openGroup
  dsimp only
  split
  · exact Keeps.produce (Keeps.rearm (Keeps.rearm (Keeps.countOpened (Keeps.unlock (Keeps.foldl (Keeps.foldl (Keeps.update (Keeps.takeMark (Keeps.spread h))) _ (fun _ _ h0 => Keeps.writeBlock h0)) _ (fun _ _ h0 => Keeps.takeItem h0))))))
  · exact Keeps.rearm (Keeps.rearm (Keeps.countOpened (Keeps.unlock (Keeps.foldl (Keeps.foldl (Keeps.update (Keeps.takeMark (Keeps.spread h))) _ (fun _ _ h0 => Keeps.writeBlock h0)) _ (fun _ _ h0 => Keeps.takeItem h0)))))

theorem Keeps.askMarks {fm : Nat} {r s : State} (h : Keeps fm r s)
    (hm : Sub 32832 fm := by exact Sub.of (by assumption) (by decide)) {gs atKeeper} :
    KeepsP fm r (Sys2Proof.Machine.State.askMarks s gs atKeeper) := by
  unfold Sys2Proof.Machine.State.askMarks
  dsimp only
  split
  · exact Keeps.pair h
  · split
    · refine Keeps.pair ?_
      split
      · exact Keeps.update h
      · exact Keeps.bump (Keeps.update h)
    · split
      · exact Keeps.pair h
      · exact Keeps.pair (Keeps.update h)

theorem Keeps.markGroup {fm : Nat} {r s : State} (h : Keeps fm r s)
    (hm : Sub 1034208 fm := by exact Sub.of (by assumption) (by decide)) {x} : Keeps fm r (State.markGroup s x) := by
  unfold State.markGroup
  split
  · exact Keeps.openGroup (Keeps.ofPair (by assumption) (Keeps.askMarks h))
  · exact Keeps.ofPair (by assumption) (Keeps.askMarks h)

theorem Keeps.prepareGroup {fm : Nat} {r s : State} (h : Keeps fm r s)
    (hm : Sub 32832 fm := by exact Sub.of (by assumption) (by decide)) {x} :
    Keeps fm r (Sys2Proof.Machine.State.prepareGroup s x) := by
  unfold Sys2Proof.Machine.State.prepareGroup
  exact Keeps.bump (Keeps.modGroup h)

theorem Keeps.decideGroup {fm : Nat} {r s : State} (h : Keeps fm r s)
    (hm : Sub 1034208 fm := by exact Sub.of (by assumption) (by decide)) {g} : Keeps fm r (State.decideGroup s g) := by
  unfold State.decideGroup
  dsimp only
  split
  · exact h
  · split
    · split
      · exact Keeps.produce (Keeps.discardGroup h)
      · exact Keeps.discardGroup h
    · split
      · exact Keeps.modGroup h
      · split
        · exact h
        · split
          · exact Keeps.prepareGroup h
          · exact Keeps.markGroup h

theorem Keeps.execPrepare {fm : Nat} {r s : State} (h : Keeps fm r s)
    (hm : Sub 32768 fm := by exact Sub.of (by assumption) (by decide)) {g} : KeepsX fm r (execPrepare g s) := by
  unfold Sys2Proof.Machine.execPrepare
  refine Keeps.next ?_
  split
  · split
    · exact Keeps.modGroup h
    · exact h
  · exact h

theorem Keeps.execPublishedMarkUpdate {fm : Nat} {r s : State} (h : Keeps fm r s)
    (hm : Sub 493120 fm := by exact Sub.of (by assumption) (by decide)) : KeepsX fm r (execPublishedMarkUpdate s) := by
  unfold Sys2Proof.Machine.execPublishedMarkUpdate
  dsimp only
  refine Keeps.next ?_
  split
  · exact h
  · exact Keeps.takeLater (Keeps.update h)

theorem Keeps.execOldestPinExchange {fm : Nat} {r s : State} (h : Keeps fm r s)
    (hm : Sub 98304 fm := by exact Sub.of (by assumption) (by decide)) : KeepsX fm r (execOldestPinExchange s) := by
  unfold Sys2Proof.Machine.execOldestPinExchange
  exact Keeps.next (Keeps.prune (Keeps.update h))

theorem Keeps.execDrain {fm : Nat} {r s : State} (h : Keeps fm r s)
    (hm : Sub 32800 fm := by exact Sub.of (by assumption) (by decide)) {d} : KeepsX fm r (execDrain d s) := by
  unfold Sys2Proof.Machine.execDrain
  dsimp only
  refine Keeps.next ?_
  split
  · exact h
  · exact Keeps.askPermit (Keeps.update h)

theorem Keeps.resvCheck {fm : Nat} {r s : State} (h : Keeps fm r s)
    (hm : Sub 3670468 fm := by exact Sub.of (by assumption) (by decide)) {d site off lost} :
    KeepsP fm r (State.resvCheck s d site off lost) := by
  unfold State.resvCheck
  dsimp only
  split
  · split
    · split
      · split
        · split
          · refine Keeps.pair (Keeps.raise ?_)
            split
            · exact Keeps.consume (Keeps.raise (Keeps.consume (Keeps.update h)))
            · exact Keeps.raise (Keeps.consume (Keeps.update h))
          · refine Keeps.pair ?_
            split
            · exact Keeps.consume (Keeps.raise (Keeps.consume (Keeps.update h)))
            · exact Keeps.raise (Keeps.consume (Keeps.update h))
        · split
          · refine Keeps.pair (Keeps.raise ?_)
            split
            · exact Keeps.consume (Keeps.raise (Keeps.consume (Keeps.update h)))
            · exact Keeps.raise (Keeps.consume (Keeps.update h))
          · refine Keeps.pair ?_
            split
            · exact Keeps.consume (Keeps.raise (Keeps.consume (Keeps.update h)))
            · exact Keeps.raise (Keeps.consume (Keeps.update h))
      · split
        · split
          · refine Keeps.pair (Keeps.raise ?_)
            split
            · exact Keeps.consume (Keeps.raise (Keeps.update h))
            · exact Keeps.raise (Keeps.update h)
          · refine Keeps.pair ?_
            split
            · exact Keeps.consume (Keeps.raise (Keeps.update h))
            · exact Keeps.raise (Keeps.update h)
        · split
          · refine Keeps.pair (Keeps.raise ?_)
            split
            · exact Keeps.consume (Keeps.raise (Keeps.update h))
            · exact Keeps.raise (Keeps.update h)
          · refine Keeps.pair ?_
            split
            · exact Keeps.consume (Keeps.raise (Keeps.update h))
            · exact Keeps.raise (Keeps.update h)
    · split
      · split
        · refine Keeps.pair (Keeps.raise ?_)
          split
          · exact Keeps.consume (Keeps.consume (Keeps.update h))
          · exact Keeps.consume (Keeps.update h)
        · refine Keeps.pair ?_
          split
          · exact Keeps.consume (Keeps.consume (Keeps.update h))
          · exact Keeps.consume (Keeps.update h)
      · split
        · refine Keeps.pair (Keeps.raise ?_)
          split
          · exact Keeps.consume (Keeps.update h)
          · exact Keeps.update h
        · refine Keeps.pair ?_
          split
          · exact Keeps.consume (Keeps.update h)
          · exact Keeps.update h
  · split
    · split
      · split
        · split
          · refine Keeps.pair (Keeps.raise ?_)
            split
            · exact Keeps.consume (Keeps.raise (Keeps.consume h))
            · exact Keeps.raise (Keeps.consume h)
          · refine Keeps.pair ?_
            split
            · exact Keeps.consume (Keeps.raise (Keeps.consume h))
            · exact Keeps.raise (Keeps.consume h)
        · split
          · refine Keeps.pair (Keeps.raise ?_)
            split
            · exact Keeps.consume (Keeps.raise (Keeps.consume h))
            · exact Keeps.raise (Keeps.consume h)
          · refine Keeps.pair ?_
            split
            · exact Keeps.consume (Keeps.raise (Keeps.consume h))
            · exact Keeps.raise (Keeps.consume h)
      · split
        · split
          · refine Keeps.pair (Keeps.raise ?_)
            split
            · exact Keeps.consume (Keeps.raise h)
            · exact Keeps.raise h
          · refine Keeps.pair ?_
            split
            · exact Keeps.consume (Keeps.raise h)
            · exact Keeps.raise h
        · split
          · refine Keeps.pair (Keeps.raise ?_)
            split
            · exact Keeps.consume (Keeps.raise h)
            · exact Keeps.raise h
          · refine Keeps.pair ?_
            split
            · exact Keeps.consume (Keeps.raise h)
            · exact Keeps.raise h
    · split
      · split
        · refine Keeps.pair (Keeps.raise ?_)
          split
          · exact Keeps.consume (Keeps.consume h)
          · exact Keeps.consume h
        · refine Keeps.pair ?_
          split
          · exact Keeps.consume (Keeps.consume h)
          · exact Keeps.consume h
      · split
        · refine Keeps.pair (Keeps.raise ?_)
          split
          · exact Keeps.consume h
          · exact h
        · refine Keeps.pair ?_
          split
          · exact Keeps.consume h
          · exact h

theorem Keeps.drainHome {fm : Nat} {r s : State} (h : Keeps fm r s)
    (hm : Sub 3883460 fm := by exact Sub.of (by assumption) (by decide)) {d v m} : Keeps fm r (State.drainHome s d v m) := by
  unfold State.drainHome
  dsimp only
  split
  · split
    · refine Keeps.foldl ?_ _ (fun _ _ h0 => Keeps.poisonUnit h0)
      split
      · exact Keeps.fst (Keeps.resvCheck h)
      · exact Keeps.setHomeMark (Keeps.fst (Keeps.resvCheck h))
    · split
      · exact Keeps.fst (Keeps.resvCheck h)
      · exact Keeps.setHomeMark (Keeps.fst (Keeps.resvCheck h))
  · refine Keeps.fst (Keeps.writeMem ?_)
    split
    · exact Keeps.fst (Keeps.resvCheck h)
    · exact Keeps.setHomeMark (Keeps.fst (Keeps.resvCheck h))

theorem Keeps.drainRow {fm : Nat} {r s : State} (h : Keeps fm r s)
    (hm : Sub 3916228 fm := by exact Sub.of (by assumption) (by decide)) {d x} : Keeps fm r (State.drainRow s d x) := by
  unfold State.drainRow
  dsimp only
  split
  · exact h
  · refine Keeps.bump (Keeps.update ?_)
    split
    · split
      · split
        · exact h
        · exact Keeps.drainHome h
      · refine Keeps.update ?_
        split
        · exact h
        · exact Keeps.drainHome h
    · refine Keeps.foldl ?_ _ (fun _ _ h0 => Keeps.send (Keeps.charge h0))
      split
      · split
        · exact h
        · exact Keeps.drainHome h
      · refine Keeps.update ?_
        split
        · exact h
        · exact Keeps.drainHome h

theorem Keeps.execDrainBatchComplete {fm : Nat} {r s : State} (h : Keeps fm r s)
    (hm : Sub 3916260 fm := by exact Sub.of (by assumption) (by decide)) {d} : KeepsX fm r (execDrainBatchComplete d s) := by
  unfold Sys2Proof.Machine.execDrainBatchComplete
  dsimp only
  refine Keeps.next ?_
  split
  · exact h
  · split
    · exact h
    · exact Keeps.returnPermit (Keeps.rearm (Keeps.rearm (Keeps.bump (Keeps.update (Keeps.foldl h _ (fun _ _ h0 => Keeps.drainRow h0))))))

end Sys2Proof.Machine
end

