-- ==== Sys2Proof/Laws/Keeps/Queue.lean ====
section
/-! SUPPORT. What the operations of Machine/Queue.lean keep. -/

set_option Elab.async false

namespace Sys2Proof.Machine

theorem Keeps.setQp {fm : Nat} {r s : State} (h : Keeps fm r s)
    (hm : Sub 64 fm := by exact Sub.of (by assumption) (by decide)) {f q sub v} : Keeps fm r (State.setQp s f q sub v) := by
  unfold State.setQp
  exact Keeps.setReg h

theorem Keeps.popDesc {fm : Nat} {r s : State} (h : Keeps fm r s)
    (hm : Sub 524352 fm := by exact Sub.of (by assumption) (by decide)) {f q d} : Keeps fm r (State.popDesc s f q d) := by
  unfold State.popDesc
  dsimp only
  split
  · exact Keeps.bump (Keeps.setQp (Keeps.setPair h))
  · exact Keeps.setQp (Keeps.setPair h)

theorem Keeps.freeEnd {fm : Nat} {r s : State} (h : Keeps fm r s)
    (hm : Sub 524292 fm := by exact Sub.of (by assumption) (by decide)) {f q d y6} :
    Keeps fm r (State.freeEnd s f q d y6) := by
  unfold State.freeEnd
  exact Keeps.complete (Keeps.update h)

theorem Keeps.settleLoop {fm : Nat} {r a' : State} (h : Keeps fm r a')
    (hm : Sub 524356 fm := by exact Sub.of (by assumption) (by decide)) {a a'' a'''} :
    Keeps fm r (State.settleLoop a a' a'' a''') := by
  induction a generalizing a' a'' a''' with
  | zero =>
    unfold State.settleLoop
    exact h
  | succ m ih =>
    unfold State.settleLoop
    dsimp only
    split
    · exact h
    · split
      · exact h
      · have k {d : Desc} : Keeps fm r (if ownRecord d then a'.popDesc a'' a''' d else (a'.popDesc a'' a''' d).bump (pairIdx a'' a''') 14 1) := by
          split
          · exact Keeps.popDesc h
          · exact Keeps.bump (Keeps.popDesc h)
        refine ih ?_
        split
        · exact Keeps.freeEnd k
        · exact Keeps.complete k

theorem Keeps.settle {fm : Nat} {r s : State} (h : Keeps fm r s)
    (hm : Sub 524356 fm := by exact Sub.of (by assumption) (by decide)) {f q} : Keeps fm r (State.settle s f q) := by
  unfold State.settle
  exact Keeps.settleLoop h

theorem Keeps.take {fm : Nat} {r s : State} (h : Keeps fm r s)
    (hm : Sub 524356 fm := by exact Sub.of (by assumption) (by decide)) {f q ok} : KeepsP fm r (State.take s f q ok) := by
  unfold State.take
  dsimp only
  split
  · exact Keeps.pair (Keeps.settle h)
  · split
    · exact Keeps.pair (Keeps.popDesc (Keeps.settle h))
    · exact Keeps.pair (Keeps.settle h)

theorem Keeps.egressTail {fm : Nat} {r s : State} (h : Keeps fm r s)
    (hm : Sub 672196 fm := by exact Sub.of (by assumption) (by decide)) {part die} :
    Keeps fm r (Sys2Proof.Machine.State.egressTail s part die) := by
  unfold Sys2Proof.Machine.State.egressTail
  dsimp only
  refine Keeps.signalVec ?_
  split
  · exact h
  · exact Keeps.fst (Keeps.writeMem h)

theorem Keeps.linkEvent {fm : Nat} {r s : State} (h : Keeps fm r s)
    (hm : Sub 3670464 fm := by exact Sub.of (by assumption) (by decide)) {cause link detail inj} :
    Keeps fm r (State.linkEvent s cause link detail inj) := by
  unfold State.linkEvent
  exact Keeps.raise h

theorem Keeps.fetchError {fm : Nat} {r s : State} (h : Keeps fm r s)
    (hm : Sub 3670464 fm := by exact Sub.of (by assumption) (by decide)) {f q inj} :
    Keeps fm r (State.fetchError s f q inj) := by
  unfold State.fetchError
  exact Keeps.linkEvent (Keeps.bump (Keeps.setQp (Keeps.setQp (Keeps.setPair h))))

theorem Keeps.execHostErrorCompletion {fm : Nat} {r s : State} (h : Keeps fm r s)
    (hm : Sub 3670464 fm := by exact Sub.of (by assumption) (by decide)) {f q} :
    KeepsX fm r (execHostErrorCompletion f q s) := by
  unfold Sys2Proof.Machine.execHostErrorCompletion
  exact Keeps.next (Keeps.fetchError h)

theorem Keeps.execHostReadTimeout {fm : Nat} {r s : State} (h : Keeps fm r s)
    (hm : Sub 3670464 fm := by exact Sub.of (by assumption) (by decide)) {f q} :
    KeepsX fm r (execHostReadTimeout f q s) := by
  unfold Sys2Proof.Machine.execHostReadTimeout
  refine Keeps.next ?_
  split
  · exact h
  · exact Keeps.fetchError h

theorem Keeps.moveRecs {fm : Nat} {r s : State} (h : Keeps fm r s)
    (hm : Sub 524288 fm := by exact Sub.of (by assumption) (by decide)) {l f} : Keeps fm r (State.moveRecs s l f) := by
  unfold State.moveRecs
  exact Keeps.update h

theorem Keeps.failover {fm : Nat} {r s : State} (h : Keeps fm r s)
    (hm : Sub 3670464 fm := by exact Sub.of (by assumption) (by decide)) {l reissued inj} :
    Keeps fm r (State.failover s l reissued inj) := by
  unfold State.failover
  dsimp only
  refine Keeps.linkEvent (Keeps.bump (Keeps.bump ?_))
  split
  · refine Keeps.update (Keeps.foldl (Keeps.moveRecs h) _ ?_)
    intro x0 a0 h0
    split
    · exact Keeps.setReg h0
    · exact h0
  · refine Keeps.foldl (Keeps.moveRecs h) _ ?_
    intro x0 a0 h0
    split
    · exact Keeps.setReg h0
    · exact h0

theorem Keeps.execHostLinkDown {fm : Nat} {r s : State} (h : Keeps fm r s)
    (hm : Sub 3670464 fm := by exact Sub.of (by assumption) (by decide)) {l reissued} :
    KeepsX fm r (execHostLinkDown l reissued s) := by
  unfold Sys2Proof.Machine.execHostLinkDown
  dsimp only
  refine Keeps.next ?_
  split
  · exact h
  · split
    · exact Keeps.failover (Keeps.setCause (Keeps.linkEvent (Keeps.setReg (Keeps.setReg (Keeps.setReg h)))))
    · exact Keeps.setCause (Keeps.linkEvent (Keeps.setReg (Keeps.setReg (Keeps.setReg h))))

theorem Keeps.sendHeld {fm : Nat} {r s : State} (h : Keeps fm r s)
    (hm : Sub 672196 fm := by exact Sub.of (by assumption) (by decide)) :
    Keeps fm r (Sys2Proof.Machine.State.sendHeld s) := by
  unfold Sys2Proof.Machine.State.sendHeld
  dsimp only
  exact Keeps.foldl (Keeps.foldl (Keeps.update h) _ (fun _ _ h0 => Keeps.putEvent h0)) _ (fun _ _ h0 => Keeps.egressTail h0)

theorem Keeps.execHostLinkUp {fm : Nat} {r s : State} (h : Keeps fm r s)
    (hm : Sub 3817924 fm := by exact Sub.of (by assumption) (by decide)) {l width rate} :
    KeepsX fm r (execHostLinkUp l width rate s) := by
  unfold Sys2Proof.Machine.execHostLinkUp
  dsimp only
  refine Keeps.next ?_
  split
  · exact h
  · refine Keeps.setCause (Keeps.linkEvent (Keeps.sendHeld ?_))
    split
    · exact Keeps.setReg (Keeps.setReg (Keeps.setReg h))
    · exact Keeps.update (Keeps.setReg (Keeps.setReg (Keeps.setReg h)))

theorem Keeps.readDesc {fm : Nat} {r s : State} (h : Keeps fm r s)
    (hm : Sub 3817924 fm := by exact Sub.of (by assumption) (by decide)) {f q i} : KeepsP fm r (State.readDesc s f q i) := by
  unfold State.readDesc
  dsimp only
  exact Keeps.pair (Keeps.fst (Keeps.readMem h))

theorem Keeps.readDescs {fm : Nat} {r s : State} (h : Keeps fm r s)
    (hm : Sub 3817924 fm := by exact Sub.of (by assumption) (by decide)) {f q i a a'} :
    KeepsP fm r (State.readDescs s f q i a a') := by
  induction a generalizing s f q i a' with
  | zero =>
    unfold State.readDescs
    exact Keeps.pair h
  | succ m ih =>
    unfold State.readDescs
    split
    · exact ih (Keeps.ofPair (by assumption) (Keeps.readDesc h))
    · exact Keeps.pair (Keeps.ofPair (by assumption) (Keeps.readDesc h))

theorem Keeps.endFetch {fm : Nat} {r : State} {p : State × Option (List Desc)} (h : KeepsP fm r p) {f q}
    (hm : Sub 3686852 fm := by exact Sub.of (by assumption) (by decide)) :
    Keeps fm r (State.endFetch f q p) := by
  obtain ⟨s, o⟩ := p
  cases o with
  | none => exact Keeps.fetchError h
  | some l =>
    unfold State.endFetch
    exact Keeps.settle (Keeps.setPair h)

theorem Keeps.execDescriptorFetch {fm : Nat} {r s : State} (h : Keeps fm r s) {f q}
    (hm : Sub 3817924 fm := by exact Sub.of (by assumption) (by decide)) : KeepsX fm r (execDescriptorFetch f q s) := by
  unfold Sys2Proof.Machine.execDescriptorFetch
  dsimp only
  split
  · exact Keeps.next (Keeps.settle h)
  · split
    · split
      · exact Keeps.next (Keeps.settle h)
      · refine Keeps.next (Keeps.whenFetched (Keeps.update h) ?_)
        intro x0 h0
        split
        · exact Keeps.fetchError (Keeps.consume h0)
        · exact Keeps.endFetch (Keeps.readDescs h0)
    · exact Keeps.next (Keeps.settle h)

theorem Keeps.execSqTailWrite {fm : Nat} {r s : State} (h : Keeps fm r s)
    (hm : Sub 524548 fm := by exact Sub.of (by assumption) (by decide)) {f q v cells} : KeepsX fm r (execSqTailWrite f q v cells s) := by
  unfold Sys2Proof.Machine.execSqTailWrite
  dsimp only
  split
  · exact Keeps.next (Keeps.setPair (Keeps.update (Keeps.updateMem h (fun x => Memory.wf_hostStores x _))))
  · exact Keeps.next (Keeps.setPair (Keeps.updateMem h (fun x => Memory.wf_hostStores x _)))

theorem Keeps.execCqHeadWrite {fm : Nat} {r s : State} (h : Keeps fm r s)
    (hm : Sub 524288 fm := by exact Sub.of (by assumption) (by decide)) {f q v} : KeepsX fm r (execCqHeadWrite f q v s) := by
  unfold Sys2Proof.Machine.execCqHeadWrite
  exact Keeps.next (Keeps.setPair h)

theorem Keeps.execNop {fm : Nat} {r s : State} (h : Keeps fm r s)
    (hm : Sub 524356 fm := by exact Sub.of (by assumption) (by decide)) {f q} : KeepsX fm r (execNop f q s) := by
  unfold Sys2Proof.Machine.execNop
  refine Keeps.next ?_
  split
  · exact Keeps.complete (Keeps.ofPair (by assumption) (Keeps.take h))
  · exact Keeps.ofPair (by assumption) (Keeps.take h)

theorem Keeps.writeEnable {fm : Nat} {r s : State} (h : Keeps fm r s)
    (hm : Sub 524352 fm := by exact Sub.of (by assumption) (by decide)) {f q v} :
    Keeps fm r (State.writeEnable s f q v) := by
  unfold State.writeEnable
  dsimp only
  split
  · exact Keeps.setQp (Keeps.setQp (Keeps.setPair h))
  · split
    · exact h
    · split
      · exact Keeps.setQp (Keeps.setQp (Keeps.setPair h))
      · exact Keeps.setQp (Keeps.setQp h)

theorem Keeps.acceptFrom {fm : Nat} {r s : State} (h : Keeps fm r s)
    (hm : Sub 524352 fm := by exact Sub.of (by assumption) (by decide)) {d seen a} :
    Keeps fm r (State.acceptFrom s d seen a) := by
  induction a generalizing s d seen with
  | nil =>
    unfold State.acceptFrom
    exact Keeps.update h
  | cons b l ih =>
    unfold State.acceptFrom
    dsimp only
    split
    · exact ih h
    · split
      · split
        · exact ih h
        · exact Keeps.update h
      · refine ih ?_
        split
        · exact h
        · exact Keeps.bump h

theorem Keeps.execCompletionRecordAccept {fm : Nat} {r s : State} (h : Keeps fm r s)
    (hm : Sub 524352 fm := by exact Sub.of (by assumption) (by decide)) {d} :
    KeepsX fm r (execCompletionRecordAccept d s) := by
  unfold Sys2Proof.Machine.execCompletionRecordAccept
  exact Keeps.next (Keeps.acceptFrom h)

theorem Keeps.signalPair {fm : Nat} {r s : State} (h : Keeps fm r s)
    (hm : Sub 524292 fm := by exact Sub.of (by assumption) (by decide)) {f q} : Keeps fm r (State.signalPair s f q) := by
  unfold State.signalPair
  dsimp only
  exact Keeps.signalVec (Keeps.setPair h)

theorem Keeps.postRec {fm : Nat} {r s : State} (h : Keeps fm r s)
    (hm : Sub 147904 fm := by exact Sub.of (by assumption) (by decide)) {f q r'} : Keeps fm r (State.postRec s f q r') := by
  unfold State.postRec
  dsimp only
  split
  · refine Keeps.setQp ?_
    split
    · exact Keeps.regMax (Keeps.setQp (Keeps.fst (Keeps.writeMem h)))
    · exact Keeps.setQp (Keeps.fst (Keeps.writeMem h))
  · split
    · exact Keeps.regMax (Keeps.setQp (Keeps.fst (Keeps.writeMem h)))
    · exact Keeps.setQp (Keeps.fst (Keeps.writeMem h))

theorem Keeps.batchSignal {fm : Nat} {r s : State} (h : Keeps fm r s)
    (hm : Sub 524292 fm := by exact Sub.of (by assumption) (by decide)) {f q n irq} :
    Keeps fm r (State.batchSignal s f q n irq) := by
  unfold State.batchSignal
  dsimp only
  split
  · split
    · exact Keeps.signalPair (Keeps.setPair h)
    · exact Keeps.setPair h
  · split
    · exact Keeps.signalPair (Keeps.setPair h)
    · exact Keeps.setPair h

theorem Keeps.execCqWrite {fm : Nat} {r s : State} (h : Keeps fm r s)
    (hm : Sub 672196 fm := by exact Sub.of (by assumption) (by decide)) {f q} : KeepsX fm r (execCqWrite f q s) := by
  unfold Sys2Proof.Machine.execCqWrite
  dsimp only
  refine Keeps.next ?_
  split
  · exact h
  · exact Keeps.settle (Keeps.batchSignal (Keeps.fst (Keeps.writeMem (Keeps.foldl (Keeps.update h) _ (fun _ _ h0 => Keeps.postRec h0)))))

theorem Keeps.execCoalesceTimeout {fm : Nat} {r s : State} (h : Keeps fm r s)
    (hm : Sub 524292 fm := by exact Sub.of (by assumption) (by decide)) {f q} : KeepsX fm r (execCoalesceTimeout f q s) := by
  unfold Sys2Proof.Machine.execCoalesceTimeout
  dsimp only
  refine Keeps.next ?_
  split
  · exact Keeps.signalPair h
  · exact h

theorem Keeps.execZeroLengthReadComplete {fm : Nat} {r s : State} (h : Keeps fm r s)
    (hm : Sub 524288 fm := by exact Sub.of (by assumption) (by decide)) {f q} :
    KeepsX fm r (execZeroLengthReadComplete f q s) := by
  unfold Sys2Proof.Machine.execZeroLengthReadComplete
  exact Keeps.next (Keeps.update h)

end Sys2Proof.Machine
end

