-- ==== Sys2Proof/Laws/Keeps/Tables.lean ====
section
/-! SUPPORT. What the operations of Machine/Tables.lean keep. -/

set_option Elab.async false

namespace Sys2Proof.Machine

theorem Keeps.setMailbox {fm : Nat} {r s : State} (h : Keeps fm r s)
    (hm : Sub 524288 fm := by exact Sub.of (by assumption) (by decide)) {acc m} : Keeps fm r (State.setMailbox s acc m) := by
  unfold State.setMailbox
  exact Keeps.update h

theorem Keeps.answer {fm : Nat} {r s : State} (h : Keeps fm r s)
    (hm : Sub 524288 fm := by exact Sub.of (by assumption) (by decide)) {acc res size data} :
    Keeps fm r (State.answer s acc res size data) := by
  unfold State.answer
  exact Keeps.setMailbox h

theorem Keeps.countCase {fm : Nat} {r s : State} (h : Keeps fm r s)
    (hm : Sub 64 fm := by exact Sub.of (by assumption) (by decide)) {part sub} :
    Keeps fm r (State.countCase s part sub) := by
  unfold State.countCase
  exact Keeps.bump (Keeps.bump h)

theorem Keeps.refreshReplica {fm : Nat} {r s : State} (h : Keeps fm r s)
    (hm : Sub 65536 fm := by exact Sub.of (by assumption) (by decide)) {die t r' a n} :
    Keeps fm r (State.refreshReplica s die t r' a n) := by
  unfold State.refreshReplica
  exact Keeps.update h

theorem Keeps.fromWriteSet {fm : Nat} {r s : State} (h : Keeps fm r s)
    (hm : Sub 3670468 fm := by exact Sub.of (by assumption) (by decide)) {d v lost} :
    KeepsP fm r (State.fromWriteSet s d v lost) := by
  unfold State.fromWriteSet
  dsimp only
  split
  · exact Keeps.pair (Keeps.fst (Keeps.resvCheck h))
  · exact Keeps.pair (Keeps.bump (Keeps.fst (Keeps.resvCheck h)))

theorem Keeps.rowSource {fm : Nat} {r s : State} (h : Keeps fm r s)
    (hm : Sub 3736004 fm := by exact Sub.of (by assumption) (by decide)) {die t d pin r' lost} :
    KeepsP fm r (State.rowSource s die t d pin r' lost) := by
  unfold State.rowSource
  dsimp only
  split
  · split
    · exact Keeps.fromWriteSet h
    · split
      · exact Keeps.pair (Keeps.bump (Keeps.fst (Keeps.resvCheck h)))
      · split
        · exact Keeps.pair (Keeps.fst (Keeps.resvCheck h))
        · exact Keeps.pair (Keeps.refreshReplica (Keeps.fst (Keeps.resvCheck h)))
  · split
    · exact Keeps.pair h
    · split
      · exact Keeps.fromWriteSet h
      · exact Keeps.pair h

theorem Keeps.defaultSource {fm : Nat} {r s : State} (h : Keeps fm r s)
    (hm : Sub 3736004 fm := by exact Sub.of (by assumption) (by decide)) {die t d pin lost} :
    KeepsP fm r (State.defaultSource s die t d pin lost) := by
  unfold State.defaultSource
  dsimp only
  split
  · exact Keeps.pair h
  · split
    · exact Keeps.pair (Keeps.ofPair (by assumption) (Keeps.rowSource h))
    · exact Keeps.pair (Keeps.ofPair (by assumption) (Keeps.rowSource h))

theorem Keeps.resolveIndex {fm : Nat} {r s : State} (h : Keeps fm r s)
    (hm : Sub 3736004 fm := by exact Sub.of (by assumption) (by decide)) {part die t d pin idx lost} :
    KeepsP fm r (State.resolveIndex s part die t d pin idx lost) := by
  unfold State.resolveIndex
  dsimp only
  split
  · exact Keeps.pair (Keeps.fst (Keeps.defaultSource (Keeps.countCase h)))
  · split
    · exact Keeps.pair (Keeps.ofPair (by assumption) (Keeps.rowSource h))
    · exact Keeps.pair (Keeps.fst (Keeps.defaultSource (Keeps.countCase (Keeps.ofPair (by assumption) (Keeps.rowSource h)))))

theorem Keeps.lookupPin {fm : Nat} {r s : State} (h : Keeps fm r s)
    (hm : Sub 64 fm := by exact Sub.of (by assumption) (by decide)) {die slot part} :
    KeepsP fm r (State.lookupPin s die slot part) := by
  unfold State.lookupPin
  split
  · split
    · exact Keeps.pair h
    · exact Keeps.pair (Keeps.bump h)
  · exact Keeps.pair (Keeps.bump h)

theorem Keeps.touchSketch {fm : Nat} {r s : State} (h : Keeps fm r s)
    (hm : Sub 65600 fm := by exact Sub.of (by assumption) (by decide)) {die t d r'} :
    Keeps fm r (State.touchSketch s die t d r') := by
  unfold State.touchSketch
  dsimp only
  split
  · exact h
  · split
    · exact Keeps.update h
    · split
      · split
        · refine Keeps.bump ?_
          split
          · exact Keeps.bump (Keeps.update h)
          · exact Keeps.update h
        · split
          · exact Keeps.bump (Keeps.update h)
          · exact Keeps.update h
      · split
        · refine Keeps.bump ?_
          split
          · exact Keeps.bump (Keeps.update h)
          · exact Keeps.update h
        · split
          · exact Keeps.bump (Keeps.update h)
          · exact Keeps.update h

theorem Keeps.execSketchDecay {fm : Nat} {r s : State} (h : Keeps fm r s)
    (hm : Sub 65536 fm := by exact Sub.of (by assumption) (by decide)) : KeepsX fm r (execSketchDecay s) := by
  unfold Sys2Proof.Machine.execSketchDecay
  exact Keeps.next (Keeps.update h)

theorem Keeps.newestRow {fm : Nat} {r s : State} (h : Keeps fm r s)
    (hm : Sub 3817924 fm := by exact Sub.of (by assumption) (by decide)) {part t d r' drained ue} :
    KeepsP fm r (State.newestRow s part t d r' drained ue) := by
  unfold State.newestRow
  dsimp only
  split
  · exact Keeps.pair (Keeps.fst (Keeps.resvCheck h))
  · exact Keeps.pair (Keeps.fst (Keeps.readMem h))

theorem Keeps.copyRow {fm : Nat} {r s : State} (h : Keeps fm r s)
    (hm : Sub 3850692 fm := by exact Sub.of (by assumption) (by decide)) {g part c t d i r' ue} :
    KeepsP fm r (State.copyRow s g part c t d i r' ue) := by
  unfold State.copyRow
  dsimp only
  split
  · exact Keeps.pair (Keeps.fst (Keeps.newestRow (Keeps.lockRow h)))
  · split
    · split
      · exact Keeps.pair (Keeps.send (Keeps.addItem (Keeps.fst (Keeps.newestRow (Keeps.lockRow h)))))
      · refine Keeps.pair (Keeps.foldl (Keeps.fst (Keeps.newestRow (Keeps.lockRow h))) _ ?_)
        intro x0 a0 h0
        split
        · split
          · exact h0
          · exact Keeps.addItem h0
        · exact Keeps.addItem h0
    · split
      · split
        · exact Keeps.pair (Keeps.addItem (Keeps.fst (Keeps.writeMem (Keeps.fst (Keeps.newestRow (Keeps.lockRow h))))))
        · exact Keeps.pair (Keeps.fst (Keeps.writeMem (Keeps.fst (Keeps.newestRow (Keeps.lockRow h)))))
      · split
        · exact Keeps.pair (Keeps.addItem (Keeps.fst (Keeps.writeMem (Keeps.fst (Keeps.newestRow (Keeps.lockRow h))))))
        · exact Keeps.pair (Keeps.fst (Keeps.writeMem (Keeps.fst (Keeps.newestRow (Keeps.lockRow h)))))

theorem Keeps.copyRowsOf {fm : Nat} {r s : State} (h : Keeps fm r s)
    (hm : Sub 3850692 fm := by exact Sub.of (by assumption) (by decide)) {g part c t d ue a} :
    KeepsP fm r (State.copyRowsOf s g part c t d ue a) := by
  induction a generalizing s g part c t d ue with
  | nil =>
    unfold State.copyRowsOf
    exact Keeps.pair h
  | cons b l ih =>
    unfold State.copyRowsOf
    dsimp only
    split
    · exact ih (Keeps.fst (Keeps.copyRow h))
    · exact Keeps.copyRow h

theorem Keeps.demoteRow {fm : Nat} {r s : State} (h : Keeps fm r s)
    (hm : Sub 163904 fm := by exact Sub.of (by assumption) (by decide)) {g c t r'} :
    Keeps fm r (State.demoteRow s g c t r') := by
  unfold State.demoteRow
  dsimp only
  split
  · exact Keeps.send (Keeps.addItem h)
  · refine Keeps.foldl h _ ?_
    intro x0 a0 h0
    split
    · split
      · exact Keeps.addItem h0
      · exact h0
    · exact h0

theorem Keeps.undoInstalls {fm : Nat} {r s : State} (h : Keeps fm r s)
    (hm : Sub 131136 fm := by exact Sub.of (by assumption) (by decide)) {g} :
    Keeps fm r (Sys2Proof.Machine.State.undoInstalls s g) := by
  unfold Sys2Proof.Machine.State.undoInstalls
  dsimp only
  refine Keeps.foldl h _ ?_
  intro x0 a0 h0
  split
  · exact Keeps.send h0
  · exact h0

theorem Keeps.failRowCmd {fm : Nat} {r s : State} (h : Keeps fm r s)
    (hm : Sub 688192 fm := by exact Sub.of (by assumption) (by decide)) {g status} :
    Keeps fm r (Sys2Proof.Machine.State.failRowCmd s g status) := by
  unfold Sys2Proof.Machine.State.failRowCmd
  dsimp only
  split
  · exact h
  · split
    · exact Keeps.produce (Keeps.undoInstalls (Keeps.discardGroup (Keeps.update h)))
    · exact Keeps.undoInstalls (Keeps.discardGroup (Keeps.update h))

theorem Keeps.runRows {fm : Nat} {r s : State} (h : Keeps fm r s)
    (hm : Sub 4179940 fm := by exact Sub.of (by assumption) (by decide)) {f q h' c rows total ue} :
    Keeps fm r (State.runRows s f q h' c rows total ue) := by
  unfold State.runRows
  dsimp only
  split
  · exact Keeps.complete h
  · split
    · split
      · exact Keeps.failRowCmd (Keeps.fst (Keeps.pair (Keeps.foldl (Keeps.fst (Keeps.beginGroup (Keeps.bump h))) _ (fun _ _ h0 => Keeps.demoteRow h0))))
      · split
        · exact Keeps.fst (Keeps.pair (Keeps.foldl (Keeps.fst (Keeps.beginGroup (Keeps.bump h))) _ (fun _ _ h0 => Keeps.demoteRow h0)))
        · exact Keeps.decideGroup (Keeps.fst (Keeps.pair (Keeps.foldl (Keeps.fst (Keeps.beginGroup (Keeps.bump h))) _ (fun _ _ h0 => Keeps.demoteRow h0))))
    · split
      · exact Keeps.failRowCmd (Keeps.fst (Keeps.copyRowsOf (Keeps.fst (Keeps.beginGroup (Keeps.bump h)))))
      · split
        · exact Keeps.fst (Keeps.copyRowsOf (Keeps.fst (Keeps.beginGroup (Keeps.bump h))))
        · exact Keeps.decideGroup (Keeps.fst (Keeps.copyRowsOf (Keeps.fst (Keeps.beginGroup (Keeps.bump h)))))

theorem Keeps.rowCommand {fm : Nat} {r s : State} (h : Keeps fm r s)
    (hm : Sub 4179940 fm := by exact Sub.of (by assumption) (by decide)) {f q h' c ue} :
    Keeps fm r (State.rowCommand s f q h' c ue) := by
  unfold State.rowCommand
  dsimp only
  split
  · exact Keeps.complete h
  · split
    · exact Keeps.complete h
    · split
      · exact Keeps.complete (Keeps.fst (Keeps.readMem h))
      · split
        · exact Keeps.complete (Keeps.fst (Keeps.readMem h))
        · split
          · exact Keeps.update (Keeps.fst (Keeps.readMem h))
          · exact Keeps.runRows (Keeps.fst (Keeps.readMem h))

theorem Keeps.rowOp {fm : Nat} {r s : State} (h : Keeps fm r s)
    (hm : Sub 4179940 fm := by exact Sub.of (by assumption) (by decide)) {f q op ue} :
    Keeps fm r (State.rowOp s f q op ue) := by
  unfold State.rowOp
  dsimp only
  refine Keeps.whenFetched h ?_
  intro x0 h0
  split
  · exact Keeps.rowCommand (Keeps.update h0)
  · split
    · exact Keeps.rowCommand (Keeps.ofPair (by assumption) (Keeps.take h0))
    · exact Keeps.ofPair (by assumption) (Keeps.take h0)

theorem Keeps.execPromote {fm : Nat} {r s : State} (h : Keeps fm r s)
    (hm : Sub 4179940 fm := by exact Sub.of (by assumption) (by decide)) {f q ue} : KeepsX fm r (execPromote f q ue s) := by
  unfold Sys2Proof.Machine.execPromote
  exact Keeps.next (Keeps.rowOp h)

theorem Keeps.execDemote {fm : Nat} {r s : State} (h : Keeps fm r s)
    (hm : Sub 4179940 fm := by exact Sub.of (by assumption) (by decide)) {f q} : KeepsX fm r (execDemote f q s) := by
  unfold Sys2Proof.Machine.execDemote
  exact Keeps.next (Keeps.rowOp h)

theorem Keeps.execMigrate {fm : Nat} {r s : State} (h : Keeps fm r s)
    (hm : Sub 4179940 fm := by exact Sub.of (by assumption) (by decide)) {f q ue} : KeepsX fm r (execMigrate f q ue s) := by
  unfold Sys2Proof.Machine.execMigrate
  exact Keeps.next (Keeps.rowOp h)

theorem Keeps.execUnmigrate {fm : Nat} {r s : State} (h : Keeps fm r s)
    (hm : Sub 4179940 fm := by exact Sub.of (by assumption) (by decide)) {f q ue} :
    KeepsX fm r (execUnmigrate f q ue s) := by
  unfold Sys2Proof.Machine.execUnmigrate
  exact Keeps.next (Keeps.rowOp h)

theorem Keeps.sluiceOp {fm : Nat} {r s : State} (h : Keeps fm r s)
    (hm : Sub 622660 fm := by exact Sub.of (by assumption) (by decide)) {f q op} : Keeps fm r (State.sluiceOp s f q op) := by
  unfold State.sluiceOp
  dsimp only
  split
  · exact Keeps.ofPair (by assumption) (Keeps.take h)
  · split
    · split
      · exact Keeps.complete (Keeps.ofPair (by assumption) (Keeps.take h))
      · split
        · exact Keeps.complete (Keeps.setPin (Keeps.ofPair (by assumption) (Keeps.take h)))
        · split
          · exact Keeps.complete (Keeps.prune (Keeps.letGo (Keeps.ofPair (by assumption) (Keeps.take h))))
          · exact Keeps.complete (Keeps.ofPair (by assumption) (Keeps.take h))
    · split
      · exact Keeps.complete (Keeps.ofPair (by assumption) (Keeps.take h))
      · split
        · exact Keeps.complete (Keeps.setPin (Keeps.ofPair (by assumption) (Keeps.take h)))
        · split
          · exact Keeps.complete (Keeps.prune (Keeps.letGo (Keeps.ofPair (by assumption) (Keeps.take h))))
          · exact Keeps.complete (Keeps.ofPair (by assumption) (Keeps.take h))

theorem Keeps.execPin {fm : Nat} {r s : State} (h : Keeps fm r s)
    (hm : Sub 622660 fm := by exact Sub.of (by assumption) (by decide)) {f q} : KeepsX fm r (execPin f q s) := by
  unfold Sys2Proof.Machine.execPin
  exact Keeps.next (Keeps.sluiceOp h)

theorem Keeps.execUnpin {fm : Nat} {r s : State} (h : Keeps fm r s)
    (hm : Sub 622660 fm := by exact Sub.of (by assumption) (by decide)) {f q} : KeepsX fm r (execUnpin f q s) := by
  unfold Sys2Proof.Machine.execUnpin
  exact Keeps.next (Keeps.sluiceOp h)

theorem Keeps.execMark {fm : Nat} {r s : State} (h : Keeps fm r s)
    (hm : Sub 622660 fm := by exact Sub.of (by assumption) (by decide)) {f q} : KeepsX fm r (execMark f q s) := by
  unfold Sys2Proof.Machine.execMark
  exact Keeps.next (Keeps.sluiceOp h)

end Sys2Proof.Machine
end

