-- ==== Sys2Proof/Laws/Keeps/Domains.lean ====
section
/-! SUPPORT. What the operations of Machine/Domains.lean keep. -/

set_option Elab.async false

namespace Sys2Proof.Machine

theorem Keeps.setDm {fm : Nat} {r s : State} (h : Keeps fm r s)
    (hm : Sub 64 fm := by exact Sub.of (by assumption) (by decide)) {d sub v} : Keeps fm r (State.setDm s d sub v) := by
  unfold State.setDm
  exact Keeps.setReg h

theorem Keeps.modDomain {fm : Nat} {r s : State} (h : Keeps fm r s)
    (hm : Sub 262144 fm := by exact Sub.of (by assumption) (by decide)) {d f} : Keeps fm r (State.modDomain s d f) := by
  unfold State.modDomain
  exact Keeps.update h

theorem Keeps.passTick {fm : Nat} {r s : State} (h : Keeps fm r s)
    (hm : Sub 262144 fm := by exact Sub.of (by assumption) (by decide)) {d} : Keeps fm r (State.passTick s d) := by
  unfold State.passTick
  exact Keeps.modDomain h

theorem Keeps.execSampleTick {fm : Nat} {r s : State} (h : Keeps fm r s)
    (hm : Sub 262144 fm := by exact Sub.of (by assumption) (by decide)) {d} : KeepsX fm r (execSampleTick d s) := by
  unfold Sys2Proof.Machine.execSampleTick
  dsimp only
  refine Keeps.next ?_
  split
  · split
    · exact Keeps.modDomain h
    · exact h
  · split
    · exact Keeps.passTick h
    · exact h

theorem Keeps.countFrame {fm : Nat} {r s : State} (h : Keeps fm r s)
    (hm : Sub 262208 fm := by exact Sub.of (by assumption) (by decide)) {d t} : Keeps fm r (State.countFrame s d t) := by
  unfold State.countFrame
  dsimp only
  split
  · exact Keeps.setDm (Keeps.modDomain (Keeps.setDm h))
  · exact Keeps.modDomain (Keeps.setDm h)

theorem Keeps.endShared {fm : Nat} {r s : State} (h : Keeps fm r s)
    (hm : Sub 262208 fm := by exact Sub.of (by assumption) (by decide)) {t} : Keeps fm r (State.endShared s t) := by
  unfold State.endShared
  dsimp only
  refine Keeps.foldl (Keeps.setReg h) _ ?_
  intro x0 a0 h0
  split
  · exact h0
  · split
    · exact Keeps.modDomain h0
    · exact Keeps.modDomain (Keeps.setDm h0)

theorem Keeps.execFrameTick {fm : Nat} {r s : State} (h : Keeps fm r s)
    (hm : Sub 262208 fm := by exact Sub.of (by assumption) (by decide)) {d} : KeepsX fm r (execFrameTick d s) := by
  unfold Sys2Proof.Machine.execFrameTick
  dsimp only
  refine Keeps.next ?_
  split
  · exact h
  · split
    · exact Keeps.countFrame (Keeps.passTick h)
    · split
      · exact Keeps.endShared (Keeps.countFrame (Keeps.passTick h))
      · exact Keeps.foldl (Keeps.countFrame (Keeps.passTick h)) _ (fun _ _ h0 => Keeps.countFrame h0)

theorem Keeps.startDomain {fm : Nat} {r s : State} (h : Keeps fm r s)
    (hm : Sub 262208 fm := by exact Sub.of (by assumption) (by decide)) {d t} : Keeps fm r (State.startDomain s d t) := by
  unfold State.startDomain
  dsimp only
  refine Keeps.modDomain (Keeps.setDm (Keeps.setDm (Keeps.setDm ?_)))
  split
  · exact Keeps.setDm h
  · exact h

theorem Keeps.execDomainStartAt {fm : Nat} {r s : State} (h : Keeps fm r s)
    (hm : Sub 262208 fm := by exact Sub.of (by assumption) (by decide)) {d} : KeepsX fm r (execDomainStartAt d s) := by
  unfold Sys2Proof.Machine.execDomainStartAt
  refine Keeps.next ?_
  split
  · split
    · exact Keeps.startDomain h
    · exact h
  · split
    · exact Keeps.startDomain h
    · exact h
  · exact h

theorem Keeps.writeStartMode {fm : Nat} {r s : State} (h : Keeps fm r s)
    (hm : Sub 262208 fm := by exact Sub.of (by assumption) (by decide)) {d v} : Keeps fm r (State.writeStartMode s d v) := by
  unfold State.writeStartMode
  dsimp only
  split
  · exact Keeps.modDomain (Keeps.setDm h)
  · split
    · exact Keeps.modDomain (Keeps.setDm h)
    · split
      · exact Keeps.modDomain (Keeps.setDm h)
      · exact Keeps.setDm h

theorem Keeps.timingEvent {fm : Nat} {r s : State} (h : Keeps fm r s)
    (hm : Sub 3670464 fm := by exact Sub.of (by assumption) (by decide)) {cause inj} :
    Keeps fm r (State.timingEvent s cause inj) := by
  unfold State.timingEvent
  exact Keeps.raise h

theorem Keeps.lockDomain {fm : Nat} {r s : State} (h : Keeps fm r s)
    (hm : Sub 262208 fm := by exact Sub.of (by assumption) (by decide)) {d e c} : Keeps fm r (State.lockDomain s d e c) := by
  unfold State.lockDomain
  dsimp only
  refine Keeps.setDm ?_
  split
  · exact Keeps.modDomain h
  · exact Keeps.setDm (Keeps.modDomain h)

theorem Keeps.edgeDomain {fm : Nat} {r s : State} (h : Keeps fm r s)
    (hm : Sub 262208 fm := by exact Sub.of (by assumption) (by decide)) {e c d} : Keeps fm r (State.edgeDomain s e c d) := by
  unfold State.edgeDomain
  dsimp only
  split
  · split
    · split
      · exact Keeps.modDomain (Keeps.lockDomain h)
      · exact Keeps.lockDomain h
    · split
      · exact Keeps.modDomain h
      · exact h
  · split
    · split
      · exact Keeps.modDomain (Keeps.lockDomain h)
      · exact Keeps.lockDomain h
    · split
      · exact Keeps.modDomain h
      · exact h

theorem Keeps.detectEdge {fm : Nat} {r s : State} (h : Keeps fm r s)
    (hm : Sub 3932608 fm := by exact Sub.of (by assumption) (by decide)) :
    Keeps fm r (State.detectEdge s) := by
  unfold State.detectEdge
  dsimp only
  split
  · split
    · refine Keeps.bump (Keeps.setReg (Keeps.update ?_))
      split
      · exact Keeps.consume h
      · exact h
    · refine Keeps.foldl ?_ _ (fun _ _ h0 => Keeps.edgeDomain h0)
      split
      · split
        · exact Keeps.timingEvent (Keeps.update (Keeps.setReg (Keeps.setReg (Keeps.setReg (Keeps.update (Keeps.consume h))))))
        · exact Keeps.update (Keeps.setReg (Keeps.setReg (Keeps.setReg (Keeps.update (Keeps.consume h)))))
      · split
        · exact Keeps.timingEvent (Keeps.update (Keeps.setReg (Keeps.setReg (Keeps.setReg (Keeps.update h)))))
        · exact Keeps.update (Keeps.setReg (Keeps.setReg (Keeps.setReg (Keeps.update h))))
  · split
    · refine Keeps.bump (Keeps.setReg (Keeps.update ?_))
      split
      · exact Keeps.consume h
      · exact h
    · refine Keeps.foldl ?_ _ (fun _ _ h0 => Keeps.edgeDomain h0)
      split
      · split
        · exact Keeps.timingEvent (Keeps.update (Keeps.setReg (Keeps.setReg (Keeps.setReg (Keeps.update (Keeps.consume h))))))
        · exact Keeps.update (Keeps.setReg (Keeps.setReg (Keeps.setReg (Keeps.update (Keeps.consume h)))))
      · split
        · exact Keeps.timingEvent (Keeps.update (Keeps.setReg (Keeps.setReg (Keeps.setReg (Keeps.update h)))))
        · exact Keeps.update (Keeps.setReg (Keeps.setReg (Keeps.setReg (Keeps.update h))))

theorem Keeps.execPpsEdge {fm : Nat} {r s : State} (h : Keeps fm r s)
    (hm : Sub 3932608 fm := by exact Sub.of (by assumption) (by decide)) {high} :
    KeepsX fm r (Sys2Proof.Machine.execPpsEdge high s) := by
  unfold Sys2Proof.Machine.execPpsEdge
  dsimp only
  refine Keeps.next ?_
  split
  · exact h
  · split
    · exact Keeps.detectEdge (Keeps.update h)
    · exact Keeps.update h

theorem Keeps.execPpsLoss {fm : Nat} {r s : State} (h : Keeps fm r s)
    (hm : Sub 3932608 fm := by exact Sub.of (by assumption) (by decide)) : KeepsX fm r (execPpsLoss s) := by
  unfold Sys2Proof.Machine.execPpsLoss
  dsimp only
  refine Keeps.next ?_
  split
  · exact h
  · split
    · exact Keeps.timingEvent (Keeps.update (Keeps.setReg h))
    · exact Keeps.setReg h

theorem Keeps.enterShared {fm : Nat} {r s : State} (h : Keeps fm r s)
    (hm : Sub 262208 fm := by exact Sub.of (by assumption) (by decide)) : Keeps fm r (State.enterShared s) := by
  unfold State.enterShared
  exact Keeps.foldl (Keeps.setReg h) _ (fun _ _ h0 => Keeps.modDomain h0)

theorem Keeps.writeSharedTick {fm : Nat} {r s : State} (h : Keeps fm r s)
    (hm : Sub 262208 fm := by exact Sub.of (by assumption) (by decide)) {v} : Keeps fm r (State.writeSharedTick s v) := by
  unfold State.writeSharedTick
  dsimp only
  split
  · exact Keeps.setReg h
  · exact Keeps.enterShared (Keeps.setReg h)

end Sys2Proof.Machine
end

