-- ==== Sys2Proof/Laws/Keeps/Streams.lean ====
section
/-! SUPPORT. What the operations of Machine/Streams.lean keep. -/

set_option Elab.async false

namespace Sys2Proof.Machine

theorem Keeps.modEntry {fm : Nat} {r s : State} (h : Keeps fm r s)
    (hm : Sub 262144 fm := by exact Sub.of (by assumption) (by decide)) {n f} : Keeps fm r (State.modEntry s n f) := by
  unfold State.modEntry
  exact Keeps.update h

theorem Keeps.setBusy {fm : Nat} {r s : State} (h : Keeps fm r s)
    (hm : Sub 262144 fm := by exact Sub.of (by assumption) (by decide)) {n b} : Keeps fm r (State.setBusy s n b) := by
  unfold State.setBusy
  exact Keeps.modEntry h

theorem Keeps.setStk {fm : Nat} {r s : State} (h : Keeps fm r s)
    (hm : Sub 64 fm := by exact Sub.of (by assumption) (by decide)) {n sub v} : Keeps fm r (State.setStk s n sub v) := by
  unfold State.setStk
  exact Keeps.setReg h

theorem Keeps.setBatches {fm : Nat} {r s : State} (h : Keeps fm r s)
    (hm : Sub 262144 fm := by exact Sub.of (by assumption) (by decide)) {n l} : Keeps fm r (State.setBatches s n l) := by
  unfold State.setBatches
  exact Keeps.update h

theorem Keeps.modBatch {fm : Nat} {r s : State} (h : Keeps fm r s)
    (hm : Sub 262144 fm := by exact Sub.of (by assumption) (by decide)) {n j f} : Keeps fm r (State.modBatch s n j f) := by
  unfold State.modBatch
  exact Keeps.setBatches h

theorem Keeps.setFull {fm : Nat} {r s : State} (h : Keeps fm r s)
    (hm : Sub 262144 fm := by exact Sub.of (by assumption) (by decide)) {die row on} :
    Keeps fm r (State.setFull s die row on) := by
  unfold State.setFull
  exact Keeps.update h

theorem Keeps.xWrite {fm : Nat} {r s : State} (h : Keeps fm r s)
    (hm : Sub 278624 fm := by exact Sub.of (by assumption) (by decide)) {die row bs} :
    Keeps fm r (State.xWrite s die row bs) := by
  unfold State.xWrite
  dsimp only
  split
  · exact h
  · split
    · exact Keeps.unmapped h
    · split
      · exact Keeps.setFull (Keeps.putResv h)
      · exact Keeps.putResv h

theorem Keeps.xRead {fm : Nat} {r s : State} (h : Keeps fm r s)
    (hm : Sub 262240 fm := by exact Sub.of (by assumption) (by decide)) {die row} : KeepsP fm r (State.xRead s die row) := by
  unfold State.xRead
  dsimp only
  split
  · exact Keeps.pair h
  · split
    · exact Keeps.pair (Keeps.unmapped h)
    · refine Keeps.pair (Keeps.useSlice ?_)
      split
      · exact Keeps.setFull h
      · exact h

theorem Keeps.xReadAll {fm : Nat} {r s : State} (h : Keeps fm r s)
    (hm : Sub 262240 fm := by exact Sub.of (by assumption) (by decide)) {l} :
    KeepsP fm r (State.xReadAll s l) := by
  unfold State.xReadAll
  dsimp only
  exact Keeps.foldlP (Keeps.pair h) _ (fun _ _ h0 => Keeps.pair (Keeps.fst (Keeps.xRead (Keeps.fst h0))))

theorem Keeps.settleCancel {fm : Nat} {r s : State} (h : Keeps fm r s)
    (hm : Sub 262144 fm := by exact Sub.of (by assumption) (by decide)) : Keeps fm r (State.settleCancel s) := by
  unfold State.settleCancel
  dsimp only
  refine Keeps.foldl h _ ?_
  intro x0 a0 h0
  split
  · exact h0
  · exact Keeps.update h0

theorem Keeps.modChunk {fm : Nat} {r s : State} (h : Keeps fm r s)
    (hm : Sub 262144 fm := by exact Sub.of (by assumption) (by decide)) {c f} : Keeps fm r (State.modChunk s c f) := by
  unfold State.modChunk
  exact Keeps.update h

theorem Keeps.dropChunk {fm : Nat} {r s : State} (h : Keeps fm r s)
    (hm : Sub 262144 fm := by exact Sub.of (by assumption) (by decide)) {c} : Keeps fm r (State.dropChunk s c) := by
  unfold State.dropChunk
  exact Keeps.update h

theorem Keeps.modRing {fm : Nat} {r s : State} (h : Keeps fm r s)
    (hm : Sub 262144 fm := by exact Sub.of (by assumption) (by decide)) {n f} : Keeps fm r (State.modRing s n f) := by
  unfold State.modRing
  exact Keeps.update h

theorem Keeps.chunkRec {fm : Nat} {r s : State} (h : Keeps fm r s)
    (hm : Sub 524288 fm := by exact Sub.of (by assumption) (by decide)) {c p status cause mark flags} :
    Keeps fm r (State.chunkRec s c p status cause mark flags) := by
  unfold State.chunkRec
  exact Keeps.produce h

theorem Keeps.emptyRec {fm : Nat} {r s : State} (h : Keeps fm r s)
    (hm : Sub 524288 fm := by exact Sub.of (by assumption) (by decide)) {c status cause} :
    Keeps fm r (State.emptyRec s c status cause) := by
  unfold State.emptyRec
  exact Keeps.chunkRec h

theorem Keeps.releaseSlots {fm : Nat} {r s : State} (h : Keeps fm r s)
    (hm : Sub 262144 fm := by exact Sub.of (by assumption) (by decide)) {c} : Keeps fm r (State.releaseSlots s c) := by
  unfold State.releaseSlots
  split
  · exact h
  · exact Keeps.modRing h

theorem Keeps.discardChunk {fm : Nat} {r s : State} (h : Keeps fm r s)
    (hm : Sub 786496 fm := by exact Sub.of (by assumption) (by decide)) {c cause} :
    Keeps fm r (State.discardChunk s c cause) := by
  unfold State.discardChunk
  exact Keeps.bump (Keeps.dropChunk (Keeps.releaseSlots (Keeps.emptyRec h)))

theorem Keeps.holdChunk {fm : Nat} {r s : State} (h : Keeps fm r s)
    (hm : Sub 786496 fm := by exact Sub.of (by assumption) (by decide)) {cid cause} :
    Keeps fm r (State.holdChunk s cid cause) := by
  unfold State.holdChunk
  dsimp only
  split
  · exact Keeps.modChunk (Keeps.setBusy (Keeps.bump (Keeps.emptyRec h)))
  · exact h

theorem Keeps.endBatch {fm : Nat} {r s : State} (h : Keeps fm r s)
    (hm : Sub 819264 fm := by exact Sub.of (by assumption) (by decide)) {n j cause halt} :
    Keeps fm r (State.endBatch s n j cause halt) := by
  unfold State.endBatch
  dsimp only
  split
  · exact h
  · split
    · refine Keeps.setStk (Keeps.update (Keeps.setBatches (Keeps.foldl (Keeps.discardGroup h) _ ?_)))
      intro x0 a0 h0
      split
      · exact h0
      · exact Keeps.holdChunk h0
    · refine Keeps.update (Keeps.setBatches (Keeps.foldl (Keeps.discardGroup h) _ ?_))
      intro x0 a0 h0
      split
      · exact h0
      · exact Keeps.holdChunk h0

theorem Keeps.missChunk {fm : Nat} {r s : State} (h : Keeps fm r s)
    (hm : Sub 3932608 fm := by exact Sub.of (by assumption) (by decide)) {n} : Keeps fm r (State.missChunk s n) := by
  unfold State.missChunk
  dsimp only
  split
  · exact h
  · exact Keeps.raise (Keeps.modEntry (Keeps.bump (Keeps.bump (Keeps.update h))))

end Sys2Proof.Machine
end

