-- ==== Sys2Proof/Laws/Keeps/Sched.lean ====
section
/-! SUPPORT. What the operations of Machine/Sched.lean keep. -/

set_option Elab.async false

namespace Sys2Proof.Machine

theorem Keeps.setBlocked {fm : Nat} {r s : State} (h : Keeps fm r s)
    (hm : Sub 1536 fm := by exact Sub.of (by assumption) (by decide)) {x on} : Keeps fm r (State.setBlocked s x on) := by
  unfold State.setBlocked
  dsimp only
  split
  · split
    · exact h
    · exact Keeps.modCtx h
  · split
    · exact Keeps.modCsq (Keeps.modCtx h)
    · exact h

theorem Keeps.setCtxState {fm : Nat} {r s : State} (h : Keeps fm r s)
    (hm : Sub 1536 fm := by exact Sub.of (by assumption) (by decide)) {x st} : Keeps fm r (State.setCtxState s x st) := by
  unfold State.setCtxState
  exact Keeps.setBlocked (Keeps.modCtx h)

theorem Keeps.restCtx {fm : Nat} {r s : State} (h : Keeps fm r s)
    (hm : Sub 1536 fm := by exact Sub.of (by assumption) (by decide)) {x} : Keeps fm r (State.restCtx s x) := by
  unfold State.restCtx
  exact Keeps.setCtxState h

theorem Keeps.busyTick {fm : Nat} {r s : State} (h : Keeps fm r s)
    (hm : Sub 576 fm := by exact Sub.of (by assumption) (by decide)) {p} :
    Keeps fm r (Sys2Proof.Machine.State.busyTick s p) := by
  unfold Sys2Proof.Machine.State.busyTick
  dsimp only
  exact Keeps.modCore (Keeps.foldl (Keeps.foldl h _ (fun _ _ h0 => Keeps.charge h0)) _ (fun _ _ h0 => Keeps.charge h0))

theorem Keeps.busyAll {fm : Nat} {r s : State} (h : Keeps fm r s)
    (hm : Sub 576 fm := by exact Sub.of (by assumption) (by decide)) :
    Keeps fm r (Sys2Proof.Machine.State.busyAll s) := by
  unfold Sys2Proof.Machine.State.busyAll
  exact Keeps.foldl h _ (fun _ _ h0 => Keeps.busyTick h0)

theorem Keeps.wakeFor {fm : Nat} {r s : State} (h : Keeps fm r s)
    (hm : Sub 512 fm := by exact Sub.of (by assumption) (by decide)) {p seg} :
    Keeps fm r (State.wakeFor s p seg) := by
  unfold State.wakeFor
  dsimp only
  refine Keeps.foldl (Keeps.foldl h _ ?_) _ ?_
  · intro x0 a0 h0
    split
    · exact Keeps.useEngine h0
    · exact h0
  · intro x0 a0 h0
    split
    · exact Keeps.useBank h0
    · exact h0

theorem Keeps.segPermit {fm : Nat} {r s : State} (h : Keeps fm r s)
    (hm : Sub 544 fm := by exact Sub.of (by assumption) (by decide)) {p x seg} : Keeps fm r (State.segPermit s p x seg) := by
  unfold State.segPermit
  dsimp only
  split
  · split
    · exact Keeps.askPermit h
    · exact Keeps.returnPermit h
  · refine Keeps.wakeFor ?_
    split
    · exact Keeps.askPermit h
    · exact Keeps.returnPermit h

theorem Keeps.judgeBlocked {fm : Nat} {r s : State} (h : Keeps fm r s)
    (hm : Sub 1536 fm := by exact Sub.of (by assumption) (by decide)) {p} :
    Keeps fm r (Sys2Proof.Machine.State.judgeBlocked s p) := by
  unfold Sys2Proof.Machine.State.judgeBlocked
  dsimp only
  split
  · exact Keeps.setBlocked h
  · exact Keeps.setBlocked h
  · exact Keeps.setBlocked h
  · exact h

theorem Keeps.takeSpan {fm : Nat} {r s : State} (h : Keeps fm r s)
    (hm : Sub 2048 fm := by exact Sub.of (by assumption) (by decide)) {j} : KeepsP fm r (State.takeSpan s j) := by
  unfold State.takeSpan
  split
  · split
    · exact Keeps.pair (Keeps.modJob h)
    · exact Keeps.pair h
  · exact Keeps.pair h

theorem Keeps.switchDone {fm : Nat} {r s : State} (h : Keeps fm r s)
    (hm : Sub 532480 fm := by exact Sub.of (by assumption) (by decide)) {x} : Keeps fm r (State.switchDone s x) := by
  unfold State.switchDone
  split
  · exact Keeps.complete (Keeps.update h)
  · exact h

theorem Keeps.startCtx {fm : Nat} {r s : State} (h : Keeps fm r s)
    (hm : Sub 536096 fm := by exact Sub.of (by assumption) (by decide)) {p x} : Keeps fm r (State.startCtx s p x) := by
  unfold State.startCtx
  exact Keeps.segPermit (Keeps.switchDone (Keeps.modCsq (Keeps.fst (Keeps.takeSpan (Keeps.setBlocked (Keeps.modCtx h))))))

theorem Keeps.kick {fm : Nat} {r s : State} (h : Keeps fm r s)
    (hm : Sub 536096 fm := by exact Sub.of (by assumption) (by decide)) {p} : Keeps fm r (State.kick s p) := by
  unfold State.kick
  split
  · split
    · exact Keeps.judgeBlocked (Keeps.startCtx h)
    · exact h
  · exact h

theorem Keeps.idleCore {fm : Nat} {r s : State} (h : Keeps fm r s)
    (hm : Sub 544 fm := by exact Sub.of (by assumption) (by decide)) {p} : Keeps fm r (State.idleCore s p) := by
  unfold State.idleCore
  exact Keeps.returnPermit (Keeps.modCsq h)

theorem Keeps.runNext {fm : Nat} {r s : State} (h : Keeps fm r s)
    (hm : Sub 536160 fm := by exact Sub.of (by assumption) (by decide)) {p old} : Keeps fm r (State.runNext s p old) := by
  unfold State.runNext
  dsimp only
  split
  · exact Keeps.bump (Keeps.bump (Keeps.kick (Keeps.idleCore h)))
  · exact Keeps.kick (Keeps.idleCore h)

theorem Keeps.handTo {fm : Nat} {r s : State} (h : Keeps fm r s)
    (hm : Sub 536160 fm := by exact Sub.of (by assumption) (by decide)) {p old y} :
    Keeps fm r (Sys2Proof.Machine.State.handTo s p old y) := by
  unfold Sys2Proof.Machine.State.handTo
  dsimp only
  split
  · split
    · exact Keeps.judgeBlocked (Keeps.modCsq (Keeps.startCtx (Keeps.modCsq h)))
    · exact Keeps.judgeBlocked (Keeps.bump (Keeps.bump (Keeps.startCtx (Keeps.modCsq h))))
  · exact Keeps.runNext (Keeps.returnPermit (Keeps.modCsq h))

theorem Keeps.undoInvocation {fm : Nat} {r s : State} (h : Keeps fm r s)
    (hm : Sub 1536 fm := by exact Sub.of (by assumption) (by decide)) {x} : Keeps fm r (State.undoInvocation s x) := by
  unfold State.undoInvocation
  exact Keeps.modCtx (Keeps.modCore h)

theorem Keeps.keepUndo {fm : Nat} {r s : State} (h : Keeps fm r s)
    (hm : Sub 1024 fm := by exact Sub.of (by assumption) (by decide)) {x l} : Keeps fm r (State.keepUndo s x l) := by
  unfold State.keepUndo
  exact Keeps.modCtx h

theorem Keeps.unruly {fm : Nat} {r s : State} (h : Keeps fm r s)
    (hm : Sub 516 fm := by exact Sub.of (by assumption) (by decide)) {p} :
    Keeps fm r (State.unruly s p) := by
  unfold State.unruly
  dsimp only
  exact Keeps.modCore (Keeps.update h)

theorem Keeps.markTagFault {fm : Nat} {r s : State} (h : Keeps fm r s)
    (hm : Sub 3072 fm := by exact Sub.of (by assumption) (by decide)) {x} :
    Keeps fm r (Sys2Proof.Machine.State.markTagFault s x) := by
  unfold Sys2Proof.Machine.State.markTagFault
  dsimp only
  split
  · exact Keeps.modJob (Keeps.modCtx h)
  · exact Keeps.modCtx h

theorem Keeps.csqTags {fm : Nat} {r s : State} (h : Keeps fm r s)
    (hm : Sub 3072 fm := by exact Sub.of (by assumption) (by decide)) {p x rows} :
    Keeps fm r (Sys2Proof.Machine.State.csqTags s p x rows) := by
  unfold Sys2Proof.Machine.State.csqTags
  split
  · exact Keeps.markTagFault h
  · exact h

theorem Keeps.modOp {fm : Nat} {r s : State} (h : Keeps fm r s)
    (hm : Sub 8192 fm := by exact Sub.of (by assumption) (by decide)) {f g} :
    Keeps fm r (Sys2Proof.Machine.State.modOp s f g) := by
  unfold Sys2Proof.Machine.State.modOp
  exact Keeps.update h

theorem Keeps.beginSpill {fm : Nat} {r s : State} (h : Keeps fm r s)
    (hm : Sub 11808 fm := by exact Sub.of (by assumption) (by decide)) {x o} :
    Keeps fm r (Sys2Proof.Machine.State.beginSpill s x o) := by
  unfold Sys2Proof.Machine.State.beginSpill
  dsimp only
  split
  · split
    · exact Keeps.askPermit (Keeps.modOp (Keeps.modCtx (Keeps.setCtxState h)))
    · exact Keeps.modOp (Keeps.modCtx (Keeps.setCtxState h))
  · split
    · exact Keeps.askPermit (Keeps.modOp (Keeps.modCtx (Keeps.setCtxState (Keeps.csqTags h))))
    · exact Keeps.modOp (Keeps.modCtx (Keeps.setCtxState (Keeps.csqTags h)))

theorem Keeps.dropDmv {fm : Nat} {r s : State} (h : Keeps fm r s)
    (hm : Sub 608 fm := by exact Sub.of (by assumption) (by decide)) {p x} :
    Keeps fm r (State.dropDmv s p x) := by
  unfold State.dropDmv
  dsimp only
  refine Keeps.foldl (Keeps.busyTick h) _ ?_
  intro x0 a0 h0
  split
  · exact h0
  · exact Keeps.returnPermit h0

theorem Keeps.takeSwaps {fm : Nat} {r s : State} (h : Keeps fm r s)
    (hm : Sub 1536 fm := by exact Sub.of (by assumption) (by decide)) {x} :
    Keeps fm r (Sys2Proof.Machine.State.takeSwaps s x) := by
  unfold Sys2Proof.Machine.State.takeSwaps
  dsimp only
  exact Keeps.modCtx (Keeps.modCore h)

theorem Keeps.parkStart {fm : Nat} {r s : State} (h : Keeps fm r s)
    (hm : Sub 1536 fm := by exact Sub.of (by assumption) (by decide)) {x} : Keeps fm r (State.parkStart s x) := by
  unfold State.parkStart
  dsimp only
  exact Keeps.restCtx (Keeps.modCtx (Keeps.takeSwaps (Keeps.undoInvocation h)))

theorem Keeps.beginClear {fm : Nat} {r s : State} (h : Keeps fm r s)
    (hm : Sub 1536 fm := by exact Sub.of (by assumption) (by decide)) {x} : Keeps fm r (State.beginClear s x) := by
  unfold State.beginClear
  exact Keeps.modCtx (Keeps.setCtxState h)

theorem Keeps.cancelNow {fm : Nat} {r s : State} (h : Keeps fm r s)
    (hm : Sub 798304 fm := by exact Sub.of (by assumption) (by decide)) {p} : Keeps fm r (State.cancelNow s p) := by
  unfold State.cancelNow
  dsimp only
  refine Keeps.settleCancel (Keeps.handTo (Keeps.returnPermit ?_))
  split
  · exact Keeps.beginClear (Keeps.parkStart (Keeps.modCore (Keeps.dropDmv h)))
  · split
    · exact Keeps.beginSpill (Keeps.parkStart (Keeps.modCore (Keeps.dropDmv h)))
    · exact Keeps.parkStart (Keeps.modCore (Keeps.dropDmv h))

theorem Keeps.askCancel {fm : Nat} {r s : State} (h : Keeps fm r s)
    (hm : Sub 798304 fm := by exact Sub.of (by assumption) (by decide)) {p cause} :
    Keeps fm r (State.askCancel s p cause) := by
  unfold State.askCancel
  dsimp only
  split
  · exact Keeps.modCsq h
  · exact Keeps.cancelNow (Keeps.modCsq h)

theorem Keeps.cancelInv {fm : Nat} {r s : State} (h : Keeps fm r s)
    (hm : Sub 798304 fm := by exact Sub.of (by assumption) (by decide)) {j x} : Keeps fm r (State.cancelInv s j x) := by
  unfold State.cancelInv
  dsimp only
  split
  · split
    · exact Keeps.askCancel h
    · exact Keeps.parkStart h
    · exact Keeps.modCtx h
  · split
    · split
      · exact Keeps.beginClear (Keeps.modCtx h)
      · split
        · exact Keeps.restCtx (Keeps.modCtx h)
        · exact Keeps.modCtx h
    · split
      · split
        · exact Keeps.restCtx (Keeps.modCtx h)
        · exact Keeps.modCtx h
      · exact h

end Sys2Proof.Machine
end

