-- ==== Sys2Proof/Laws/Keeps/Commit.lean ====
section
/-! SUPPORT. What the operations of Machine/Commit.lean keep. -/

set_option Elab.async false

namespace Sys2Proof.Machine

theorem Keeps.announce {fm : Nat} {r s : State} (h : Keeps fm r s)
    (hm : Sub 131136 fm := by exact Sub.of (by assumption) (by decide)) : Keeps fm r (State.announce s) := by
  unfold State.announce
  dsimp only
  split
  · exact h
  · exact Keeps.foldl (Keeps.setReg h) _ (fun _ _ h0 => Keeps.send h0)

theorem Keeps.releasePins {fm : Nat} {r s : State} (h : Keeps fm r s)
    (hm : Sub 98304 fm := by exact Sub.of (by assumption) (by decide)) {j} : Keeps fm r (State.releasePins s j) := by
  unfold State.releasePins
  dsimp only
  split
  · exact Keeps.prune (Keeps.update h)
  · exact h

theorem Keeps.sendVerdicts {fm : Nat} {r s : State} (h : Keeps fm r s)
    (hm : Sub 131136 fm := by exact Sub.of (by assumption) (by decide)) {j status} :
    Keeps fm r (State.sendVerdicts s j status) := by
  unfold State.sendVerdicts
  exact Keeps.foldl h _ (fun _ _ h0 => Keeps.send h0)

theorem Keeps.dropJob {fm : Nat} {r s : State} (h : Keeps fm r s)
    (hm : Sub 2048 fm := by exact Sub.of (by assumption) (by decide)) {j} : Keeps fm r (State.dropJob s j) := by
  unfold State.dropJob
  exact Keeps.update h

theorem Keeps.freeCtx {fm : Nat} {r s : State} (h : Keeps fm r s)
    (hm : Sub 536096 fm := by exact Sub.of (by assumption) (by decide)) {j x} : Keeps fm r (State.freeCtx s j x) := by
  unfold State.freeCtx
  dsimp only
  split
  · split
    · exact Keeps.beginClear (Keeps.modCtx h)
    · exact Keeps.kick (Keeps.modCtx h)
  · exact h

theorem Keeps.tryFinish {fm : Nat} {r s : State} (h : Keeps fm r s)
    (hm : Sub 536096 fm := by exact Sub.of (by assumption) (by decide)) {j} : Keeps fm r (State.tryFinish s j) := by
  unfold State.tryFinish
  dsimp only
  split
  · split
    · refine Keeps.foldl (Keeps.dropJob ?_) _ (fun _ _ h0 => Keeps.freeCtx h0)
      split
      · exact h
      · exact Keeps.produce h
    · exact h
  · exact h

theorem Keeps.discardJob {fm : Nat} {r s : State} (h : Keeps fm r s)
    (hm : Sub 32832 fm := by exact Sub.of (by assumption) (by decide)) {j} : Keeps fm r (State.discardJob s j) := by
  unfold State.discardJob
  exact Keeps.foldl h _ (fun _ _ h0 => Keeps.discardGroup h0)

theorem Keeps.abortJob {fm : Nat} {r s : State} (h : Keeps fm r s)
    (hm : Sub 1027680 fm := by exact Sub.of (by assumption) (by decide)) {j cause} :
    Keeps fm r (State.abortJob s j cause) := by
  unfold State.abortJob
  dsimp only
  split
  · exact h
  · split
    · exact Keeps.bump h
    · refine Keeps.announce (Keeps.settleCancel (Keeps.foldl (Keeps.foldl (Keeps.dropJob ?_) _ (fun _ _ h0 => Keeps.cancelInv h0)) _ (fun _ _ h0 => Keeps.kick h0)))
      split
      · exact Keeps.endBatch (Keeps.releasePins (Keeps.sendVerdicts (Keeps.discardJob (Keeps.modJob h))))
      · split
        · exact Keeps.releasePins (Keeps.sendVerdicts (Keeps.discardJob (Keeps.modJob h)))
        · exact Keeps.produce (Keeps.releasePins (Keeps.sendVerdicts (Keeps.discardJob (Keeps.modJob h))))

theorem Keeps.openJob {fm : Nat} {r s : State} (h : Keeps fm r s)
    (hm : Sub 1044448 fm := by exact Sub.of (by assumption) (by decide)) {j} : Keeps fm r (State.openJob s j) := by
  unfold State.openJob
  exact Keeps.tryFinish (Keeps.modJob (Keeps.foldl h _ (fun _ _ h0 => Keeps.modJob (Keeps.openGroup h0))))

theorem Keeps.latchJob {fm : Nat} {r s : State} (h : Keeps fm r s)
    (hm : Sub 1044448 fm := by exact Sub.of (by assumption) (by decide)) {j die} : Keeps fm r (State.latchJob s j die) := by
  unfold State.latchJob
  dsimp only
  split
  · exact h
  · split
    · exact Keeps.announce (Keeps.openJob (Keeps.ofPair (by assumption) (Keeps.askMarks (Keeps.releasePins (Keeps.sendVerdicts (Keeps.modJob h))))))
    · exact Keeps.announce (Keeps.ofPair (by assumption) (Keeps.askMarks (Keeps.releasePins (Keeps.sendVerdicts (Keeps.modJob h)))))

end Sys2Proof.Machine
end

