-- ==== Sys2Proof/Laws/Keeps/Convert.lean ====
section
/-! SUPPORT. What the operations of Machine/Convert.lean keep. -/

set_option Elab.async false

namespace Sys2Proof.Machine

theorem Keeps.countConv {fm : Nat} {r s : State} (h : Keeps fm r s)
    (hm : Sub 64 fm := by exact Sub.of (by assumption) (by decide)) {part n} : Keeps fm r (State.countConv s part n) := by
  unfold State.countConv
  exact Keeps.bump (Keeps.bump (Keeps.bump (Keeps.bump (Keeps.bump (Keeps.bump (Keeps.bump h))))))

end Sys2Proof.Machine
end

