-- ==== Sys2Proof/Laws/Keeps/Updates.lean ====
section
/-! SUPPORT. What the operations of Machine/Updates.lean keep. -/

set_option Elab.async false

namespace Sys2Proof.Machine

theorem Keeps.countGrad {fm : Nat} {r s : State} (h : Keeps fm r s)
    (hm : Sub 64 fm := by exact Sub.of (by assumption) (by decide)) {d g excess} :
    Keeps fm r (State.countGrad s d g excess) := by
  unfold State.countGrad
  dsimp only
  split
  · exact Keeps.bump (Keeps.bump (Keeps.bump (Keeps.bump h)))
  · exact Keeps.bump (Keeps.bump h)

theorem Keeps.addGradient {fm : Nat} {r s : State} (h : Keeps fm r s)
    (hm : Sub 32832 fm := by exact Sub.of (by assumption) (by decide)) {die grp job t y14 d core tok bs was} :
    KeepsP fm r (Sys2Proof.Machine.State.addGradient s die grp job t y14 d core tok bs was) := by
  unfold Sys2Proof.Machine.State.addGradient
  dsimp only
  split
  · exact Keeps.pair (Keeps.countGrad (Keeps.update h))
  · split
    · split
      · exact Keeps.pair (Keeps.failGroup h)
      · split
        · exact Keeps.pair h
        · split
          · refine Keeps.pair ?_
            split
            · exact h
            · exact Keeps.bump h
          · split
            · refine Keeps.pair ?_
              split
              · exact h
              · exact Keeps.bump h
            · exact Keeps.pair (Keeps.countGrad (Keeps.update h))
    · split
      · exact Keeps.pair (Keeps.failGroup h)
      · split
        · exact Keeps.pair h
        · split
          · refine Keeps.pair ?_
            split
            · exact h
            · exact Keeps.bump h
          · split
            · refine Keeps.pair ?_
              split
              · exact h
              · exact Keeps.bump h
            · exact Keeps.pair (Keeps.countGrad (Keeps.update h))

theorem Keeps.modAccums {fm : Nat} {r s : State} (h : Keeps fm r s)
    (hm : Sub 32768 fm := by exact Sub.of (by assumption) (by decide)) {f} : Keeps fm r (State.modAccums s f) := by
  unfold State.modAccums
  exact Keeps.update h

theorem Keeps.joinSpan {fm : Nat} {r s : State} (h : Keeps fm r s)
    (hm : Sub 32768 fm := by exact Sub.of (by assumption) (by decide)) {p toks} : Keeps fm r (State.joinSpan s p toks) := by
  unfold State.joinSpan
  dsimp only
  exact Keeps.rearm (Keeps.rearm (Keeps.modAccums (Keeps.update h)))

theorem Keeps.dropParts {fm : Nat} {r s : State} (h : Keeps fm r s)
    (hm : Sub 32768 fm := by exact Sub.of (by assumption) (by decide)) {f} : Keeps fm r (State.dropParts s f) := by
  unfold State.dropParts
  exact Keeps.modAccums h

theorem Keeps.dropEmptyGroups {fm : Nat} {r s : State} (h : Keeps fm r s)
    (hm : Sub 32768 fm := by exact Sub.of (by assumption) (by decide)) : Keeps fm r (State.dropEmptyGroups s) := by
  unfold State.dropEmptyGroups
  exact Keeps.update h

theorem Keeps.discardSpan {fm : Nat} {r s : State} (h : Keeps fm r s)
    (hm : Sub 163904 fm := by exact Sub.of (by assumption) (by decide)) {p span job} :
    Keeps fm r (State.discardSpan s p span job) := by
  unfold State.discardSpan
  dsimp only
  split
  · exact Keeps.foldl (Keeps.dropEmptyGroups (Keeps.dropParts (Keeps.dropStaged h))) _ (fun _ _ h0 => Keeps.send h0)
  · exact Keeps.dropEmptyGroups (Keeps.dropParts (Keeps.dropStaged h))

theorem Keeps.askApplies {fm : Nat} {r s : State} (h : Keeps fm r s)
    (hm : Sub 32768 fm := by exact Sub.of (by assumption) (by decide)) {g job} : Keeps fm r (State.askApplies s g job) := by
  unfold State.askApplies
  exact Keeps.update h

theorem Keeps.rowRead {fm : Nat} {r s : State} (h : Keeps fm r s)
    (hm : Sub 3817920 fm := by exact Sub.of (by assumption) (by decide)) {part a n ue} :
    KeepsP fm r (Sys2Proof.Machine.State.rowRead s part a n ue) := by
  unfold Sys2Proof.Machine.State.rowRead
  dsimp only
  split
  · split
    · exact Keeps.pair (Keeps.fst (Keeps.readMem h))
    · split
      · exact Keeps.pair (Keeps.fst (Keeps.readMem h))
      · split
        · exact Keeps.pair (Keeps.memEvent (Keeps.fst (Keeps.readMem h)))
        · exact Keeps.pair (Keeps.fst (Keeps.readMem h))
  · split
    · exact Keeps.pair (Keeps.fst (Keeps.readMem h))
    · split
      · exact Keeps.pair (Keeps.fst (Keeps.readMem h))
      · split
        · exact Keeps.pair (Keeps.memEvent (Keeps.fst (Keeps.readMem h)))
        · exact Keeps.pair (Keeps.fst (Keeps.readMem h))

theorem Keeps.applyRead {fm : Nat} {r s : State} (h : Keeps fm r s)
    (hm : Sub 3817924 fm := by exact Sub.of (by assumption) (by decide)) {t r' d st ue} :
    KeepsP fm r (State.applyRead s t r' d st ue) := by
  unfold State.applyRead
  dsimp only
  split
  · exact Keeps.pair (Keeps.fst (Keeps.resvCheck h))
  · exact Keeps.rowRead h

theorem Keeps.applyDraws {fm : Nat} {r s : State} (h : Keeps fm r s)
    (hm : Sub 576 fm := by exact Sub.of (by assumption) (by decide)) {t y2 d w} :
    Keeps fm r (State.applyDraws s t y2 d w) := by
  unfold State.applyDraws
  dsimp only
  split
  · exact h
  · exact Keeps.runBank h

theorem Keeps.applyRow {fm : Nat} {r s : State} (h : Keeps fm r s)
    (hm : Sub 3818436 fm := by exact Sub.of (by assumption) (by decide)) {g t r' d ue} :
    KeepsP fm r (State.applyRow s g t r' d ue) := by
  unfold State.applyRow
  dsimp only
  split
  · exact Keeps.pair h
  · split
    · exact Keeps.pair (Keeps.bump (Keeps.fst (Keeps.resvCheck h)))
    · split
      · refine Keeps.pair (Keeps.applyDraws (Keeps.fst ?_))
        split
        · exact Keeps.applyRead (Keeps.fst (Keeps.applyRead (Keeps.fst (Keeps.resvCheck h))))
        · exact Keeps.pair (Keeps.fst (Keeps.applyRead (Keeps.fst (Keeps.resvCheck h))))
      · refine Keeps.pair (Keeps.bump (Keeps.fst ?_))
        split
        · exact Keeps.applyRead (Keeps.fst (Keeps.applyRead (Keeps.fst (Keeps.resvCheck h))))
        · exact Keeps.pair (Keeps.fst (Keeps.applyRead (Keeps.fst (Keeps.resvCheck h))))

theorem Keeps.applyRows {fm : Nat} {r s : State} (h : Keeps fm r s)
    (hm : Sub 3851204 fm := by exact Sub.of (by assumption) (by decide)) {g t d ue a a' a''} :
    KeepsP fm r (State.applyRows s g t d ue a a' a'') := by
  induction a generalizing s g t d ue a' a'' with
  | nil =>
    unfold State.applyRows
    exact Keeps.pair h
  | cons b l ih =>
    unfold State.applyRows
    dsimp only
    exact ih (Keeps.fst (Keeps.applyRow (Keeps.lockRow h)))

theorem Keeps.judgeApply {fm : Nat} {r s : State} (h : Keeps fm r s)
    (hm : Sub 3670464 fm := by exact Sub.of (by assumption) (by decide)) {t d n} :
    Keeps fm r (State.judgeApply s t d n) := by
  unfold State.judgeApply
  dsimp only
  split
  · refine Keeps.raise (Keeps.bump (Keeps.bump ?_))
    split
    · exact Keeps.consume (Keeps.bump (Keeps.countConv h))
    · exact Keeps.bump (Keeps.countConv h)
  · split
    · exact Keeps.consume (Keeps.bump (Keeps.countConv h))
    · exact Keeps.bump (Keeps.countConv h)

theorem Keeps.setApply {fm : Nat} {r s : State} (h : Keeps fm r s)
    (hm : Sub 32768 fm := by exact Sub.of (by assumption) (by decide)) {a b} : Keeps fm r (State.setApply s a b) := by
  unfold State.setApply
  exact Keeps.update h

theorem Keeps.runApply {fm : Nat} {r s : State} (h : Keeps fm r s)
    (hm : Sub 4190180 fm := by exact Sub.of (by assumption) (by decide)) {a ue} : Keeps fm r (State.runApply s a ue) := by
  unfold State.runApply
  dsimp only
  split
  · split
    · exact Keeps.abortJob h
    · exact Keeps.discardGroup h
  · split
    · exact Keeps.judgeApply (Keeps.addItem (Keeps.fst (Keeps.applyRows (Keeps.setApply h))))
    · exact Keeps.stage (Keeps.judgeApply (Keeps.addItem (Keeps.fst (Keeps.applyRows (Keeps.setApply h)))))

theorem Keeps.execApplyWindow {fm : Nat} {r s : State} (h : Keeps fm r s)
    (hm : Sub 4190180 fm := by exact Sub.of (by assumption) (by decide)) {job ue} :
    KeepsX fm r (execApplyWindow job ue s) := by
  unfold Sys2Proof.Machine.execApplyWindow
  refine Keeps.next ?_
  split
  · exact Keeps.whenFetched h (fun _ h0 => Keeps.runApply h0)
  · exact h

theorem Keeps.execApplyWindowComplete {fm : Nat} {r s : State} (h : Keeps fm r s)
    (hm : Sub 32768 fm := by exact Sub.of (by assumption) (by decide)) {job} :
    KeepsX fm r (execApplyWindowComplete job s) := by
  unfold Sys2Proof.Machine.execApplyWindowComplete
  refine Keeps.next ?_
  split
  · exact Keeps.setApply h
  · exact h

theorem Keeps.watchTurn {fm : Nat} {r s : State} (h : Keeps fm r s)
    (hm : Sub 32768 fm := by exact Sub.of (by assumption) (by decide)) :
    Keeps fm r (Sys2Proof.Machine.State.watchTurn s) := by
  unfold Sys2Proof.Machine.State.watchTurn
  dsimp only
  exact Keeps.update h

theorem Keeps.splitTurn {fm : Nat} {r s : State} (h : Keeps fm r s)
    (hm : Sub 32768 fm := by exact Sub.of (by assumption) (by decide)) {t} :
    Keeps fm r (Sys2Proof.Machine.State.splitTurn s t) := by
  unfold Sys2Proof.Machine.State.splitTurn
  dsimp only
  exact Keeps.update (Keeps.modAccums (Keeps.fst (Keeps.beginGroup h)))

theorem Keeps.beginTurn {fm : Nat} {r s : State} (h : Keeps fm r s)
    (hm : Sub 32768 fm := by exact Sub.of (by assumption) (by decide)) {st src} : Keeps fm r (State.beginTurn s st src) := by
  unfold State.beginTurn
  dsimp only
  split
  · exact h
  · split
    · exact h
    · exact Keeps.askApplies (Keeps.update (Keeps.modAccums (Keeps.foldl h _ (fun _ _ h0 => Keeps.splitTurn h0))))

theorem Keeps.passTurn {fm : Nat} {r s : State} (h : Keeps fm r s)
    (hm : Sub 32832 fm := by exact Sub.of (by assumption) (by decide)) {st k} :
    Keeps fm r (Sys2Proof.Machine.State.passTurn s st k) := by
  unfold Sys2Proof.Machine.State.passTurn
  dsimp only
  split
  · exact h
  · split
    · exact Keeps.setReg (Keeps.setReg h)
    · exact Keeps.update (Keeps.setReg (Keeps.setReg h))

theorem Keeps.endTurn {fm : Nat} {r s : State} (h : Keeps fm r s)
    (hm : Sub 1034208 fm := by exact Sub.of (by assumption) (by decide)) {t} : Keeps fm r (State.endTurn s t) := by
  unfold State.endTurn
  dsimp only
  exact Keeps.decideGroup (Keeps.passTurn (Keeps.update h))

theorem Keeps.execTurnApply {fm : Nat} {r s : State} (h : Keeps fm r s)
    (hm : Sub 4190180 fm := by exact Sub.of (by assumption) (by decide)) {table ue} :
    KeepsX fm r (execTurnApply table ue s) := by
  unfold Sys2Proof.Machine.execTurnApply
  dsimp only
  refine Keeps.next ?_
  split
  · exact h
  · refine Keeps.whenFetched h ?_
    intro x0 h0
    refine Keeps.watchTurn ?_
    split
    · split
      · split
        · split
          · exact Keeps.update (Keeps.setApply (Keeps.runApply h0))
          · split
            · exact Keeps.endTurn (Keeps.setApply (Keeps.runApply h0))
            · exact Keeps.setApply (Keeps.runApply h0)
        · split
          · exact Keeps.update (Keeps.setApply (Keeps.runApply (Keeps.askApplies (Keeps.modAccums h0))))
          · split
            · exact Keeps.endTurn (Keeps.setApply (Keeps.runApply (Keeps.askApplies (Keeps.modAccums h0))))
            · exact Keeps.setApply (Keeps.runApply (Keeps.askApplies (Keeps.modAccums h0)))
      · split
        · exact Keeps.update (Keeps.setApply (Keeps.runApply (Keeps.beginTurn h0)))
        · split
          · exact Keeps.endTurn (Keeps.setApply (Keeps.runApply (Keeps.beginTurn h0)))
          · exact Keeps.setApply (Keeps.runApply (Keeps.beginTurn h0))
    · split
      · split
        · split
          · exact Keeps.update h0
          · split
            · exact Keeps.endTurn h0
            · exact h0
        · split
          · exact Keeps.update (Keeps.askApplies (Keeps.modAccums h0))
          · split
            · exact Keeps.endTurn (Keeps.askApplies (Keeps.modAccums h0))
            · exact Keeps.askApplies (Keeps.modAccums h0)
      · split
        · exact Keeps.update (Keeps.beginTurn h0)
        · split
          · exact Keeps.endTurn (Keeps.beginTurn h0)
          · exact Keeps.beginTurn h0

theorem Keeps.doStepTimeout {fm : Nat} {r s : State} (h : Keeps fm r s)
    (hm : Sub 32832 fm := by exact Sub.of (by assumption) (by decide)) {k} : Keeps fm r (State.doStepTimeout s k) := by
  unfold State.doStepTimeout
  dsimp only
  split
  · split
    · exact Keeps.watchTurn (Keeps.bump (Keeps.update (Keeps.watchTurn h)))
    · exact Keeps.watchTurn h
  · exact Keeps.watchTurn h

theorem Keeps.execStepTimeout {fm : Nat} {r s : State} (h : Keeps fm r s)
    (hm : Sub 32832 fm := by exact Sub.of (by assumption) (by decide)) {k} : KeepsX fm r (execStepTimeout k s) := by
  unfold Sys2Proof.Machine.execStepTimeout
  exact Keeps.next (Keeps.doStepTimeout h)

theorem Keeps.writeStepClose {fm : Nat} {r s : State} (h : Keeps fm r s)
    (hm : Sub 163904 fm := by exact Sub.of (by assumption) (by decide)) {v} : Keeps fm r (State.writeStepClose s v) := by
  unfold State.writeStepClose
  split
  · exact Keeps.watchTurn (Keeps.announce (Keeps.setReg h))
  · exact h

theorem Keeps.consumeMsg {fm : Nat} {r s : State} (h : Keeps fm r s)
    (hm : Sub 131072 fm := by exact Sub.of (by assumption) (by decide)) {m} : Keeps fm r (State.consumeMsg s m) := by
  unfold State.consumeMsg
  exact Keeps.update h

theorem Keeps.parcelGroup {fm : Nat} {r s : State} (h : Keeps fm r s)
    (hm : Sub 32768 fm := by exact Sub.of (by assumption) (by decide)) {m d late} :
    KeepsP fm r (Sys2Proof.Machine.State.parcelGroup s m d late) := by
  unfold Sys2Proof.Machine.State.parcelGroup
  dsimp only
  split
  · exact Keeps.pair h
  · refine Keeps.pair (Keeps.update (Keeps.fst ?_))
    split
    · exact Keeps.pair h
    · exact Keeps.beginGroup h

theorem Keeps.execParcel {fm : Nat} {r s : State} (h : Keeps fm r s)
    (hm : Sub 163904 fm := by exact Sub.of (by assumption) (by decide)) {m} : KeepsX fm r (execParcel m s) := by
  unfold Sys2Proof.Machine.execParcel
  dsimp only
  refine Keeps.next ?_
  split
  · exact Keeps.send (Keeps.bump (Keeps.consumeMsg h))
  · split
    · refine Keeps.watchTurn (Keeps.send (Keeps.update (Keeps.bump (Keeps.bump (Keeps.fst (Keeps.addGradient (Keeps.fst (Keeps.parcelGroup ?_))))))))
      split
      · exact Keeps.consumeMsg h
      · exact Keeps.charge (Keeps.consumeMsg h)
    · refine Keeps.update (Keeps.fst (Keeps.addGradient (Keeps.fst (Keeps.parcelGroup ?_))))
      split
      · exact Keeps.consumeMsg h
      · exact Keeps.charge (Keeps.consumeMsg h)

theorem Keeps.dropParcels {fm : Nat} {r s : State} (h : Keeps fm r s)
    (hm : Sub 163904 fm := by exact Sub.of (by assumption) (by decide)) {f} :
    Keeps fm r (Sys2Proof.Machine.State.dropParcels s f) := by
  unfold Sys2Proof.Machine.State.dropParcels
  dsimp only
  exact Keeps.foldl h _ (fun _ _ h0 => Keeps.send (Keeps.update (Keeps.consumeMsg h0)))

theorem Keeps.discardTurn {fm : Nat} {r s : State} (h : Keeps fm r s)
    (hm : Sub 163904 fm := by exact Sub.of (by assumption) (by decide)) {t} :
    Keeps fm r (Sys2Proof.Machine.State.discardTurn s t) := by
  unfold Sys2Proof.Machine.State.discardTurn
  dsimp only
  split
  · exact Keeps.modAccums (Keeps.update (Keeps.dropParcels h))
  · exact Keeps.discardGroup (Keeps.update (Keeps.dropParcels h))

theorem Keeps.execVerdict {fm : Nat} {r s : State} (h : Keeps fm r s)
    (hm : Sub 163904 fm := by exact Sub.of (by assumption) (by decide)) {m} : KeepsX fm r (execVerdict m s) := by
  unfold Sys2Proof.Machine.execVerdict
  dsimp only
  refine Keeps.next (Keeps.send (Keeps.watchTurn ?_))
  split
  · exact Keeps.consumeMsg h
  · split
    · exact Keeps.update (Keeps.consumeMsg h)
    · exact Keeps.discardTurn (Keeps.consumeMsg h)

theorem Keeps.execClosedStep {fm : Nat} {r s : State} (h : Keeps fm r s)
    (hm : Sub 163904 fm := by exact Sub.of (by assumption) (by decide)) {m} : KeepsX fm r (execClosedStep m s) := by
  unfold Sys2Proof.Machine.execClosedStep
  dsimp only
  exact Keeps.next (Keeps.send (Keeps.watchTurn (Keeps.update (Keeps.consumeMsg h))))

theorem Keeps.execWithdraw {fm : Nat} {r s : State} (h : Keeps fm r s)
    (hm : Sub 163904 fm := by exact Sub.of (by assumption) (by decide)) {m} : KeepsX fm r (execWithdraw m s) := by
  unfold Sys2Proof.Machine.execWithdraw
  dsimp only
  exact Keeps.next (Keeps.send (Keeps.dropParcels (Keeps.dropParts (Keeps.consumeMsg h))))

theorem Keeps.stageBlock {fm : Nat} {r s : State} (h : Keeps fm r s)
    (hm : Sub 3703232 fm := by exact Sub.of (by assumption) (by decide)) {g die part a bs span} :
    Keeps fm r (State.stageBlock s g die part a bs span) := by
  unfold State.stageBlock
  dsimp only
  split
  · split
    · exact Keeps.stage h
    · exact Keeps.failGroup h
  · refine Keeps.foldl h _ ?_
    intro x0 a0 h0
    split
    · split
      · exact Keeps.stage h0
      · exact Keeps.failGroup h0
    · split
      · exact Keeps.stage h0
      · exact Keeps.failGroup h0

theorem Keeps.auditFault {fm : Nat} {r s : State} (h : Keeps fm r s)
    (hm : Sub 3670464 fm := by exact Sub.of (by assumption) (by decide)) {t r' k m inj} :
    Keeps fm r (State.auditFault s t r' k m inj) := by
  unfold State.auditFault
  exact Keeps.raise (Keeps.bump h)

theorem Keeps.fixReplica {fm : Nat} {r s : State} (h : Keeps fm r s)
    (hm : Sub 65536 fm := by exact Sub.of (by assumption) (by decide)) {die t r' bs m} :
    Keeps fm r (State.fixReplica s die t r' bs m) := by
  unfold State.fixReplica
  exact Keeps.update h

theorem Keeps.sendRefresh {fm : Nat} {r s : State} (h : Keeps fm r s)
    (hm : Sub 131136 fm := by exact Sub.of (by assumption) (by decide)) {t r' m bs to'} :
    Keeps fm r (State.sendRefresh s t r' m bs to') := by
  unfold State.sendRefresh
  exact Keeps.foldl h _ (fun _ _ h0 => Keeps.send (Keeps.charge h0))

theorem Keeps.fixAll {fm : Nat} {r s : State} (h : Keeps fm r s)
    (hm : Sub 196672 fm := by exact Sub.of (by assumption) (by decide)) {t r' bs m} :
    Keeps fm r (State.fixAll s t r' bs m) := by
  unfold State.fixAll
  exact Keeps.sendRefresh (Keeps.fixReplica (Keeps.fixReplica h))

theorem Keeps.fixHome {fm : Nat} {r s : State} (h : Keeps fm r s)
    (hm : Sub 213440 fm := by exact Sub.of (by assumption) (by decide)) {t r' bs m} :
    Keeps fm r (State.fixHome s t r' bs m) := by
  unfold State.fixHome
  exact Keeps.bump (Keeps.fixAll (Keeps.setHomeMark (Keeps.fst (Keeps.writeMem h))))

theorem Keeps.auditDie {fm : Nat} {r s : State} (h : Keeps fm r s)
    (hm : Sub 3883460 fm := by exact Sub.of (by assumption) (by decide)) {t y2 die} :
    Keeps fm r (Sys2Proof.Machine.State.auditDie s t y2 die) := by
  unfold Sys2Proof.Machine.State.auditDie
  dsimp only
  split
  · exact h
  · split
    · exact Keeps.ofPair (by assumption) (Keeps.rowRead h)
    · split
      · exact Keeps.fixReplica (Keeps.fst (Keeps.resvCheck (Keeps.ofPair (by assumption) (Keeps.rowRead h))))
      · split
        · exact Keeps.auditFault (Keeps.fixReplica (Keeps.consume (Keeps.fst (Keeps.resvCheck (Keeps.ofPair (by assumption) (Keeps.rowRead h))))))
        · split
          · split
            · exact Keeps.fst (Keeps.resvCheck (Keeps.ofPair (by assumption) (Keeps.rowRead h)))
            · exact Keeps.auditFault (Keeps.fixAll (Keeps.fst (Keeps.resvCheck (Keeps.ofPair (by assumption) (Keeps.rowRead h)))))
          · split
            · exact Keeps.bump (Keeps.fixReplica (Keeps.fst (Keeps.resvCheck (Keeps.ofPair (by assumption) (Keeps.rowRead h)))))
            · split
              · exact Keeps.fixHome (Keeps.fst (Keeps.resvCheck (Keeps.ofPair (by assumption) (Keeps.rowRead h))))
              · exact Keeps.auditFault (Keeps.fixReplica (Keeps.fst (Keeps.resvCheck (Keeps.ofPair (by assumption) (Keeps.rowRead h)))))

theorem Keeps.execAudit {fm : Nat} {r s : State} (h : Keeps fm r s)
    (hm : Sub 3883460 fm := by exact Sub.of (by assumption) (by decide)) {table row} :
    KeepsX fm r (execAudit table row s) := by
  unfold Sys2Proof.Machine.execAudit
  dsimp only
  refine Keeps.next ?_
  split
  · exact h
  · exact Keeps.whenFetched h (fun _ h0 => Keeps.foldl (Keeps.auditDie (Keeps.auditDie h0)) _ (fun _ _ h1 => Keeps.send h1))

end Sys2Proof.Machine
end

