-- ==== Sys2Proof/Laws/Keeps/Dmv.lean ====
section
/-! SUPPORT. What the operations of Machine/Dmv.lean keep. -/

set_option Elab.async false

namespace Sys2Proof.Machine

theorem Keeps.tokenError {fm : Nat} {r s : State} (h : Keeps fm r s)
    (hm : Sub 512 fm := by exact Sub.of (by assumption) (by decide)) {p t rows inj} :
    Keeps fm r (Sys2Proof.Machine.State.tokenError s p t rows inj) := by
  unfold Sys2Proof.Machine.State.tokenError
  exact Keeps.modCore h

theorem Keeps.tokenFault {fm : Nat} {r s : State} (h : Keeps fm r s)
    (hm : Sub 512 fm := by exact Sub.of (by assumption) (by decide)) {p t} : Keeps fm r (State.tokenFault s p t) := by
  unfold State.tokenFault
  exact Keeps.modCore h

theorem Keeps.lookOn {fm : Nat} {r s : State} (h : Keeps fm r s)
    (hm : Sub 544 fm := by exact Sub.of (by assumption) (by decide)) {p} :
    Keeps fm r (Sys2Proof.Machine.State.lookOn s p) := by
  unfold Sys2Proof.Machine.State.lookOn
  dsimp only
  split
  · split
    · refine Keeps.wakeFor ?_
      split
      · exact Keeps.askPermit h
      · exact h
    · exact h
  · exact h

theorem Keeps.noteLink {fm : Nat} {r s : State} (h : Keeps fm r s)
    (hm : Sub 2048 fm := by exact Sub.of (by assumption) (by decide)) {job die a} :
    Keeps fm r (State.noteLink s job die a) := by
  unfold State.noteLink
  split
  · exact Keeps.modJob h
  · exact h

theorem Keeps.dmvRead {fm : Nat} {r s : State} (h : Keeps fm r s)
    (hm : Sub 4080612 fm := by exact Sub.of (by assumption) (by decide)) {p it i up ue} :
    KeepsP fm r (State.dmvRead s p it i up ue) := by
  unfold State.dmvRead
  dsimp only
  split
  · exact Keeps.pair h
  · split
    · split
      · exact Keeps.pair (Keeps.tokenFault h)
      · split
        · exact Keeps.pair (Keeps.tokenError (Keeps.fst (Keeps.readRows h)))
        · exact Keeps.pair (Keeps.fst (Keeps.readRows h))
    · split
      · split
        · exact Keeps.pair (Keeps.send h)
        · exact Keeps.pair (Keeps.tokenFault (Keeps.unmapped h))
      · split
        · exact Keeps.pair (Keeps.tokenFault (Keeps.fst (Keeps.readMem h)))
        · split
          · exact Keeps.pair (Keeps.fst (Keeps.readMem h))
          · exact Keeps.pair (Keeps.tokenError (Keeps.fst (Keeps.readMem h)))
    · split
      · exact Keeps.pair (Keeps.tokenFault (Keeps.unmapped h))
      · split
        · exact Keeps.pair h
        · split
          · exact Keeps.pair (Keeps.tokenError (Keeps.fst (Keeps.resvCheck (Keeps.fst (Keeps.xRead h)))))
          · exact Keeps.pair (Keeps.fst (Keeps.resvCheck (Keeps.fst (Keeps.xRead h))))

theorem Keeps.dmvGroup {fm : Nat} {r s : State} (h : Keeps fm r s)
    (hm : Sub 32768 fm := by exact Sub.of (by assumption) (by decide)) {it} : KeepsP fm r (State.dmvGroup s it) := by
  unfold State.dmvGroup
  dsimp only
  split
  · exact Keeps.pair (Keeps.fst (Keeps.jobGroup h))
  · exact Keeps.pair h

theorem Keeps.waitsOf {fm : Nat} {r s : State} (h : Keeps fm r s)
    (hm : Sub 32768 fm := by exact Sub.of (by assumption) (by decide)) {old p k} :
    Keeps fm r (Sys2Proof.Machine.State.waitsOf s old p k) := by
  unfold Sys2Proof.Machine.State.waitsOf
  dsimp only
  exact Keeps.update h

theorem Keeps.dmvWrite {fm : Nat} {r s : State} (h : Keeps fm r s)
    (hm : Sub 4115424 fm := by exact Sub.of (by assumption) (by decide)) {p it i bs ue} :
    Keeps fm r (State.dmvWrite s p it i bs ue) := by
  unfold State.dmvWrite
  dsimp only
  split
  · split
    · exact Keeps.useBank (Keeps.modCore h)
    · exact Keeps.tokenFault h
  · split
    · exact Keeps.tokenFault (Keeps.unmapped h)
    · split
      · split
        · exact Keeps.waitsOf (Keeps.stageBlock (Keeps.ofPair (by assumption) (Keeps.dmvGroup (Keeps.noteLink h))))
        · exact Keeps.ofPair (by assumption) (Keeps.dmvGroup (Keeps.noteLink h))
      · split
        · exact Keeps.send (Keeps.charge h)
        · split
          · exact Keeps.tokenError (Keeps.fst (Keeps.writeMem (Keeps.noteLink h)))
          · exact Keeps.fst (Keeps.writeMem (Keeps.noteLink h))
        · exact Keeps.fst (Keeps.writeMem h)
  · split
    · exact Keeps.tokenFault (Keeps.unmapped h)
    · split
      · split
        · split
          · exact Keeps.waitsOf (Keeps.stage (Keeps.ofPair (by assumption) (Keeps.dmvGroup h)))
          · exact Keeps.failGroup (Keeps.ofPair (by assumption) (Keeps.dmvGroup h))
        · exact Keeps.ofPair (by assumption) (Keeps.dmvGroup h)
      · exact Keeps.xWrite h

theorem Keeps.dmvConvert {fm : Nat} {r s : State} (h : Keeps fm r s)
    (hm : Sub 64 fm := by exact Sub.of (by assumption) (by decide)) {it i bs} :
    KeepsP fm r (State.dmvConvert s it i bs) := by
  unfold State.dmvConvert
  dsimp only
  split
  · exact Keeps.pair h
  · exact Keeps.pair (Keeps.bump (Keeps.bump h))

theorem Keeps.modItem {fm : Nat} {r s : State} (h : Keeps fm r s)
    (hm : Sub 512 fm := by exact Sub.of (by assumption) (by decide)) {p k f} : Keeps fm r (State.modItem s p k f) := by
  unfold State.modItem
  exact Keeps.modCore h

theorem Keeps.dmvRow {fm : Nat} {r s : State} (h : Keeps fm r s)
    (hm : Sub 4115428 fm := by exact Sub.of (by assumption) (by decide)) {p it up ue i} :
    Keeps fm r (State.dmvRow s p it up ue i) := by
  unfold State.dmvRow
  dsimp only
  split
  · exact h
  · split
    · exact Keeps.ofPair (by assumption) (Keeps.dmvRead h)
    · exact Keeps.modItem (Keeps.ofPair (by assumption) (Keeps.dmvRead h))
    · exact Keeps.modItem (Keeps.dmvWrite (Keeps.ofPair (by assumption) (Keeps.dmvRead h)))
    · exact Keeps.modItem (Keeps.dmvWrite (Keeps.fst (Keeps.dmvConvert (Keeps.ofPair (by assumption) (Keeps.dmvRead h)))))

theorem Keeps.dmvMove {fm : Nat} {r s : State} (h : Keeps fm r s)
    (hm : Sub 4115428 fm := by exact Sub.of (by assumption) (by decide)) {p k up ue} :
    Keeps fm r (State.dmvMove s p k up ue) := by
  unfold State.dmvMove
  split
  · exact Keeps.foldl h _ (fun _ _ h0 => Keeps.dmvRow h0)
  · exact h

theorem Keeps.dmvResume {fm : Nat} {r s : State} (h : Keeps fm r s)
    (hm : Sub 4115428 fm := by exact Sub.of (by assumption) (by decide)) {p up ue} :
    Keeps fm r (Sys2Proof.Machine.State.dmvResume s p up ue) := by
  unfold Sys2Proof.Machine.State.dmvResume
  exact Keeps.foldl h _ (fun _ _ h0 => Keeps.foldl h0 _ (fun _ _ h1 => Keeps.dmvRow h1))

theorem Keeps.dmvStart {fm : Nat} {r a' : State} (h : Keeps fm r a')
    (hm : Sub 4115428 fm := by exact Sub.of (by assumption) (by decide)) {a a'' a''' a''''} :
    Keeps fm r (State.dmvStart a a' a'' a''' a'''') := by
  induction a generalizing a' a'' a''' a'''' with
  | zero =>
    unfold State.dmvStart
    exact h
  | succ m ih =>
    unfold State.dmvStart
    dsimp only
    split
    · exact h
    · split
      · exact h
      · split
        · exact ih (Keeps.dmvMove (Keeps.modItem h))
        · split
          · exact h
          · split
            · exact Keeps.foldl h _ (fun _ _ h0 => Keeps.askPermit h0)
            · exact ih (Keeps.foldl h _ (fun _ _ h0 => Keeps.modItem h0))

theorem Keeps.dmvIssue {fm : Nat} {r s : State} (h : Keeps fm r s)
    (hm : Sub 4115428 fm := by exact Sub.of (by assumption) (by decide)) {p xn d up ue} :
    Keeps fm r (State.dmvIssue s p xn d up ue) := by
  unfold State.dmvIssue
  exact Keeps.dmvStart (Keeps.modCore (Keeps.busyTick h))

theorem Keeps.execDmvChainStart {fm : Nat} {r s : State} (h : Keeps fm r s)
    (hm : Sub 4115428 fm := by exact Sub.of (by assumption) (by decide)) {p up ue} :
    KeepsX fm r (execDmvChainStart p up ue s) := by
  unfold Sys2Proof.Machine.execDmvChainStart
  exact Keeps.next (Keeps.dmvStart h)

theorem Keeps.execDmvDescriptorComplete {fm : Nat} {r s : State} (h : Keeps fm r s)
    (hm : Sub 608 fm := by exact Sub.of (by assumption) (by decide)) {p k} :
    KeepsX fm r (execDmvDescriptorComplete p k s) := by
  unfold Sys2Proof.Machine.execDmvDescriptorComplete
  dsimp only
  refine Keeps.next ?_
  split
  · exact h
  · split
    · exact h
    · refine Keeps.lookOn ?_
      split
      · exact Keeps.foldl (Keeps.modCore (Keeps.busyTick h)) _ (fun _ _ h0 => Keeps.returnPermit h0)
      · exact Keeps.modCore (Keeps.busyTick h)

theorem Keeps.execExchangeRowAccess {fm : Nat} {r s : State} (h : Keeps fm r s)
    (hm : Sub 4115428 fm := by exact Sub.of (by assumption) (by decide)) {p up ue} :
    KeepsX fm r (Sys2Proof.Machine.execExchangeRowAccess p up ue s) := by
  unfold Sys2Proof.Machine.execExchangeRowAccess
  exact Keeps.next (Keeps.foldl h _ (fun _ _ h0 => Keeps.dmvMove h0))

end Sys2Proof.Machine
end

