-- ==== Sys2Proof/Laws/Keeps/Gxe.lean ====
section
/-! SUPPORT. What the operations of Machine/Gxe.lean keep. -/

set_option Elab.async false

namespace Sys2Proof.Machine

theorem Keeps.gxeRows {fm : Nat} {r s : State} (h : Keeps fm r s)
    (hm : Sub 3670976 fm := by exact Sub.of (by assumption) (by decide)) {p g rows up} :
    KeepsP fm r (State.gxeRows s p g rows up) := by
  unfold State.gxeRows
  dsimp only
  refine Keeps.pair ?_
  split
  · split
    · exact Keeps.fst (Keeps.readEach (Keeps.tokenFault h))
    · exact Keeps.tokenError (Keeps.fst (Keeps.readEach (Keeps.tokenFault h)))
  · split
    · exact Keeps.fst (Keeps.readEach h)
    · exact Keeps.tokenError (Keeps.fst (Keeps.readEach h))

theorem Keeps.modGxe {fm : Nat} {r s : State} (h : Keeps fm r s)
    (hm : Sub 512 fm := by exact Sub.of (by assumption) (by decide)) {p k f} : Keeps fm r (State.modGxe s p k f) := by
  unfold State.modGxe
  exact Keeps.modCore h

theorem Keeps.dropThread {fm : Nat} {r s : State} (h : Keeps fm r s)
    (hm : Sub 576 fm := by exact Sub.of (by assumption) (by decide)) {p t} : Keeps fm r (State.dropThread s p t) := by
  unfold State.dropThread
  exact Keeps.modCore (Keeps.busyTick h)

theorem Keeps.modThread {fm : Nat} {r s : State} (h : Keeps fm r s)
    (hm : Sub 512 fm := by exact Sub.of (by assumption) (by decide)) {p t f} : Keeps fm r (State.modThread s p t f) := by
  unfold State.modThread
  exact Keeps.modCore h

theorem Keeps.gxeWrite {fm : Nat} {r s : State} (h : Keeps fm r s)
    (hm : Sub 512 fm := by exact Sub.of (by assumption) (by decide)) {p g pos ws} :
    Keeps fm r (State.gxeWrite s p g pos ws) := by
  unfold State.gxeWrite
  dsimp only
  refine Keeps.modCore (Keeps.foldl ?_ _ (fun _ _ h0 => Keeps.useBank h0))
  split
  · exact Keeps.tokenFault h
  · exact h

theorem Keeps.writeBag {fm : Nat} {r s : State} (h : Keeps fm r s)
    (hm : Sub 512 fm := by exact Sub.of (by assumption) (by decide)) {p g k v} : Keeps fm r (State.writeBag s p g k v) := by
  unfold State.writeBag
  exact Keeps.gxeWrite h

theorem Keeps.gxeFinish {fm : Nat} {r s : State} (h : Keeps fm r s)
    (hm : Sub 608 fm := by exact Sub.of (by assumption) (by decide)) {p k} : Keeps fm r (State.gxeFinish s p k) := by
  unfold State.gxeFinish
  dsimp only
  split
  · exact h
  · split
    · exact h
    · exact Keeps.lookOn (Keeps.modCore (Keeps.busyTick h))

theorem Keeps.poolThread {fm : Nat} {r s : State} (h : Keeps fm r s)
    (hm : Sub 576 fm := by exact Sub.of (by assumption) (by decide)) {p g k b t} :
    Keeps fm r (State.poolThread s p g k b t) := by
  unfold State.poolThread
  dsimp only
  split
  · exact Keeps.writeBag (Keeps.dropThread (Keeps.modGxe h))
  · exact Keeps.dropThread (Keeps.modGxe h)

theorem Keeps.poolAll {fm : Nat} {r a' : State} (h : Keeps fm r a')
    (hm : Sub 608 fm := by exact Sub.of (by assumption) (by decide)) {a a''} : Keeps fm r (State.poolAll a a' a'') := by
  induction a generalizing a' a'' with
  | zero =>
    unfold State.poolAll
    exact h
  | succ m ih =>
    unfold State.poolAll
    split
    · exact h
    · exact ih (Keeps.gxeFinish (Keeps.poolThread h))

theorem Keeps.putThread {fm : Nat} {r s : State} (h : Keeps fm r s)
    (hm : Sub 576 fm := by exact Sub.of (by assumption) (by decide)) {p t} :
    Keeps fm r (Sys2Proof.Machine.State.putThread s p t) := by
  unfold Sys2Proof.Machine.State.putThread
  exact Keeps.modCore (Keeps.busyTick h)

theorem Keeps.rowReady {fm : Nat} {r s : State} (h : Keeps fm r s)
    (hm : Sub 66112 fm := by exact Sub.of (by assumption) (by decide)) {p g t l} :
    Keeps fm r (Sys2Proof.Machine.State.rowReady s p g t l) := by
  unfold Sys2Proof.Machine.State.rowReady
  dsimp only
  refine Keeps.putThread ?_
  split
  · exact Keeps.touchSketch h
  · exact h

theorem Keeps.zeroThread {fm : Nat} {r s : State} (h : Keeps fm r s)
    (hm : Sub 576 fm := by exact Sub.of (by assumption) (by decide)) {p t} :
    Keeps fm r (Sys2Proof.Machine.State.zeroThread s p t) := by
  unfold Sys2Proof.Machine.State.zeroThread
  exact Keeps.putThread h

theorem Keeps.placeThread {fm : Nat} {r s : State} (h : Keeps fm r s)
    (hm : Sub 197184 fm := by exact Sub.of (by assumption) (by decide)) {p g t src} :
    KeepsP fm r (Sys2Proof.Machine.State.placeThread s p g t src) := by
  unfold Sys2Proof.Machine.State.placeThread
  dsimp only
  split
  · exact Keeps.pair (Keeps.zeroThread h)
  · exact Keeps.pair (Keeps.rowReady h)
  · exact Keeps.pair (Keeps.putThread h)
  · split
    · exact Keeps.pair (Keeps.send (Keeps.putThread (Keeps.bump h)))
    · exact Keeps.pair (Keeps.tokenFault (Keeps.unmapped h))

theorem Keeps.failThread {fm : Nat} {r s : State} (h : Keeps fm r s)
    (hm : Sub 3867588 fm := by exact Sub.of (by assumption) (by decide)) {p g t lost} :
    Keeps fm r (State.failThread s p g t lost) := by
  unfold State.failThread
  dsimp only
  split
  · exact Keeps.zeroThread h
  · split
    · exact Keeps.zeroThread (Keeps.ofPair (by assumption) (Keeps.placeThread (Keeps.fst (Keeps.defaultSource (Keeps.fst (Keeps.lookupPin (Keeps.countCase h)))))))
    · exact Keeps.ofPair (by assumption) (Keeps.placeThread (Keeps.fst (Keeps.defaultSource (Keeps.fst (Keeps.lookupPin (Keeps.countCase h))))))

theorem Keeps.resolveThread {fm : Nat} {r s : State} (h : Keeps fm r s)
    (hm : Sub 3867588 fm := by exact Sub.of (by assumption) (by decide)) {p g t lost} :
    Keeps fm r (State.resolveThread s p g t lost) := by
  unfold State.resolveThread
  dsimp only
  split
  · exact Keeps.zeroThread h
  · split
    · exact Keeps.failThread (Keeps.ofPair (by assumption) (Keeps.placeThread (Keeps.fst (Keeps.resolveIndex (Keeps.fst (Keeps.lookupPin (Keeps.bump (Keeps.bump h))))))))
    · exact Keeps.ofPair (by assumption) (Keeps.placeThread (Keeps.fst (Keeps.resolveIndex (Keeps.fst (Keeps.lookupPin (Keeps.bump (Keeps.bump h)))))))

theorem Keeps.sendThread {fm : Nat} {r s : State} (h : Keeps fm r s)
    (hm : Sub 166464 fm := by exact Sub.of (by assumption) (by decide)) {p g t} : Keeps fm r (State.sendThread s p g t) := by
  unfold State.sendThread
  dsimp only
  split
  · exact Keeps.putThread h
  · split
    · exact Keeps.send (Keeps.charge (Keeps.putThread (Keeps.modJob h)))
    · split
      · exact Keeps.putThread (Keeps.ofPair (by assumption) (Keeps.addGradient (Keeps.fst (Keeps.jobGroup h))))
      · exact Keeps.putThread (Keeps.ofPair (by assumption) (Keeps.addGradient (Keeps.fst (Keeps.jobGroup h))))

theorem Keeps.startScatter {fm : Nat} {r s : State} (h : Keeps fm r s)
    (hm : Sub 3836864 fm := by exact Sub.of (by assumption) (by decide)) {p g pos idx bad up} :
    Keeps fm r (State.startScatter s p g pos idx bad up) := by
  unfold State.startScatter
  dsimp only
  split
  · exact Keeps.bump (Keeps.fst (Keeps.gxeRows h))
  · split
    · exact Keeps.fst (Keeps.gxeRows h)
    · split
      · exact Keeps.tokenFault (Keeps.bump (Keeps.fst (Keeps.gxeRows h)))
      · split
        · split
          · split
            · split
              · exact Keeps.bump (Keeps.fst (Keeps.gxeRows h))
              · exact Keeps.sendThread (Keeps.modCore (Keeps.fst (Keeps.gxeRows h)))
            · split
              · exact Keeps.bump (Keeps.fst (Keeps.gxeRows h))
              · exact Keeps.sendThread (Keeps.modCore (Keeps.fst (Keeps.gxeRows h)))
          · split
            · exact Keeps.bump (Keeps.fst (Keeps.gxeRows h))
            · exact Keeps.sendThread (Keeps.modCore (Keeps.fst (Keeps.gxeRows h)))
        · split
          · split
            · split
              · exact Keeps.bump (Keeps.fst (Keeps.gxeRows h))
              · exact Keeps.sendThread (Keeps.modCore (Keeps.fst (Keeps.gxeRows h)))
            · split
              · exact Keeps.bump (Keeps.fst (Keeps.gxeRows h))
              · exact Keeps.sendThread (Keeps.modCore (Keeps.fst (Keeps.gxeRows h)))
          · split
            · exact Keeps.bump (Keeps.fst (Keeps.gxeRows h))
            · exact Keeps.sendThread (Keeps.modCore (Keeps.fst (Keeps.gxeRows h)))

theorem Keeps.startThread {fm : Nat} {r s : State} (h : Keeps fm r s)
    (hm : Sub 3902404 fm := by exact Sub.of (by assumption) (by decide)) {p g pos up} :
    Keeps fm r (State.startThread s p g pos up) := by
  unfold State.startThread
  dsimp only
  split
  · exact Keeps.startScatter (Keeps.modGxe (Keeps.fst (Keeps.gxeRows h)))
  · exact Keeps.resolveThread (Keeps.modCore (Keeps.modGxe (Keeps.fst (Keeps.gxeRows h))))

theorem Keeps.gxeStart {fm : Nat} {r a' : State} (h : Keeps fm r a')
    (hm : Sub 3902436 fm := by exact Sub.of (by assumption) (by decide)) {a a'' a'''} :
    Keeps fm r (State.gxeStart a a' a'' a''') := by
  induction a generalizing a' a'' a''' with
  | zero =>
    unfold State.gxeStart
    exact h
  | succ m ih =>
    unfold State.gxeStart
    dsimp only
    split
    · exact h
    · split
      · exact h
      · split
        · exact ih (Keeps.gxeFinish (Keeps.modGxe h))
        · exact ih (Keeps.gxeFinish (Keeps.poolAll (Keeps.startThread h)))

theorem Keeps.gxeTurn {fm : Nat} {r s : State} (h : Keeps fm r s)
    (hm : Sub 3902436 fm := by exact Sub.of (by assumption) (by decide)) {p up} : Keeps fm r (State.gxeTurn s p up) := by
  unfold State.gxeTurn
  dsimp only
  exact Keeps.gxeStart (Keeps.foldl (Keeps.poolAll h) _ (fun _ _ h0 => Keeps.gxeFinish h0))

theorem Keeps.gxeIssue {fm : Nat} {r s : State} (h : Keeps fm r s)
    (hm : Sub 3903460 fm := by exact Sub.of (by assumption) (by decide)) {p xn d up} :
    KeepsO fm r (State.gxeIssue s p xn d up) := by
  unfold State.gxeIssue
  extract_lets -merge -useContext +onlyGivenNames v0
  have k0 : Keeps fm r v0 := Keeps.busyTick h
  clear_value v0
  extract_lets -merge -useContext +onlyGivenNames v1
  clear_value v1
  extract_lets -merge -useContext +onlyGivenNames v2
  clear_value v2
  extract_lets -merge -useContext +onlyGivenNames v3
  clear_value v3
  extract_lets -merge -useContext +onlyGivenNames v4
  clear_value v4
  extract_lets -merge -useContext +onlyGivenNames v5
  clear_value v5
  extract_lets -merge -useContext +onlyGivenNames v6
  clear_value v6
  extract_lets -merge -useContext +onlyGivenNames v7
  have k7 : Keeps fm r v7 := Keeps.modCore k0
  clear_value v7
  extract_lets -merge -useContext +onlyGivenNames v8
  have k8 : Keeps fm r v8 := by
    dsimp only [v8]
    split
    · exact k7
    · exact Keeps.tokenFault k7
  clear_value v8
  extract_lets -merge -useContext +onlyGivenNames v9
  clear_value v9
  split
  · extract_lets -merge -useContext +onlyGivenNames v10
    clear_value v10
    split
    · exact Keeps.none
    · extract_lets -merge -useContext +onlyGivenNames v11
      clear_value v11
      extract_lets -merge -useContext +onlyGivenNames v12
      clear_value v12
      extract_lets -merge -useContext +onlyGivenNames v13
      clear_value v13
      extract_lets -merge -useContext +onlyGivenNames v14
      clear_value v14
      extract_lets -merge -useContext +onlyGivenNames v15
      clear_value v15
      extract_lets -merge -useContext +onlyGivenNames v16
      have k16 : Keeps fm r v16 := Keeps.flagsBy (Keeps.modCore (Keeps.ofPair (by assumption) (Keeps.gxeRows k8)))
      clear_value v16
      extract_lets -merge -useContext +onlyGivenNames v17
      have k17 : Keeps fm r v17 := Keeps.bump k16
      clear_value v17
      extract_lets -merge -useContext +onlyGivenNames v18
      have k18 : Keeps fm r v18 := Keeps.foldl k17 _ (fun _ _ h0 => Keeps.writeBag h0)
      clear_value v18
      exact Keeps.some (Keeps.gxeFinish (Keeps.gxeStart k18))

theorem Keeps.execGxeRowReadReturn {fm : Nat} {r s : State} (h : Keeps fm r s)
    (hm : Sub 3918820 fm := by exact Sub.of (by assumption) (by decide)) {p k up ue} :
    KeepsX fm r (Sys2Proof.Machine.execGxeRowReadReturn p k up ue s) := by
  unfold Sys2Proof.Machine.execGxeRowReadReturn
  dsimp only
  refine Keeps.next ?_
  split
  · split
    · refine Keeps.whenFetched h ?_
      intro x0 h0
      refine Keeps.gxeTurn ?_
      split
      · exact Keeps.failThread (Keeps.tokenFault (Keeps.fst (Keeps.readMem h0)))
      · split
        · exact Keeps.failThread (Keeps.fst (Keeps.readMem h0))
        · exact Keeps.rowReady (Keeps.fst (Keeps.readMem h0))
    · exact h
  · exact h

theorem Keeps.rowArrives {fm : Nat} {r s : State} (h : Keeps fm r s)
    (hm : Sub 3902436 fm := by exact Sub.of (by assumption) (by decide)) {p k row up} :
    Keeps fm r (Sys2Proof.Machine.State.rowArrives s p k row up) := by
  unfold Sys2Proof.Machine.State.rowArrives
  dsimp only
  split
  · refine Keeps.gxeTurn ?_
    split
    · exact Keeps.rowReady (Keeps.charge h)
    · exact Keeps.failThread h
  · exact h

theorem Keeps.threadFault {fm : Nat} {r s : State} (h : Keeps fm r s)
    (hm : Sub 512 fm := by exact Sub.of (by assumption) (by decide)) {p k} :
    Keeps fm r (Sys2Proof.Machine.State.threadFault s p k) := by
  unfold Sys2Proof.Machine.State.threadFault
  split
  · exact Keeps.tokenFault h
  · exact h

theorem Keeps.scatterDone {fm : Nat} {r s : State} (h : Keeps fm r s)
    (hm : Sub 3902436 fm := by exact Sub.of (by assumption) (by decide)) {p k fl up} :
    Keeps fm r (Sys2Proof.Machine.State.scatterDone s p k fl up) := by
  unfold Sys2Proof.Machine.State.scatterDone
  dsimp only
  split
  · refine Keeps.gxeTurn (Keeps.gxeFinish (Keeps.dropThread ?_))
    split
    · exact h
    · exact Keeps.modCore h
  · exact h

theorem Keeps.execScatterAck {fm : Nat} {r s : State} (h : Keeps fm r s)
    (hm : Sub 3902436 fm := by exact Sub.of (by assumption) (by decide)) {p k up} :
    KeepsX fm r (Sys2Proof.Machine.execScatterAck p k up s) := by
  unfold Sys2Proof.Machine.execScatterAck
  refine Keeps.next ?_
  split
  · split
    · exact h
    · split
      · exact Keeps.scatterDone h
      · exact h
  · exact h

theorem Keeps.execScatterSendResume {fm : Nat} {r s : State} (h : Keeps fm r s)
    (hm : Sub 166464 fm := by exact Sub.of (by assumption) (by decide)) {p} : KeepsX fm r (execScatterSendResume p s) := by
  unfold Sys2Proof.Machine.execScatterSendResume
  dsimp only
  refine Keeps.next ?_
  cases e : (s.core p).threads.findSome? _ with
  | none => exact h
  | some t =>
    obtain ⟨_, _, hx⟩ := List.exists_of_findSome?_eq_some e
    split at hx
    · simp at hx
    · split at hx
      · simp at hx
      · split at hx
        · simp at hx
        · exact Option.some.inj hx ▸ Keeps.sendThread h

end Sys2Proof.Machine
end

