-- ==== Sys2Proof/Laws/Keeps/Csq.lean ====
section
/-! SUPPORT. What the operations of Machine/Csq.lean keep. -/

set_option Elab.async false

namespace Sys2Proof.Machine

theorem Keeps.judgeCores {fm : Nat} {r s : State} (h : Keeps fm r s)
    (hm : Sub 64 fm := by exact Sub.of (by assumption) (by decide)) : Keeps fm r (State.judgeCores s) := by
  unfold State.judgeCores
  exact Keeps.setCause (Keeps.setCause h)

theorem Keeps.coreEvent {fm : Nat} {r s : State} (h : Keeps fm r s)
    (hm : Sub 3670464 fm := by exact Sub.of (by assumption) (by decide)) {p x seg cause was inj} :
    Keeps fm r (State.coreEvent s p x seg cause was inj) := by
  unfold State.coreEvent
  exact Keeps.raise h

theorem Keeps.endWaits {fm : Nat} {r s : State} (h : Keeps fm r s)
    (hm : Sub 532480 fm := by exact Sub.of (by assumption) (by decide)) {x status} :
    Keeps fm r (State.endWaits s x status) := by
  unfold State.endWaits
  exact Keeps.update (Keeps.foldl h _ (fun _ _ h0 => Keeps.complete h0))

theorem Keeps.releaseHandles {fm : Nat} {r s : State} (h : Keeps fm r s)
    (hm : Sub 512 fm := by exact Sub.of (by assumption) (by decide)) {p x} :
    Keeps fm r (Sys2Proof.Machine.State.releaseHandles s p x) := by
  unfold Sys2Proof.Machine.State.releaseHandles
  dsimp only
  exact Keeps.modCore h

theorem Keeps.faultCtx {fm : Nat} {r s : State} (h : Keeps fm r s)
    (hm : Sub 1027680 fm := by exact Sub.of (by assumption) (by decide)) {x cause} :
    Keeps fm r (State.faultCtx s x cause) := by
  unfold State.faultCtx
  dsimp only
  exact Keeps.foldl (Keeps.endWaits (Keeps.modCtx (Keeps.setCtxState (Keeps.releaseHandles (Keeps.zeroRowsOf h))))) _ (fun _ _ h0 => Keeps.abortJob h0)

theorem Keeps.faultCore {fm : Nat} {r s : State} (h : Keeps fm r s)
    (hm : Sub 4173792 fm := by exact Sub.of (by assumption) (by decide)) {p cause inj} :
    Keeps fm r (State.faultCore s p cause inj) := by
  unfold State.faultCore
  dsimp only
  refine Keeps.settleCancel (Keeps.faultCtx ?_)
  split
  · split
    · exact Keeps.setReg (Keeps.update (Keeps.coreEvent (Keeps.judgeCores (Keeps.bump (Keeps.setReg (Keeps.modCsq (Keeps.returnPermit (Keeps.modCore (Keeps.dropDmv (Keeps.discardSpan h))))))))))
    · exact Keeps.coreEvent (Keeps.judgeCores (Keeps.bump (Keeps.setReg (Keeps.modCsq (Keeps.returnPermit (Keeps.modCore (Keeps.dropDmv (Keeps.discardSpan h))))))))
  · exact Keeps.coreEvent (Keeps.judgeCores (Keeps.bump (Keeps.setReg (Keeps.modCsq (Keeps.returnPermit (Keeps.modCore (Keeps.dropDmv (Keeps.discardSpan h))))))))

theorem Keeps.abortSpan {fm : Nat} {r s : State} (h : Keeps fm r s)
    (hm : Sub 4173792 fm := by exact Sub.of (by assumption) (by decide)) {p row cause inj} :
    Keeps fm r (State.abortSpan s p row cause inj) := by
  unfold State.abortSpan
  dsimp only
  split
  · exact Keeps.faultCore h
  · exact Keeps.setBlocked (Keeps.modCsq (Keeps.returnPermit (Keeps.modCore h)))

theorem Keeps.holdsRow {fm : Nat} {r s : State} (h : Keeps fm r s)
    (hm : Sub 1024 fm := by exact Sub.of (by assumption) (by decide)) {x y2 on} :
    Keeps fm r (Sys2Proof.Machine.State.holdsRow s x y2 on) := by
  unfold Sys2Proof.Machine.State.holdsRow
  exact Keeps.modCtx h

theorem Keeps.reloadRow {fm : Nat} {r s : State} (h : Keeps fm r s)
    (hm : Sub 3819456 fm := by exact Sub.of (by assumption) (by decide)) {p x r'} :
    Keeps fm r (State.reloadRow s p x r') := by
  unfold State.reloadRow
  dsimp only
  split
  · split
    · exact Keeps.holdsRow (Keeps.useBank (Keeps.modCore (Keeps.fst (Keeps.readMem h))))
    · exact Keeps.fst (Keeps.readMem h)
  · exact h

theorem Keeps.openWindow {fm : Nat} {r s : State} (h : Keeps fm r s)
    (hm : Sub 512 fm := by exact Sub.of (by assumption) (by decide)) {p l r' outW} :
    Keeps fm r (State.openWindow s p l r' outW) := by
  unfold State.openWindow
  split
  · exact Keeps.modCore h
  · exact Keeps.modCore h

theorem Keeps.execSpanRetry {fm : Nat} {r s : State} (h : Keeps fm r s)
    (hm : Sub 3852256 fm := by exact Sub.of (by assumption) (by decide)) {p} : KeepsX fm r (execSpanRetry p s) := by
  unfold Sys2Proof.Machine.execSpanRetry
  dsimp only
  refine Keeps.next ?_
  split
  · exact h
  · refine Keeps.whenFetched h ?_
    intro x0 h0
    refine Keeps.judgeBlocked (Keeps.segPermit (Keeps.modCsq ?_))
    split
    · exact Keeps.openWindow (Keeps.modCsq (Keeps.raise (Keeps.foldl (Keeps.modCore (Keeps.discardSpan h0)) _ (fun _ _ h1 => Keeps.reloadRow h1))))
    · exact Keeps.modCore (Keeps.raise (Keeps.foldl (Keeps.modCore (Keeps.discardSpan h0)) _ (fun _ _ h1 => Keeps.reloadRow h1)))

theorem Keeps.launch {fm : Nat} {r s : State} (h : Keeps fm r s)
    (hm : Sub 576 fm := by exact Sub.of (by assumption) (by decide)) {p l} : KeepsO fm r (State.launch s p l) := by
  unfold State.launch
  dsimp only
  split
  · exact Keeps.none
  · exact Keeps.some (Keeps.openWindow (Keeps.modCsq (Keeps.modCore h)))

theorem Keeps.endLayer {fm : Nat} {r s : State} (h : Keeps fm r s)
    (hm : Sub 2560 fm := by exact Sub.of (by assumption) (by decide)) {p r'} : Keeps fm r (State.endLayer s p r') := by
  unfold State.endLayer
  dsimp only
  refine Keeps.modCore ?_
  split
  · exact Keeps.modJob h
  · exact h

theorem Keeps.widenEvent {fm : Nat} {r s : State} (h : Keeps fm r s)
    (hm : Sub 3670464 fm := by exact Sub.of (by assumption) (by decide)) {p x l cause w inj} :
    Keeps fm r (State.widenEvent s p x l cause w inj) := by
  unfold State.widenEvent
  exact Keeps.raise h

theorem Keeps.overrideEvent {fm : Nat} {r s : State} (h : Keeps fm r s)
    (hm : Sub 3670464 fm := by exact Sub.of (by assumption) (by decide)) {p x w} :
    Keeps fm r (State.overrideEvent s p x w) := by
  unfold State.overrideEvent
  split
  · exact h
  · exact Keeps.raise h

theorem Keeps.widenCore {fm : Nat} {r s : State} (h : Keeps fm r s)
    (hm : Sub 576 fm := by exact Sub.of (by assumption) (by decide)) {p l o v} :
    Keeps fm r (Sys2Proof.Machine.State.widenCore s p l o v) := by
  unfold Sys2Proof.Machine.State.widenCore
  dsimp only
  exact Keeps.openWindow (Keeps.modCsq h)

theorem Keeps.endLayers {fm : Nat} {r s : State} (h : Keeps fm r s)
    (hm : Sub 2560 fm := by exact Sub.of (by assumption) (by decide)) {l} :
    Keeps fm r (Sys2Proof.Machine.State.endLayers s l) := by
  unfold Sys2Proof.Machine.State.endLayers
  dsimp only
  exact Keeps.foldl h _ (fun _ _ h0 => Keeps.modCsq (Keeps.endLayer h0))

theorem Keeps.decideLayers {fm : Nat} {r s : State} (h : Keeps fm r s)
    (hm : Sub 3674048 fm := by exact Sub.of (by assumption) (by decide)) {p l parts w} :
    KeepsC fm r (Sys2Proof.Machine.State.decideLayers s p l parts w) := by
  unfold Sys2Proof.Machine.State.decideLayers
  dsimp only
  split
  · exact Keeps.goOn (Keeps.endLayers h)
  · split
    · refine Keeps.goOn (Keeps.endLayers ?_)
      split
      · exact Keeps.consume (Keeps.overrideEvent (Keeps.bump h))
      · exact Keeps.overrideEvent (Keeps.bump h)
    · split
      · refine Keeps.goOn (Keeps.endLayers (Keeps.widenEvent (Keeps.bump ?_)))
        split
        · exact Keeps.consume (Keeps.overrideEvent (Keeps.bump h))
        · exact Keeps.overrideEvent (Keeps.bump h)
      · split
        · exact Keeps.bad
        · split
          · split
            · exact Keeps.bad
            · refine Keeps.widen (Keeps.foldl (Keeps.widenEvent (Keeps.bump (Keeps.bump (Keeps.foldl (Keeps.consume (Keeps.overrideEvent (Keeps.bump h))) _ (fun _ _ h0 => Keeps.csqTags h0))))) _ ?_)
              intro x0 a0 h0
              split
              · exact Keeps.widenCore h0
              · exact h0
          · split
            · exact Keeps.bad
            · refine Keeps.widen (Keeps.foldl (Keeps.widenEvent (Keeps.bump (Keeps.bump (Keeps.foldl (Keeps.overrideEvent (Keeps.bump h)) _ (fun _ _ h0 => Keeps.csqTags h0))))) _ ?_)
              intro x0 a0 h0
              split
              · exact Keeps.widenCore h0
              · exact h0

theorem Keeps.check {fm : Nat} {r s : State} (h : Keeps fm r s)
    (hm : Sub 3674048 fm := by exact Sub.of (by assumption) (by decide)) {p} : KeepsC fm r (State.check s p) := by
  unfold State.check
  dsimp only
  split
  · exact Keeps.goOn (Keeps.modCore h)
  · split
    · exact Keeps.goOn h
    · split
      · exact Keeps.goOn (Keeps.endLayer h)
      · split
        · split
          · exact Keeps.goOn (Keeps.endLayer h)
          · exact Keeps.decideLayers h
        · split
          · exact Keeps.decideLayers h
          · exact Keeps.wait (Keeps.setBlocked (Keeps.modCsq h))

theorem Keeps.csqRead {fm : Nat} {r s : State} (h : Keeps fm r s)
    (hm : Sub 3674048 fm := by exact Sub.of (by assumption) (by decide)) {p x rows up} :
    KeepsP fm r (State.csqRead s p x rows up) := by
  unfold State.csqRead
  dsimp only
  refine Keeps.pair (Keeps.fst (Keeps.readRows ?_))
  split
  · exact Keeps.markTagFault h
  · exact h

theorem Keeps.execSegmentLookahead {fm : Nat} {r s : State} (h : Keeps fm r s)
    (hm : Sub 544 fm := by exact Sub.of (by assumption) (by decide)) {p} : KeepsX fm r (execSegmentLookahead p s) := by
  unfold Sys2Proof.Machine.execSegmentLookahead
  dsimp only
  refine Keeps.next ?_
  split
  · exact h
  · exact Keeps.lookOn (Keeps.modCsq h)

theorem Keeps.endInvocation {fm : Nat} {r s : State} (h : Keeps fm r s)
    (hm : Sub 134720 fm := by exact Sub.of (by assumption) (by decide)) {p x} : Keeps fm r (State.endInvocation s p x) := by
  unfold State.endInvocation
  dsimp only
  refine Keeps.announce (Keeps.modCtx ?_)
  split
  · exact Keeps.modJob (Keeps.takeSwaps h)
  · exact Keeps.takeSwaps h

theorem Keeps.goTo {fm : Nat} {r s : State} (h : Keeps fm r s)
    (hm : Sub 3616 fm := by exact Sub.of (by assumption) (by decide)) {p seg span} :
    Keeps fm r (State.goTo s p seg span) := by
  unfold State.goTo
  dsimp only
  refine Keeps.judgeBlocked (Keeps.segPermit ?_)
  split
  · exact Keeps.modCore (Keeps.fst (Keeps.takeSpan (Keeps.modCsq h)))
  · exact Keeps.modCsq h

theorem Keeps.stray {fm : Nat} {r s : State} (h : Keeps fm r s)
    (hm : Sub 3620 fm := by exact Sub.of (by assumption) (by decide)) {p} :
    Keeps fm r (Sys2Proof.Machine.State.stray s p) := by
  unfold Sys2Proof.Machine.State.stray
  exact Keeps.goTo (Keeps.unruly h)

theorem Keeps.execSegmentStart {fm : Nat} {r s : State} (h : Keeps fm r s)
    (hm : Sub 4173796 fm := by exact Sub.of (by assumption) (by decide)) {p up} : KeepsX fm r (execSegmentStart p up s) := by
  unfold Sys2Proof.Machine.execSegmentStart
  dsimp only
  split
  · exact Keeps.next h
  · split
    · exact Keeps.next (Keeps.stray h)
    · split
      · exact Keeps.next (Keeps.abortSpan (Keeps.ofPair (by assumption) (Keeps.csqRead h)))
      · split
        · exact Keeps.next (Keeps.stray (Keeps.ofPair (by assumption) (Keeps.csqRead h)))
        · refine Keeps.next (Keeps.setBlocked (Keeps.wakeFor (Keeps.modCsq (Keeps.bump (Keeps.ofSome (by assumption) ?_)))))
          split
          · exact Keeps.some (Keeps.ofPair (by assumption) (Keeps.csqRead h))
          · exact Keeps.launch (Keeps.ofPair (by assumption) (Keeps.csqRead h))

theorem Keeps.takeTurn {fm : Nat} {r s : State} (h : Keeps fm r s)
    (hm : Sub 2097696 fm := by exact Sub.of (by assumption) (by decide)) {p choice} :
    Keeps fm r (Sys2Proof.Machine.State.takeTurn s p choice) := by
  unfold Sys2Proof.Machine.State.takeTurn
  dsimp only
  exact Keeps.idleCore (Keeps.modCsq (Keeps.update h))

theorem Keeps.serveWeir {fm : Nat} {r s : State} (h : Keeps fm r s)
    (hm : Sub 2764384 fm := by exact Sub.of (by assumption) (by decide)) {p w next} :
    Keeps fm r (State.serveWeir s p w next) := by
  unfold State.serveWeir
  dsimp only
  split
  · split
    · split
      · split
        · refine Keeps.takeTurn ?_
          split
          · split
            · exact Keeps.returnPermit (Keeps.beginSpill (Keeps.restCtx (Keeps.modCtx (Keeps.endInvocation h))))
            · exact Keeps.beginSpill (Keeps.restCtx (Keeps.modCtx (Keeps.endInvocation h)))
          · split
            · exact Keeps.returnPermit (Keeps.beginSpill (Keeps.restCtx (Keeps.modCtx (Keeps.endInvocation h))))
            · exact Keeps.beginSpill (Keeps.restCtx (Keeps.modCtx (Keeps.endInvocation h)))
        · refine Keeps.handTo ?_
          split
          · split
            · exact Keeps.returnPermit (Keeps.beginSpill (Keeps.restCtx (Keeps.modCtx (Keeps.endInvocation h))))
            · exact Keeps.beginSpill (Keeps.restCtx (Keeps.modCtx (Keeps.endInvocation h)))
          · split
            · exact Keeps.returnPermit (Keeps.beginSpill (Keeps.restCtx (Keeps.modCtx (Keeps.endInvocation h))))
            · exact Keeps.beginSpill (Keeps.restCtx (Keeps.modCtx (Keeps.endInvocation h)))
      · split
        · refine Keeps.takeTurn ?_
          split
          · split
            · exact Keeps.returnPermit (Keeps.beginSpill (Keeps.restCtx (Keeps.modCtx (Keeps.modCtx h))))
            · exact Keeps.beginSpill (Keeps.restCtx (Keeps.modCtx (Keeps.modCtx h)))
          · split
            · exact Keeps.returnPermit (Keeps.beginSpill (Keeps.restCtx (Keeps.modCtx (Keeps.modCtx h))))
            · exact Keeps.beginSpill (Keeps.restCtx (Keeps.modCtx (Keeps.modCtx h)))
        · refine Keeps.handTo ?_
          split
          · split
            · exact Keeps.returnPermit (Keeps.beginSpill (Keeps.restCtx (Keeps.modCtx (Keeps.modCtx h))))
            · exact Keeps.beginSpill (Keeps.restCtx (Keeps.modCtx (Keeps.modCtx h)))
          · split
            · exact Keeps.returnPermit (Keeps.beginSpill (Keeps.restCtx (Keeps.modCtx (Keeps.modCtx h))))
            · exact Keeps.beginSpill (Keeps.restCtx (Keeps.modCtx (Keeps.modCtx h)))
    · split
      · refine Keeps.takeTurn ?_
        split
        · split
          · refine Keeps.returnPermit (Keeps.beginSpill (Keeps.restCtx (Keeps.modCtx ?_)))
            split
            · exact Keeps.endInvocation h
            · exact Keeps.modCtx h
          · refine Keeps.beginSpill (Keeps.restCtx (Keeps.modCtx ?_))
            split
            · exact Keeps.endInvocation h
            · exact Keeps.modCtx h
        · split
          · refine Keeps.returnPermit (Keeps.beginSpill (Keeps.restCtx (Keeps.modCtx ?_)))
            split
            · exact Keeps.endInvocation h
            · exact Keeps.modCtx h
          · refine Keeps.beginSpill (Keeps.restCtx (Keeps.modCtx ?_))
            split
            · exact Keeps.endInvocation h
            · exact Keeps.modCtx h
      · refine Keeps.handTo ?_
        split
        · split
          · refine Keeps.returnPermit (Keeps.beginSpill (Keeps.restCtx (Keeps.modCtx ?_)))
            split
            · exact Keeps.endInvocation h
            · exact Keeps.modCtx h
          · refine Keeps.beginSpill (Keeps.restCtx (Keeps.modCtx ?_))
            split
            · exact Keeps.endInvocation h
            · exact Keeps.modCtx h
        · split
          · refine Keeps.returnPermit (Keeps.beginSpill (Keeps.restCtx (Keeps.modCtx ?_)))
            split
            · exact Keeps.endInvocation h
            · exact Keeps.modCtx h
          · refine Keeps.beginSpill (Keeps.restCtx (Keeps.modCtx ?_))
            split
            · exact Keeps.endInvocation h
            · exact Keeps.modCtx h
  · split
    · split
      · split
        · exact Keeps.takeTurn (Keeps.restCtx (Keeps.modCtx (Keeps.endInvocation h)))
        · split
          · split
            · exact Keeps.goTo (Keeps.endInvocation h)
            · exact Keeps.handTo (Keeps.restCtx (Keeps.modCtx (Keeps.endInvocation h)))
          · split
            · exact Keeps.goTo (Keeps.endInvocation h)
            · exact Keeps.handTo (Keeps.restCtx (Keeps.modCtx (Keeps.endInvocation h)))
      · split
        · exact Keeps.takeTurn (Keeps.restCtx (Keeps.modCtx (Keeps.modCtx h)))
        · split
          · split
            · exact Keeps.goTo (Keeps.modCtx h)
            · exact Keeps.handTo (Keeps.restCtx (Keeps.modCtx (Keeps.modCtx h)))
          · split
            · exact Keeps.goTo (Keeps.modCtx h)
            · exact Keeps.handTo (Keeps.restCtx (Keeps.modCtx (Keeps.modCtx h)))
    · split
      · refine Keeps.takeTurn (Keeps.restCtx (Keeps.modCtx ?_))
        split
        · exact Keeps.endInvocation h
        · exact Keeps.modCtx h
      · split
        · split
          · refine Keeps.goTo ?_
            split
            · exact Keeps.endInvocation h
            · exact Keeps.modCtx h
          · refine Keeps.handTo (Keeps.restCtx (Keeps.modCtx ?_))
            split
            · exact Keeps.endInvocation h
            · exact Keeps.modCtx h
        · split
          · refine Keeps.goTo ?_
            split
            · exact Keeps.endInvocation h
            · exact Keeps.modCtx h
          · refine Keeps.handTo (Keeps.restCtx (Keeps.modCtx ?_))
            split
            · exact Keeps.endInvocation h
            · exact Keeps.modCtx h

theorem Keeps.syncPoint {fm : Nat} {r s : State} (h : Keeps fm r s)
    (hm : Sub 4173792 fm := by exact Sub.of (by assumption) (by decide)) {p} : Keeps fm r (State.syncPoint s p) := by
  unfold State.syncPoint
  dsimp only
  split
  · exact h
  · split
    · refine Keeps.abortSpan ?_
      split
      · exact Keeps.consume h
      · exact h
    · split
      · refine Keeps.abortSpan ?_
        split
        · exact Keeps.consume h
        · exact h
      · split
        · refine Keeps.serveWeir (Keeps.modCsq (Keeps.keepUndo (Keeps.modCore (Keeps.joinSpan ?_))))
          split
          · exact Keeps.consume h
          · exact h
        · refine Keeps.goTo (Keeps.modCsq (Keeps.keepUndo (Keeps.modCore (Keeps.joinSpan ?_))))
          split
          · exact Keeps.consume h
          · exact h

theorem Keeps.pastSegment {fm : Nat} {r s : State} (h : Keeps fm r s)
    (hm : Sub 3620 fm := by exact Sub.of (by assumption) (by decide)) {p} :
    Keeps fm r (Sys2Proof.Machine.State.pastSegment s p) := by
  unfold Sys2Proof.Machine.State.pastSegment
  dsimp only
  split
  · refine Keeps.judgeBlocked ?_
    split
    · split
      · exact Keeps.modCsq h
      · exact Keeps.returnPermit (Keeps.modCsq h)
    · exact Keeps.returnPermit (Keeps.modCsq h)
  · split
    · exact Keeps.stray h
    · exact Keeps.goTo h

theorem Keeps.segmentEnd {fm : Nat} {r s : State} (h : Keeps fm r s)
    (hm : Sub 4173796 fm := by exact Sub.of (by assumption) (by decide)) {p} :
    Keeps fm r (Sys2Proof.Machine.State.segmentEnd s p) := by
  unfold Sys2Proof.Machine.State.segmentEnd
  dsimp only
  split
  · exact h
  · split
    · exact Keeps.faultCore (Keeps.consume h)
    · split
      · exact Keeps.cancelNow h
      · split
        · exact Keeps.stray h
        · exact Keeps.ofWiden (by assumption) (Keeps.check h)
        · exact Keeps.ofWait (by assumption) (Keeps.check h)
        · exact Keeps.foldl (Keeps.ofGoOn (by assumption) (Keeps.check h)) _ (fun _ _ h0 => Keeps.pastSegment h0)

end Sys2Proof.Machine
end

