-- ==== Sys2Proof/Laws/Keeps/Engines.lean ====
section
/-! SUPPORT. What the operations of Machine/Engines.lean keep. -/

set_option Elab.async false

namespace Sys2Proof.Machine

theorem Keeps.issue {fm : Nat} {r s : State} (h : Keeps fm r s)
    (hm : Sub 4173792 fm := by exact Sub.of (by assumption) (by decide)) {p unit n up} :
    KeepsI fm r (State.issue s p unit n up) := by
  unfold State.issue
  dsimp only
  split
  · exact Keeps.idle
  · split
    · exact Keeps.aborted (Keeps.abortSpan (Keeps.ofPair (by assumption) (Keeps.csqRead h)))
    · exact Keeps.go (Keeps.modCsq (Keeps.ofPair (by assumption) (Keeps.csqRead h)))

theorem Keeps.engineRead {fm : Nat} {r s : State} (h : Keeps fm r s)
    (hm : Sub 4173792 fm := by exact Sub.of (by assumption) (by decide)) {p rows up} :
    KeepsP fm r (State.engineRead s p rows up) := by
  unfold State.engineRead
  dsimp only
  split
  · refine Keeps.pair (Keeps.abortSpan (Keeps.ofPair (by assumption) (Keeps.readRows ?_)))
    split
    · exact Keeps.markTagFault h
    · exact h
  · refine Keeps.pair (Keeps.ofPair (by assumption) (Keeps.readRows ?_))
    split
    · exact Keeps.markTagFault h
    · exact h

theorem Keeps.engineWrite {fm : Nat} {r s : State} (h : Keeps fm r s)
    (hm : Sub 3584 fm := by exact Sub.of (by assumption) (by decide)) {p rows} :
    Keeps fm r (State.engineWrite s p rows) := by
  unfold State.engineWrite
  dsimp only
  refine Keeps.foldl ?_ _ (fun _ _ h0 => Keeps.useBank h0)
  split
  · exact Keeps.markTagFault h
  · exact h

theorem Keeps.engineBusy {fm : Nat} {r s : State} (h : Keeps fm r s)
    (hm : Sub 576 fm := by exact Sub.of (by assumption) (by decide)) {p e cycles} :
    Keeps fm r (State.engineBusy s p e cycles) := by
  unfold State.engineBusy
  exact Keeps.charge (Keeps.useEngine h)

theorem Keeps.wildRun {fm : Nat} {r s : State} (h : Keeps fm r s)
    (hm : Sub 580 fm := by exact Sub.of (by assumption) (by decide)) {p e cycles} :
    Keeps fm r (Sys2Proof.Machine.State.wildRun s p e cycles) := by
  unfold Sys2Proof.Machine.State.wildRun
  exact Keeps.engineBusy (Keeps.unruly h)

theorem Keeps.execMxeTile {fm : Nat} {r s : State} (h : Keeps fm r s)
    (hm : Sub 4173796 fm := by exact Sub.of (by assumption) (by decide)) {p up} : KeepsX fm r (execMxeTile p up s) := by
  unfold Sys2Proof.Machine.execMxeTile
  dsimp only
  split
  · exact Keeps.next h
  · exact Keeps.next (Keeps.ofAborted (by assumption) (Keeps.issue h))
  · split
    · exact Keeps.next (Keeps.wildRun (Keeps.ofGo (by assumption) (Keeps.issue h)))
    · split
      · exact Keeps.next (Keeps.ofPair (by assumption) (Keeps.engineRead (Keeps.ofGo (by assumption) (Keeps.issue h))))
      · split
        · exact Keeps.next (Keeps.wildRun (Keeps.ofPair (by assumption) (Keeps.engineRead (Keeps.ofGo (by assumption) (Keeps.issue h)))))
        · exact Keeps.next (Keeps.engineBusy (Keeps.bump (Keeps.setCore (Keeps.ofPair (by assumption) (Keeps.engineRead (Keeps.ofGo (by assumption) (Keeps.issue h)))))))

theorem Keeps.useInjection {fm : Nat} {r s : State} (h : Keeps fm r s)
    (hm : Sub 64 fm := by exact Sub.of (by assumption) (by decide)) {before p} :
    Keeps fm r (Sys2Proof.Machine.State.useInjection s before p) := by
  unfold Sys2Proof.Machine.State.useInjection
  dsimp only
  split
  · exact Keeps.consume h
  · exact h

theorem Keeps.countDraws {fm : Nat} {r s : State} (h : Keeps fm r s)
    (hm : Sub 576 fm := by exact Sub.of (by assumption) (by decide)) {random p y9 n first last w u bank tid reloads} :
    Keeps fm r (Sys2Proof.Machine.State.countDraws s random p y9 n first last w u bank tid reloads) := by
  unfold Sys2Proof.Machine.State.countDraws
  dsimp only
  split
  · exact h
  · exact Keeps.runBank (Keeps.modCsq h)

theorem Keeps.gtuStart {fm : Nat} {r s : State} (h : Keeps fm r s)
    (hm : Sub 4173796 fm := by exact Sub.of (by assumption) (by decide)) {p template up x d} :
    KeepsG fm r (Sys2Proof.Machine.State.gtuStart s p template up x d) := by
  unfold Sys2Proof.Machine.State.gtuStart
  split
  · exact Keeps.stop (Keeps.wildRun h)
  · split
    · exact Keeps.stop (Keeps.ofPair (by assumption) (Keeps.engineRead h))
    · exact Keeps.gtuGo (Keeps.ofPair (by assumption) (Keeps.engineRead h))

theorem Keeps.gtuIssue {fm : Nat} {r s : State} (h : Keeps fm r s)
    (hm : Sub 4173796 fm := by exact Sub.of (by assumption) (by decide)) {p template up} :
    KeepsG fm r (State.gtuIssue s p template up) := by
  unfold State.gtuIssue
  split
  · exact Keeps.stop h
  · split
    · exact Keeps.stop h
    · split
      · exact Keeps.stop h
      · exact Keeps.stop (Keeps.ofAborted (by assumption) (Keeps.issue h))
      · exact Keeps.gtuStart (Keeps.ofGo (by assumption) (Keeps.issue h))

theorem Keeps.gtuCell {fm : Nat} {r s : State} (h : Keeps fm r s)
    (hm : Sub 4173796 fm := by exact Sub.of (by assumption) (by decide)) {p template up cell ok draws} :
    KeepsX fm r (State.gtuCell s p template up cell ok draws) := by
  unfold State.gtuCell
  dsimp only
  split
  · exact Keeps.next (Keeps.ofStop (by assumption) (Keeps.gtuIssue h))
  · split
    · exact Keeps.next (Keeps.wildRun (Keeps.ofGtuGo (by assumption) (Keeps.gtuIssue h)))
    · exact Keeps.next (Keeps.engineBusy (Keeps.flagsBy (Keeps.useInjection (Keeps.countDraws (Keeps.countConv (Keeps.setCore (Keeps.engineWrite (Keeps.ofGtuGo (by assumption) (Keeps.gtuIssue h)))))))))

theorem Keeps.execGtuLstm {fm : Nat} {r s : State} (h : Keeps fm r s)
    (hm : Sub 4173796 fm := by exact Sub.of (by assumption) (by decide)) {p up} : KeepsX fm r (execGtuLstm p up s) := by
  unfold Sys2Proof.Machine.execGtuLstm
  exact Keeps.gtuCell h

theorem Keeps.execGtuGru {fm : Nat} {r s : State} (h : Keeps fm r s)
    (hm : Sub 4173796 fm := by exact Sub.of (by assumption) (by decide)) {p up} : KeepsX fm r (execGtuGru p up s) := by
  unfold Sys2Proof.Machine.execGtuGru
  exact Keeps.gtuCell h

theorem Keeps.execGtuMguPhaseA {fm : Nat} {r s : State} (h : Keeps fm r s)
    (hm : Sub 4173796 fm := by exact Sub.of (by assumption) (by decide)) {p up} : KeepsX fm r (execGtuMguPhaseA p up s) := by
  unfold Sys2Proof.Machine.execGtuMguPhaseA
  exact Keeps.gtuCell h

theorem Keeps.execGtuMguPhaseB {fm : Nat} {r s : State} (h : Keeps fm r s)
    (hm : Sub 4173796 fm := by exact Sub.of (by assumption) (by decide)) {p up} : KeepsX fm r (execGtuMguPhaseB p up s) := by
  unfold Sys2Proof.Machine.execGtuMguPhaseB
  exact Keeps.gtuCell h

theorem Keeps.execGtuSru {fm : Nat} {r s : State} (h : Keeps fm r s)
    (hm : Sub 4173796 fm := by exact Sub.of (by assumption) (by decide)) {p up} : KeepsX fm r (execGtuSru p up s) := by
  unfold Sys2Proof.Machine.execGtuSru
  exact Keeps.gtuCell h

theorem Keeps.execGtuGateProgram {fm : Nat} {r s : State} (h : Keeps fm r s)
    (hm : Sub 4173796 fm := by exact Sub.of (by assumption) (by decide)) {p up} :
    KeepsX fm r (execGtuGateProgram p up s) := by
  unfold Sys2Proof.Machine.execGtuGateProgram
  exact Keeps.gtuCell h

theorem Keeps.execGtuIntake {fm : Nat} {r s : State} (h : Keeps fm r s)
    (hm : Sub 4173796 fm := by exact Sub.of (by assumption) (by decide)) {p up} : KeepsX fm r (execGtuIntake p up s) := by
  unfold Sys2Proof.Machine.execGtuIntake
  dsimp only
  split
  · exact Keeps.next (Keeps.ofStop (by assumption) (Keeps.gtuIssue h))
  · exact Keeps.next (Keeps.engineBusy (Keeps.setCore (Keeps.engineWrite (Keeps.ofGtuGo (by assumption) (Keeps.gtuIssue h)))))

theorem Keeps.vxEnd {fm : Nat} {r s : State} (h : Keeps fm r s)
    (hm : Sub 3652 fm := by exact Sub.of (by assumption) (by decide)) {p x d g prog} :
    Keeps fm r (State.vxEnd s p x d g prog) := by
  unfold State.vxEnd
  dsimp only
  exact Keeps.update (Keeps.engineBusy (Keeps.bump (Keeps.countDraws (Keeps.flagsBy (Keeps.countConv (Keeps.useInjection (Keeps.setCore (Keeps.engineWrite h))))))))

theorem Keeps.execVxePass {fm : Nat} {r s : State} (h : Keeps fm r s)
    (hm : Sub 4173796 fm := by exact Sub.of (by assumption) (by decide)) {p up} : KeepsX fm r (execVxePass p up s) := by
  unfold Sys2Proof.Machine.execVxePass
  dsimp only
  split
  · exact Keeps.next h
  · exact Keeps.next (Keeps.ofAborted (by assumption) (Keeps.issue h))
  · split
    · exact Keeps.next (Keeps.wildRun (Keeps.ofGo (by assumption) (Keeps.issue h)))
    · split
      · exact Keeps.next (Keeps.ofPair (by assumption) (Keeps.engineRead (Keeps.ofGo (by assumption) (Keeps.issue h))))
      · exact Keeps.next (Keeps.vxEnd (Keeps.ofPair (by assumption) (Keeps.engineRead (Keeps.ofGo (by assumption) (Keeps.issue h)))))

theorem Keeps.asyncIssue {fm : Nat} {r s : State} (h : Keeps fm r s) {p unit up legal mine}
    {run : State → Nat → Rec → State} (hf : ∀ s x d, Keeps fm r s → Keeps fm r (run s x d))
    (hm : Sub 4173796 fm := by exact Sub.of (by assumption) (by decide)) :
    Keeps fm r (State.asyncIssue s p unit up legal mine run) := by
  unfold State.asyncIssue
  split
  · exact h
  · dsimp only
    split
    · exact h
    · have k := Keeps.issue h (p := p) (unit := unit) (n := 32) (up := up)
      split
      · exact h
      · next e => exact Keeps.ofAborted e k
      · next e =>
        split
        · exact hf _ _ _ (Keeps.ofGo e k)
        · exact Keeps.unruly (Keeps.ofGo e k)

theorem Keeps.gxeGo {fm : Nat} {r s : State} (h : Keeps fm r s)
    (hm : Sub 3903460 fm := by exact Sub.of (by assumption) (by decide)) {p x d up} :
    Keeps fm r (Sys2Proof.Machine.State.gxeGo s p x d up) := by
  unfold Sys2Proof.Machine.State.gxeGo
  split
  · exact Keeps.ofSome (by assumption) (Keeps.gxeIssue h)
  · exact Keeps.unruly h

theorem Keeps.execGxeLookup {fm : Nat} {r s : State} (h : Keeps fm r s)
    (hm : Sub 4173796 fm := by exact Sub.of (by assumption) (by decide)) {p up} : KeepsX fm r (execGxeLookup p up s) := by
  unfold Sys2Proof.Machine.execGxeLookup
  exact Keeps.next (Keeps.asyncIssue h fun _ _ _ h => Keeps.gxeGo h)

theorem Keeps.execGxeScatter {fm : Nat} {r s : State} (h : Keeps fm r s)
    (hm : Sub 4173796 fm := by exact Sub.of (by assumption) (by decide)) {p up} : KeepsX fm r (execGxeScatter p up s) := by
  unfold Sys2Proof.Machine.execGxeScatter
  exact Keeps.next (Keeps.asyncIssue h fun _ _ _ h => Keeps.gxeGo h)

theorem Keeps.execDmvCopy {fm : Nat} {r s : State} (h : Keeps fm r s)
    (hm : Sub 4190180 fm := by exact Sub.of (by assumption) (by decide)) {p up ue} :
    KeepsX fm r (execDmvCopy p up ue s) := by
  unfold Sys2Proof.Machine.execDmvCopy
  exact Keeps.next (Keeps.asyncIssue h fun _ _ _ h => Keeps.dmvIssue h)

theorem Keeps.execDmvZeroFill {fm : Nat} {r s : State} (h : Keeps fm r s)
    (hm : Sub 4190180 fm := by exact Sub.of (by assumption) (by decide)) {p up ue} :
    KeepsX fm r (execDmvZeroFill p up ue s) := by
  unfold Sys2Proof.Machine.execDmvZeroFill
  exact Keeps.next (Keeps.asyncIssue h fun _ _ _ h => Keeps.dmvIssue h)

theorem Keeps.execMxImport {fm : Nat} {r s : State} (h : Keeps fm r s)
    (hm : Sub 4190180 fm := by exact Sub.of (by assumption) (by decide)) {p up ue} :
    KeepsX fm r (execMxImport p up ue s) := by
  unfold Sys2Proof.Machine.execMxImport
  exact Keeps.next (Keeps.asyncIssue h fun _ _ _ h => Keeps.dmvIssue h)

theorem Keeps.patrol {fm : Nat} {r s : State} (h : Keeps fm r s)
    (hm : Sub 3819456 fm := by exact Sub.of (by assumption) (by decide)) {p b up} : Keeps fm r (State.patrol s p b up) := by
  unfold State.patrol
  dsimp only
  split
  · split
    · split
      · split
        · split
          · refine Keeps.reloadRow (Keeps.loseRow ?_)
            split
            · exact Keeps.consume (Keeps.correctRow (Keeps.consume (Keeps.modCore h)))
            · exact Keeps.correctRow (Keeps.consume (Keeps.modCore h))
          · refine Keeps.loseRow ?_
            split
            · exact Keeps.consume (Keeps.correctRow (Keeps.consume (Keeps.modCore h)))
            · exact Keeps.correctRow (Keeps.consume (Keeps.modCore h))
        · refine Keeps.loseRow ?_
          split
          · exact Keeps.consume (Keeps.correctRow (Keeps.consume (Keeps.modCore h)))
          · exact Keeps.correctRow (Keeps.consume (Keeps.modCore h))
      · split
        · exact Keeps.consume (Keeps.correctRow (Keeps.consume (Keeps.modCore h)))
        · exact Keeps.correctRow (Keeps.consume (Keeps.modCore h))
    · split
      · split
        · split
          · refine Keeps.reloadRow (Keeps.loseRow ?_)
            split
            · exact Keeps.consume (Keeps.correctRow (Keeps.modCore h))
            · exact Keeps.correctRow (Keeps.modCore h)
          · refine Keeps.loseRow ?_
            split
            · exact Keeps.consume (Keeps.correctRow (Keeps.modCore h))
            · exact Keeps.correctRow (Keeps.modCore h)
        · refine Keeps.loseRow ?_
          split
          · exact Keeps.consume (Keeps.correctRow (Keeps.modCore h))
          · exact Keeps.correctRow (Keeps.modCore h)
      · split
        · exact Keeps.consume (Keeps.correctRow (Keeps.modCore h))
        · exact Keeps.correctRow (Keeps.modCore h)
  · split
    · split
      · split
        · split
          · refine Keeps.reloadRow (Keeps.loseRow ?_)
            split
            · exact Keeps.consume (Keeps.consume (Keeps.modCore h))
            · exact Keeps.consume (Keeps.modCore h)
          · refine Keeps.loseRow ?_
            split
            · exact Keeps.consume (Keeps.consume (Keeps.modCore h))
            · exact Keeps.consume (Keeps.modCore h)
        · refine Keeps.loseRow ?_
          split
          · exact Keeps.consume (Keeps.consume (Keeps.modCore h))
          · exact Keeps.consume (Keeps.modCore h)
      · split
        · exact Keeps.consume (Keeps.consume (Keeps.modCore h))
        · exact Keeps.consume (Keeps.modCore h)
    · split
      · split
        · split
          · refine Keeps.reloadRow (Keeps.loseRow ?_)
            split
            · exact Keeps.consume (Keeps.modCore h)
            · exact Keeps.modCore h
          · refine Keeps.loseRow ?_
            split
            · exact Keeps.consume (Keeps.modCore h)
            · exact Keeps.modCore h
        · refine Keeps.loseRow ?_
          split
          · exact Keeps.consume (Keeps.modCore h)
          · exact Keeps.modCore h
      · split
        · exact Keeps.consume (Keeps.modCore h)
        · exact Keeps.modCore h

theorem Keeps.execPatrolScrub {fm : Nat} {r s : State} (h : Keeps fm r s)
    (hm : Sub 3819456 fm := by exact Sub.of (by assumption) (by decide)) {p up} : KeepsX fm r (execPatrolScrub p up s) := by
  unfold Sys2Proof.Machine.execPatrolScrub
  exact Keeps.next (Keeps.whenFetched h (fun _ h0 => Keeps.foldl h0 _ (fun _ _ h1 => Keeps.patrol h1)))

end Sys2Proof.Machine
end

