-- ==== Sys2Proof/Laws/Keeps/Contexts.lean ====
section
/-! SUPPORT. What the operations of Machine/Contexts.lean keep. -/

set_option Elab.async false

namespace Sys2Proof.Machine

theorem Keeps.endOp {fm : Nat} {r s : State} (h : Keeps fm r s)
    (hm : Sub 532480 fm := by exact Sub.of (by assumption) (by decide)) {o status} :
    Keeps fm r (State.endOp s o status) := by
  unfold State.endOp
  exact Keeps.complete (Keeps.update h)

theorem Keeps.loseIntact {fm : Nat} {r s : State} (h : Keeps fm r s)
    (hm : Sub 1024 fm := by exact Sub.of (by assumption) (by decide)) {p x rowBase rows handleBase handles} :
    Keeps fm r (State.loseIntact s p x rowBase rows handleBase handles) := by
  unfold State.loseIntact
  exact Keeps.foldl h _ (fun _ _ h0 => Keeps.modCtx h0)

theorem Keeps.bindRead {fm : Nat} {r s : State} (h : Keeps fm r s)
    (hm : Sub 3817924 fm := by exact Sub.of (by assumption) (by decide)) {part a n} :
    KeepsP fm r (State.bindRead s part a n) := by
  unfold State.bindRead
  dsimp only
  exact Keeps.pair (Keeps.fst (Keeps.readMem h))

theorem Keeps.clearWindow {fm : Nat} {r s : State} (h : Keeps fm r s)
    (hm : Sub 1536 fm := by exact Sub.of (by assumption) (by decide)) {p x} : Keeps fm r (State.clearWindow s p x) := by
  unfold State.clearWindow
  dsimp only
  exact Keeps.loseIntact (Keeps.modCore (Keeps.zeroRowsOf h))

theorem Keeps.bindImage {fm : Nat} {r s : State} (h : Keeps fm r s)
    (hm : Sub 3819460 fm := by exact Sub.of (by assumption) (by decide)) {x} : Keeps fm r (State.bindImage s x) := by
  unfold State.bindImage
  dsimp only
  exact Keeps.modCore (Keeps.clearWindow (Keeps.modCtx (Keeps.fst (Keeps.bindRead (Keeps.fst (Keeps.bindRead (Keeps.fst (Keeps.bindRead h))))))))

theorem Keeps.loadRow {fm : Nat} {r s : State} (h : Keeps fm r s)
    (hm : Sub 3819456 fm := by exact Sub.of (by assumption) (by decide)) {x m k ue} :
    Keeps fm r (State.loadRow s x m k ue) := by
  unfold State.loadRow
  dsimp only
  split
  · exact h
  · split
    · exact Keeps.holdsRow (Keeps.useBank (Keeps.modCore (Keeps.fst (Keeps.readMem h))))
    · exact Keeps.holdsRow (Keeps.useBank (Keeps.modCore (Keeps.fst (Keeps.readMem h))))

theorem Keeps.loadAll {fm : Nat} {r s : State} (h : Keeps fm r s)
    (hm : Sub 3819460 fm := by exact Sub.of (by assumption) (by decide)) {x ue} : Keeps fm r (State.loadAll s x ue) := by
  unfold State.loadAll
  dsimp only
  exact Keeps.foldl (Keeps.modCtx h) _ (fun _ _ h0 => Keeps.foldl h0 _ (fun _ _ h1 => Keeps.loadRow h1))

theorem Keeps.beginRestore {fm : Nat} {r s : State} (h : Keeps fm r s)
    (hm : Sub 536160 fm := by exact Sub.of (by assumption) (by decide)) {o} : Keeps fm r (State.beginRestore s o) := by
  unfold State.beginRestore
  dsimp only
  split
  · exact Keeps.endOp h
  · split
    · exact Keeps.endOp h
    · split
      · exact Keeps.endOp h
      · split
        · exact Keeps.endOp h
        · split
          · refine Keeps.kick (Keeps.endOp (Keeps.modCsq (Keeps.bump ?_)))
            split
            · exact Keeps.parkStart h
            · exact Keeps.restCtx h
          · exact Keeps.modOp (Keeps.modCtx (Keeps.setCtxState h))

theorem Keeps.spillFault {fm : Nat} {r s : State} (h : Keeps fm r s)
    (hm : Sub 4173792 fm := by exact Sub.of (by assumption) (by decide)) {x} : Keeps fm r (State.spillFault s x) := by
  unfold State.spillFault
  exact Keeps.faultCtx (Keeps.coreEvent h)

theorem Keeps.finishRestore {fm : Nat} {r s : State} (h : Keeps fm r s)
    (hm : Sub 4190180 fm := by exact Sub.of (by assumption) (by decide)) {o ue} :
    Keeps fm r (State.finishRestore s o ue) := by
  unfold State.finishRestore
  dsimp only
  split
  · exact Keeps.endOp (Keeps.spillFault (Keeps.fst (Keeps.readMem (Keeps.fst (Keeps.readMem (Keeps.loadAll (Keeps.bindImage h)))))))
  · refine Keeps.kick (Keeps.endOp ?_)
    split
    · exact Keeps.parkStart (Keeps.modCsq (Keeps.bump (Keeps.useRows (Keeps.modCore (Keeps.modCore (Keeps.modCtx (Keeps.fst (Keeps.readMem (Keeps.fst (Keeps.readMem (Keeps.loadAll (Keeps.bindImage h))))))))))))
    · exact Keeps.restCtx (Keeps.modCsq (Keeps.bump (Keeps.useRows (Keeps.modCore (Keeps.modCore (Keeps.modCtx (Keeps.fst (Keeps.readMem (Keeps.fst (Keeps.readMem (Keeps.loadAll (Keeps.bindImage h))))))))))))

theorem Keeps.killNow {fm : Nat} {r s : State} (h : Keeps fm r s)
    (hm : Sub 1027680 fm := by exact Sub.of (by assumption) (by decide)) {x} : Keeps fm r (State.killNow s x) := by
  unfold State.killNow
  dsimp only
  split
  · split
    · exact Keeps.modCtx (Keeps.foldl (Keeps.foldl (Keeps.modCtx (Keeps.returnPermit (Keeps.foldl h _ (fun _ _ h0 => Keeps.endOp h0)))) _ (fun _ _ h0 => Keeps.abortJob h0)) _ (fun _ _ h0 => Keeps.foldl h0 _ (fun _ _ h1 => Keeps.abortJob h1)))
    · split
      · exact Keeps.abortJob (Keeps.modCtx (Keeps.foldl (Keeps.foldl (Keeps.modCtx (Keeps.returnPermit (Keeps.foldl h _ (fun _ _ h0 => Keeps.endOp h0)))) _ (fun _ _ h0 => Keeps.abortJob h0)) _ (fun _ _ h0 => Keeps.foldl h0 _ (fun _ _ h1 => Keeps.abortJob h1))))
      · exact Keeps.beginClear (Keeps.abortJob (Keeps.modCtx (Keeps.foldl (Keeps.foldl (Keeps.modCtx (Keeps.returnPermit (Keeps.foldl h _ (fun _ _ h0 => Keeps.endOp h0)))) _ (fun _ _ h0 => Keeps.abortJob h0)) _ (fun _ _ h0 => Keeps.foldl h0 _ (fun _ _ h1 => Keeps.abortJob h1)))))
  · split
    · exact Keeps.askCancel (Keeps.modCtx (Keeps.foldl (Keeps.foldl (Keeps.modCtx (Keeps.returnPermit (Keeps.foldl h _ (fun _ _ h0 => Keeps.endOp h0)))) _ (fun _ _ h0 => Keeps.abortJob h0)) _ (fun _ _ h0 => Keeps.foldl h0 _ (fun _ _ h1 => Keeps.abortJob h1))))
    · split
      · exact Keeps.foldl (Keeps.foldl (Keeps.modCtx (Keeps.returnPermit (Keeps.foldl h _ (fun _ _ h0 => Keeps.endOp h0)))) _ (fun _ _ h0 => Keeps.abortJob h0)) _ (fun _ _ h0 => Keeps.foldl h0 _ (fun _ _ h1 => Keeps.abortJob h1))
      · exact Keeps.beginClear (Keeps.foldl (Keeps.foldl (Keeps.modCtx (Keeps.returnPermit (Keeps.foldl h _ (fun _ _ h0 => Keeps.endOp h0)))) _ (fun _ _ h0 => Keeps.abortJob h0)) _ (fun _ _ h0 => Keeps.foldl h0 _ (fun _ _ h1 => Keeps.abortJob h1)))

theorem Keeps.killCtx {fm : Nat} {r s : State} (h : Keeps fm r s)
    (hm : Sub 1027680 fm := by exact Sub.of (by assumption) (by decide)) {x} : Keeps fm r (State.killCtx s x) := by
  unfold State.killCtx
  split
  · exact Keeps.modCtx h
  · exact Keeps.killNow h

theorem Keeps.releaseCtx {fm : Nat} {r s : State} (h : Keeps fm r s)
    (hm : Sub 536096 fm := by exact Sub.of (by assumption) (by decide)) {x} : Keeps fm r (State.releaseCtx s x) := by
  unfold State.releaseCtx
  dsimp only
  exact Keeps.kick (Keeps.foldl (Keeps.setCtx (Keeps.loseIntact (Keeps.releaseHandles (Keeps.zeroRowsOf h)))) _ (fun _ _ h0 => Keeps.endOp h0))

theorem Keeps.createCtx {fm : Nat} {r s : State} (h : Keeps fm r s)
    (hm : Sub 3827652 fm := by exact Sub.of (by assumption) (by decide)) {o} : Keeps fm r (State.createCtx s o) := by
  unfold State.createCtx
  dsimp only
  exact Keeps.modOp (Keeps.bindImage (Keeps.setCtx h))

theorem Keeps.swapCtx {fm : Nat} {r s : State} (h : Keeps fm r s)
    (hm : Sub 536160 fm := by exact Sub.of (by assumption) (by decide)) {o} : Keeps fm r (State.swapCtx s o) := by
  unfold State.swapCtx
  dsimp only
  split
  · exact Keeps.beginRestore h
  · split
    · exact Keeps.modOp h
    · exact Keeps.beginSpill h

theorem Keeps.exportCtx {fm : Nat} {r s : State} (h : Keeps fm r s)
    (hm : Sub 3826116 fm := by exact Sub.of (by assumption) (by decide)) {o} : Keeps fm r (State.exportCtx s o) := by
  unfold State.exportCtx
  dsimp only
  split
  · exact Keeps.endOp (Keeps.fst (Keeps.readMem (Keeps.fst (Keeps.readMem h))))
  · exact Keeps.endOp (Keeps.fst (Keeps.writeMem (Keeps.fst (Keeps.readMem (Keeps.fst (Keeps.readMem h))))))

theorem Keeps.importCtx {fm : Nat} {r s : State} (h : Keeps fm r s)
    (hm : Sub 3827140 fm := by exact Sub.of (by assumption) (by decide)) {o} : Keeps fm r (State.importCtx s o) := by
  unfold State.importCtx
  dsimp only
  split
  · exact Keeps.endOp (Keeps.fst (Keeps.bindRead (Keeps.fst (Keeps.readMem h))))
  · exact Keeps.endOp (Keeps.setCtx (Keeps.fst (Keeps.bindRead (Keeps.fst (Keeps.readMem h)))))

theorem Keeps.runOp {fm : Nat} {r s : State} (h : Keeps fm r s)
    (hm : Sub 3829732 fm := by exact Sub.of (by assumption) (by decide)) {o} : Keeps fm r (State.runOp s o) := by
  unfold State.runOp
  split
  · exact Keeps.endOp h
  · split
    · exact Keeps.createCtx h
    · exact Keeps.swapCtx h
    · exact Keeps.modOp h
    · exact Keeps.exportCtx h
    · exact Keeps.importCtx h
    · exact h

theorem Keeps.pumpOp {fm : Nat} {r s : State} (h : Keeps fm r s)
    (hm : Sub 3829732 fm := by exact Sub.of (by assumption) (by decide)) {o} :
    Keeps fm r (Sys2Proof.Machine.State.pumpOp s o) := by
  unfold Sys2Proof.Machine.State.pumpOp
  split
  · exact Keeps.whenFetched h (fun _ h0 => Keeps.runOp (Keeps.foldl h0 _ (fun _ _ h1 => Keeps.peekAsk h1)))
  · exact h

theorem Keeps.pumpOps {fm : Nat} {r a' : State} (h : Keeps fm r a')
    (hm : Sub 3829732 fm := by exact Sub.of (by assumption) (by decide)) {a} : Keeps fm r (State.pumpOps a a') := by
  induction a generalizing a' with
  | zero =>
    unfold State.pumpOps
    exact h
  | succ m ih =>
    unfold State.pumpOps
    exact ih (Keeps.foldl h _ (fun _ _ h0 => Keeps.pumpOp h0))

theorem Keeps.beginCopy {fm : Nat} {r s : State} (h : Keeps fm r s)
    (hm : Sub 2097152 fm := by exact Sub.of (by assumption) (by decide)) : Keeps fm r (State.beginCopy s) := by
  unfold State.beginCopy
  dsimp only
  split
  · split
    · exact Keeps.update h
    · exact h
  · exact h

theorem Keeps.settleOps {fm : Nat} {r s : State} (h : Keeps fm r s)
    (hm : Sub 3829732 fm := by exact Sub.of (by assumption) (by decide)) : Keeps fm r (State.settleOps s) := by
  unfold State.settleOps
  exact Keeps.beginCopy (Keeps.pumpOps h)

theorem Keeps.ctxCommand {fm : Nat} {r s : State} (h : Keeps fm r s)
    (hm : Sub 3829732 fm := by exact Sub.of (by assumption) (by decide)) {f q op} :
    Keeps fm r (State.ctxCommand s f q op) := by
  unfold State.ctxCommand
  dsimp only
  refine Keeps.whenFetched h ?_
  intro x0 h0
  split
  · split
    · exact Keeps.complete (Keeps.foldl (Keeps.ofPair (by assumption) (Keeps.take h0)) _ (fun _ _ h1 => Keeps.peekAsk h1))
    · exact Keeps.settleOps (Keeps.update (Keeps.foldl (Keeps.ofPair (by assumption) (Keeps.take h0)) _ (fun _ _ h1 => Keeps.peekAsk h1)))
  · exact Keeps.ofPair (by assumption) (Keeps.take h0)

theorem Keeps.execContextCreate {fm : Nat} {r s : State} (h : Keeps fm r s)
    (hm : Sub 3829732 fm := by exact Sub.of (by assumption) (by decide)) {f q} : KeepsX fm r (execContextCreate f q s) := by
  unfold Sys2Proof.Machine.execContextCreate
  exact Keeps.next (Keeps.ctxCommand h)

theorem Keeps.execSwap {fm : Nat} {r s : State} (h : Keeps fm r s)
    (hm : Sub 3829732 fm := by exact Sub.of (by assumption) (by decide)) {f q} : KeepsX fm r (execSwap f q s) := by
  unfold Sys2Proof.Machine.execSwap
  exact Keeps.next (Keeps.ctxCommand h)

theorem Keeps.execSwitch {fm : Nat} {r s : State} (h : Keeps fm r s)
    (hm : Sub 3829732 fm := by exact Sub.of (by assumption) (by decide)) {f q} : KeepsX fm r (execSwitch f q s) := by
  unfold Sys2Proof.Machine.execSwitch
  exact Keeps.next (Keeps.ctxCommand h)

theorem Keeps.execCtxExport {fm : Nat} {r s : State} (h : Keeps fm r s)
    (hm : Sub 3829732 fm := by exact Sub.of (by assumption) (by decide)) {f q} : KeepsX fm r (execCtxExport f q s) := by
  unfold Sys2Proof.Machine.execCtxExport
  exact Keeps.next (Keeps.ctxCommand h)

theorem Keeps.execCtxImport {fm : Nat} {r s : State} (h : Keeps fm r s)
    (hm : Sub 3829732 fm := by exact Sub.of (by assumption) (by decide)) {f q} : KeepsX fm r (execCtxImport f q s) := by
  unfold Sys2Proof.Machine.execCtxImport
  exact Keeps.next (Keeps.ctxCommand h)

theorem Keeps.execKill {fm : Nat} {r s : State} (h : Keeps fm r s)
    (hm : Sub 4190180 fm := by exact Sub.of (by assumption) (by decide)) {f q} : KeepsX fm r (execKill f q s) := by
  unfold Sys2Proof.Machine.execKill
  dsimp only
  refine Keeps.next ?_
  split
  · split
    · exact Keeps.endOp (Keeps.update (Keeps.ofPair (by assumption) (Keeps.take h)))
    · exact Keeps.settleOps (Keeps.killCtx (Keeps.update (Keeps.ofPair (by assumption) (Keeps.take h))))
  · exact Keeps.ofPair (by assumption) (Keeps.take h)

theorem Keeps.execBindingComplete {fm : Nat} {r s : State} (h : Keeps fm r s)
    (hm : Sub 3829732 fm := by exact Sub.of (by assumption) (by decide)) {x ue} :
    KeepsX fm r (execBindingComplete x ue s) := by
  unfold Sys2Proof.Machine.execBindingComplete
  refine Keeps.next ?_
  split
  · exact Keeps.whenFetched h (fun _ h0 => Keeps.settleOps (Keeps.kick (Keeps.endOp (Keeps.restCtx (Keeps.loadAll h0)))))
  · exact h

theorem Keeps.finishSpill {fm : Nat} {r s : State} (h : Keeps fm r s)
    (hm : Sub 4190176 fm := by exact Sub.of (by assumption) (by decide)) {o up} : Keeps fm r (State.finishSpill s o up) := by
  unfold State.finishSpill
  dsimp only
  split
  · exact Keeps.kick (Keeps.endOp (Keeps.spillFault (Keeps.returnPermit (Keeps.fst (Keeps.readRows h)))))
  · exact Keeps.beginRestore (Keeps.regMax (Keeps.bump (Keeps.bump (Keeps.modCtx (Keeps.setCtxState (Keeps.zeroRowsOf (Keeps.fst (Keeps.writeMem (Keeps.returnPermit (Keeps.fst (Keeps.readRows h)))))))))))

theorem Keeps.execSpillComplete {fm : Nat} {r s : State} (h : Keeps fm r s)
    (hm : Sub 4190180 fm := by exact Sub.of (by assumption) (by decide)) {x up} :
    KeepsX fm r (execSpillComplete x up s) := by
  unfold Sys2Proof.Machine.execSpillComplete
  dsimp only
  refine Keeps.next ?_
  split
  · split
    · exact h
    · exact Keeps.settleOps (Keeps.finishSpill h)
  · exact h

theorem Keeps.execRestoreComplete {fm : Nat} {r s : State} (h : Keeps fm r s)
    (hm : Sub 4190180 fm := by exact Sub.of (by assumption) (by decide)) {x ue} :
    KeepsX fm r (execRestoreComplete x ue s) := by
  unfold Sys2Proof.Machine.execRestoreComplete
  dsimp only
  refine Keeps.next ?_
  split
  · split
    · exact h
    · exact Keeps.whenFetched h (fun _ h0 => Keeps.settleOps (Keeps.finishRestore h0))
  · exact h

theorem Keeps.execSyncPoint {fm : Nat} {r s : State} (h : Keeps fm r s)
    (hm : Sub 4190180 fm := by exact Sub.of (by assumption) (by decide)) {p} : KeepsX fm r (execSyncPoint p s) := by
  unfold Sys2Proof.Machine.execSyncPoint
  exact Keeps.next (Keeps.settleOps (Keeps.syncPoint h))

theorem Keeps.execSegmentEnd {fm : Nat} {r s : State} (h : Keeps fm r s)
    (hm : Sub 4190180 fm := by exact Sub.of (by assumption) (by decide)) {p} : KeepsX fm r (execSegmentEnd p s) := by
  unfold Sys2Proof.Machine.execSegmentEnd
  exact Keeps.next (Keeps.settleOps (Keeps.segmentEnd h))

theorem Keeps.blockedEvent {fm : Nat} {r s : State} (h : Keeps fm r s)
    (hm : Sub 3670464 fm := by exact Sub.of (by assumption) (by decide)) {p x us part inj} :
    Keeps fm r (State.blockedEvent s p x us part inj) := by
  unfold State.blockedEvent
  exact Keeps.raise h

theorem Keeps.execAllBlocked {fm : Nat} {r s : State} (h : Keeps fm r s)
    (hm : Sub 3670976 fm := by exact Sub.of (by assumption) (by decide)) {p} : KeepsX fm r (execAllBlocked p s) := by
  unfold Sys2Proof.Machine.execAllBlocked
  dsimp only
  refine Keeps.next ?_
  split
  · exact h
  · split
    · exact h
    · exact Keeps.blockedEvent (Keeps.modCsq (Keeps.bump h))

end Sys2Proof.Machine
end

