-- ==== Sys2Proof/Laws/Keeps/Jobs.lean ====
section
/-! SUPPORT. What the operations of Machine/Jobs.lean keep. -/

set_option Elab.async false

namespace Sys2Proof.Machine

theorem Keeps.queueInv {fm : Nat} {r s : State} (h : Keeps fm r s)
    (hm : Sub 1536 fm := by exact Sub.of (by assumption) (by decide)) {j x} : Keeps fm r (State.queueInv s j x) := by
  unfold State.queueInv
  dsimp only
  split
  · exact Keeps.restCtx (Keeps.modCtx h)
  · exact Keeps.modCtx h

theorem Keeps.pinsToJob {fm : Nat} {r s : State} (h : Keeps fm r s)
    (hm : Sub 32768 fm := by exact Sub.of (by assumption) (by decide)) {f q j} : Keeps fm r (State.pinsToJob s f q j) := by
  unfold State.pinsToJob
  exact Keeps.update h

theorem Keeps.startJob {fm : Nat} {r s : State} (h : Keeps fm r s)
    (hm : Sub 671328 fm := by exact Sub.of (by assumption) (by decide)) {b} : Keeps fm r (State.startJob s b) := by
  unfold State.startJob
  exact Keeps.announce (Keeps.foldl (Keeps.foldl (Keeps.update h) _ (fun _ _ h0 => Keeps.queueInv h0)) _ (fun _ _ h0 => Keeps.kick h0))

theorem Keeps.takeJob {fm : Nat} {r s : State} (h : Keeps fm r s)
    (hm : Sub 769636 fm := by exact Sub.of (by assumption) (by decide)) {f q h' ds} :
    Keeps fm r (State.takeJob s f q h' ds) := by
  unfold State.takeJob
  dsimp only
  split
  · exact h
  · split
    · exact Keeps.complete h
    · split
      · exact Keeps.produce (Keeps.releasePins (Keeps.pinsToJob (Keeps.update h)))
      · split
        · exact Keeps.produce (Keeps.releasePins (Keeps.pinsToJob h))
        · exact Keeps.startJob (Keeps.pinsToJob h)

theorem Keeps.execJob {fm : Nat} {r s : State} (h : Keeps fm r s)
    (hm : Sub 769636 fm := by exact Sub.of (by assumption) (by decide)) {f q} : KeepsX fm r (execJob f q s) := by
  unfold Sys2Proof.Machine.execJob
  dsimp only
  split
  · exact Keeps.next (Keeps.settle h)
  · split
    · exact Keeps.next (Keeps.settle h)
    · split
      · split
        · exact Keeps.next (Keeps.ofPair (by assumption) (Keeps.take (Keeps.settle h)))
        · exact Keeps.next (Keeps.settle (Keeps.freeEnd (Keeps.ofPair (by assumption) (Keeps.take (Keeps.settle h)))))
      · exact Keeps.next (Keeps.settle h)
      · split
        · exact Keeps.next (Keeps.ofPair (by assumption) (Keeps.take (Keeps.settle h)))
        · exact Keeps.next (Keeps.settle (Keeps.takeJob (Keeps.setQp (Keeps.setPair (Keeps.ofPair (by assumption) (Keeps.take (Keeps.settle h)))))))

theorem Keeps.putArg {fm : Nat} {r s : State} (h : Keeps fm r s)
    (hm : Sub 512 fm := by exact Sub.of (by assumption) (by decide)) {x r' bs} : Keeps fm r (State.putArg s x r' bs) := by
  unfold State.putArg
  exact Keeps.useBank (Keeps.modCore h)

theorem Keeps.loadArgs {fm : Nat} {r s : State} (h : Keeps fm r s)
    (hm : Sub 3818436 fm := by exact Sub.of (by assumption) (by decide)) {x part a base k ue a'} :
    KeepsP fm r (State.loadArgs s x part a base k ue a') := by
  induction a' generalizing s x part a base k ue with
  | zero =>
    unfold State.loadArgs
    exact Keeps.pair h
  | succ m ih =>
    unfold State.loadArgs
    dsimp only
    split
    · exact Keeps.pair (Keeps.fst (Keeps.readMem h))
    · exact ih (Keeps.putArg (Keeps.fst (Keeps.readMem h)))

theorem Keeps.argsDone {fm : Nat} {r s : State} (h : Keeps fm r s)
    (hm : Sub 2560 fm := by exact Sub.of (by assumption) (by decide)) {j x} : Keeps fm r (State.argsDone s j x) := by
  unfold State.argsDone
  exact Keeps.modCsq (Keeps.modJob h)

theorem Keeps.execArgumentLoad {fm : Nat} {r s : State} (h : Keeps fm r s)
    (hm : Sub 4190180 fm := by exact Sub.of (by assumption) (by decide)) {p ue} : KeepsX fm r (execArgumentLoad p ue s) := by
  unfold Sys2Proof.Machine.execArgumentLoad
  dsimp only
  split
  · exact Keeps.next h
  · split
    · exact Keeps.next (Keeps.argsDone (Keeps.unruly h))
    · split
      · exact Keeps.next (Keeps.settleOps (Keeps.abortJob (Keeps.unmapped h)))
      · split
        · exact Keeps.next (Keeps.foldl h _ (fun _ _ h0 => Keeps.send h0))
        · split
          · exact Keeps.next (Keeps.argsDone (Keeps.ofPair (by assumption) (Keeps.loadArgs h)))
          · exact Keeps.next (Keeps.settleOps (Keeps.abortJob (Keeps.ofPair (by assumption) (Keeps.loadArgs h))))

theorem Keeps.storeRow {fm : Nat} {r s : State} (h : Keeps fm r s)
    (hm : Sub 3821508 fm := by exact Sub.of (by assumption) (by decide)) {j x i k up} :
    Keeps fm r (State.storeRow s j x i k up) := by
  unfold State.storeRow
  dsimp only
  split
  · split
    · split
      · split
        · exact Keeps.modJob (Keeps.unmapped (Keeps.update (Keeps.modJob (Keeps.fst (Keeps.readRows (Keeps.markTagFault h))))))
        · split
          · exact Keeps.send (Keeps.charge (Keeps.update (Keeps.modJob (Keeps.fst (Keeps.readRows (Keeps.markTagFault h))))))
          · exact Keeps.fst (Keeps.writeMem (Keeps.noteLink (Keeps.update (Keeps.modJob (Keeps.fst (Keeps.readRows (Keeps.markTagFault h)))))))
      · split
        · exact Keeps.modJob (Keeps.unmapped (Keeps.update (Keeps.fst (Keeps.readRows (Keeps.markTagFault h)))))
        · split
          · exact Keeps.send (Keeps.charge (Keeps.update (Keeps.fst (Keeps.readRows (Keeps.markTagFault h)))))
          · exact Keeps.fst (Keeps.writeMem (Keeps.noteLink (Keeps.update (Keeps.fst (Keeps.readRows (Keeps.markTagFault h))))))
    · split
      · split
        · exact Keeps.modJob (Keeps.unmapped (Keeps.update (Keeps.modJob (Keeps.fst (Keeps.readRows h)))))
        · split
          · exact Keeps.send (Keeps.charge (Keeps.update (Keeps.modJob (Keeps.fst (Keeps.readRows h)))))
          · exact Keeps.fst (Keeps.writeMem (Keeps.noteLink (Keeps.update (Keeps.modJob (Keeps.fst (Keeps.readRows h))))))
      · split
        · exact Keeps.modJob (Keeps.unmapped (Keeps.update (Keeps.fst (Keeps.readRows h))))
        · split
          · exact Keeps.send (Keeps.charge (Keeps.update (Keeps.fst (Keeps.readRows h))))
          · exact Keeps.fst (Keeps.writeMem (Keeps.noteLink (Keeps.update (Keeps.fst (Keeps.readRows h)))))
  · split
    · split
      · split
        · exact Keeps.modJob (Keeps.unmapped (Keeps.modJob (Keeps.fst (Keeps.readRows (Keeps.markTagFault h)))))
        · split
          · exact Keeps.send (Keeps.charge (Keeps.modJob (Keeps.fst (Keeps.readRows (Keeps.markTagFault h)))))
          · exact Keeps.fst (Keeps.writeMem (Keeps.noteLink (Keeps.modJob (Keeps.fst (Keeps.readRows (Keeps.markTagFault h))))))
      · split
        · exact Keeps.modJob (Keeps.unmapped (Keeps.fst (Keeps.readRows (Keeps.markTagFault h))))
        · split
          · exact Keeps.send (Keeps.charge (Keeps.fst (Keeps.readRows (Keeps.markTagFault h))))
          · exact Keeps.fst (Keeps.writeMem (Keeps.noteLink (Keeps.fst (Keeps.readRows (Keeps.markTagFault h)))))
    · split
      · split
        · exact Keeps.modJob (Keeps.unmapped (Keeps.modJob (Keeps.fst (Keeps.readRows h))))
        · split
          · exact Keeps.send (Keeps.charge (Keeps.modJob (Keeps.fst (Keeps.readRows h))))
          · exact Keeps.fst (Keeps.writeMem (Keeps.noteLink (Keeps.modJob (Keeps.fst (Keeps.readRows h)))))
      · split
        · exact Keeps.modJob (Keeps.unmapped (Keeps.fst (Keeps.readRows h)))
        · split
          · exact Keeps.send (Keeps.charge (Keeps.fst (Keeps.readRows h)))
          · exact Keeps.fst (Keeps.writeMem (Keeps.noteLink (Keeps.fst (Keeps.readRows h))))

theorem Keeps.storeInv {fm : Nat} {r s : State} (h : Keeps fm r s)
    (hm : Sub 3821508 fm := by exact Sub.of (by assumption) (by decide)) {j i up} :
    Keeps fm r (State.storeInv s j i up) := by
  unfold State.storeInv
  exact Keeps.foldl h _ (fun _ _ h0 => Keeps.storeRow h0)

theorem Keeps.execResultStore {fm : Nat} {r s : State} (h : Keeps fm r s)
    (hm : Sub 3829732 fm := by exact Sub.of (by assumption) (by decide)) {j up} : KeepsX fm r (execResultStore j up s) := by
  unfold Sys2Proof.Machine.execResultStore
  dsimp only
  split
  · exact Keeps.next h
  · split
    · exact Keeps.next h
    · exact Keeps.next (Keeps.settleOps (Keeps.tryFinish (Keeps.modJob (Keeps.foldl h _ (fun _ _ h0 => Keeps.storeInv h0)))))

theorem Keeps.execJobAbort {fm : Nat} {r s : State} (h : Keeps fm r s)
    (hm : Sub 4190180 fm := by exact Sub.of (by assumption) (by decide)) {f q} : KeepsX fm r (execJobAbort f q s) := by
  unfold Sys2Proof.Machine.execJobAbort
  dsimp only
  refine Keeps.next ?_
  split
  · exact Keeps.ofPair (by assumption) (Keeps.take h)
  · split
    · exact Keeps.settleOps (Keeps.complete (Keeps.abortJob (Keeps.ofPair (by assumption) (Keeps.take h))))
    · refine Keeps.complete ?_
      split
      · exact Keeps.bump (Keeps.ofPair (by assumption) (Keeps.take h))
      · exact Keeps.ofPair (by assumption) (Keeps.take h)

theorem Keeps.askJobApplies {fm : Nat} {r s : State} (h : Keeps fm r s)
    (hm : Sub 34816 fm := by exact Sub.of (by assumption) (by decide)) {j} : Keeps fm r (State.askJobApplies s j) := by
  unfold State.askJobApplies
  exact Keeps.modJob (Keeps.foldl h _ (fun _ _ h0 => Keeps.askApplies h0))

theorem Keeps.prepareJob {fm : Nat} {r s : State} (h : Keeps fm r s)
    (hm : Sub 32832 fm := by exact Sub.of (by assumption) (by decide)) {j} : Keeps fm r (State.prepareJob s j) := by
  unfold State.prepareJob
  refine Keeps.foldl h _ ?_
  intro x0 a0 h0
  split
  · exact Keeps.bump (Keeps.modGroup h0)
  · exact h0

theorem Keeps.decideJob {fm : Nat} {r s : State} (h : Keeps fm r s)
    (hm : Sub 1044448 fm := by exact Sub.of (by assumption) (by decide)) {j} : Keeps fm r (State.decideJob s j) := by
  unfold State.decideJob
  dsimp only
  split
  · exact h
  · split
    · exact Keeps.abortJob h
    · refine Keeps.latchJob ?_
      split
      · split
        · exact Keeps.passTurn h
        · exact h
      · exact h

theorem Keeps.finalCommit {fm : Nat} {r s : State} (h : Keeps fm r s)
    (hm : Sub 1044448 fm := by exact Sub.of (by assumption) (by decide)) {j} : Keeps fm r (State.finalCommit s j) := by
  unfold State.finalCommit
  dsimp only
  split
  · exact h
  · split
    · exact h
    · split
      · split
        · exact h
        · split
          · exact Keeps.abortJob h
          · exact Keeps.decideJob (Keeps.prepareJob h)
      · split
        · exact Keeps.askJobApplies h
        · split
          · exact Keeps.abortJob (Keeps.askJobApplies h)
          · exact Keeps.decideJob (Keeps.prepareJob (Keeps.askJobApplies h))

theorem Keeps.execJobFinalCommit {fm : Nat} {r s : State} (h : Keeps fm r s)
    (hm : Sub 4190180 fm := by exact Sub.of (by assumption) (by decide)) {j} : KeepsX fm r (execJobFinalCommit j s) := by
  unfold Sys2Proof.Machine.execJobFinalCommit
  exact Keeps.next (Keeps.settleOps (Keeps.watchTurn (Keeps.finalCommit (Keeps.watchTurn h))))

end Sys2Proof.Machine
end

