-- ==== Sys2Proof/Laws/Keeps/Chunks.lean ====
section
/-! SUPPORT. What the operations of Machine/Chunks.lean keep. -/

set_option Elab.async false

namespace Sys2Proof.Machine

theorem Keeps.modIntake {fm : Nat} {r s : State} (h : Keeps fm r s)
    (hm : Sub 262144 fm := by exact Sub.of (by assumption) (by decide)) {n f} : Keeps fm r (State.modIntake s n f) := by
  unfold State.modIntake
  exact Keeps.update h

theorem Keeps.writeIntake {fm : Nat} {r s : State} (h : Keeps fm r s)
    (hm : Sub 410048 fm := by exact Sub.of (by assumption) (by decide)) {n} : Keeps fm r (State.writeIntake s n) := by
  unfold State.writeIntake
  dsimp only
  exact Keeps.fst (Keeps.writeMem (Keeps.modIntake h))

theorem Keeps.queueChunk {fm : Nat} {r s : State} (h : Keeps fm r s)
    (hm : Sub 262208 fm := by exact Sub.of (by assumption) (by decide)) {n ready resets inc first idle slots frames host} :
    Keeps fm r (State.queueChunk s n ready resets inc first idle slots frames host) := by
  unfold State.queueChunk
  dsimp only
  refine Keeps.update ?_
  split
  · exact Keeps.consume h
  · exact h

theorem Keeps.cutChunk {fm : Nat} {r s : State} (h : Keeps fm r s)
    (hm : Sub 262208 fm := by exact Sub.of (by assumption) (by decide)) {n} : Keeps fm r (State.cutChunk s n) := by
  unfold State.cutChunk
  dsimp only
  split
  · split
    · exact h
    · exact Keeps.modRing (Keeps.queueChunk h)
  · split
    · exact h
    · exact Keeps.modRing (Keeps.queueChunk h)

theorem Keeps.pushFrames {fm : Nat} {r s : State} (h : Keeps fm r s)
    (hm : Sub 278624 fm := by exact Sub.of (by assumption) (by decide)) : Keeps fm r (State.pushFrames s) := by
  unfold State.pushFrames
  dsimp only
  refine Keeps.update (Keeps.fst (Keeps.foldlP (Keeps.pair h) _ ?_))
  intro x0 a0 h0
  split
  · exact Keeps.pair (Keeps.fst h0)
  · exact Keeps.pair (Keeps.xWrite (Keeps.fst h0))

theorem Keeps.execFeatureFrame {fm : Nat} {r s : State} (h : Keeps fm r s)
    (hm : Sub 410080 fm := by exact Sub.of (by assumption) (by decide)) {n} :
    KeepsX fm r (Sys2Proof.Machine.execFeatureFrame n s) := by
  unfold Sys2Proof.Machine.execFeatureFrame
  dsimp only
  refine Keeps.next ?_
  split
  · exact Keeps.pushFrames h
  · split
    · exact Keeps.pushFrames h
    · split
      · exact Keeps.pushFrames (Keeps.bump (Keeps.bump (Keeps.modEntry (Keeps.modRing (Keeps.fst (Keeps.xReadAll h))))))
      · exact Keeps.pushFrames (Keeps.cutChunk (Keeps.modRing (Keeps.fst (Keeps.writeMem (Keeps.modRing (Keeps.fst (Keeps.xReadAll h)))))))

theorem Keeps.execChunkDescriptor {fm : Nat} {r s : State} (h : Keeps fm r s)
    (hm : Sub 786500 fm := by exact Sub.of (by assumption) (by decide)) {f q} : KeepsX fm r (execChunkDescriptor f q s) := by
  unfold Sys2Proof.Machine.execChunkDescriptor
  dsimp only
  split
  · exact Keeps.next (Keeps.ofPair (by assumption) (Keeps.take h))
  · split
    · exact Keeps.next (Keeps.freeEnd (Keeps.bump (Keeps.ofPair (by assumption) (Keeps.take h))))
    · split
      · exact Keeps.next (Keeps.complete (Keeps.bump (Keeps.ofPair (by assumption) (Keeps.take h))))
      · exact Keeps.next (Keeps.queueChunk (Keeps.ofPair (by assumption) (Keeps.take h)))

theorem Keeps.streamGroup {fm : Nat} {r s : State} (h : Keeps fm r s)
    (hm : Sub 1034208 fm := by exact Sub.of (by assumption) (by decide)) {f q h' d l} :
    Keeps fm r (State.streamGroup s f q h' d l) := by
  unfold State.streamGroup
  exact Keeps.decideGroup (Keeps.addItem (Keeps.fst (Keeps.beginGroup h)))

theorem Keeps.createStream {fm : Nat} {r s : State} (h : Keeps fm r s)
    (hm : Sub 1034208 fm := by exact Sub.of (by assumption) (by decide)) {f q h' d} :
    Keeps fm r (State.createStream s f q h' d) := by
  unfold State.createStream
  dsimp only
  refine Keeps.streamGroup ?_
  split
  · exact Keeps.modIntake (Keeps.modRing h)
  · exact Keeps.fst (Keeps.writeMem (Keeps.modIntake (Keeps.modRing h)))

theorem Keeps.resetStream {fm : Nat} {r s : State} (h : Keeps fm r s)
    (hm : Sub 1034208 fm := by exact Sub.of (by assumption) (by decide)) {f q h' d} :
    Keeps fm r (State.resetStream s f q h' d) := by
  unfold State.resetStream
  dsimp only
  split
  · split
    · exact Keeps.streamGroup h
    · exact Keeps.complete h
  · split
    · exact Keeps.streamGroup h
    · exact Keeps.complete h

theorem Keeps.stateMsgs {fm : Nat} {r s : State} (h : Keeps fm r s)
    (hm : Sub 131136 fm := by exact Sub.of (by assumption) (by decide)) {n kind mod a rows data} :
    Keeps fm r (State.stateMsgs s n kind mod a rows data) := by
  unfold State.stateMsgs
  dsimp only
  refine Keeps.foldl h _ ?_
  intro x0 a0 h0
  split
  · exact Keeps.send h0
  · exact Keeps.send (Keeps.charge h0)

theorem Keeps.readState {fm : Nat} {r s : State} (h : Keeps fm r s)
    (hm : Sub 3817924 fm := by exact Sub.of (by assumption) (by decide)) {part a n ue} :
    KeepsP fm r (State.readState s part a n ue) := by
  unfold State.readState
  dsimp only
  exact Keeps.pair (Keeps.fst (Keeps.readMem h))

theorem Keeps.writeState {fm : Nat} {r s : State} (h : Keeps fm r s)
    (hm : Sub 147904 fm := by exact Sub.of (by assumption) (by decide)) {n kind part a bs} :
    KeepsP fm r (State.writeState s n kind part a bs) := by
  unfold State.writeState
  split
  · exact Keeps.pair (Keeps.unmapped h)
  · split
    · exact Keeps.pair (Keeps.stateMsgs h)
    · exact Keeps.writeMem h

theorem Keeps.beginMove {fm : Nat} {r s : State} (h : Keeps fm r s)
    (hm : Sub 917572 fm := by exact Sub.of (by assumption) (by decide)) {f q h' d} :
    Keeps fm r (State.beginMove s f q h' d) := by
  unfold State.beginMove
  dsimp only
  split
  · split
    · exact Keeps.freeEnd h
    · split
      · split
        · exact Keeps.stateMsgs (Keeps.setBusy (Keeps.update h))
        · exact Keeps.unmapped (Keeps.setBusy (Keeps.update h))
      · exact Keeps.setBusy (Keeps.update h)
  · split
    · exact Keeps.freeEnd h
    · split
      · split
        · exact Keeps.stateMsgs (Keeps.setBusy (Keeps.update h))
        · exact Keeps.unmapped (Keeps.setBusy (Keeps.update h))
      · exact Keeps.setBusy (Keeps.update h)

theorem Keeps.clearStream {fm : Nat} {r s : State} (h : Keeps fm r s)
    (hm : Sub 786496 fm := by exact Sub.of (by assumption) (by decide)) {n cause} :
    Keeps fm r (State.clearStream s n cause) := by
  unfold State.clearStream
  exact Keeps.modIntake (Keeps.modRing (Keeps.foldl h _ (fun _ _ h0 => Keeps.discardChunk h0)))

theorem Keeps.resumeStream {fm : Nat} {r s : State} (h : Keeps fm r s)
    (hm : Sub 1034212 fm := by exact Sub.of (by assumption) (by decide)) {f q h' d} :
    Keeps fm r (State.resumeStream s f q h' d) := by
  unfold State.resumeStream
  dsimp only
  refine Keeps.streamGroup ?_
  split
  · split
    · split
      · exact Keeps.modChunk (Keeps.update h)
      · exact Keeps.discardChunk (Keeps.update h)
    · split
      · exact Keeps.modChunk h
      · exact Keeps.discardChunk h
  · split
    · exact Keeps.update h
    · exact h

theorem Keeps.streamRun {fm : Nat} {r s : State} (h : Keeps fm r s)
    (hm : Sub 1034212 fm := by exact Sub.of (by assumption) (by decide)) {f q y4 d} :
    Keeps fm r (Sys2Proof.Machine.State.streamRun s f q y4 d) := by
  unfold Sys2Proof.Machine.State.streamRun
  dsimp only
  split
  · split
    · exact Keeps.complete h
    · split
      · exact Keeps.createStream h
      · split
        · exact Keeps.createStream (Keeps.update h)
        · exact Keeps.freeEnd (Keeps.update h)
  · split
    · exact Keeps.freeEnd h
    · split
      · exact Keeps.complete h
      · split
        · exact Keeps.resetStream h
        · exact Keeps.beginMove h
        · exact Keeps.streamGroup h
        · split
          · exact Keeps.complete h
          · exact Keeps.resumeStream h
        · exact Keeps.streamGroup (Keeps.clearStream h)

theorem Keeps.streamCommand {fm : Nat} {r s : State} (h : Keeps fm r s)
    (hm : Sub 1034212 fm := by exact Sub.of (by assumption) (by decide)) {f q op} :
    KeepsX fm r (State.streamCommand s f q op) := by
  unfold State.streamCommand
  dsimp only
  split
  · exact Keeps.next (Keeps.ofPair (by assumption) (Keeps.take h))
  · split
    · exact Keeps.next (Keeps.complete (Keeps.ofPair (by assumption) (Keeps.take h)))
    · split
      · exact Keeps.next (Keeps.update (Keeps.ofPair (by assumption) (Keeps.take h)))
      · exact Keeps.next (Keeps.streamRun (Keeps.ofPair (by assumption) (Keeps.take h)))

theorem Keeps.execStreamCreate {fm : Nat} {r s : State} (h : Keeps fm r s)
    (hm : Sub 1034212 fm := by exact Sub.of (by assumption) (by decide)) {f q} : KeepsX fm r (execStreamCreate f q s) := by
  unfold Sys2Proof.Machine.execStreamCreate
  exact Keeps.streamCommand h

theorem Keeps.execStreamReset {fm : Nat} {r s : State} (h : Keeps fm r s)
    (hm : Sub 1034212 fm := by exact Sub.of (by assumption) (by decide)) {f q} : KeepsX fm r (execStreamReset f q s) := by
  unfold Sys2Proof.Machine.execStreamReset
  exact Keeps.streamCommand h

theorem Keeps.execMove {fm : Nat} {r s : State} (h : Keeps fm r s)
    (hm : Sub 1034212 fm := by exact Sub.of (by assumption) (by decide)) {f q} : KeepsX fm r (execMove f q s) := by
  unfold Sys2Proof.Machine.execMove
  exact Keeps.streamCommand h

theorem Keeps.execStSet {fm : Nat} {r s : State} (h : Keeps fm r s)
    (hm : Sub 1034212 fm := by exact Sub.of (by assumption) (by decide)) {f q} : KeepsX fm r (execStSet f q s) := by
  unfold Sys2Proof.Machine.execStSet
  exact Keeps.streamCommand h

theorem Keeps.execResume {fm : Nat} {r s : State} (h : Keeps fm r s)
    (hm : Sub 1034212 fm := by exact Sub.of (by assumption) (by decide)) {f q} : KeepsX fm r (execResume f q s) := by
  unfold Sys2Proof.Machine.execResume
  exact Keeps.streamCommand h

theorem Keeps.execDelete {fm : Nat} {r s : State} (h : Keeps fm r s)
    (hm : Sub 1034212 fm := by exact Sub.of (by assumption) (by decide)) {f q} : KeepsX fm r (execDelete f q s) := by
  unfold Sys2Proof.Machine.execDelete
  exact Keeps.streamCommand h

theorem Keeps.execStreamCommandResume {fm : Nat} {r s : State} (h : Keeps fm r s)
    (hm : Sub 1034212 fm := by exact Sub.of (by assumption) (by decide)) {n} :
    KeepsX fm r (execStreamCommandResume n s) := by
  unfold Sys2Proof.Machine.execStreamCommandResume
  dsimp only
  split
  · exact Keeps.next h
  · split
    · exact Keeps.next h
    · exact Keeps.next (Keeps.streamRun (Keeps.update h))

theorem Keeps.copyState {fm : Nat} {r s : State} (h : Keeps fm r s)
    (hm : Sub 3817924 fm := by exact Sub.of (by assumption) (by decide)) {m ue} : KeepsP fm r (State.copyState s m ue) := by
  unfold State.copyState
  dsimp only
  split
  · exact Keeps.pair h
  · split
    · exact Keeps.pair (Keeps.ofPair (by assumption) (Keeps.readState h))
    · exact Keeps.writeState (Keeps.ofPair (by assumption) (Keeps.readState h))

theorem Keeps.endMove {fm : Nat} {r s : State} (h : Keeps fm r s)
    (hm : Sub 1034208 fm := by exact Sub.of (by assumption) (by decide)) {m ok} : Keeps fm r (State.endMove s m ok) := by
  unfold State.endMove
  dsimp only
  split
  · exact Keeps.complete (Keeps.setBusy (Keeps.update h))
  · exact Keeps.streamGroup (Keeps.update h)

theorem Keeps.execMoveCopyComplete {fm : Nat} {r s : State} (h : Keeps fm r s)
    (hm : Sub 4179940 fm := by exact Sub.of (by assumption) (by decide)) {n ue} :
    KeepsX fm r (execMoveCopyComplete n ue s) := by
  unfold Sys2Proof.Machine.execMoveCopyComplete
  dsimp only
  refine Keeps.next ?_
  split
  · exact h
  · split
    · exact h
    · split
      · exact Keeps.endMove h
      · split
        · split
          · exact Keeps.endMove h
          · refine Keeps.whenFetched h ?_
            intro x0 h0
            split
            · exact Keeps.endMove (Keeps.ofPair (by assumption) (Keeps.copyState h0))
            · split
              · exact Keeps.update (Keeps.ofPair (by assumption) (Keeps.copyState h0))
              · exact Keeps.endMove (Keeps.ofPair (by assumption) (Keeps.copyState h0))
        · split
          · exact Keeps.endMove h
          · refine Keeps.whenFetched h ?_
            intro x0 h0
            split
            · exact Keeps.endMove (Keeps.ofPair (by assumption) (Keeps.copyState h0))
            · split
              · exact Keeps.update (Keeps.ofPair (by assumption) (Keeps.copyState h0))
              · exact Keeps.endMove (Keeps.ofPair (by assumption) (Keeps.copyState h0))

end Sys2Proof.Machine
end

