-- ==== Sys2Proof/Laws/Keeps/Intake.lean ====
section
/-! SUPPORT. What the operations of Machine/Intake.lean keep. -/

set_option Elab.async false

namespace Sys2Proof.Machine

theorem Keeps.intakeRead {fm : Nat} {r s : State} (h : Keeps fm r s)
    (hm : Sub 3817924 fm := by exact Sub.of (by assumption) (by decide)) {part a n ue} :
    KeepsP fm r (State.intakeRead s part a n ue) := by
  unfold State.intakeRead
  dsimp only
  split
  · exact Keeps.pair (Keeps.fst (Keeps.readMem h))
  · exact Keeps.pair (Keeps.update (Keeps.fst (Keeps.readMem h)))

theorem Keeps.intakeWrite {fm : Nat} {r s : State} (h : Keeps fm r s)
    (hm : Sub 147904 fm := by exact Sub.of (by assumption) (by decide)) {part a bs} :
    Keeps fm r (State.intakeWrite s part a bs) := by
  unfold State.intakeWrite
  exact Keeps.fst (Keeps.writeMem h)

theorem Keeps.clearSlots {fm : Nat} {r s : State} (h : Keeps fm r s)
    (hm : Sub 147904 fm := by exact Sub.of (by assumption) (by decide)) {part c pos n} :
    Keeps fm r (State.clearSlots s part c pos n) := by
  unfold State.clearSlots
  exact Keeps.foldl h _ (fun _ _ h0 => Keeps.foldl h0 _ (fun _ _ h1 => Keeps.intakeWrite h1))

theorem Keeps.execIngressTailWrite {fm : Nat} {r s : State} (h : Keeps fm r s)
    (hm : Sub 262404 fm := by exact Sub.of (by assumption) (by decide)) {part die v cells} :
    KeepsX fm r (execIngressTailWrite part die v cells s) := by
  unfold Sys2Proof.Machine.execIngressTailWrite
  dsimp only
  split
  · exact Keeps.next (Keeps.update (Keeps.updateMem h (fun x => Memory.wf_hostStores x _)))
  · exact Keeps.next (Keeps.update (Keeps.updateMem h (fun x => Memory.wf_hostStores x _)))

theorem Keeps.execEgressHeadWrite {fm : Nat} {r s : State} (h : Keeps fm r s)
    (hm : Sub 262144 fm := by exact Sub.of (by assumption) (by decide)) {part die v} :
    KeepsX fm r (execEgressHeadWrite part die v s) := by
  unfold Sys2Proof.Machine.execEgressHeadWrite
  exact Keeps.next (Keeps.update h)

theorem Keeps.putSamples {fm : Nat} {r s : State} (h : Keeps fm r s)
    (hm : Sub 147904 fm := by exact Sub.of (by assumption) (by decide)) {part x q n bs} :
    KeepsP fm r (State.putSamples s part x q n bs) := by
  unfold State.putSamples
  dsimp only
  refine Keeps.foldlP (Keeps.pair h) _ ?_
  intro x0 a0 h0
  split
  · exact h0
  · split
    · exact Keeps.pair (Keeps.fst h0)
    · exact Keeps.foldlP h0 _ (fun _ _ h1 => Keeps.pair (Keeps.intakeWrite (Keeps.fst h1)))

theorem Keeps.takePacket {fm : Nat} {r s : State} (h : Keeps fm r s)
    (hm : Sub 4080068 fm := by exact Sub.of (by assumption) (by decide)) {part n e ue} :
    Keeps fm r (Sys2Proof.Machine.State.takePacket s part n e ue) := by
  unfold Sys2Proof.Machine.State.takePacket
  dsimp only
  split
  · split
    · exact Keeps.bump (Keeps.modIntake (Keeps.bump h))
    · exact Keeps.modIntake (Keeps.bump (Keeps.bump (Keeps.fst (Keeps.putSamples (Keeps.fst (Keeps.intakeRead (Keeps.bump h)))))))
  · split
    · exact Keeps.bump (Keeps.modIntake (Keeps.bump (Keeps.modIntake (Keeps.update (Keeps.fst (Keeps.readMem h))))))
    · exact Keeps.modIntake (Keeps.bump (Keeps.bump (Keeps.fst (Keeps.putSamples (Keeps.fst (Keeps.intakeRead (Keeps.bump (Keeps.modIntake (Keeps.update (Keeps.fst (Keeps.readMem h)))))))))))

theorem Keeps.execIngressEntry {fm : Nat} {r s : State} (h : Keeps fm r s)
    (hm : Sub 4080068 fm := by exact Sub.of (by assumption) (by decide)) {part die ue} :
    KeepsX fm r (execIngressEntry part die ue s) := by
  unfold Sys2Proof.Machine.execIngressEntry
  dsimp only
  split
  · exact Keeps.next h
  · refine Keeps.next (Keeps.whenFetched h ?_)
    intro x0 h0
    split
    · exact Keeps.bump (Keeps.setReg (Keeps.fst (Keeps.intakeRead h0)))
    · exact Keeps.takePacket (Keeps.setReg (Keeps.fst (Keeps.intakeRead h0)))

theorem Keeps.takeSamples {fm : Nat} {r s : State} (h : Keeps fm r s)
    (hm : Sub 3817924 fm := by exact Sub.of (by assumption) (by decide)) {part x k pos n ue} :
    KeepsP fm r (State.takeSamples s part x k pos n ue) := by
  unfold State.takeSamples
  dsimp only
  refine Keeps.foldlP (Keeps.pair h) _ ?_
  intro x0 a0 h0
  split
  · split
    · exact Keeps.pair (Keeps.intakeWrite (Keeps.fst (Keeps.intakeRead (Keeps.fst h0))))
    · split
      · exact Keeps.pair (Keeps.intakeWrite (Keeps.fst (Keeps.intakeRead (Keeps.fst h0))))
      · exact Keeps.pair (Keeps.intakeWrite (Keeps.fst (Keeps.intakeRead (Keeps.fst h0))))
  · split
    · exact Keeps.pair (Keeps.intakeWrite (Keeps.fst (Keeps.intakeRead (Keeps.fst h0))))
    · split
      · exact Keeps.pair (Keeps.intakeWrite (Keeps.fst (Keeps.intakeRead (Keeps.fst h0))))
      · exact Keeps.pair (Keeps.intakeWrite (Keeps.fst (Keeps.intakeRead (Keeps.fst h0))))

theorem Keeps.readFrame {fm : Nat} {r s : State} (h : Keeps fm r s)
    (hm : Sub 3817924 fm := by exact Sub.of (by assumption) (by decide)) {part x m nom ue} :
    KeepsP fm r (State.readFrame s part x m nom ue) := by
  unfold State.readFrame
  dsimp only
  split
  · exact Keeps.pair (Keeps.fst (Keeps.foldlP (Keeps.pair h) _ (fun _ _ h0 => Keeps.pair (Keeps.fst (Keeps.takeSamples (Keeps.fst h0))))))
  · exact Keeps.pair (Keeps.fst (Keeps.foldlP (Keeps.pair h) _ (fun _ _ h0 => Keeps.pair (Keeps.fst (Keeps.takeSamples (Keeps.fst h0))))))

theorem Keeps.slipEvent {fm : Nat} {r s : State} (h : Keeps fm r s)
    (hm : Sub 3670464 fm := by exact Sub.of (by assumption) (by decide)) {n slips inj} :
    Keeps fm r (State.slipEvent s n slips inj) := by
  unfold State.slipEvent
  exact Keeps.raise h

theorem Keeps.countSlip {fm : Nat} {r s : State} (h : Keeps fm r s)
    (hm : Sub 3932608 fm := by exact Sub.of (by assumption) (by decide)) {n slip} :
    Keeps fm r (State.countSlip s n slip) := by
  unfold State.countSlip
  dsimp only
  refine Keeps.modIntake ?_
  split
  · refine Keeps.slipEvent ?_
    split
    · exact h
    · exact Keeps.bump h
  · split
    · exact h
    · exact Keeps.bump h

theorem Keeps.makeFrame {fm : Nat} {r s : State} (h : Keeps fm r s)
    (hm : Sub 4080100 fm := by exact Sub.of (by assumption) (by decide)) {n tick ue} :
    Keeps fm r (Sys2Proof.Machine.State.makeFrame s n tick ue) := by
  unfold Sys2Proof.Machine.State.makeFrame
  extract_lets -merge -useContext +onlyGivenNames v0
  clear_value v0
  extract_lets -merge -useContext +onlyGivenNames v1
  clear_value v1
  extract_lets -merge -useContext +onlyGivenNames v2
  clear_value v2
  extract_lets -merge -useContext +onlyGivenNames v3
  clear_value v3
  extract_lets -merge -useContext +onlyGivenNames v4
  clear_value v4
  extract_lets -merge -useContext +onlyGivenNames v5
  clear_value v5
  extract_lets -merge -useContext +onlyGivenNames v6
  clear_value v6
  extract_lets -merge -useContext +onlyGivenNames v7
  clear_value v7
  split
  · extract_lets -merge -useContext +onlyGivenNames v8
    have k8 : Keeps fm r v8 := by
      dsimp only [v8]
      split
      · exact Keeps.bump h
      · exact h
    clear_value v8
    split
    · extract_lets -merge -useContext +onlyGivenNames v9
      clear_value v9
      extract_lets -merge -useContext +onlyGivenNames v10
      clear_value v10
      extract_lets -merge -useContext +onlyGivenNames v11
      clear_value v11
      extract_lets -merge -useContext +onlyGivenNames v12
      clear_value v12
      extract_lets -merge -useContext +onlyGivenNames v13
      clear_value v13
      extract_lets -merge -useContext +onlyGivenNames v14
      clear_value v14
      extract_lets -merge -useContext +onlyGivenNames v15
      clear_value v15
      extract_lets -merge -useContext +onlyGivenNames v16
      have k16 : Keeps fm r v16 := by
        dsimp only [v16]
        split
        · exact Keeps.update (Keeps.ofPair (by assumption) (Keeps.readFrame k8))
        · exact Keeps.ofPair (by assumption) (Keeps.readFrame k8)
      clear_value v16
      extract_lets -merge -useContext +onlyGivenNames v17
      have k17 : Keeps fm r v17 := Keeps.modIntake (Keeps.bump k16)
      clear_value v17
      extract_lets -merge -useContext +onlyGivenNames v18
      have k18 : Keeps fm r v18 := by
        dsimp only [v18]
        split
        · exact Keeps.countSlip k17
        · exact k17
      clear_value v18
      extract_lets -merge -useContext +onlyGivenNames w19_0
      clear_value w19_0
      extract_lets -merge -useContext +onlyGivenNames v19
      have k19 : Keeps fm r v19 := Keeps.update k18
      clear_value v19
      extract_lets -merge -useContext +onlyGivenNames v20
      have k20 : Keeps fm r v20 := Keeps.pushFrames (Keeps.modRing k19)
      clear_value v20
      split
      · exact Keeps.writeIntake k20
      · exact k20

theorem Keeps.stopIntake {fm : Nat} {r s : State} (h : Keeps fm r s)
    (hm : Sub 410048 fm := by exact Sub.of (by assumption) (by decide)) {n} : Keeps fm r (State.stopIntake s n) := by
  unfold State.stopIntake
  dsimp only
  refine Keeps.writeIntake (Keeps.modIntake ?_)
  split
  · exact Keeps.clearSlots h
  · exact h

theorem Keeps.endLeadOut {fm : Nat} {r s : State} (h : Keeps fm r s)
    (hm : Sub 410048 fm := by exact Sub.of (by assumption) (by decide)) {n} :
    Keeps fm r (Sys2Proof.Machine.State.endLeadOut s n) := by
  unfold Sys2Proof.Machine.State.endLeadOut
  dsimp only
  split
  · exact Keeps.stopIntake h
  · exact h

theorem Keeps.alignIntake {fm : Nat} {r s : State} (h : Keeps fm r s)
    (hm : Sub 262144 fm := by exact Sub.of (by assumption) (by decide)) {n} : Keeps fm r (State.alignIntake s n) := by
  unfold State.alignIntake
  exact Keeps.modIntake h

theorem Keeps.execStreamFrameTick {fm : Nat} {r s : State} (h : Keeps fm r s)
    (hm : Sub 4080100 fm := by exact Sub.of (by assumption) (by decide)) {n} : KeepsX fm r (execStreamFrameTick n s) := by
  unfold Sys2Proof.Machine.execStreamFrameTick
  dsimp only
  split
  · exact Keeps.next h
  · refine Keeps.next (Keeps.whenFetched h ?_)
    intro x0 h0
    split
    · split
      · exact Keeps.slipEvent (Keeps.consume (Keeps.modIntake h0))
      · exact Keeps.modIntake h0
    · split
      · split
        · split
          · exact Keeps.slipEvent (Keeps.consume (Keeps.makeFrame (Keeps.alignIntake (Keeps.modIntake h0))))
          · exact Keeps.makeFrame (Keeps.alignIntake (Keeps.modIntake h0))
        · split
          · exact Keeps.slipEvent (Keeps.consume (Keeps.modIntake h0))
          · exact Keeps.modIntake h0
      · split
        · split
          · exact Keeps.slipEvent (Keeps.consume (Keeps.stopIntake (Keeps.modIntake h0)))
          · exact Keeps.stopIntake (Keeps.modIntake h0)
        · split
          · exact Keeps.slipEvent (Keeps.consume (Keeps.endLeadOut (Keeps.makeFrame (Keeps.modIntake h0))))
          · exact Keeps.endLeadOut (Keeps.makeFrame (Keeps.modIntake h0))

theorem Keeps.execStopTimeout {fm : Nat} {r s : State} (h : Keeps fm r s)
    (hm : Sub 410048 fm := by exact Sub.of (by assumption) (by decide)) {n} : KeepsX fm r (execStopTimeout n s) := by
  unfold Sys2Proof.Machine.execStopTimeout
  dsimp only
  refine Keeps.next ?_
  split
  · exact h
  · exact Keeps.endLeadOut (Keeps.modIntake h)

theorem Keeps.execIntakeStateWriteback {fm : Nat} {r s : State} (h : Keeps fm r s)
    (hm : Sub 410048 fm := by exact Sub.of (by assumption) (by decide)) {n} :
    KeepsX fm r (execIntakeStateWriteback n s) := by
  unfold Sys2Proof.Machine.execIntakeStateWriteback
  refine Keeps.next ?_
  split
  · exact Keeps.writeIntake h
  · exact h

theorem Keeps.egressPiece {fm : Nat} {r s : State} (h : Keeps fm r s)
    (hm : Sub 262144 fm := by exact Sub.of (by assumption) (by decide)) {n c m steps} :
    KeepsP fm r (Sys2Proof.Machine.State.egressPiece s n c m steps) := by
  unfold Sys2Proof.Machine.State.egressPiece
  dsimp only
  exact Keeps.foldlP (Keeps.pair h) _ (fun _ _ h0 => Keeps.pair (Keeps.modIntake (Keeps.fst h0)))

theorem Keeps.egressEntry {fm : Nat} {r s : State} (h : Keeps fm r s)
    (hm : Sub 934340 fm := by exact Sub.of (by assumption) (by decide)) {n fmt chans start stop} :
    Keeps fm r (Sys2Proof.Machine.State.egressEntry s n fmt chans start stop) := by
  unfold Sys2Proof.Machine.State.egressEntry
  dsimp only
  split
  · exact Keeps.bump (Keeps.modIntake (Keeps.update h))
  · split
    · exact Keeps.update (Keeps.setReg (Keeps.intakeWrite (Keeps.intakeWrite (Keeps.modIntake (Keeps.update h)))))
    · exact Keeps.egressTail (Keeps.setReg (Keeps.intakeWrite (Keeps.intakeWrite (Keeps.modIntake (Keeps.update h)))))

theorem Keeps.egress {fm : Nat} {r s : State} (h : Keeps fm r s)
    (hm : Sub 934340 fm := by exact Sub.of (by assumption) (by decide)) {n steps} : Keeps fm r (State.egress s n steps) := by
  unfold State.egress
  dsimp only
  split
  · exact h
  · split
    · exact h
    · refine Keeps.egressEntry (Keeps.fst (Keeps.egressPiece ?_))
      split
      · exact Keeps.modIntake h
      · exact h

end Sys2Proof.Machine
end

