-- ==== Sys2Proof/Laws/Keeps/Batches.lean ====
section
/-! SUPPORT. What the operations of Machine/Batches.lean keep. -/

set_option Elab.async false

namespace Sys2Proof.Machine

theorem Keeps.dropStale {fm : Nat} {r s : State} (h : Keeps fm r s)
    (hm : Sub 786496 fm := by exact Sub.of (by assumption) (by decide)) {n} : Keeps fm r (State.dropStale s n) := by
  unfold State.dropStale
  exact Keeps.foldl h _ (fun _ _ h0 => Keeps.discardChunk h0)

theorem Keeps.readFeatures {fm : Nat} {r s : State} (h : Keeps fm r s)
    (hm : Sub 3817924 fm := by exact Sub.of (by assumption) (by decide)) {n part c ue} :
    KeepsP fm r (State.readFeatures s n part c ue) := by
  unfold State.readFeatures
  refine Keeps.foldlP (Keeps.pair h) _ ?_
  intro x0 a0 h0
  split
  · exact h0
  · split
    · exact Keeps.pair (Keeps.fst h0)
    · split
      · exact Keeps.pair (Keeps.ofPair (by assumption) (Keeps.readState (Keeps.fst h0)))
      · exact Keeps.pair (Keeps.ofPair (by assumption) (Keeps.readState (Keeps.fst h0)))

theorem Keeps.stageRow {fm : Nat} {r s : State} (h : Keeps fm r s)
    (hm : Sub 4080068 fm := by exact Sub.of (by assumption) (by decide)) {n part b c r' ue} :
    KeepsP fm r (State.stageRow s n part b c r' ue) := by
  unfold State.stageRow
  dsimp only
  split
  · refine Keeps.pair (Keeps.fst (Keeps.readFeatures (Keeps.fst ?_)))
    split
    · exact Keeps.pair h
    · split
      · split
        · exact Keeps.pair (Keeps.stateMsgs h)
        · exact Keeps.pair (Keeps.unmapped h)
      · exact Keeps.readState h
  · refine Keeps.pair (Keeps.holdChunk (Keeps.fst (Keeps.readFeatures (Keeps.fst ?_))))
    split
    · exact Keeps.pair h
    · split
      · split
        · exact Keeps.pair (Keeps.stateMsgs h)
        · exact Keeps.pair (Keeps.unmapped h)
      · exact Keeps.readState h

theorem Keeps.pushStage {fm : Nat} {r s : State} (h : Keeps fm r s)
    (hm : Sub 278624 fm := by exact Sub.of (by assumption) (by decide)) {n j} : Keeps fm r (State.pushStage s n j) := by
  unfold State.pushStage
  dsimp only
  split
  · exact h
  · refine Keeps.modBatch (Keeps.fst (Keeps.foldlP (Keeps.pair h) _ ?_))
    intro x0 a0 h0
    split
    · exact Keeps.pair (Keeps.fst h0)
    · exact Keeps.pair (Keeps.xWrite (Keeps.fst h0))

theorem Keeps.startBatch {fm : Nat} {r s : State} (h : Keeps fm r s)
    (hm : Sub 798240 fm := by exact Sub.of (by assumption) (by decide)) {n j} : Keeps fm r (State.startBatch s n j) := by
  unfold State.startBatch
  dsimp only
  split
  · exact Keeps.foldl (Keeps.foldl (Keeps.modBatch h) _ (fun _ _ h0 => Keeps.queueInv h0)) _ (fun _ _ h0 => Keeps.kick h0)
  · exact Keeps.modBatch h

theorem Keeps.launchBatch {fm : Nat} {r s : State} (h : Keeps fm r s)
    (hm : Sub 4128740 fm := by exact Sub.of (by assumption) (by decide)) {n cs resident ue} :
    KeepsO fm r (State.launchBatch s n cs resident ue) := by
  unfold State.launchBatch
  dsimp only
  split
  · exact Keeps.none
  · split
    · refine Keeps.some ?_
      split
      · split
        · exact Keeps.startBatch (Keeps.pushStage (Keeps.bump (Keeps.bump (Keeps.setStk (Keeps.modBatch (Keeps.fst (Keeps.foldlP (Keeps.pair (Keeps.setBatches (Keeps.fst (Keeps.beginGroup (Keeps.foldl (Keeps.update h) _ (fun _ _ h0 => Keeps.modChunk (Keeps.setBusy h0))))))) _ (fun _ _ h0 => Keeps.pair (Keeps.fst (Keeps.stageRow (Keeps.fst h0)))))))))))
        · exact Keeps.pushStage (Keeps.bump (Keeps.bump (Keeps.setStk (Keeps.modBatch (Keeps.fst (Keeps.foldlP (Keeps.pair (Keeps.setBatches (Keeps.fst (Keeps.beginGroup (Keeps.foldl (Keeps.update h) _ (fun _ _ h0 => Keeps.modChunk (Keeps.setBusy h0))))))) _ (fun _ _ h0 => Keeps.pair (Keeps.fst (Keeps.stageRow (Keeps.fst h0))))))))))
      · split
        · exact Keeps.startBatch (Keeps.pushStage (Keeps.bump (Keeps.bump (Keeps.setStk (Keeps.modBatch (Keeps.fst (Keeps.foldlP (Keeps.pair (Keeps.setBatches (Keeps.fst (Keeps.beginGroup (Keeps.foldl (Keeps.update h) _ (fun _ _ h0 => Keeps.bump (Keeps.bump (Keeps.modEntry (Keeps.modChunk (Keeps.setBusy h0)))))))))) _ (fun _ _ h0 => Keeps.pair (Keeps.fst (Keeps.stageRow (Keeps.fst h0)))))))))))
        · exact Keeps.pushStage (Keeps.bump (Keeps.bump (Keeps.setStk (Keeps.modBatch (Keeps.fst (Keeps.foldlP (Keeps.pair (Keeps.setBatches (Keeps.fst (Keeps.beginGroup (Keeps.foldl (Keeps.update h) _ (fun _ _ h0 => Keeps.bump (Keeps.bump (Keeps.modEntry (Keeps.modChunk (Keeps.setBusy h0)))))))))) _ (fun _ _ h0 => Keeps.pair (Keeps.fst (Keeps.stageRow (Keeps.fst h0))))))))))
    · refine Keeps.some (Keeps.pushStage (Keeps.bump (Keeps.bump (Keeps.setStk (Keeps.modBatch (Keeps.fst (Keeps.foldlP (Keeps.pair (Keeps.setBatches (Keeps.fst (Keeps.beginGroup (Keeps.foldl (Keeps.update h) _ ?_))))) _ (fun _ _ h0 => Keeps.pair (Keeps.fst (Keeps.stageRow (Keeps.fst h0)))))))))))
      intro x0 a0 h0
      split
      · exact Keeps.modChunk (Keeps.setBusy h0)
      · exact Keeps.bump (Keeps.bump (Keeps.modEntry (Keeps.modChunk (Keeps.setBusy h0))))

theorem Keeps.misLaunch {fm : Nat} {r s : State} (h : Keeps fm r s)
    (hm : Sub 786500 fm := by exact Sub.of (by assumption) (by decide)) {cs} :
    Keeps fm r (Sys2Proof.Machine.State.misLaunch s cs) := by
  unfold Sys2Proof.Machine.State.misLaunch
  dsimp only
  split
  · exact Keeps.update h
  · exact Keeps.foldl (Keeps.update h) _ (fun _ _ h0 => Keeps.holdChunk h0)

theorem Keeps.formBatch {fm : Nat} {r s : State} (h : Keeps fm r s)
    (hm : Sub 4128740 fm := by exact Sub.of (by assumption) (by decide)) {n expired ue} :
    Keeps fm r (Sys2Proof.Machine.State.formBatch s n expired ue) := by
  unfold Sys2Proof.Machine.State.formBatch
  dsimp only
  split
  · exact h
  · split
    · exact Keeps.dropStale h
    · exact Keeps.getD (Keeps.launchBatch (Keeps.dropStale h)) (Keeps.misLaunch (Keeps.dropStale h))

theorem Keeps.execBatchForm {fm : Nat} {r s : State} (h : Keeps fm r s)
    (hm : Sub 4128740 fm := by exact Sub.of (by assumption) (by decide)) {n ue} : KeepsX fm r (execBatchForm n ue s) := by
  unfold Sys2Proof.Machine.execBatchForm
  exact Keeps.next (Keeps.whenFetched h (fun _ h0 => Keeps.formBatch h0))

theorem Keeps.execBatchWindowExpiry {fm : Nat} {r s : State} (h : Keeps fm r s)
    (hm : Sub 4128740 fm := by exact Sub.of (by assumption) (by decide)) {n ue} :
    KeepsX fm r (execBatchWindowExpiry n ue s) := by
  unfold Sys2Proof.Machine.execBatchWindowExpiry
  exact Keeps.next (Keeps.whenFetched h (fun _ h0 => Keeps.formBatch h0))

theorem Keeps.execLastSliceStaged {fm : Nat} {r s : State} (h : Keeps fm r s)
    (hm : Sub 814688 fm := by exact Sub.of (by assumption) (by decide)) {n} : KeepsX fm r (execLastSliceStaged n s) := by
  unfold Sys2Proof.Machine.execLastSliceStaged
  dsimp only
  refine Keeps.next ?_
  split
  · exact h
  · split
    · split
      · exact Keeps.pushStage h
      · refine Keeps.startBatch ?_
        split
        · exact Keeps.pushStage h
        · exact Keeps.bump (Keeps.pushStage h)
    · exact Keeps.pushStage h

theorem Keeps.writeSpare {fm : Nat} {r s : State} (h : Keeps fm r s)
    (hm : Sub 410080 fm := by exact Sub.of (by assumption) (by decide)) {n b} : Keeps fm r (State.writeSpare s n b) := by
  unfold State.writeSpare
  dsimp only
  refine Keeps.modBatch (Keeps.foldl h _ ?_)
  intro x0 a0 h0
  split
  · exact h0
  · exact Keeps.fst (Keeps.writeState (Keeps.fst (Keeps.xReadAll h0)))

theorem Keeps.copyOutputs {fm : Nat} {r s : State} (h : Keeps fm r s)
    (hm : Sub 410080 fm := by exact Sub.of (by assumption) (by decide)) {n b} : Keeps fm r (State.copyOutputs s n b) := by
  unfold State.copyOutputs
  dsimp only
  refine Keeps.modBatch (Keeps.fst (Keeps.foldlP (Keeps.pair h) _ ?_))
  intro x0 a0 h0
  refine Keeps.pair (Keeps.fst (Keeps.foldlP (Keeps.pair (Keeps.fst h0)) _ ?_))
  intro x1 a1 h1
  split
  · exact Keeps.pair (Keeps.fst h1)
  · exact Keeps.pair (Keeps.fst (Keeps.writeMem (Keeps.fst (Keeps.xReadAll (Keeps.fst h1)))))

theorem Keeps.commitGroup {fm : Nat} {r s : State} (h : Keeps fm r s)
    (hm : Sub 294976 fm := by exact Sub.of (by assumption) (by decide)) {n b} : Keeps fm r (State.commitGroup s n b) := by
  unfold State.commitGroup
  dsimp only
  refine Keeps.foldl (Keeps.modBatch ?_) _ ?_
  · split
    · refine Keeps.foldl (Keeps.foldl h _ (fun _ _ h0 => Keeps.addItem h0)) _ ?_
      intro x0 a0 h0
      split
      · split
        · exact Keeps.addItem h0
        · exact h0
      · exact h0
    · exact Keeps.foldl h _ (fun _ _ h0 => Keeps.addItem h0)
  · intro x0 a0 h0
    split
    · exact Keeps.prepareGroup h0
    · exact h0

theorem Keeps.finishChunks {fm : Nat} {r s : State} (h : Keeps fm r s)
    (hm : Sub 934340 fm := by exact Sub.of (by assumption) (by decide)) {n b mark} :
    Keeps fm r (Sys2Proof.Machine.State.finishChunks s n b mark) := by
  unfold Sys2Proof.Machine.State.finishChunks
  dsimp only
  refine Keeps.update (Keeps.fst (Keeps.foldlP (Keeps.pair h) _ ?_))
  intro x0 a0 h0
  split
  · exact h0
  · refine Keeps.pair (Keeps.dropChunk (Keeps.releaseSlots (Keeps.bump (Keeps.bump (Keeps.bump ?_)))))
    split
    · exact Keeps.foldl (Keeps.fst h0) _ (fun _ _ h1 => Keeps.chunkRec h1)
    · exact Keeps.foldl (Keeps.foldl (Keeps.fst h0) _ (fun _ _ h1 => Keeps.chunkRec h1)) _ (fun _ _ h1 => Keeps.egress h1)

theorem Keeps.openBatch {fm : Nat} {r s : State} (h : Keeps fm r s)
    (hm : Sub 1036260 fm := by exact Sub.of (by assumption) (by decide)) {n} :
    Keeps fm r (Sys2Proof.Machine.State.openBatch s n) := by
  unfold Sys2Proof.Machine.State.openBatch
  dsimp only
  split
  · exact h
  · split
    · exact Keeps.dropJob (Keeps.releasePins (Keeps.sendVerdicts (Keeps.foldl (Keeps.setBatches (Keeps.finishChunks h)) _ (fun _ _ h0 => Keeps.openGroup h0))))
    · exact Keeps.foldl (Keeps.setBatches (Keeps.finishChunks h)) _ (fun _ _ h0 => Keeps.openGroup h0)

theorem Keeps.decideBatch {fm : Nat} {r s : State} (h : Keeps fm r s)
    (hm : Sub 1044452 fm := by exact Sub.of (by assumption) (by decide)) {n} :
    Keeps fm r (Sys2Proof.Machine.State.decideBatch s n) := by
  unfold Sys2Proof.Machine.State.decideBatch
  dsimp only
  split
  · exact h
  · split
    · exact h
    · split
      · exact Keeps.abortJob h
      · split
        · exact Keeps.openBatch (Keeps.ofPair (by assumption) (Keeps.askMarks h))
        · exact Keeps.ofPair (by assumption) (Keeps.askMarks h)

theorem Keeps.markBatch {fm : Nat} {r s : State} (h : Keeps fm r s)
    (hm : Sub 1036260 fm := by exact Sub.of (by assumption) (by decide)) {n} :
    Keeps fm r (Sys2Proof.Machine.State.markBatch s n) := by
  unfold Sys2Proof.Machine.State.markBatch
  split
  · exact h
  · split
    · exact Keeps.openBatch (Keeps.ofPair (by assumption) (Keeps.askMarks h))
    · exact Keeps.ofPair (by assumption) (Keeps.askMarks h)

theorem Keeps.commitBatch {fm : Nat} {r s : State} (h : Keeps fm r s)
    (hm : Sub 1044452 fm := by exact Sub.of (by assumption) (by decide)) {n b} : Keeps fm r (State.commitBatch s n b) := by
  unfold State.commitBatch
  extract_lets -merge -useContext +onlyGivenNames v0
  have k0 : Keeps fm r v0 := by
    dsimp only [v0]
    split
    · split
      · exact h
      · exact Keeps.askJobApplies h
    · exact h
  clear_value v0
  split
  · exact Keeps.abortJob k0
  · split
    · exact k0
    · extract_lets -merge -useContext +onlyGivenNames v1
      clear_value v1
      split
      · exact k0
      · extract_lets -merge -useContext +onlyGivenNames v2
        have k2 : Keeps fm r v2 := by
          dsimp only [v2]
          split
          · exact k0
          · exact Keeps.writeSpare k0
        clear_value v2
        split
        · exact k2
        · extract_lets -merge -useContext +onlyGivenNames v3
          clear_value v3
          split
          · split
            · exact k2
            · exact Keeps.modBatch (Keeps.setStk k2)
          · extract_lets -merge -useContext +onlyGivenNames v4
            clear_value v4
            split
            · exact k2
            · exact Keeps.decideBatch (Keeps.commitGroup (Keeps.copyOutputs k2))

theorem Keeps.execBatchCommit {fm : Nat} {r s : State} (h : Keeps fm r s)
    (hm : Sub 4190180 fm := by exact Sub.of (by assumption) (by decide)) {n} : KeepsX fm r (execBatchCommit n s) := by
  unfold Sys2Proof.Machine.execBatchCommit
  dsimp only
  split
  · exact Keeps.next h
  · split
    · split
      · refine Keeps.next ?_
        split
        · exact Keeps.settleOps (Keeps.commitBatch h)
        · split
          · exact Keeps.update h
          · exact Keeps.settleOps (Keeps.commitBatch (Keeps.setStk (Keeps.update h)))
      · exact Keeps.next h
    · split
      · refine Keeps.next ?_
        split
        · exact Keeps.settleOps (Keeps.commitBatch h)
        · split
          · exact Keeps.update h
          · exact Keeps.settleOps (Keeps.commitBatch (Keeps.setStk (Keeps.update h)))
      · exact Keeps.next h

theorem Keeps.execDeadlineMiss {fm : Nat} {r s : State} (h : Keeps fm r s)
    (hm : Sub 3932608 fm := by exact Sub.of (by assumption) (by decide)) {n} : KeepsX fm r (execDeadlineMiss n s) := by
  unfold Sys2Proof.Machine.execDeadlineMiss
  exact Keeps.next (Keeps.missChunk h)

theorem Keeps.writeStackEnable {fm : Nat} {r s : State} (h : Keeps fm r s)
    (hm : Sub 64 fm := by exact Sub.of (by assumption) (by decide)) {n v} : Keeps fm r (State.writeStackEnable s n v) := by
  unfold State.writeStackEnable
  split
  · exact Keeps.setStk h
  · exact Keeps.setStk (Keeps.setStk h)

theorem Keeps.writeOutRing {fm : Nat} {r s : State} (h : Keeps fm r s)
    (hm : Sub 262208 fm := by exact Sub.of (by assumption) (by decide)) {n sub v} :
    Keeps fm r (State.writeOutRing s n sub v) := by
  unfold State.writeOutRing
  exact Keeps.update (Keeps.setStk (Keeps.setStk h))

end Sys2Proof.Machine
end

