-- ==== Sys2Proof/Laws/Keeps/Partitions.lean ====
section
/-! SUPPORT. What the operations of Machine/Partitions.lean keep. -/

set_option Elab.async false

namespace Sys2Proof.Machine

theorem Keeps.clearReg {fm : Nat} {r s : State} (h : Keeps fm r s)
    (hm : Sub 64 fm := by exact Sub.of (by assumption) (by decide)) {idx sub} : Keeps fm r (State.clearReg s idx sub) :=
  h.updateRegs fun x => Regs.wf_erase x _

theorem Keeps.clearRegs {fm : Nat} {r s : State} (h : Keeps fm r s)
    (hm : Sub 64 fm := by exact Sub.of (by assumption) (by decide)) {l} : Keeps fm r (State.clearRegs s l) := by
  unfold State.clearRegs
  exact Keeps.foldl h _ (fun _ _ h0 => Keeps.clearReg h0)

theorem Keeps.createPartition {fm : Nat} {r s : State} (h : Keeps fm r s)
    (hm : Sub 262208 fm := by exact Sub.of (by assumption) (by decide)) {p} : Keeps fm r (State.createPartition s p) := by
  unfold State.createPartition
  dsimp only
  split
  · exact h
  · exact Keeps.update (Keeps.setReg (Keeps.clearRegs h))

theorem Keeps.dropSluice {fm : Nat} {r s : State} (h : Keeps fm r s)
    (hm : Sub 557120 fm := by exact Sub.of (by assumption) (by decide)) {acc status} :
    Keeps fm r (State.dropSluice s acc status) := by
  unfold State.dropSluice
  dsimp only
  split
  · exact h
  · refine Keeps.setAreg (Keeps.setAreg (Keeps.update (Keeps.discardGroup ?_)))
    split
    · exact Keeps.setMailbox h
    · exact h

theorem Keeps.tearStreams {fm : Nat} {r s : State} (h : Keeps fm r s)
    (hm : Sub 1034208 fm := by exact Sub.of (by assumption) (by decide)) {p} : Keeps fm r (State.tearStreams s p) := by
  unfold State.tearStreams
  dsimp only
  refine Keeps.foldl (Keeps.update (Keeps.foldl (Keeps.foldl (Keeps.foldl h _ (fun _ _ h0 => Keeps.setStk h0)) _ (fun _ _ h0 => Keeps.clearStream h0)) _ (fun _ _ h0 => Keeps.complete h0))) _ ?_
  intro x0 a0 h0
  split
  · exact h0
  · exact Keeps.decideGroup (Keeps.foldl (Keeps.fst (Keeps.beginGroup h0)) _ (fun _ _ h1 => Keeps.addItem h1))

theorem Keeps.tearPins {fm : Nat} {r s : State} (h : Keeps fm r s)
    (hm : Sub 622656 fm := by exact Sub.of (by assumption) (by decide)) {p} : Keeps fm r (State.tearPins s p) := by
  unfold State.tearPins
  dsimp only
  exact Keeps.dropSluice (Keeps.prune (Keeps.letGo h))

theorem Keeps.tearTables {fm : Nat} {r s : State} (h : Keeps fm r s)
    (hm : Sub 1034208 fm := by exact Sub.of (by assumption) (by decide)) {p} : Keeps fm r (State.tearTables s p) := by
  unfold State.tearTables
  dsimp only
  split
  · exact h
  · exact Keeps.decideGroup (Keeps.foldl (Keeps.fst (Keeps.beginGroup h)) _ (fun _ _ h0 => Keeps.addItem h0))

theorem Keeps.tearEnd {fm : Nat} {r s : State} (h : Keeps fm r s)
    (hm : Sub 192 fm := by exact Sub.of (by assumption) (by decide)) {p} : Keeps fm r (State.tearEnd s p) := by
  unfold State.tearEnd
  dsimp only
  split
  · exact h
  · exact Keeps.update (Keeps.clearRegs h)

theorem Keeps.tearGo {fm : Nat} {r s : State} (h : Keeps fm r s)
    (hm : Sub 1034208 fm := by exact Sub.of (by assumption) (by decide)) {p} : Keeps fm r (State.tearGo s p) := by
  unfold State.tearGo
  dsimp only
  split
  · exact h
  · split
    · exact Keeps.tearStreams h
    · exact Keeps.tearEnd (Keeps.tearTables (Keeps.tearPins (Keeps.tearStreams h)))

theorem Keeps.tearSettle {fm : Nat} {r s : State} (h : Keeps fm r s)
    (hm : Sub 1034208 fm := by exact Sub.of (by assumption) (by decide)) : Keeps fm r (State.tearSettle s) := by
  unfold State.tearSettle
  exact Keeps.foldl h _ (fun _ _ h0 => Keeps.tearGo h0)

theorem Keeps.tearDown {fm : Nat} {r s : State} (h : Keeps fm r s)
    (hm : Sub 4190180 fm := by exact Sub.of (by assumption) (by decide)) {p} : Keeps fm r (State.tearDown s p) := by
  unfold State.tearDown
  dsimp only
  split
  · exact h
  · exact Keeps.tearGo (Keeps.settleOps (Keeps.foldl (Keeps.foldl (Keeps.setReg h) _ (fun _ _ h0 => Keeps.writeEnable h0)) _ (fun _ _ h0 => Keeps.killCtx h0)))

theorem Keeps.execZeroFillComplete {fm : Nat} {r s : State} (h : Keeps fm r s)
    (hm : Sub 4190180 fm := by exact Sub.of (by assumption) (by decide)) {x} : KeepsX fm r (execZeroFillComplete x s) := by
  unfold Sys2Proof.Machine.execZeroFillComplete
  refine Keeps.next ?_
  split
  · exact Keeps.tearSettle (Keeps.settleOps (Keeps.releaseCtx h))
  · exact h

theorem Keeps.endDescs {fm : Nat} {r : State} {p : State × Option (List Desc)} (h : KeepsP fm r p) {l f q}
    (hm : Sub 3686852 fm := by exact Sub.of (by assumption) (by decide)) :
    Keeps fm r (State.endDescs l f q p) :=
  Keeps.foldl (Keeps.fst h) _ fun _ _ h0 => Keeps.complete (Keeps.bump h0)

theorem Keeps.killQueued {fm : Nat} {r s : State} (h : Keeps fm r s) {f q}
    (hm : Sub 3817924 fm := by exact Sub.of (by assumption) (by decide)) : Keeps fm r (State.killQueued s f q) :=
  Keeps.setQp (Keeps.setPair (Keeps.endDescs (Keeps.readDescs h)))

theorem Keeps.killJobs {fm : Nat} {r s : State} (h : Keeps fm r s)
    (hm : Sub 526336 fm := by exact Sub.of (by assumption) (by decide)) {f} : Keeps fm r (State.killJobs s f) := by
  unfold State.killJobs
  exact Keeps.foldl h _ (fun _ _ h0 => Keeps.modJob (Keeps.produce h0))

theorem Keeps.killWaiting {fm : Nat} {r s : State} (h : Keeps fm r s)
    (hm : Sub 892992 fm := by exact Sub.of (by assumption) (by decide)) {f} : Keeps fm r (State.killWaiting s f) := by
  unfold State.killWaiting
  dsimp only
  refine Keeps.foldl (Keeps.update (Keeps.foldl (Keeps.foldl (Keeps.foldl h _ (fun _ _ h0 => Keeps.endOp h0)) _ (fun _ _ h0 => Keeps.complete h0)) _ (fun _ _ h0 => Keeps.complete (Keeps.setBusy h0)))) _ ?_
  intro x0 a0 h0
  split
  · refine Keeps.modGroup ?_
    split
    · exact Keeps.produce h0
    · exact h0
  · refine Keeps.discardGroup ?_
    split
    · exact Keeps.produce h0
    · exact h0

theorem Keeps.flushPair {fm : Nat} {r a' : State} (h : Keeps fm r a')
    (hm : Sub 672192 fm := by exact Sub.of (by assumption) (by decide)) {a a'' a'''} :
    Keeps fm r (State.flushPair a a' a'' a''') := by
  induction a generalizing a' a'' a''' with
  | zero =>
    unfold State.flushPair
    exact h
  | succ m ih =>
    unfold State.flushPair
    dsimp only
    split
    · exact h
    · split
      · exact ih (Keeps.postRec (Keeps.update h))
      · split
        · split
          · exact ih (Keeps.postRec (Keeps.update h))
          · exact h
        · exact h

theorem Keeps.resetPair {fm : Nat} {r s : State} (h : Keeps fm r s)
    (hm : Sub 672192 fm := by exact Sub.of (by assumption) (by decide)) {f q} : Keeps fm r (State.resetPair s f q) := by
  unfold State.resetPair
  dsimp only
  refine Keeps.setPair (Keeps.clearRegs (Keeps.update ?_))
  split
  · exact h
  · exact Keeps.fst (Keeps.writeMem (Keeps.flushPair h))

theorem Keeps.resetFn {fm : Nat} {r s : State} (h : Keeps fm r s)
    (hm : Sub 4190180 fm := by exact Sub.of (by assumption) (by decide)) {f} : Keeps fm r (State.resetFn s f) := by
  unfold State.resetFn
  dsimp only
  refine Keeps.update (Keeps.clearRegs (Keeps.foldl (Keeps.dropSluice (Keeps.killWaiting ?_)) _ (fun _ _ h0 => Keeps.resetPair h0)))
  split
  · exact Keeps.foldl (Keeps.killJobs (Keeps.foldl h _ (fun _ _ h0 => Keeps.killQueued h0))) _ (fun _ _ h0 => Keeps.killCtx h0)
  · exact Keeps.killJobs (Keeps.foldl h _ (fun _ _ h0 => Keeps.killQueued h0))

theorem Keeps.execFunctionLevelReset {fm : Nat} {r s : State} (h : Keeps fm r s)
    (hm : Sub 4190180 fm := by exact Sub.of (by assumption) (by decide)) {f} : KeepsX fm r (execFunctionLevelReset f s) := by
  unfold Sys2Proof.Machine.execFunctionLevelReset
  dsimp only
  refine Keeps.next (Keeps.whenFetched h ?_)
  intro x0 h0
  refine Keeps.tearSettle (Keeps.settleOps (Keeps.resetFn ?_))
  split
  · exact Keeps.foldl h0 _ (fun _ _ h1 => Keeps.tearDown h1)
  · exact h0

theorem Keeps.execEnergyEstimate {fm : Nat} {r s : State} (h : Keeps fm r s)
    (hm : Sub 612 fm := by exact Sub.of (by assumption) (by decide)) : KeepsX fm r (execEnergyEstimate s) := by
  unfold Sys2Proof.Machine.execEnergyEstimate
  dsimp only
  exact Keeps.next (Keeps.update (Keeps.foldl (Keeps.busyAll h) _ (fun _ _ h0 => Keeps.charge h0)))

theorem Keeps.execEnergyCalibration {fm : Nat} {r s : State} (h : Keeps fm r s)
    (hm : Sub 96 fm := by exact Sub.of (by assumption) (by decide)) : KeepsX fm r (execEnergyCalibration s) := by
  unfold Sys2Proof.Machine.execEnergyCalibration
  dsimp only
  exact Keeps.next (Keeps.setReg (Keeps.update h))

theorem Keeps.setAblob {fm : Nat} {r s : State} (h : Keeps fm r s)
    (hm : Sub 128 fm := by exact Sub.of (by assumption) (by decide)) {acc idx sub v} :
    Keeps fm r (State.setAblob s acc idx sub v) := by
  unfold State.setAblob
  exact Keeps.update h

theorem Keeps.takeSnapshot {fm : Nat} {r s : State} (h : Keeps fm r s)
    (hm : Sub 704 fm := by exact Sub.of (by assumption) (by decide)) {acc a} : Keeps fm r (State.takeSnapshot s acc a) := by
  unfold State.takeSnapshot
  dsimp only
  exact Keeps.setAreg (Keeps.setAreg (Keeps.setAblob (Keeps.busyAll h)))

end Sys2Proof.Machine
end

