-- ==== Sys2Proof/Laws/Keeps/FabricMsg.lean ====
section
/-! SUPPORT. What the operations of Machine/FabricMsg.lean keep. -/

set_option Elab.async false

namespace Sys2Proof.Machine

theorem Keeps.openArrived {fm : Nat} {r s : State} (h : Keeps fm r s)
    (hm : Sub 1034208 fm := by exact Sub.of (by assumption) (by decide)) : Keeps fm r (State.openArrived s) := by
  unfold State.openArrived
  refine Keeps.foldl h _ ?_
  intro x0 a0 h0
  split
  · split
    · exact Keeps.decideGroup h0
    · exact h0
  · exact h0

theorem Keeps.noteFailure {fm : Nat} {r s : State} (h : Keeps fm r s)
    (hm : Sub 64 fm := by exact Sub.of (by assumption) (by decide)) {f} : Keeps fm r (State.noteFailure s f) := by
  unfold State.noteFailure
  split
  · exact Keeps.unmapped h
  · exact h

theorem Keeps.tokenFails {fm : Nat} {r s : State} (h : Keeps fm r s)
    (hm : Sub 512 fm := by exact Sub.of (by assumption) (by decide)) {p t f} : Keeps fm r (State.tokenFails s p t f) := by
  unfold State.tokenFails
  split
  · exact Keeps.tokenFault h
  · exact Keeps.tokenError h

theorem Keeps.dropRow {fm : Nat} {r s : State} (h : Keeps fm r s)
    (hm : Sub 802912 fm := by exact Sub.of (by assumption) (by decide)) {n} : Keeps fm r (State.dropRow s n) := by
  unfold State.dropRow
  dsimp only
  split
  · exact h
  · split
    · exact h
    · refine Keeps.modBatch (Keeps.holdChunk (Keeps.foldl h _ ?_))
      intro x0 a0 h0
      split
      · exact h0
      · exact Keeps.putResv h0

theorem Keeps.failMove {fm : Nat} {r s : State} (h : Keeps fm r s)
    (hm : Sub 262144 fm := by exact Sub.of (by assumption) (by decide)) {n} : Keeps fm r (State.failMove s n) := by
  unfold State.failMove
  exact Keeps.update h

theorem Keeps.failCommit {fm : Nat} {r s : State} (h : Keeps fm r s)
    (hm : Sub 1027680 fm := by exact Sub.of (by assumption) (by decide)) {n} : Keeps fm r (State.failCommit s n) := by
  unfold State.failCommit
  split
  · exact Keeps.abortJob h
  · exact h

theorem Keeps.dmvArrives {fm : Nat} {r s : State} (h : Keeps fm r s)
    (hm : Sub 4115424 fm := by exact Sub.of (by assumption) (by decide)) {p k i bs f} :
    Keeps fm r (State.dmvArrives s p k i bs f) := by
  unfold State.dmvArrives
  dsimp only
  split
  · exact h
  · split
    · refine Keeps.dmvWrite (Keeps.fst (Keeps.dmvConvert ?_))
      split
      · exact Keeps.tokenFails h
      · exact Keeps.charge h
    · refine Keeps.dmvWrite (Keeps.fst (Keeps.dmvConvert ?_))
      split
      · exact Keeps.tokenFails h
      · exact Keeps.charge h
    · refine Keeps.dmvWrite ?_
      split
      · exact Keeps.tokenFails h
      · exact Keeps.charge h

theorem Keeps.failUse {fm : Nat} {r s : State} (h : Keeps fm r s)
    (hm : Sub 4190180 fm := by exact Sub.of (by assumption) (by decide)) {o f up} : Keeps fm r (State.failUse s o f up) := by
  unfold State.failUse
  dsimp only
  split
  · refine Keeps.rowArrives ?_
    split
    · split
      · exact Keeps.tokenFault (Keeps.noteFailure h)
      · exact Keeps.noteFailure h
    · exact Keeps.noteFailure h
  · refine Keeps.scatterDone ?_
    split
    · split
      · exact Keeps.tokenError (Keeps.noteFailure h)
      · exact Keeps.noteFailure h
    · exact Keeps.noteFailure h
  · split
    · exact Keeps.dmvArrives (Keeps.noteFailure h)
    · split
      · exact Keeps.tokenFails (Keeps.noteFailure h)
      · exact Keeps.noteFailure h
  · exact Keeps.settleOps (Keeps.tryFinish (Keeps.modJob (Keeps.noteFailure h)))
  · exact Keeps.settleOps (Keeps.tryFinish (Keeps.modJob (Keeps.noteFailure h)))
  · exact Keeps.settleOps (Keeps.abortJob (Keeps.noteFailure h))
  · exact Keeps.failRowCmd (Keeps.noteFailure h)
  · exact Keeps.dropRow (Keeps.noteFailure h)
  · exact Keeps.failMove (Keeps.noteFailure h)
  · exact Keeps.settleOps (Keeps.failCommit (Keeps.noteFailure h))
  · exact Keeps.settleOps (Keeps.fetchPart (Keeps.noteFailure h))
  · exact Keeps.noteFailure h
  · exact Keeps.noteFailure h
  · exact Keeps.noteFailure h
  · exact Keeps.noteFailure h

theorem Keeps.countUnreachable {fm : Nat} {r s : State} (h : Keeps fm r s)
    (hm : Sub 64 fm := by exact Sub.of (by assumption) (by decide)) {m} : Keeps fm r (State.countUnreachable s m) := by
  unfold State.countUnreachable
  dsimp only
  split
  · exact Keeps.bump (Keeps.bump h)
  · exact Keeps.bump h

theorem Keeps.execFabricTimeout {fm : Nat} {r s : State} (h : Keeps fm r s)
    (hm : Sub 4190180 fm := by exact Sub.of (by assumption) (by decide)) {id} : KeepsX fm r (execFabricTimeout id s) := by
  unfold Sys2Proof.Machine.execFabricTimeout
  dsimp only
  refine Keeps.next ?_
  split
  · exact h
  · split
    · exact h
    · refine Keeps.releaseHolds ?_
      split
      · exact Keeps.failUse (Keeps.countUnreachable (Keeps.update h))
      · exact Keeps.countUnreachable (Keeps.update h)

theorem Keeps.refuseMsg {fm : Nat} {r s : State} (h : Keeps fm r s)
    (hm : Sub 131136 fm := by exact Sub.of (by assumption) (by decide)) {m kind status} :
    Keeps fm r (State.refuseMsg s m kind status) := by
  unfold State.refuseMsg
  dsimp only
  refine Keeps.send ?_
  split
  · exact Keeps.bump h
  · exact h

theorem Keeps.serveData {fm : Nat} {r s : State} (h : Keeps fm r s)
    (hm : Sub 131136 fm := by exact Sub.of (by assumption) (by decide)) {m kind mark bs} :
    Keeps fm r (State.serveData s m kind mark bs) := by
  unfold State.serveData
  exact Keeps.send (Keeps.charge h)

theorem Keeps.serveReplica {fm : Nat} {r s : State} (h : Keeps fm r s)
    (hm : Sub 3801540 fm := by exact Sub.of (by assumption) (by decide)) {m y2 lost} :
    Keeps fm r (Sys2Proof.Machine.State.serveReplica s m y2 lost) := by
  unfold Sys2Proof.Machine.State.serveReplica
  dsimp only
  split
  · exact Keeps.refuseMsg h
  · split
    · exact Keeps.refuseMsg (Keeps.fst (Keeps.resvCheck h))
    · exact Keeps.serveData (Keeps.fst (Keeps.resvCheck h))

theorem Keeps.serveRow {fm : Nat} {r s : State} (h : Keeps fm r s)
    (hm : Sub 3817924 fm := by exact Sub.of (by assumption) (by decide)) {m d y4 lost} :
    Keeps fm r (Sys2Proof.Machine.State.serveRow s m d y4 lost) := by
  unfold Sys2Proof.Machine.State.serveRow
  dsimp only
  split
  · split
    · exact Keeps.refuseMsg (Keeps.fst (Keeps.resvCheck h))
    · exact Keeps.serveData (Keeps.fst (Keeps.resvCheck h))
  · split
    · exact Keeps.refuseMsg (Keeps.fst (Keeps.readMem h))
    · split
      · exact Keeps.refuseMsg (Keeps.fst (Keeps.readMem h))
      · exact Keeps.serveData (Keeps.fst (Keeps.readMem h))

theorem Keeps.execRowRead {fm : Nat} {r s : State} (h : Keeps fm r s)
    (hm : Sub 3817924 fm := by exact Sub.of (by assumption) (by decide)) {m lost} :
    KeepsX fm r (Sys2Proof.Machine.execRowRead m lost s) := by
  unfold Sys2Proof.Machine.execRowRead
  dsimp only
  refine Keeps.next (Keeps.whenFetched h ?_)
  intro x0 h0
  split
  · split
    · exact Keeps.serveReplica (Keeps.consumeMsg h0)
    · exact Keeps.refuseMsg (Keeps.consumeMsg h0)
  · split
    · exact Keeps.refuseMsg (Keeps.consumeMsg h0)
    · split
      · split
        · exact Keeps.serveRow (Keeps.consumeMsg h0)
        · exact Keeps.refuseMsg (Keeps.consumeMsg h0)
      · exact Keeps.refuseMsg (Keeps.consumeMsg h0)

theorem Keeps.execRead {fm : Nat} {r s : State} (h : Keeps fm r s)
    (hm : Sub 3817920 fm := by exact Sub.of (by assumption) (by decide)) {m lost} :
    KeepsX fm r (Sys2Proof.Machine.execRead m lost s) := by
  unfold Sys2Proof.Machine.execRead
  dsimp only
  refine Keeps.next ?_
  split
  · exact Keeps.refuseMsg (Keeps.consumeMsg h)
  · split
    · exact Keeps.refuseMsg (Keeps.fst (Keeps.readMem (Keeps.consumeMsg h)))
    · split
      · exact Keeps.refuseMsg (Keeps.fst (Keeps.readMem (Keeps.consumeMsg h)))
      · exact Keeps.serveData (Keeps.fst (Keeps.readMem (Keeps.consumeMsg h)))

theorem Keeps.execWrite {fm : Nat} {r s : State} (h : Keeps fm r s)
    (hm : Sub 4179936 fm := by exact Sub.of (by assumption) (by decide)) {m} : KeepsX fm r (execWrite m s) := by
  unfold Sys2Proof.Machine.execWrite
  dsimp only
  refine Keeps.next ?_
  split
  · exact Keeps.refuseMsg (Keeps.consumeMsg h)
  · exact Keeps.send (Keeps.openArrived (Keeps.stageBlock (Keeps.fst (Keeps.beginGroup (Keeps.charge (Keeps.consumeMsg h))))))

theorem Keeps.execRefresh {fm : Nat} {r s : State} (h : Keeps fm r s)
    (hm : Sub 4179936 fm := by exact Sub.of (by assumption) (by decide)) {m} : KeepsX fm r (execRefresh m s) := by
  unfold Sys2Proof.Machine.execRefresh
  dsimp only
  refine Keeps.next (Keeps.send ?_)
  split
  · exact Keeps.charge (Keeps.consumeMsg h)
  · exact Keeps.openArrived (Keeps.stage (Keeps.fst (Keeps.beginGroup (Keeps.charge (Keeps.consumeMsg h)))))

theorem Keeps.execReplicaInstall {fm : Nat} {r s : State} (h : Keeps fm r s)
    (hm : Sub 1034212 fm := by exact Sub.of (by assumption) (by decide)) {m} : KeepsX fm r (execReplicaInstall m s) := by
  unfold Sys2Proof.Machine.execReplicaInstall
  dsimp only
  refine Keeps.next ?_
  split
  · exact Keeps.send (Keeps.update (Keeps.charge (Keeps.consumeMsg h)))
  · exact Keeps.send (Keeps.update (Keeps.charge (Keeps.consumeMsg h)))
  · exact Keeps.send (Keeps.openArrived (Keeps.addItem (Keeps.fst (Keeps.beginGroup (Keeps.update (Keeps.charge (Keeps.consumeMsg h)))))))

theorem Keeps.execReplicaRemove {fm : Nat} {r s : State} (h : Keeps fm r s)
    (hm : Sub 1034208 fm := by exact Sub.of (by assumption) (by decide)) {m} : KeepsX fm r (execReplicaRemove m s) := by
  unfold Sys2Proof.Machine.execReplicaRemove
  dsimp only
  refine Keeps.next (Keeps.send ?_)
  split
  · exact Keeps.consumeMsg h
  · exact Keeps.openArrived (Keeps.addItem (Keeps.fst (Keeps.beginGroup (Keeps.consumeMsg h))))

theorem Keeps.takeResponse {fm : Nat} {r s : State} (h : Keeps fm r s)
    (hm : Sub 131136 fm := by exact Sub.of (by assumption) (by decide)) {m} : KeepsP fm r (State.takeResponse s m) := by
  unfold State.takeResponse
  exact Keeps.pair (Keeps.releaseHolds (Keeps.fst (Keeps.answered (Keeps.consumeMsg h))))

theorem Keeps.execParcelAck {fm : Nat} {r s : State} (h : Keeps fm r s)
    (hm : Sub 3902436 fm := by exact Sub.of (by assumption) (by decide)) {m up} :
    KeepsX fm r (Sys2Proof.Machine.execParcelAck m up s) := by
  unfold Sys2Proof.Machine.execParcelAck
  dsimp only
  refine Keeps.next ?_
  split
  · refine Keeps.scatterDone ?_
    split
    · exact Keeps.fst (Keeps.takeResponse h)
    · exact Keeps.threadFault (Keeps.fst (Keeps.takeResponse h))
  · exact Keeps.fst (Keeps.takeResponse h)

theorem Keeps.auditPeer {fm : Nat} {r s : State} (h : Keeps fm r s)
    (hm : Sub 3883460 fm := by exact Sub.of (by assumption) (by decide)) {t r' k m} :
    Keeps fm r (State.auditPeer s t r' k m) := by
  unfold State.auditPeer
  dsimp only
  split
  · exact Keeps.ofPair (by assumption) (Keeps.rowRead h)
  · split
    · exact Keeps.sendRefresh (Keeps.ofPair (by assumption) (Keeps.rowRead h))
    · split
      · exact Keeps.ofPair (by assumption) (Keeps.rowRead h)
      · split
        · exact Keeps.ofPair (by assumption) (Keeps.rowRead h)
        · split
          · exact Keeps.auditFault (Keeps.fixAll (Keeps.ofPair (by assumption) (Keeps.rowRead h)))
          · split
            · exact Keeps.bump (Keeps.sendRefresh (Keeps.ofPair (by assumption) (Keeps.rowRead h)))
            · split
              · exact Keeps.fixHome (Keeps.ofPair (by assumption) (Keeps.rowRead h))
              · exact Keeps.auditFault (Keeps.sendRefresh (Keeps.ofPair (by assumption) (Keeps.rowRead h)))

theorem Keeps.execRowData {fm : Nat} {r s : State} (h : Keeps fm r s)
    (hm : Sub 4190180 fm := by exact Sub.of (by assumption) (by decide)) {m up} :
    KeepsX fm r (Sys2Proof.Machine.execRowData m up s) := by
  unfold Sys2Proof.Machine.execRowData
  dsimp only
  refine Keeps.next (Keeps.whenFetched h ?_)
  intro x0 h0
  split
  · exact Keeps.fst (Keeps.takeResponse h0)
  · split
    · exact Keeps.rowArrives (Keeps.fst (Keeps.takeResponse h0))
    · exact Keeps.failUse (Keeps.fst (Keeps.takeResponse h0))
    · exact Keeps.auditPeer (Keeps.fst (Keeps.takeResponse h0))
    · exact Keeps.fst (Keeps.takeResponse h0)

theorem Keeps.argArrives {fm : Nat} {r s : State} (h : Keeps fm r s)
    (hm : Sub 2624 fm := by exact Sub.of (by assumption) (by decide)) {j x r' bs} :
    Keeps fm r (State.argArrives s j x r' bs) := by
  unfold State.argArrives
  dsimp only
  split
  · exact h
  · split
    · exact Keeps.putArg (Keeps.charge h)
    · exact Keeps.argsDone (Keeps.putArg (Keeps.charge h))

theorem Keeps.stateArrives {fm : Nat} {r s : State} (h : Keeps fm r s)
    (hm : Sub 410080 fm := by exact Sub.of (by assumption) (by decide)) {n kind row bs} :
    Keeps fm r (State.stateArrives s n kind row bs) := by
  unfold State.stateArrives
  dsimp only
  split
  · split
    · exact Keeps.charge h
    · split
      · exact Keeps.charge h
      · exact Keeps.pushStage (Keeps.modBatch (Keeps.charge h))
  · split
    · exact Keeps.charge h
    · split
      · exact Keeps.fst (Keeps.writeState (Keeps.charge h))
      · exact Keeps.failMove (Keeps.fst (Keeps.writeState (Keeps.charge h)))

theorem Keeps.dmvGoesOn {fm : Nat} {r s : State} (h : Keeps fm r s)
    (hm : Sub 4115428 fm := by exact Sub.of (by assumption) (by decide)) {use up ue} :
    Keeps fm r (Sys2Proof.Machine.State.dmvGoesOn s use up ue) := by
  unfold Sys2Proof.Machine.State.dmvGoesOn
  split
  · exact Keeps.dmvResume h
  · exact h

theorem Keeps.execReadData {fm : Nat} {r s : State} (h : Keeps fm r s)
    (hm : Sub 4190180 fm := by exact Sub.of (by assumption) (by decide)) {m up ue} :
    KeepsX fm r (Sys2Proof.Machine.execReadData m up ue s) := by
  unfold Sys2Proof.Machine.execReadData
  dsimp only
  refine Keeps.next ?_
  split
  · exact Keeps.fst (Keeps.takeResponse h)
  · refine Keeps.dmvGoesOn ?_
    split
    · exact Keeps.failUse (Keeps.fst (Keeps.takeResponse h))
    · split
      · exact Keeps.dmvArrives (Keeps.fst (Keeps.takeResponse h))
      · exact Keeps.argArrives (Keeps.fst (Keeps.takeResponse h))
      · exact Keeps.stateArrives (Keeps.fst (Keeps.takeResponse h))
      · exact Keeps.settleOps (Keeps.fetchPart (Keeps.fst (Keeps.takeResponse h)))
      · exact Keeps.fst (Keeps.takeResponse h)

theorem Keeps.execAck {fm : Nat} {r s : State} (h : Keeps fm r s)
    (hm : Sub 4190180 fm := by exact Sub.of (by assumption) (by decide)) {m up ue} :
    KeepsX fm r (Sys2Proof.Machine.execAck m up ue s) := by
  unfold Sys2Proof.Machine.execAck
  dsimp only
  refine Keeps.next ?_
  split
  · exact Keeps.fst (Keeps.takeResponse h)
  · refine Keeps.dmvGoesOn ?_
    split
    · exact Keeps.failUse (Keeps.fst (Keeps.takeResponse h))
    · split
      · exact Keeps.settleOps (Keeps.tryFinish (Keeps.fst (Keeps.takeResponse h)))
      · exact Keeps.settleOps (Keeps.tryFinish (Keeps.fst (Keeps.takeResponse h)))
      · split
        · exact Keeps.fst (Keeps.takeResponse h)
        · exact Keeps.decideGroup (Keeps.fst (Keeps.takeResponse h))
      · exact Keeps.fst (Keeps.takeResponse h)

theorem Keeps.execDictData {fm : Nat} {r s : State} (h : Keeps fm r s)
    (hm : Sub 131136 fm := by exact Sub.of (by assumption) (by decide)) {m} : KeepsX fm r (execDictData m s) := by
  unfold Sys2Proof.Machine.execDictData
  exact Keeps.next (Keeps.fst (Keeps.takeResponse h))

end Sys2Proof.Machine
end

