-- ==== Sys2Proof/Laws/Keeps/Service.lean ====
section
/-! SUPPORT. What the operations of Machine/Service.lean keep. -/

set_option Elab.async false

namespace Sys2Proof.Machine

theorem Keeps.setPhys {fm : Nat} {r s : State} (h : Keeps fm r s)
    (hm : Sub 64 fm := by exact Sub.of (by assumption) (by decide)) {p v} : Keeps fm r (State.setPhys s p v) := by
  unfold State.setPhys
  exact Keeps.setReg h

theorem Keeps.judgeSpares {fm : Nat} {r s : State} (h : Keeps fm r s)
    (hm : Sub 64 fm := by exact Sub.of (by assumption) (by decide)) : Keeps fm r (State.judgeSpares s) := by
  unfold State.judgeSpares
  exact Keeps.setReg h

theorem Keeps.serviceStatus {fm : Nat} {r s : State} (h : Keeps fm r s)
    (hm : Sub 64 fm := by exact Sub.of (by assumption) (by decide)) {v} : Keeps fm r (State.serviceStatus s v) := by
  unfold State.serviceStatus
  exact Keeps.setReg h

theorem Keeps.beginHandover {fm : Nat} {r s : State} (h : Keeps fm r s)
    (hm : Sub 3829732 fm := by exact Sub.of (by assumption) (by decide)) {replace} :
    Keeps fm r (State.beginHandover s replace) := by
  unfold State.beginHandover
  dsimp only
  split
  · exact Keeps.serviceStatus h
  · split
    · exact Keeps.serviceStatus h
    · split
      · split
        · exact Keeps.serviceStatus h
        · exact Keeps.settleOps (Keeps.serviceStatus (Keeps.update (Keeps.modCore h)))
      · split
        · exact Keeps.serviceStatus h
        · exact Keeps.settleOps (Keeps.serviceStatus (Keeps.update (Keeps.modCore h)))

theorem Keeps.beginSelftest {fm : Nat} {r s : State} (h : Keeps fm r s)
    (hm : Sub 2097728 fm := by exact Sub.of (by assumption) (by decide)) : Keeps fm r (State.beginSelftest s) := by
  unfold State.beginSelftest
  dsimp only
  split
  · exact Keeps.serviceStatus h
  · split
    · exact Keeps.serviceStatus h
    · exact Keeps.serviceStatus (Keeps.update (Keeps.setCore (Keeps.setPhys h)))

theorem Keeps.retireCore {fm : Nat} {r s : State} (h : Keeps fm r s)
    (hm : Sub 64 fm := by exact Sub.of (by assumption) (by decide)) : Keeps fm r (State.retireCore s) := by
  unfold State.retireCore
  split
  · exact Keeps.serviceStatus h
  · split
    · exact Keeps.serviceStatus h
    · exact Keeps.serviceStatus (Keeps.judgeSpares (Keeps.setPhys h))

theorem Keeps.clearFuses {fm : Nat} {r s : State} (h : Keeps fm r s)
    (hm : Sub 72 fm := by exact Sub.of (by assumption) (by decide)) : Keeps fm r (State.clearFuses s) := by
  unfold State.clearFuses
  dsimp only
  split
  · exact Keeps.serviceStatus h
  · split
    · exact Keeps.serviceStatus h
    · exact Keeps.serviceStatus (Keeps.updateTop h)

theorem Keeps.copyReads {fm : Nat} {r s : State} (h : Keeps fm r s)
    (hm : Sub 4173792 fm := by exact Sub.of (by assumption) (by decide)) {p up} : Keeps fm r (State.copyReads s p up) := by
  unfold State.copyReads
  dsimp only
  refine Keeps.foldl h _ ?_
  intro x0 a0 h0
  split
  · exact Keeps.spillFault (Keeps.fst (Keeps.readRows h0))
  · exact Keeps.fst (Keeps.readRows h0)

theorem Keeps.handOver {fm : Nat} {r s : State} (h : Keeps fm r s)
    (hm : Sub 4190180 fm := by exact Sub.of (by assumption) (by decide)) {h' up} : Keeps fm r (State.handOver s h' up) := by
  unfold State.handOver
  dsimp only
  exact Keeps.tearSettle (Keeps.settleOps (Keeps.kick (Keeps.foldl (Keeps.judgeCores (Keeps.serviceStatus (Keeps.bump (Keeps.update (Keeps.setPhys (Keeps.setReg (Keeps.setReg (Keeps.setPhys (Keeps.setReg (Keeps.countOpened (Keeps.takeMark (Keeps.foldl (Keeps.setCore (Keeps.setCore (Keeps.copyReads h))) _ (fun _ _ h0 => Keeps.useBank h0))))))))))))) _ (fun _ _ h0 => Keeps.killNow h0))))

theorem Keeps.execHandoverComplete {fm : Nat} {r s : State} (h : Keeps fm r s)
    (hm : Sub 4190180 fm := by exact Sub.of (by assumption) (by decide)) {up} : KeepsX fm r (execHandoverComplete up s) := by
  unfold Sys2Proof.Machine.execHandoverComplete
  refine Keeps.next ?_
  split
  · split
    · exact Keeps.handOver h
    · exact h
  · exact h

theorem Keeps.selftestEvent {fm : Nat} {r s : State} (h : Keeps fm r s)
    (hm : Sub 3670464 fm := by exact Sub.of (by assumption) (by decide)) {p cause inj} :
    Keeps fm r (State.selftestEvent s p cause inj) := by
  unfold State.selftestEvent
  exact Keeps.raise h

theorem Keeps.failPhys {fm : Nat} {r s : State} (h : Keeps fm r s)
    (hm : Sub 3670464 fm := by exact Sub.of (by assumption) (by decide)) {p cause inj} :
    Keeps fm r (State.failPhys s p cause inj) := by
  unfold State.failPhys
  dsimp only
  exact Keeps.selftestEvent (Keeps.setReg (Keeps.setReg (Keeps.setPhys h)))

theorem Keeps.passPhys {fm : Nat} {r s : State} (h : Keeps fm r s)
    (hm : Sub 3670472 fm := by exact Sub.of (by assumption) (by decide)) {p half} :
    Keeps fm r (State.passPhys s p half) := by
  unfold State.passPhys
  dsimp only
  refine Keeps.setReg (Keeps.setReg (Keeps.setReg ?_))
  split
  · exact Keeps.selftestEvent (Keeps.updateTop h)
  · exact h

theorem Keeps.execCoreSelftestComplete {fm : Nat} {r s : State} (h : Keeps fm r s)
    (hm : Sub 3670984 fm := by exact Sub.of (by assumption) (by decide)) {p result words} :
    KeepsX fm r (Sys2Proof.Machine.execCoreSelftestComplete p result words s) := by
  unfold Sys2Proof.Machine.execCoreSelftestComplete
  dsimp only
  refine Keeps.next ?_
  split
  · exact h
  · refine Keeps.judgeCores (Keeps.judgeSpares (Keeps.update ?_))
    split
    · split
      · split
        · split
          · exact Keeps.serviceStatus (Keeps.update (Keeps.modCore (Keeps.failPhys (Keeps.consume h))))
          · exact Keeps.modCore (Keeps.failPhys (Keeps.consume h))
        · split
          · exact Keeps.serviceStatus (Keeps.update (Keeps.modCore (Keeps.failPhys (Keeps.consume h))))
          · exact Keeps.modCore (Keeps.failPhys (Keeps.consume h))
      · split
        · split
          · exact Keeps.serviceStatus (Keeps.update (Keeps.modCore (Keeps.failPhys h)))
          · exact Keeps.modCore (Keeps.failPhys h)
        · split
          · exact Keeps.serviceStatus (Keeps.update (Keeps.modCore (Keeps.failPhys h)))
          · exact Keeps.modCore (Keeps.failPhys h)
    · split
      · split
        · split
          · exact Keeps.serviceStatus (Keeps.update (Keeps.modCore (Keeps.setCore (Keeps.setPhys (Keeps.passPhys (Keeps.consume h))))))
          · exact Keeps.modCore (Keeps.setCore (Keeps.setPhys (Keeps.passPhys (Keeps.consume h))))
        · split
          · exact Keeps.serviceStatus (Keeps.update (Keeps.modCore (Keeps.setCore (Keeps.setPhys (Keeps.passPhys (Keeps.consume h))))))
          · exact Keeps.modCore (Keeps.setCore (Keeps.setPhys (Keeps.passPhys (Keeps.consume h))))
      · split
        · split
          · exact Keeps.serviceStatus (Keeps.update (Keeps.modCore (Keeps.setCore (Keeps.setPhys (Keeps.passPhys h)))))
          · exact Keeps.modCore (Keeps.setCore (Keeps.setPhys (Keeps.passPhys h)))
        · split
          · exact Keeps.serviceStatus (Keeps.update (Keeps.modCore (Keeps.setCore (Keeps.setPhys (Keeps.passPhys h)))))
          · exact Keeps.modCore (Keeps.setCore (Keeps.setPhys (Keeps.passPhys h)))

theorem Keeps.dmcEvent {fm : Nat} {r s : State} (h : Keeps fm r s)
    (hm : Sub 3670464 fm := by exact Sub.of (by assumption) (by decide)) {sev cause inj} :
    Keeps fm r (State.dmcEvent s sev cause inj) := by
  unfold State.dmcEvent
  exact Keeps.raise h

theorem Keeps.swapDmcs {fm : Nat} {r s : State} (h : Keeps fm r s)
    (hm : Sub 64 fm := by exact Sub.of (by assumption) (by decide)) {old} : Keeps fm r (State.swapDmcs s old) := by
  unfold State.swapDmcs
  exact Keeps.setReg (Keeps.setReg (Keeps.setReg h))

theorem Keeps.switchDmcs {fm : Nat} {r s : State} (h : Keeps fm r s)
    (hm : Sub 3670464 fm := by exact Sub.of (by assumption) (by decide)) : Keeps fm r (State.switchDmcs s) := by
  unfold State.switchDmcs
  split
  · exact Keeps.serviceStatus (Keeps.dmcEvent (Keeps.swapDmcs h))
  · exact Keeps.serviceStatus h

theorem Keeps.execHeartbeat {fm : Nat} {r s : State} (h : Keeps fm r s)
    (hm : Sub 2097216 fm := by exact Sub.of (by assumption) (by decide)) : KeepsX fm r (execHeartbeat s) := by
  unfold Sys2Proof.Machine.execHeartbeat
  dsimp only
  refine Keeps.next (Keeps.update ?_)
  split
  · exact Keeps.update (Keeps.consume h)
  · exact h

theorem Keeps.execHeartbeatTimeout {fm : Nat} {r s : State} (h : Keeps fm r s)
    (hm : Sub 3670464 fm := by exact Sub.of (by assumption) (by decide)) : KeepsX fm r (execHeartbeatTimeout s) := by
  unfold Sys2Proof.Machine.execHeartbeatTimeout
  dsimp only
  refine Keeps.next ?_
  split
  · exact h
  · exact Keeps.dmcEvent (Keeps.setCause (Keeps.update (Keeps.bump (Keeps.swapDmcs h))))

theorem Keeps.execStandbyLost {fm : Nat} {r s : State} (h : Keeps fm r s)
    (hm : Sub 3670464 fm := by exact Sub.of (by assumption) (by decide)) : KeepsX fm r (execStandbyLost s) := by
  unfold Sys2Proof.Machine.execStandbyLost
  refine Keeps.next ?_
  split
  · exact h
  · exact Keeps.dmcEvent (Keeps.setCause (Keeps.setReg h))

theorem Keeps.fwEvent {fm : Nat} {r s : State} (h : Keeps fm r s)
    (hm : Sub 3670468 fm := by exact Sub.of (by assumption) (by decide)) {cause comp inj} :
    Keeps fm r (State.fwEvent s cause comp inj) := by
  unfold State.fwEvent
  exact Keeps.raise (Keeps.update h)

theorem Keeps.fwState {fm : Nat} {r s : State} (h : Keeps fm r s)
    (hm : Sub 64 fm := by exact Sub.of (by assumption) (by decide)) {v} : Keeps fm r (State.fwState s v) := by
  unfold State.fwState
  exact Keeps.setReg h

theorem Keeps.modFw {fm : Nat} {r s : State} (h : Keeps fm r s)
    (hm : Sub 4194304 fm := by exact Sub.of (by assumption) (by decide)) {f} : Keeps fm r (State.modFw s f) := by
  unfold State.modFw
  exact Keeps.update h

theorem Keeps.execRequestUpdate {fm : Nat} {r s : State} (h : Keeps fm r s)
    (hm : Sub 4194368 fm := by exact Sub.of (by assumption) (by decide)) : KeepsX fm r (execRequestUpdate s) := by
  unfold Sys2Proof.Machine.execRequestUpdate
  refine Keeps.next ?_
  split
  · exact h
  · exact Keeps.fwState (Keeps.modFw h)

theorem Keeps.execPassComponentTable {fm : Nat} {r s : State} (h : Keeps fm r s)
    (hm : Sub 4194304 fm := by exact Sub.of (by assumption) (by decide)) {comps} :
    KeepsX fm r (execPassComponentTable comps s) := by
  unfold Sys2Proof.Machine.execPassComponentTable
  refine Keeps.next ?_
  split
  · exact Keeps.modFw h
  · exact h

theorem Keeps.execUpdateComponent {fm : Nat} {r s : State} (h : Keeps fm r s)
    (hm : Sub 4194304 fm := by exact Sub.of (by assumption) (by decide)) {comp} :
    KeepsX fm r (execUpdateComponent comp s) := by
  unfold Sys2Proof.Machine.execUpdateComponent
  refine Keeps.next ?_
  split
  · exact Keeps.modFw h
  · exact h

theorem Keeps.execTransferComplete {fm : Nat} {r s : State} (h : Keeps fm r s)
    (hm : Sub 4194368 fm := by exact Sub.of (by assumption) (by decide)) {ok} : KeepsX fm r (execTransferComplete ok s) := by
  unfold Sys2Proof.Machine.execTransferComplete
  refine Keeps.next ?_
  split
  · exact h
  · split
    · exact Keeps.modFw h
    · exact Keeps.fwState (Keeps.modFw h)

theorem Keeps.execVerifyComplete {fm : Nat} {r s : State} (h : Keeps fm r s)
    (hm : Sub 7864772 fm := by exact Sub.of (by assumption) (by decide)) {ok} : KeepsX fm r (execVerifyComplete ok s) := by
  unfold Sys2Proof.Machine.execVerifyComplete
  dsimp only
  refine Keeps.next ?_
  split
  · exact h
  · split
    · exact Keeps.fwEvent (Keeps.fwState (Keeps.modFw (Keeps.update h)))
    · exact Keeps.fwEvent (Keeps.fwState (Keeps.modFw h))

theorem Keeps.execApplyComplete {fm : Nat} {r s : State} (h : Keeps fm r s)
    (hm : Sub 4194368 fm := by exact Sub.of (by assumption) (by decide)) {ok} : KeepsX fm r (execApplyComplete ok s) := by
  unfold Sys2Proof.Machine.execApplyComplete
  refine Keeps.next ?_
  split
  · exact h
  · split
    · exact Keeps.modFw h
    · exact Keeps.fwState (Keeps.modFw h)

theorem Keeps.activate {fm : Nat} {r s : State} (h : Keeps fm r s)
    (hm : Sub 7864772 fm := by exact Sub.of (by assumption) (by decide)) {compatible service} :
    Keeps fm r (State.activate s compatible service) := by
  unfold State.activate
  dsimp only
  split
  · exact Keeps.setReg (Keeps.fwState (Keeps.modFw h))
  · exact Keeps.fwEvent (Keeps.fwState h)

theorem Keeps.execActivateFirmware {fm : Nat} {r s : State} (h : Keeps fm r s)
    (hm : Sub 7864772 fm := by exact Sub.of (by assumption) (by decide)) {compatible} :
    KeepsX fm r (execActivateFirmware compatible s) := by
  unfold Sys2Proof.Machine.execActivateFirmware
  refine Keeps.next ?_
  split
  · exact Keeps.activate h
  · exact h

theorem Keeps.serviceActivate {fm : Nat} {r s : State} (h : Keeps fm r s)
    (hm : Sub 7864772 fm := by exact Sub.of (by assumption) (by decide)) {compatible} :
    Keeps fm r (State.serviceActivate s compatible) := by
  unfold State.serviceActivate
  split
  · exact Keeps.serviceStatus h
  · exact Keeps.serviceStatus (Keeps.activate h)

theorem Keeps.endActivation {fm : Nat} {r s : State} (h : Keeps fm r s)
    (hm : Sub 4194368 fm := by exact Sub.of (by assumption) (by decide)) {status} :
    Keeps fm r (State.endActivation s status) := by
  unfold State.endActivation
  dsimp only
  refine Keeps.modFw ?_
  split
  · exact Keeps.serviceStatus h
  · exact h

theorem Keeps.rollBack {fm : Nat} {r s : State} (h : Keeps fm r s)
    (hm : Sub 7864772 fm := by exact Sub.of (by assumption) (by decide)) {inj} : Keeps fm r (State.rollBack s inj) := by
  unfold State.rollBack
  exact Keeps.endActivation (Keeps.fwEvent (Keeps.fwState h))

theorem Keeps.flipSlot {fm : Nat} {r s : State} (h : Keeps fm r s)
    (hm : Sub 7864772 fm := by exact Sub.of (by assumption) (by decide)) : Keeps fm r (State.flipSlot s) := by
  unfold State.flipSlot
  exact Keeps.endActivation (Keeps.fwEvent (Keeps.bump (Keeps.fwState (Keeps.setReg (Keeps.modFw h)))))

theorem Keeps.switched {fm : Nat} {r s : State} (h : Keeps fm r s)
    (hm : Sub 7864772 fm := by exact Sub.of (by assumption) (by decide)) : Keeps fm r (State.switched s) := by
  unfold State.switched
  dsimp only
  split
  · refine Keeps.flipSlot (Keeps.modFw ?_)
    split
    · exact Keeps.dmcEvent (Keeps.swapDmcs h)
    · exact h
  · refine Keeps.setReg (Keeps.modFw ?_)
    split
    · exact Keeps.dmcEvent (Keeps.swapDmcs h)
    · exact h

theorem Keeps.execComponentSwitch {fm : Nat} {r s : State} (h : Keeps fm r s)
    (hm : Sub 7864772 fm := by exact Sub.of (by assumption) (by decide)) : KeepsX fm r (execComponentSwitch s) := by
  unfold Sys2Proof.Machine.execComponentSwitch
  dsimp only
  refine Keeps.next ?_
  split
  · exact h
  · split
    · exact Keeps.rollBack (Keeps.consume h)
    · exact Keeps.switched h

theorem Keeps.execComponentReadyTimeout {fm : Nat} {r s : State} (h : Keeps fm r s)
    (hm : Sub 7864772 fm := by exact Sub.of (by assumption) (by decide)) : KeepsX fm r (execComponentReadyTimeout s) := by
  unfold Sys2Proof.Machine.execComponentReadyTimeout
  refine Keeps.next ?_
  split
  · exact Keeps.rollBack h
  · exact h

end Sys2Proof.Machine
end

