-- ==== Sys2Proof/Laws/Keeps/BringUp.lean ====
section
/-! SUPPORT. What the operations of Machine/BringUp.lean keep. -/

set_option Elab.async false

namespace Sys2Proof.Machine

theorem StepSafe.setReg {fm : Nat} {s t : State} (h : StepSafe fm s t)
    (hm : Sub 64 fm := by exact Sub.of (by assumption) (by decide)) {idx sub v} : StepSafe fm s (t.setReg idx sub v) :=
  have k : Keeps fm t (t.setReg idx sub v) := Keeps.setReg (Keeps.refl t)
  ⟨k.pending.trans h.pending, fun x => k.safe (h.safe x), h.dev, h.frame.trans k.frame⟩

theorem Alloc.balanced_init : Alloc.init.balanced := by
  simp only [Alloc.balanced, Alloc.inForce, Alloc.init]
  omega

/-- A return to RESET from a state that differs from s in its pins keeps the queue, the host's memory and what is in flash,
holds the pins, and leaves a safe state safe. -/
theorem moduleReset_safe {s u : State} (hq : u.pending = s.pending) (hm : Memory.wf s.mem = true → Memory.wf u.mem = true)
    (hr : Regs.wf s.regs = true → Regs.wf u.regs = true)
    (ht : s.top.safe → u.top.pwrGood = false → u.top.sysResetN = false) {cause : Nat} :
    StepSafe 16777215 s (u.moduleReset cause) := by
  have hk := Sub.refl 16777215
  have k : Keeps 16777215 { u with alloc := Alloc.init, top := { Top.init with pwrGood := u.top.pwrGood, sysResetN := u.top.sysResetN } }
      (u.moduleReset cause) := by
    unfold State.moduleReset
    dsimp only
    refine Keeps.setReg (Keeps.foldl ?_ _ fun x p hx => ?_)
    · exact ⟨rfl, fun x => Memory.wf_filter x _, fun x => Regs.wf_filter x _, id, fun x => ⟨x.1, fun _ => ⟨rfl, rfl⟩⟩, rfl, rfl,
        .inl rfl, Frame.full _ _⟩
    · split
      · exact Keeps.setPhys hx
      · exact hx
  refine ⟨k.pending.trans hq,
    fun hs => k.safe ⟨hm hs.memory, hr hs.regs, Alloc.balanced_init, ht hs.top, fun _ => ⟨rfl, rfl⟩⟩, ?_, Frame.full _ _⟩
  have e : (u.moduleReset cause).top.dev = .reset := by
    rcases k.dev with e | ⟨e, _⟩
    · exact e
    · rcases e with e | e <;> cases e
  rw [e]
  exact DevState.goes_reset _

theorem execSysResetAssert_safe {s t : State} (e : execSysResetAssert s = .next t) : StepSafe 16777215 s t := by
  have hk := Sub.refl 16777215
  unfold execSysResetAssert at e
  simp only [Host.Outcome.next.injEq] at e
  subst e
  split
  · refine moduleReset_safe ?_ ?_ ?_ ?_
    · rfl
    · exact id
    · exact id
    · exact fun _ _ => rfl
  · exact (Keeps.refl s).stepSafe

theorem execPwrGoodFall_safe {s t : State} (e : execPwrGoodFall s = .next t) : StepSafe 16777215 s t := by
  have hk := Sub.refl 16777215
  unfold execPwrGoodFall at e
  simp only [Host.Outcome.next.injEq] at e
  subst e
  split
  · refine moduleReset_safe ?_ ?_ ?_ ?_
    · rfl
    · exact id
    · exact id
    · exact fun _ _ => rfl
  · exact (Keeps.refl s).stepSafe

theorem Keeps.dieStopRecord {fm : Nat} {r s : State} (h : Keeps fm r s)
    (hm : Sub 3670464 fm := by exact Sub.of (by assumption) (by decide)) {die cause inj} :
    Keeps fm r (State.dieStopRecord s die cause inj) := by
  unfold State.dieStopRecord
  exact Keeps.raise (Keeps.setReg (Keeps.setReg h))

theorem execPllLossOfLock_safe {s t : State} (e : execPllLossOfLock s = .next t) : StepSafe 16777215 s t := by
  have hk := Sub.refl 16777215
  unfold execPllLossOfLock at e
  simp only [Host.Outcome.next.injEq] at e
  subst e
  split
  · have k : Keeps 16777215 _ _ := Keeps.dieStopRecord (Keeps.refl s) (die := 0) (cause := 0) (inj := false)
    refine StepSafe.setReg (moduleReset_safe ?_ ?_ ?_ ?_)
    · exact k.pending
    · exact fun x => k.memory x
    · exact fun x => k.regs x
    · exact fun x => (k.top x).1
  · exact (Keeps.refl s).stepSafe

/-- A device state other than RESET is entered while the reset pin is high. -/
theorem enterDev_safe {fm : Nat} {s : State} {d} (hd : s.top.safe → s.top.sysResetN = true)
    (hm : Sub 72 fm := by exact Sub.of (by assumption) (by decide)) :
    (s.enterDev d).pending = s.pending ∧ (s.Safe → (s.enterDev d).Safe) ∧ Frame fm s (s.enterDev d) := by
  have k : Keeps fm { s with top := { s.top with dev := d } } (s.enterDev d) := Keeps.setReg (Keeps.refl _)
  have g : Frame fm s { s with top := { s.top with dev := d } } := Frame.top s _
  refine ⟨rfl, fun hs => ?_, g.trans k.frame⟩
  have h0 : (State.Safe { s with top := { s.top with dev := d } }) := by
    refine ⟨hs.memory, hs.regs, hs.alloc, hs.top.1, fun y => ?_⟩
    have := hd hs.top
    rw [show s.top.sysResetN = false from y] at this
    cases this
  exact k.safe h0

theorem Keeps.enterDev {fm : Nat} {r s : State} (h : Keeps fm r s) {d} (hd : r.top.safe → s.top.sysResetN = true)
    (hv : s.top.dev.up) (hw : d.up) (hm : Sub 72 fm := by exact Sub.of (by assumption) (by decide)) : Keeps fm r (State.enterDev s d) := by
  have g : Frame fm s { s with top := { s.top with dev := d } } := Frame.top s _
  have k : Keeps fm r { s with top := { s.top with dev := d } } := by
    refine ⟨h.pending, h.memory, h.regs, h.alloc, fun x => ⟨(h.top x).1, fun y => ?_⟩, h.power, h.pin,
      DevState.keeps_trans h.dev (.inr ⟨hv, hw⟩), h.frame.trans g⟩
    have := hd x
    rw [show s.top.sysResetN = false from y] at this
    cases this
  exact Keeps.setReg k

/-- Outside RESET the reset pin of a safe state is high. -/
theorem Top.safe.high {t : Top} (h : t.safe) (hd : t.dev ≠ .reset ∨ t.resetDone = true) : t.sysResetN = true := by
  cases e : t.sysResetN with
  | true => rfl
  | false =>
    have := h.2 e
    rcases hd with hd | hd
    · exact absurd this.1 hd
    · rw [this.2] at hd; cases hd

theorem Keeps.readFuses {fm : Nat} {r s : State} (h : Keeps fm r s)
    (hm : Sub 64 fm := by exact Sub.of (by assumption) (by decide)) : Keeps fm r (State.readFuses s) := by
  unfold State.readFuses
  exact Keeps.foldl (Keeps.foldl h _ (fun _ _ h0 => Keeps.setReg h0)) _ (fun _ _ h0 => Keeps.setReg h0)

theorem Keeps.chooseDmc {fm : Nat} {r s : State} (h : Keeps fm r s)
    (hm : Sub 64 fm := by exact Sub.of (by assumption) (by decide)) {ok0 ok1} : Keeps fm r (State.chooseDmc s ok0 ok1) := by
  unfold State.chooseDmc
  dsimp only
  split
  · exact Keeps.setReg (Keeps.setReg (Keeps.setReg h))
  · exact Keeps.setCause (Keeps.setReg (Keeps.setReg (Keeps.setReg h)))

theorem Keeps.lockPll {fm : Nat} {r s : State} (h : Keeps fm r s)
    (hm : Sub 262210 fm := by exact Sub.of (by assumption) (by decide)) : Keeps fm r (State.lockPll s) := by
  unfold State.lockPll
  dsimp only
  exact Keeps.enterShared (Keeps.startDomain (Keeps.setReg (Keeps.update h)))

theorem Keeps.trainHost {fm : Nat} {r s : State} (h : Keeps fm r s)
    (hm : Sub 524352 fm := by exact Sub.of (by assumption) (by decide)) {l width rate} :
    Keeps fm r (State.trainHost s l width rate) := by
  unfold State.trainHost
  dsimp only
  split
  · exact Keeps.setCause h
  · refine Keeps.setReg (Keeps.setReg (Keeps.setReg ?_))
    split
    · exact h
    · exact Keeps.update h

theorem Keeps.stick {fm : Nat} {r s : State} (h : Keeps fm r s)
    (hm : Sub 8 fm := by exact Sub.of (by assumption) (by decide)) : Keeps fm r (State.stick s) := by
  unfold State.stick
  exact Keeps.updateTop h

theorem Keeps.carryRecord {fm : Nat} {r s : State} (h : Keeps fm r s)
    (hm : Sub 2097344 fm := by exact Sub.of (by assumption) (by decide)) : Keeps fm r (State.carryRecord s) := by
  unfold State.carryRecord
  dsimp only
  split
  · exact Keeps.update (Keeps.bump (Keeps.setBlob h))
  · exact h

theorem Keeps.loadFirmware {fm : Nat} {r s : State} (h : Keeps fm r s)
    (hm : Sub 7864780 fm := by exact Sub.of (by assumption) (by decide)) {okA okB} :
    Keeps fm r (State.loadFirmware s okA okB) := by
  unfold State.loadFirmware
  dsimp only
  split
  · split
    · split
      · split
        · exact Keeps.modFw h
        · split
          · split
            · exact Keeps.fwEvent (Keeps.setReg (Keeps.modFw (Keeps.modFw h)))
            · exact Keeps.stick (Keeps.modFw h)
          · split
            · exact Keeps.fwEvent (Keeps.setReg (Keeps.modFw (Keeps.modFw h)))
            · exact Keeps.stick (Keeps.modFw h)
      · split
        · exact Keeps.modFw h
        · split
          · split
            · exact Keeps.fwEvent (Keeps.setReg (Keeps.modFw (Keeps.modFw h)))
            · exact Keeps.stick (Keeps.modFw h)
          · split
            · exact Keeps.fwEvent (Keeps.setReg (Keeps.modFw (Keeps.modFw h)))
            · exact Keeps.stick (Keeps.modFw h)
    · split
      · split
        · exact Keeps.modFw h
        · split
          · split
            · exact Keeps.fwEvent (Keeps.setReg (Keeps.modFw (Keeps.modFw h)))
            · exact Keeps.stick (Keeps.modFw h)
          · split
            · exact Keeps.fwEvent (Keeps.setReg (Keeps.modFw (Keeps.modFw h)))
            · exact Keeps.stick (Keeps.modFw h)
      · split
        · exact Keeps.modFw h
        · split
          · split
            · exact Keeps.fwEvent (Keeps.setReg (Keeps.modFw (Keeps.modFw h)))
            · exact Keeps.stick (Keeps.modFw h)
          · split
            · exact Keeps.fwEvent (Keeps.setReg (Keeps.modFw (Keeps.modFw h)))
            · exact Keeps.stick (Keeps.modFw h)
  · split
    · split
      · split
        · exact Keeps.modFw h
        · split
          · split
            · exact Keeps.fwEvent (Keeps.setReg (Keeps.modFw (Keeps.modFw h)))
            · exact Keeps.stick (Keeps.modFw h)
          · split
            · exact Keeps.fwEvent (Keeps.setReg (Keeps.modFw (Keeps.modFw h)))
            · exact Keeps.stick (Keeps.modFw h)
      · split
        · exact Keeps.modFw h
        · split
          · split
            · exact Keeps.fwEvent (Keeps.setReg (Keeps.modFw (Keeps.modFw h)))
            · exact Keeps.stick (Keeps.modFw h)
          · split
            · exact Keeps.fwEvent (Keeps.setReg (Keeps.modFw (Keeps.modFw h)))
            · exact Keeps.stick (Keeps.modFw h)
    · split
      · split
        · exact Keeps.modFw h
        · split
          · split
            · exact Keeps.fwEvent (Keeps.setReg (Keeps.modFw (Keeps.modFw h)))
            · exact Keeps.stick (Keeps.modFw h)
          · split
            · exact Keeps.fwEvent (Keeps.setReg (Keeps.modFw (Keeps.modFw h)))
            · exact Keeps.stick (Keeps.modFw h)
      · split
        · exact Keeps.modFw h
        · split
          · split
            · exact Keeps.fwEvent (Keeps.setReg (Keeps.modFw (Keeps.modFw h)))
            · exact Keeps.stick (Keeps.modFw h)
          · split
            · exact Keeps.fwEvent (Keeps.setReg (Keeps.modFw (Keeps.modFw h)))
            · exact Keeps.stick (Keeps.modFw h)

/-- The items of RESET run while the reset pin is high. -/
theorem Keeps.startUp {fm : Nat} {r s : State} (h : Keeps fm r s) {o} (hn : s.top.sysResetN = true)
    (hm : Sub 8126926 fm := by exact Sub.of (by assumption) (by decide)) : Keeps fm r (State.startUp s o) := by
  unfold State.startUp
  extract_lets -merge -useContext +onlyGivenNames s1
  have k1 : Keeps fm r s1 := Keeps.setReg (Keeps.judgeCores (Keeps.readFuses h))
  clear_value s1
  split
  · exact Keeps.stick k1
  · extract_lets -merge -useContext +onlyGivenNames s2
    have k2 : Keeps fm r s2 := Keeps.chooseDmc k1
    clear_value s2
    split
    · exact k2
    · extract_lets -merge -useContext +onlyGivenNames s3
      have k3 : Keeps fm r s3 := Keeps.trainHost (Keeps.trainHost (Keeps.lockPll k2))
      clear_value s3
      extract_lets -merge -useContext +onlyGivenNames t
      have k : Keeps fm r t := Keeps.loadFirmware k3
      clear_value t
      split
      · exact k
      · extract_lets -merge -useContext +onlyGivenNames s4
        have k4 : Keeps fm r s4 := Keeps.loadFirmware (Keeps.carryRecord k3)
        clear_value s4
        refine ⟨k4.pending, k4.memory, k4.regs, k4.alloc, fun x => ⟨(k4.top x).1, fun y => ?_⟩, k4.power, k4.pin, k4.dev,
          k4.frame.trans (Frame.top s4 _)⟩
        have e : s4.top.sysResetN = true := k4.pin.trans (h.pin.symm.trans hn)
        rw [show s4.top.sysResetN = false from y] at e
        cases e

theorem execSysResetRelease_safe {o : StartUp} {s t : State} (e : execSysResetRelease o s = .next t) : StepSafe 16515534 s t := by
  have hk := Sub.refl 16515534
  unfold execSysResetRelease at e
  simp only [Host.Outcome.next.injEq] at e
  subst e
  split
  · exact (Keeps.refl s).stepSafe
  · have k := Keeps.startUp (fm := 16515534) (o := o) (Keeps.refl { s with
      top := { s.top with sysResetN := true, pwrGood := true }, tap := { s.tap with driving := false, released := false } }) rfl
    exact ⟨k.pending,
      fun hs => k.safe ⟨hs.memory, hs.regs, hs.alloc, fun x => (Bool.noConfusion x), fun x => (Bool.noConfusion x)⟩,
      DevState.goes_of_keeps k.dev, Frame.trans (fun f hf => by cases f <;> first | rfl | cases hf) k.frame⟩

theorem execResetComplete_safe {s t : State} (e : execResetComplete s = .next t) : StepSafe 72 s t := by
  have hk := Sub.refl 72
  unfold execResetComplete at e
  simp only [Host.Outcome.next.injEq] at e
  subst e
  split
  · next c =>
    simp only [Bool.and_eq_true, decide_eq_true_eq] at c
    have a := enterDev_safe (fm := 72) (s := s) (d := .selftest) fun x => x.high (.inr c.2)
    have k : Keeps 72 _ _ := Keeps.judgeSpares (Keeps.judgeCores (Keeps.refl (s.enterDev .selftest)))
    refine ⟨k.pending.trans a.1, fun x => k.safe (a.2.1 x), ?_, a.2.2.trans k.frame⟩
    rcases k.dev with e | ⟨e, _⟩
    · rw [e, c.1]; rfl
    · rcases e with e | e <;> cases e
  · exact (Keeps.refl s).stepSafe

theorem Keeps.testCore {fm : Nat} {r s : State} (h : Keeps fm r s)
    (hm : Sub 3670984 fm := by exact Sub.of (by assumption) (by decide)) {o p} : KeepsP fm r (State.testCore s o p) := by
  unfold State.testCore
  dsimp only
  split
  · split
    · exact Keeps.pair (Keeps.failPhys (Keeps.modCore h))
    · exact Keeps.pair (Keeps.setPhys (Keeps.passPhys (Keeps.modCore h)))
  · split
    · exact Keeps.pair (Keeps.failPhys (Keeps.modCore h))
    · exact Keeps.pair (Keeps.setPhys (Keeps.passPhys (Keeps.modCore h)))

theorem Keeps.testCores {fm : Nat} {r s : State} (h : Keeps fm r s)
    (hm : Sub 3670984 fm := by exact Sub.of (by assumption) (by decide)) {o a} : KeepsP fm r (State.testCores s o a) := by
  induction a generalizing s o with
  | nil =>
    unfold State.testCores
    exact Keeps.pair h
  | cons b l ih =>
    unfold State.testCores
    dsimp only
    exact Keeps.pair (Keeps.fst (ih (Keeps.fst (Keeps.testCore h))))

/-- TRAINING is entered from SELFTEST while the reset pin is high. -/
theorem enterTraining_safe {fm : Nat} {s : State} (hd : s.top.safe → s.top.sysResetN = true) (hs : s.top.dev = .selftest)
    (hm : Sub 72 fm := by exact Sub.of (by assumption) (by decide)) : StepSafe fm s s.enterTraining := by
  have a := enterDev_safe (fm := fm) (s := s) (d := .training) hd
  have k : Keeps fm (s.enterDev .training) s.enterTraining := by
    unfold State.enterTraining
    dsimp only
    split
    · exact Keeps.setReg (Keeps.updateTop (Keeps.refl _))
    · exact Keeps.refl _
  refine ⟨k.pending.trans a.1, fun x => k.safe (a.2.1 x), ?_, a.2.2.trans k.frame⟩
  rcases k.dev with e | ⟨e, _⟩
  · rw [e, hs]; rfl
  · rcases e with e | e <;> cases e

theorem execSelftestCompleteAll_safe {s t : State} {o} (e : execSelftestCompleteAll o s = .next t) : StepSafe 3670984 s t := by
  have hk := Sub.refl 3670984
  unfold execSelftestCompleteAll at e
  simp only [Host.Outcome.next.injEq] at e
  subst e
  split
  · exact (Keeps.refl s).stepSafe
  · next c =>
    have hd : s.top.dev = .selftest := by
      simp only [Bool.or_eq_true, decide_eq_true_eq, not_or, Decidable.not_not] at c
      exact c.1
    have hn : s.top.safe → s.top.sysResetN = true := fun x => x.high (.inl (by rw [hd]; decide))
    generalize (List.range 72).foldl (fun n p => n + (s.badBanks o p).length) 0 = fails
    have k1 : Keeps 3670984 s ((s.setReg 0x4800 4 fails).testCores o (List.range 72)).1 := Keeps.testCores (Keeps.setReg (Keeps.refl s))
    generalize (s.setReg 0x4800 4 fails).testCores o (List.range 72) = p at k1 ⊢
    obtain ⟨s1, n, w⟩ := p
    dsimp only at k1 ⊢
    generalize hv : put 7 0 n + put 15 8 w + put 23 16 o.spareSlices + put 31 24 o.block = v
    have k2 : Keeps 3670984 _ _ := Keeps.judgeCores (Keeps.judgeSpares (Keeps.setReg k1 (idx := 0x1200) (sub := 9) (v := v)))
    split
    · have e2 : (s1.setReg 0x1200 9 v).judgeSpares.judgeCores.top.dev = .selftest := by
        rcases k2.dev with e | ⟨e, _⟩
        · rw [e, hd]
        · rw [hd] at e; rcases e with e | e <;> cases e
      by_cases hx : s.top.sysResetN = true
      · have f := enterTraining_safe (fm := 3670984) (s := (s1.setReg 0x1200 9 v).judgeSpares.judgeCores)
          (fun _ => k2.pin.trans hx) e2
        exact ⟨f.pending.trans k2.pending, fun y => f.safe (k2.safe y), by rw [hd, ← e2]; exact f.dev, k2.frame.trans f.frame⟩
      · have f := enterTraining_safe (fm := 3670984) (s := (s1.setReg 0x1200 9 v).judgeSpares.judgeCores)
          (fun y => y.high (.inl (by rw [e2]; decide))) e2
        exact ⟨f.pending.trans k2.pending, fun y => f.safe (k2.safe y), by rw [hd, ← e2]; exact f.dev, k2.frame.trans f.frame⟩
    · exact (Keeps.stick k2).stepSafe

theorem Keeps.postHeldOne {fm : Nat} {r s : State} (h : Keeps fm r s)
    (hm : Sub 2621760 fm := by exact Sub.of (by assumption) (by decide)) {f r'} : Keeps fm r (State.postHeldOne s f r') := by
  unfold State.postHeldOne
  dsimp only
  split
  · exact Keeps.notePosted (Keeps.postEvent (Keeps.update h))
  · exact h

theorem Keeps.postHeld {fm : Nat} {r s : State} (h : Keeps fm r s)
    (hm : Sub 2621760 fm := by exact Sub.of (by assumption) (by decide)) {f} : Keeps fm r (State.postHeld s f) := by
  unfold State.postHeld
  split
  · exact Keeps.foldl h _ (fun _ _ h0 => Keeps.postHeldOne h0)
  · exact h

theorem Keeps.execRangeTrained {fm : Nat} {r s : State} (h : Keeps fm r s)
    (hm : Sub 3670984 fm := by exact Sub.of (by assumption) (by decide)) {u failed} :
    KeepsX fm r (execRangeTrained u failed s) := by
  unfold Sys2Proof.Machine.execRangeTrained
  dsimp only
  refine Keeps.next ?_
  split
  · exact h
  · split
    · exact Keeps.setCause (Keeps.foldl (Keeps.updateTop h) _ (fun _ _ h0 => Keeps.suspect (Keeps.setBlobBit h0)))
    · exact Keeps.foldl (Keeps.updateTop h) _ (fun _ _ h0 => Keeps.suspect (Keeps.setBlobBit h0))

theorem Keeps.execTrainingZeroFill {fm : Nat} {r s : State} (h : Keeps fm r s)
    (hm : Sub 264 fm := by exact Sub.of (by assumption) (by decide)) : KeepsX fm r (execTrainingZeroFill s) := by
  unfold Sys2Proof.Machine.execTrainingZeroFill
  refine Keeps.next ?_
  split
  · exact h
  · exact Keeps.updateTop (h.updateMem fun x => Memory.wf_filter x _)

theorem Keeps.calibrateLanes {fm : Nat} {r s : State} (h : Keeps fm r s)
    (hm : Sub 64 fm := by exact Sub.of (by assumption) (by decide)) {e dir failed} :
    Keeps fm r (State.calibrateLanes s e dir failed) := by
  unfold State.calibrateLanes
  split
  · exact h
  · split
    · exact Keeps.setLane h
    · exact h

theorem Keeps.execOpticsCalibrated {fm : Nat} {r s : State} (h : Keeps fm r s)
    (hm : Sub 72 fm := by exact Sub.of (by assumption) (by decide)) {e failTx failRx} :
    KeepsX fm r (execOpticsCalibrated e failTx failRx s) := by
  unfold Sys2Proof.Machine.execOpticsCalibrated
  dsimp only
  refine Keeps.next ?_
  split
  · exact h
  · refine Keeps.updateTop ?_
    split
    · exact Keeps.calibrateLanes (Keeps.calibrateLanes (Keeps.setEng h))
    · exact Keeps.setReg (Keeps.calibrateLanes (Keeps.calibrateLanes (Keeps.setEng h)))

theorem State.postHeld_top (s : State) (f : Nat) : (s.postHeld f).top = s.top := by
  have hk := Sub.refl 2621760
  exact (Keeps.postHeld (Keeps.refl s) (fm := 2621760)).frame .top (by decide)

theorem execReadyEntry_safe {s t : State} (e : execReadyEntry s = .next t) : StepSafe 2621768 s t := by
  have hk := Sub.refl 2621768
  unfold execReadyEntry at e
  simp only [Host.Outcome.next.injEq] at e
  subst e
  split
  · exact (Keeps.refl s).stepSafe
  · next c =>
    have hd : s.top.dev = .training := by
      simp only [Bool.or_eq_true, Bool.not_eq_true', not_or, Bool.not_eq_false, State.mayTrain, Bool.and_eq_true,
        decide_eq_true_eq] at c
      exact c.1.1
    split
    · exact (Keeps.setReg (Keeps.updateTop (Keeps.refl s))).stepSafe
    · generalize hv : (s.now - s.top.heldCycles) / usCycles 1000 = v
      have k1 : Keeps 2621768 _ _ := Keeps.setReg (Keeps.refl s) (idx := 0x1200) (sub := 8) (v := v)
      have hn : s.top.safe → (s.setReg 0x1200 8 v).top.sysResetN = true := fun x => x.high (.inl (by rw [hd]; decide))
      have a := enterDev_safe (fm := 2621768) (s := s.setReg 0x1200 8 v) (d := .ready) hn
      have h1 (x : State) (l : List Nat) : (l.foldl (fun (s : State) f => s.postHeld f) x).top = x.top := by
        induction l generalizing x with
        | nil => rfl
        | cons b l ih => exact (ih _).trans (State.postHeld_top _ _)
      have k (x : State) (y : Avail) : Keeps 2621768 x ((List.range 17).foldl (fun (s : State) f => s.postHeld f) { x with av := y }) :=
        Keeps.foldl (Keeps.update (Keeps.refl x)) _ fun _ _ k => Keeps.postHeld k
      refine ⟨(k _ _).pending.trans a.1, fun x => (k _ _).safe (a.2.1 (k1.safe x)), ?_,
        k1.frame.trans (a.2.2.trans (k _ _).frame)⟩
      rw [h1, hd]
      rfl

theorem Keeps.writeHoldPoint {fm : Nat} {r s : State} (h : Keeps fm r s)
    (hm : Sub 72 fm := by exact Sub.of (by assumption) (by decide)) {v} : Keeps fm r (State.writeHoldPoint s v) := by
  unfold State.writeHoldPoint
  dsimp only
  split
  · exact Keeps.setReg (Keeps.updateTop (Keeps.setReg h))
  · exact Keeps.setReg h

theorem Keeps.serve {fm : Nat} {r s : State} (h : Keeps fm r s) (hd : s.top.dev = .ready)
    (hm : Sub 2097224 fm := by exact Sub.of (by assumption) (by decide)) : Keeps fm r (State.serve s) := by
  unfold State.serve
  dsimp only
  refine Keeps.foldl (Keeps.setReg (Keeps.enterDev h (fun x => ((h.top x).high (.inl ?_))) (.inl hd) (.inr rfl))) _ fun _ _ k => ?_
  · rw [hd]; decide
  · exact Keeps.startTraining (Keeps.update k)

theorem Keeps.quiesce {fm : Nat} {r s : State} (h : Keeps fm r s) (hd : s.top.dev = .serving)
    (hm : Sub 2490440 fm := by exact Sub.of (by assumption) (by decide)) : Keeps fm r (State.quiesce s) := by
  unfold State.quiesce
  dsimp only
  have k := Keeps.foldl (Keeps.refl s) (List.range 24) (f := fun (s : State) e => s.linkDrop e) fun _ _ k => Keeps.linkDrop k
  have k2 (fab : Fabric) (av : Avail) : Keeps fm s
      (State.judgeLinks { (List.range 24).foldl (fun (s : State) e => s.linkDrop e) s with fab := fab, av := av }) :=
    Keeps.judgeLinks (Keeps.update k)
  refine Keeps.setReg (Keeps.enterShared (Keeps.enterDev (h.trans (k2 _ _)) (fun x => ?_) ?_ (.inl rfl)))
  · exact (k2 _ _).pin.trans ((h.top x).high (.inl (by rw [hd]; decide)))
  · rcases (k2 _ _).dev with e | ⟨_, e⟩
    · exact .inr (e.trans hd)
    · exact e

theorem Keeps.requestState {fm : Nat} {r s : State} (h : Keeps fm r s)
    (hm : Sub 2490440 fm := by exact Sub.of (by assumption) (by decide)) {v} : Keeps fm r (State.requestState s v) := by
  unfold State.requestState
  split
  · next c =>
    simp only [Bool.and_eq_true, decide_eq_true_eq] at c
    exact Keeps.serve h c.2
  · split
    · next c =>
      simp only [Bool.and_eq_true, decide_eq_true_eq, State.mayQuiesce] at c
      exact Keeps.quiesce h c.2.1.1
    · exact Keeps.setReg h

theorem Keeps.fireOne {fm : Nat} {r s : State} (h : Keeps fm r s)
    (hm : Sub 3670464 fm := by exact Sub.of (by assumption) (by decide)) {det} : Keeps fm r (State.fireOne s det) := by
  unfold State.fireOne
  dsimp only
  split
  · split
    · exact Keeps.blockedEvent (Keeps.bump (Keeps.consume h))
    · exact Keeps.blockedEvent (Keeps.consume h)
  · split
    · exact Keeps.failover (Keeps.consume h)
    · split
      · exact Keeps.dieStopRecord (Keeps.consume h)
      · exact h

theorem Keeps.fire {fm : Nat} {r a' : State} (h : Keeps fm r a')
    (hm : Sub 3670464 fm := by exact Sub.of (by assumption) (by decide)) {a a''} : Keeps fm r (State.fire a a' a'') := by
  induction a generalizing a' a'' with
  | zero =>
    unfold State.fire
    exact h
  | succ m ih =>
    unfold State.fire
    exact ih (Keeps.fireOne h)

theorem Keeps.arm {fm : Nat} {r s : State} (h : Keeps fm r s)
    (hm : Sub 3670464 fm := by exact Sub.of (by assumption) (by decide)) {det v} : Keeps fm r (State.arm s det v) := by
  unfold State.arm
  dsimp only
  split
  · exact h
  · exact Keeps.fire (Keeps.setReg h)

theorem Keeps.tapLoad {fm : Nat} {r s : State} (h : Keeps fm r s)
    (hm : Sub 8388608 fm := by exact Sub.of (by assumption) (by decide)) {code} : Keeps fm r (State.tapLoad s code) := by
  unfold State.tapLoad
  dsimp only
  split
  · exact h
  · exact Keeps.update h

theorem Keeps.execTapReset {fm : Nat} {r s : State} (h : Keeps fm r s)
    (hm : Sub 8388608 fm := by exact Sub.of (by assumption) (by decide)) : KeepsX fm r (execTapReset s) := by
  unfold Sys2Proof.Machine.execTapReset
  dsimp only
  refine Keeps.next ?_
  split
  · exact Keeps.update h
  · exact h

theorem Keeps.execBypass {fm : Nat} {r s : State} (h : Keeps fm r s)
    (hm : Sub 8388608 fm := by exact Sub.of (by assumption) (by decide)) : KeepsX fm r (execBypass s) := by
  unfold Sys2Proof.Machine.execBypass
  exact Keeps.next (Keeps.tapLoad h)

theorem Keeps.execIdcode {fm : Nat} {r s : State} (h : Keeps fm r s)
    (hm : Sub 8388608 fm := by exact Sub.of (by assumption) (by decide)) : KeepsX fm r (execIdcode s) := by
  unfold Sys2Proof.Machine.execIdcode
  exact Keeps.next (Keeps.tapLoad h)

theorem Keeps.execSamplePreload {fm : Nat} {r s : State} (h : Keeps fm r s)
    (hm : Sub 8388608 fm := by exact Sub.of (by assumption) (by decide)) {bits} :
    KeepsX fm r (execSamplePreload bits s) := by
  unfold Sys2Proof.Machine.execSamplePreload
  dsimp only
  refine Keeps.next ?_
  split
  · exact Keeps.update (Keeps.tapLoad h)
  · exact h

theorem Keeps.execExtest {fm : Nat} {r s : State} (h : Keeps fm r s)
    (hm : Sub 8388608 fm := by exact Sub.of (by assumption) (by decide)) : KeepsX fm r (execExtest s) := by
  unfold Sys2Proof.Machine.execExtest
  exact Keeps.next (Keeps.tapLoad h)

theorem Keeps.execClamp {fm : Nat} {r s : State} (h : Keeps fm r s)
    (hm : Sub 8388608 fm := by exact Sub.of (by assumption) (by decide)) : KeepsX fm r (execClamp s) := by
  unfold Sys2Proof.Machine.execClamp
  exact Keeps.next (Keeps.tapLoad h)

theorem Keeps.execHighz {fm : Nat} {r s : State} (h : Keeps fm r s)
    (hm : Sub 8388608 fm := by exact Sub.of (by assumption) (by decide)) : KeepsX fm r (execHighz s) := by
  unfold Sys2Proof.Machine.execHighz
  exact Keeps.next (Keeps.tapLoad h)

theorem Keeps.passCycle {fm : Nat} {r s : State} (h : Keeps fm r s)
    (hm : Sub 66 fm := by exact Sub.of (by assumption) (by decide)) : Keeps fm r (State.passCycle s) := by
  unfold State.passCycle
  dsimp only
  split
  · exact h
  · split
    · exact Keeps.update h
    · refine Keeps.foldl (Keeps.update h) _ ?_
      intro x0 a0 h0
      split
      · exact Keeps.bump h0
      · exact h0

end Sys2Proof.Machine
end

