-- ==== Sys2Proof/Laws/Keeps/DictView.lean ====
section
/-! SUPPORT. What the operations of Machine/DictView.lean keep. -/

set_option Elab.async false

namespace Sys2Proof.Machine

theorem Keeps.clearRead {fm : Nat} {r s : State} (h : Keeps fm r s)
    (hm : Sub 65600 fm := by exact Sub.of (by assumption) (by decide)) {acc idx sub} :
    Keeps fm r (State.clearRead s acc idx sub) := by
  unfold State.clearRead
  dsimp only
  split
  · exact Keeps.update h
  · exact Keeps.setReg h

theorem Keeps.readEntry {fm : Nat} {r s : State} (h : Keeps fm r s)
    (hm : Sub 66112 fm := by exact Sub.of (by assumption) (by decide)) {acc idx sub offset len} :
    KeepsP fm r (State.readEntry s acc idx sub offset len) := by
  unfold State.readEntry
  dsimp only
  split
  · exact Keeps.pair h
  · split
    · exact Keeps.pair (Keeps.deny h)
    · split
      · split
        · exact Keeps.pair (Keeps.busyAll h)
        · refine Keeps.pair ?_
          split
          · exact Keeps.clearRead (Keeps.busyAll h)
          · exact Keeps.busyAll h
      · split
        · exact Keeps.pair h
        · refine Keeps.pair ?_
          split
          · exact Keeps.clearRead h
          · exact h

end Sys2Proof.Machine
end

