-- ==== Sys2Proof/Laws/Keeps/Dictionary.lean ====
section
/-! SUPPORT. What the operations of Machine/Dictionary.lean keep. -/

set_option Elab.async false

namespace Sys2Proof.Machine

theorem Keeps.draw {fm : Nat} {r s : State} (h : Keeps fm r s)
    (hm : Sub 4 fm := by exact Sub.of (by assumption) (by decide)) : KeepsP fm r (State.draw s) := by
  unfold State.draw
  exact Keeps.pair (Keeps.update h)

theorem Keeps.serviceOp {fm : Nat} {r s : State} (h : Keeps fm r s)
    (hm : Sub 8024044 fm := by exact Sub.of (by assumption) (by decide)) {v e} : Keeps fm r (State.serviceOp s v e) := by
  unfold State.serviceOp
  split
  · exact Keeps.serviceStatus h
  · split
    · exact Keeps.beginHandover h
    · exact Keeps.beginHandover h
    · exact Keeps.beginSelftest h
    · exact Keeps.retireCore h
    · exact Keeps.clearFuses h
    · exact Keeps.switchDmcs h
    · split
      · exact Keeps.serviceActivate h
      · exact Keeps.serviceActivate (Keeps.fst (Keeps.draw h))
    · exact h

theorem Keeps.repairOp {fm : Nat} {r s : State} (h : Keeps fm r s)
    (hm : Sub 3686848 fm := by exact Sub.of (by assumption) (by decide)) {v} :
    Keeps fm r (Sys2Proof.Machine.State.repairOp s v) := by
  unfold Sys2Proof.Machine.State.repairOp
  split
  · exact Keeps.rowRepair h
  · exact Keeps.pageRemap h
  · exact Keeps.querySpares h
  · exact Keeps.clearSuspect h
  · exact h

theorem Keeps.mapoutOp {fm : Nat} {r s : State} (h : Keeps fm r s)
    (hm : Sub 16448 fm := by exact Sub.of (by assumption) (by decide)) {v} : Keeps fm r (State.mapoutOp s v) := by
  unfold State.mapoutOp
  split
  · exact Keeps.planReflow h
  · exact Keeps.startReflow h
  · exact Keeps.cancelPlan h
  · exact h

theorem Keeps.partitionOp {fm : Nat} {r s : State} (h : Keeps fm r s)
    (hm : Sub 4190180 fm := by exact Sub.of (by assumption) (by decide)) {v} : Keeps fm r (State.partitionOp s v) := by
  unfold State.partitionOp
  dsimp only
  split
  · exact Keeps.createPartition h
  · exact Keeps.tearDown h
  · exact h

theorem Keeps.writeGating {fm : Nat} {r s : State} (h : Keeps fm r s)
    (hm : Sub 576 fm := by exact Sub.of (by assumption) (by decide)) {v} : Keeps fm r (State.writeGating s v) := by
  unfold State.writeGating
  dsimp only
  split
  · exact Keeps.setReg h
  · exact Keeps.foldl (Keeps.setReg h) _ (fun _ _ h0 => Keeps.modCore h0)

theorem Keeps.act {fm : Nat} {r s : State} (h : Keeps fm r s)
    (hm : Sub 8384508 fm := by exact Sub.of (by assumption) (by decide)) {acc idx sub offset bytes e} :
    Keeps fm r (State.act s acc idx sub offset bytes e) := by
  unfold State.act
  dsimp only
  split
  · exact Keeps.requestState h
  · exact Keeps.writeHoldPoint h
  · exact Keeps.setBudget (Keeps.setReg h)
  · exact Keeps.writeGating h
  · exact Keeps.repairOp h
  · exact Keeps.mapoutOp h
  · exact Keeps.portShift h
  · exact Keeps.writeSharedTick h
  · exact Keeps.writeStepClose h
  · exact Keeps.partitionOp h
  · exact Keeps.takeSnapshot (Keeps.setAreg h)
  · exact Keeps.writeLinkEnable h
  · exact Keeps.writeRoutes h
  · exact Keeps.serviceOp h
  · split
    · split
      · exact Keeps.writeStackEnable h
      · exact Keeps.writeOutRing h
    · split
      · exact Keeps.writeStartMode h
      · split
        · exact Keeps.setReg h
        · split
          · exact Keeps.arm h
          · split
            · exact Keeps.postHeld (Keeps.setReg h)
            · exact Keeps.writeEnable h

theorem Keeps.storeEntry {fm : Nat} {r s : State} (h : Keeps fm r s)
    (hm : Sub 524480 fm := by exact Sub.of (by assumption) (by decide)) {acc idx sub offset bytes} :
    Keeps fm r (State.storeEntry s acc idx sub offset bytes) := by
  unfold State.storeEntry
  split
  · exact h
  · split
    · exact h
    · split
      · exact Keeps.setBlob h
      · split
        · exact Keeps.setBlob h
        · split
          · exact Keeps.setAreg h
          · split
            · exact Keeps.setReg (Keeps.moveRecs h)
            · exact Keeps.setReg h

theorem Keeps.storeItem {fm : Nat} {r s : State} (h : Keeps fm r s)
    (hm : Sub 524480 fm := by exact Sub.of (by assumption) (by decide)) {i} : Keeps fm r (State.storeItem s i) := by
  unfold State.storeItem
  split
  · exact Keeps.storeEntry h
  · exact h

theorem Keeps.actItem {fm : Nat} {r s : State} (h : Keeps fm r s)
    (hm : Sub 8384508 fm := by exact Sub.of (by assumption) (by decide)) {e i} : Keeps fm r (State.actItem s e i) := by
  unfold State.actItem
  split
  · split
    · exact Keeps.act h
    · exact h
  · exact h

theorem Keeps.endSluice {fm : Nat} {r s : State} (h : Keeps fm r s)
    (hm : Sub 557120 fm := by exact Sub.of (by assumption) (by decide)) {acc status} :
    Keeps fm r (State.endSluice s acc status) := by
  unfold State.endSluice
  exact Keeps.dropSluice h

theorem Keeps.routesOpened {fm : Nat} {r s : State} (h : Keeps fm r s)
    (hm : Sub 131136 fm := by exact Sub.of (by assumption) (by decide)) {old items} :
    Keeps fm r (Sys2Proof.Machine.State.routesOpened s old items) := by
  unfold Sys2Proof.Machine.State.routesOpened
  dsimp only
  split
  · exact h
  · exact Keeps.routesChanged h

theorem Keeps.finishDict {fm : Nat} {r s : State} (h : Keeps fm r s)
    (hm : Sub 8384508 fm := by exact Sub.of (by assumption) (by decide)) {acc items e} :
    Keeps fm r (State.finishDict s acc items e) := by
  unfold State.finishDict
  dsimp only
  refine Keeps.routesOpened (Keeps.foldl ?_ _ (fun _ _ h0 => Keeps.actItem h0))
  split
  · exact Keeps.setAreg (Keeps.endSluice (Keeps.foldl h _ (fun _ _ h0 => Keeps.storeItem h0)))
  · exact Keeps.foldl h _ (fun _ _ h0 => Keeps.storeItem h0)

theorem Keeps.dictReply {fm : Nat} {r s : State} (h : Keeps fm r s)
    (hm : Sub 1572864 fm := by exact Sub.of (by assumption) (by decide)) {acc res} :
    Keeps fm r (State.dictReply s acc res) := by
  unfold State.dictReply
  dsimp only
  split
  · exact Keeps.setMailbox h
  · split
    · exact Keeps.update h
    · exact h

theorem Keeps.decideDict {fm : Nat} {r s : State} (h : Keeps fm r s)
    (hm : Sub 8384508 fm := by exact Sub.of (by assumption) (by decide)) {acc g e} :
    KeepsP fm r (State.decideDict s acc g e) := by
  unfold State.decideDict
  dsimp only
  split
  · exact Keeps.pair h
  · split
    · exact Keeps.pair (Keeps.decideGroup h)
    · exact Keeps.pair (Keeps.finishDict (Keeps.decideGroup h))

theorem Keeps.dictGroup {fm : Nat} {r s : State} (h : Keeps fm r s)
    (hm : Sub 32832 fm := by exact Sub.of (by assumption) (by decide)) {acc items} :
    KeepsP fm r (State.dictGroup s acc items) := by
  unfold State.dictGroup
  exact Keeps.pair (Keeps.foldl (Keeps.fst (Keeps.beginGroup h)) _ (fun _ _ h0 => Keeps.addItem h0))

theorem Keeps.stageWrite {fm : Nat} {r s : State} (h : Keeps fm r s)
    (hm : Sub 32832 fm := by exact Sub.of (by assumption) (by decide)) {acc idx sub offset bytes} :
    Keeps fm r (State.stageWrite s acc idx sub offset bytes) := by
  unfold State.stageWrite
  dsimp only
  split
  · exact h
  · exact Keeps.setAreg (Keeps.update h)

theorem Keeps.commitSluice {fm : Nat} {r s : State} (h : Keeps fm r s)
    (hm : Sub 8384508 fm := by exact Sub.of (by assumption) (by decide)) {acc d} :
    KeepsP fm r (State.commitSluice s acc d) := by
  unfold State.commitSluice
  dsimp only
  split
  · exact Keeps.pair (Keeps.endSluice h)
  · split
    · exact Keeps.pair (Keeps.endSluice h)
    · split
      · exact Keeps.pair (Keeps.endSluice (Keeps.foldl (Keeps.modGroup h) _ (fun _ _ h0 => Keeps.addItem h0)))
      · exact Keeps.decideDict (Keeps.foldl (Keeps.modGroup h) _ (fun _ _ h0 => Keeps.addItem h0))

theorem Keeps.beginSluice {fm : Nat} {r s : State} (h : Keeps fm r s)
    (hm : Sub 32768 fm := by exact Sub.of (by assumption) (by decide)) {acc} :
    KeepsP fm r (Sys2Proof.Machine.State.beginSluice s acc) := by
  unfold Sys2Proof.Machine.State.beginSluice
  dsimp only
  refine Keeps.pair ?_
  split
  · exact Keeps.fst (Keeps.beginGroup h)
  · exact Keeps.modGroup (Keeps.fst (Keeps.beginGroup h))

theorem Keeps.sluiceWrite {fm : Nat} {r s : State} (h : Keeps fm r s)
    (hm : Sub 8384508 fm := by exact Sub.of (by assumption) (by decide)) {acc sub v} :
    KeepsP fm r (State.sluiceWrite s acc sub v) := by
  unfold State.sluiceWrite
  dsimp only
  split
  · exact Keeps.pair h
  · split
    · exact Keeps.pair (Keeps.setAreg (Keeps.setAreg (Keeps.update (Keeps.fst (Keeps.beginSluice h)))))
    · exact Keeps.commitSluice h
    · exact Keeps.pair (Keeps.endSluice h)
    · exact Keeps.pair h

theorem Keeps.execDictSluiceTimeout {fm : Nat} {r s : State} (h : Keeps fm r s)
    (hm : Sub 557120 fm := by exact Sub.of (by assumption) (by decide)) {acc} :
    KeepsX fm r (execDictSluiceTimeout acc s) := by
  unfold Sys2Proof.Machine.execDictSluiceTimeout
  refine Keeps.next ?_
  split
  · split
    · exact Keeps.endSluice h
    · exact h
  · exact h

theorem Keeps.writeEntry {fm : Nat} {r s : State} (h : Keeps fm r s)
    (hm : Sub 8384508 fm := by exact Sub.of (by assumption) (by decide)) {acc idx sub offset bytes e} :
    KeepsP fm r (State.writeEntry s acc idx sub offset bytes e) := by
  unfold State.writeEntry
  dsimp only
  split
  · exact Keeps.pair h
  · split
    · exact Keeps.pair (Keeps.deny h)
    · split
      · exact Keeps.pair h
      · split
        · exact Keeps.sluiceWrite h
        · split
          · exact Keeps.pair (Keeps.stageWrite h)
          · split
            · exact Keeps.pair h
            · split
              · exact Keeps.pair h
              · exact Keeps.decideDict (Keeps.fst (Keeps.dictGroup h))

theorem Keeps.dictWrite {fm : Nat} {r s : State} (h : Keeps fm r s)
    (hm : Sub 8384508 fm := by exact Sub.of (by assumption) (by decide)) {acc idx sub offset bytes e} :
    Keeps fm r (State.dictWrite s acc idx sub offset bytes e) := by
  unfold State.dictWrite
  dsimp only
  split
  · exact h
  · split
    · exact Keeps.answer (Keeps.fst (Keeps.writeEntry h))
    · exact Keeps.fst (Keeps.writeEntry h)

theorem Keeps.scalarWrite {fm : Nat} {r s : State} (h : Keeps fm r s)
    (hm : Sub 8384508 fm := by exact Sub.of (by assumption) (by decide)) {acc idx sub v e} :
    Keeps fm r (State.scalarWrite s acc idx sub v e) := by
  unfold State.scalarWrite
  split
  · exact Keeps.dictWrite h
  · exact h

theorem Keeps.dictRead {fm : Nat} {r s : State} (h : Keeps fm r s)
    (hm : Sub 590400 fm := by exact Sub.of (by assumption) (by decide)) {acc idx sub offset len} :
    Keeps fm r (State.dictRead s acc idx sub offset len) := by
  unfold State.dictRead
  dsimp only
  split
  · exact h
  · split
    · exact Keeps.answer (Keeps.fst (Keeps.readEntry h))
    · exact Keeps.fst (Keeps.readEntry h)

theorem Keeps.wholeRead {fm : Nat} {r s : State} (h : Keeps fm r s)
    (hm : Sub 590400 fm := by exact Sub.of (by assumption) (by decide)) {acc idx sub} :
    Keeps fm r (State.wholeRead s acc idx sub) := by
  unfold State.wholeRead
  exact Keeps.dictRead h

theorem Keeps.answerFree {fm : Nat} {r s : State} (h : Keeps fm r s)
    (hm : Sub 524292 fm := by exact Sub.of (by assumption) (by decide)) {acc} :
    Keeps fm r (Sys2Proof.Machine.State.answerFree s acc) := by
  unfold Sys2Proof.Machine.State.answerFree
  split
  · exact h
  · exact Keeps.answer (Keeps.fst (Keeps.draw h))

theorem Keeps.respond {fm : Nat} {r s : State} (h : Keeps fm r s)
    (hm : Sub 1048576 fm := by exact Sub.of (by assumption) (by decide)) {l} : Keeps fm r (State.respond s l) := by
  unfold State.respond
  exact Keeps.update h

theorem Keeps.mctpServe {fm : Nat} {r s : State} (h : Keeps fm r s)
    (hm : Sub 8384508 fm := by exact Sub.of (by assumption) (by decide)) {r'} : Keeps fm r (State.mctpServe s r') := by
  unfold State.mctpServe
  dsimp only
  split
  · exact Keeps.respond (Keeps.fst (Keeps.draw h))
  · split
    · exact Keeps.respond (Keeps.fst (Keeps.readEntry h))
    · split
      · exact Keeps.update (Keeps.fst (Keeps.writeEntry h))
      · exact Keeps.respond (Keeps.fst (Keeps.writeEntry h))

theorem Keeps.mctpPump {fm : Nat} {r s : State} (h : Keeps fm r s)
    (hm : Sub 8384508 fm := by exact Sub.of (by assumption) (by decide)) : Keeps fm r (State.mctpPump s) := by
  unfold State.mctpPump
  dsimp only
  refine Keeps.foldl h _ ?_
  intro x0 a0 h0
  split
  · split
    · exact h0
    · exact Keeps.mctpServe (Keeps.update h0)
  · exact h0

theorem Keeps.afterGroup {fm : Nat} {r s : State} (h : Keeps fm r s)
    (hm : Sub 8384508 fm := by exact Sub.of (by assumption) (by decide)) {x opened} :
    Keeps fm r (State.afterGroup s x opened) := by
  unfold State.afterGroup
  dsimp only
  split
  · split
    · exact Keeps.dictReply (Keeps.finishDict h)
    · refine Keeps.dictReply ?_
      split
      · exact Keeps.endSluice h
      · exact h
  · exact Keeps.openArrived h
  · exact h

theorem Keeps.markAndFollow {fm : Nat} {r s : State} (h : Keeps fm r s)
    (hm : Sub 8384508 fm := by exact Sub.of (by assumption) (by decide)) {x} : Keeps fm r (State.markAndFollow s x) := by
  unfold State.markAndFollow
  dsimp only
  split
  · exact Keeps.markGroup h
  · exact Keeps.afterGroup (Keeps.markGroup h)

theorem Keeps.failPrepared {fm : Nat} {r s : State} (h : Keeps fm r s)
    (hm : Sub 8384508 fm := by exact Sub.of (by assumption) (by decide)) {x} : Keeps fm r (State.failPrepared s x) := by
  unfold State.failPrepared
  dsimp only
  split
  · exact Keeps.produce (Keeps.afterGroup (Keeps.discardGroup h))
  · exact Keeps.afterGroup (Keeps.discardGroup h)

theorem Keeps.execPrepareAnswer {fm : Nat} {r s : State} (h : Keeps fm r s)
    (hm : Sub 8384508 fm := by exact Sub.of (by assumption) (by decide)) {g} : KeepsX fm r (execPrepareAnswer g s) := by
  unfold Sys2Proof.Machine.execPrepareAnswer
  refine Keeps.next ?_
  split
  · exact h
  · split
    · refine Keeps.mctpPump (Keeps.tearSettle (Keeps.settleOps ?_))
      split
      · exact Keeps.decideBatch h
      · exact Keeps.decideJob h
      · split
        · exact Keeps.markAndFollow h
        · exact Keeps.failPrepared h
    · exact h

theorem Keeps.markJob {fm : Nat} {r s : State} (h : Keeps fm r s)
    (hm : Sub 1044448 fm := by exact Sub.of (by assumption) (by decide)) {j} : Keeps fm r (State.markJob s j) := by
  unfold State.markJob
  split
  · exact Keeps.openJob (Keeps.ofPair (by assumption) (Keeps.askMarks h))
  · exact Keeps.ofPair (by assumption) (Keeps.askMarks h)

theorem Keeps.execMarkRequest {fm : Nat} {r s : State} (h : Keeps fm r s)
    (hm : Sub 8384508 fm := by exact Sub.of (by assumption) (by decide)) {g} : KeepsX fm r (execMarkRequest g s) := by
  unfold Sys2Proof.Machine.execMarkRequest
  refine Keeps.next ?_
  split
  · exact h
  · split
    · exact h
    · refine Keeps.mctpPump (Keeps.tearSettle (Keeps.settleOps ?_))
      split
      · exact Keeps.markBatch h
      · exact Keeps.markJob h
      · exact Keeps.markAndFollow h

theorem Keeps.beginQueued {fm : Nat} {r s : State} (h : Keeps fm r s)
    (hm : Sub 8384508 fm := by exact Sub.of (by assumption) (by decide)) {d} :
    Keeps fm r (Sys2Proof.Machine.State.beginQueued s d) := by
  unfold Sys2Proof.Machine.State.beginQueued
  dsimp only
  split
  · exact h
  · split
    · exact h
    · split
      · exact Keeps.modGroup h
      · split
        · exact Keeps.decideGroup (Keeps.modGroup h)
        · exact Keeps.afterGroup (Keeps.decideGroup (Keeps.modGroup h))

theorem Keeps.execStagingResume {fm : Nat} {r s : State} (h : Keeps fm r s)
    (hm : Sub 8384508 fm := by exact Sub.of (by assumption) (by decide)) {d} :
    KeepsX fm r (Sys2Proof.Machine.execStagingResume d s) := by
  unfold Sys2Proof.Machine.execStagingResume
  exact Keeps.next (Keeps.mctpPump (Keeps.tearSettle (Keeps.settleOps (Keeps.openArrived (Keeps.beginQueued (Keeps.resumeStaging h))))))

end Sys2Proof.Machine
end

