-- ==== Sys2Proof/Laws/Keeps/DictRows.lean ====
section
/-! SUPPORT. What the operations of Machine/DictRows.lean keep. -/

set_option Elab.async false

namespace Sys2Proof.Machine

theorem Keeps.execHoldPointWrite {fm : Nat} {r s : State} (h : Keeps fm r s)
    (hm : Sub 8384508 fm := by exact Sub.of (by assumption) (by decide)) {acc v} :
    KeepsX fm r (execHoldPointWrite acc v s) := by
  unfold Sys2Proof.Machine.execHoldPointWrite
  exact Keeps.next (Keeps.scalarWrite h)

theorem Keeps.execServe {fm : Nat} {r s : State} (h : Keeps fm r s)
    (hm : Sub 8384508 fm := by exact Sub.of (by assumption) (by decide)) {acc} : KeepsX fm r (execServe acc s) := by
  unfold Sys2Proof.Machine.execServe
  exact Keeps.next (Keeps.scalarWrite h)

theorem Keeps.execQuiesce {fm : Nat} {r s : State} (h : Keeps fm r s)
    (hm : Sub 8384508 fm := by exact Sub.of (by assumption) (by decide)) {acc} : KeepsX fm r (execQuiesce acc s) := by
  unfold Sys2Proof.Machine.execQuiesce
  exact Keeps.next (Keeps.scalarWrite h)

theorem Keeps.execPackageBudgetWrite {fm : Nat} {r s : State} (h : Keeps fm r s)
    (hm : Sub 8384508 fm := by exact Sub.of (by assumption) (by decide)) {acc v} :
    KeepsX fm r (execPackageBudgetWrite acc v s) := by
  unfold Sys2Proof.Machine.execPackageBudgetWrite
  exact Keeps.next (Keeps.scalarWrite h)

theorem Keeps.execStackEnableWrite {fm : Nat} {r s : State} (h : Keeps fm r s)
    (hm : Sub 8384508 fm := by exact Sub.of (by assumption) (by decide)) {acc stack v} :
    KeepsX fm r (execStackEnableWrite acc stack v s) := by
  unfold Sys2Proof.Machine.execStackEnableWrite
  exact Keeps.next (Keeps.scalarWrite h)

theorem Keeps.execOutHeadWrite {fm : Nat} {r s : State} (h : Keeps fm r s)
    (hm : Sub 8384508 fm := by exact Sub.of (by assumption) (by decide)) {acc stack v} :
    KeepsX fm r (execOutHeadWrite acc stack v s) := by
  unfold Sys2Proof.Machine.execOutHeadWrite
  exact Keeps.next (Keeps.scalarWrite h)

theorem Keeps.execOutRingConfigWrite {fm : Nat} {r s : State} (h : Keeps fm r s)
    (hm : Sub 8384508 fm := by exact Sub.of (by assumption) (by decide)) {acc stack sub v} :
    KeepsX fm r (execOutRingConfigWrite acc stack sub v s) := by
  unfold Sys2Proof.Machine.execOutRingConfigWrite
  exact Keeps.next (Keeps.scalarWrite h)

theorem Keeps.execDomainStopRequest {fm : Nat} {r s : State} (h : Keeps fm r s)
    (hm : Sub 8384508 fm := by exact Sub.of (by assumption) (by decide)) {acc domain} :
    KeepsX fm r (execDomainStopRequest acc domain s) := by
  unfold Sys2Proof.Machine.execDomainStopRequest
  exact Keeps.next (Keeps.scalarWrite h)

theorem Keeps.execDomainArmPps {fm : Nat} {r s : State} (h : Keeps fm r s)
    (hm : Sub 8384508 fm := by exact Sub.of (by assumption) (by decide)) {acc domain} :
    KeepsX fm r (execDomainArmPps acc domain s) := by
  unfold Sys2Proof.Machine.execDomainArmPps
  exact Keeps.next (Keeps.scalarWrite h)

theorem Keeps.execDomainArmAt {fm : Nat} {r s : State} (h : Keeps fm r s)
    (hm : Sub 8384508 fm := by exact Sub.of (by assumption) (by decide)) {acc domain} :
    KeepsX fm r (execDomainArmAt acc domain s) := by
  unfold Sys2Proof.Machine.execDomainArmAt
  exact Keeps.next (Keeps.scalarWrite h)

theorem Keeps.execSharedTickWrite {fm : Nat} {r s : State} (h : Keeps fm r s)
    (hm : Sub 8384508 fm := by exact Sub.of (by assumption) (by decide)) {acc v} :
    KeepsX fm r (execSharedTickWrite acc v s) := by
  unfold Sys2Proof.Machine.execSharedTickWrite
  exact Keeps.next (Keeps.scalarWrite h)

theorem Keeps.execTableDescriptorWrite {fm : Nat} {r s : State} (h : Keeps fm r s)
    (hm : Sub 8384508 fm := by exact Sub.of (by assumption) (by decide)) {acc offset bytes} :
    KeepsX fm r (execTableDescriptorWrite acc offset bytes s) := by
  unfold Sys2Proof.Machine.execTableDescriptorWrite
  exact Keeps.next (Keeps.dictWrite h)

theorem Keeps.execHotListRead {fm : Nat} {r s : State} (h : Keeps fm r s)
    (hm : Sub 590400 fm := by exact Sub.of (by assumption) (by decide)) {acc} : KeepsX fm r (execHotListRead acc s) := by
  unfold Sys2Proof.Machine.execHotListRead
  exact Keeps.next (Keeps.wholeRead h)

theorem Keeps.execMapoutAdd {fm : Nat} {r s : State} (h : Keeps fm r s)
    (hm : Sub 8384508 fm := by exact Sub.of (by assumption) (by decide)) {acc v} : KeepsX fm r (execMapoutAdd acc v s) := by
  unfold Sys2Proof.Machine.execMapoutAdd
  exact Keeps.next (Keeps.scalarWrite h)

theorem Keeps.execMapoutRemove {fm : Nat} {r s : State} (h : Keeps fm r s)
    (hm : Sub 8384508 fm := by exact Sub.of (by assumption) (by decide)) {acc v} :
    KeepsX fm r (execMapoutRemove acc v s) := by
  unfold Sys2Proof.Machine.execMapoutRemove
  exact Keeps.next (Keeps.scalarWrite h)

theorem Keeps.execStepCloseWrite {fm : Nat} {r s : State} (h : Keeps fm r s)
    (hm : Sub 8384508 fm := by exact Sub.of (by assumption) (by decide)) {acc v} :
    KeepsX fm r (execStepCloseWrite acc v s) := by
  unfold Sys2Proof.Machine.execStepCloseWrite
  exact Keeps.next (Keeps.scalarWrite h)

theorem Keeps.execSluiceBegin {fm : Nat} {r s : State} (h : Keeps fm r s)
    (hm : Sub 8384508 fm := by exact Sub.of (by assumption) (by decide)) {acc v} :
    KeepsX fm r (execSluiceBegin acc v s) := by
  unfold Sys2Proof.Machine.execSluiceBegin
  exact Keeps.next (Keeps.scalarWrite h)

theorem Keeps.execSluiceCommit {fm : Nat} {r s : State} (h : Keeps fm r s)
    (hm : Sub 8384508 fm := by exact Sub.of (by assumption) (by decide)) {acc v} :
    KeepsX fm r (execSluiceCommit acc v s) := by
  unfold Sys2Proof.Machine.execSluiceCommit
  exact Keeps.next (Keeps.scalarWrite h)

theorem Keeps.execSluiceAbort {fm : Nat} {r s : State} (h : Keeps fm r s)
    (hm : Sub 8384508 fm := by exact Sub.of (by assumption) (by decide)) {acc v} :
    KeepsX fm r (execSluiceAbort acc v s) := by
  unfold Sys2Proof.Machine.execSluiceAbort
  exact Keeps.next (Keeps.scalarWrite h)

theorem Keeps.execRowRepair {fm : Nat} {r s : State} (h : Keeps fm r s)
    (hm : Sub 8384508 fm := by exact Sub.of (by assumption) (by decide)) {acc} : KeepsX fm r (execRowRepair acc s) := by
  unfold Sys2Proof.Machine.execRowRepair
  exact Keeps.next (Keeps.scalarWrite h)

theorem Keeps.execPageRemap {fm : Nat} {r s : State} (h : Keeps fm r s)
    (hm : Sub 8384508 fm := by exact Sub.of (by assumption) (by decide)) {acc} : KeepsX fm r (execPageRemap acc s) := by
  unfold Sys2Proof.Machine.execPageRemap
  exact Keeps.next (Keeps.scalarWrite h)

theorem Keeps.execQuerySpares {fm : Nat} {r s : State} (h : Keeps fm r s)
    (hm : Sub 8384508 fm := by exact Sub.of (by assumption) (by decide)) {acc} :
    KeepsX fm r (Sys2Proof.Machine.execQuerySpares acc s) := by
  unfold Sys2Proof.Machine.execQuerySpares
  exact Keeps.next (Keeps.scalarWrite h)

theorem Keeps.execClearSuspect {fm : Nat} {r s : State} (h : Keeps fm r s)
    (hm : Sub 8384508 fm := by exact Sub.of (by assumption) (by decide)) {acc} : KeepsX fm r (execClearSuspect acc s) := by
  unfold Sys2Proof.Machine.execClearSuspect
  exact Keeps.next (Keeps.scalarWrite h)

theorem Keeps.execPlan {fm : Nat} {r s : State} (h : Keeps fm r s)
    (hm : Sub 8384508 fm := by exact Sub.of (by assumption) (by decide)) {acc} : KeepsX fm r (execPlan acc s) := by
  unfold Sys2Proof.Machine.execPlan
  exact Keeps.next (Keeps.scalarWrite h)

theorem Keeps.execStart {fm : Nat} {r s : State} (h : Keeps fm r s)
    (hm : Sub 8384508 fm := by exact Sub.of (by assumption) (by decide)) {acc} : KeepsX fm r (execStart acc s) := by
  unfold Sys2Proof.Machine.execStart
  exact Keeps.next (Keeps.scalarWrite h)

theorem Keeps.execCancel {fm : Nat} {r s : State} (h : Keeps fm r s)
    (hm : Sub 8384508 fm := by exact Sub.of (by assumption) (by decide)) {acc} : KeepsX fm r (execCancel acc s) := by
  unfold Sys2Proof.Machine.execCancel
  exact Keeps.next (Keeps.scalarWrite h)

theorem Keeps.execPortDrWrite {fm : Nat} {r s : State} (h : Keeps fm r s)
    (hm : Sub 8384508 fm := by exact Sub.of (by assumption) (by decide)) {acc offset bytes} :
    KeepsX fm r (Sys2Proof.Machine.execPortDrWrite acc offset bytes s) := by
  unfold Sys2Proof.Machine.execPortDrWrite
  exact Keeps.next (Keeps.dictWrite h)

theorem Keeps.execLinkEnableWrite {fm : Nat} {r s : State} (h : Keeps fm r s)
    (hm : Sub 8384508 fm := by exact Sub.of (by assumption) (by decide)) {acc v} :
    KeepsX fm r (execLinkEnableWrite acc v s) := by
  unfold Sys2Proof.Machine.execLinkEnableWrite
  exact Keeps.next (Keeps.scalarWrite h)

theorem Keeps.execRouteTableWrite {fm : Nat} {r s : State} (h : Keeps fm r s)
    (hm : Sub 8384508 fm := by exact Sub.of (by assumption) (by decide)) {acc offset bytes} :
    KeepsX fm r (execRouteTableWrite acc offset bytes s) := by
  unfold Sys2Proof.Machine.execRouteTableWrite
  exact Keeps.next (Keeps.dictWrite h)

theorem Keeps.execPartitionCreate {fm : Nat} {r s : State} (h : Keeps fm r s)
    (hm : Sub 8384508 fm := by exact Sub.of (by assumption) (by decide)) {acc part} :
    KeepsX fm r (execPartitionCreate acc part s) := by
  unfold Sys2Proof.Machine.execPartitionCreate
  exact Keeps.next (Keeps.scalarWrite (Keeps.scalarWrite h))

theorem Keeps.execTeardown {fm : Nat} {r s : State} (h : Keeps fm r s)
    (hm : Sub 8384508 fm := by exact Sub.of (by assumption) (by decide)) {acc part} :
    KeepsX fm r (execTeardown acc part s) := by
  unfold Sys2Proof.Machine.execTeardown
  exact Keeps.next (Keeps.scalarWrite (Keeps.scalarWrite h))

theorem Keeps.execSnapshot {fm : Nat} {r s : State} (h : Keeps fm r s)
    (hm : Sub 8384508 fm := by exact Sub.of (by assumption) (by decide)) {acc account} :
    KeepsX fm r (execSnapshot acc account s) := by
  unfold Sys2Proof.Machine.execSnapshot
  exact Keeps.next (Keeps.scalarWrite h)

theorem Keeps.execQueueEnable {fm : Nat} {r s : State} (h : Keeps fm r s)
    (hm : Sub 8384508 fm := by exact Sub.of (by assumption) (by decide)) {acc fn q v} :
    KeepsX fm r (execQueueEnable acc fn q v s) := by
  unfold Sys2Proof.Machine.execQueueEnable
  exact Keeps.next (Keeps.scalarWrite h)

theorem Keeps.execEventEntriesWrite {fm : Nat} {r s : State} (h : Keeps fm r s)
    (hm : Sub 8384508 fm := by exact Sub.of (by assumption) (by decide)) {acc fn v} :
    KeepsX fm r (execEventEntriesWrite acc fn v s) := by
  unfold Sys2Proof.Machine.execEventEntriesWrite
  exact Keeps.next (Keeps.scalarWrite h)

theorem Keeps.execRotate {fm : Nat} {r s : State} (h : Keeps fm r s)
    (hm : Sub 8384508 fm := by exact Sub.of (by assumption) (by decide)) {acc} : KeepsX fm r (execRotate acc s) := by
  unfold Sys2Proof.Machine.execRotate
  exact Keeps.next (Keeps.scalarWrite h)

theorem Keeps.execReplace {fm : Nat} {r s : State} (h : Keeps fm r s)
    (hm : Sub 8384508 fm := by exact Sub.of (by assumption) (by decide)) {acc} : KeepsX fm r (execReplace acc s) := by
  unfold Sys2Proof.Machine.execReplace
  exact Keeps.next (Keeps.scalarWrite h)

theorem Keeps.execServiceSelftest {fm : Nat} {r s : State} (h : Keeps fm r s)
    (hm : Sub 8384508 fm := by exact Sub.of (by assumption) (by decide)) {acc} :
    KeepsX fm r (execServiceSelftest acc s) := by
  unfold Sys2Proof.Machine.execServiceSelftest
  exact Keeps.next (Keeps.scalarWrite h)

theorem Keeps.execRetire {fm : Nat} {r s : State} (h : Keeps fm r s)
    (hm : Sub 8384508 fm := by exact Sub.of (by assumption) (by decide)) {acc} : KeepsX fm r (execRetire acc s) := by
  unfold Sys2Proof.Machine.execRetire
  exact Keeps.next (Keeps.scalarWrite h)

theorem Keeps.execClearFuse {fm : Nat} {r s : State} (h : Keeps fm r s)
    (hm : Sub 8384508 fm := by exact Sub.of (by assumption) (by decide)) {acc} : KeepsX fm r (execClearFuse acc s) := by
  unfold Sys2Proof.Machine.execClearFuse
  exact Keeps.next (Keeps.scalarWrite h)

theorem Keeps.execDmcSwitch {fm : Nat} {r s : State} (h : Keeps fm r s)
    (hm : Sub 8384508 fm := by exact Sub.of (by assumption) (by decide)) {acc} : KeepsX fm r (execDmcSwitch acc s) := by
  unfold Sys2Proof.Machine.execDmcSwitch
  exact Keeps.next (Keeps.scalarWrite h)

theorem Keeps.execActivateFw {fm : Nat} {r s : State} (h : Keeps fm r s)
    (hm : Sub 8384508 fm := by exact Sub.of (by assumption) (by decide)) {acc compatible} :
    KeepsX fm r (execActivateFw acc compatible s) := by
  unfold Sys2Proof.Machine.execActivateFw
  exact Keeps.next (Keeps.scalarWrite h)

theorem Keeps.execInjectArm {fm : Nat} {r s : State} (h : Keeps fm r s)
    (hm : Sub 8384508 fm := by exact Sub.of (by assumption) (by decide)) {acc det v} :
    KeepsX fm r (execInjectArm acc det v s) := by
  unfold Sys2Proof.Machine.execInjectArm
  exact Keeps.next (Keeps.scalarWrite h)

theorem Keeps.setMailboxRegs {fm : Nat} {r s : State} (h : Keeps fm r s)
    (hm : Sub 524288 fm := by exact Sub.of (by assumption) (by decide)) {acc idx sub offset data} :
    Keeps fm r (State.setMailboxRegs s acc idx sub offset data) := by
  unfold State.setMailboxRegs
  dsimp only
  split
  · exact h
  · exact Keeps.setMailbox h

theorem Keeps.execDictCtrlRead {fm : Nat} {r s : State} (h : Keeps fm r s)
    (hm : Sub 590404 fm := by exact Sub.of (by assumption) (by decide)) {fn idx sub offset len} :
    KeepsX fm r (execDictCtrlRead fn idx sub offset len s) := by
  unfold Sys2Proof.Machine.execDictCtrlRead
  dsimp only
  refine Keeps.next ?_
  split
  · exact Keeps.answerFree (Keeps.setMailboxRegs h)
  · exact Keeps.dictRead (Keeps.setMailboxRegs h)

theorem Keeps.execDictCtrlWrite {fm : Nat} {r s : State} (h : Keeps fm r s)
    (hm : Sub 8384508 fm := by exact Sub.of (by assumption) (by decide)) {fn idx sub offset bytes} :
    KeepsX fm r (execDictCtrlWrite fn idx sub offset bytes s) := by
  unfold Sys2Proof.Machine.execDictCtrlWrite
  dsimp only
  refine Keeps.next ?_
  split
  · exact Keeps.answerFree (Keeps.setMailboxRegs h)
  · exact Keeps.dictWrite (Keeps.setMailboxRegs h)

theorem Keeps.execDictionaryWrite {fm : Nat} {r s : State} (h : Keeps fm r s)
    (hm : Sub 8384508 fm := by exact Sub.of (by assumption) (by decide)) {acc idx sub offset bytes} :
    KeepsX fm r (execDictionaryWrite acc idx sub offset bytes s) := by
  unfold Sys2Proof.Machine.execDictionaryWrite
  exact Keeps.next (Keeps.dictWrite h)

theorem Keeps.execRcRead {fm : Nat} {r s : State} (h : Keeps fm r s)
    (hm : Sub 590400 fm := by exact Sub.of (by assumption) (by decide)) {acc idx sub} :
    KeepsX fm r (execRcRead acc idx sub s) := by
  unfold Sys2Proof.Machine.execRcRead
  exact Keeps.next (Keeps.wholeRead h)

theorem Keeps.execDictRead {fm : Nat} {r s : State} (h : Keeps fm r s)
    (hm : Sub 131136 fm := by exact Sub.of (by assumption) (by decide)) {m} : KeepsX fm r (execDictRead m s) := by
  unfold Sys2Proof.Machine.execDictRead
  dsimp only
  refine Keeps.next ?_
  split
  · exact Keeps.refuseMsg (Keeps.bump (Keeps.consumeMsg h))
  · split
    · exact Keeps.refuseMsg (Keeps.consumeMsg h)
    · split
      · exact Keeps.refuseMsg (Keeps.bump (Keeps.consumeMsg h))
      · exact Keeps.send (Keeps.consumeMsg h)

end Sys2Proof.Machine
end

