-- ==== Sys2Proof/Laws/Keeps/DieStop.lean ====
section
/-! SUPPORT. What the operations of Machine/DieStop.lean keep. -/

set_option Elab.async false

namespace Sys2Proof.Machine

theorem Keeps.loseGroup {fm : Nat} {r s : State} (h : Keeps fm r s)
    (hm : Sub 2076256 fm := by exact Sub.of (by assumption) (by decide)) {x} : Keeps fm r (State.loseGroup s x) := by
  unfold State.loseGroup
  dsimp only
  split
  · refine Keeps.produce ?_
    split
    · refine Keeps.dictReply ?_
      split
      · exact Keeps.endSluice (Keeps.discardGroup h)
      · exact Keeps.discardGroup h
    · exact Keeps.endSluice (Keeps.discardGroup h)
    · split
      · exact Keeps.abortJob (Keeps.discardGroup h)
      · exact Keeps.discardGroup h
    · exact Keeps.discardGroup h
  · split
    · refine Keeps.dictReply ?_
      split
      · exact Keeps.endSluice (Keeps.discardGroup h)
      · exact Keeps.discardGroup h
    · exact Keeps.endSluice (Keeps.discardGroup h)
    · split
      · exact Keeps.abortJob (Keeps.discardGroup h)
      · exact Keeps.discardGroup h
    · exact Keeps.discardGroup h

theorem Keeps.loseSluice {fm : Nat} {r s : State} (h : Keeps fm r s)
    (hm : Sub 32768 fm := by exact Sub.of (by assumption) (by decide)) {d} : Keeps fm r (State.loseSluice s d) := by
  unfold State.loseSluice
  exact Keeps.update h

theorem Keeps.takeKeeper {fm : Nat} {r s : State} (h : Keeps fm r s)
    (hm : Sub 32768 fm := by exact Sub.of (by assumption) (by decide)) : Keeps fm r (State.takeKeeper s) := by
  unfold State.takeKeeper
  exact Keeps.update h

theorem Keeps.stopCores {fm : Nat} {r s : State} (h : Keeps fm r s)
    (hm : Sub 576 fm := by exact Sub.of (by assumption) (by decide)) {d} : Keeps fm r (State.stopCores s d) := by
  unfold State.stopCores
  dsimp only
  exact Keeps.foldl h _ (fun _ _ h0 => Keeps.modCsq (Keeps.setReg h0))

theorem Keeps.stopHostLink {fm : Nat} {r s : State} (h : Keeps fm r s)
    (hm : Sub 3670464 fm := by exact Sub.of (by assumption) (by decide)) {d} : Keeps fm r (State.stopHostLink s d) := by
  unfold State.stopHostLink
  dsimp only
  split
  · exact h
  · split
    · exact Keeps.failover (Keeps.setCause (Keeps.linkEvent (Keeps.setReg (Keeps.setReg (Keeps.setReg h)))))
    · exact Keeps.setCause (Keeps.linkEvent (Keeps.setReg (Keeps.setReg (Keeps.setReg h))))

theorem Keeps.stopService {fm : Nat} {r s : State} (h : Keeps fm r s)
    (hm : Sub 2097216 fm := by exact Sub.of (by assumption) (by decide)) {d} : Keeps fm r (State.stopService s d) := by
  unfold State.stopService
  dsimp only
  refine Keeps.update ?_
  split
  · split
    · refine Keeps.serviceStatus (Keeps.update ?_)
      split
      · split
        · exact Keeps.serviceStatus (Keeps.update h)
        · exact h
      · exact h
    · split
      · split
        · exact Keeps.serviceStatus (Keeps.update h)
        · exact h
      · exact h
  · split
    · split
      · exact Keeps.serviceStatus (Keeps.update h)
      · exact h
    · exact h

theorem Keeps.stopDie {fm : Nat} {r s : State} (h : Keeps fm r s)
    (hm : Sub 8384508 fm := by exact Sub.of (by assumption) (by decide)) {d} : Keeps fm r (State.stopDie s d) := by
  unfold State.stopDie
  dsimp only
  refine Keeps.mctpPump (Keeps.tearSettle (Keeps.settleOps (Keeps.prune (Keeps.judgeCores (Keeps.setCause (Keeps.stopHostLink (Keeps.foldl (Keeps.loseSluice (Keeps.foldl (Keeps.foldl ?_ _ (fun _ _ h0 => Keeps.abortJob h0)) _ (fun _ _ h0 => Keeps.loseGroup h0))) _ (fun _ _ h0 => Keeps.linkDown h0))))))))
  split
  · exact Keeps.takeLater (Keeps.takeKeeper (Keeps.stopService (Keeps.stopCores (Keeps.updateTop h))))
  · exact Keeps.stopService (Keeps.stopCores (Keeps.updateTop h))

theorem execThermalStop_safe {s t : State} {d optics sensor reading} (e : execThermalStop d optics sensor reading s = .next t) :
    StepSafe 16777215 s t := by
  have hk := Sub.refl 16777215
  unfold execThermalStop at e
  simp only [Host.Outcome.next.injEq] at e
  subst e
  generalize (if optics = true then 90000 else 110000) = limit
  split
  · exact (Keeps.refl s).stepSafe
  · have k : Keeps 16777215 _ _ := Keeps.dieStopRecord (Keeps.refl s) (die := d) (cause := 1) (inj := false)
    split
    · refine StepSafe.setReg (moduleReset_safe ?_ ?_ ?_ ?_)
      · exact k.pending
      · exact fun x => k.memory x
      · exact fun x => k.regs x
      · exact fun x => (k.top x).1
    · exact (Keeps.stopDie k).stepSafe

end Sys2Proof.Machine
end

