-- ==== Sys2Proof/Laws/Keeps/Management.lean ====
section
/-! SUPPORT. What the operations of Machine/Management.lean keep. -/

set_option Elab.async false

namespace Sys2Proof.Machine

theorem Keeps.answerMgmt {fm : Nat} {r s : State} (h : Keeps fm r s)
    (hm : Sub 1048576 fm := by exact Sub.of (by assumption) (by decide)) {l} : Keeps fm r (State.answerMgmt s l) := by
  unfold State.answerMgmt
  split
  · exact Keeps.respond h
  · exact h

theorem Keeps.execEntdaa {fm : Nat} {r s : State} (h : Keeps fm r s)
    (hm : Sub 1048576 fm := by exact Sub.of (by assumption) (by decide)) {addr} : KeepsX fm r (execEntdaa addr s) := by
  unfold Sys2Proof.Machine.execEntdaa
  dsimp only
  refine Keeps.next ?_
  split
  · exact Keeps.update h
  · exact h

theorem Keeps.execSetEndpointId {fm : Nat} {r s : State} (h : Keeps fm r s)
    (hm : Sub 1048576 fm := by exact Sub.of (by assumption) (by decide)) {op eid} :
    KeepsX fm r (execSetEndpointId op eid s) := by
  unfold Sys2Proof.Machine.execSetEndpointId
  dsimp only
  refine Keeps.next ?_
  split
  · exact h
  · split
    · exact Keeps.respond (Keeps.update h)
    · exact Keeps.respond h

theorem Keeps.execGetEndpointId {fm : Nat} {r s : State} (h : Keeps fm r s)
    (hm : Sub 1048576 fm := by exact Sub.of (by assumption) (by decide)) : KeepsX fm r (execGetEndpointId s) := by
  unfold Sys2Proof.Machine.execGetEndpointId
  exact Keeps.next (Keeps.answerMgmt h)

theorem Keeps.execGetMctpVersionSupport {fm : Nat} {r s : State} (h : Keeps fm r s)
    (hm : Sub 1048576 fm := by exact Sub.of (by assumption) (by decide)) {ty} :
    KeepsX fm r (execGetMctpVersionSupport ty s) := by
  unfold Sys2Proof.Machine.execGetMctpVersionSupport
  exact Keeps.next (Keeps.answerMgmt h)

theorem Keeps.execGetMessageTypeSupport {fm : Nat} {r s : State} (h : Keeps fm r s)
    (hm : Sub 1048576 fm := by exact Sub.of (by assumption) (by decide)) : KeepsX fm r (execGetMessageTypeSupport s) := by
  unfold Sys2Proof.Machine.execGetMessageTypeSupport
  exact Keeps.next (Keeps.answerMgmt h)

theorem Keeps.execGetVendorDefinedMessageSupport {fm : Nat} {r s : State} (h : Keeps fm r s)
    (hm : Sub 1048576 fm := by exact Sub.of (by assumption) (by decide)) {sel} :
    KeepsX fm r (execGetVendorDefinedMessageSupport sel s) := by
  unfold Sys2Proof.Machine.execGetVendorDefinedMessageSupport
  exact Keeps.next (Keeps.answerMgmt h)

theorem Keeps.mctpTake {fm : Nat} {r s : State} (h : Keeps fm r s)
    (hm : Sub 8384508 fm := by exact Sub.of (by assumption) (by decide)) {r'} : Keeps fm r (State.mctpTake s r') := by
  unfold State.mctpTake
  dsimp only
  split
  · exact Keeps.mctpPump (Keeps.update h)
  · exact h

theorem Keeps.execMctpRead {fm : Nat} {r s : State} (h : Keeps fm r s)
    (hm : Sub 8384508 fm := by exact Sub.of (by assumption) (by decide)) {req idx sub offset len} :
    KeepsX fm r (execMctpRead req idx sub offset len s) := by
  unfold Sys2Proof.Machine.execMctpRead
  exact Keeps.next (Keeps.mctpTake h)

theorem Keeps.execMctpWrite {fm : Nat} {r s : State} (h : Keeps fm r s)
    (hm : Sub 8384508 fm := by exact Sub.of (by assumption) (by decide)) {req idx sub offset bytes} :
    KeepsX fm r (execMctpWrite req idx sub offset bytes s) := by
  unfold Sys2Proof.Machine.execMctpWrite
  refine Keeps.next ?_
  split
  · exact h
  · exact Keeps.mctpTake h

theorem Keeps.execPldmBaseRequest {fm : Nat} {r s : State} (h : Keeps fm r s)
    (hm : Sub 1048576 fm := by exact Sub.of (by assumption) (by decide)) {bytes} :
    KeepsX fm r (execPldmBaseRequest bytes s) := by
  unfold Sys2Proof.Machine.execPldmBaseRequest
  refine Keeps.next ?_
  split
  · exact h
  · exact Keeps.answerMgmt h

theorem Keeps.execPldmPlatformRequest {fm : Nat} {r s : State} (h : Keeps fm r s)
    (hm : Sub 1048576 fm := by exact Sub.of (by assumption) (by decide)) {sensor} :
    KeepsX fm r (execPldmPlatformRequest sensor s) := by
  unfold Sys2Proof.Machine.execPldmPlatformRequest
  exact Keeps.next (Keeps.answerMgmt h)

theorem Keeps.maskVector {fm : Nat} {r s : State} (h : Keeps fm r s)
    (hm : Sub 524288 fm := by exact Sub.of (by assumption) (by decide)) {fn v masked} :
    Keeps fm r (State.maskVector s fn v masked) := by
  unfold State.maskVector
  dsimp only
  exact Keeps.sendPending (Keeps.update h)

theorem Keeps.execConfigurationWrite {fm : Nat} {r s : State} (h : Keeps fm r s)
    (hm : Sub 524288 fm := by exact Sub.of (by assumption) (by decide)) {o} : KeepsX fm r (execConfigurationWrite o s) := by
  unfold Sys2Proof.Machine.execConfigurationWrite
  dsimp only
  refine Keeps.next ?_
  split
  · exact h
  · split
    · exact Keeps.update h
    · exact Keeps.update h
    · exact Keeps.update h
    · exact Keeps.update h
    · exact Keeps.update h
    · exact Keeps.update h
    · exact Keeps.update h
    · split
      · exact Keeps.sendPending (Keeps.update h)
      · exact h
    · split
      · exact Keeps.sendPending (Keeps.update h)
      · exact h
    · split
      · exact Keeps.maskVector h
      · exact h

end Sys2Proof.Machine
end

