-- ==== Sys2Proof/Laws/Keeps/Step.lean ====
section
/-! SUPPORT. What the operations of Machine/Step.lean keep. -/

set_option Elab.async false

namespace Sys2Proof.Machine

theorem Keeps.idleOp {fm : Nat} {r s : State} (h : Keeps fm r s)
    (hm : Sub 66 fm := by exact Sub.of (by assumption) (by decide)) : Keeps fm r (State.idle s) := by
  unfold State.idle
  exact Keeps.passCycle h

end Sys2Proof.Machine
end

