-- ==== Sys2Proof/Laws/Reads.lean ====
section
/-! SUPPORT. What the reads of cistern rows come to where no word is upset and no injection is armed. -/

set_option Elab.async false

namespace Sys2Proof.Machine

/-- A fold of operations that keep a view of the state keeps it. -/
theorem foldl_view {α β : Type} (g : State → α) (f : State → β → State) (hf : ∀ x b, g (f x b) = g x) (l : List β) (s : State) :
    g (l.foldl f s) = g s := by
  induction l generalizing s with
  | nil => rfl
  | cons b l ih => exact (ih _).trans (hf _ _)

/-- With no injection entry set, no injection of the detector is armed. -/
theorem State.armed_zero {s : State} {det : Nat} (h : s.reg det 3 = 0) (target site : Nat) : s.armed det target site = false := by
  unfold State.armed
  rw [h]
  simp

/-- Reads without an upset and without an armed injection wake the banks of their rows, and nothing else. -/
theorem State.readRows_clean {s : State} (h1 : s.reg 0x9001 3 = 0) (h2 : s.reg 0x9002 3 = 0) (p part unit : Nat) (rows : List Nat) :
    s.readRows p part unit rows ⟨[], []⟩ = (rows.eraseDups.foldl (fun s r => s.useBank p (r % 4)) s, none) := by
  unfold State.readRows
  extract_lets own s1 l fixed who s2 s3
  have e (k : Nat) : s1.reg k 3 = s.reg k 3 :=
    foldl_view (fun x => x.reg k 3) (fun s r => s.useBank p (r % 4)) (fun _ _ => rfl) _ _
  have e0 : fixed = [] := by simp [fixed]
  have e2 : s2 = s1 := by simp only [s2, e0, List.foldl_nil]
  have a1 : s2.armed 0x9001 l 0 = false := State.armed_zero (by rw [e2, e, h1]) _ _
  have e3 : s3 = s1 := by
    simp only [s3, a1, Bool.and_false, Bool.false_eq_true, if_false]
    cases own <;> exact e2
  have a2 : s3.armed 0x9002 l unit = false := State.armed_zero (by rw [e3, e, h2]) _ _
  have n : (own.find? fun r => List.contains (α := Nat) [] r) = none := by simp
  dsimp only at n ⊢
  rw [n]
  dsimp only
  rw [a2]
  cases own <;> simp [e3, s1]

/-- A core that an operation leaves alone in a view g reads the same in it, and the cores stay in rising order. -/
theorem State.modCore_view {α : Type} {s : State} {p : Nat} {f : Core → Core} (g : Core → α) (hf : ∀ c, g (f c) = g c)
    (h : SMap.rising 0 s.cores = true) :
    (∀ q, g ((s.modCore p f).core q) = g (s.core q)) ∧ SMap.rising 0 (s.modCore p f).cores = true := by
  unfold State.modCore State.setCore State.core
  refine ⟨fun q => ?_, ?_⟩
  · by_cases e : q = p
    · subst e
      rw [SMap.get_set_same _ h]
      exact hf _
    · rw [SMap.get_set_other _ _ _ _ e]
  · dsimp only
    unfold SMap.set
    split
    · exact SMap.rising_erase h _
    · exact SMap.rising_insert h _ _ (Nat.zero_le _)

/-- Waking the banks of rows leaves a view that does not look at banks. -/
theorem State.useBanks_view {α : Type} {s : State} {p : Nat} (g : Core → α)
    (hf : ∀ c b t, g { c with retained := maskClear c.retained b, lastUse := SMap.set 0 c.lastUse (4 + b) t } = g c) (rows : List Nat)
    (h : SMap.rising 0 s.cores = true) (q : Nat) :
    g ((rows.foldl (fun (s : State) r => s.useBank p (r % 4)) s).core q) = g (s.core q) := by
  induction rows generalizing s with
  | nil => rfl
  | cons r l ih =>
    have k := State.modCore_view (s := s) (p := p) (f := fun c => { c with retained := maskClear c.retained (r % 4), lastUse := SMap.set 0 c.lastUse (4 + r % 4) s.cc })
      g (fun c => hf c _ _) h
    exact (ih k.2).trans (k.1 q)

/-- The reads of an engine without an upset and without an armed injection abort nothing, and leave what does not look at
banks of every core. -/
theorem State.engineRead_clean {s : State} (h1 : s.reg 0x9001 3 = 0) (h2 : s.reg 0x9002 3 = 0) (h : SMap.rising 0 s.cores = true)
    (p : Nat) (rows : List Nat) :
    ∃ t, s.engineRead p rows ⟨[], []⟩ = (t, false) ∧ ∀ q, (t.core q).rill = (s.core q).rill := by
  have m (x : Nat) : (s.markTagFault x).regs = s.regs ∧ (s.markTagFault x).cores = s.cores := by
    unfold State.markTagFault
    dsimp only
    split <;> exact ⟨rfl, rfl⟩
  unfold State.engineRead
  extract_lets xn u
  have e1 : u.regs = s.regs := by
    simp only [u]
    split
    · exact (m _).1
    · rfl
  have e2 : u.cores = s.cores := by
    simp only [u]
    split
    · exact (m _).2
    · rfl
  clear_value u
  have r (k : Nat) : u.reg k 3 = s.reg k 3 := by unfold State.reg; rw [e1]
  rw [State.readRows_clean (by rw [r, h1]) (by rw [r, h2])]
  refine ⟨_, rfl, fun q => ?_⟩
  rw [State.useBanks_view (fun c => c.rill) (fun _ _ _ => rfl) _ (by rw [e2]; exact h)]
  unfold State.core
  rw [e2]

end Sys2Proof.Machine
end

