-- ==== Sys2Proof/Tests/Slice0.lean ====
section
/-! SUPPORT. Small tests of one step each, and a witness for the hypotheses of each statement. -/

set_option Elab.async false

namespace Sys2Proof.Tests
open Sys2Proof.Machine

/-- The outcome is a next state that meets a test. -/
def nextIs (o : Host.Outcome State Fault Refusal) (p : State → Bool) : Bool :=
  match o with
  | .next t => p t
  | _ => false

/-- The outcome is a next state, whatever its free values are. -/
def runs (o : Host.Outcome State Fault Refusal) : Bool := nextIs o fun _ => true

/-- Witness of both clauses of IdleStepPassesOneCycle: the machine at reset, and the same with its PLL locked. -/
theorem witness_idle : State.reset.pending = [] ∧ State.reset.reg 0x2100 1 = 0
    ∧ (State.reset.setReg 0x2100 1 1).pending = [] ∧ (State.reset.setReg 0x2100 1 1).reg 0x2100 1 = 1
    ∧ ((State.reset.setReg 0x2100 1 1).now + 1) % hourCycles ≠ 0 := by decide

/-- Witness of EveryCommandKeepsToItsFields: a command that answers a next state. -/
theorem witness_fields : nextIs (exec .pwrGoodFall State.reset) (fun t => decide (t.pending = [])) = true := by
  decide +kernel

/-- Witness of EveryStepKeepsSafety: a safe state whose step answers a next state. -/
theorem witness_safe : Memory.wf State.reset.mem = true ∧ Regs.wf State.reset.regs = true
    ∧ State.reset.alloc.allot0 + State.reset.alloc.allot1 = State.reset.alloc.inForce
    ∧ State.reset.top.dev = .reset ∧ State.reset.top.resetDone = false
    ∧ nextIs (step State.reset) (fun t => decide (t = State.reset)) = true := by decide

/-- Witness of DeviceStatesFollowTable2, and of a change: RESET, its items complete, is left for SELFTEST. -/
theorem witness_dev :
    nextIs (exec .resetComplete { State.reset with top := { Top.init with resetDone := true, sysResetN := true } })
      (fun t => decide (t.top.dev = .selftest)) = true := by decide +kernel

/-- A safe state in SERVING for the witnesses: pins high, PLL locked. -/
def served : State :=
  { State.reset with top := { Top.init with dev := .serving, sysResetN := true }, regs := (State.reset.setReg 0x2100 1 1).regs }

/-- Witness of ModuleReturnsToReset, clauses 1 to 3. -/
theorem witness_reset : Memory.wf served.mem = true ∧ Regs.wf served.regs = true ∧ served.alloc.allot0 + served.alloc.allot1 = served.alloc.inForce
    ∧ served.top.sysResetN = true ∧ served.top.pwrGood = true ∧ served.reg 0x2100 1 = 1 := by decide

/-- Witness of ModuleReturnsToReset, clause 4, at the limit of each sensor. -/
theorem witness_both_dies :
    let s := { served with top := { served.top with stopped := ⟨true, false⟩ } }
    s.reg 0x2100 1 ≠ 0 ∧ s.top.stopped.get 1 = false ∧ s.top.stopped.get (1 - 1) = true
      ∧ nextIs (exec (.thermalStop 1 false 0 110000) s) (fun t => decide (t.reg 0x1200 12 = 4)) = true
      ∧ nextIs (exec (.thermalStop 1 false 0 109999) s) (fun t => decide (t.top = s.top)) = true
      ∧ nextIs (exec (.thermalStop 1 true 0 90000) s) (fun t => decide (t.reg 0x1200 12 = 4)) = true := by decide +kernel

/-- Witness of TestAccessPortFollowsTable4: at reset PWR_GOOD is low; it is high in the other clause. -/
theorem witness_tap : State.reset.top.pwrGood = true ∧ State.reset.top.sysResetN = false
    ∧ served.top.pwrGood = true ∧ served.top.sysResetN = true
    ∧ ({ Top.init with pwrGood := false } : Top).pwrGood = false := by decide

/-- A serving state whose governor of die 0 is changed. -/
def withGov (f : Governor → Governor) : State := served.setGov 0 (f (served.gov 0))

/-- A drain permit of die 0, and a request for it. -/
def drainPermit : Permit := ⟨.drain, .sluice 0⟩
def drainAsk : Ask := ⟨drainPermit, 0, none, false, 0⟩

/-- Witness of PermitsAreGrantedFromHeadroom: a request at the limit of headroom, one above it, and two of one size. -/
theorem witness_permits :
    let s := withGov fun g => { g with asks := [drainPermit] }
    let x := s.headroom 0 - s.permitSize .drain
    let u (n : Int) (l : List Permit) := withGov fun g => { g with asks := l, floor := n.toNat }
    s.top.stopped.get 0 = false ∧ s.halted = false ∧ s.armed 0x900A 0 0 = false ∧ (s.gov 0).asks = [drainPermit] ∧ (s.gov 0).queue = []
      ∧ 0 ≤ x ∧ ((u x [drainPermit]).permitSize .drain : Int) = (u x [drainPermit]).headroom 0
      ∧ nextIs (exec (.permitRequest 0 1) (u x [drainPermit])) (fun t => decide (t.held 0 = s.permitSize .drain)) = true
      ∧ nextIs (exec (.permitRequest 0 1) (u (x + 1) [drainPermit])) (fun t => decide (t.held 0 = 0 ∧ (t.gov 0).queue.length = 1)) = true
      ∧ nextIs (exec (.permitRequest 0 2) (u (x - s.permitSize .drain) [drainPermit, drainPermit])) (fun t => decide ((t.gov 0).held.length = 2)) = true
      ∧ nextIs (exec (.permitRequest 0 2) (u (x - s.permitSize .drain + 1) [drainPermit, drainPermit]))
          (fun t => decide ((t.gov 0).held.length = 1 ∧ (t.gov 0).queue.length = 1)) = true := by decide +kernel

/-- Witness of LoansMoveAllotment, by clause: a loan at the lender's limit and one above it, a refusal, a grant, a retry. -/
theorem witness_loans :
    let h := (served.headroom 1).toNat
    let lend (x : Nat) := withGov fun g => { g with loanAsk := some x }
    let answered (b : Bool) := withGov fun g => { g with loanAsk := some 1, loanAnswer := some b, queue := [drainAsk] }
    let short := withGov fun g => { g with queue := [drainAsk], floor := 2 ^ 40 }
    (served.headroom 1 = h) ∧ ((lend h).gov (1 - 1)).loanAsk = some h ∧ ((lend h).gov (1 - 1)).loanAnswer = none
      ∧ nextIs (exec (.loanRequest 1) (lend h)) (fun t => decide (t.alloc.allot1 = served.alloc.allot1 - h ∧ t.alloc.allot0 = served.alloc.allot0 + h)) = true
      ∧ nextIs (exec (.loanRequest 1) (lend (h + 1))) (fun t => decide (t.alloc = served.alloc ∧ (t.gov 0).loanAnswer = some false)) = true
      ∧ ((answered false).gov 0).loanAnswer = some false
      ∧ nextIs (exec (.loanReply 0) (answered false)) (fun t => decide ((t.gov 0).queue = [drainAsk] ∧ (t.gov 0).loanAsk = none)) = true
      ∧ ((answered true).permitSize .drain : Int) ≤ (answered true).headroom 0 ∧ (answered true).halted = false
      ∧ nextIs (exec (.loanReply 0) (answered true)) (fun t => decide ((t.gov 0).held = [drainPermit] ∧ (t.gov 0).loanAsk = none)) = true
      ∧ short.headroom 0 < short.permitSize .drain ∧ (short.gov 0).loanAsk = none
      ∧ nextIs (exec (.loanRetry 0) short) (fun t => decide ((t.gov 0).loanAsk = some (short.permitSize .drain - short.headroom 0).toNat)) = true := by
  decide +kernel

/-- Witness of ReturnedPermitsLeaveHeld, by clause. -/
theorem witness_returns :
    let s := withGov fun g => { g with returns := [drainPermit], held := [drainPermit, drainPermit] }
    let w := withGov fun g => { g with returns := [drainPermit], held := [drainPermit], queue := [drainAsk], floor := (served.headroom 0).toNat - served.permitSize .drain }
    drainPermit ∈ (s.gov 0).held ∧ (s.gov 0).queue = [] ∧ (s.gov (1 - 0)).queue = []
      ∧ nextIs (exec (.permitReturn 0 1) s) (fun t => decide (t.held 0 + s.permitSize .drain = s.held 0)) = true
      ∧ (w.permitSize .drain : Int) = w.headroom 0 + w.permitSize .drain
      ∧ nextIs (exec (.permitReturn 0 1) w) (fun t => decide ((t.gov 0).held = [drainPermit] ∧ (t.gov 0).queue = [])) = true := by
  decide +kernel

/-- Witness of WindowEndsAndSamples, by clause: a request one cycle beyond the timeout and one at it, the runs at their limits,
a window end. -/
theorem witness_windows :
    let n := usCycles (served.reg 0x2000 4)
    let s := withGov fun g => { g with queue := [drainAsk] }
    let o : WindowEnd := { volt := 0, amp := 0, inlet := 0, outlet := 0, rail0 := 7, rail1 := 3, junction0 := 0, junction1 := 0, sensor0 := 0, sensor1 := 0, cases := [] }
    let p (a b : Nat) (h : Bool) : State := { served with pow := { served.pow with runAbove := a, runBelow := b, haltedBudget := h } }
    nextIs (exec (.permitTimeout 0) { s with now := n + 1 }) (fun t => decide ((t.gov 0).queue = [{ drainAsk with raised := true }] ∧ t.reg 0x900A 1 = 1)) = true
      ∧ nextIs (exec (.permitTimeout 0) { s with now := n }) (fun t => decide (t = { s with now := n })) = true
      ∧ nextIs (exec .overBudget (p 1001 0 false)) (fun t => decide (t.halted = true ∧ t.reg 0x900B 1 = 1)) = true
      ∧ nextIs (exec .overBudgetClear (p 0 100 true)) (fun t => decide (t = p 0 100 false)) = true
      ∧ served.reg 0x2100 1 = 1 ∧ (served.gov 0).queue = [] ∧ (served.gov 1).queue = []
      ∧ nextIs (exec (.governorWindowEnd o) { served with now := 5 }) (fun t => decide ((t.gov 0).floor = 7 ∧ (t.gov 1).floor = 3)) = true := by
  decide +kernel

/-- Witness of RetentionKeepsContents, by clause, at the limits. -/
theorem witness_retention :
    let s (n : Nat) : State := { (served.setReg 0x2100 4 1) with now := n }
    (s 1024).reg 0x2100 4 = 1 ∧ 4096 ≤ (s 1024).cc - SMap.get 0 ((s 1024).core 0).lastUse (4 + 3)
      ∧ nextIs (exec (.bankRetention 0 3) (s 1024)) (fun t => decide ((t.core 0).retained = 8)) = true
      ∧ nextIs (exec (.bankRetention 0 3) (s 1023)) (fun t => decide (t.cores = coresReset)) = true
      ∧ 16384 ≤ 3 * ((s 5462).now - SMap.get 0 (s 5462).pow.sliceUse (4 * 1 + 3))
      ∧ nextIs (exec (.sliceRetention 1 3) (s 5462)) (fun t => decide (t.pow.sliceRet = 128)) = true
      ∧ 64 ≤ (s 16).cc - SMap.get 0 ((s 16).core 70).lastUse 2
      ∧ nextIs (exec (.engineGate 70 2) (s 16)) (fun t => decide ((t.core 70).gated = 4)) = true := by decide +kernel

/-- A core's row 0 as a code section: its segment record, one schedule entry at byte 64 and a descriptor at byte 96. -/
def codeRow (seg entry desc : Nat) : Row := BitVec.ofNat 4096 (seg + entry * 2 ^ 512 + desc * 2 ^ 768)

/-- A segment record without sync point or weir point: its next segment, entries and cycles, and whether it needs a permit. -/
def segWord (next entries cycles permit sync : Nat) : Nat :=
  put 255 224 sync + put 223 192 cycles + put 191 160 cycles + put 159 144 next + put 143 128 0xFFFF + put 127 112 0xFFFF + put 111 80 64
    + put 79 64 entries + put 63 48 0xFFFF + permit

/-- Context 0 of partition 0 on core 0, its segment table at byte 0 of handle 0, its handle 0 the rows of the core. -/
def oneCtx : Ctx :=
  { Ctx.init with st := .running, header := BitVec.ofNat 512 (put 151 144 8 + put 143 128 64), loaded := true, mid := true }

/-- A serving state whose core 0 is at a place of the sequencer, with rows of partition 0. -/
def coreAt (q : Csq) (rows : List Row) (rill : SMap Slot) : State :=
  let n := rows.length
  let c : Core := { Core.init with
    rows := SMap.set 0 [] 0 0 ++ (rows.zipIdx.filter fun r => r.1 ≠ 0).map fun r => (r.2, r.1), tags := (List.range n).map fun i => (i, 1)
    handles := (List.range 8).map fun i => (i, BitVec.ofNat 256 (put 12 0 i + put 41 28 8 + 2 ^ 42)), csq := q, rill := rill }
  State.setCtx (served.setCore 0 c) 0 oneCtx

/-- Witness of SegmentsStartAndEndAsTheirRecordsSay, by clause. -/
theorem witness_segment_start :
    let q : Csq := { Csq.init with phase := .hold }
    let s (permit : Nat) := coreAt q [codeRow (segWord 0 0 100 permit 0) 0 0] []
    (s 1).coreRuns 0 = true ∧ (s 1).argsLoaded 0 = true ∧ (s 1).segReady 0 = false ∧ (s 0).segReady 0 = true
      ∧ sgStart ((s 0).segment 0) = 0xFFFF ∧ ((s 0).csqRead 0 0 ((s 0).segRows 0) ⟨[], []⟩).2 = none
      ∧ nextIs (exec (.segmentStart 0 ⟨[], []⟩) (s 1)) (fun t => decide ((t.core 0).csq.phase = .hold)) = true
      ∧ nextIs (exec (.segmentStart 0 ⟨[], []⟩) (s 0)) (fun t => decide ((t.core 0).csq.phase = .run)) = true := by
  decide +kernel

theorem witness_segment_end :
    let s (next sync n : Nat) : State := { coreAt { Csq.init with phase := .run } [codeRow (segWord next 0 100 0 sync) 0 0] [] with now := n }
    ((s 0xFFFF 0 0).core 0).csq.looked = false
      ∧ sgCycles ((s 0xFFFF 0 0).segment 0) ((s 0xFFFF 0 0).lanes 0) ≤ 384 + 4 * 0 ∧ sgWeir ((s 0xFFFF 0 0).segment 0) = 0xFFFF
      ∧ nextIs (exec (.segmentLookahead 0) (s 0xFFFF 0 0)) (fun t => decide ((t.core 0).csq.looked = true)) = true
      ∧ sgCycles ((s 0 0 25).segment 0) ((s 0 0 25).lanes 0) = 4 * 25 ∧ (s 0 0 25).armed 0x9004 ((s 0 0 25).logicalOf 0) 0 = false
      ∧ (match (s 0 0 25).check 0 with | .goOn _ [0] => true | _ => false) = true
      ∧ nextIs (exec (.segmentEnd 0) (s 0 0 25)) (fun t => decide ((t.core 0).csq.phase = .hold)) = true
      ∧ nextIs (exec (.segmentEnd 0) (s 0 1 25)) (fun t => decide ((t.core 0).csq.phase = .sync)) = true
      ∧ nextIs (exec (.segmentEnd 0) (s 0 0 24)) (fun t => decide ((t.core 0).csq.phase = .run)) = true
      ∧ (s 0 0 25).ctxOps = [] ∧ (s 0 0 25).av.handover = none ∧ runs (exec (.segmentEnd 0) (s 0xFFFF 0 25)) = true := by decide +kernel

theorem witness_sync_and_retry :
    let s (ph : Phase) := coreAt { Csq.init with phase := ph } [codeRow (segWord 0 0 100 0 1) 0 0] []
    ((s .sync).core 0).signalled (sgSync ((s .sync).segment 0)) = true ∧ sgWeir ((s .sync).segment 0) = 0xFFFF
      ∧ ((s .sync).core 0).tokensOf (sgSync ((s .sync).segment 0)) = [] ∧ (s .sync).armed 0x9003 ((s .sync).logicalOf 0) 0 = false
      ∧ nextIs (exec (.syncPoint 0) (s .sync)) (fun t => decide ((t.core 0).csq.phase = .hold)) = true
      ∧ ((s .retry).core 0).spanQuiet ((s .retry).core 0).csq.tag = true
      ∧ nextIs (exec (.spanRetry 0) (s .retry)) (fun t => decide ((t.core 0).csq.phase = .hold ∧ (t.core 0).csq.retried = true)) = true := by
  decide +kernel

/-- A tile descriptor of BF16 operands in rows 1 and 2, K = 32, of M × N, into slot 0. -/
def tileWord (m n acc : Nat) : Nat :=
  put 140 128 0 + put 92 80 2 + put 76 64 1 + put 41 41 acc + put 35 32 7 + put 31 28 7 + put 14 8 (n - 1) + put 6 0 (m - 1)

/-- A row whose first 32 BF16 elements are 1 and whose next 32 are 2. -/
def bfRow : Row := BitVec.ofNat 4096 (((List.range 32).map fun i => 0x3F80 * 2 ^ (16 * i) + 0x4000 * 2 ^ (16 * (32 + i))).sum)

/-- Witness of TilesWriteTheirRectangle: a free slot, and one that is filling. -/
theorem witness_tile :
    let c (st : SlotState) := (coreAt Csq.init [0, bfRow, bfRow] [(0, { Slot.init with st := st, cells := [(0, 0x3F800000)] })]).core 0
    txAcc (tileWord 2 1 0) = false ∧ txAcc (tileWord 2 1 1) = true ∧ SMap.rising 0 (SMap.get Slot.init (c .filling).rill 0).cells = true
      ∧ ((c .free).runTile oneCtx (tileWord 2 1 0)).map (fun e => (SMap.get Slot.init e.rill 0).cells) = some [(0, 0x42000000), (128, 0x42800000)]
      ∧ ((c .filling).runTile oneCtx (tileWord 2 1 1)).map (fun e => (SMap.get Slot.init e.rill 0).cells)
          = some [(0, 0x42040000), (128, 0x42800000)] := by decide +kernel

/-- A serving state with an entry of a unit due on core 0, its descriptor n. -/
def entryAt (unit n : Nat) (rows : List Row) (rill : SMap Slot) : State :=
  coreAt { Csq.init with phase := .run } (codeRow (segWord 0xFFFF 1 100 0 0) (put 23 21 unit + put 16 0 3) n :: rows) rill

/-- The entry issues. -/
def issues (s : State) (unit n : Nat) : Bool :=
  match s.issue 0 unit n ⟨[], []⟩ with
  | .go _ _ _ => true
  | _ => false

/-- The state after the CSQ's read of a GTU entry reads without upsets, and its slot is, or is not, full. -/
def gtuReads (s : State) (n : Nat) (full : Bool) : Bool :=
  match s.issue 0 1 32 ⟨[], []⟩ with
  | .go u _ d => decide (d = n) && decide (u.reg 0x9001 3 = 0) && decide (u.reg 0x9002 3 = 0) && SMap.rising 0 u.cores
      && decide (u.gtuSlot 0 (gdSlot n) = full)
  | _ => false

theorem gtuReads_issues {s : State} {n : Nat} {full : Bool} (h : gtuReads s n full = true) (hd : s.dueDesc 0 1 32 = some n)
    (hl : gdLegal n = true) : ∃ (u : State) (x : Ctx), s.gtuIssue 0 (gdTemplate n) ⟨[], []⟩ = .go u x n ∧ u.gtuSlot 0 (gdSlot n) = full := by
  unfold gtuReads at h
  split at h
  · next u x d e =>
    simp only [Bool.and_eq_true, decide_eq_true_eq] at h
    obtain ⟨⟨⟨⟨rfl, h1⟩, h2⟩, h3⟩, h4⟩ := h
    have k := State.engineRead_clean h1 h2 h3 0
    obtain ⟨t, k1, k2⟩ := k ((u.core 0).gtuReads x d (gdTemplate d))
    unfold State.gtuIssue State.gtuStart
    rw [hd]
    simp only [hl, e, k1]
    refine ⟨t, x, by simp, ?_⟩
    unfold State.gtuSlot Core.slotReady at h4 ⊢
    rw [k2]
    exact h4
  · cases h

/-- The GTU entry of each template issues on a full slot, and on a free one. -/
theorem witness_gtu (k : Nat) (hk : k < 7) (full : Bool) :
    ∃ (s u : State) (x : Ctx), s.gtuIssue 0 k ⟨[], []⟩ = .go u x k ∧ u.gtuSlot 0 (gdSlot k) = full := by
  have a : ∀ k < 7, ∀ full, gdTemplate k = k ∧ gdLegal k = true
      ∧ (entryAt 1 k [] [(0, { Slot.init with st := if full then .ready else .free, gtu := true })]).dueDesc 0 1 32 = some k
      ∧ gtuReads (entryAt 1 k [] [(0, { Slot.init with st := if full then .ready else .free, gtu := true })]) k full = true := by decide +kernel
  obtain ⟨h1, h2, h3, h4⟩ := a k hk full
  obtain ⟨u, x, h⟩ := gtuReads_issues h4 h3 h2
  rw [h1] at h
  exact ⟨_, u, x, h⟩

/-- Witness of EngineEntriesRun: the MXE's clauses. -/
theorem witness_mxe :
    let s (m acc : Nat) := entryAt 0 (tileWord m 1 acc) [bfRow, bfRow] []
    issues (s 2 0) 0 32 = true ∧ txLegal (tileWord 2 1 0) = true ∧ txLegal (tileWord 2 1 0 + put 35 32 0 + put 31 28 8) = false
      ∧ nextIs (exec (.mxeTile 0 ⟨[], []⟩) (s 2 0)) (fun t => decide ((SMap.get Slot.init (t.core 0).rill 0).cells = [(0, 0x42000000), (128, 0x42800000)])) = true
      ∧ runs (exec (.mxeTile 0 ⟨[], []⟩) (s 2 1)) = true
      ∧ runs (exec (.mxeTile 0 ⟨[], []⟩) (entryAt 0 (tileWord 2 1 0 + put 31 28 8) [bfRow, bfRow] [])) = true := by
  decide +kernel

/-- Witness of EngineEntriesRun: the clauses of the gate program, the VXE, the GXE and the DMV. -/
theorem witness_units :
    let vx := entryAt 2 (put 63 32 1 + put 12 0 2) [0, BitVec.ofNat 4096 (put 63 58 1)] []
    let gx (k : Nat) := entryAt 3 k [] []
    let dv (op : Nat) := entryAt 4 (op + if op = 2 then put 191 180 1 else 0) [] []
    gateLegal (((entryAt 1 5 [0] []).core 0).gateWords oneCtx (5 + put 79 72 1)) = true
      ∧ issues vx 2 64 = true ∧ nextIs (exec (.vxePass 0 ⟨[], []⟩) vx) (fun t => decide (t.free = 1)) = true
      ∧ nextIs (exec (.gxeLookup 0 ⟨[], []⟩) (gx 0)) (fun t => decide ((t.core 0).gxeNext = 1)) = true
      ∧ nextIs (exec (.gxeScatter 0 ⟨[], []⟩) (gx 1)) (fun t => decide ((t.core 0).gxeNext = 1)) = true
      ∧ nextIs (exec (.dmvCopy 0 ⟨[], []⟩ []) (dv 0)) (fun t => decide ((t.core 0).csq.issued = 1)) = true
      ∧ nextIs (exec (.dmvZeroFill 0 ⟨[], []⟩ []) (dv 1)) (fun t => decide ((t.core 0).csq.issued = 1)) = true
      ∧ (List.range 5).all (fun k => ((entryAt 7 0 [] []).entryDue 0 k).isNone) = true := by decide +kernel

/-- A DMV descriptor that copies cistern row 1 to row 2, with its token 3. -/
def copyItem (started : Bool) (left : List Nat) : DmvItem :=
  { id := 0, desc := BitVec.ofNat 256 (put 179 128 2 + put 115 64 1 + put 12 8 3), part := 0, ctx := 0, job := none, token := 3, started := started,
    chain := 0, last := true, permits := if started then some [] else none, left := left }

/-- A serving state whose core 0 has a DMV item, and rows 1 and 2 of partition 0. -/
def withDmv (it : DmvItem) : State := (coreAt Csq.init [0, bfRow, 0] []).modCore 0 fun c => { c with dmv := [it], dmvNext := 1 }

/-- A GXE thread and its command, a lookup or a scatter. -/
def withThread (kind : Nat) (st : ThreadState) (src : RowSrc) (flags : Nat) : State :=
  let g : GxeCmd := { id := 0, desc := BitVec.ofNat 256 (kind + put 159 128 1 + put 95 80 1 + put 55 48 0xFF), part := 0, ctx := 0, job := none,
                      span := 0, bags := [], next := 1, table := 0, flags := 0, usable := true }
  let t : Thread := { id := 1, cmd := 0, st := st, pos := 0, idx := 0, row := 0, dflt := false, weight := 0, src := src, data := [], flags := flags, wait := 0 }
  (coreAt Csq.init [0] []).modCore 0 fun c => { c with gxe := [g], threads := [t], gxeNext := 2 }

/-- Witness of MoverDescriptorsMove: the mover's clauses. -/
theorem witness_mover :
    let s := withDmv (copyItem false [0])
    let d := withDmv (copyItem true [])
    SMap.rising 0 s.cores = true ∧ SMap.rising 0 (s.core 0).rows = true ∧ (s.core 0).dmv = [copyItem false [0]]
      ∧ dvOp (copyItem false [0]).desc = 0 ∧ dvSrcKind (copyItem false [0]).desc = 0 ∧ dvDstKind (copyItem false [0]).desc = 0
      ∧ dvRows (copyItem false [0]).desc = 1 ∧ s.reg 0x9001 3 = 0 ∧ s.reg 0x9002 3 = 0 ∧ (s.core 0).owns 0 1 = true
      ∧ (s.core 0).owns 0 2 = true ∧ s.chainPermits 0 (s.dmvItems 0 0) = []
      ∧ nextIs (exec (.dmvChainStart 0 ⟨[], []⟩ []) s) (fun t => decide ((t.core 0).view 0 2 = bfRow ∧ (t.core 0).dmv = [copyItem true []])) = true
      ∧ nextIs (exec (.dmvChainStart 0 ⟨[], []⟩ []) d) (fun t => decide ((t.core 0).dmv = [copyItem true []])) = true
      ∧ s.dmvDone 0 (copyItem false [0]) = false ∧ d.dmvDone 0 (copyItem true []) = true
      ∧ nextIs (exec (.dmvDescriptorComplete 0 0) d) (fun t => decide ((t.core 0).dmv = [])) = true := by decide +kernel

/-- Witness of MoverDescriptorsMove: a chain from the fast tier asks for its permit where permit_threshold_hbm is 0, and starts
with it. -/
theorem witness_mover_permit :
    let far := { copyItem false [0] with desc := BitVec.ofNat 256 (put 3 2 1 + put 179 128 2 + put 12 8 3) }
    let s := ((withDmv far).setReg 0x2000 5 0).setReg 0x3010 1 (2 ^ 36)
    let h := withGov fun g => { g with held := [⟨.hbm, .dmv 0⟩] }
    s.chainPermits 0 (s.dmvItems 0 0) = [⟨.hbm, .dmv 0⟩] ∧ s.holdsPermit ⟨.hbm, .dmv 0⟩ = false
      ∧ ({ s with pow := h.pow } : State).holdsPermit ⟨.hbm, .dmv 0⟩ = true
      ∧ nextIs (exec (.dmvChainStart 0 ⟨[], []⟩ []) s) (fun t => decide ((t.gov 0).asks = [⟨.hbm, .dmv 0⟩] ∧ (t.core 0).dmv = [far])) = true := by
  decide +kernel

/-- Witness of GatherThreadsGoOn: the clauses of the GXE. -/
theorem witness_gxe :
    let f := withThread 0 .fetch (.mem 0) 0
    let k (n : Nat) := withThread 1 .order .zero n
    let w := withThread 1 .send .zero 0
    let o (s : State) := (s.readMem 0 none 0 (tdStride 0) true []).2
    (f.core 0).threads.map (fun t => t.st) = [.fetch] ∧ (o (f.setReg 0x3010 1 0)).refused = true ∧ (o f).refused = false ∧ (o f).lost = []
      ∧ nextIs (exec (.gxeRowReadReturn 0 1 ⟨[], []⟩ []) f) (fun t => decide ((t.core 0).threads.all fun x => x.st = .order)) = true
      ∧ (((k 0).core 0).thread? 1).isSome = true ∧ nextIs (exec (.scatterAck 0 1 ⟨[], []⟩) (k 0)) (fun t => decide ((t.core 0).gxe = [])) = true
      ∧ nextIs (exec (.scatterAck 0 1 ⟨[], []⟩) (k 1)) (fun t => decide ((t.core 0).threads = [])) = true
      ∧ ((w.core 0).gxe.find? (fun g => g.id = 0)).isSome = true
      ∧ nextIs (exec (.scatterSendResume 0) w) (fun t => decide ((t.core 0).threads.map (fun x => x.st) = [.order])) = true := by decide +kernel

/-- The write of bytes to 0x7001.01 (partition_select) and to 0x1200.05 by management, on the serving state. -/
theorem witness_dict_write :
    (served.served = true ∧ served.dictBusy 17 = false
      ∧ (∃ r, dictFind 0x7001 1 = some r ∧ r.acc.writable = true ∧ r.fits 0 1 = true ∧ r.acc ≠ .rwq)
      ∧ served.mayWrite 17 0x7001 1 3 = true ∧ served.sluiceOpen 17 = none ∧ served.top.stopped.d0 = false
      ∧ served.stalled (served.sl.lastMark + 1) = false
      ∧ served.writeItems 17 0x7001 1 0 [3] = some [.dict 17 0x7001 1 0 [3]] ∧ hasAction 0x7001 1 = false ∧ hasAction 0x1200 5 = true)
    ∧ nextIs (exec (.dictionaryWrite 17 0x7001 1 0 [3]) served) (fun t => decide (t.reg 0x7001 1 = 3 ∧ t.sl.lastMark = served.sl.lastMark + 1 ∧ t.sl.p.d0 = t.sl.lastMark)) = true
    ∧ nextIs (exec (.dictionaryWrite 17 0x1200 5 0 [2]) served) (fun t => decide (t.reg 0x1200 5 = 2)) = true
    ∧ nextIs (exec (.dictCtrlWrite 0 0x7001 1 0 [3]) served) (fun t => decide (t.reg 0x7001 1 = 3 ∧ (t.mailbox 0).addr = 256 * 0x7001 + 1
        ∧ (t.mailbox 0).size = 1 ∧ (t.mailbox 0).status = 0)) = true := by decide +kernel

/-- Witness of DictionaryWritesTakeEffectAtAMark: the writes that change no entry. -/
theorem witness_dict_denied :
    State.reset.served = false ∧ dictFind 0x0001 1 = none
      ∧ nextIs (exec (.dictionaryWrite 0 0x0001 1 0 []) served) (fun t => decide ((t.mailbox 0).status = 1)) = true
      ∧ nextIs (exec (.dictionaryWrite 1 0x7001 1 0 [3]) served) (fun t => decide ((t.mailbox 1).status = 2 ∧ t.reg 0x7001 1 = 0 ∧ t.reg 0x1100 2 = 1)) = true
      ∧ nextIs (exec (.dictionaryWrite 0 0x7001 1 1 [3]) served) (fun t => decide ((t.mailbox 0).status = 4 ∧ t.reg 0x7001 1 = 0)) = true
      ∧ served.quiet 0x8000 1 = true ∧ (served.setReg 0x8010 1 3).quiet 0x8000 1 = false
      ∧ nextIs (exec (.dictionaryWrite 0 0x8000 1 0 [3]) (served.setReg 0x8010 1 3)) (fun t => decide ((t.mailbox 0).status = 3 ∧ t.reg 0x8000 1 = served.reg 0x8000 1)) = true
      ∧ nextIs (exec (.sluiceBegin 0 1) served) (fun t => (t.sluiceOpen 0).isSome
          && nextIs (exec (.dictionaryWrite 0 0x7001 1 0 [3]) t) fun u => decide ((u.mailbox 0).status = 5 ∧ u.reg 0x7001 1 = 0)) = true := by
  decide +kernel

/-- Witness of DictionaryReadsAnswer, by clause. -/
theorem witness_dict_read :
    (served.served = true ∧ served.dictBusy 0 = false ∧ served.mayRead 1 0x3300 1 = false
      ∧ (∃ r, dictFind 0x5000 12 = some r ∧ r.acc = .rc ∧ r.ty.bytes ≠ 0) ∧ (served.hotBytes (served.areg 0 0x6002 1)).length = 512)
    ∧ [0, 4097].all (fun n => nextIs (exec (.dictCtrlRead 0 0x7001 1 0 n) served) fun t => decide (t.free = served.free + 1 ∧ (t.mailbox 0).data = [])) = true
    ∧ nextIs (exec (.dictCtrlWrite 0 0x7001 1 0 []) served) (fun t => decide (t.free = served.free + 1 ∧ t.reg 0x7001 1 = served.reg 0x7001 1)) = true
    ∧ nextIs (exec (.mctpRead 3 0x7001 1 0 1025) served) (fun t => decide (t.free = served.free + 1)) = true
    ∧ nextIs (exec (.dictCtrlRead 0 0x0001 1 0 4) served) (fun t => decide ((t.mailbox 0).status = 1)) = true
    ∧ nextIs (exec (.dictCtrlRead 1 0x3300 1 0 1) served) (fun t => decide ((t.mailbox 1).status = 2 ∧ t.reg 0x1100 2 = 1)) = true
    ∧ nextIs (exec (.dictCtrlRead 0 0x7001 1 1 1) served) (fun t => decide ((t.mailbox 0).status = 4)) = true
    ∧ nextIs (exec (.dictCtrlRead 0 0x1000 3 4 3) served) (fun t => decide ((t.mailbox 0).status = 0 ∧ (t.mailbox 0).data = stringBytes "-A6" ∧ (t.mailbox 0).size = 10)) = true
    ∧ nextIs (exec (.hotListRead 0) served) (fun t => decide ((t.mailbox 0).data.length = 512)) = true
    ∧ nextIs (exec (.rcRead 0 0x5000 12) (served.setReg 0x5000 12 7)) (fun t => decide ((t.mailbox 0).data = [7, 0, 0, 0] ∧ t.reg 0x5000 12 = 0)) = true
    ∧ nextIs (exec (.rcRead 1 0x5000 12) (served.setReg 0x5000 12 7)) (fun t => decide ((t.mailbox 1).data = [7, 0, 0, 0] ∧ t.reg 0x5000 12 = 7)) = true := by decide +kernel

/-- The parts of Takes of a write of a whole scalar, decided. -/
def takesScalar (s : State) (acc idx sub v : Nat) : Bool :=
  match dictFind idx sub with
  | none => false
  | some r => s.served && !s.dictBusy acc && r.acc.writable && decide (r.ty.bytes ≠ 0) && decide (v < 2 ^ (8 * r.ty.bytes))
      && (r.acc ≠ .rwq || s.quiet idx sub) && s.mayWrite acc idx sub v && decide (idx ≠ 0x1110) && (s.sluiceOpen acc).isNone
      && !s.top.stopped.d0 && !s.stalled (s.sl.lastMark + 1)

/-- A serving state in another device state. -/
def inState (d : DevState) : State := { served with top := { served.top with dev := d } }

/-- Witness of DeviceRequestsTakeEffect, by clause. -/
theorem witness_requests :
    takesScalar (inState .ready) 0 0x1200 3 1 = true ∧ takesScalar served 17 0x1200 3 2 = true ∧ takesScalar served 17 0x1200 5 0 = true
      ∧ takesScalar served 0 0x2000 1 700 = true ∧ takesScalar served 17 0x9001 3 0x30000 = true ∧ takesScalar (inState .selftest) 17 0x9001 3 0x30000 = true
      ∧ takesScalar served 3 0x7800 1 2 = true ∧ takesScalar served 17 0xB020 2 8 = true
      ∧ served.mayQuiesce = true ∧ (inState .ready).mayQuiesce = false
      ∧ nextIs (exec (.serve 0) (inState .ready)) (fun t => decide (t.top.dev = .serving ∧ t.reg 0x1200 4 = 1)) = true
      ∧ nextIs (exec (.serve 0) served) (fun t => decide (t.top.dev = .serving ∧ t.reg 0x1200 4 = 2)) = true
      ∧ nextIs (exec (.quiesce 17) served) (fun t => decide (t.top.dev = .ready)) = true
      ∧ nextIs (exec (.holdPointWrite 17 2) served) (fun t => decide (t.reg 0x1200 5 = 2)) = true
      ∧ nextIs (exec (.holdPointWrite 17 0) ((served.setReg 0x1200 6 2))) (fun t => decide (t.reg 0x1200 6 = 0 ∧ t.top.passed2 = true)) = true
      ∧ nextIs (exec (.packageBudgetWrite 0 700) served) (fun t => decide (t.alloc.allot0 = 350000000 ∧ t.alloc.allot1 = 350000000)) = true := by
  decide +kernel

theorem witness_arm_snapshot :
    nextIs (exec (.injectArm 17 0x9001 0x0005030200030001) served) (fun t => decide (t.reg 0x9001 3 = 0x0005030000030000)) = true
      ∧ nextIs (exec (.injectArm 17 0x9001 0x30000) (inState .selftest)) (fun t => decide (t.reg 0x9001 3 = 0)) = true
      ∧ nextIs (exec (.snapshot 3 2) { served with now := 9 }) (fun t => decide (t.areg 3 0x7800 4 = 9 ∧ t.areg 3 0x7800 1 = 2 ∧ (t.ablob 3 0x7800 2).length = 128)) = true
      ∧ nextIs (exec (.eventEntriesWrite 17 16 8) served) (fun t => decide (t.reg 0xB020 2 = 8)) = true := by decide +kernel

/-- A serving state with a dictionary sluice of accessor 0 open since cycle 0, and its group. -/
def sluiceGroup : Group :=
  { id := 0, issuer := .sluice 0, die := 0, part := some 0, items := [], failed := false, phase := .begun, stalled := false, after := none, locks := [], lost := false }

def sluiceState (l : List (Nat × Nat × Nat × List Byte)) : State :=
  { served with sl := { served.sl with dicts := [(0, some ⟨0, l, 0⟩)], groups := [sluiceGroup], nextGroup := 1 } }

/-- Witness of DictionarySluicesBeginCommitAndEnd, by clause: two entries, an RWQ entry whose unit is busy, the timeout at its limit. -/
theorem witness_sluice :
    let s := sluiceState [(0x3000, 2, 0, [5, 0]), (0x7001, 1, 0, [9])]
    let b := (sluiceState [(0x8000, 1, 0, [3])]).setReg 0x8010 1 3
    let n := usCycles 1000 * served.reg 0x6800 5
    Regs.wf s.regs = true ∧ SMap.rising 0 s.sl.dicts = true ∧ s.served = true ∧ s.dictBusy 0 = false
      ∧ (dictFind 0x3000 2).map (fun q => q.ty.bytes) = some 2 ∧ (dictFind 0x7001 1).map (fun q => q.ty.bytes) = some 1
      ∧ s.stagedBusy (0x3000, 2, 0, [5, 0]) = false ∧ s.stalled (s.sl.lastMark + 1) = false ∧ s.group? 0 = some sluiceGroup
      ∧ s.versionsOf 0 = [] ∧ s.blocksOf 0 = [] ∧ s.accumsOf 0 = [] ∧ s.undecided 0 = 1 ∧ served.groupRoom 0 = true
      ∧ nextIs (exec (.sluiceBegin 0 1) served) (fun t => decide (t.areg 0 0x1110 4 = 1 ∧ t.begun served.newGroup = true)) = true
      ∧ nextIs (exec (.sluiceCommit 0 1) s) (fun t => decide (t.reg 0x3000 2 = 5 ∧ t.reg 0x7001 1 = 9 ∧ t.areg 0 0x1110 4 = 2
          ∧ t.areg 0 0x1110 5 = 1 ∧ t.sluiceOpen 0 = none)) = true
      ∧ b.stagedBusy (0x8000, 1, 0, [3]) = true
      ∧ nextIs (exec (.sluiceCommit 0 1) b) (fun t => decide (t.reg 0x8000 1 = b.reg 0x8000 1 ∧ t.areg 0 0x1110 4 = 4)) = true
      ∧ nextIs (exec (.sluiceAbort 0 1) s) (fun t => decide (t.areg 0 0x1110 4 = 6 ∧ t.sluiceOpen 0 = none)) = true
      ∧ nextIs (exec (.dictSluiceTimeout 0) { s with now := n }) (fun t => decide (t.areg 0 0x1110 4 = 5)) = true
      ∧ nextIs (exec (.dictSluiceTimeout 0) { s with now := n - 1 }) (fun t => decide (t.sluiceOpen 0 = s.sluiceOpen 0)) = true := by
  decide +kernel

/-- Witness of ConfigurationWritesAct: the stack and the domains, with start_at at the limit of 400 cycles. -/
theorem witness_config_writes :
    takesScalar served 0 0x511F 1 1 = true ∧ takesScalar served 0 0x511F 22 3 = true ∧ takesScalar served 0 0x511F 14 64 = true
      ∧ takesScalar served 17 0x582F 6 0 = true ∧ takesScalar served 17 0x582F 6 1 = true ∧ takesScalar served 17 0x582F 6 2 = true
      ∧ takesScalar served 17 0x5800 1 1 = true ∧ (served.setReg 0x5800 2 0).reg 0x5800 2 = 0 ∧ takesScalar served 0 (pairIdx 16 15) 8 1 = true
      ∧ served.reg (pairIdx 16 15) 8 = 0 ∧ served.fnActive 16 = false ∧ takesScalar served 17 0x8040 1 0 = false
      ∧ nextIs (exec (.stackEnableWrite 0 31 1) (served.setReg 0x511F 20 1)) (fun t => decide (t.reg 0x511F 1 = 1 ∧ t.reg 0x511F 20 = 0)) = true
      ∧ nextIs (exec (.stackEnableWrite 0 31 0) (served.setReg 0x511F 1 1)) (fun t => decide (t.reg 0x511F 1 = 0)) = true
      ∧ nextIs (exec (.outHeadWrite 0 31 3) served) (fun t => decide (t.reg 0x511F 22 = 3)) = true
      ∧ nextIs (exec (.outRingConfigWrite 0 31 14 64) (served.setReg 0x511F 22 5)) (fun t => decide (t.reg 0x511F 14 = 64 ∧ t.reg 0x511F 22 = 0)) = true
      ∧ nextIs (exec (.domainStopRequest 17 31) (served.setReg 0x582F 8 1)) (fun t => decide ((t.domain 31).stopping = true)) = true
      ∧ nextIs (exec (.domainArmPps 17 31) { served with now := 7 }) (fun t => decide ((t.domain 31).armed = some 7)) = true
      ∧ nextIs (exec (.domainArmAt 17 31) (served.setReg 0x582F 7 399)) (fun t => decide ((t.domain 31).start = some 4)) = true
      ∧ nextIs (exec (.domainArmAt 17 31) (served.setReg 0x582F 7 400)) (fun t => decide ((t.domain 31).start = some 400)) = true := by
  decide +kernel

theorem witness_config_writes2 :
    let k := (served.setReg 0x8000 2 0).setReg 0x1200 11 0xFFFFFF
    takesScalar k 17 0x8000 2 (2 ^ 23) = true ∧ Regs.wf k.regs = true ∧ k.reg 0x8000 2 = 0 ∧ k.laneBlocked 23 = false
      ∧ nextIs (exec (.linkEnableWrite 17 (2 ^ 23)) k) (fun t => decide (t.reg 0x8027 1 = 1 ∧ t.reg 0x8000 2 = 2 ^ 23)) = true
      ∧ nextIs (exec (.sharedTickWrite 17 1) (served.setReg 0x5800 2 0)) (fun t => decide (t.reg 0x5800 1 = 1 ∧ t.reg 0x5800 2 = 1)) = true
      ∧ nextIs (exec (.queueEnable 17 16 15 1) served) (fun t => decide (t.reg (pairIdx 16 15) 16 = 2)) = true
      ∧ nextIs (exec (.queueEnable 17 16 15 0) (served.setReg (pairIdx 16 15) 8 1)) (fun t => decide (t.reg (pairIdx 16 15) 8 = 0)) = true
      ∧ nextIs (exec (.routeTableWrite 17 5 [0x82, 3]) served) (fun t => decide ((t.blob 0x8040 1).take 7 = [0, 0, 0, 0, 0, 0x80, 3])) = true := by
  decide +kernel

/-- A serving state with die 1 stopped. -/
def oneDie : State := { served with top := { served.top with stopped := ⟨false, true⟩ } }

/-- The state has a group in PREPARE with given items. -/
def prepared (s : State) (l : List Item) : Bool :=
  match s.group? 0 with
  | some x => decide (x.items = l ∧ x.phase = .prepare)
  | none => false

/-- The state with a page of table 5 mapped out. -/
def withPage (s : State) : State := { s with tab := { s.tab with mapped := [⟨5, 7, 0, none⟩] } }

/-- Witness of TableWritesAreTwoDieGroups, by clause. -/
theorem witness_table_writes :
    let v := 5 * 2 ^ 52 + 7
    mapoutArg v = (5, 7) ∧ takesScalar served 0 0x6003 2 v = true ∧ takesScalar oneDie 0 0x6003 2 v = true
      ∧ served.mapouts.contains (5, 7) = false ∧ (withPage served).mapouts.contains (5, 7) = true
      ∧ nextIs (exec (.tableDescriptorWrite 0 16 [1, 2]) served) (fun t => prepared t [.table 0 (Desc.patch 0 0 16 [1, 2])]) = true
      ∧ nextIs (exec (.tableDescriptorWrite 0 16 [1, 2]) oneDie) (fun t => decide (t.table 0 = 0x201 * 2 ^ 128 ∧ t.sl.lastMark = 1)) = true
      ∧ nextIs (exec (.tableDescriptorWrite 0 0 [1, 2]) oneDie) (fun t => decide (t.table 0 = 0)) = true
      ∧ nextIs (exec (.mapoutAdd 0 v) served) (fun t => prepared t [.mapAdd 5 7]) = true
      ∧ nextIs (exec (.mapoutAdd 0 v) oneDie) (fun t => decide (t.tab.mapped = [⟨5, 7, 1, none⟩])) = true
      ∧ nextIs (exec (.mapoutAdd 0 v) (withPage served)) (fun t => decide (t.tab.mapped = [⟨5, 7, 0, none⟩])) = true
      ∧ nextIs (exec (.mapoutRemove 0 v) (withPage oneDie)) (fun t => decide (t.tab.mapped = [⟨5, 7, 0, some 1⟩])) = true
      ∧ nextIs (exec (.mapoutRemove 0 v) (withPage served)) (fun t => prepared t [.mapRemove 5 7]) = true
      ∧ nextIs (exec (.mapoutRemove 0 v) served) (fun t => decide (t.tab.mapped = [])) = true
      ∧ takesScalar served 17 0x6810 2 3 = true
      ∧ nextIs (exec (.stepCloseWrite 17 3) served) (fun t => decide (t.reg 0x6810 2 = 3)) = true
      ∧ nextIs (exec (.stepCloseWrite 17 3) (served.setReg 0x6810 2 4)) (fun t => decide (t.reg 0x6810 2 = 4)) = true
      ∧ nextIs (exec .sketchDecay { served with tab := { served.tab with sketch := [(1, 7), (3, 1)] } }) (fun t => decide (t.tab.sketch = [(1, 3)])) = true := by
  decide +kernel

/-- A group of a dictionary access in a phase, and a serving state that has it. -/
def someGroup (ph : GPhase) (die : Nat) : Group :=
  { id := 0, issuer := .dict 0, die := die, part := none, items := [.mapAdd 5 7], failed := false, phase := ph, stalled := false, after := none, locks := [], lost := false }

def withGroup (x : Group) : State := { served with sl := { served.sl with groups := [x], nextGroup := 1, locks := [(1, 2, 0)] } }

/-- A committed version of row 3 of table 0, homed on die 0. -/
def someVersion : Version :=
  { grp := 9, mark := some 0, table := 0, row := 3, state := false, data := List.replicate 32 5, home := 0, copy := false, sent := none, span := none, wrote := [] }

/-- Witness of GroupsAreDecidedAndOpen, by clause. -/
theorem witness_groups :
    let a (ph : GPhase) (d : Nat) := withGroup (someGroup ph d)
    let v : State := { served with sl := { served.sl with versions := ⟨[someVersion], []⟩ } }
    let b : State := { v with sl := { v.sl with drain := ⟨some ⟨[(0, 3, false, 0)], 0⟩, none⟩ }, pow := (withGov fun g => { g with held := [⟨.drain, .sluice 0⟩] }).pow }
    let late : State := { served with sl := { (a (.answered true) 0).sl with lastMark := 2 ^ 47 - 2, pins := [(0, some ⟨true, 0, 0, 0, none, none⟩)] } }
    (someGroup .begun 0).job? = none ∧ served.keeper = 0 ∧ (a .prepare 0).stalled 1 = false
      ∧ nextIs (exec (.prepare 0) (a .prepare 0)) (fun t => decide ((t.group? 0).map (fun x => x.phase) = some (.answered true))) = true
      ∧ nextIs (exec (.prepareAnswer 0) (a (.answered true) 0)) (fun t => decide (t.sl.groups = [] ∧ t.sl.lastMark = 1 ∧ t.sl.p = ⟨1, 0⟩ ∧ t.sl.locks = []
          ∧ t.tab.mapped = [⟨5, 7, 1, none⟩])) = true
      ∧ nextIs (exec (.prepareAnswer 0) (a (.answered true) 1)) (fun t => decide ((t.group? 0).map (fun x => x.phase) = some .marking)) = true
      ∧ nextIs (exec (.prepareAnswer 0) (a (.answered false) 0)) (fun t => decide (t.sl.groups = [] ∧ t.sl.lastMark = 0 ∧ t.tab.mapped = [])) = true
      ∧ nextIs (exec (.markRequest 0) (a .marking 1)) (fun t => decide (t.sl.lastMark = 1)) = true
      ∧ late.stalled (late.sl.lastMark + 1) = true
      ∧ nextIs (exec (.prepareAnswer 0) late) (fun t => decide (t.sl.groups.map (fun x => x.stalled) = [true] ∧ t.reg 0x6800 4 = 1)) = true
      ∧ nextIs (exec .publishedMarkUpdate { served with sl := { served.sl with p := ⟨4, 3⟩, later := [(4, .mapAdd 5 7)] } })
          (fun t => decide (t.sl.p = ⟨4, 4⟩ ∧ t.sl.later = [])) = true
      ∧ nextIs (exec .publishedMarkUpdate { served with sl := { served.sl with p := ⟨4, 3⟩ } }) (fun t => decide (t.sl.p = ⟨4, 4⟩)) = true
      ∧ nextIs (exec .oldestPinExchange { served with sl := { served.sl with p := ⟨4, 3⟩ } }) (fun t => decide (t.sl.peerPin = ⟨4, 3⟩)) = true
      ∧ drainRows (v.eligible 0) [] = [(0, 3, false, 0)] ∧ drainRows (served.eligible 0) [] = []
      ∧ nextIs (exec (.drain 0) v) (fun t => decide (t.sl.drain.d0 = some ⟨[(0, 3, false, 0)], 0⟩ ∧ (t.gov 0).asks = [⟨.drain, .sluice 0⟩])) = true
      ∧ b.holdsPermit ⟨.drain, .sluice 0⟩ = true ∧ b.locked 0 3 = false
      ∧ nextIs (exec (.drainBatchComplete 0) { v with sl := b.sl }) (fun t => decide (t.sl = b.sl)) = true := by
  decide +kernel

theorem witness_staging :
    let w : StageWait := { versions := [(0, { someVersion with mark := none })], blocks := [], since := 0, notBefore := 0, part := 0, full := [0], item := none }
    let s : State := { served with sl := { served.sl with waits := ⟨[w], []⟩ } }
    s.hasSpace w = true
      ∧ nextIs (exec (.stagingResume 0) s) (fun t => decide (t.sl.waits.d0 = [] ∧ t.sl.versions.d0.length = 1)) = true
      ∧ nextIs (exec (.stagingResume 0) { s with now := 400 }) (fun t => decide (t.reg 0x6801 10 = 1000)) = true
      ∧ GIssuer.early (.sluice 0) = true := by decide +kernel

/-- The outcome is the next state t. -/
def gives (o : Host.Outcome State Fault Refusal) (t : State) : Bool := nextIs o fun u => decide (u = t)

/-- A descriptor of a kind. -/
def word (kind n : Nat) : Desc := BitVec.ofNat 512 (put 455 448 kind + n)

/-- The state with queue pair 0 of function 1 enabled and a descriptor at its front. -/
def frontAt (s : State) (d : Desc) : State := (s.setReg (pairIdx 1 0) 8 1).setPair 1 0 { QPair.init with fetched := [d] }

/-- The parts of Front at that pair, decided. -/
def isFront (s : State) (d : Desc) : Bool :=
  decide (s.top.dev = .serving) && decide (s.qp 1 0 8 = 1) && decide ((s.pair 1 0).fetched.head? = some d) && !s.fenced 1 0 d
    && kindAllowed 1 (descKind d)

/-- The command of that descriptor completes with a status and no other effect. -/
def endsWith (c : Instr) (s : State) (d : Desc) (st : Nat) : Bool :=
  isFront s d && gives (exec c s) ((s.popDesc 1 0 d).complete 1 0 d (s.headAfter 1 0 d) st)

/-- A record of pair 0 of function 1. -/
def someRec : CRec := CRec.blank 1 0 7

/-- Witness of QueuesCarryDescriptorsAndRecords: the tail at its limit and beyond it, the fetch, and NOP. -/
theorem witness_queue_tail :
    let s := ((served.setReg (pairIdx 1 0) 8 1).setReg (pairIdx 1 0) 2 16).setReg 0xB000 1 2
    let up (base : Nat) := (s.setReg (pairIdx 1 0) 1 base).setPair 1 0 { QPair.init with tail := 1 }
    let m : State := { up (2 ^ 51) with mem := [(2 ^ 51 + 56, 4)] }
    nextIs (exec (.sqTailWrite 1 0 16 []) s) (fun t => decide ((t.pair 1 0).tail = 16)) = true
      ∧ runs (exec (.sqTailWrite 1 0 17 []) s) = true
      ∧ nextIs (exec (.cqHeadWrite 1 0 5) s) (fun t => decide ((t.pair 1 0).cqHead = 5)) = true
      ∧ (up (2 ^ 51)).unfetched 1 0 = 1 ∧ (up (2 ^ 51)).hostLinkState 0 = 2 ∧ (up (2 ^ 51)).armed 0x9015 256 0 = false
      ∧ nextIs (exec (.descriptorFetch 1 0) { up (2 ^ 51) with mem := [(2 ^ 51 + 56, 8)] }) (fun t => decide ((t.pair 1 0).fetched = [word 8 0])) = true
      ∧ nextIs (exec (.descriptorFetch 1 0) m) (fun t => decide ((t.pair 1 0).fetched = [] ∧ t.free = m.free + 1)) = true
      ∧ nextIs (exec (.descriptorFetch 1 0) (up (2 ^ 39))) (fun t => decide (t.qp 1 0 8 = 0 ∧ t.qp 1 0 16 = 3)) = true
      ∧ s.unfetched 1 0 = 0 ∧ gives (exec (.descriptorFetch 1 0) s) (s.settle 1 0) = true
      ∧ endsWith (.nop 1 0) (frontAt served (word 8 0)) (word 8 0) stCompleted = true := by decide +kernel

/-- Witness of QueuesCarryDescriptorsAndRecords: the collector at 239 and 240 records, the write at the last free slot, coalescing. -/
theorem witness_queue_records :
    let s (made acc : List CRec) : State := { served with host := { served.host with made := ⟨made, []⟩, accepted := ⟨acc, []⟩ } }
    let full (n : Nat) := s [someRec] (List.replicate n someRec)
    let w (r : CRec) (n : Nat) := ((((s [] [r]).setPair 1 0 { QPair.init with live := true }).setReg (pairIdx 1 0) 4 n).setReg 0xB000 1 2).setReg (pairIdx 1 0) 3 (2 ^ 51)
    let n := usCycles (served.reg (pairIdx 1 0) 11)
    let c (k : Nat) : State := { served.setPair 1 0 { QPair.init with unsignalled := 1, unsignalledFrom := 5 } with now := k }
    (full 239).markPassed someRec = true ∧ (full 239).shareUsed 0 1 = 239
      ∧ nextIs (exec (.completionRecordAccept 0) (full 239)) (fun t => decide (t.host.made = ⟨[], []⟩ ∧ t.host.accepted.d0.length = 240)) = true
      ∧ nextIs (exec (.completionRecordAccept 0) (full 240)) (fun t => decide (t.host.made.d0 = [{ someRec with held := true }] ∧ t.qp 1 0 15 = 1)) = true
      ∧ (s [{ someRec with needMark := some 1 }] []).markPassed { someRec with needMark := some 1 } = false
      ∧ gives (exec (.completionRecordAccept 0) (s [{ someRec with needMark := some 1 }] [])) (s [{ someRec with needMark := some 1 }] []) = true
      ∧ nextIs (exec (.cqWrite 1 0) (w someRec 1)) (fun t => decide (t.host.accepted = ⟨[], []⟩ ∧ t.qp 1 0 13 = 1)) = true
      ∧ gives (exec (.cqWrite 1 0) (w someRec 0)) (w someRec 0) = true
      ∧ nextIs (exec (.coalesceTimeout 1 0) (c (n + 5))) (fun t => decide ((t.pair 1 0).unsignalled = 0)) = true
      ∧ (n = 0 ∨ gives (exec (.coalesceTimeout 1 0) (c (n + 4))) (c (n + 4)) = true)
      ∧ gives (exec (.coalesceTimeout 1 0) served) served = true
      ∧ gives (exec (.zeroLengthReadComplete 1 0) (w { someRec with flush := true } 1)) (w someRec 1) = true := by decide +kernel

/-- Witness of HostLinksFailOverAndReturn, by clause. -/
theorem witness_host_links :
    let s := (served.setReg 0xB000 1 2).setReg 0xB000 2 2
    let one := served.setReg 0xB000 1 2
    let off : State := { served with host := { served.host with completionTimeout := 16 } }
    let mask (p : Nat) : State := { served with host := { served.host with msixPending := [(16, p)], msixCtl := [(16, 1)] } }
    s.hostLinkState 0 = 2 ∧ s.hostLinkState 1 = 2 ∧ one.hostLinkState 1 = 0
      ∧ nextIs (exec (.hostLinkDown 0 3) one) (fun t => decide (t.reg 0xB000 1 = 0 ∧ t.reg 0xB000 7 = 0)) = true
      ∧ gives (exec (.hostLinkDown 1 3) one) one = true
      ∧ nextIs (exec (.hostLinkUp 1 16 6) one) (fun t => decide (t.reg 0xB000 2 = 2 ∧ t.reg 0xB000 4 = 16 ∧ t.reg 0xB000 6 = 6 ∧ t.reg 0xA000 1 = 0)) = true
      ∧ gives (exec (.hostLinkUp 0 16 6) one) one = true
      ∧ (let dead : State := { one with top := { one.top with stopped := one.top.stopped.set 1 true } }
         gives (exec (.hostLinkUp 1 16 6) dead) dead) = true
      ∧ nextIs (exec (.hostErrorCompletion 16 15) served) (fun t => decide (t.qp 16 15 16 = 3 ∧ t.reg 0xB000 9 = 1)) = true
      ∧ maskBit off.host.completionTimeout 4 = true ∧ gives (exec (.hostReadTimeout 16 15) off) off = true
      ∧ nextIs (exec (.hostReadTimeout 16 15) served) (fun t => decide (t.qp 16 15 16 = 3)) = true
      ∧ nextIs (exec (.configurationWrite (.msixMask 16 16 false)) (mask (2 ^ 16))) (fun t => decide (t.host.msixPending = [] ∧ SMap.get 0 t.host.msixSent 528 = 1)) = true
      ∧ nextIs (exec (.configurationWrite (.msixMask 16 16 false)) (mask 0)) (fun t => decide (t.host.msixSent = [] ∧ SMap.get 0 t.host.msixMask 16 = 2 ^ 16 - 1)) = true
      ∧ State.reset.served = false ∧ gives (exec (.configurationWrite (.vfEnable true)) State.reset) State.reset = true
      ∧ nextIs (exec (.configurationWrite (.vfEnable true)) served) (fun t => t.host.vfEnable) = true := by decide +kernel

/-- Witness of ManagementEndpointAnswers, by clause: the identifiers at their limits, and a request while one waits. -/
theorem witness_management :
    let busy : State := { served with mgmt := { served.mgmt with waiting := some (1, 1) } }
    served.served = true ∧ State.reset.served = false ∧ served.mgmt.addr = none
      ∧ nextIs (exec (.entdaa 127) served) (fun t => decide (t.mgmt.addr = some 127)) = true
      ∧ nextIs (exec (.setEndpointId 1 254) served) (fun t => decide (t.mgmt.eid = 254)) = true
      ∧ nextIs (exec (.setEndpointId 0 255) served) (fun t => decide (t.mgmt.responses = [[0, 1, 2]])) = true
      ∧ nextIs (exec (.setEndpointId 0 7) served) (fun t => decide (t.mgmt.responses = [[0, 1, 2]])) = true
      ∧ nextIs (exec .getEndpointId served) (fun t => decide (t.mgmt.responses = [[0, 2, 0, 0, 0, 0]])) = true
      ∧ nextIs (exec (.getMctpVersionSupport 2) served) (fun t => decide (t.mgmt.responses = [[0, 4, 0x80]])) = true
      ∧ nextIs (exec .getMessageTypeSupport served) (fun t => decide (t.mgmt.responses = [[0, 5, 0, 2, 1, 0x7E]])) = true
      ∧ nextIs (exec (.getVendorDefinedMessageSupport 1) served) (fun t => decide (t.mgmt.responses = [[0, 6, 2]])) = true
      ∧ nextIs (exec (.pldmPlatformRequest 8) served) (fun t => decide (t.mgmt.responses.length = 1)) = true
      ∧ nextIs (exec (.pldmPlatformRequest 9) served) (fun t => decide (t.mgmt.responses = [[1, 2, 0, 4, 0]])) = true
      ∧ nextIs (exec (.pldmPlatformRequest 10) served) (fun t => decide (t.mgmt.responses = [[1, 2, 0x80]])) = true
      ∧ served.dictBusy 17 = false ∧ nextIs (exec (.mctpRead 3 0x7001 1 0 1) served) (fun t => decide (t.mgmt.responses.length = 1)) = true
      ∧ nextIs (exec (.mctpRead 3 0x7001 1 0 1) busy) (fun t => decide (t.mgmt.queue.length = 1)) = true
      ∧ nextIs (exec (.mctpWrite 3 0x7001 1 0 [3]) served) (fun t => decide (t.reg 0x7001 1 = 3 ∧ t.mgmt.responses.length = 1)) = true
      ∧ gives (exec (.mctpWrite 3 0x7001 1 0 (List.replicate 1087 0)) served) served = true
      ∧ gives (exec (.pldmBaseRequest []) State.reset) State.reset = true := by decide +kernel

/-- A serving state whose firmware store is changed. -/
def withFw (f : Firmware → Firmware) : State := { served with fw := f served.fw }

/-- Witness of FirmwareIsTransferredAndSwitched: each step of a transfer, and the same where it is not that step's turn. -/
theorem witness_firmware :
    let at' (n : Nat) := withFw fun f => { f with transfer := n, comps := [(0, 1)] }
    let bad := withFw fun f => { f with valid := 1 }
    nextIs (exec .requestUpdate served) (fun t => decide (t.fw.transfer = 1 ∧ t.reg 0xA030 3 = 1)) = true
      ∧ gives (exec .requestUpdate (withFw fun f => { f with activating := true })) (withFw fun f => { f with activating := true }) = true
      ∧ gives (exec (.passComponentTable [(0, 1)]) (withFw fun f => { f with transfer := 1 })) (at' 2) = true
      ∧ nextIs (exec (.updateComponent 0) (at' 2)) (fun t => decide (t.fw.transfer = 3 ∧ t.fw.valid = 1)) = true
      ∧ gives (exec (.transferComplete true) (at' 3)) (at' 4) = true
      ∧ nextIs (exec (.transferComplete false) (at' 3)) (fun t => decide (t.fw = (at' 0).fw)) = true
      ∧ nextIs (exec (.verifyComplete true) (at' 4)) (fun t => decide (t.fw.transfer = 5 ∧ t.fw.valid = 3 ∧ t.reg 0xA030 3 = 2)) = true
      ∧ nextIs (exec (.verifyComplete false) (at' 4)) (fun t => decide (t.fw = (at' 0).fw ∧ t.reg 0xA030 3 = 5)) = true
      ∧ gives (exec (.applyComplete true) (at' 5)) (at' 6) = true
      ∧ nextIs (exec (.applyComplete false) (at' 5)) (fun t => decide (t.fw.transfer = 0 ∧ t.fw.valid = 1)) = true
      ∧ (gives (exec (.passComponentTable []) (at' 0)) (at' 0) && gives (exec (.updateComponent 0) (at' 0)) (at' 0)
        && gives (exec (.transferComplete true) (at' 0)) (at' 0) && gives (exec (.verifyComplete true) (at' 0)) (at' 0)
        && gives (exec (.applyComplete true) (at' 0)) (at' 0)) = true
      ∧ served.mayActivate = true ∧ bad.mayActivate = false ∧ gives (exec (.activateFirmware true) bad) bad = true
      ∧ nextIs (exec (.activateFirmware true) served) (fun t => decide (t.fw.activating = true ∧ t.reg 0xA030 3 = 3 ∧ t.reg 0xA030 4 = 1)) = true
      ∧ nextIs (exec (.activateFirmware false) served) (fun t => decide (t.fw = served.fw ∧ t.reg 0xA030 3 = 5)) = true := by decide +kernel

/-- Witness of FirmwareIsTransferredAndSwitched: the first component, 1, 52 and 53, a controller whose range is not normal, and the
timeout. -/
theorem witness_switching :
    let s (n c : Nat) := (withFw fun f => { f with activating := true, switched := n }).setReg 0xA030 4 c
    (s 0 1).dmcsHealthy = true ∧ (s 0 1).armed 0x9019 0 0 = false ∧ Regs.wf (s 0 1).regs = true
      ∧ nextIs (exec .componentSwitch (s 0 1)) (fun t => decide (t.activeDmc = 1 ∧ t.dmcState 1 = 0 ∧ t.dmcState 0 = 1 ∧ t.fw.switched = 1 ∧ t.reg 0xA030 4 = 0)) = true
      ∧ gives (exec .componentSwitch (s 1 1)) (s 2 2) = true ∧ gives (exec .componentSwitch (s 52 52)) (s 53 53) = true
      ∧ nextIs (exec .componentSwitch (s 53 53)) (fun t => decide (t.fw.slot = 1 ∧ t.fw.switched = 54 ∧ t.fw.activating = false)) = true
      ∧ gives (exec .componentSwitch ((s 29 29).setReg 0x301B 9 1)) ((s 29 29).setReg 0x301B 9 1) = true
      ∧ nextIs (exec .componentReadyTimeout (s 2 2)) (fun t => decide (t.fw.activating = false ∧ t.fw.slot = 0 ∧ t.reg 0xA030 3 = 4)) = true
      ∧ gives (exec .componentReadyTimeout served) served = true := by decide +kernel

/-- Witness of ServiceOperationsAct: the last logical core and its cluster's spare, core 71; no spare; no core; a running operation. -/
theorem witness_service :
    let s := served.setReg 0xA000 3 63
    let lost := s.setReg (0xA100 + 70) 1 4
    let none' := s.setReg (0xA100 + 71) 1 3
    let far := served.setReg 0xA000 3 64
    let runs : State := { served with av := { served.av with serviceTest := some 8 } }
    takesScalar s 0 0xA000 2 1 = true ∧ s.serviceRuns = false ∧ s.physOf 63 = 70 ∧ s.spareOf 70 = some 71 ∧ s.physState 70 = 0
      ∧ lost.physState 70 = 4 ∧ none'.spareOf 70 = none
      ∧ nextIs (exec (.rotate 0) s) (fun t => decide (t.av.handover = some ⟨63, 71, true, false, false⟩ ∧ t.reg 0xA000 5 = 1)) = true
      ∧ nextIs (exec (.replace 17) lost) (fun t => decide (t.av.handover = some ⟨63, 71, true, true, true⟩ ∧ t.reg 0xA000 5 = 1)) = true
      ∧ nextIs (exec (.rotate 0) lost) (fun t => decide (t.reg 0xA000 5 = 5)) = true
      ∧ nextIs (exec (.replace 0) s) (fun t => decide (t.reg 0xA000 5 = 5)) = true
      ∧ nextIs (exec (.rotate 0) none') (fun t => decide (t.reg 0xA000 5 = 4)) = true
      ∧ nextIs (exec (.replace 0) far) (fun t => decide (t.reg 0xA000 5 = 5)) = true
      ∧ runs.serviceRuns = true ∧ nextIs (exec (.dmcSwitch 0) runs) (fun t => decide (t.reg 0xA000 5 = 3 ∧ t.activeDmc = 0)) = true := by
  decide +kernel

/-- Witness of ServiceOperationsAct: the operations on a physical core, SPARE and not, the controllers, and ACTIVATE_FW. -/
theorem witness_service_cores :
    let s := served.setReg 0xA000 4 8
    let a := served.setReg 0xA000 4 0
    let f : State := { s with top := { s.top with fuses := 2 ^ 16 + 2 ^ 17 + 1 } }
    let bad := withFw fun f => { f with valid := 1 }
    s.targetPhys = some 8 ∧ s.physState 8 = 1 ∧ a.physState 0 = 0
      ∧ nextIs (exec (.serviceSelftest 0) s) (fun t => decide (t.av.testing = [8] ∧ t.physState 8 = 2)) = true
      ∧ nextIs (exec (.serviceSelftest 0) a) (fun t => decide (t.reg 0xA000 5 = 5 ∧ t.av.testing = [])) = true
      ∧ nextIs (exec (.retire 0) s) (fun t => decide (t.physState 8 = 3 ∧ t.reg 0xA000 6 = 1)) = true
      ∧ nextIs (exec (.retire 0) a) (fun t => decide (t.reg 0xA000 5 = 5)) = true
      ∧ nextIs (exec (.clearFuse 0) f) (fun t => decide (t.top.fuses = 1)) = true
      ∧ nextIs (exec (.clearFuse 0) a) (fun t => decide (t.reg 0xA000 5 = 5)) = true
      ∧ nextIs (exec (.dmcSwitch 0) served) (fun t => decide (t.activeDmc = 1 ∧ t.reg 0xA000 5 = 2)) = true
      ∧ nextIs (exec (.dmcSwitch 0) (served.setReg 0xA020 3 2)) (fun t => decide (t.activeDmc = 0 ∧ t.reg 0xA000 5 = 5)) = true
      ∧ nextIs (exec (.activateFw 0 true) served) (fun t => decide (t.fw.activating = true ∧ t.fw.byService = true ∧ t.reg 0xA000 5 = 1)) = true
      ∧ nextIs (exec (.activateFw 0 false) served) (fun t => decide (t.fw = served.fw ∧ t.reg 0xA000 5 = 6)) = true
      ∧ nextIs (exec (.activateFw 0 true) bad) (fun t => decide (t.fw = bad.fw ∧ t.reg 0xA000 5 = 5)) = true := by decide +kernel

/-- Witness of ServiceOperationsAct: the hand-over, the self-test of core 8, and the heartbeats. -/
theorem witness_service_events :
    let av (f : Avail → Avail) : State := { served with av := f served.av }
    let h := av fun a => { a with handover := some ⟨63, 71, true, false, true⟩ }
    let t8 := av fun a => { a with testing := [8] }
    let m := av fun a => { a with muted := true, missed := 1 }
    let sick := served.setReg 0xA020 3 2
    h.stalled (h.sl.lastMark + 1) = false
      ∧ gives (exec (.handoverComplete ⟨[], []⟩) served) served = true ∧ t8.armed 0x9018 (physCode 8) 0 = false
      ∧ gives (exec (.coreSelftestComplete 8 0 []) served) served = true
      ∧ gives (exec .heartbeat (av fun a => { a with missed := 2 })) served = true
      ∧ nextIs (exec .heartbeat m) (fun t => decide (t.av.missed = 2)) = true
      ∧ served.dmcsHealthy = true ∧ sick.dmcsHealthy = false
      ∧ nextIs (exec .heartbeatTimeout served) (fun t => decide (t.activeDmc = 1 ∧ t.dmcState 0 = 2)) = true
      ∧ nextIs (exec .standbyLost served) (fun t => decide (t.activeDmc = 0 ∧ t.dmcState 1 = 2)) = true
      ∧ gives (exec .heartbeatTimeout sick) sick = true ∧ gives (exec .standbyLost sick) sick = true := by decide +kernel

/-- A serving state whose stream machinery is changed. -/
def withStrm (f : Streams → Streams) : State := { served with strm := f served.strm }

/-- The entry of a valid stream of stack 0 with intake slot i, other fields n. -/
def seWord (i n : Nat) : Desc := BitVec.ofNat 512 (put 254 254 1 + put 239 224 i + n)

/-- A serving state with stream 5 of stack 0, its pair, and a stream command with an op and other fields n. -/
def streamAt (e : Desc) (op n : Nat) : State := frontAt (withStrm fun x => { x with entries := [(5, e)] }) (word 4 (op + put 31 16 5 + n))

/-- The parts of StreamFront at that pair, decided, and that the command may, or may not, proceed. -/
def streamFree (e : Desc) (op n : Nat) : Bool :=
  let s := streamAt e op n
  let d := word 4 (op + put 31 16 5 + n)
  isFront s d && decide (scStream d = 5 ∧ descOp d = op) && !s.streamHeld 5 && !s.streamBlocked d && s.strm.waiting.isEmpty

/-- A chunk of stream 5. -/
def someChunk (st : ChunkState) (due : Nat) : Chunk :=
  { id := 0, stream := 5, st := st, ready := 0, due := due, resets := 0, inc := 0, first := 0, idle := 0, slots := 0, frames := [],
    host := true, missed := false, inj := false, waited := false }

/-- Witness of StreamCommandsTakeEffect: CREATE, RESET, MOVE and SET, of the partition, of another and of an invalid entry. -/
theorem witness_stream_commands :
    let e (n : Nat) := seWord 0xFFFF n
    let far (n : Nat) (s : State) := s.setReg 0x5100 2 n
    streamFree 0 1 0 = true ∧ streamFree (e 0) 2 0 = true ∧ streamFree (e (put 256 255 2)) 2 0 = true ∧ streamFree (e 0) 3 0 = true
      ∧ streamFree (e 0) 4 (put 303 284 9) = true ∧ (streamAt (e 0) 2 0).streamPart 5 = 0 ∧ busyRunning ≠ seBusy (e 0)
      ∧ nextIs (exec (.streamCreate 1 0) (streamAt 0 1 0)) (fun t => decide (seValid (t.entry 5) = true)) = true
      ∧ runs (exec (.streamCreate 1 0) (streamAt (e 0) 1 0)) = true
      ∧ nextIs (exec (.streamReset 1 0) (streamAt (e 0) 2 0)) (fun t => decide (seReq (t.entry 5) = 1)) = true
      ∧ seReq (e (put 267 264 1)) ≠ seAck (e (put 267 264 1)) ∧ nextIs (exec (.streamReset 1 0) (streamAt (e (put 267 264 1)) 2 0))
          (fun t => decide ((t.entry 5) = e (put 267 264 1) ∧ t.host.made.d0.length + t.host.accepted.d0.length = 1)) = true
      ∧ seRes (e (put 259 258 1)) = 1 ∧ runs (exec (.move 1 0) (streamAt (e (put 259 258 1)) 3 0)) = true
      ∧ nextIs (exec (.move 1 0) (streamAt (e 0) 3 (put 395 394 2))) (fun t => decide (seBusy (t.entry 5) = busyMoving ∧ t.strm.moves.length = 1)) = true
      ∧ nextIs (exec (.stSet 1 0) (streamAt (e 0) 4 (put 303 284 9))) (fun t => decide (seDeadline (t.entry 5) = 9)) = true
      ∧ (far 1 (streamAt (e 0) 2 0)).streamPart 5 = 1
      ∧ nextIs (exec (.streamReset 1 0) (far 1 (streamAt (e 0) 2 0))) (fun t => decide (t.entry 5 = e 0)) = true
      ∧ runs (exec (.streamReset 1 0) (streamAt 0 2 0)) = true ∧ runs (exec (.delete 1 0) (streamAt 0 6 0)) = true := by
  decide +kernel

/-- Witness of StreamCommandsTakeEffect: RESUME, DELETE, a command that waits and its resumption, and the end of a MOVE's copy. -/
theorem witness_stream_events :
    let e (n : Nat) := seWord 0xFFFF n
    let held (n : Nat) : State := let s := streamAt (e (put 256 255 3)) 5 n
      { s with strm := { s.strm with chunks := [someChunk .held 7] } }
    let run := streamAt (e (put 256 255 1)) 6 0
    let wait (b : Nat) := withStrm fun x => { x with entries := [(5, e (put 256 255 b))], waiting := [(1, 0, 1, word 4 (6 + put 31 16 5))] }
    let mv (fail : Bool) (p : Nat) := withStrm fun x => { x with
      entries := [(5, e (put 256 255 2 + put 459 408 p + put 407 392 1))]
      moves := [⟨5, 1, 0, 1, word 4 (3 + put 31 16 5 + put 447 396 (2 ^ 51 + 2 ^ 20)), false, fail, false⟩] }
    busyHeld = 3 ∧ busyRunning = 1 ∧ busyMoving = 2 ∧ streamFree (e 0) 5 0 = true ∧ streamFree (e (put 256 255 3)) 5 (put 7 4 2) = true
      ∧ endsWith (.resume 1 0) (streamAt (e 0) 5 0) (word 4 (5 + put 31 16 5)) stState = true
      ∧ runs (exec (.resume 1 0) (held (put 7 4 2))) = true
      ∧ nextIs (exec (.resume 1 0) (held 0)) (fun t => decide (t.strm.chunks.map (fun c => c.st) = [.queued])) = true
      ∧ nextIs (exec (.resume 1 0) (held (put 7 4 1))) (fun t => decide (t.strm.chunks = [])) = true
      ∧ streamFree (e 0) 6 0 = true ∧ nextIs (exec (.delete 1 0) (streamAt (e 0) 6 0)) (fun t => decide (seValid (t.entry 5) = false)) = true
      ∧ run.streamBlocked (word 4 (6 + put 31 16 5)) = true ∧ nextIs (exec (.delete 1 0) run) (fun t => decide (t.strm.waiting.length = 1)) = true
      ∧ gives (exec (.streamCommandResume 5) (wait 1)) (wait 1) = true
      ∧ nextIs (exec (.streamCommandResume 5) (wait 0)) (fun t => decide (t.strm.waiting = [])) = true
      ∧ (mv true 0).stateWaits 5 1 = false
      ∧ nextIs (exec (.moveCopyComplete 5 []) (mv true 0)) (fun t => decide (seBusy (t.entry 5) = busyHeld ∧ t.strm.moves = [])) = true
      ∧ (mv false (2 ^ 51)).strm.moves.map (fun m => ((mv false (2 ^ 51)).copyState m []).2) = [true]
      ∧ (mv false 0).strm.moves.map (fun m => ((mv false 0).copyState m []).2) = [false]
      ∧ nextIs (exec (.moveCopyComplete 5 []) (mv false (2 ^ 51))) (fun t => decide (seBusy (t.entry 5) = 0 ∧ sePtr (t.entry 5) = 2 ^ 51 + 2 ^ 20 ∧ t.strm.moves = [])) = true := by
  decide +kernel

/-- Witness of ChunksAreBatchedAndCommitted: the descriptor, the ring at 31 and 32 slots, and a deadline at and before its time. -/
theorem witness_chunks :
    let s (e : Desc) (n : Nat) := frontAt (withStrm fun x => { x with entries := [(5, e)] }) (word 5 (5 + n))
    let e := seWord 0xFFFF (put 311 292 9)
    let f : FrameInfo := ⟨3, false, 1, false, false, 0, 0, 0, 0⟩
    let r (n : Nat) := (withStrm fun x => { x with entries := [(5, e)], rings := [(5, { Ring.init with used := n, ticks := [f] })] }).setReg 0x5100 11 0
    let c (n : Nat) : State := { withStrm fun x => { x with entries := [(5, e)], chunks := [someChunk .queued 7] } with now := n }
    isFront (s e 0) (word 5 5) = true ∧ (s e 0).armed 0x9013 5 0 = false
      ∧ nextIs (exec (.chunkDescriptor 1 0) (s e 0)) (fun t => decide (t.strm.chunks.map (fun c => c.due) = [3600])) = true
      ∧ nextIs (exec (.chunkDescriptor 1 0) (s (seWord 0xFFFF 0) 0)) (fun t => decide (t.strm.chunks.map (fun c => c.due) = [dueNone])) = true
      ∧ nextIs (exec (.chunkDescriptor 1 0) ((s e 0).setReg 0x5100 2 1)) (fun t => decide (t.qp 1 0 14 = 1 ∧ t.strm.chunks = [])) = true
      ∧ runs (exec (.chunkDescriptor 1 0) (s 0 0)) = true
      ∧ gives (exec (.featureFrame 5) served) served = true
      ∧ nextIs (exec (.featureFrame 5) (r 31)) (fun t => decide ((t.ring 5).used = 32 ∧ (t.ring 5).ticks = [])) = true
      ∧ nextIs (exec (.featureFrame 5) (r 32)) (fun t => decide ((t.ring 5).used = 32 ∧ (t.ring 5).ticks = [] ∧ t.reg 0x5000 9 = 1)) = true
      ∧ nextIs (exec (.deadlineMiss 5) (c 7)) (fun t => decide (t.strm.chunks.map (fun c => c.missed) = [true] ∧ t.reg 0x9013 1 = 1)) = true
      ∧ (c 6).host.made = ⟨[], []⟩ ∧ (c 6).host.accepted = ⟨[], []⟩ ∧ gives (exec (.deadlineMiss 5) (c 6)) (c 6) = true := by
  decide +kernel

/-- A batch of stack 0 and its job 4. -/
def someBatch (launched : Bool) (grp : Option Nat) : Batch :=
  { job := 4, rows := [], resident := false, stage := [], since := 0, launched := launched, wrote := false, waited := false, own := 0, grp := grp, outs := [] }

/-- Witness of ChunksAreBatchedAndCommitted: forming, launching and committing a batch. -/
theorem witness_batches :
    let x : Ctx := { Ctx.init with st := .idle }
    let e := seWord 0xFFFF 0
    let base (inc : Nat) : State := ((withStrm fun x => { x with entries := [(5, e)], chunks := [{ someChunk .queued 7 with inc := inc }] }).setReg 0x5100 1 1).setBlob 0x5100 7 [0]
    let few := (base 0).setReg 0x5100 4 2
    let one := (base 0).setReg 0x5100 4 1
    let has (s : State) := s.setCtx 0 x
    let wait : State := { (few.setReg 0x5100 19 1) with now := 399 }
    let inv (b : Bool) : Invocation := { job := 4, ctx := 0, argAddr := 0, resAddr := 0, argRows := 0, resRows := 0, argHandle := 0, resHandle := 0, loaded := true, finished := b, stored := true }
    let bt (l b : Bool) : State := { (withStrm fun x => { x with batches := [(0, [someBatch l none])] }) with jobs := [newJob 4 1 0 0 0 0 0 false [inv b] (some 0)] }
    one.takesBatch 0 = true ∧ served.takesBatch 0 = false ∧ gives (exec (.batchForm 0 []) served) served = true ∧ gives (exec (.batchWindowExpiry 0 []) served) served = true
      ∧ ((few.dropStale 0).nextBatch 0 false).isNone = true ∧ gives (exec (.batchForm 0 []) few) few = true
      ∧ nextIs (exec (.batchForm 0 []) (base 1)) (fun t => decide (t.strm.chunks = [])) = true
      ∧ ((one.dropStale 0).nextBatch 0 false).isSome = true ∧ runs (exec (.batchForm 0 []) one) = true
      ∧ runs (exec (.batchForm 0 []) (has one)) = true
      ∧ gives (exec (.batchWindowExpiry 0 []) wait) wait = true
      ∧ (((has wait).dropStale 0).nextBatch 0 true).isNone = true
      ∧ (State.nextBatch (State.dropStale { has wait with now := 400 } 0) 0 true).isSome = true
      ∧ gives (exec (.lastSliceStaged 0) (bt true false)) (bt true false) = true
      ∧ nextIs (exec (.lastSliceStaged 0) (bt false false)) (fun t => decide ((t.batches 0).map (fun b => b.launched) = [true])) = true
      ∧ gives (exec (.batchCommit 0) (bt true false)) (bt true false) = true
      ∧ (bt true true).headMisused 0 = false ∧ ((bt true true).setReg 0x5100 22 1).headMisused 0 = true
      ∧ runs (exec (.batchCommit 0) ((bt true true).setReg 0x5100 22 1)) = true
      ∧ nextIs (exec (.batchCommit 0) (bt true true)) (fun t => decide (((t.batches 0).map fun b => b.wrote) ≠ [false])) = true := by
  decide +kernel

/-- A serving state whose domain d runs with its next tick n at a place, on a frame of 4 samples. -/
def domainAt (d n at' : Nat) (f : Domain → Domain) : State :=
  (((withStrm fun x => { x with domains := [(d, f { Domain.init with next := n, at' := at' })] }).setReg (0x5810 + d) 8 1).setReg 0x5800 2 0).setReg (0x5810 + d) 3 4

/-- Witness of DomainsTickStartAndLock: the ticks at their cycle and one before it, the shared frame, and the start. -/
theorem witness_ticks :
    let s (n : Nat) := domainAt 31 n (5 * 2 ^ 24) id
    let at' (n : Nat) (s : State) : State := { s with now := n }
    let sh := (domainAt 0 0 0 id).setReg 0x5800 2 1
    let k (n : Nat) := (domainAt 31 0 0 fun x => { x with shared := n }).setReg 0x5800 2 1
    let st : State := domainAt 31 9 9 fun x => { x with start := some 7 }
    (s 4).reg (0x5810 + 31) 8 = 1 ∧ (s 4).reg 0x5800 2 ≠ 1
      ∧ nextIs (exec (.sampleTick 31) (at' 5 (s 3))) (fun t => decide ((t.domain 31).next = 4)) = true
      ∧ gives (exec (.frameTick 31) (at' 5 (s 3))) (at' 5 (s 3)) = true
      ∧ nextIs (exec (.frameTick 31) (at' 5 (s 4))) (fun t => decide ((t.domain 31).next = 5 ∧ t.reg 0x582F 10 = 1 ∧ (t.domain 31).lastFrame = 5 ∧ t.reg 0x582F 8 = 1)) = true
      ∧ gives (exec (.sampleTick 31) (at' 5 (s 4))) (at' 5 (s 4)) = true
      ∧ nextIs (exec (.frameTick 31) (at' 5 (domainAt 31 4 0 fun x => { x with stopping := true }))) (fun t => decide (t.reg 0x582F 8 = 0)) = true
      ∧ gives (exec (.sampleTick 31) (at' 4 (s 3))) (at' 4 (s 3)) = true ∧ gives (exec (.frameTick 31) (at' 4 (s 4))) (at' 4 (s 4)) = true
      ∧ (sh.setReg 0x5800 1 1).reg 0x5800 1 ≠ 0
      ∧ nextIs (exec (.frameTick 0) (sh.setReg 0x5800 1 1)) (fun t => decide (t.reg 0x5810 10 = 1)) = true
      ∧ nextIs (exec (.sampleTick 31) (at' (2 ^ 40) (k 3))) (fun t => decide ((t.domain 31).shared = 4)) = true
      ∧ gives (exec (.sampleTick 31) (at' (2 ^ 40) (k 4))) (at' (2 ^ 40) (k 4)) = true
      ∧ gives (exec (.domainStartAt 31) (at' 6 st)) (at' 6 st) = true
      ∧ nextIs (exec (.domainStartAt 31) (at' 7 st)) (fun t => decide ((t.domain 31).at' = 7 * 2 ^ 24 ∧ (t.domain 31).next = 0 ∧ t.reg 0x582F 9 = 7)) = true := by
  decide +kernel

/-- Witness of DomainsTickStartAndLock: the interval of an edge at its limits, and the loss at its time. -/
theorem witness_pps :
    let s (n : Nat) : State := { (withStrm fun x => { x with ppsEdge := some 10 }) with now := n + 10 }
    let l (n : Nat) : State := { served with now := n }
    let lost (b : Bool) : State := { (withStrm fun x => { x with ppsLost := b }) with now := 440000000 }
    (s 399960000).armed 0x901A 0 0 = false
      ∧ nextIs (exec (.ppsEdge true) (s 399960000)) (fun t => decide (t.reg 0x5800 5 = 1 ∧ t.reg 0x5800 4 = 399960000 ∧ t.reg 0x5800 3 = 399960010)) = true
      ∧ nextIs (exec (.ppsEdge true) (s 400040000)) (fun t => decide (t.reg 0x5800 5 = 1)) = true
      ∧ nextIs (exec (.ppsEdge true) (s 399959999)) (fun t => decide (t.reg 0x5800 5 = 0 ∧ t.reg 0x5800 6 = 1)) = true
      ∧ nextIs (exec (.ppsEdge true) (s 400040001)) (fun t => decide (t.reg 0x5800 5 = 0 ∧ t.reg 0x5800 6 = 1)) = true
      ∧ (s 399960000).strm.ppsHigh = false ∧ gives (exec (.ppsEdge false) (s 399960000)) (s 399960000) = true
      ∧ nextIs (exec (.ppsEdge true) (l 399)) (fun t => decide (t.strm.ppsHigh = true ∧ t.reg 0x5800 6 = 0)) = true
      ∧ gives (exec .ppsLoss (l 439999999)) (l 439999999) = true
      ∧ nextIs (exec .ppsLoss ((lost true).setReg 0x582F 5 1)) (fun t => decide (t.reg 0x901A 1 = 0)) = true
      ∧ nextIs (exec .ppsLoss ((lost false).setReg 0x582F 5 1)) (fun t => decide (t.reg 0x901A 1 = 1 ∧ t.strm.ppsLost = true)) = true := by
  decide +kernel

/-- A serving state with stream 5 of stack 0, intake slot 2, and an intake. -/
def intakeAt (x : Intake) : State := withStrm fun y => { y with entries := [(5, seWord 2 0)], intakes := [(5, x)] }

/-- Witness of IntakeTakesPacketsAndMakesFrames, by clause: the tail at its limit, an entry dropped and one late, the ticks. -/
theorem witness_intake :
    let r := ((served.setReg 0x588E 2 4).setReg 0x588E 3 7).setReg 0x588E 1 (2 ^ 51)
    let w (x : Intake) (n : Nat) (e : Desc) : State := { r with strm := { (intakeAt x).strm with ingress := [(14, n)], entries := [(0, e)], intakes := [(0, x)] } }
    let on (st cfg : Nat) : Intake := { Intake.init with st := st, cfg := BitVec.ofNat 512 cfg }
    let tick (x : Intake) := (intakeAt x).setReg 0x5810 10 1
    nextIs (exec (.ingressTailWrite 7 0 11 []) r) (fun t => decide (t.strm.ingress = [(14, 11)])) = true
      ∧ runs (exec (.ingressTailWrite 7 0 12 []) r) = true
      ∧ nextIs (exec (.egressHeadWrite 7 0 12) r) (fun t => decide (t.strm.egress = [(14, 12)])) = true
      ∧ nextIs (exec (.ingressEntry 7 0 []) (w (on 3 0) 8 0)) (fun t => decide (t.reg 0x588E 3 = 8 ∧ t.reg 0x5801 2 = 1)) = true
      ∧ nextIs (exec (.ingressEntry 7 0 []) ((w (on 3 0) 8 (seWord 2 0)).setReg 0x5100 2 7)) (fun t => decide ((t.intake 0).late = 1 ∧ t.reg 0x5801 1 = 1 ∧ t.reg 0x5801 3 = 1)) = true
      ∧ gives (exec (.ingressEntry 7 0 []) (w (on 3 0) 7 0)) (w (on 3 0) 7 0) = true
      ∧ (tick (on 0 0)).streamTickDue 5 = true ∧ served.streamTickDue 5 = false ∧ (tick (on 0 0)).armed 0x9014 5 0 = false
      ∧ nextIs (exec (.streamFrameTick 5) (tick (on 0 0))) (fun t => decide ((t.intake 5).served = 1 ∧ (t.ring 5).ticks = [])) = true
      ∧ (icSlip (on 3 (2 ^ 16)).cfg = true ∧ icRate (on 3 (2 ^ 16)).cfg ≠ (tick (on 3 0)).dm 0 4) ∧ icSlip (on 3 0).cfg = false
      ∧ runs (exec (.streamFrameTick 5) (tick (on 3 (2 ^ 16)))) = true
      ∧ nextIs (exec (.streamFrameTick 5) (tick (on 4 0))) (fun t => decide ((t.intake 5).st = 0)) = true
      ∧ gives (exec (.streamFrameTick 5) served) served = true
      ∧ gives (exec (.stopTimeout 5) (intakeAt { (on 3 0) with idle := 0, cfg := BitVec.ofNat 512 (2 ^ 512 - 1) })) (intakeAt { (on 3 0) with idle := 0, cfg := BitVec.ofNat 512 (2 ^ 512 - 1) }) = true
      ∧ nextIs (exec (.stopTimeout 5) (intakeAt { (on 3 0) with idle := 2 ^ 32, cfg := BitVec.ofNat 512 (2 ^ 512 - 1) })) (fun t => decide ((t.intake 5).stop = some 0 ∧ (t.intake 5).st = 4)) = true
      ∧ nextIs (exec (.intakeStateWriteback 5) (intakeAt { (on 3 0) with since := 4 })) (fun t => decide ((t.intake 5).since = 0)) = true
      ∧ gives (exec (.intakeStateWriteback 5) served) served = true := by
  decide +kernel

/-- A valid table of width 16 in BF16, its rows n, homed on module 0, and other fields k. -/
def tdWord (n k : Nat) : Desc := BitVec.ofNat 512 (put 162 162 1 + put 187 177 16 + put 176 173 1 + put 411 380 n + k)

/-- A serving state with table 1, and a row or sluice command at the front of pair 0 of function 1. -/
def withTable (d : Desc) : State := { served with tab := { served.tab with desc := [(1, [(0, d)])] } }
def rowWord (op n : Nat) : Desc := word 6 (op + put 27 16 1 + n)

/-- The command at the front completes with a status, after the read of its list. -/
def endsRow (c : Instr) (s : State) (d : Desc) (ue : List Nat) (st : Nat) : Bool :=
  let u := s.popDesc 1 0 d
  let r := u.readMem 0 (some 0) (rcList d) (4 * rcCount d) false ue
  isFront s d && s.tab.waiting.isEmpty && gives (exec c s) (r.1.complete 1 0 d (s.headAfter 1 0 d) st)

/-- Witness of RowCommandsAndPinsComplete: the table's owner, state and home; the list; a locked row; no space, and a row. -/
theorem witness_rows :
    let t := tdWord 9 0
    let s (op n : Nat) := frontAt (withTable t) (rowWord op n)
    let at' (k op : Nat) := frontAt (withTable (tdWord 9 k)) (rowWord op 0)
    let host := put 395 344 (2 ^ 51)
    let lock (s : State) : State := { s with sl := { s.sl with locks := [(1, 0, 5)] } }
    let ends (c : Instr) (s : State) (op st : Nat) := endsWith c s (rowWord op 0) st
    tdValid t = true ∧ tdOwner t = 0 ∧ tdHome t = served.me ∧ (withTable t).table 1 = t
      ∧ (ends (.promote 1 0 []) (at' (put 166 163 1) 1) 1 stFault && ends (.demote 1 0) (at' (put 166 163 1) 2) 2 stFault
        && ends (.migrate 1 0 []) (at' (put 166 163 1) 3) 3 stFault && ends (.unmigrate 1 0 []) (at' (put 166 163 1) 4) 4 stFault) = true
      ∧ (ends (.promote 1 0 []) (at' (put 207 202 1) 1) 1 stState && ends (.unmigrate 1 0 []) (frontAt served (rowWord 4 0)) 4 stState) = true
      ∧ endsRow (.promote 1 0 []) (s 1 0) (rowWord 1 0) [] stFault = true
      ∧ endsRow (.migrate 1 0 [2 ^ 46]) (s 3 host) (rowWord 3 host) [2 ^ 46] stError = true
      ∧ nextIs (exec (.promote 1 0 []) (lock (s 1 host))) (fun t => decide (t.tab.waiting.length = 1)) = true
      ∧ nextIs (exec (.promote 1 0 []) ((s 1 host).setReg 0x6000 2 0)) (fun t => decide (t.tab.waiting = [] ∧ t.sl.groups = [] ∧ t.host.made.d0.length + t.host.accepted.d0.length = 1)) = true
      ∧ nextIs (exec (.demote 1 0) (s 2 host)) (fun t => decide (t.tab.waiting = [] ∧ t.reg 0x6010 21 = 1)) = true
      ∧ nextIs (exec (.unmigrate 1 0 []) (s 4 host)) (fun t => decide (t.tab.waiting = [] ∧ t.reg 0x6010 21 = 1)) = true := by
  decide +kernel

/-- Witness of RowCommandsAndPinsComplete: a slot that is free, the partition's own, and another's, of die 1's last slot. -/
theorem witness_pins :
    let d (op : Nat) := word 7 (op + put 31 20 4095 + put 19 19 1 + put 18 18 1)
    let s (op : Nat) (p : Option Pin) : State := frontAt { served with sl := { served.sl with p := ⟨8, 9⟩, pins := match p with | some x => [(8191, some x)] | none => [] } } (d op)
    let p (o : Nat) : Pin := { held := true, mark := 3, owner := o, since := 0, withQueue := none, withJob := none }
    (isFront (s 1 none) (d 1) && isFront (s 2 none) (d 2) && isFront (s 3 none) (d 3)) = true
      ∧ nextIs (exec (.pin 1 0) (s 1 none)) (fun t => decide (t.pin 1 4095 = some ⟨true, 9, 0, 0, some 16, none⟩)) = true
      ∧ nextIs (exec (.pin 1 0) (s 1 (some (p 0)))) (fun t => decide ((t.pin 1 4095).map (fun x => x.mark) = some 9)) = true
      ∧ nextIs (exec (.unpin 1 0) (s 2 (some (p 0)))) (fun t => decide (t.pin 1 4095 = none ∧ t.pinSlot 1 4095 = some { p 0 with held := false })) = true
      ∧ endsWith (.pin 1 0) (s 1 (some (p 1))) (d 1) stFault = true ∧ endsWith (.unpin 1 0) (s 2 (some (p 1))) (d 2) stFault = true
      ∧ nextIs (exec (.mark 1 0) (s 3 none)) (fun t => decide ((t.host.made.d0 ++ t.host.accepted.d0).map (fun r => r.mark) = [9])) = true := by
  decide +kernel

/-- An apply window of table 1 for job 4, and the job, its invocation ended or not. -/
def someApply (job : Option Nat) (started done : Bool) : Apply :=
  { grp := 0, table := 1, job := job, rows := [], started := started, done := done, failed := false }
def someJob (finished : Bool) : Job :=
  newJob 4 1 0 0 0 0 0 false [{ job := 4, ctx := 0, argAddr := 0, resAddr := 0, argRows := 0, resRows := 0, argHandle := 0, resHandle := 0, loaded := true, finished := finished, stored := true }] none

/-- A serving state with table 1 and a change of the sluice controllers. -/
def withSl (f : Sluice → Sluice) : State := { withTable (tdWord 9 (put 172 170 1)) with sl := f served.sl }

/-- Witness of UpdatesAreAppliedInTurn: windows, the final commit and a turn. -/
theorem witness_updates :
    let w (a b : Bool) : State := { withSl fun x => { x with applies := [someApply (some 4) a b] } with jobs := [someJob true] }
    let j (b : Bool) : State := { served with jobs := [someJob b] }
    let g : Group := { id := 0, issuer := .job 4 0, die := 0, part := some 0, items := [], failed := true, phase := .begun, stalled := false, after := none, locks := [], lost := false }
    let t (v : Option Bool) (late : Bool) : Turn := { step := 2, src := 5, job := 7, grp := 0, verdict := v, since := 0, late := late }
    let turn (l : List Apply) (gs : List Group) := withSl fun x => { x with turns := [t (some true) false], applies := l, groups := gs, closed := [(5, 3)] }
    let on (s : State) := s.setReg 0x6810 3 2
    let h (f : Bool) : Group := { g with issuer := .home 2 5, failed := f }
    (w false false).applyFree (someApply (some 4) false false) = true ∧ (w false false).coreRuns ((w false false).physOf 0) = true
      ∧ ((w false false).setReg 0xA100 1 3).coreRuns 0 = false
      ∧ gives (exec (.applyWindow 4 []) served) served = true ∧ gives (exec (.applyWindowComplete 4) served) served = true
      ∧ nextIs (exec (.applyWindow 4 []) (w false false)) (fun t => decide (t.sl.applies.map (fun a => a.started) = [true])) = true
      ∧ nextIs (exec (.applyWindow 4 []) ((w false false).setReg 0xA100 1 3)) (fun t => decide (t.jobs.map (fun j => j.decision) ≠ [none])) = true
      ∧ nextIs (exec (.applyWindowComplete 4) (w true false)) (fun t => decide (t.sl.applies = [someApply (some 4) true true])) = true
      ∧ (j true).jobTurn (someJob true) = true ∧ (j true).appliesDone 4 = true
      ∧ gives (exec (.jobFinalCommit 4) (j false)) (j false) = true
      ∧ nextIs (exec (.jobFinalCommit 4) (j true)) (fun t => decide (t.jobs.all fun j => j.decision = some .completed)) = true
      ∧ nextIs (exec (.jobFinalCommit 4) { j true with sl := { served.sl with groups := [g], nextGroup := 1 } }) (fun t => decide (t.jobs.all fun j => j.decision = some (.aborted 7))) = true
      ∧ ({ w true false with jobs := [{ someJob true with asked := true }] } : State).appliesDone 4 = false
      ∧ gives (exec (.turnApply 1 []) served) served = true ∧ (on (turn [] [])).servedTurn = some (t (some true) false)
      ∧ nextIs (exec (.turnApply 1 []) (on (turn [] []))) (fun t => decide (t.sl.turns = [])) = true
      ∧ (on (turn [someApply none false false] [h false])).servedTurn = some (t (some true) false)
      ∧ nextIs (exec (.turnApply 1 []) (on (turn [someApply none false false] [h false]))) (fun t => decide (t.sl.turns = [] ∨ t.sl.applies = [])) = true := by
  decide +kernel

/-- A message of module 5 for this module. -/
def someMsg (kind : Nat) : FabMsg :=
  { cls := 0, kind := kind, src := 5, dst := 0, tag := 9, flags := 0, table := 1, row := 8, addr := 0, count := 0, mark := 7, step := 2, status := 0, data := [] }

/-- A serving state with table 1 in which a request has been sent to module 5 and not answered. -/
def asked (use : MsgFor) : State :=
  let o : OutMsg := { id := 0, msg := { someMsg 0 with src := 0, dst := 5 }, use := use, own := true, inTrunk := none, inBit := false, inBuf := none, since := 0, dead := false }
  { withTable (tdWord 9 0) with fab := { served.fab with sent := [o] } }

/-- Status and kind of the only message that waits. -/
def answers (o : Host.Outcome State Fault Refusal) (st : Nat) : Bool := nextIs o fun t => decide (t.fab.waiting.map (fun x => x.msg.status) = [st])

/-- Witness of UpdatesAreAppliedInTurn: the last row and one beyond it, the messages of a turn, and the step timeout. -/
theorem witness_update_messages :
    let s := withSl id
    let m := someMsg 3
    let t : Turn := { step := 2, src := 5, job := 7, grp := 0, verdict := none, since := 0, late := false }
    let k := withSl fun x => { x with turns := [t] }
    let p (c : Nat) := (withSl fun x => { x with turns := [t], closed := [(5, c)] }).setReg 0x6810 1 32
    let n := usCycles (served.reg 0x6800 6)
    let w (now : Nat) : State := { (p 2).setReg 0x6810 3 2 with now := now, sl := { (p 2).sl with awaited := some (2, 5, 0) } }
    tdOptimiser (s.table 1) ≠ 0 ∧ tdFormat (tdWord 9 (put 176 173 4)) = 5 ∧ m.row < 9
      ∧ answers (exec (.parcel { m with row := 9 }) s) 1 = true ∧ answers (exec (.parcel m) served) 1 = true
      ∧ ((asked (.parcel 0 1)).takeResponse { someMsg 4 with flags := 3 }).2.map (fun o => o.use) = some (.parcel 0 1)
      ∧ nextIs (exec (.parcelAck (someMsg 4) ⟨[], []⟩) (asked (.parcel 0 1))) (fun t => decide (t.fab.sent = [])) = true
      ∧ nextIs (exec (.verdict m) k) (fun t => decide (t.sl.turns = [{ step := 2, src := 5, job := 7, grp := 0, verdict := some true, since := 0, late := false }])) = true
      ∧ nextIs (exec (.verdict { m with status := 1 }) k) (fun t => decide (t.sl.turns = [])) = true
      ∧ answers (exec (.verdict m) s) 0 = true
      ∧ nextIs (exec (.closedStep m) s) (fun t => decide (SMap.get 0 t.sl.closed 5 = 3)) = true
      ∧ answers (exec (.withdraw m) k) 0 = true
      ∧ (p 0).pendingTurns = [(2, 5)] ∧ (p 2).closedFor 5 2 = false ∧ (p 3).closedFor 5 2 = true
      ∧ (w 0).awaitedFor = some (2, 5)
      ∧ nextIs (exec (.stepTimeout 5) (w n)) (fun t => decide (t.sl.timedOut = [(5, 2)] ∧ t.reg 0x6800 19 = 1)) = true
      ∧ gives (exec (.stepTimeout 5) (w (n - 1))) (w (n - 1)) = true
      ∧ nextIs (exec (.stepTimeout 5) { w n with sl := (p 2).sl }) (fun t => decide (t.sl.awaited = some (2, 5, n) ∧ t.sl.timedOut = [])) = true
      ∧ gives (exec (.stepTimeout 5) (p 3)) (p 3) = true ∧ gives (exec (.stepTimeout 5) s) s = true := by decide +kernel

/-- Table 1 with a replica of row 8 on die 0, its contents and mark. -/
def withReplica (die : Nat) (bs : List Byte) (m : Nat) : State :=
  let s := withTable (tdWord 9 0)
  let e : DirEntry := { table := 1, row := 8, since := 0, gone := none, replica := some (bs, m), reloc := none }
  { s with tab := { s.tab with dir := if die = 0 then ⟨[e], []⟩ else ⟨[], [e]⟩ } }

/-- Witness of ReplicasFollowTheirHome, by clause. -/
theorem witness_replicas :
    let s := withTable (tdWord 9 0)
    let bs := List.replicate 32 (0 : Byte)
    let r := withReplica 1 bs 0
    let x := withReplica 1 (List.replicate 32 1) 0
    let m := { someMsg 9 with data := bs }
    (s.ownReplica 1 8).isNone = true ∧ r.ownReplica 1 8 = some (1, bs, 0)
      ∧ answers (exec (.refresh m) s) 0 = true
      ∧ nextIs (exec (.refresh m) r) (fun t => decide (t.sl.versions.d1.length = 1 ∧ t.fab.waiting.length = 1)) = true
      ∧ answers (exec (.replicaInstall m) r) 0 = true
      ∧ answers (exec (.replicaInstall m) (s.setReg 0x6000 2 0)) 1 = true ∧ (s.setReg 0x6000 2 0).replicaFits 0 1 32 = false
      ∧ (s.replicaFits 0 1 32 || s.replicaFits 1 1 32) = true
      ∧ answers (exec (.replicaRemove m) s) 0 = true
      ∧ nextIs (exec (.replicaRemove m) (withReplica 0 bs 0)) (fun t => decide (t.ownReplica 1 8 = none ∧ t.fab.waiting.length = 1)) = true
      ∧ gives (exec (.audit 1 8) served) served = true
      ∧ (r.resvCheck 1 1 none []).2 = false ∧ r.armed 0x9012 1 0 = false ∧ r.homeMarkOf 1 8 = 0 ∧ (r.rowRead 16 (r.homeAddr 1 8) 32 []).2 = some bs ∧ r.reg 0x6800 7 ≠ 0
      ∧ nextIs (exec (.audit 1 8) r) (fun t => decide (t.tab.dir = r.tab.dir ∧ t.reg 0x9012 1 = 0)) = true
      ∧ nextIs (exec (.audit 1 8) x) (fun t => decide (t.tab.dir = r.tab.dir ∧ t.reg 0x9012 1 = 1)) = true
      ∧ nextIs (exec (.audit 1 8) { x with tab := { x.tab with homeMark := [(2 ^ 32 + 8, 2)] } })
          (fun t => decide (t.ownReplica 1 8 = some (1, bs, 2) ∧ t.reg 0x6800 15 = 1 ∧ t.reg 0x9012 1 = 0)) = true := by decide +kernel

/-- Witness of PeersAreServedAndAnswer: requests of a peer. -/
theorem witness_peer_requests :
    let s := ((withTable (tdWord 9 0)).setReg 0x8060 2 (2 ^ 20)).setReg 0x8060 3 32
    let open' := (s.setReg 0x8060 4 3).setReg 0x3010 1 (2 ^ 36)
    let m := { someMsg 1 with addr := 8 * 32, count := 32, data := List.replicate 32 3 }
    let far := { open' with tab := { s.tab with desc := [(1, [(0, tdWord 9 (put 207 202 1))])] } }
    let v : State := { open' with sl := { open'.sl with versions := ⟨[{ someVersion with table := 1, row := 8 }], []⟩ } }
    rowOfAddr (tdWord 9 0) m.addr = some 8 ∧ rowOfAddr (tdWord 9 0) (9 * 32) = none
      ∧ answers (exec (.rowRead { m with addr := 9 * 32 } []) s) 3 = true
      ∧ answers (exec (.rowRead { m with addr := 9 * 32 } []) open') 1 = true
      ∧ answers (exec (.rowRead { m with flags := 1 } []) s) 1 = true
      ∧ nextIs (exec (.rowRead { m with flags := 1 } []) (withReplica 1 (List.replicate 32 1) 4)) (fun t => decide (t.fab.waiting.map (fun o => (o.msg.mark, o.msg.data)) = [(4, List.replicate 32 1)])) = true
      ∧ answers (exec (.rowRead m []) far) 1 = true ∧ answers (exec (.rowRead m []) (s.setReg 0x8060 4 2)) 3 = true
      ∧ nextIs (exec (.rowRead m []) v) (fun t => decide (t.fab.waiting.map (fun o => o.msg.data) = [List.replicate 32 5])) = true
      ∧ nextIs (exec (.rowRead m []) open') (fun t => decide (t.fab.waiting.map (fun o => (o.msg.status, o.msg.data)) = [(0, List.replicate 32 0)])) = true
      ∧ answers (exec (.read m []) s) 3 = true ∧ answers (exec (.write m) s) 3 = true ∧ open'.servedStatus 5 256 32 false = 0
      ∧ nextIs (exec (.read m []) open') (fun t => decide (t.fab.waiting.map (fun o => o.msg.data) = [List.replicate 32 0])) = true
      ∧ nextIs (exec (.write m) open') (fun t => decide (t.sl.lastMark = 1 ∧ t.fab.waiting.length = 1)) = true
      ∧ answers (exec (.dictRead { m with addr := 0x700101 }) s) 3 = true ∧ answers (exec (.dictRead { m with addr := 0x10FF01 }) s) 1 = true
      ∧ nextIs (exec (.dictRead { m with addr := 0x800001 }) (s.setReg 0x8000 1 0)) (fun t => decide (t.fab.waiting.map (fun o => o.msg.data) = [[0]])) = true
      ∧ nextIs (exec (.dictData m) (asked .none)) (fun t => decide (t.fab.sent = [])) = true := by decide +kernel

/-- Witness of AnswersEndTheirExchanges: the answers of a peer, and a message that finds no way at its timeout and before it. -/
theorem witness_peer_answers :
    let m := someMsg 2
    let uses := [MsgFor.row 0 1, .refresh, .dmv 0 1, .load 4 0 0, .state 5 0, .jobWrite 4, .result 4, .rowCmd 0]
    let n := usCycles (served.reg 0x8000 3)
    let o (own : Bool) : OutMsg := { id := 3, msg := { someMsg 1 with src := 0, dst := 5 }, use := .none, own := own, inTrunk := none, inBit := false, inBuf := none, since := 0, dead := false }
    let w (own : Bool) (now : Nat) : State := { served with fab := { served.fab with waiting := [o own] }, now := now }
    uses.all (fun u => decide (((asked u).takeResponse m).2.map (fun o => o.use) = some u)) = true
      ∧ uses.all (fun u => nextIs (exec (.rowData m ⟨[], []⟩) (asked u)) fun t => decide (t.fab.sent = [])) = true
      ∧ uses.all (fun u => nextIs (exec (.readData { m with status := 1 } ⟨[], []⟩ []) (asked u)) fun t => decide (t.fab.sent = [])) = true
      ∧ uses.all (fun u => nextIs (exec (.ack { m with status := 2 } ⟨[], []⟩ []) (asked u)) fun t => decide (t.fab.sent = [])) = true
      ∧ uses.all (fun u => nextIs (exec (.ack m ⟨[], []⟩ []) (asked u)) fun t => decide (t.fab.sent = [])) = true
      ∧ uses.all (fun u => nextIs (exec (.readData m ⟨[], []⟩ []) (asked u)) fun t => decide (t.fab.sent = [])) = true
      ∧ (served.takeResponse m).2.isNone = true ∧ gives (exec (.rowData m ⟨[], []⟩) served) served = true ∧ gives (exec (.ack m ⟨[], []⟩ []) served) served = true
      ∧ served.noWay (o true) = true ∧ neverTimesOut (o true).msg = false
      ∧ gives (exec (.fabricTimeout 3) (w true (n - 1))) (w true (n - 1)) = true
      ∧ nextIs (exec (.fabricTimeout 3) (w true n)) (fun t => decide (t.fab.waiting = [])) = true
      ∧ nextIs (exec (.fabricTimeout 3) (w false n)) (fun t => decide (t.fab.waiting = [])) = true := by decide +kernel

/-- A serving state whose range 0 has all channels and 2^36 bytes, and a change of the memory tiers. -/
def withTiers (f : Tiers → Tiers) : State :=
  State.setReg (State.setReg { served with tiers := f served.tiers } 0x3010 1 (2 ^ 36)) 0x3010 2 0xFFFFFFFF

/-- A wide request for the first unit of a granule of range 0, that arrived at cycle 0, and a transfer without errors. -/
def someReq (kind : ReqKind) (granule : Nat) : MemReq :=
  { kind := kind, narrow := false, range := 0, granule := granule, units := 1, arrived := 0, lost := 0 }
def clean : TransferCheck := { failures := 0, corrected := 0, ondie := 0, second := 0, uncorrectable := 0 }

/-- Witness of MemoryIsRequestedAndPatrolled: the cores' rows. -/
theorem witness_patrol :
    let s := coreAt { Csq.init with phase := .run } [0] []
    let c (ret : Nat) := s.modCore 0 fun c => { c with retained := ret, writeBack := [4, 5] }
    SMap.rising 0 (c 0).cores = true ∧ SMap.rising 0 ((c 0).core 0).patrol = true ∧ (c 0).armed 0x9002 ((c 0).logicalOf 0) 4 = false
      ∧ nextIs (exec (.scrubWriteBack 0) (c 0)) (fun t => decide ((t.core 0).writeBack = [5])) = true
      ∧ nextIs (exec (.patrolScrub 0 ⟨[], []⟩) (c 8)) (fun t => decide ((t.core 0).patrol = [(0, 1), (1, 1), (2, 1)])) = true
      ∧ nextIs (exec (.patrolScrub 0 ⟨[0], []⟩) (c 14)) (fun t => decide ((t.core 0).patrol = [(0, 1)] ∧ (t.core 0).writeBack = [4, 5, 0])) = true
      ∧ nextIs (exec (.patrolScrub 0 ⟨[], [0]⟩) (c 14)) (fun t => decide (t.reg 0x9002 1 = 1)) = true := by
  decide +kernel

/-- Witness of MemoryIsRequestedAndPatrolled: the channels, the write-combining buffers and the memory patrol. -/
theorem witness_memory :
    let q (l : List MemReq) := withTiers fun x => { x with chans := [(0, { Channel.init with queue := l })] }
    let at' (n : Nat) (s : State) : State := { s with now := n }
    let k := usCycles 1
    let w := withTiers fun x => { x with lines := [(0, [⟨7, 1, 0⟩])] }
    let n := served.reg 0x3000 3
    let bad : State := withTiers fun x => { x with ranges := [(0, { Range.init with poison := [3] })] }
    let one (kind : ReqKind) := q [someReq kind 0]
    nextIs (exec (.channelPowerDown 0 31) (at' k (withTiers id))) (fun t => decide ((t.chan 0 31).asleep = true)) = true
      ∧ gives (exec (.channelPowerDown 0 31) (at' (k - 1) (withTiers id))) (at' (k - 1) (withTiers id)) = true
      ∧ gives (exec (.memoryRequest 0 0 clean) served) served = true ∧ (one .write).bankBlocked 0 (someReq .write 0) = false
      ∧ (List.range 9).all (fun i => !(q []).armedParity 0 0 i) = true
      ∧ nextIs (exec (.memoryRequest 0 0 clean) (q [someReq .write 0, someReq .read 32])) (fun t => decide ((t.chan 0 0).queue = [someReq .read 32])) = true
      ∧ nextIs (exec (.memoryRequest 0 0 clean) (one .read)) (fun t => decide ((t.chan 0 0).queue = [])) = true
      ∧ nextIs (exec (.memoryRequest 0 0 { clean with failures := 9 }) (one .write)) (fun t => decide ((t.chan 0 0).failures = 1 ∧ (t.range 0).poison = [0])) = true
      ∧ nextIs (exec (.memoryRequest 0 0 { clean with failures := 9 }) (one .read)) (fun t => decide ((t.chan 0 0).failures = 0 ∧ (t.range 0).poison = [] ∧ (t.chan 0 0).retries = 8)) = true
      ∧ nextIs (exec (.memoryRequest 0 0 { clean with corrected := 1 }) (one .read)) (fun t => decide (1 ≤ (t.lines 0).length)) = true
      ∧ nextIs (exec (.memoryRequest 0 0 { clean with uncorrectable := 1 }) (one .scrub)) (fun t => decide ((t.range 0).poison = [])) = true
      ∧ nextIs (exec (.memoryRequest 0 0 { clean with uncorrectable := 1 }) (one .rmw)) (fun t => decide ((t.range 0).poison = [0])) = true
      ∧ bad.unitLost 0 96 = true ∧ (one .rmw).unitLost 0 0 = false ∧ w.lineAt 0 7 = some (0, ⟨7, 1, 0⟩) ∧ w.lineAt 0 8 = none ∧ n ≤ cyclesNs n
      ∧ nextIs (exec (.wcbAgeExpiry 0 7) (at' n w)) (fun t => decide (t.lines 0 = [] ∧ (t.chan 0 7).queue.map (fun x => x.units) = [1])) = true
      ∧ gives (exec (.wcbAgeExpiry 0 7) (at' 0 w)) (at' 0 w) = true ∧ gives (exec (.wcbAgeExpiry 0 8) w) w = true
      ∧ gives (exec (.memoryPatrol 0 (2 ^ 31)) w) w = true ∧ gives (exec (.memoryPatrol 0 56) w) w = true
      ∧ nextIs (exec (.memoryPatrol 0 57) w) (fun t => decide ((t.chan 0 7).queue.map (fun x => (x.kind, x.units)) = [(.scrub, 2)])) = true := by
  decide +kernel

/-- Witness of ChannelQueuesAreBounded: the 64th request of a width joins, the 65th waits, and joins when it may. -/
theorem witness_queues :
    let c (n : Nat) : Channel := { Channel.init with queue := List.replicate n (someReq .read 0) }
    ((c 63).arrive 5 (someReq .write 1)).queue.length = 64
      ∧ (c 64).arrive 5 (someReq .write 1) = { c 64 with waiting := [someReq .write 1] }
      ∧ ((c 64).arrive 5 { someReq .write 1 with narrow := true }).queue.length = 65
      ∧ (Channel.refill 5 { c 63 with waiting := [someReq .write 1] }).waiting = [] := by decide +kernel

/-- A row repair of the bank of offset 0 of range 0, with a request of that bank before one of another channel, at cycle n. -/
def bankRepair (n : Nat) : State :=
  { withTiers fun x => { x with
      chans := [(0, { Channel.init with queue := [someReq .read 0, someReq .write 1] })]
      ranges := [(0, { Range.init with repair := some ⟨1, BitVec.ofNat 64 ((withTiers id).locWord 0 0), [], true, []⟩ })] } with now := n }

/-- The bits of a location word above its row. -/
theorem locWord_high (s : State) (off : Nat) : s.locWord 0 off < 2 ^ 64 ∧ s.locWord 0 off / 2 ^ 49 / 64 = (s.locate 0 off).1 % 32 := by
  unfold State.locWord Machine.rowWord put boolNat
  simp only [Nat.shiftLeft_eq, Nat.shiftRight_eq_div_pow]
  refine ⟨?_, ?_⟩ <;> repeat' split
  all_goals omega

/-- Witness of MemoryIsRequestedAndPatrolled: the first bank is blocked, the second is not, at the age limit and before it. -/
theorem witness_blocked (n : Nat) :
    (bankRepair n).bankBlocked 0 (someReq .read 0) = true ∧ (bankRepair n).bankBlocked 0 (someReq .write 1) = false := by
  have a : ((bankRepair 0).locate 0 256).1 = 1 ∧ ((withTiers id).locate 0 0).1 = 0 := by decide +kernel
  have e : (bankRepair n).locate 0 256 = (bankRepair 0).locate 0 256 := rfl
  have f : (bankRepair n).locWord 0 0 = (withTiers id).locWord 0 0 := by
    have l : (bankRepair n).layout 0 0 = (withTiers id).layout 0 0 := rfl
    have z : (bankRepair n).rangeSize 0 = (withTiers id).rangeSize 0 := rfl
    unfold State.locWord State.locate
    rw [l, z]
  obtain ⟨h1, h2⟩ := locWord_high (withTiers id) 0
  have b : (bankRepair n).range 0 = { Range.init with repair := some ⟨1, BitVec.ofNat 64 ((withTiers id).locWord 0 0), [], true, []⟩ } := rfl
  have k (q : ReqKind) (g : Nat) : (bankRepair n).bankBlocked 0 (someReq q g)
      = decide ((bankRepair n).locWord 0 (256 * g) / 2 ^ 49 = (withTiers id).locWord 0 0 / 2 ^ 49) := by
    have p : (bankRepair n).servedAt (someReq q g).range (256 * (someReq q g).granule) = (0, 256 * g) := rfl
    unfold State.bankBlocked
    rw [b, p]
    simp only [Bool.true_and, BitVec.toNat_ofNat, Nat.mod_eq_of_lt h1, decide_true]
  have h3 := (locWord_high (bankRepair n) 256).2
  rw [k, k]
  refine ⟨decide_eq_true ?_, decide_eq_false ?_⟩
  · rw [Nat.mul_zero, f]
  · intro h
    rw [Nat.mul_one] at h
    rw [h, h2, e, a.1, a.2] at h3
    omega

theorem witness_blocked_age :
    let n := served.reg 0x3000 4
    (((bankRepair 0).chan 0 0).queue = [someReq .read 0, someReq .write 1]) ∧ n ≤ cyclesNs n ∧ cyclesNs 0 < n := by decide +kernel

/-- Witness of RepairsRetireRowsAndPages, by clause: the operations, their ends, and the first and the last page. -/
theorem witness_repairs :
    let s := withTiers id
    let busy := s.setReg 0x3010 9 1
    let last := s.setReg 0x3100 1 (2 ^ 12 * (2 ^ 15 - 1))
    let full := withTiers fun x => { x with ranges := [(0, { Range.init with remap := (List.range 64).map fun i => (i + 1, i + 2000) })] }
    let r (op : Nat) (l : List Nat) := withTiers fun x => { x with ranges := [(0, { Range.init with failing := [0, 9], repair := some ⟨op, 0, l, false, []⟩ })] }
    (takesScalar s 0 0x3100 2 1 && takesScalar s 0 0x3100 2 2 && takesScalar s 17 0x3100 2 3 && takesScalar busy 17 0x3100 2 4) = true
      ∧ runs (exec (.rowRepair 0) s) = true
      ∧ (nextIs (exec (.rowRepair 0) busy) (fun t => decide (t.reg 0x3100 3 = 5)) && nextIs (exec (.pageRemap 0) busy) (fun t => decide (t.reg 0x3100 3 = 5))
        && nextIs (exec (.querySpares 0) busy) (fun t => decide (t.reg 0x3100 3 = 5)) && nextIs (exec (.clearSuspect 0) busy) (fun t => decide (t.reg 0x3100 3 = 5))) = true
      ∧ locPage (last.reg 0x3100 1) = last.rangeSize 0 / pageSize - 1 ∧ (retirePages (locPages 0) (full.range 0).remap (full.rangeSize 0)).1.length = 65
      ∧ nextIs (exec (.pageRemap 0) s) (fun t => decide ((t.range 0).repair = some ⟨2, 0, [0], false, []⟩)) = true
      ∧ nextIs (exec (.pageRemap 0) full) (fun t => decide (t.reg 0x3100 3 = 4)) = true
      ∧ runs (exec (.querySpares 0) s) = true
      ∧ nextIs (exec (.clearSuspect 0) (s.setReg 0x3010 3 3)) (fun t => decide (t.reg 0x3010 3 = 2)) = true
      ∧ gives (exec (.rowRepairComplete []) s) s = true ∧ gives (exec (.pageRemapComplete []) s) s = true
      ∧ ((r 1 []).repairing 1).isSome = true ∧ runs (exec (.rowRepairComplete []) (r 1 [])) = true
      ∧ ((r 2 [0]).repairing 2).map (fun x => x.2.pages) = some [0] ∧ runs (exec (.pageRemapComplete []) (r 2 [0])) = true
      ∧ ((s.retirePage 0 0).range 0).remap = [(0, 2 ^ 15 - 1)] ∧ (s.retirePage 0 0).reg 0x3010 1 = 2 ^ 36 - 2 ^ 21
      ∧ ((s.retirePage 0 (2 ^ 15 - 1)).range 0).remap = [] ∧ (s.retirePage 0 (2 ^ 15 - 1)).reg 0x3010 1 = 2 ^ 36 - 2 ^ 21
      ∧ ((r 2 [0, 1]).repairing 2).map (fun x => x.2.pages) = some [0, 1] ∧ runs (exec (.pageRemapComplete []) (r 2 [0, 1])) = true
      ∧ Regs.wf s.regs = true ∧ SMap.rising 0 (r 2 [0]).tiers.ranges = true := by
  decide +kernel

/-- Witness of ReflowMovesARange, by clause. -/
theorem witness_reflow :
    let s := withTiers id
    let p : Plan := { mask := 0xFFFFFFFE, active := 1, remap := [], retired := [], size := 0x48000000 }
    let one := s.setReg 0x3200 2 0xFFFFFFFE
    let planned := (withTiers fun x => { x with ranges := [(0, { Range.init with plan := some p, remap := [(3, 9)] })] }).setReg 0x3010 9 2
    let f (l : List Nat) (n : Nat) := (withTiers fun x => { x with ranges := [(0, { Range.init with plan := some p, reflow := some ⟨l, n, 0, 2 ^ 30, []⟩ })] }).setReg 0x3010 9 3
    let parked := withTiers fun x => { x with ranges := [(0, { Range.init with plan := some p, reflow := some ⟨[], 2 ^ 20, 0, 2 ^ 30, [3]⟩ })] }
    let port := ((withTiers fun x => { x with ports := [(0, 5)] }).setReg 0x3010 2 0).setReg 0x3300 3 9
    (takesScalar s 0 0x3200 4 1 && takesScalar planned 0 0x3200 4 2 && takesScalar planned 17 0x3200 4 3) = true
      ∧ (nextIs (exec (.plan 0) planned) (fun t => decide (t.reg 0x3200 5 = 5)) && nextIs (exec (.start 0) s) (fun t => decide (t.reg 0x3200 5 = 5))
        && nextIs (exec (.cancel 0) s) (fun t => decide (t.reg 0x3200 5 = 5))) = true
      ∧ (s.planOf 0 0xFFFFFFFF).isNone = true ∧ one.planOf 0 0xFFFFFFFE = some p
      ∧ nextIs (exec (.plan 0) (s.setReg 0x3200 2 0xFFFFFFFF)) (fun t => decide (t.reg 0x3200 5 = 4)) = true
      ∧ nextIs (exec (.plan 0) one) (fun t => decide ((t.range 0).plan = some p ∧ t.reg 0x3200 6 = 0x48000000 ∧ t.reg 0x3010 9 = 2)) = true
      ∧ nextIs (exec (.start 0) planned) (fun t => decide ((t.range 0).reflow = some ⟨[3], 4718592, 0, 0, []⟩ ∧ t.reg 0x3010 9 = 3)) = true
      ∧ nextIs (exec (.cancel 0) planned) (fun t => decide ((t.range 0).plan = none ∧ t.reg 0x3010 9 = 0)) = true
      ∧ gives (exec (.reflowStep []) s) s = true ∧ gives (exec .reflowDone s) s = true
      ∧ (f [3, 4] 5).reflowing = some (0, p, ⟨[3, 4], 5, 0, 2 ^ 30, []⟩) ∧ runs (exec (.reflowStep []) (f [3, 4] 5)) = true
      ∧ parked.servedAt 0 (3 * 2 ^ 21 + 7) = (0, 2 ^ 30 + 7) ∧ parked.servedAt 0 (4 * 2 ^ 21) = (0, 4 * 2 ^ 21)
      ∧ nextIs (exec (.reflowStep []) (f [] 5)) (fun t => decide ((t.range 0).reflow = some ⟨[], 4, 0, 2 ^ 30, []⟩ ∧ t.reg 0x3200 7 = 4)) = true
      ∧ gives (exec (.reflowStep []) (f [] 0)) (f [] 0) = true ∧ gives (exec .reflowDone (f [] 5)) (f [] 5) = true
      ∧ Regs.wf (f [] 0).regs = true ∧ SMap.rising 0 (f [] 0).tiers.ranges = true
      ∧ nextIs (exec .reflowDone (f [] 0)) (fun t => decide (t.rangeSize 0 = 0x48000000 ∧ t.active 0 = 1 ∧ t.reg 0x3010 9 = 0 ∧ t.reg 0x3200 5 = 3)) = true
      ∧ port.served = true ∧ port.quiet 0x3300 4 = true ∧ port.mayWrite 17 0x3300 4 7 = true
      ∧ (dictFind 0x3300 4).map (fun r => r.acc.writable && r.fits 0 2) = some true
      ∧ nextIs (exec (.portDrWrite 17 0 [7, 0]) port) (fun t => decide (t.blob 0x3300 4 = [5, 0] ∧ t.reg 0x3300 5 = 2 ∧ t.tiers.ports = [(0, 7)])) = true := by
  decide +kernel

/-- A serving state with engine 23 enabled, calibrated, and at a link state, its link and availability records changed. -/
def linkAt (st : Nat) (f : Link → Link) : State :=
  State.setReg (State.setReg (State.setReg (served.modLink 23 f) 0x8000 2 (2 ^ 23)) 0x1200 11 0xFFFFFF) 0x8027 1 st |>.setReg 0x8027 3 0x7654321076543210

/-- A held flit of VC 0 with messages that end in it. -/
def heldFlit (seq : Nat) (msgs : List OutMsg) (replays : Nat) : HeldFlit :=
  { seq := seq, msgs := msgs, replays := replays, vc := 0, used := 1, firstSlot := 0, head := Link.init.head false false (0, 0), content := [], cycle := 0 }

/-- A header that acknowledges sequence number 7 and returns 2 slots of VC 0. -/
def ackHeader : LinkHeader :=
  { ackSeq := 7, ackValid := true, nak := false, creditVc := 0, credits := 2, spareReq := none, spareAck := false }

/-- A waiting message of its own module, of a class, with n bytes of data. -/
def outMsg (cls n : Nat) : OutMsg :=
  { id := 3, msg := { someMsg 1 with cls := cls, dst := 5, data := List.replicate n 0 }, use := .none, own := true, inTrunk := none,
    inBit := false, inBuf := none, since := 0, dead := false }

/-- Witness of LinksTrainAndReport and LanesFailAndAreSpared, by clause, on engine 23. -/
theorem witness_links :
    let d := linkAt 0 id
    let n := usCycles 2000000
    let at' (n : Nat) : State := { d with av := { d.av with linkFrom := [(23, 1)] }, now := n }
    let held (k : Nat) := linkAt 0 fun l => { l with past := [heldFlit 7 [outMsg k 0] 0], awaiting := true }
    let up := linkAt 2 fun l => { l with held := [heldFlit 7 [outMsg 1 0] 0] }
    let late : State := { d with now := usCycles 1000000 }
    let stopped : State := { late with top := { late.top with stopped := late.top.stopped.set 1 true } }
    let inj : State := { d with av := { d.av with injectedLanes := [(376, 1)] }, now := usCycles 1000000 }
    d.laneBlocked 23 = false ∧ nextIs (exec (.linkRetrain 23) late) (fun t => decide (t.reg 0x8027 1 = 1)) = true
      ∧ gives (exec (.linkRetrain 23) d) d = true ∧ gives (exec (.linkRetrain 23) stopped) stopped = true
      ∧ gives (exec (.linkRetrain 23) (linkAt 2 id)) (linkAt 2 id) = true ∧ gives (exec (.linkUp 23 5 true) d) d = true
      ∧ nextIs (exec (.linkUp 23 5 false) (linkAt 1 id)) (fun t => decide (t.reg 0x8027 1 = 0 ∧ t.reg 0x9009 1 = 1)) = true
      ∧ ((linkAt 1 id).link 23).held = []
      ∧ (linkAt 1 id).fab.waiting = [] ∧ SMap.rising 0 (linkAt 1 id).fab.links = true
      ∧ nextIs (exec (.linkUpTimeout 23) (at' n)) (fun t => decide (t.fab.late = 2 ^ 23)) = true
      ∧ gives (exec (.linkUpTimeout 23) (at' (n - 1))) (at' (n - 1)) = true
      ∧ nextIs (exec (.linkReport 23 6) up) (fun t => decide (t.linkIsUp 23 = false ∧ (t.link 23).held = [])) = true ∧ classOrdered 1 = true ∧ classOrdered 0 = false
      ∧ nextIs (exec (.linkReport 23 6) (held 1)) (fun t => decide ((t.link 23).past = [] ∧ (t.link 23).awaiting = false ∧ t.fab.waiting.length = 1 ∧ t.reg 0x9009 1 = 1)) = true
      ∧ nextIs (exec (.linkReport 23 7) (held 1)) (fun t => decide (t.fab.waiting = [])) = true
      ∧ nextIs (exec (.linkReport 23 6) (held 0)) (fun t => decide (t.fab.waiting.length = 1 ∧ t.reg 0x9009 1 = 0)) = true
      ∧ gives (exec (.laneFail 23 9) d) d = true ∧ (d.lanesOn 23 1 8).isNone = true ∧ d.lanesOn 23 1 7 = some 7
      ∧ nextIs (exec (.laneFail 23 8) d) (fun t => decide (t.failedLanes 23 1 = 256)) = true
      ∧ nextIs (exec (.laneFail 23 7) d) (fun t => decide ((t.link 23).rxSpare = some 7)) = true
      ∧ nextIs (exec (.laneFail 23 7) ((linkAt 2 id).setEng 23 4 (2 ^ 24))) (fun t => decide (t.reg 0x8027 1 = 0)) = true
      ∧ gives (exec (.spareSwitch 23 false) d) d = true ∧ gives (exec (.spareSwitch 23 true) d) d = true
      ∧ nextIs (exec (.spareSwitch 23 false) (linkAt 2 fun l => { l with rxSpare := some 7 })) (fun t => decide (t.lanesOn 23 1 8 = some 7 ∧ t.reg 0x8003 3 = 1)) = true
      ∧ nextIs (exec (.spareSwitch 23 true) (linkAt 2 fun l => { l with txSpare := some 7, txAcked := true })) (fun t => decide (t.lanesOn 23 0 8 = some 7 ∧ t.reg 0x8003 3 = 1)) = true
      ∧ gives (exec (.spareSwitch 23 true) (linkAt 2 fun l => { l with txSpare := some 7 })) (linkAt 2 fun l => { l with txSpare := some 7 }) = true
      ∧ nextIs (exec (.injectedLaneReturn 23 8) inj) (fun t => decide (t.av.injectedLanes = [])) = true
      ∧ gives (exec (.injectedLaneReturn 23 7) inj) inj = true := by
  decide +kernel

/-- Witness of FlitsAreAcceptedAndReplayed, by clause, on engine 23. -/
theorem witness_flits :
    let u := linkAt 2 id
    let d := linkAt 0 id
    let f : Flit := { head := { ackHeader with ackValid := false }, seq := 0, vc := 0, firstSlot := 0, crcOk := true, msgs := [{ someMsg 1 with dst := u.me }], code := [] }
    let c : CtlFlit := { head := ackHeader, seq := 0, crcOk := true, code := [] }
    let h (n : Nat) : State := { linkAt 2 fun l => { l with held := [heldFlit 7 [] 0, heldFlit 8 [] 0] } with now := n }
    u.linkIsUp 23 = true ∧ d.linkIsUp 23 = false ∧ (List.range 9).all (fun l => !u.armed 0x9008 23 l && !u.armed 0x9009 23 l) = true
      ∧ nextIs (exec (.dataFlit 23 { f with crcOk := false }) u) (fun t => decide (t.reg 0x8003 2 = 1 ∧ t.reg 0x9008 1 = 1 ∧ (t.link 23).lastRecv = 4095)) = true
      ∧ nextIs (exec (.dataFlit 23 { f with seq := 1 }) u) (fun t => decide ((t.link 23).nakSent = true ∧ (t.link 23).lastRecv = 4095)) = true
      ∧ nextIs (exec (.dataFlit 23 f) u) (fun t => decide ((t.link 23).lastRecv = 0 ∧ (t.link 23).unacked = 1 ∧ t.fab.arrived = f.msgs)) = true
      ∧ nextIs (exec (.dataFlit 23 { f with msgs := [] }) (linkAt 2 fun l => { l with unacked := 63 })) (fun t => decide ((t.link 23).unacked = 0)) = true
      ∧ nextIs (exec (.controlFlit 23 c) (h 5)) (fun t => decide ((t.link 23).held = [heldFlit 8 [] 0] ∧ (t.link 23).progress = 5)) = true
      ∧ nextIs (exec (.controlFlit 23 { c with crcOk := false }) (h 5)) (fun t => decide (((t.link 23).held).length = 2 ∧ t.reg 0x8003 2 = 1)) = true
      ∧ nextIs (exec (.controlFlit 23 { c with head := { ackHeader with ackValid := false } }) (h 5)) (fun t => decide (((t.link 23).held).length = 2)) = true
      ∧ nextIs (exec (.controlFlit 23 { c with head := { ackHeader with nak := true } }) (h 5)) (fun t => decide ((t.link 23).held = [heldFlit 8 [] 1])) = true
      ∧ nextIs (exec (.dataFlit 23 { f with head := { ackHeader with nak := true } }) (h 5)) (fun t => decide ((t.link 23).held = [heldFlit 8 [] 1])) = true
      ∧ nextIs (exec (.controlFlit 23 { c with head := { ackHeader with spareReq := some 7 } }) (h 5)) (fun t => decide ((t.link 23).txSpare = some 7 ∧ (t.link 23).txAcked = false)) = true
      ∧ nextIs (exec (.controlFlit 23 { c with head := { ackHeader with spareAck := true } }) (h 5)) (fun t => decide ((t.link 23).txAcked = true)) = true
      ∧ nextIs (exec (.replayTimeout 23) (h (usCycles 2))) (fun t => decide ((t.link 23).held.map (fun x => x.replays) = [1, 1])) = true
      ∧ gives (exec (.replayTimeout 23) (h (usCycles 2 - 1))) (h (usCycles 2 - 1)) = true ∧ Regs.wf u.regs = true
      ∧ nextIs (exec (.ackProgressTimeout 23) (h (usCycles 100))) (fun t => decide (t.linkIsUp 23 = false)) = true
      ∧ gives (exec (.ackProgressTimeout 23) (h (usCycles 100 - 1))) (h (usCycles 100 - 1)) = true
      ∧ gives (exec (.replayTimeout 23) u) u = true ∧ gives (exec (.ackProgressTimeout 23) u) u = true ∧ gives (exec (.ackTimer 23) u) u = true
      ∧ nextIs (exec (.ackTimer 23) (linkAt 2 fun l => { l with unacked := 1 })) (fun t => decide ((t.link 23).unacked = 0)) = true
      ∧ gives (exec (.dataFlit 23 f) d) d = true ∧ gives (exec (.controlFlit 23 c) d) d = true := by
  decide +kernel

/-- Witness of CodewordsAreDecodedAndLanesFail: 15 and 16 symbol errors on lane 7, the idle spare, a framing word that does not
follow, a lane three periods away, and the limits of lane failures. -/
theorem witness_codewords :
    let u := linkAt 2 id
    let d := { u with regs := (u.setReg 0x8000 4 0).regs }
    let at' (k : Option Nat) := linkAt 2 fun l => { l with lanes := [(7, { LaneRx.init with counter := k })] }
    let far := linkAt 2 fun l => { l with lanes := [(0, { LaneRx.init with counter := some 8 })] }
    let w (n k : Nat) : Codeword := { lane := 7, framing := framingWord 7 k, errors := n }
    let tight := u.setReg 0x8000 5 0
    let f (n : Nat) : Flit := { head := { ackHeader with ackValid := false }, seq := 0, vc := 0, firstSlot := 0, crcOk := true, msgs := [], code := [w n 5] }
    u.framedLanes 23 7 = [7] ∧ u.framedLanes 23 8 = [15] ∧ u.armed 0x9008 23 7 = false ∧ u.skewed 23 5 = false ∧ far.skewed 23 5 = true ∧ far.skewed 23 6 = false
      ∧ decide ((u.takeCodeword 23 (w 15 5)).eng 23 5 = 15 ∧ (u.takeCodeword 23 (w 15 5)).failedLanes 23 1 = 0) = true
      ∧ ((u.takeCodeword 23 (w 0 5)).laneRx 23 7).counter = some 5 ∧ ((at' (some 255)).takeCodeword 23 (w 0 0)).failedLanes 23 1 = 0
      ∧ ((at' (some 254)).takeCodeword 23 (w 0 0)).failedLanes 23 1 = 128 ∧ (far.takeCodeword 23 (w 0 5)).failedLanes 23 1 = 128
      ∧ (u.takeCodeword 23 (w 16 5)).eng 23 6 = 1 ∧ (u.takeCodeword 23 (w 16 5)).stripeBad 23 = true
      ∧ (d.takeCodeword 23 (w 16 5)).failedLanes 23 1 = 128 ∧ (tight.takeCodeword 23 (w 1 5)).failedLanes 23 1 = 128 ∧ (tight.takeCodeword 23 (w 0 5)).failedLanes 23 1 = 0
      ∧ nextIs (exec (.dataFlit 23 (f 16)) u) (fun t => decide (t.reg 0x8003 2 = 1 ∧ (t.link 23).nakSent = true)) = true
      ∧ nextIs (exec (.dataFlit 23 (f 15)) u) (fun t => decide (t.reg 0x8003 2 = 0 ∧ (t.link 23).lastRecv = 0)) = true := by
  decide +kernel

/-- Witness of MessagesArePackedBackToBack: a message of 2 slots shares the last flit of its cycle, a message of 33 slots fills it
and takes three more, and one of another cycle opens a flit of its own. -/
theorem witness_packing :
    let l : Link := { Link.init with held := [heldFlit 7 [] 0, { heldFlit 8 [outMsg 0 0] 0 with used := 14 }], nextSeq := 4095 }
    let used (t : Link) := t.held.map fun f => f.used
    let seqs (t : Link) := t.held.map fun f => f.seq
    l.held.all (fun f => decide (f.used ≤ 15)) = true ∧ (outMsg 1 16).msg.slots = 2 ∧ (outMsg 1 512).msg.slots = 33
      ∧ used (l.pack 0 0 (outMsg 1 0)) = [1, 15] ∧ (l.pack 0 0 (outMsg 1 0)).held.map (fun f => f.msgs.length) = [0, 2]
      ∧ used (l.pack 0 0 (outMsg 1 512)) = [1, 15, 15, 15, 2] ∧ seqs (l.pack 0 0 (outMsg 1 512)) = [7, 8, 4095, 0, 1]
      ∧ (l.pack 0 0 (outMsg 1 512)).held.map (fun f => f.msgs.length) = [0, 1, 0, 0, 1] ∧ l.newFlits 0 0 33 = 3 ∧ (l.pack 0 0 (outMsg 1 512)).nextSeq = 2
      ∧ used (l.pack 0 1 (outMsg 1 16)) = [1, 14, 2] ∧ used (l.pack 1 0 (outMsg 1 16)) = [1, 14, 2] := by
  decide +kernel

/-- Witness of RaisesAreCountedRecordedAndPosted: an alert of a memory detector, posted, with the queue full, masked, in the holdoff,
and held before READY in place of an earlier record. -/
theorem witness_raises :
    let r : Raise := { det := 0x9003, sev := 3, cause := 2 }
    let s := ((served.setReg 0xB010 2 4).setReg 0xB010 1 (2 ^ 51)).setReg 0xB000 1 2
    let full := s.setReg 0xB010 4 (2 ^ 32 - 4)
    let masked := s.setReg 0x9000 1 8
    let hold : State := { (s.setReg 0x9000 2 1) with av := { s.av with lastPost := [(0x9003, 1)] } }
    let twice := (State.reset.raise r).raise { r with cause := 4 }
    Regs.wf s.regs = true ∧ SMap.rising 0 s.blobs = true ∧ s.isUp = true ∧ s.eventMasked 0x9003 = false ∧ s.inHoldoff 0x9003 = false
      ∧ (s.raise r).reg 0x9003 1 = 1 ∧ (s.raise r).reg 0x9000 3 = 1 ∧ SMap.get 0 (s.raise r).host.eventProd 0 = 1
      ∧ ((s.raise r).bytesAt (2 ^ 51) 3).map (fun b => b.toNat) = [0x22, 3, 0] ∧ (s.raise r).av.lastPost = [(0x9003, 1)]
      ∧ (full.raise r).reg 0xB010 5 = 1 ∧ (full.raise r).mem = full.mem ∧ masked.eventMasked 0x9003 = true ∧ (masked.raise r).mem = masked.mem
      ∧ hold.inHoldoff 0x9003 = true ∧ (hold.raise r).mem = hold.mem ∧ (hold.raise r).reg 0x9003 1 = 1
      ∧ State.reset.isUp = false ∧ twice.av.preReady.length = 1 ∧ twice.reg 0x9003 1 = 2 ∧ twice.mem = [] := by
  decide +kernel

/-- Witness of CodewordsCarryStripes, by hand from R359: lane 7, counter 300, flits whose bytes are their number. -/
theorem witness_stripes :
    let fs : List (List Byte) := (List.range 20).map fun i => List.replicate 256 (BitVec.ofNat 8 i)
    framingWord 7 300 = 0x2C7A7 ∧ fs.length = 20 ∧ messageFraming (laneMessage 7 300 fs) = 0x2C7A7
      ∧ messageStripe (laneMessage 7 300 fs) 19 = List.replicate 32 19 := by decide +kernel

/-- Witness of ClassesTakeTurnsByDeficit: class 0 has 3 slots to send at weight 2, class 1 one slot. -/
theorem witness_drr :
    let h (c : Nat) : Option Nat := if c = 0 then some 3 else if c = 1 then some 1 else none
    drrPick (fun _ => 2) h 1600 0 [] = (1, [(0, 4), (1, 1)]) ∧ drrPick (fun _ => 2) h 1600 0 [(0, 3)] = (0, []) := by decide +kernel

/-- Witness of BanksGiveTheWordsOfABlock, at the last word of window 1 of a bank of 3 that starts at word 5. -/
theorem witness_bank :
    ((Bank.run 1 (Bank.place 3 7 9 2 5)).cur.map genOut)[2]? = some (blockWord 7 9 2 10) := by decide +kernel

/-- Witness of PartitionsBeginAndEnd: partition 5, NONE and ACTIVE, its select and its op. -/
theorem witness_partitions :
    let u (st op : Nat) := (served.setReg 0x7015 1 st).setReg 0x7001 2 op
    let v (s : State) := ((s.marked 17).setReg 0x7001 1 5).saysDone 17 0x7001 1
    Regs.wf (u 1 0).regs = true ∧ takesScalar (u 0 0) 17 0x7001 1 5 = true ∧ takesScalar (v (u 0 0)) 17 0x7001 2 1 = true
      ∧ takesScalar (v (u 1 0)) 17 0x7001 2 2 = true ∧ (v (u 1 0)).partState 5 = 1 ∧ (v (u 0 0)).partState 5 = 0
      ∧ (v (u 1 0)).ctxOps = [] ∧ (v (u 1 0)).sl.groups = [] ∧ (v (u 1 0)).partCtxs 5 = [] ∧ (v (u 1 0)).partStacks 5 = [] ∧ (v (u 1 0)).ownTables 5 = []
      ∧ nextIs (exec (.partitionCreate 17 5) ((u 0 0).setReg 0x7815 3 9)) (fun t => decide (t.partState 5 = 1 ∧ t.reg 0x7815 3 = 0)) = true
      ∧ nextIs (exec (.partitionCreate 17 5) ((u 2 0).setReg 0x7815 3 9)) (fun t => decide (t.partState 5 = 2 ∧ t.reg 0x7815 3 = 9)) = true
      ∧ nextIs (exec (.teardown 17 5) (u 0 0)) (fun t => decide (t.partState 5 = 0)) = true := by decide +kernel

/-- A serving state with partition 0 ACTIVE on core 0, a save area, and contexts. -/
def withCtxs (l : SMap Ctx) : State :=
  State.setReg (State.setReg (State.setReg { served with ctxs := l } 0x7010 1 1) 0x7010 2 1) 0x7010 10 (2 ^ 40)

/-- A context command of function 1 on context 5, its images at the start of host memory, with other fields n. -/
def coWord (op n : Nat) : Desc := word 3 (op + put 248 237 5 + put 447 396 (2 ^ 51) + n)
def coHost : Nat := put 224 173 (2 ^ 51)

/-- The parts of CtxFront, decided, and the status with which the command's checks end it. -/
def ctxCheck (l : SMap Ctx) (op n : Nat) (st : Option Nat) : Bool :=
  let s := frontAt (withCtxs l) (coWord op n)
  let d := coWord op n
  let o : CtxOp := ⟨1, 0, s.headAfter 1 0 d, d, if op = 2 then .clear else .blocked, s.now⟩
  isFront s d && decide (descKind d = 3 ∧ descOp d = op) && s.ctxOps.isEmpty && s.av.handover.isNone
    && decide (State.opFails { s.popDesc 1 0 d with ctxOps := [o] } o = st)

/-- Witness of ContextCommandsRun: CREATE, SWAP and SWITCH. -/
theorem witness_ctx_commands :
    let c (st : CtxState) : Ctx := { Ctx.init with st := st }
    let s (l : SMap Ctx) (op n : Nat) := frontAt (withCtxs l) (coWord op n)
    let none' := put 236 225 0xFFF
    let six := put 236 225 6
    let fails := frontAt ((withCtxs []).setReg 0x7010 1 0) (coWord 1 0)
    let sw := State.modCsq (s [(5, c .ready)] 4 0) 0 fun q => { q with phase := .hold }
    ctxCheck [] 1 0 none = true ∧ ctxCheck [(5, c .idle)] 1 0 (some stFault) = true ∧ ctxCheck [(5, c .swapped)] 3 none' none = true
      ∧ ctxCheck [(5, c .idle)] 3 none' (some stState) = true ∧ ctxCheck [(5, c .swapped), (6, c .idle)] 3 six none = true
      ∧ ctxCheck [(5, c .swapped), (6, c .running)] 3 six none = true ∧ ctxCheck [(5, c .ready)] 4 0 (some stState) = true
      ∧ ctxCheck [] 4 0 (some stFault) = true
      ∧ nextIs (exec (.contextCreate 1 0) fails) (fun t => decide (t.ctxs = [] ∧ t.ctxOps = [])) = true
      ∧ nextIs (exec (.contextCreate 1 0) (s [] 1 (put 343 280 77))) (fun t => decide ((t.ctx 5).st = .binding ∧ (t.ctx 5).seed = 77)) = true
      ∧ nextIs (exec (.contextCreate 1 0) ((s [] 1 0).setReg 0x4810 1 66)) (fun t => decide ((t.ctx 5).seed = 66)) = true
      ∧ nextIs (exec (.swap 1 0) (s [(5, c .swapped)] 3 none')) (fun t => decide ((t.ctx 5).st = .restoring ∧ t.ctxOps.map (fun o => o.phase) = [.restore])) = true
      ∧ nextIs (exec (.swap 1 0) (s [(5, c .swapped), (6, c .idle)] 3 six)) (fun t => decide ((t.ctx 6).st = .spilling)) = true
      ∧ nextIs (exec (.swap 1 0) (s [(5, c .swapped), (6, c .running)] 3 six)) (fun t => decide (t.ctxOps.map (fun o => o.phase) = [.weir])) = true
      ∧ nextIs (exec (.switch 1 0) sw) (fun t => decide (t.switchFor 0 = some 5 ∧ t.ctxOps.map (fun o => o.phase) = [.weir])) = true := by
  decide +kernel

/-- Witness of ContextCommandsRun: EXPORT, IMPORT and KILL. -/
theorem witness_ctx_images :
    let c (st : CtxState) : Ctx := { Ctx.init with st := st, save := 2 ^ 51 }
    let s (l : SMap Ctx) (op n : Nat) := frontAt (withCtxs l) (coWord op n)
    ctxCheck [(5, c .swapped)] 5 coHost none = true ∧ ctxCheck [(5, c .idle)] 5 coHost (some stState) = true
      ∧ ctxCheck [] 6 coHost none = true ∧ ctxCheck [(5, c .idle)] 6 coHost (some stFault) = true
      ∧ ctxCheck [(5, c .idle)] 2 0 none = true ∧ ctxCheck [] 2 0 (some stFault) = true
      ∧ nextIs (exec (.ctxExport 1 0) (s [(5, c .swapped)] 5 coHost)) (fun t => decide (t.ctxOps = [] ∧ (t.ctx 5).st = .swapped)) = true
      ∧ nextIs (exec (.ctxImport 1 0) (s [] 6 coHost)) (fun t => decide ((t.ctx 5).st = .swapped ∧ (t.ctx 5).save = 2 ^ 51 ∧ t.ctxOps = [])) = true
      ∧ nextIs (exec (.kill 1 0) (s [] 2 0)) (fun t => decide (t.ctxOps = [] ∧ t.ctxs = [])) = true
      ∧ (s [(5, c .idle)] 2 0).strm.batches = []
      ∧ nextIs (exec (.kill 1 0) (s [(5, c .idle)] 2 0)) (fun t => decide ((t.ctx 5).st = .killing ∧ t.ctxOps.length = 1)) = true := by
  decide +kernel

/-- Witness of ContextEventsComplete, by clause; ALL_BLOCKED at blocked_time and one cycle before it. -/
theorem witness_ctx_events :
    let c (st : CtxState) : Ctx := { Ctx.init with st := st, save := 2 ^ 51 }
    let s (x : Nat) (st : CtxState) (op n : Nat) (ph : OpPhase) : State := { withCtxs [(x, c st)] with ctxOps := [⟨1, 0, 1, coWord op n, ph, 0⟩] }
    let spill := s 6 .spilling 3 (put 236 225 6) .spill
    let kill := s 5 .killing 2 0 .clear
    let n := usCycles (served.reg 0x7000 2)
    let w : Ctx := { c .swapped with queue := [4] }
    let b (k : Nat) (l : SMap Ctx) : State := { withCtxs ((3, { c .ready with blocked := true }) :: l) with now := k }
    gives (exec (.bindingComplete 5 []) served) served = true ∧ gives (exec (.restoreComplete 5 []) served) served = true
      ∧ gives (exec (.spillComplete 5 ⟨[], []⟩) served) served = true ∧ gives (exec (.zeroFillComplete 5) served) served = true
      ∧ nextIs (exec (.bindingComplete 5 []) (s 5 .binding 1 0 .bind)) (fun t => decide ((t.ctx 5).st = .idle ∧ t.ctxOps = [])) = true
      ∧ nextIs (exec (.restoreComplete 5 []) (s 5 .restoring 3 (put 236 225 0xFFF) .restore)) (fun t => decide (t.ctxOps = [] ∧ (t.ctx 5).st ≠ .restoring)) = true
      ∧ (spill.opIn .spill fun o => coOut o.desc = 6).isSome = true ∧ spill.imageSize 6 ≤ 1024 * spill.reg 0x2000 5
      ∧ nextIs (exec (.spillComplete 6 ⟨[], []⟩) spill) (fun t => decide ((t.ctx 6).st = .swapped)) = true
      ∧ 1024 * (spill.setReg 0x2000 5 0).reg 0x2000 5 < (spill.setReg 0x2000 5 0).imageSize 6
      ∧ gives (exec (.spillComplete 6 ⟨[], []⟩) (spill.setReg 0x2000 5 0)) (spill.setReg 0x2000 5 0) = true
      ∧ SMap.rising 0 kill.ctxs = true ∧ (kill.releaseCtx 5).ctx 5 = Ctx.init
      ∧ (b n [(4, w)]).residents 0 ≠ [] ∧ (b n []).waitingSwapped 0 = none
      ∧ nextIs (exec (.allBlocked 0) (b n [(4, w)])) (fun t => decide (t.reg 0x9010 1 = 1 ∧ t.reg 0x7010 12 = 1 ∧ (t.core 0).csq.said = true)) = true
      ∧ gives (exec (.allBlocked 0) (b (n - 1) [(4, w)])) (b (n - 1) [(4, w)]) = true ∧ gives (exec (.allBlocked 0) (b n [])) (b n []) = true := by
  decide +kernel

/-- Witness of JobsRunAndStoreResults: the run of a job, and what its contexts make of it. -/
theorem witness_jobs :
    let d (n : Nat) := word 1 (put 263 252 5 + n)
    let link := put 251 251 1
    let c (st : CtxState) (p k : Nat) : SMap Ctx := [(5, { Ctx.init with st := st, part := p, core := k })]
    let s (l : SMap Ctx) := frontAt { served with ctxs := l } (d 0)
    let two (e : List Desc) := (frontAt served (d link)).setPair 1 0 { QPair.init with fetched := d link :: e }
    let stop := { s (c .idle 0 32) with top := { served.top with stopped := ⟨false, true⟩ } }
    let cause (t : State) : List (Nat × Nat) := (t.host.made.d0 ++ t.host.accepted.d0).map fun r => (r.status, r.cause)
    isFront (s []) (d 0) = true ∧ jobRun 16 [] [d 0] = .whole [d 0] ∧ jobRun 16 [] [d link] = .part ∧ jobRun 16 [] [d link, word 8 0] = .bad
      ∧ jobRun 16 [] [d link, d 0] = .whole [d link, d 0]
      ∧ runs (exec (.job 1 0) (two [word 8 0])) = true ∧ gives (exec (.job 1 0) (two [])) (two []) = true
      ∧ gives (exec (.job 1 0) served) served = true
      ∧ nextIs (exec (.job 1 0) (s [])) (fun t => decide ((cause t).map (·.1) = [stAborted])) = true
      ∧ nextIs (exec (.job 1 0) (s (c .killing 0 0))) (fun t => decide ((cause t).map (·.1) = [stAborted])) = true
      ∧ nextIs (exec (.job 1 0) (s (c .idle 1 0))) (fun t => decide (cause t = [(stFault, 0)])) = true
      ∧ nextIs (exec (.job 1 0) (s (c .faulted 0 0))) (fun t => decide ((cause t).map (·.1) = [stAborted])) = true
      ∧ nextIs (exec (.job 1 0) stop) (fun t => decide (cause t = [(stAborted, 5)])) = true
      ∧ nextIs (exec (.job 1 0) (s (c .idle 0 0))) (fun t => decide (t.jobs.length = 1 ∧ (t.pair 1 0).fetched = [])) = true := by
  decide +kernel

/-- A job with an invocation on context 0, with argument rows at an address or result rows at one, and its core at rest. -/
def argJob (a argRows r resRows : Nat) (dn : Option Decision) : State :=
  let i : Invocation := { job := 4, ctx := 0, argAddr := a, resAddr := r, argRows := argRows, resRows := resRows, argHandle := 0, resHandle := 0, loaded := false, finished := dn.isSome, stored := false }
  let s := (coreAt { Csq.init with phase := .hold } [0] []).setCtx 0 { oneCtx with job := some 4 }
  { s with jobs := [{ newJob 4 1 0 0 0 0 7 false [i] none with decision := dn, posted := dn.isSome }] }

/-- Witness of JobsRunAndStoreResults: arguments at the handle's limit and beyond it, results, and JOB_ABORT. -/
theorem witness_job_rows :
    let w := (2 ^ 48 + 5 * 2 ^ 42) + 2 ^ 30 * 2 ^ 64 + 7 * 2 ^ 112
    let far := (argJob (2 ^ 48 + 5 * 2 ^ 42) 1 0 0 none).setBlob 0x7010 4 (leBytes 16 w)
    let res (n : Nat) := argJob 0 0 (2 ^ 51) n (some .completed)
    let d (tag : Nat) := word 2 (put 31 16 tag)
    let a (n : Nat) := frontAt { served with jobs := [newJob 4 1 0 0 0 0 7 false [] none] } (d n)
    ((argJob (2 ^ 51) 8 0 0 none).argsWanted 0).isSome = true ∧ gives (exec (.argumentLoad 0 []) served) served = true
      ∧ runs (exec (.argumentLoad 0 []) (argJob (2 ^ 51) 9 0 0 none)) = true
      ∧ nextIs (exec (.argumentLoad 0 []) (argJob 0 1 0 0 none)) (fun t => decide (t.reg 0x3001 5 = 1 ∧ (t.jobs.all fun b => b.decision = some (.aborted 8)) = true)) = true
      ∧ nextIs (exec (.argumentLoad 0 []) (argJob (2 ^ 51) 1 0 0 none)) (fun t => decide (t.jobs.map (fun b => b.invs.map fun i => i.loaded) = [[true]])) = true
      ∧ far.place (2 ^ 48 + 5 * 2 ^ 42) = .remote 5 0 ∧ nextIs (exec (.argumentLoad 0 []) far) (fun t => decide (t.fab.waiting.map (fun o => o.use) = [.load 4 0 (hBase ((far.core 0).handle 0))])) = true
      ∧ gives (exec (.resultStore 4 ⟨[], []⟩) served) served = true
      ∧ gives (exec (.resultStore 4 ⟨[], []⟩) (res 0)) (res 0) = true ∧ (res 1).jobs.map (fun b => (res 1).resultsDue b) = [true]
      ∧ nextIs (exec (.resultStore 4 ⟨[], []⟩) (res 1)) (fun t => decide (t.jobs.all fun b => b.invs.all fun i => i.stored)) = true
      ∧ runs (exec (.resultStore 4 ⟨[], []⟩) (res 9)) = true
      ∧ nextIs (exec (.jobAbort 1 0) (a 7)) (fun t => decide (t.jobs.all fun b => b.decision = some (.aborted 3))) = true
      ∧ endsWith (.jobAbort 1 0) (a 8) (d 8) stState = true := by
  decide +kernel

/-- Witness of CommandsWaitForBytesElsewhere: 64 bytes of module 5, not asked for, and come. -/
theorem witness_fetches :
    let a := 2 ^ 48 + 5 * 2 ^ 42
    let s (l : List Fetch) : State := { served with fab := { served.fab with fetched := l } }
    let x : Fetch := ⟨a, 64, [(0, 0, List.replicate 64 3)], false⟩
    let run (s : State) : State := (s.useFetch a 64).1
    served.place a = .remote 5 0 ∧ (served.fetchAt a 64).isNone = true ∧ (run served).fab.wanted = [(a, 64)]
      ∧ (served.whenFetched run).fab.fetched = [⟨a, 64, [], false⟩] ∧ (served.whenFetched run).fab.wanted = []
      ∧ (served.whenFetched run).fab.waiting.map (fun o => (o.msg.kind, o.msg.count)) = [(0x0B, 64)]
      ∧ x.whole = true ∧ (s [x]).fetchAt a 64 = some x ∧ ((s [x]).useFetch a 64).2 = some ⟨List.replicate 64 3, [], false⟩
      ∧ ((s [x]).whenFetched run).fab.fetched = [] ∧ Fetch.whole ⟨a, 64, [], false⟩ = false
      ∧ (∀ y ∈ (served.whenFetched id).fab.fetched, y.used = false) := by decide +kernel

/-- A serving state with an addition of a scatter of job 4 into row 0 of table 0, for which there is room. -/
def sendAt : State :=
  let s := withThread 1 .send .zero 0
  let d := tdWord 9 (put 172 170 1 + put 395 344 (2 ^ 51))
  { (s.modCore 0 fun c => { c with gxe := c.gxe.map fun g => { g with job := some 4, table := d } }) with jobs := [someJob false] }

/-- Witness of GatherThreadsGoOn: RoomForSum, and the threads that wait for nothing. -/
theorem witness_send :
    let g := (((sendAt.core 0).gxe.head?).map fun g => g.table).getD 0
    let u := sendAt.jobGroup 4 0 (sendAt.jobDie 4) (some 0)
    ((sendAt.core 0).gxe.map fun g => (g.job, gxSluice g.desc, gxTable g.desc, tdHome g.table)) = [(some 4, 1, 0, sendAt.me)]
      ∧ (sendAt.job? 4).isSome = true ∧ (u.1.sl.accums.get (u.1.homeDie g 0)) = [] ∧ u.1.fits u.2 1 (tdStride g + tdStateStride g) = true
      ∧ u.1.mayBegin u.2 = true ∧ u.1.updateUsed (u.1.homeDie g 0) + accSize g ≤ 2 ^ 20 * u.1.reg 0x6000 3
      ∧ u.1.quotaFits (tdOwner g) (u.1.homeDie g 0) (accSize g) = true
      ∧ nextIs (exec (.scatterSendResume 0) sendAt) (fun t => decide ((t.core 0).threads.map (fun x => x.st) = [.order])) = true
      ∧ gives (exec (.scatterSendResume 0) (withThread 1 .order .zero 0)) (withThread 1 .order .zero 0) = true
      ∧ gives (exec (.scatterAck 0 1 ⟨[], []⟩) (withThread 1 .order (.remote 5 0) 0)) (withThread 1 .order (.remote 5 0) 0) = true
      ∧ gives (exec (.scatterAck 0 1 ⟨[], []⟩) (withThread 0 .order .zero 0)) (withThread 0 .order .zero 0) = true
      ∧ gives (exec (.gxeRowReadReturn 0 1 ⟨[], []⟩ []) (withThread 0 .order .zero 0)) (withThread 0 .order .zero 0) = true
      ∧ gives (exec (.gxeRowReadReturn 0 9 ⟨[], []⟩ []) sendAt) sendAt = true := by decide +kernel

/-- Witness of MoverDescriptorsMove: a chain whose permit is held, one whose permit another chain uses, and one that is not complete. -/
theorem witness_mover_waits :
    let far := { copyItem false [0] with desc := BitVec.ofNat 256 (put 3 2 1 + put 179 128 2 + put 12 8 3) }
    let s (l : List DmvItem) := (((withDmv far).modCore 0 fun c => { c with dmv := l }).setReg 0x2000 5 0).setReg 0x3010 1 (2 ^ 36)
    let held (s : State) : State := { s with pow := (withGov fun g => { g with held := [⟨.hbm, .dmv 0⟩] }).pow }
    let used := s [far, { copyItem true [] with id := 7, chain := 9, permits := some [⟨.hbm, .dmv 0⟩] }]
    let open' := s [{ far with last := false }]
    (held (s [far])).holdsPermit ⟨.hbm, .dmv 0⟩ = true ∧ (held (s [far])).chainPermits 0 ((held (s [far])).dmvItems 0 0) = [⟨.hbm, .dmv 0⟩]
      ∧ runs (exec (.dmvChainStart 0 ⟨[], []⟩ []) (held (s [far]))) = true
      ∧ gives (exec (.dmvChainStart 0 ⟨[], []⟩ []) used) used = true
      ∧ gives (exec (.dmvChainStart 0 ⟨[], []⟩ []) open') open' = true := by
  decide +kernel

/-- Witness of RaisesAreCountedRecordedAndPosted and of HostLinksFailOverAndReturn: a record that waits for its link, and what is sent of
the pending messages. -/
theorem witness_waiting_records :
    let r : Raise := { det := 0x9003, sev := 3, cause := 2 }
    let s := (served.setReg 0xB010 2 4).setReg 0xB010 1 (2 ^ 51)
    let h := { served.host with msixPending := [(16, 5)], msixMask := [(16, 1)] }
    let m : State := { served with host := { h with msixCtl := [(16, 1)], msixTable := [(514, (64, 9))] } }
    s.eventLinkUp = false ∧ (s.raise r).mem = s.mem ∧ (s.raise r).host.events.map (fun x => x.1) = [0]
      ∧ (s.setReg 0xB010 1 0).eventLinkUp = false ∧ SMap.rising 0 m.host.msixPending = true
      ∧ m.vectorOpen 16 2 = true ∧ m.vectorOpen 16 0 = false
      ∧ (m.sendPending 16).host.messages = [(64, 9)] ∧ (m.sendPending 16).host.msixPending = [(16, 1)] := by decide +kernel

/-- Witness of QueuesCarryDescriptorsAndRecords: the turn of a queue engine at a pair that has descriptors to fetch, and at another. -/
theorem witness_turns :
    let s := ((served.setReg (pairIdx 1 0) 8 1).setReg (pairIdx 1 0) 2 16).setReg 0xB000 1 2
    let a := s.setPair 1 0 { QPair.init with tail := 1 }
    a.fetchable 0 = [16] ∧ a.fetchTurn 0 = some (16, 1) ∧ maskBit a.host.d3hot 1 = false ∧ s.fetchTurn 0 = none
      ∧ (a.setReg (pairIdx 1 0) 9 3).fetchTurn 0 = some (16, 3) := by decide +kernel

/-- Witness of ServiceOperationsAct: a self-test that passes, that reports a failure, and that puts out other words. -/
theorem witness_core_selftest :
    let s : State := { served.setReg (0xA100 + 8) 1 2 with av := { served.av with testing := [8] } }
    s.badWords 8 [] = [] ∧ s.badWords 8 [(0, [])] = [0] ∧ s.armed 0x9018 (physCode 8) 0 = false
      ∧ nextIs (exec (.coreSelftestComplete 8 0 []) s) (fun t => decide (t.physState 8 = 1 ∧ t.av.testing = [])) = true
      ∧ nextIs (exec (.coreSelftestComplete 8 2 []) s) (fun t => decide (t.physState 8 = 3 ∧ t.av.testing = [])) = true
      ∧ nextIs (exec (.coreSelftestComplete 8 0 [(0, [])]) s) (fun t => decide (t.physState 8 = 3 ∧ t.av.testing = [])) = true := by
  decide +kernel

/-- Witness of UpdatesAreAppliedInTurn: the group of a parcel, and the parts of a span that is withdrawn. -/
theorem witness_parcel_groups :
    let m := someMsg 3
    let t (job grp : Nat) (late : Bool) : Turn := { step := 2, src := 5, job := job, grp := grp, verdict := none, since := 0, late := late }
    let s (l : List Turn) := withSl fun x => { x with turns := l, parcelWaits := [({ m with count := 6 }, 2)] }
    let d := (s []).table 1
    ((s [t 7 3 false]).parcelGroup m d false).2 = 3 ∧ ((s [t 8 4 false]).parcelGroup m d false).2 = 4
      ∧ ((s [t 8 4 false]).parcelGroup m d false).1.sl.turns.length = 2 ∧ ((s [t 8 4 true]).parcelGroup m d false).1.sl.groups.length = 1
      ∧ ((s []).parcelGroup m d false).1.sl.groups.length = 1
      ∧ nextIs (exec (.withdraw { m with count := 6 }) (s [])) (fun t => decide (t.sl.parcelWaits = [] ∧ t.fab.waiting.length = 2)) = true
      ∧ nextIs (exec (.withdraw m) (s [])) (fun t => decide (t.sl.parcelWaits.length = 1)) = true := by decide +kernel

/-- Witness of MemoryIsRequestedAndPatrolled: a read that fails and one that does not in the end, and writes that end poison or are
dropped. -/
theorem witness_transfers :
    let q (r : MemReq) := withTiers fun x => { x with chans := [(0, { Channel.init with queue := [r] })] }
    let c := { Channel.init with queue := [someReq .write 0] }
    let w (l : List Nat) := withTiers fun x => { x with chans := [(0, c)], ranges := [(0, { Range.init with poison := l })] }
    let cut := (w []).setBlobBit 0x1200 10 0 0
    (w [0]).untrained 0 0 = false ∧ cut.untrained 0 0 = true
      ∧ nextIs (exec (.memoryRequest 0 0 { clean with failures := 9 }) (q { someReq .read 0 with lost := 1 }))
        (fun t => decide ((t.chan 0 0).failures = 1)) = true
      ∧ nextIs (exec (.memoryRequest 0 0 { clean with failures := 2 }) (q (someReq .read 0)))
        (fun t => decide ((t.chan 0 0).failures = 0 ∧ (t.chan 0 0).retries = 2)) = true
      ∧ nextIs (exec (.memoryRequest 0 0 clean) (w [0])) (fun t => decide ((t.range 0).poison = [])) = true
      ∧ nextIs (exec (.memoryRequest 0 0 clean) (w [5])) (fun t => decide ((t.range 0).poison = [5])) = true
      ∧ nextIs (exec (.memoryRequest 0 0 clean) cut) (fun t => t.blobBit 0x1200 13 0 0) = true := by decide +kernel

/-- Witness of LinksTrainAndReport and of LanesFailAndAreSpared: a link that comes UP with the flits that wait for a report, a lane that
fails while another waits for the spare, and the return of an injected lane at its time and before it. -/
theorem witness_lanes :
    let past := linkAt 1 fun l => { l with past := [heldFlit 7 [] 0], awaiting := true }
    let wait := linkAt 2 fun l => { l with rxSpare := some 3 }
    let av := { served.av with injectedLanes := [(375, 1)] }
    let inj (n : Nat) : State := { linkAt 2 fun l => { l with rxSpare := some 7 } with av := av, now := n }
    let n := usCycles 1000000
    past.fab.waiting = [] ∧ SMap.rising 0 past.fab.links = true ∧ past.eng 23 2 / 256 = 5 / 256
      ∧ (past.link 23).awaiting = true ∧ runs (exec (.linkUp 23 5 true) past) = true
      ∧ nextIs (exec (.laneFail 23 8) wait) (fun t => decide (t.linkIsUp 23 = false)) = true
      ∧ nextIs (exec (.laneFail 23 7) wait) (fun t => decide (t.linkIsUp 23 = false)) = true
      ∧ gives (exec (.injectedLaneReturn 23 7) (inj (n - 1))) (inj (n - 1)) = true
      ∧ nextIs (exec (.injectedLaneReturn 23 7) (inj n)) (fun t => decide (t.lanesOn 23 1 7 = some 7 ∧ (t.link 23).rxSpare = none)) = true
      ∧ nextIs (exec (.ackTimer 23) (linkAt 2 fun l => { l with owed := [(0, 3)] })) (fun t => decide ((t.link 23).owed = [])) = true := by
  decide +kernel

/-- Witness of CodewordsCarryStripes: a flit's bytes, and the codewords of a lane in use and of the idle spare. -/
theorem witness_flit_bytes :
    let f := { heldFlit 7 [] 0 with content := List.replicate 240 5 }
    let u := linkAt 2 id
    f.content.length = 240 ∧ f.bytes.length = 256 ∧ u.lanesOn 23 0 3 = some 3 ∧ u.lanesOn 23 0 8 = none
      ∧ maskBit (u.failedLanes 23 0) 8 = false ∧ (u.link 23).txSpare = none ∧ (u.txCodeword 23 8 []).isSome = true := by decide +kernel

/-- Witness of PartitionsBeginAndEnd: a teardown whose streams' group on die 1 waits for its mark, and the shares of an estimate. -/
theorem witness_teardown_waits :
    let e := seWord 0xFFFF (put 267 264 0)
    let s := ((withStrm fun x => { x with entries := [(32768, BitVec.ofNat 512 (e.toNat))] }).setReg 0x5100 2 0).setReg 0x7010 1 2
    s.partState 0 = 2 ∧ s.partCtxs 0 = [] ∧ s.tearing 0 = false ∧ (s.tearStreams 0).tearing 0 = true
      ∧ (energyShares (List.replicate 17 10) 0 (2 * 10 ^ 6)).sum = 195
      ∧ (energyShares (List.replicate 17 20) 0 (2 * 10 ^ 6)).sum = 204 := by decide +kernel

/-- Witness of ContextCommandsRun and of ContextEventsComplete: an image of another module, and a window that is still being filled with
zeros. -/
theorem witness_ctx_waits :
    let a := 2 ^ 48 + 7 * 2 ^ 42
    let d := word 3 (6 + put 248 237 5 + put 224 173 a)
    let s := frontAt (withCtxs []) d
    let o : CtxOp := ⟨1, 0, s.headAfter 1 0 d, d, .blocked, s.now⟩
    let k : Ctx := { Ctx.init with st := .killing, header := BitVec.ofNat 512 (put 143 128 1) }
    let r : State := { withCtxs [(5, { k with st := .restoring }), (6, k)] with ctxOps := [⟨1, 0, 1, coWord 3 (put 236 225 0xFFF), .restore, 0⟩] }
    isFront s d = true ∧ (s.popDesc 1 0 d).opReads o = [(a, 64)]
      ∧ nextIs (exec (.ctxImport 1 0) s) (fun t => decide ((t.pair 1 0).fetched = [d] ∧ t.fab.fetched = [⟨a, 64, [], false⟩])) = true
      ∧ hdRowSpan k.header = 1
      ∧ r.fillPending (r.physOf 0) 5 0 1 0 0 = true ∧ gives (exec (.restoreComplete 5 []) r) r = true := by decide +kernel

end Sys2Proof.Tests
end

