-- ==== Sys2Proof/WellFormed.lean ====
section
/-! DEFINITION. The commands whose operands name a die, core, function, queue, engine, channel or table that exists. -/

namespace Sys2Proof

/-- Classes 0 to 5 and modules 0 to 63 (Table 7 of 11). -/
def FabMsg.wf (m : FabMsg) : Bool := decide (m.cls < 6) && decide (m.src < 64) && decide (m.dst < 64)

/-- Every operand that numbers something numbers one that exists (R2, R4, R192, R227, R249, R324, R358, R419, R425). -/
def Instr.wf : Instr → Bool
  | .sysResetAssert => true
  | .sysResetRelease _ => true
  | .pwrGoodFall => true
  | .pllLossOfLock => true
  | .thermalStop die _ _ _ => decide (die < 2)
  | .resetComplete => true
  | .selftestCompleteAll _ => true
  | .rangeTrained range _ => decide (range < 8)
  | .trainingZeroFill => true
  | .opticsCalibrated engine _ _ => decide (engine < 24)
  | .readyEntry => true
  | .holdPointWrite acc _ => decide (acc < 18)
  | .serve acc => decide (acc < 18)
  | .quiesce acc => decide (acc < 18)
  | .permitRequest die _ => decide (die < 2)
  | .loanRequest die => decide (die < 2)
  | .loanReply die => decide (die < 2)
  | .loanRetry die => decide (die < 2)
  | .permitReturn die _ => decide (die < 2)
  | .permitTimeout die => decide (die < 2)
  | .governorWindowEnd _ => true
  | .packageBudgetWrite acc _ => decide (acc < 18)
  | .powerSample _ => true
  | .overBudget => true
  | .overBudgetClear => true
  | .engineGate core engine => decide (core < 72) && decide (engine < 3)
  | .bankRetention core bank => decide (core < 72) && decide (bank < 4)
  | .sliceRetention die slice => decide (die < 2) && decide (slice < 4)
  | .segmentLookahead core => decide (core < 72)
  | .segmentStart core _ => decide (core < 72)
  | .segmentEnd core => decide (core < 72)
  | .syncPoint core => decide (core < 72)
  | .spanRetry core => decide (core < 72)
  | .mxeTile core _ => decide (core < 72)
  | .gtuLstm core _ => decide (core < 72)
  | .gtuGru core _ => decide (core < 72)
  | .gtuMguPhaseA core _ => decide (core < 72)
  | .gtuMguPhaseB core _ => decide (core < 72)
  | .gtuSru core _ => decide (core < 72)
  | .gtuGateProgram core _ => decide (core < 72)
  | .gtuIntake core _ => decide (core < 72)
  | .vxePass core _ => decide (core < 72)
  | .gxeLookup core _ => decide (core < 72)
  | .gxeScatter core _ => decide (core < 72)
  | .gxeRowReadReturn core thread _ _ => decide (core < 72) && decide (thread < 512)
  | .scatterAck core thread _ => decide (core < 72) && decide (thread < 512)
  | .scatterSendResume core => decide (core < 72)
  | .dmvCopy core _ _ => decide (core < 72)
  | .dmvZeroFill core _ _ => decide (core < 72)
  | .mxImport core _ _ => decide (core < 72)
  | .dmvChainStart core _ _ => decide (core < 72)
  | .dmvDescriptorComplete core _ => decide (core < 72)
  | .scrubWriteBack core => decide (core < 72)
  | .patrolScrub core _ => decide (core < 72)
  | .bindingComplete ctx _ => decide (ctx < 4096)
  | .zeroFillComplete ctx => decide (ctx < 4096)
  | .streamCreate fn q => decide (fn < 17) && decide (q < 16)
  | .streamReset fn q => decide (fn < 17) && decide (q < 16)
  | .move fn q => decide (fn < 17) && decide (q < 16)
  | .moveCopyComplete stream _ => decide (stream < 65536)
  | .stSet fn q => decide (fn < 17) && decide (q < 16)
  | .resume fn q => decide (fn < 17) && decide (q < 16)
  | .delete fn q => decide (fn < 17) && decide (q < 16)
  | .streamCommandResume stream => decide (stream < 65536)
  | .chunkDescriptor fn q => decide (fn < 17) && decide (q < 16)
  | .featureFrame stream => decide (stream < 65536)
  | .batchWindowExpiry stack _ => decide (stack < 32)
  | .batchForm stack _ => decide (stack < 32)
  | .exchangeRowAccess core _ _ => decide (core < 72)
  | .batchCommit stack => decide (stack < 32)
  | .deadlineMiss stream => decide (stream < 65536)
  | .stackEnableWrite acc stack _ => decide (acc < 18) && decide (stack < 32)
  | .outHeadWrite acc stack _ => decide (acc < 18) && decide (stack < 32)
  | .outRingConfigWrite acc stack sub _ => decide (acc < 18) && decide (stack < 32) && decide (sub < 256)
  | .sampleTick domain => decide (domain < 32)
  | .frameTick domain => decide (domain < 32)
  | .domainStopRequest acc domain => decide (acc < 18) && decide (domain < 32)
  | .domainArmPps acc domain => decide (acc < 18) && decide (domain < 32)
  | .domainArmAt acc domain => decide (acc < 18) && decide (domain < 32)
  | .domainStartAt domain => decide (domain < 32)
  | .ppsEdge _ => true
  | .ppsLoss => true
  | .sharedTickWrite acc _ => decide (acc < 18)
  | .ingressTailWrite part die _ _ => decide (part < 16) && decide (die < 2)
  | .ingressEntry part die _ => decide (part < 16) && decide (die < 2)
  | .streamFrameTick stream => decide (stream < 65536)
  | .stopTimeout stream => decide (stream < 65536)
  | .intakeStateWriteback stream => decide (stream < 65536)
  | .egressHeadWrite part die _ => decide (part < 16) && decide (die < 2)
  | .tableDescriptorWrite acc _ _ => decide (acc < 18)
  | .sketchDecay => true
  | .hotListRead acc => decide (acc < 18)
  | .mapoutAdd acc _ => decide (acc < 18)
  | .mapoutRemove acc _ => decide (acc < 18)
  | .promote fn q _ => decide (fn < 17) && decide (q < 16)
  | .demote fn q => decide (fn < 17) && decide (q < 16)
  | .migrate fn q _ => decide (fn < 17) && decide (q < 16)
  | .unmigrate fn q _ => decide (fn < 17) && decide (q < 16)
  | .applyWindow _ _ => true
  | .jobFinalCommit _ => true
  | .prepare _ => true
  | .prepareAnswer _ => true
  | .markRequest _ => true
  | .publishedMarkUpdate => true
  | .oldestPinExchange => true
  | .pin fn q => decide (fn < 17) && decide (q < 16)
  | .unpin fn q => decide (fn < 17) && decide (q < 16)
  | .mark fn q => decide (fn < 17) && decide (q < 16)
  | .drain die => decide (die < 2)
  | .stagingResume die => decide (die < 2)
  | .parcel m => m.wf
  | .parcelAck m _ => m.wf
  | .verdict m => m.wf
  | .closedStep m => m.wf
  | .withdraw m => m.wf
  | .turnApply table _ => decide (table < 4096)
  | .stepTimeout module => decide (module < 64)
  | .stepCloseWrite acc _ => decide (acc < 18)
  | .refresh m => m.wf
  | .replicaInstall m => m.wf
  | .replicaRemove m => m.wf
  | .audit table _ => decide (table < 4096)
  | .sluiceBegin acc _ => decide (acc < 18)
  | .sluiceCommit acc _ => decide (acc < 18)
  | .sluiceAbort acc _ => decide (acc < 18)
  | .dictSluiceTimeout acc => decide (acc < 18)
  | .channelPowerDown range channel => decide (range < 8) && decide (channel < 32)
  | .memoryRequest range channel _ => decide (range < 8) && decide (channel < 32)
  | .wcbAgeExpiry range _ => decide (range < 8)
  | .memoryPatrol range _ => decide (range < 8)
  | .rowRepair acc => decide (acc < 18)
  | .rowRepairComplete _ => true
  | .pageRemap acc => decide (acc < 18)
  | .querySpares acc => decide (acc < 18)
  | .clearSuspect acc => decide (acc < 18)
  | .plan acc => decide (acc < 18)
  | .start acc => decide (acc < 18)
  | .cancel acc => decide (acc < 18)
  | .reflowStep _ => true
  | .reflowDone => true
  | .portDrWrite acc _ _ => decide (acc < 18)
  | .hostReadTimeout fn q => decide (fn < 17) && decide (q < 16)
  | .laneFail engine lane => decide (engine < 24) && decide (lane < 9)
  | .dataFlit engine _ => decide (engine < 24)
  | .controlFlit engine _ => decide (engine < 24)
  | .replayTimeout engine => decide (engine < 24)
  | .ackTimer engine => decide (engine < 24)
  | .ackProgressTimeout engine => decide (engine < 24)
  | .linkRetrain engine => decide (engine < 24)
  | .linkUp engine peer _ => decide (engine < 24) && decide (peer < 65536)
  | .linkEnableWrite acc _ => decide (acc < 18)
  | .routeTableWrite acc _ _ => decide (acc < 18)
  | .fabricTimeout _ => true
  | .linkReport engine _ => decide (engine < 24)
  | .rowRead m _ => m.wf
  | .rowData m _ => m.wf
  | .read m _ => m.wf
  | .write m => m.wf
  | .readData m _ _ => m.wf
  | .ack m _ _ => m.wf
  | .dictRead m => m.wf
  | .dictData m => m.wf
  | .partitionCreate acc part => decide (acc < 18) && decide (part < 16)
  | .teardown acc part => decide (acc < 18) && decide (part < 16)
  | .contextCreate fn q => decide (fn < 17) && decide (q < 16)
  | .kill fn q => decide (fn < 17) && decide (q < 16)
  | .swap fn q => decide (fn < 17) && decide (q < 16)
  | .switch fn q => decide (fn < 17) && decide (q < 16)
  | .ctxExport fn q => decide (fn < 17) && decide (q < 16)
  | .ctxImport fn q => decide (fn < 17) && decide (q < 16)
  | .spillComplete ctx _ => decide (ctx < 4096)
  | .restoreComplete ctx _ => decide (ctx < 4096)
  | .allBlocked core => decide (core < 72)
  | .energyEstimate => true
  | .energyCalibration => true
  | .snapshot acc _ => decide (acc < 18)
  | .sqTailWrite fn q _ _ => decide (fn < 17) && decide (q < 16)
  | .cqHeadWrite fn q _ => decide (fn < 17) && decide (q < 16)
  | .descriptorFetch fn q => decide (fn < 17) && decide (q < 16)
  | .job fn q => decide (fn < 17) && decide (q < 16)
  | .argumentLoad core _ => decide (core < 72)
  | .resultStore _ _ => true
  | .jobAbort fn q => decide (fn < 17) && decide (q < 16)
  | .nop fn q => decide (fn < 17) && decide (q < 16)
  | .completionRecordAccept die => decide (die < 2)
  | .cqWrite fn q => decide (fn < 17) && decide (q < 16)
  | .coalesceTimeout fn q => decide (fn < 17) && decide (q < 16)
  | .queueEnable acc fn q _ => decide (acc < 18) && decide (fn < 17) && decide (q < 16)
  | .hostLinkDown link _ => decide (link < 2)
  | .hostLinkUp link _ _ => decide (link < 2)
  | .hostErrorCompletion fn q => decide (fn < 17) && decide (q < 16)
  | .functionLevelReset fn => decide (fn < 17)
  | .dictCtrlRead fn idx sub _ _ => decide (fn < 17) && decide (idx < 65536) && decide (sub < 256)
  | .dictCtrlWrite fn idx sub _ _ => decide (fn < 17) && decide (idx < 65536) && decide (sub < 256)
  | .dictionaryWrite acc idx sub _ _ => decide (acc < 18) && decide (idx < 65536) && decide (sub < 256)
  | .rcRead acc idx sub => decide (acc < 18) && decide (idx < 65536) && decide (sub < 256)
  | .eventEntriesWrite acc fn _ => decide (acc < 18) && decide (fn < 17)
  | .entdaa _ => true
  | .setEndpointId _ _ => true
  | .getEndpointId => true
  | .getMctpVersionSupport _ => true
  | .getMessageTypeSupport => true
  | .getVendorDefinedMessageSupport _ => true
  | .mctpRead _ idx sub _ _ => decide (idx < 65536) && decide (sub < 256)
  | .mctpWrite _ idx sub _ _ => decide (idx < 65536) && decide (sub < 256)
  | .requestUpdate => true
  | .passComponentTable _ => true
  | .updateComponent _ => true
  | .transferComplete _ => true
  | .verifyComplete _ => true
  | .applyComplete _ => true
  | .activateFirmware _ => true
  | .rotate acc => decide (acc < 18)
  | .handoverComplete _ => true
  | .replace acc => decide (acc < 18)
  | .serviceSelftest acc => decide (acc < 18)
  | .retire acc => decide (acc < 18)
  | .clearFuse acc => decide (acc < 18)
  | .dmcSwitch acc => decide (acc < 18)
  | .activateFw acc _ => decide (acc < 18)
  | .coreSelftestComplete phys _ _ => decide (phys < 72)
  | .heartbeat => true
  | .heartbeatTimeout => true
  | .componentSwitch => true
  | .componentReadyTimeout => true
  | .injectArm acc det _ => decide (acc < 18) && decide (0x9000 < det && det < 0x9020)
  | .tapReset => true
  | .bypass => true
  | .idcode => true
  | .samplePreload _ => true
  | .extest => true
  | .clamp => true
  | .highz => true
  | .spareSwitch engine _ => decide (engine < 24)
  | .injectedLaneReturn engine lane => decide (engine < 24) && decide (lane < 9)
  | .linkUpTimeout engine => decide (engine < 24)
  | .standbyLost => true
  | .applyWindowComplete _ => true
  | .drainBatchComplete die => decide (die < 2)
  | .lastSliceStaged stack => decide (stack < 32)
  | .pageRemapComplete _ => true
  | .zeroLengthReadComplete fn q => decide (fn < 17) && decide (q < 16)
  | .configurationWrite _ => true
  | .pldmBaseRequest _ => true
  | .pldmPlatformRequest _ => true

end Sys2Proof
end

section
/-! Proofs of chapter 01: the governors' accounts, what a grant writes, how the queue of a die is served (R27, R28), and
what gating and retention leave alone (R25, R26). -/

namespace Sys2Proof.Machine

/-! ### The governors -/

@[simp] theorem State.gov_setGov_same (s : State) (d : Nat) (g : Governor) : (s.setGov d g).gov d = g := by
  unfold State.gov State.setGov Two.get Two.set
  by_cases h : d = 0 <;> simp [h]

theorem State.gov_setGov_other (s : State) {d e : Nat} (g : Governor) (h : d = 0 ↔ e ≠ 0) :
    (s.setGov d g).gov e = s.gov e := by
  unfold State.gov State.setGov Two.get Two.set
  by_cases he : e = 0
  · simp [he, h]
  · simp [he, h.2 he]

/-- The governor of the other die. -/
theorem State.gov_setGov_peer (s : State) {d : Nat} (g : Governor) (hd : d < 2) :
    (s.setGov d g).gov (1 - d) = s.gov (1 - d) :=
  s.gov_setGov_other g (by omega)

theorem State.gov_of_pow {s t : State} (h : t.pow = s.pow) (d : Nat) : t.gov d = s.gov d := by
  unfold State.gov
  rw [h]

/-! ### Sizes, held and headroom read the entries of R27 alone -/

theorem State.permitSize_of_reg {s t : State} {c : PClass} (h : t.reg 0x2003 c.sub = s.reg 0x2003 c.sub) :
    t.permitSize c = s.permitSize c := by
  unfold State.permitSize
  rw [h]

@[simp] theorem State.permitSize_setGov (s : State) (d : Nat) (g : Governor) (c : PClass) :
    (s.setGov d g).permitSize c = s.permitSize c := rfl

theorem State.held_of_gov {s t : State} {d : Nat} (hh : (t.gov d).held = (s.gov d).held)
    (hs : ∀ c, t.permitSize c = s.permitSize c) : t.held d = s.held d := by
  unfold State.held
  simp only [hh, hs]

/-- One more held permit adds its size to held(d). -/
theorem State.held_append {s t : State} {d : Nat} {p : Permit} (hh : (t.gov d).held = (s.gov d).held ++ [p])
    (hs : ∀ c, t.permitSize c = s.permitSize c) : t.held d = s.held d + s.permitSize p.cls := by
  unfold State.held
  simp only [hh, hs, List.foldl_append, List.foldl_cons, List.foldl_nil]

/-- A governor with the old floor and the old held permits has the old headroom. -/
theorem State.headroom_setGov {s : State} {d : Nat} {g : Governor} (hf : g.floor = (s.gov d).floor)
    (hh : g.held = (s.gov d).held) : (s.setGov d g).headroom d = s.headroom d := by
  have held : (s.setGov d g).held d = s.held d := State.held_of_gov (by simp [hh]) fun _ => rfl
  have guard : (s.setGov d g).guard = s.guard := rfl
  unfold State.headroom
  rw [held, guard, State.gov_setGov_same, State.setGov_alloc, hf]

/-! ### Counting a wait writes counters alone -/

theorem State.countWait_eq (s : State) (d : Nat) (a : Ask) :
    s.countWait d a = s ∨ s.countWait d a
      = ((s.bump (0x2001 + d) 5 1).bump (0x2001 + d) 6 (cyclesNs (s.now - a.arrived))).regMax (0x2001 + d) 7
          (cyclesNs (s.now - a.arrived)) := by
  unfold State.countWait
  extract_lets w
  generalize (if a.loanCase = some true then 80 else 20) = limit
  by_cases h : limit < w
  · exact .inr (if_pos h)
  · exact .inl (if_neg h)

@[simp] theorem State.countWait_now (s : State) (d : Nat) (a : Ask) : (s.countWait d a).now = s.now := by
  rcases s.countWait_eq d a with h | h <;> simp [h]
@[simp] theorem State.countWait_top (s : State) (d : Nat) (a : Ask) : (s.countWait d a).top = s.top := by
  rcases s.countWait_eq d a with h | h <;> simp [h]
@[simp] theorem State.countWait_alloc (s : State) (d : Nat) (a : Ask) : (s.countWait d a).alloc = s.alloc := by
  rcases s.countWait_eq d a with h | h <;> simp [h]
@[simp] theorem State.countWait_pow (s : State) (d : Nat) (a : Ask) : (s.countWait d a).pow = s.pow := by
  rcases s.countWait_eq d a with h | h <;> simp [h]

theorem State.reg_regMax_other {s : State} {i j a b : Nat} (v : Nat) (hk : dkey a b ≠ dkey i j) :
    (s.regMax i j v).reg a b = s.reg a b := by
  unfold State.regMax
  split
  · exact State.reg_setReg_other v hk
  · rfl

/-- Entries outside the permit counters of the die, 0x2001 + d, read as before. -/
theorem State.reg_countWait_other {s : State} {d i j : Nat} (a : Ask) (hk : ∀ k < 8, dkey i j ≠ dkey (0x2001 + d) k) :
    (s.countWait d a).reg i j = s.reg i j := by
  rcases s.countWait_eq d a with h | h
  · rw [h]
  · rw [h, State.reg_regMax_other _ (hk 7 (by omega)), State.reg_bump_other _ (hk 6 (by omega)),
      State.reg_bump_other _ (hk 5 (by omega))]

/-! ### What a grant writes (R28) -/

/-- The governor of die d once the head a of its queue is granted. -/
def State.grantedGov (s : State) (d : Nat) (a : Ask) (rest : List Ask) : Governor :=
  { (s.setHeld d ((s.gov d).held ++ [a.permit])).gov d with queue := rest }.sendBack a.permit

section Grant

variable (s : State) (d : Nat) (a : Ask) (rest : List Ask)

@[simp] theorem State.grant_now : (s.grant d a rest).now = s.now := by simp [State.grant, State.setHeld]
@[simp] theorem State.grant_top : (s.grant d a rest).top = s.top := by simp [State.grant, State.setHeld]
@[simp] theorem State.grant_alloc : (s.grant d a rest).alloc = s.alloc := by simp [State.grant, State.setHeld]

theorem State.grant_pow :
    (s.grant d a rest).pow
      = ((s.setHeld d ((s.gov d).held ++ [a.permit])).setGov d (s.grantedGov d a rest)).pow := by
  simp [State.grant, State.grantedGov]

@[simp] theorem State.grant_halted : (s.grant d a rest).halted = s.halted := by
  unfold State.halted
  rw [State.grant_pow, State.grant_now]
  rfl

theorem State.gov_grant_same : (s.grant d a rest).gov d = s.grantedGov d a rest := by
  rw [State.gov_of_pow (s.grant_pow d a rest), State.gov_setGov_same]

theorem State.gov_grant_peer (hd : d < 2) : (s.grant d a rest).gov (1 - d) = s.gov (1 - d) := by
  rw [State.gov_of_pow (s.grant_pow d a rest), State.gov_setGov_peer _ _ hd]
  exact State.gov_setGov_peer _ _ hd

@[simp] theorem Governor.sendBack_held (g : Governor) (p : Permit) : (g.sendBack p).held = g.held := by
  unfold Governor.sendBack; split <;> rfl
@[simp] theorem Governor.sendBack_queue (g : Governor) (p : Permit) : (g.sendBack p).queue = g.queue := by
  unfold Governor.sendBack; split <;> rfl
@[simp] theorem Governor.sendBack_asks (g : Governor) (p : Permit) : (g.sendBack p).asks = g.asks := by
  unfold Governor.sendBack; split <;> rfl
@[simp] theorem Governor.sendBack_floor (g : Governor) (p : Permit) : (g.sendBack p).floor = g.floor := by
  unfold Governor.sendBack; split <;> rfl

@[simp] theorem State.held_gov_grant : ((s.grant d a rest).gov d).held = (s.gov d).held ++ [a.permit] := by
  simp [State.gov_grant_same, State.grantedGov, State.setHeld]
@[simp] theorem State.queue_gov_grant : ((s.grant d a rest).gov d).queue = rest := by
  simp [State.gov_grant_same, State.grantedGov, State.setHeld]
@[simp] theorem State.asks_gov_grant : ((s.grant d a rest).gov d).asks = (s.gov d).asks := by
  simp [State.gov_grant_same, State.grantedGov, State.setHeld]
@[simp] theorem State.floor_gov_grant : ((s.grant d a rest).gov d).floor = (s.gov d).floor := by
  simp [State.gov_grant_same, State.grantedGov, State.setHeld]

/-- Entries outside the permit counters of the die read as before. -/
theorem State.reg_grant_other {i j : Nat} (hk : ∀ k < 8, dkey i j ≠ dkey (0x2001 + d) k) :
    (s.grant d a rest).reg i j = s.reg i j := by
  unfold State.grant
  dsimp only
  rw [State.reg_countWait_other a hk, State.reg_bump_other _ (hk 4 (by omega))]
  rfl

variable {s d a rest}

/-- The sizes of the classes lie beyond the permit counters of both dies. -/
theorem State.permitSize_grant (hd : d < 2) (c : PClass) : (s.grant d a rest).permitSize c = s.permitSize c :=
  State.permitSize_of_reg (s.reg_grant_other d a rest fun k hk => by unfold dkey; omega)

theorem State.guard_grant : (s.grant d a rest).guard = s.guard := by
  unfold State.guard
  rw [s.reg_grant_other d a rest fun k hk => by unfold dkey; omega, State.grant_alloc]

/-- R28: the size of the granted permit is added to held(d). -/
theorem State.held_grant (hd : d < 2) : (s.grant d a rest).held d = s.held d + s.permitSize a.permit.cls :=
  State.held_append (s.held_gov_grant d a rest) fun c => State.permitSize_grant hd c

/-- A grant takes the permit's size from headroom(d). -/
theorem State.headroom_grant (hd : d < 2) :
    (s.grant d a rest).headroom d = s.headroom d - s.permitSize a.permit.cls := by
  unfold State.headroom
  rw [State.grant_alloc, State.floor_gov_grant, State.held_grant hd, State.guard_grant]
  omega

end Grant

/-! ### Serving the queue of a die (R28, R29, R31) -/

/-- Die d runs and granting is not stopped. -/
def State.Granting (s : State) (d : Nat) : Prop := s.top.stopped.get d = false ∧ s.halted = false

theorem State.Grants.granting {s : State} {d : Nat} (h : s.Grants d) : s.Granting d := by
  obtain ⟨-, runs, granting, -⟩ := h
  exact ⟨runs, granting⟩

theorem State.Granting.setGov {s : State} {d : Nat} (h : s.Granting d) (e : Nat) (g : Governor) : (s.setGov e g).Granting d := h

theorem State.Granting.grant {s : State} {d : Nat} (h : s.Granting d) (e : Nat) (a : Ask) (rest : List Ask) :
    (s.grant e a rest).Granting d := by
  unfold State.Granting
  rw [State.grant_top, State.grant_halted]
  exact h

/-- The head of a queue once the governor has looked at it: it keeps whether its first check needed a loan (R32). -/
def Ask.looked (a : Ask) (short : Bool) : Ask := { a with loanCase := some (a.loanCase.getD short) }

/-- The loan that die d has under way once a head of a size above headroom(d) waits: the one it asked for, or one of the
shortfall where the other die runs (R29). -/
def State.loanWanted (s : State) (d : Nat) (size : Int) : Option Nat :=
  match (s.gov d).loanAsk with
  | some x => some x
  | none => if s.top.stopped.get (1 - d) then none else some (size - s.headroom d).toNat

theorem State.serveLoop_nil (n : Nat) {s : State} {d : Nat} (hq : (s.gov d).queue = []) : State.serveLoop n s d = s := by
  cases n with
  | zero => rfl
  | succ n => simp only [State.serveLoop, hq]

section Serve

variable {s : State} {d : Nat} {a : Ask} {rest : List Ask}

/-- A head at or below headroom(d) is granted, and the next request is looked at after it (R28). -/
theorem State.serveLoop_grants (n : Nat) (hs : s.Granting d) (hq : (s.gov d).queue = a :: rest) (hb : a.notBefore ≤ s.now)
    (hh : (s.permitSize a.permit.cls : Int) ≤ s.headroom d) :
    State.serveLoop (n + 1) s d = State.serveLoop n (s.grant d (a.looked false) rest) d := by
  obtain ⟨runs, granting⟩ := hs
  simp [State.serveLoop, Ask.looked, hq, runs, granting, hh, Nat.not_lt.2 hb, Int.not_lt.2 hh]

/-- A head above headroom(d) waits: it stays in its place, and no more than a loan is asked for (R29). -/
theorem State.serveLoop_waits (n : Nat) (hs : s.Granting d) (hq : (s.gov d).queue = a :: rest) (hb : a.notBefore ≤ s.now)
    (hh : s.headroom d < s.permitSize a.permit.cls) :
    State.serveLoop (n + 1) s d = s.setGov d { s.gov d with
      queue := a.looked true :: rest, loanAsk := s.loanWanted d (s.permitSize a.permit.cls) } := by
  obtain ⟨runs, granting⟩ := hs
  simp only [State.serveLoop, hq, runs, granting, hh, Nat.not_lt.2 hb, Int.not_le.2 hh, Bool.or_self, decide_false,
    decide_true, Bool.false_eq_true, if_false]
  rfl

end Serve

/-! ### Requests that reach their governor -/

/-- The request for a permit as it enters the queue, with no injection armed. -/
def State.newAsk (s : State) (p : Permit) : Ask :=
  { permit := p, arrived := s.now, loanCase := none, raised := false, notBefore := 0 }

/-- The state in which the first n requests on their way to die d stand in its queue and none is served. -/
def State.arrive (s : State) (d n : Nat) : State :=
  s.setGov d { s.gov d with
    asks := (s.gov d).asks.drop n
    queue := (s.gov d).queue ++ (((s.gov d).asks.take n).map s.newAsk).foldl (fun l a => insertAsk a l) [] }

/-- With no injection armed, PERMIT_REQUEST queues the requests by class and serves the queue (R31). -/
theorem State.doPermitRequest_eq {s : State} {d : Nat} (n : Nat) (h : s.armed 0x900A d 0 = false) :
    s.doPermitRequest d n = (s.arrive d n).serveDie d := by
  have asks (l : List Permit) : (l.zipIdx.map fun p => s.newAsk p.1) = l.map s.newAsk := by
    rw [show (fun p : Permit × Nat => s.newAsk p.1) = s.newAsk ∘ Prod.fst from rfl, ← List.map_map, List.zipIdx_map_fst]
  unfold State.doPermitRequest State.arrive
  simp only [h, Bool.false_and, Bool.false_eq_true, if_false, ← asks]
  rfl

section Arrive

variable {s : State} {d : Nat}

theorem State.queue_arrive_one {p : Permit} (ha : (s.gov d).asks = [p]) (hq : (s.gov d).queue = []) :
    ((s.arrive d 1).gov d).queue = [s.newAsk p] := by
  simp [State.arrive, ha, hq, insertAsk]

/-- Requests of one class keep their order. -/
theorem State.queue_arrive_two {p q : Permit} (ha : (s.gov d).asks = [p, q]) (hq : (s.gov d).queue = [])
    (hc : p.cls = q.cls) : ((s.arrive d 2).gov d).queue = [s.newAsk p, s.newAsk q] := by
  simp [State.arrive, ha, hq, insertAsk, State.newAsk, hc]

@[simp] theorem State.held_gov_arrive (n : Nat) : ((s.arrive d n).gov d).held = (s.gov d).held := by
  simp [State.arrive]

theorem State.asks_gov_arrive (n : Nat) : ((s.arrive d n).gov d).asks = (s.gov d).asks.drop n := by
  simp [State.arrive]

theorem State.gov_arrive_peer (n : Nat) (hd : d < 2) : (s.arrive d n).gov (1 - d) = s.gov (1 - d) :=
  s.gov_setGov_peer _ hd

@[simp] theorem State.permitSize_arrive (n : Nat) (c : PClass) : (s.arrive d n).permitSize c = s.permitSize c := rfl

@[simp] theorem State.held_arrive (n : Nat) : (s.arrive d n).held d = s.held d :=
  State.held_of_gov (s.held_gov_arrive n) fun _ => rfl

@[simp] theorem State.headroom_arrive (n : Nat) : (s.arrive d n).headroom d = s.headroom d :=
  State.headroom_setGov rfl rfl

theorem State.Granting.arrive (h : s.Granting d) (n : Nat) : (s.arrive d n).Granting d := h

/-- What PERMIT_REQUEST of one request leaves when it is granted, and when it waits. -/
theorem State.doPermitRequest_one {p : Permit} (h : s.Grants d) (ha : (s.gov d).asks = [p])
    (hq : (s.gov d).queue = []) :
    ((s.permitSize p.cls : Int) ≤ s.headroom d →
        s.doPermitRequest d 1 = (s.arrive d 1).grant d ((s.newAsk p).looked false) [])
      ∧ (s.headroom d < s.permitSize p.cls →
        s.doPermitRequest d 1 = (s.arrive d 1).setGov d { (s.arrive d 1).gov d with
          queue := [(s.newAsk p).looked true], loanAsk := (s.arrive d 1).loanWanted d (s.permitSize p.cls) }) := by
  have queue := State.queue_arrive_one ha hq
  have granting : (s.arrive d 1).Granting d := h.granting.arrive 1
  obtain ⟨-, -, -, unarmed⟩ := h
  rw [State.doPermitRequest_eq 1 unarmed, State.serveDie, queue]
  refine ⟨fun fits => ?_, fun short => ?_⟩
  · rw [State.serveLoop_grants _ granting queue (Nat.zero_le _) (by simpa [State.newAsk] using fits)]
    exact State.serveLoop_nil _ (by simp)
  · exact State.serveLoop_waits _ granting queue (Nat.zero_le _) (by simpa [State.newAsk] using short)

/-- What PERMIT_REQUEST of two requests of one class leaves when the first is granted: the second is judged by the
headroom that the first has left. -/
theorem State.doPermitRequest_two {p q : Permit} (h : s.Grants d) (ha : (s.gov d).asks = [p, q])
    (hq : (s.gov d).queue = []) (hc : p.cls = q.cls) (hfit : (s.permitSize p.cls : Int) ≤ s.headroom d) :
    ∃ u : State, (u.gov d).held = (s.gov d).held ++ [p]
      ∧ (2 * (s.permitSize p.cls : Int) ≤ s.headroom d →
        s.doPermitRequest d 2 = u.grant d ((s.newAsk q).looked false) [])
      ∧ (s.headroom d < 2 * (s.permitSize p.cls : Int) →
        s.doPermitRequest d 2 = u.setGov d { u.gov d with
          queue := [(s.newAsk q).looked true], loanAsk := u.loanWanted d (u.permitSize q.cls) }) := by
  have queue := State.queue_arrive_two ha hq hc
  have granting : (s.arrive d 2).Granting d := h.granting.arrive 2
  obtain ⟨hd, -, -, unarmed⟩ := h
  obtain ⟨u, hu⟩ : ∃ u, u = (s.arrive d 2).grant d ((s.newAsk p).looked false) [s.newAsk q] := ⟨_, rfl⟩
  have first : s.doPermitRequest d 2 = State.serveLoop 2 u d := by
    rw [hu, State.doPermitRequest_eq 2 unarmed, State.serveDie, queue]
    exact State.serveLoop_grants 2 granting queue (Nat.zero_le _) (by simpa [State.newAsk] using hfit)
  have left : u.headroom d = s.headroom d - s.permitSize p.cls := by
    rw [hu, State.headroom_grant hd, State.headroom_arrive]; rfl
  have size : u.permitSize q.cls = s.permitSize p.cls := by
    rw [hu, State.permitSize_grant hd, State.permitSize_arrive, hc]
  have granting' : u.Granting d := hu ▸ granting.grant d _ _
  have queue' : (u.gov d).queue = [s.newAsk q] := by rw [hu, State.queue_gov_grant]
  have held : (u.gov d).held = (s.gov d).held ++ [p] := by
    rw [hu, State.held_gov_grant, State.held_gov_arrive]; rfl
  rw [first]
  refine ⟨u, held, fun fits => ?_, fun short => ?_⟩
  · rw [State.serveLoop_grants 1 granting' queue' (Nat.zero_le _) (by simp only [State.newAsk]; omega)]
    exact State.serveLoop_nil _ (by simp)
  · exact State.serveLoop_waits 1 granting' queue' (Nat.zero_le _) (by simp only [State.newAsk]; omega)

end Arrive

/-- Settles O12: a head of the queue is granted exactly when its size is at or below headroom(d), and each grant takes
its size from the headroom that the next request sees. -/
theorem permitsAreGrantedFromHeadroom : Obligations.PermitsAreGrantedFromHeadroom := by
  refine ⟨fun s d p h ha hq => ?_, fun s d p q h ha hq hc => ?_⟩
  · have hd : d < 2 := h.1
    have asks : ((s.arrive d 1).gov d).asks = [] := by rw [State.asks_gov_arrive, ha]; rfl
    have peer : (s.arrive d 1).gov (1 - d) = s.gov (1 - d) := State.gov_arrive_peer 1 hd
    obtain ⟨granted, waits⟩ := State.doPermitRequest_one h ha hq
    refine ⟨_, rfl, ?_⟩
    rcases Int.lt_or_le (s.headroom d) (s.permitSize p.cls) with short | fits
    · rw [waits short]
      refine ⟨(State.gov_setGov_peer _ _ hd).trans peer, rfl, ?_, fun fits => absurd fits (Int.not_le.2 short),
        fun _ => ⟨?_, ?_⟩⟩ <;> rw [State.gov_setGov_same]
      · exact asks
      · exact State.held_gov_arrive 1
      · rfl
    · rw [granted fits]
      refine ⟨(State.gov_grant_peer _ _ _ _ hd).trans peer, State.grant_alloc .., (State.asks_gov_grant ..).trans asks,
        fun _ => ⟨?_, ?_, State.queue_gov_grant ..⟩, fun short => absurd fits (Int.not_le.2 short)⟩
      · rw [State.held_gov_grant, State.held_gov_arrive]; rfl
      · rw [State.held_grant hd, State.held_arrive]; rfl
  · refine ⟨_, rfl, fun both => ?_, fun first second => ?_⟩
    · obtain ⟨u, held, granted, -⟩ := State.doPermitRequest_two h ha hq hc (by omega)
      rw [granted both, State.held_gov_grant, held, List.append_assoc]
      rfl
    · obtain ⟨u, held, -, waits⟩ := State.doPermitRequest_two h ha hq hc first
      rw [waits second, State.gov_setGov_same]
      exact ⟨held, rfl⟩

/-! ### Gating and retention (R25, R26) -/

theorem State.core_modCore_other (s : State) {p q : Nat} (f : Core → Core) (h : q ≠ p) :
    (s.modCore p f).core q = s.core q :=
  SMap.get_set_other _ _ _ _ h

/-- A core that does not come back to its reset value reads as it was written, in whatever order the cores are listed. -/
theorem State.core_modCore_same (s : State) (p : Nat) {f : Core → Core} (h : f (s.core p) ≠ Core.init) :
    (s.modCore p f).core p = f (s.core p) := by
  have listed : (s.modCore p f).cores = SMap.insert s.cores p (f (s.core p)) := if_neg h
  rw [State.core, listed, SMap.get_insert_same]

theorem maskSet_ne_zero (m i : Nat) : maskSet m i ≠ 0 := by
  unfold maskSet
  intro h
  have bit := congrArg (Nat.testBit · i) h
  simp [Nat.testBit_or] at bit

/-- Bank b of core p in retention. -/
def State.retainBank (s : State) (p b : Nat) : State :=
  s.modCore p fun c => { c with retained := maskSet c.retained b }

theorem State.core_retainBank_same (s : State) (p b : Nat) :
    (s.retainBank p b).core p = { s.core p with retained := maskSet (s.core p).retained b } :=
  s.core_modCore_same p fun h => maskSet_ne_zero _ b (congrArg Core.retained h)

/-- Rows, tags and handles of every core stand. -/
theorem State.core_retainBank_contents (s : State) (p b q : Nat) :
    ((s.retainBank p b).core q).rows = (s.core q).rows ∧ ((s.retainBank p b).core q).tags = (s.core q).tags
      ∧ ((s.retainBank p b).core q).handles = (s.core q).handles := by
  by_cases h : q = p
  · subst h
    rw [State.core_retainBank_same]
    exact ⟨rfl, rfl, rfl⟩
  · have same : (s.retainBank p b).core q = s.core q := s.core_modCore_other _ h
    rw [same]
    exact ⟨rfl, rfl, rfl⟩

/-- Settles O16: each of the three marks a gate or a bank and writes no row, tag, handle or byte. -/
theorem retentionKeepsContents : Obligations.RetentionKeepsContents := by
  refine ⟨fun s p b on hb idle => ?_, fun s d sl hsl hd idle => ?_, fun s p e on he idle => ?_⟩
  · have entered : exec (.bankRetention p b) s = .next (s.retainBank p b) :=
      congrArg Host.Outcome.next (if_pos (by simp [on, hb, idle]))
    refine ⟨_, entered, ?_, s.core_retainBank_contents p b, rfl⟩
    rw [State.core_retainBank_same]
  · have entered : exec (.sliceRetention d sl) s
        = .next { s with pow := { s.pow with sliceRet := maskSet s.pow.sliceRet (4 * d + sl) } } :=
      congrArg Host.Outcome.next (if_pos (by simp [hsl, hd, idle]))
    exact ⟨_, entered, rfl, rfl, rfl⟩
  · exact congrArg Host.Outcome.next (if_pos (by simp [on, he, idle]))

end Sys2Proof.Machine
end

section
/-! Proofs of chapter 04: a pass that changes each key of a map once, the elements of a tile, and the slot a tile descriptor
leaves (R118). -/

namespace Sys2Proof.Machine

/-! ### One pass over a sparse map -/

section Pass

variable {α ι : Type} [DecidableEq α] {d : α} (key : ι → Nat) (f : ι → α → α)

theorem SMap.rising_mod {m : SMap α} (hm : SMap.rising 0 m = true) (k : Nat) (g : α → α) :
    SMap.rising 0 (SMap.mod d m k g) = true := by
  unfold SMap.mod SMap.set
  split
  · exact SMap.rising_erase hm k
  · exact SMap.rising_insert hm k _ (Nat.zero_le k)

/-- A key that no item of the list names reads as before. -/
theorem SMap.get_foldl_mod_other (l : List ι) (m : SMap α) {k : Nat} (hk : ∀ p ∈ l, k ≠ key p) :
    SMap.get d (l.foldl (fun t p => SMap.mod d t (key p) (f p)) m) k = SMap.get d m k := by
  induction l generalizing m with
  | nil => rfl
  | cons q l ih =>
    obtain ⟨hq, hl⟩ := List.forall_mem_cons.1 hk
    rw [List.foldl_cons, ih _ hl]
    exact SMap.get_set_other d d m _ hq

/-- With each key named once, the item that names it changes the value that stood there at the start. -/
theorem SMap.get_foldl_mod_same {l : List ι} (hl : l.Pairwise fun p q => key p ≠ key q) {m : SMap α}
    (hm : SMap.rising 0 m = true) {p : ι} (hp : p ∈ l) :
    SMap.get d (l.foldl (fun t p => SMap.mod d t (key p) (f p)) m) (key p) = f p (SMap.get d m (key p)) := by
  induction l generalizing m with
  | nil => cases hp
  | cons q l ih =>
    obtain ⟨apart, hl⟩ := List.pairwise_cons.1 hl
    rw [List.foldl_cons]
    rcases List.mem_cons.1 hp with rfl | hp
    · rw [SMap.get_foldl_mod_other key f l _ apart]
      exact SMap.get_set_same d hm (key p) _
    · rw [ih hl (SMap.rising_mod hm (key q) (f q)) hp]
      exact congrArg (f p) (SMap.get_set_other d d m _ (apart p hp).symm)

end Pass

/-! ### The elements of a tile (R118) -/

/-- The elements of the m × n rectangle, row by row. -/
def tileRect (m n : Nat) : List (Nat × Nat) := (List.range m).flatMap fun i => (List.range n).map fun j => (i, j)

/-- The place of an element of a slot. -/
def tilePlace (p : Nat × Nat) : Nat := p.1 * 128 + p.2

theorem mem_tileRect {m n i j : Nat} : (i, j) ∈ tileRect m n ↔ i < m ∧ j < n := by
  simp only [tileRect, List.mem_flatMap, List.mem_map, List.mem_range, Prod.mk.injEq]
  constructor
  · rintro ⟨i, hi, j, hj, rfl, rfl⟩
    exact ⟨hi, hj⟩
  · rintro ⟨hi, hj⟩
    exact ⟨i, hi, j, hj, rfl, rfl⟩

/-- With at most 128 columns the rectangle lists its elements in the order of their places: along a row by the column, and
from one row to the next by the row. -/
theorem tileRect_places_rise {m n : Nat} (hn : n ≤ 128) : (tileRect m n).Pairwise fun p q => tilePlace p < tilePlace q := by
  refine List.pairwise_flatMap.2 ⟨fun i _ => ?_, List.pairwise_lt_range.imp fun {i k} hik => ?_⟩
  · exact List.pairwise_map.2 (List.pairwise_lt_range.imp fun hj => Nat.add_lt_add_left hj (i * 128))
  · simp only [List.forall_mem_map, List.mem_range, tilePlace]
    omega

/-- A place outside the rectangle is that of none of its elements. -/
theorem tilePlace_ne_of_outside {m n k : Nat} (hn : n ≤ 128) (hk : m ≤ k / 128 ∨ n ≤ k % 128) :
    ∀ p ∈ tileRect m n, k ≠ tilePlace p := by
  rintro ⟨i, j⟩ hp rfl
  obtain ⟨hi, hj⟩ := mem_tileRect.1 hp
  unfold tilePlace at hk
  omega

/-- The elements a tile starts from. -/
def Slot.tileBase (old : Slot) (acc : Bool) : SMap W32 := if acc then old.cells else []

/-- What the tile makes of the value w of element p. -/
def Core.tileElem (c : Core) (part : Nat) (a b : Operand) (len kc : Nat) (acc : Bool) (p : Nat × Nat) (w : W32) : W32 :=
  if acc then (fadd w (c.mxeDot part a b len kc p.1 p.2).1).1 else (c.mxeDot part a b len kc p.1 p.2).1

section Tile

variable (c : Core) (part : Nat) (a b : Operand) (len kc : Nat) {m n : Nat} (acc : Bool) (old : Slot)

/-- The elements of a tile are those of one pass over its rectangle. -/
theorem Core.mxeTile_cells : (c.mxeTile part a b len kc m n acc old).1
    = (tileRect m n).foldl (fun t p => SMap.mod 0 t (tilePlace p) (c.tileElem part a b len kc acc p)) (old.tileBase acc) := by
  cases acc
  · exact (List.foldl_hom Prod.fst (fun _ _ => rfl)).symm
  · exact (List.foldl_hom Prod.fst (fun _ _ => rfl)).symm

theorem Core.get_mxeTile_inside (hn : n ≤ 128) (hbase : SMap.rising 0 (old.tileBase acc) = true) {i j : Nat} (hi : i < m)
    (hj : j < n) : SMap.get 0 (c.mxeTile part a b len kc m n acc old).1 (i * 128 + j)
      = c.tileElem part a b len kc acc (i, j) (SMap.get 0 (old.tileBase acc) (i * 128 + j)) := by
  rw [Core.mxeTile_cells]
  exact SMap.get_foldl_mod_same tilePlace _ ((tileRect_places_rise hn).imp Nat.ne_of_lt) hbase (p := (i, j)) (mem_tileRect.2 ⟨hi, hj⟩)

theorem Core.get_mxeTile_outside (hn : n ≤ 128) {k : Nat} (hk : m ≤ k / 128 ∨ n ≤ k % 128) :
    SMap.get 0 (c.mxeTile part a b len kc m n acc old).1 k = SMap.get 0 (old.tileBase acc) k := by
  rw [Core.mxeTile_cells]
  exact SMap.get_foldl_mod_other tilePlace _ _ _ (tilePlace_ne_of_outside hn hk)

end Tile

/-! ### The slot of a tile descriptor (R118, R121) -/

/-- A tile has at most 128 columns (Table 5 of 04). -/
theorem txN_le (d : Nat) : txN d ≤ 128 := by
  unfold txN wfld
  omega

/-- On a slot in the state its acc bit asks for, a tile descriptor leaves its tile in that slot and changes no other slot and
nothing else of the core. The slot is then FILLING or READY, so it is listed whatever the order of the rill's list. -/
theorem Core.runTile_next (c : Core) (x : Ctx) (d : Nat) {a b : Operand} (hab : (a, b) = tileOperands x d) {acc : Bool}
    {old : Slot} (hacc : txAcc d = acc) (hold : SMap.get Slot.init c.rill (txSlot d) = old)
    (hst : old.st = if acc then .filling else .free) :
    ∃ e, c.runTile x d = some e
      ∧ (SMap.get Slot.init e.rill (txSlot d)).cells
        = (c.mxeTile x.part a b (txK d) (mxeShape (txFmtA d) (txFmtB d)).2 (txM d) (txN d) acc old).1
      ∧ (∀ k, k ≠ txSlot d → SMap.get Slot.init e.rill k = SMap.get Slot.init c.rill k) ∧ { e with rill := c.rill } = c := by
  unfold Core.runTile
  simp only [← hab, hacc, hold, hst, ne_eq, not_true_eq_false, if_false]
  refine ⟨_, rfl, ?_, fun k hk => SMap.get_set_other _ _ _ _ hk, rfl⟩
  have listed : (if txClose d = true then SlotState.ready else .filling) ≠ Slot.init.st := by split <;> decide
  rw [SMap.set, if_neg fun h => listed (congrArg Slot.st h), SMap.get_insert_same]

/-- Settles O18: both cases are the one pass of the tile, from no elements (acc = 0) or from those of the slot (acc = 1). -/
theorem tilesWriteTheirRectangle : Obligations.TilesWriteTheirRectangle := by
  intro c x d a b hab old dot
  refine ⟨fun hacc hfree => ?_, fun hacc hfilling hrising => ?_⟩
  · obtain ⟨e, hrun, hcells, hrest⟩ := c.runTile_next x d hab hacc rfl hfree
    refine ⟨e, hrun, fun m n hm hn => ?_, fun k hk => ?_, hrest⟩ <;> rw [hcells]
    · exact c.get_mxeTile_inside x.part a b _ _ false old (txN_le d) rfl hm hn
    · exact c.get_mxeTile_outside x.part a b _ _ false old (txN_le d) hk
  · obtain ⟨e, hrun, hcells, hrest⟩ := c.runTile_next x d hab hacc rfl hfilling
    refine ⟨e, hrun, fun m n hm hn => ?_, fun k hk => ?_, hrest⟩ <;> rw [hcells]
    · exact c.get_mxeTile_inside x.part a b _ _ true old (txN_le d) hrising hm hn
    · exact c.get_mxeTile_outside x.part a b _ _ true old (txN_le d) hk

end Sys2Proof.Machine
end

section
/-! Proofs about every command at once: what exec and step keep, from the lemma of each command under Laws/Keeps. -/

set_option Elab.async false

namespace Sys2Proof.Machine

/-! ### Sets of fields as masks -/

/-- The mask of a list of fields. Bit 0 numbers no field; the masks of Laws/Keeps that hold every field hold it too. -/
def Field.mask (fs : List Field) : Nat := fs.foldl (fun m f => m ||| 2 ^ f.idx) 1

theorem Field.idx_injective {f g : Field} (h : f.idx = g.idx) : f = g := by
  cases f <;> cases g <;> first | rfl | exact absurd h (by decide)

theorem Field.mem_of_testBit_mask {fs : List Field} {f : Field} (h : (Field.mask fs).testBit f.idx = true) : f ∈ fs := by
  suffices general : ∀ m, (fs.foldl (fun m (f : Field) => m ||| 2 ^ f.idx) m).testBit f.idx = true → m.testBit f.idx = true ∨ f ∈ fs by
    exact (general 1 h).resolve_left (by cases f <;> decide)
  clear h
  intro m h
  induction fs generalizing m with
  | nil => exact .inl h
  | cons g fs ih =>
    rcases ih _ h with hm | hf
    · rw [Nat.testBit_or, Bool.or_eq_true, Nat.testBit_two_pow, decide_eq_true_eq] at hm
      rcases hm with hm | hg
      · exact .inl hm
      · exact .inr (Field.idx_injective hg ▸ List.mem_cons_self)
    · exact .inr (List.mem_cons_of_mem _ hf)

/-- A state that agrees with s outside the mask of a list of fields differs from it in those fields alone. -/
theorem Frame.onlyWrites {fs : List Field} {s t : State} (h : Frame (Field.mask fs) s t) : s.OnlyWrites t fs :=
  fun f hf => h f (Bool.eq_false_iff.2 fun bit => hf (Field.mem_of_testBit_mask bit))

theorem StepSafe.mono {a b : Nat} {s t : State} (h : StepSafe a s t) (hs : Sub a b) : StepSafe b s t :=
  ⟨h.pending, h.safe, h.dev, h.frame.mono hs⟩

theorem KeepsX.stepSafe {m : Nat} {s t : State} {o : Host.Outcome State Fault Refusal} (h : KeepsX m s o) (e : o = .next t) :
    StepSafe m s t := (h.next t e).stepSafe

/-! ### Every command -/

/-- What every command owes to the state it finds, within any mask that holds the fields of its own list. -/
theorem exec_stepSafe {c : Instr} {s t : State} {fm : Nat} (fields : Sub (Field.mask c.writes) fm) (e : exec c s = .next t) :
    StepSafe fm s t := by
  cases c with (conv at fields => enter [1, 1]; whnf)
  | sysResetAssert => exact (execSysResetAssert_safe e).mono (Sub.of fields (by decide))
  | sysResetRelease => exact (execSysResetRelease_safe e).mono (Sub.of fields (by decide))
  | pwrGoodFall => exact (execPwrGoodFall_safe e).mono (Sub.of fields (by decide))
  | pllLossOfLock => exact (execPllLossOfLock_safe e).mono (Sub.of fields (by decide))
  | thermalStop _ _ sensor => exact (execThermalStop_safe (sensor := sensor) e).mono (Sub.of fields (by decide))
  | resetComplete => exact (execResetComplete_safe e).mono (Sub.of fields (by decide))
  | selftestCompleteAll => exact (execSelftestCompleteAll_safe e).mono (Sub.of fields (by decide))
  | rangeTrained => exact (Keeps.execRangeTrained (Keeps.refl s)).stepSafe e
  | trainingZeroFill => exact (Keeps.execTrainingZeroFill (Keeps.refl s)).stepSafe e
  | opticsCalibrated => exact (Keeps.execOpticsCalibrated (Keeps.refl s)).stepSafe e
  | readyEntry => exact (execReadyEntry_safe e).mono (Sub.of fields (by decide))
  | holdPointWrite => exact (Keeps.execHoldPointWrite (Keeps.refl s)).stepSafe e
  | serve => exact (Keeps.execServe (Keeps.refl s)).stepSafe e
  | quiesce => exact (Keeps.execQuiesce (Keeps.refl s)).stepSafe e
  | permitRequest => exact (Keeps.execPermitRequest (Keeps.refl s)).stepSafe e
  | loanRequest => exact (Keeps.execLoanRequest (Keeps.refl s)).stepSafe e
  | loanReply => exact (Keeps.execLoanReply (Keeps.refl s)).stepSafe e
  | loanRetry => exact (Keeps.execLoanRetry (Keeps.refl s)).stepSafe e
  | permitReturn => exact (Keeps.execPermitReturn (Keeps.refl s)).stepSafe e
  | permitTimeout => exact (Keeps.execPermitTimeout (Keeps.refl s)).stepSafe e
  | governorWindowEnd => exact (Keeps.execGovernorWindowEnd (Keeps.refl s)).stepSafe e
  | packageBudgetWrite => exact (Keeps.execPackageBudgetWrite (Keeps.refl s)).stepSafe e
  | powerSample => exact (Keeps.execPowerSample (Keeps.refl s)).stepSafe e
  | overBudget => exact (Keeps.execOverBudget (Keeps.refl s)).stepSafe e
  | overBudgetClear => exact (Keeps.execOverBudgetClear (Keeps.refl s)).stepSafe e
  | engineGate => exact (Keeps.execEngineGate (Keeps.refl s)).stepSafe e
  | bankRetention => exact (Keeps.execBankRetention (Keeps.refl s)).stepSafe e
  | sliceRetention => exact (Keeps.execSliceRetention (Keeps.refl s)).stepSafe e
  | segmentLookahead => exact (Keeps.execSegmentLookahead (Keeps.refl s)).stepSafe e
  | segmentStart => exact (Keeps.execSegmentStart (Keeps.refl s)).stepSafe e
  | segmentEnd => exact (Keeps.execSegmentEnd (Keeps.refl s)).stepSafe e
  | syncPoint => exact (Keeps.execSyncPoint (Keeps.refl s)).stepSafe e
  | spanRetry => exact (Keeps.execSpanRetry (Keeps.refl s)).stepSafe e
  | mxeTile => exact (Keeps.execMxeTile (Keeps.refl s)).stepSafe e
  | gtuLstm => exact (Keeps.execGtuLstm (Keeps.refl s)).stepSafe e
  | gtuGru => exact (Keeps.execGtuGru (Keeps.refl s)).stepSafe e
  | gtuMguPhaseA => exact (Keeps.execGtuMguPhaseA (Keeps.refl s)).stepSafe e
  | gtuMguPhaseB => exact (Keeps.execGtuMguPhaseB (Keeps.refl s)).stepSafe e
  | gtuSru => exact (Keeps.execGtuSru (Keeps.refl s)).stepSafe e
  | gtuGateProgram => exact (Keeps.execGtuGateProgram (Keeps.refl s)).stepSafe e
  | gtuIntake => exact (Keeps.execGtuIntake (Keeps.refl s)).stepSafe e
  | vxePass => exact (Keeps.execVxePass (Keeps.refl s)).stepSafe e
  | gxeLookup => exact (Keeps.execGxeLookup (Keeps.refl s)).stepSafe e
  | gxeScatter => exact (Keeps.execGxeScatter (Keeps.refl s)).stepSafe e
  | gxeRowReadReturn => exact (Keeps.execGxeRowReadReturn (Keeps.refl s)).stepSafe e
  | scatterAck => exact (Keeps.execScatterAck (Keeps.refl s)).stepSafe e
  | scatterSendResume => exact (Keeps.execScatterSendResume (Keeps.refl s)).stepSafe e
  | dmvCopy => exact (Keeps.execDmvCopy (Keeps.refl s)).stepSafe e
  | dmvZeroFill => exact (Keeps.execDmvZeroFill (Keeps.refl s)).stepSafe e
  | mxImport => exact (Keeps.execMxImport (Keeps.refl s)).stepSafe e
  | dmvChainStart => exact (Keeps.execDmvChainStart (Keeps.refl s)).stepSafe e
  | dmvDescriptorComplete => exact (Keeps.execDmvDescriptorComplete (Keeps.refl s)).stepSafe e
  | scrubWriteBack => exact (Keeps.execScrubWriteBack (Keeps.refl s)).stepSafe e
  | patrolScrub => exact (Keeps.execPatrolScrub (Keeps.refl s)).stepSafe e
  | bindingComplete => exact (Keeps.execBindingComplete (Keeps.refl s)).stepSafe e
  | zeroFillComplete => exact (Keeps.execZeroFillComplete (Keeps.refl s)).stepSafe e
  | streamCreate => exact (Keeps.execStreamCreate (Keeps.refl s)).stepSafe e
  | streamReset => exact (Keeps.execStreamReset (Keeps.refl s)).stepSafe e
  | move => exact (Keeps.execMove (Keeps.refl s)).stepSafe e
  | moveCopyComplete => exact (Keeps.execMoveCopyComplete (Keeps.refl s)).stepSafe e
  | stSet => exact (Keeps.execStSet (Keeps.refl s)).stepSafe e
  | resume => exact (Keeps.execResume (Keeps.refl s)).stepSafe e
  | delete => exact (Keeps.execDelete (Keeps.refl s)).stepSafe e
  | streamCommandResume => exact (Keeps.execStreamCommandResume (Keeps.refl s)).stepSafe e
  | chunkDescriptor => exact (Keeps.execChunkDescriptor (Keeps.refl s)).stepSafe e
  | featureFrame => exact (Keeps.execFeatureFrame (Keeps.refl s)).stepSafe e
  | batchWindowExpiry => exact (Keeps.execBatchWindowExpiry (Keeps.refl s)).stepSafe e
  | batchForm => exact (Keeps.execBatchForm (Keeps.refl s)).stepSafe e
  | exchangeRowAccess => exact (Keeps.execExchangeRowAccess (Keeps.refl s)).stepSafe e
  | batchCommit => exact (Keeps.execBatchCommit (Keeps.refl s)).stepSafe e
  | deadlineMiss => exact (Keeps.execDeadlineMiss (Keeps.refl s)).stepSafe e
  | stackEnableWrite => exact (Keeps.execStackEnableWrite (Keeps.refl s)).stepSafe e
  | outHeadWrite => exact (Keeps.execOutHeadWrite (Keeps.refl s)).stepSafe e
  | outRingConfigWrite => exact (Keeps.execOutRingConfigWrite (Keeps.refl s)).stepSafe e
  | sampleTick => exact (Keeps.execSampleTick (Keeps.refl s)).stepSafe e
  | frameTick => exact (Keeps.execFrameTick (Keeps.refl s)).stepSafe e
  | domainStopRequest => exact (Keeps.execDomainStopRequest (Keeps.refl s)).stepSafe e
  | domainArmPps => exact (Keeps.execDomainArmPps (Keeps.refl s)).stepSafe e
  | domainArmAt => exact (Keeps.execDomainArmAt (Keeps.refl s)).stepSafe e
  | domainStartAt => exact (Keeps.execDomainStartAt (Keeps.refl s)).stepSafe e
  | ppsEdge => exact (Keeps.execPpsEdge (Keeps.refl s)).stepSafe e
  | ppsLoss => exact (Keeps.execPpsLoss (Keeps.refl s)).stepSafe e
  | sharedTickWrite => exact (Keeps.execSharedTickWrite (Keeps.refl s)).stepSafe e
  | ingressTailWrite => exact (Keeps.execIngressTailWrite (Keeps.refl s)).stepSafe e
  | ingressEntry => exact (Keeps.execIngressEntry (Keeps.refl s)).stepSafe e
  | streamFrameTick => exact (Keeps.execStreamFrameTick (Keeps.refl s)).stepSafe e
  | stopTimeout => exact (Keeps.execStopTimeout (Keeps.refl s)).stepSafe e
  | intakeStateWriteback => exact (Keeps.execIntakeStateWriteback (Keeps.refl s)).stepSafe e
  | egressHeadWrite => exact (Keeps.execEgressHeadWrite (Keeps.refl s)).stepSafe e
  | tableDescriptorWrite => exact (Keeps.execTableDescriptorWrite (Keeps.refl s)).stepSafe e
  | sketchDecay => exact (Keeps.execSketchDecay (Keeps.refl s)).stepSafe e
  | hotListRead => exact (Keeps.execHotListRead (Keeps.refl s)).stepSafe e
  | mapoutAdd => exact (Keeps.execMapoutAdd (Keeps.refl s)).stepSafe e
  | mapoutRemove => exact (Keeps.execMapoutRemove (Keeps.refl s)).stepSafe e
  | promote => exact (Keeps.execPromote (Keeps.refl s)).stepSafe e
  | demote => exact (Keeps.execDemote (Keeps.refl s)).stepSafe e
  | migrate => exact (Keeps.execMigrate (Keeps.refl s)).stepSafe e
  | unmigrate => exact (Keeps.execUnmigrate (Keeps.refl s)).stepSafe e
  | applyWindow => exact (Keeps.execApplyWindow (Keeps.refl s)).stepSafe e
  | jobFinalCommit => exact (Keeps.execJobFinalCommit (Keeps.refl s)).stepSafe e
  | prepare => exact (Keeps.execPrepare (Keeps.refl s)).stepSafe e
  | prepareAnswer => exact (Keeps.execPrepareAnswer (Keeps.refl s)).stepSafe e
  | markRequest => exact (Keeps.execMarkRequest (Keeps.refl s)).stepSafe e
  | publishedMarkUpdate => exact (Keeps.execPublishedMarkUpdate (Keeps.refl s)).stepSafe e
  | oldestPinExchange => exact (Keeps.execOldestPinExchange (Keeps.refl s)).stepSafe e
  | pin => exact (Keeps.execPin (Keeps.refl s)).stepSafe e
  | unpin => exact (Keeps.execUnpin (Keeps.refl s)).stepSafe e
  | mark => exact (Keeps.execMark (Keeps.refl s)).stepSafe e
  | drain => exact (Keeps.execDrain (Keeps.refl s)).stepSafe e
  | stagingResume => exact (Keeps.execStagingResume (Keeps.refl s)).stepSafe e
  | parcel => exact (Keeps.execParcel (Keeps.refl s)).stepSafe e
  | parcelAck => exact (Keeps.execParcelAck (Keeps.refl s)).stepSafe e
  | verdict => exact (Keeps.execVerdict (Keeps.refl s)).stepSafe e
  | closedStep => exact (Keeps.execClosedStep (Keeps.refl s)).stepSafe e
  | withdraw => exact (Keeps.execWithdraw (Keeps.refl s)).stepSafe e
  | turnApply => exact (Keeps.execTurnApply (Keeps.refl s)).stepSafe e
  | stepTimeout => exact (Keeps.execStepTimeout (Keeps.refl s)).stepSafe e
  | stepCloseWrite => exact (Keeps.execStepCloseWrite (Keeps.refl s)).stepSafe e
  | refresh => exact (Keeps.execRefresh (Keeps.refl s)).stepSafe e
  | replicaInstall => exact (Keeps.execReplicaInstall (Keeps.refl s)).stepSafe e
  | replicaRemove => exact (Keeps.execReplicaRemove (Keeps.refl s)).stepSafe e
  | audit => exact (Keeps.execAudit (Keeps.refl s)).stepSafe e
  | sluiceBegin => exact (Keeps.execSluiceBegin (Keeps.refl s)).stepSafe e
  | sluiceCommit => exact (Keeps.execSluiceCommit (Keeps.refl s)).stepSafe e
  | sluiceAbort => exact (Keeps.execSluiceAbort (Keeps.refl s)).stepSafe e
  | dictSluiceTimeout => exact (Keeps.execDictSluiceTimeout (Keeps.refl s)).stepSafe e
  | channelPowerDown => exact (Keeps.execChannelPowerDown (Keeps.refl s)).stepSafe e
  | memoryRequest => exact (Keeps.execMemoryRequest (Keeps.refl s)).stepSafe e
  | wcbAgeExpiry => exact (Keeps.execWcbAgeExpiry (Keeps.refl s)).stepSafe e
  | memoryPatrol => exact (Keeps.execMemoryPatrol (Keeps.refl s)).stepSafe e
  | rowRepair => exact (Keeps.execRowRepair (Keeps.refl s)).stepSafe e
  | rowRepairComplete => exact (Keeps.execRowRepairComplete (Keeps.refl s)).stepSafe e
  | pageRemap => exact (Keeps.execPageRemap (Keeps.refl s)).stepSafe e
  | querySpares => exact (Keeps.execQuerySpares (Keeps.refl s)).stepSafe e
  | clearSuspect => exact (Keeps.execClearSuspect (Keeps.refl s)).stepSafe e
  | plan => exact (Keeps.execPlan (Keeps.refl s)).stepSafe e
  | start => exact (Keeps.execStart (Keeps.refl s)).stepSafe e
  | cancel => exact (Keeps.execCancel (Keeps.refl s)).stepSafe e
  | reflowStep => exact (Keeps.execReflowStep (Keeps.refl s)).stepSafe e
  | reflowDone => exact (Keeps.execReflowDone (Keeps.refl s)).stepSafe e
  | portDrWrite => exact (Keeps.execPortDrWrite (Keeps.refl s)).stepSafe e
  | hostReadTimeout => exact (Keeps.execHostReadTimeout (Keeps.refl s)).stepSafe e
  | laneFail => exact (Keeps.execLaneFail (Keeps.refl s)).stepSafe e
  | dataFlit => exact (Keeps.execDataFlit (Keeps.refl s)).stepSafe e
  | controlFlit => exact (Keeps.execControlFlit (Keeps.refl s)).stepSafe e
  | replayTimeout => exact (Keeps.execReplayTimeout (Keeps.refl s)).stepSafe e
  | ackTimer => exact (Keeps.execAckTimer (Keeps.refl s)).stepSafe e
  | ackProgressTimeout => exact (Keeps.execAckProgressTimeout (Keeps.refl s)).stepSafe e
  | linkRetrain => exact (Keeps.execLinkRetrain (Keeps.refl s)).stepSafe e
  | linkUp => exact (Keeps.execLinkUp (Keeps.refl s)).stepSafe e
  | linkEnableWrite => exact (Keeps.execLinkEnableWrite (Keeps.refl s)).stepSafe e
  | routeTableWrite => exact (Keeps.execRouteTableWrite (Keeps.refl s)).stepSafe e
  | fabricTimeout => exact (Keeps.execFabricTimeout (Keeps.refl s)).stepSafe e
  | linkReport => exact (Keeps.execLinkReport (Keeps.refl s)).stepSafe e
  | rowRead => exact (Keeps.execRowRead (Keeps.refl s)).stepSafe e
  | rowData => exact (Keeps.execRowData (Keeps.refl s)).stepSafe e
  | read => exact (Keeps.execRead (Keeps.refl s)).stepSafe e
  | write => exact (Keeps.execWrite (Keeps.refl s)).stepSafe e
  | readData => exact (Keeps.execReadData (Keeps.refl s)).stepSafe e
  | ack => exact (Keeps.execAck (Keeps.refl s)).stepSafe e
  | dictRead => exact (Keeps.execDictRead (Keeps.refl s)).stepSafe e
  | dictData => exact (Keeps.execDictData (Keeps.refl s)).stepSafe e
  | partitionCreate => exact (Keeps.execPartitionCreate (Keeps.refl s)).stepSafe e
  | teardown => exact (Keeps.execTeardown (Keeps.refl s)).stepSafe e
  | contextCreate => exact (Keeps.execContextCreate (Keeps.refl s)).stepSafe e
  | kill => exact (Keeps.execKill (Keeps.refl s)).stepSafe e
  | swap => exact (Keeps.execSwap (Keeps.refl s)).stepSafe e
  | switch => exact (Keeps.execSwitch (Keeps.refl s)).stepSafe e
  | ctxExport => exact (Keeps.execCtxExport (Keeps.refl s)).stepSafe e
  | ctxImport => exact (Keeps.execCtxImport (Keeps.refl s)).stepSafe e
  | spillComplete => exact (Keeps.execSpillComplete (Keeps.refl s)).stepSafe e
  | restoreComplete => exact (Keeps.execRestoreComplete (Keeps.refl s)).stepSafe e
  | allBlocked => exact (Keeps.execAllBlocked (Keeps.refl s)).stepSafe e
  | energyEstimate => exact (Keeps.execEnergyEstimate (Keeps.refl s)).stepSafe e
  | energyCalibration => exact (Keeps.execEnergyCalibration (Keeps.refl s)).stepSafe e
  | snapshot => exact (Keeps.execSnapshot (Keeps.refl s)).stepSafe e
  | sqTailWrite => exact (Keeps.execSqTailWrite (Keeps.refl s)).stepSafe e
  | cqHeadWrite => exact (Keeps.execCqHeadWrite (Keeps.refl s)).stepSafe e
  | descriptorFetch => exact (Keeps.execDescriptorFetch (Keeps.refl s)).stepSafe e
  | job => exact (Keeps.execJob (Keeps.refl s)).stepSafe e
  | argumentLoad => exact (Keeps.execArgumentLoad (Keeps.refl s)).stepSafe e
  | resultStore => exact (Keeps.execResultStore (Keeps.refl s)).stepSafe e
  | jobAbort => exact (Keeps.execJobAbort (Keeps.refl s)).stepSafe e
  | nop => exact (Keeps.execNop (Keeps.refl s)).stepSafe e
  | completionRecordAccept => exact (Keeps.execCompletionRecordAccept (Keeps.refl s)).stepSafe e
  | cqWrite => exact (Keeps.execCqWrite (Keeps.refl s)).stepSafe e
  | coalesceTimeout => exact (Keeps.execCoalesceTimeout (Keeps.refl s)).stepSafe e
  | queueEnable => exact (Keeps.execQueueEnable (Keeps.refl s)).stepSafe e
  | hostLinkDown => exact (Keeps.execHostLinkDown (Keeps.refl s)).stepSafe e
  | hostLinkUp => exact (Keeps.execHostLinkUp (Keeps.refl s)).stepSafe e
  | hostErrorCompletion => exact (Keeps.execHostErrorCompletion (Keeps.refl s)).stepSafe e
  | functionLevelReset => exact (Keeps.execFunctionLevelReset (Keeps.refl s)).stepSafe e
  | dictCtrlRead => exact (Keeps.execDictCtrlRead (Keeps.refl s)).stepSafe e
  | dictCtrlWrite => exact (Keeps.execDictCtrlWrite (Keeps.refl s)).stepSafe e
  | dictionaryWrite => exact (Keeps.execDictionaryWrite (Keeps.refl s)).stepSafe e
  | rcRead => exact (Keeps.execRcRead (Keeps.refl s)).stepSafe e
  | eventEntriesWrite => exact (Keeps.execEventEntriesWrite (Keeps.refl s)).stepSafe e
  | entdaa => exact (Keeps.execEntdaa (Keeps.refl s)).stepSafe e
  | setEndpointId => exact (Keeps.execSetEndpointId (Keeps.refl s)).stepSafe e
  | getEndpointId => exact (Keeps.execGetEndpointId (Keeps.refl s)).stepSafe e
  | getMctpVersionSupport => exact (Keeps.execGetMctpVersionSupport (Keeps.refl s)).stepSafe e
  | getMessageTypeSupport => exact (Keeps.execGetMessageTypeSupport (Keeps.refl s)).stepSafe e
  | getVendorDefinedMessageSupport => exact (Keeps.execGetVendorDefinedMessageSupport (Keeps.refl s)).stepSafe e
  | mctpRead => exact (Keeps.execMctpRead (Keeps.refl s)).stepSafe e
  | mctpWrite => exact (Keeps.execMctpWrite (Keeps.refl s)).stepSafe e
  | requestUpdate => exact (Keeps.execRequestUpdate (Keeps.refl s)).stepSafe e
  | passComponentTable => exact (Keeps.execPassComponentTable (Keeps.refl s)).stepSafe e
  | updateComponent => exact (Keeps.execUpdateComponent (Keeps.refl s)).stepSafe e
  | transferComplete => exact (Keeps.execTransferComplete (Keeps.refl s)).stepSafe e
  | verifyComplete => exact (Keeps.execVerifyComplete (Keeps.refl s)).stepSafe e
  | applyComplete => exact (Keeps.execApplyComplete (Keeps.refl s)).stepSafe e
  | activateFirmware => exact (Keeps.execActivateFirmware (Keeps.refl s)).stepSafe e
  | rotate => exact (Keeps.execRotate (Keeps.refl s)).stepSafe e
  | handoverComplete => exact (Keeps.execHandoverComplete (Keeps.refl s)).stepSafe e
  | replace => exact (Keeps.execReplace (Keeps.refl s)).stepSafe e
  | serviceSelftest => exact (Keeps.execServiceSelftest (Keeps.refl s)).stepSafe e
  | retire => exact (Keeps.execRetire (Keeps.refl s)).stepSafe e
  | clearFuse => exact (Keeps.execClearFuse (Keeps.refl s)).stepSafe e
  | dmcSwitch => exact (Keeps.execDmcSwitch (Keeps.refl s)).stepSafe e
  | activateFw => exact (Keeps.execActivateFw (Keeps.refl s)).stepSafe e
  | coreSelftestComplete => exact (Keeps.execCoreSelftestComplete (Keeps.refl s)).stepSafe e
  | heartbeat => exact (Keeps.execHeartbeat (Keeps.refl s)).stepSafe e
  | heartbeatTimeout => exact (Keeps.execHeartbeatTimeout (Keeps.refl s)).stepSafe e
  | componentSwitch => exact (Keeps.execComponentSwitch (Keeps.refl s)).stepSafe e
  | componentReadyTimeout => exact (Keeps.execComponentReadyTimeout (Keeps.refl s)).stepSafe e
  | injectArm => exact (Keeps.execInjectArm (Keeps.refl s)).stepSafe e
  | tapReset => exact (Keeps.execTapReset (Keeps.refl s)).stepSafe e
  | bypass => exact (Keeps.execBypass (Keeps.refl s)).stepSafe e
  | idcode => exact (Keeps.execIdcode (Keeps.refl s)).stepSafe e
  | samplePreload => exact (Keeps.execSamplePreload (Keeps.refl s)).stepSafe e
  | extest => exact (Keeps.execExtest (Keeps.refl s)).stepSafe e
  | clamp => exact (Keeps.execClamp (Keeps.refl s)).stepSafe e
  | highz => exact (Keeps.execHighz (Keeps.refl s)).stepSafe e
  | spareSwitch => exact (Keeps.execSpareSwitch (Keeps.refl s)).stepSafe e
  | injectedLaneReturn => exact (Keeps.execInjectedLaneReturn (Keeps.refl s)).stepSafe e
  | linkUpTimeout => exact (Keeps.execLinkUpTimeout (Keeps.refl s)).stepSafe e
  | standbyLost => exact (Keeps.execStandbyLost (Keeps.refl s)).stepSafe e
  | applyWindowComplete => exact (Keeps.execApplyWindowComplete (Keeps.refl s)).stepSafe e
  | drainBatchComplete => exact (Keeps.execDrainBatchComplete (Keeps.refl s)).stepSafe e
  | lastSliceStaged => exact (Keeps.execLastSliceStaged (Keeps.refl s)).stepSafe e
  | pageRemapComplete => exact (Keeps.execPageRemapComplete (Keeps.refl s)).stepSafe e
  | zeroLengthReadComplete => exact (Keeps.execZeroLengthReadComplete (Keeps.refl s)).stepSafe e
  | configurationWrite => exact (Keeps.execConfigurationWrite (Keeps.refl s)).stepSafe e
  | pldmBaseRequest => exact (Keeps.execPldmBaseRequest (Keeps.refl s)).stepSafe e
  | pldmPlatformRequest => exact (Keeps.execPldmPlatformRequest (Keeps.refl s)).stepSafe e

/-- Settles O3: the lemma of each command keeps the queue. -/
theorem execLeavesTheQueue : Obligations.ExecLeavesTheQueue :=
  fun _ _ _ e => (exec_stepSafe (Sub.refl _) e).pending

/-- Settles O4: the lemma of each command frames the fields outside the command's list. -/
theorem everyCommandKeepsToItsFields : Obligations.EveryCommandKeepsToItsFields :=
  fun _ _ _ e => (exec_stepSafe (Sub.refl _) e).frame.onlyWrites

/-! ### No command is refused -/

/-- An outcome is a next state. -/
def Answers (o : Host.Outcome State Fault Refusal) : Prop := ∃ t, o = .next t

theorem Answers.next (t : State) : Answers (.next t) := ⟨t, rfl⟩

section Answers

variable (s : State)

theorem execSegmentStart_answers (p : Nat) (up : Upsets) : Answers (execSegmentStart p up s) := by
  unfold execSegmentStart
  dsimp only
  repeat' split
  all_goals exact .next _

theorem execMxeTile_answers (p : Nat) (up : Upsets) : Answers (execMxeTile p up s) := by
  unfold execMxeTile
  dsimp only
  repeat' split
  all_goals exact .next _

theorem State.gtuCell_answers (p template : Nat) (up : Upsets) (cell : Core → Ctx → Nat → CellIn → Nat → CellOut)
    (ok draws : Core → Ctx → Nat → Bool) : Answers (s.gtuCell p template up cell ok draws) := by
  unfold State.gtuCell
  dsimp only
  repeat' split
  all_goals exact .next _

theorem execGtuLstm_answers (p : Nat) (up : Upsets) : Answers (execGtuLstm p up s) := by
  unfold execGtuLstm
  exact s.gtuCell_answers p 0 up _ _ _

theorem execGtuGru_answers (p : Nat) (up : Upsets) : Answers (execGtuGru p up s) := by
  unfold execGtuGru
  exact s.gtuCell_answers p 1 up _ _ _

theorem execGtuMguPhaseA_answers (p : Nat) (up : Upsets) : Answers (execGtuMguPhaseA p up s) := by
  unfold execGtuMguPhaseA
  exact s.gtuCell_answers p 2 up _ _ _

theorem execGtuMguPhaseB_answers (p : Nat) (up : Upsets) : Answers (execGtuMguPhaseB p up s) := by
  unfold execGtuMguPhaseB
  exact s.gtuCell_answers p 3 up _ _ _

theorem execGtuSru_answers (p : Nat) (up : Upsets) : Answers (execGtuSru p up s) := by
  unfold execGtuSru
  exact s.gtuCell_answers p 4 up _ _ _

theorem execGtuGateProgram_answers (p : Nat) (up : Upsets) : Answers (execGtuGateProgram p up s) := by
  unfold execGtuGateProgram
  exact s.gtuCell_answers p 5 up _ _ _

theorem execGtuIntake_answers (p : Nat) (up : Upsets) : Answers (execGtuIntake p up s) := by
  unfold execGtuIntake
  dsimp only
  repeat' split
  all_goals exact .next _

theorem execVxePass_answers (p : Nat) (up : Upsets) : Answers (execVxePass p up s) := by
  unfold execVxePass
  dsimp only
  repeat' split
  all_goals exact .next _

theorem State.streamCommand_answers (f q op : Nat) : Answers (s.streamCommand f q op) := by
  unfold State.streamCommand
  dsimp only
  repeat' split
  all_goals exact .next _

theorem execStreamCommandResume_answers (n : Nat) : Answers (execStreamCommandResume n s) := by
  unfold execStreamCommandResume
  dsimp only
  repeat' split
  all_goals exact .next _

theorem execChunkDescriptor_answers (f q : Nat) : Answers (execChunkDescriptor f q s) := by
  unfold execChunkDescriptor
  dsimp only
  repeat' split
  all_goals exact .next _

theorem execBatchCommit_answers (n : Nat) : Answers (execBatchCommit n s) := by
  unfold execBatchCommit
  dsimp only
  repeat' split
  all_goals exact .next _

theorem execIngressTailWrite_answers (part die v : Nat) (cells : Cells) : Answers (execIngressTailWrite part die v cells s) := by
  unfold execIngressTailWrite
  dsimp only
  repeat' split
  all_goals exact .next _

theorem execIngressEntry_answers (part die : Nat) (ue : List Nat) : Answers (execIngressEntry part die ue s) := by
  unfold execIngressEntry
  dsimp only
  split <;> exact .next _

theorem execStreamFrameTick_answers (n : Nat) : Answers (execStreamFrameTick n s) := by
  unfold execStreamFrameTick
  dsimp only
  split <;> exact .next _

theorem execSqTailWrite_answers (f q v : Nat) (cells : Cells) : Answers (execSqTailWrite f q v cells s) := by
  unfold execSqTailWrite
  dsimp only
  split <;> exact .next _

theorem execDescriptorFetch_answers (f q : Nat) : Answers (execDescriptorFetch f q s) := by
  unfold execDescriptorFetch
  dsimp only
  repeat' split
  all_goals exact .next _

theorem execJob_answers (f q : Nat) : Answers (execJob f q s) := by
  unfold execJob
  dsimp only
  repeat' split
  all_goals exact .next _

theorem execArgumentLoad_answers (p : Nat) (ue : List Nat) : Answers (execArgumentLoad p ue s) := by
  unfold execArgumentLoad
  dsimp only
  repeat' split
  all_goals exact .next _

theorem execResultStore_answers (j : Nat) (up : Upsets) : Answers (execResultStore j up s) := by
  unfold execResultStore
  dsimp only
  repeat' split
  all_goals exact .next _
end Answers
/-- An arm of exec answers a next state outright, or on each of its branches. -/
theorem exec_answers (c : Instr) (s : State) : Answers (exec c s) := by
  cases c with
  | segmentStart p up => exact execSegmentStart_answers s p up
  | mxeTile p up => exact execMxeTile_answers s p up
  | gtuLstm p up => exact execGtuLstm_answers s p up
  | gtuGru p up => exact execGtuGru_answers s p up
  | gtuMguPhaseA p up => exact execGtuMguPhaseA_answers s p up
  | gtuMguPhaseB p up => exact execGtuMguPhaseB_answers s p up
  | gtuSru p up => exact execGtuSru_answers s p up
  | gtuGateProgram p up => exact execGtuGateProgram_answers s p up
  | gtuIntake p up => exact execGtuIntake_answers s p up
  | vxePass p up => exact execVxePass_answers s p up
  | streamCreate f q => exact s.streamCommand_answers f q 1
  | streamReset f q => exact s.streamCommand_answers f q 2
  | move f q => exact s.streamCommand_answers f q 3
  | stSet f q => exact s.streamCommand_answers f q 4
  | resume f q => exact s.streamCommand_answers f q 5
  | delete f q => exact s.streamCommand_answers f q 6
  | streamCommandResume n => exact execStreamCommandResume_answers s n
  | chunkDescriptor f q => exact execChunkDescriptor_answers s f q
  | batchCommit n => exact execBatchCommit_answers s n
  | ingressTailWrite part die v cells => exact execIngressTailWrite_answers s part die v cells
  | ingressEntry part die ue => exact execIngressEntry_answers s part die ue
  | streamFrameTick n => exact execStreamFrameTick_answers s n
  | sqTailWrite f q v cells => exact execSqTailWrite_answers s f q v cells
  | descriptorFetch f q => exact execDescriptorFetch_answers s f q
  | job f q => exact execJob_answers s f q
  | argumentLoad p ue => exact execArgumentLoad_answers s p ue
  | resultStore j up => exact execResultStore_answers s j up
  | _ => exact .next _

/-- Settles O8. -/
theorem noCommandIsRefused : Obligations.NoCommandIsRefused := exec_answers

/-! ### Every step -/

/-- Settles O1. -/
theorem stepRunsFrontCommand : Obligations.StepRunsFrontCommand := fun _ _ _ => rfl

/-- Settles O2: time passes while the root PLL is locked, and an hour of the spares is counted at full hours alone. -/
theorem idleStepPassesOneCycle : Obligations.IdleStepPassesOneCycle := by
  refine ⟨fun s idle unlocked => ?_, fun s idle locked midHour => ?_⟩
  · simp only [step, idle, State.idle, State.passCycle]
    simp [unlocked]
  · simp only [step, idle, State.idle, State.passCycle]
    simp [locked, midHour]

/-- Settles O5. -/
theorem resetStateIsSafe : Obligations.ResetStateIsSafe :=
  ⟨rfl, rfl, Alloc.balanced_init, fun _ => rfl, fun _ => ⟨rfl, rfl⟩⟩


/-- A step takes a safe state to a safe state, and its device state as Table 2 of 15 gives: an idle step lets a cycle pass, any
other is its command's. Taking the command off the queue touches neither. -/
theorem step_safe {s t : State} (e : step s = .next t) : (s.Safe → t.Safe) ∧ s.top.dev.goes t.top.dev = true := by
  unfold step at e
  split at e
  case h_1 =>
    have fields := Sub.refl 16777215
    have idle : StepSafe 16777215 s s.idle := (Keeps.idleOp (Keeps.refl s)).stepSafe
    exact Host.Outcome.next.inj e ▸ ⟨idle.safe, idle.dev⟩
  case h_2 c rest _ =>
    have ran := exec_stepSafe (Sub.refl _) e
    exact ⟨fun ⟨memory, regs, alloc, top⟩ => ran.safe ⟨memory, regs, alloc, top⟩, ran.dev⟩

/-- Settles O6. -/
theorem everyStepKeepsSafety : Obligations.EveryStepKeepsSafety := fun _ _ safe e => (step_safe e).1 safe

/-- Settles O7. -/
theorem deviceStatesFollowTable2 : Obligations.DeviceStatesFollowTable2 := fun _ _ e => (step_safe e).2

/-! ### The test access port (R488) -/

/-- While PWR_GOOD is high a code is loaded; EXTEST, CLAMP and HIGHZ, the codes 0, 3 and 4, act only while SYS_RESET_N is low. -/
theorem State.tapLoad_takes {s : State} (good : s.top.pwrGood = true) {code : Nat} (hc : code ∈ [0xFF, 0, 1, 2, 3, 4]) :
    s.TapTakes (s.tapLoad code) code (if s.top.sysResetN && [0, 3, 4].contains code then 0xFF else code) s.tap.boundary := by
  have loaded : s.tapLoad code = { s with tap := { s.tap with
      ir := code, driving := !s.top.sysResetN && (code = 0 || code = 3), released := !s.top.sysResetN && code = 4 } } := by
    unfold State.tapLoad
    simp [good]
  rw [loaded]
  refine ⟨rfl, ?_, rfl, rfl⟩
  simp only [List.mem_cons, List.not_mem_nil, or_false] at hc
  obtain rfl | rfl | rfl | rfl | rfl | rfl := hc <;> cases s.top.sysResetN <;> simp [State.tapActs]

/-- While PWR_GOOD is low no code is loaded. -/
theorem State.tapLoad_low {s : State} (low : s.top.pwrGood = false) (code : Nat) : s.tapLoad code = s := by
  unfold State.tapLoad
  simp [low]

/-- Settles O11. -/
theorem testAccessPortFollowsTable4 : Obligations.TestAccessPortFollowsTable4 := by
  refine ⟨fun s good => ⟨?_, ?_, ?_, fun bits => ?_, ?_, ?_, ?_⟩, fun s low => ⟨?_, ?_, ?_, fun bits => ?_, ?_, ?_, ?_⟩⟩
  · exact ⟨_, congrArg Host.Outcome.next (if_pos good), rfl, rfl, rfl, rfl⟩
  · exact ⟨_, rfl, by simpa using State.tapLoad_takes good (code := 0xFF) (by simp)⟩
  · exact ⟨_, rfl, by simpa using State.tapLoad_takes good (code := 1) (by simp)⟩
  · obtain ⟨ir, acts, -, rest⟩ := State.tapLoad_takes good (code := 2) (by simp)
    exact ⟨_, congrArg Host.Outcome.next (if_pos good), ir, (by simpa using acts : (s.tapLoad 2).tapActs = 2), rfl, rest⟩
  · exact ⟨_, rfl, by simpa using State.tapLoad_takes good (code := 0) (by simp)⟩
  · exact ⟨_, rfl, by simpa using State.tapLoad_takes good (code := 3) (by simp)⟩
  · exact ⟨_, rfl, by simpa using State.tapLoad_takes good (code := 4) (by simp)⟩
  · exact congrArg Host.Outcome.next (if_neg (by simp [low]))
  · exact congrArg Host.Outcome.next (State.tapLoad_low low 0xFF)
  · exact congrArg Host.Outcome.next (State.tapLoad_low low 1)
  · exact congrArg Host.Outcome.next (if_neg (by simp [low]))
  · exact congrArg Host.Outcome.next (State.tapLoad_low low 0)
  · exact congrArg Host.Outcome.next (State.tapLoad_low low 3)
  · exact congrArg Host.Outcome.next (State.tapLoad_low low 4)

end Sys2Proof.Machine
end

section
/-! Proofs of chapter 15: what a return to RESET leaves, and the states of bring-up (R472 to R485). -/

set_option Elab.async false

namespace Sys2Proof.Machine

/-! ### A return to RESET (R473) -/

/-- Keeping the entries whose key passes a test keeps what these keys read as, and no other key. -/
theorem SMap.get_filter_key {α : Type} (d : α) (m : SMap α) (p : Nat → Bool) (k : Nat) :
    SMap.get d (m.filter fun c => p c.1) k = if p k then SMap.get d m k else d := by
  induction m with
  | nil => simp [SMap.get]
  | cons c m ih =>
    obtain ⟨j, a⟩ := c
    by_cases hj : j = k
    · subst hj
      cases hp : p j <;> simp [SMap.get, hp, ih]
    · cases hp : p j <;> simp [SMap.get, hp, ih, hj]

theorem State.moduleReset_back {u : State} (h : Regs.wf u.regs = true) {cause : Nat} (hc : cause < 256) :
    u.BackInReset (u.moduleReset cause) cause := by
  have hk := Sub.refl 64
  unfold State.moduleReset
  extract_lets _ keep _ _ _ _ _ _ r phys
  have kept : Keeps 64 r phys := Keeps.foldl (Keeps.refl r) _ fun x p hx => by
    split
    · exact Keeps.setPhys hx
    · exact hx
  have wf : Regs.wf phys.regs = true := kept.regs (Regs.wf_filter h _)
  have stored : Keeps 64 r (phys.setReg 0x1200 12 cause) := Keeps.setReg kept
  have top : (phys.setReg 0x1200 12 cause).top = r.top := stored.frame .top rfl
  have mem : (phys.setReg 0x1200 12 cause).mem = r.mem := stored.frame .mem rfl
  have fw : (phys.setReg 0x1200 12 cause).fw = r.fw := stored.frame .fw rfl
  have byte (a : Nat) : (phys.setReg 0x1200 12 cause).byteAt a = if decide (2 ^ 51 ≤ a) then u.byteAt a else 0 := by
    unfold State.byteAt
    rw [mem]
    exact SMap.get_filter_key 0 u.mem (fun a => decide (2 ^ 51 ≤ a)) a
  exact {
    dev := congrArg Top.dev top
    done := congrArg Top.resetDone top
    cause := (State.reg_setReg_same wf _ _ _).trans (Nat.mod_eq_of_lt hc)
    sluice := stored.frame .sl rfl
    tables := stored.frame .tab rfl
    streams := stored.frame .strm rfl
    fabric := stored.frame .fab rfl
    host := stored.frame .host rfl
    jobs := stored.frame .jobs rfl
    ctxs := stored.frame .ctxs rfl
    ops := stored.frame .ctxOps rfl
    power := ⟨stored.frame .alloc rfl, stored.frame .pow rfl⟩
    cisterns := stored.frame .cores rfl
    reservoirs := congrArg Tiers.resv (stored.frame .tiers rfl)
    memory := fun a ha => (byte a).trans (if_neg (by simpa using ha))
    hostMemory := fun a ha => (byte a).trans (if_pos (by simpa using ha))
    fuses := (congrArg Top.fuses top :)
    firmware := ⟨(congrArg Firmware.slot fw :), (congrArg Firmware.valid fw :)⟩ }

/-- The pins, the test access port and the record of a die stop are as they were before the reset, and the scalar entries keep
their form. -/
theorem State.moduleReset_kept (u : State) (cause : Nat) :
    (u.moduleReset cause).top.sysResetN = u.top.sysResetN ∧ (u.moduleReset cause).top.pwrGood = u.top.pwrGood
      ∧ (u.moduleReset cause).tap = u.tap ∧ (u.moduleReset cause).av.dieStop = u.av.dieStop
      ∧ (Regs.wf u.regs = true → Regs.wf (u.moduleReset cause).regs = true) := by
  have hk := Sub.refl 64
  unfold State.moduleReset
  extract_lets _ keep _ _ _ _ _ _ r phys
  have stored : Keeps 64 r (phys.setReg 0x1200 12 cause) := Keeps.setReg (Keeps.foldl (Keeps.refl r) _ fun x p hx => by
    split
    · exact Keeps.setPhys hx
    · exact hx)
  have av : (phys.setReg 0x1200 12 cause).av = r.av := stored.frame .av rfl
  exact ⟨stored.pin, stored.power, stored.frame .tap rfl, (congrArg Avail.dieStop av :), fun h => stored.regs (Regs.wf_filter h _)⟩

/-- Only the parts of a state that outlast a reset matter for what a reset leaves of it. -/
theorem State.BackInReset.of_kept {s u t : State} {cause : Nat} (h : u.BackInReset t cause) (pps : u.strm = s.strm)
    (mem : u.mem = s.mem) (fuses : u.top.fuses = s.top.fuses) (fw : u.fw = s.fw) : s.BackInReset t cause := by
  obtain ⟨dev, done, cause, sl, tab, strm, fab, host, jobs, ctxs, ops, power, cores, resv, memory, hostMemory, fuse, firmware⟩ := h
  have byte (a : Nat) : u.byteAt a = s.byteAt a := by unfold State.byteAt; rw [mem]
  exact ⟨dev, done, cause, sl, tab, pps ▸ strm, fab, host, jobs, ctxs, ops, power, cores, resv, memory,
    fun a ha => (hostMemory a ha).trans (byte a), fuse.trans fuses, fw ▸ firmware⟩

theorem State.reset_of_pins {s : State} (h : Regs.wf s.regs = true) (power : Bool) (tap : Tap) {cause : Nat} (hc : cause < 256) :
    s.BackInReset (State.moduleReset { s with top := { s.top with sysResetN := false, pwrGood := power }, tap := tap } cause) cause :=
  State.BackInReset.of_kept
    (State.moduleReset_back (u := { s with top := { s.top with sysResetN := false, pwrGood := power }, tap := tap }) h hc) rfl rfl rfl rfl

/-- A return to RESET that carries the record ev of a die stop asserts the interrupt line (R24, R42). -/
def State.resetWithRecord (s : State) (ev : Rec) (cause : Nat) : State :=
  (State.moduleReset { s with av := { s.av with dieStop := some ev } } cause).setReg 0x9000 3 1

theorem State.resetWithRecord_back {s : State} (h : Regs.wf s.regs = true) (ev : Rec) {cause : Nat} (hc : cause < 256) :
    s.BackInReset (s.resetWithRecord ev cause) cause ∧ (s.resetWithRecord ev cause).reg 0x9000 3 = 1
      ∧ (s.resetWithRecord ev cause).av.dieStop.isSome = true
      ∧ (s.resetWithRecord ev cause).top.sysResetN = s.top.sysResetN := by
  obtain ⟨u, hu⟩ : ∃ u : State, u = { s with av := { s.av with dieStop := some ev } } := ⟨_, rfl⟩
  have regs : u.regs = s.regs := by rw [hu]
  have kept : s.BackInReset (u.moduleReset cause) cause :=
    State.BackInReset.of_kept (State.moduleReset_back (regs ▸ h) hc) (by rw [hu]) (by rw [hu]) (by rw [hu]) (by rw [hu])
  obtain ⟨pin, -, -, record, wf⟩ := u.moduleReset_kept cause
  have eq : s.resetWithRecord ev cause = (u.moduleReset cause).setReg 0x9000 3 1 := by rw [hu]; rfl
  rw [eq]
  refine ⟨{ kept with cause := ?_ }, State.reg_setReg_same (wf (regs ▸ h)) _ _ _, ?_, ?_⟩
  · exact (State.reg_setReg_other _ (by decide)).trans kept.cause
  · rw [State.setReg_av, record, hu]; rfl
  · rw [State.setReg_top, pin, hu]

theorem State.wf_dieStopRecord {s : State} (h : Regs.wf s.regs = true) (die cause : Nat) :
    Regs.wf (s.dieStopRecord die cause).regs = true :=
  have fields := Sub.refl 16777215
  (Keeps.dieStopRecord (Keeps.refl s)).regs h

/-- The record of a die stop leaves the pins and the dies that have stopped. -/
theorem State.dieStopRecord_top (s : State) (die cause : Nat) : (s.dieStopRecord die cause).top = s.top :=
  have fields := Sub.refl 3670464
  (Keeps.dieStopRecord (Keeps.refl s)).frame .top rfl

/-- Settles O9. -/
theorem moduleReturnsToReset : Obligations.ModuleReturnsToReset := by
  refine ⟨fun s safe high => ?_, fun s safe good => ?_, fun s safe locked => ?_,
    fun s d sensor reading optics safe hd locked runs stopped hot => ?_⟩
  · obtain ⟨pin, power, tap, -, -⟩ := State.moduleReset_kept { s with top := { s.top with sysResetN := false } } 1
    refine ⟨_, congrArg Host.Outcome.next (if_pos high), ?_, pin, power, tap⟩
    exact State.reset_of_pins safe.regs _ _ (by decide)
  · obtain ⟨pin, power, tap, -, -⟩ :=
      State.moduleReset_kept { s with top := { s.top with pwrGood := false, sysResetN := false }, tap := Tap.init } 2
    refine ⟨_, congrArg Host.Outcome.next (if_pos good), ?_, pin, power, tap⟩
    exact State.reset_of_pins safe.regs _ _ (by decide)
  · obtain ⟨back, alert, record, pin⟩ :=
      State.resetWithRecord_back (State.wf_dieStopRecord safe.regs 0 0) (BitVec.ofNat 256 (leNat ((s.dieStopRecord 0 0).blob 0x9016 2)))
        (cause := 3) (by decide)
    exact ⟨_, congrArg Host.Outcome.next (if_pos locked), back, alert, record, pin.trans (by rw [State.dieStopRecord_top])⟩
  · obtain ⟨back, alert, record, -⟩ :=
      State.resetWithRecord_back (State.wf_dieStopRecord safe.regs d 1) (BitVec.ofNat 256 (leNat ((s.dieStopRecord d 1).blob 0x9016 2)))
        (cause := 4) (by decide)
    have taken : ¬(1 < d || s.top.stopped.get d || s.reg 0x2100 1 = 0 || reading < (if optics then 90000 else 110000)) = true := by
      simp [runs, locked, hot, Nat.not_lt.2 (Nat.le_of_lt_succ hd)]
    refine ⟨_, congrArg Host.Outcome.next ((if_neg taken).trans (if_pos ?_)), back, alert, record⟩
    rw [State.dieStopRecord_top]
    exact stopped

/-! ### Bring-up (R475 to R486) -/

/-- The firmware slot that fw_slot names is loaded where its image is valid, and is not left. -/
theorem State.loadFirmware_slot {s : State} {okA okB : Bool} (hv : maskBit s.fw.valid s.fw.slot = true)
    (hok : s.fw.slot = 0 ∧ okA = true ∨ s.fw.slot = 1 ∧ okB = true) :
    ∃ f : Firmware, s.loadFirmware okA okB = { s with fw := f } ∧ f.slot = s.fw.slot := by
  have ok : (maskBit s.fw.valid s.fw.slot && (if s.fw.slot = 0 then okA else okB)) = true := by
    rw [hv, Bool.true_and]
    rcases hok with ⟨slot, ok⟩ | ⟨slot, ok⟩ <;> simp [slot, ok]
  exact ⟨_, if_pos ok, rfl⟩

/-- Steps 1 and 2 of RESET write scalar entries alone. -/
def State.dmcChosen (s : State) (o : StartUp) : State :=
  ((s.readFuses.judgeCores).setReg 0x2100 2 1).chooseDmc o.dmc0 o.dmc1

theorem State.keeps_dmcChosen (s : State) (o : StartUp) : Keeps 64 s (s.dmcChosen o) :=
  have fields := Sub.refl 64
  Keeps.chooseDmc (Keeps.setReg (Keeps.judgeCores (Keeps.readFuses (Keeps.refl s))))

/-- Steps 3 and 4 of RESET: the PLL locks and the host links train. -/
def State.linksTrained (s : State) (o : StartUp) : State :=
  (s.lockPll.trainHost 0 o.width0 o.rate0).trainHost 1 o.width1 o.rate1

/-- They start the control-cycle counter at 0 and write the domains, the links and scalar entries beside. -/
theorem State.keeps_linksTrained (s : State) (o : StartUp) : Keeps 786496 { s with now := 0 } (s.linksTrained o) :=
  have fields := Sub.refl 786496
  Keeps.trainHost (Keeps.trainHost (Keeps.enterShared (Keeps.startDomain (Keeps.setReg (Keeps.refl _)))))

/-- With a DMC that passes its check, a PLL that locks and a valid image in the slot of fw_slot, every item of RESET completes. -/
theorem State.startUp_completes {s : State} {o : StartUp} (hstuck : s.top.stuck = false) (hdmc : o.dmc0 = true ∨ o.dmc1 = true)
    (hpll : o.pll = true) (hok : s.fw.slot = 0 ∧ o.slotA = true ∨ s.fw.slot = 1 ∧ o.slotB = true)
    (hv : maskBit s.fw.valid s.fw.slot = true) :
    (s.startUp o).now = 0 ∧ (s.startUp o).top = { s.top with resetDone := true } ∧ (s.startUp o).fw.slot = s.fw.slot
      ∧ (s.startUp o).mem = s.mem := by
  obtain ⟨c, hc⟩ : ∃ c, c = (s.dmcChosen o).linksTrained o := ⟨_, rfl⟩
  have chosen := s.keeps_dmcChosen o
  have locked := (s.dmcChosen o).keeps_linksTrained o
  rw [← hc] at locked
  have top : c.top = s.top := (locked.frame .top rfl).trans (chosen.frame .top rfl)
  have fw : c.fw = s.fw := (locked.frame .fw rfl).trans (chosen.frame .fw rfl)
  have mem : c.mem = s.mem := (locked.frame .mem rfl).trans (chosen.frame .mem rfl)
  have now : c.now = 0 := locked.frame .now rfl
  have record : Keeps 2097344 c c.carryRecord := Keeps.carryRecord (Keeps.refl c) (Sub.refl _)
  have fw' : c.carryRecord.fw = s.fw := (record.frame .fw rfl).trans fw
  obtain ⟨f, first, -⟩ := State.loadFirmware_slot (s := c) (okA := o.slotA) (okB := o.slotB) (by rwa [fw]) (by rwa [fw])
  obtain ⟨g, second, slot⟩ := State.loadFirmware_slot (s := c.carryRecord) (okA := o.slotA) (okB := o.slotB) (by rwa [fw']) (by rwa [fw'])
  have eq : s.startUp o = { c.carryRecord with fw := g, top := { c.carryRecord.top with resetDone := true } } := by
    unfold State.startUp
    have dmc : ¬((!o.dmc0 && !o.dmc1) = true) := by simpa [Decidable.or_iff_not_imp_left] using hdmc
    have pll : ¬((!o.pll) = true) := by simp [hpll]
    have unstuck : ¬((c.loadFirmware o.slotA o.slotB).top.stuck = true) := by simp [first, top, hstuck]
    simp only [if_neg dmc, if_neg pll]
    unfold State.linksTrained State.dmcChosen at hc
    simp only [← hc, if_neg unstuck, second]
  rw [eq]
  refine ⟨(record.frame .now rfl).trans now, ?_, slot.trans (congrArg Firmware.slot fw'), (record.frame .mem rfl).trans mem⟩
  rw [← top]
  exact congrArg (fun t : Top => { t with resetDone := true }) (record.frame .top rfl)

/-- States that agree in every field and in the queue are equal. -/
theorem State.eq_of_agree {s t : State} (pending : t.pending = s.pending) (h : ∀ f, s.agree t f) : t = s := by
  have now := h .now; have free := h .free; have top := h .top; have alloc := h .alloc; have pow := h .pow
  have regs := h .regs; have blobs := h .blobs; have mem := h .mem; have cores := h .cores; have ctxs := h .ctxs
  have jobs := h .jobs; have nextJob := h .nextJob; have ctxOps := h .ctxOps; have tiers := h .tiers; have sl := h .sl
  have tab := h .tab; have fab := h .fab; have strm := h .strm; have host := h .host; have mgmt := h .mgmt
  have av := h .av; have fw := h .fw; have tap := h .tap
  clear h
  cases s
  cases t
  simp only [State.agree] at *
  subst_vars
  rfl

/-- What a command that writes scalar entries and the pins alone leaves. -/
theorem StepSafe.eq_topRegs {s t : State} (h : StepSafe 72 s t) : { t with top := s.top, regs := s.regs } = s :=
  State.eq_of_agree h.pending fun f => by
    have same := h.frame f
    cases f
    case top => rfl
    case regs => rfl
    all_goals exact same rfl

/-- What an operation that writes scalar entries alone leaves. -/
theorem Keeps.eq_regs {s t : State} (h : Keeps 64 s t) : t = { s with regs := t.regs } :=
  State.eq_of_agree h.pending fun f => by
    have same := h.frame f
    cases f
    case regs => rfl
    all_goals exact same rfl

theorem State.enterDev_top (s : State) (d : DevState) : (s.enterDev d).top = { s.top with dev := d } := rfl

theorem State.passPhys_stuck (s : State) (p : Nat) (half : Option Nat) : (s.passPhys p half).top.stuck = s.top.stuck := by
  unfold State.passPhys
  cases half <;> simp [State.selftestEvent]

theorem State.failPhys_stuck (s : State) (p cause : Nat) (inj : Bool) : (s.failPhys p cause inj).top.stuck = s.top.stuck := by
  simp [State.failPhys, State.setPhys, State.selftestEvent]

theorem State.testCore_stuck (s : State) (o : SelfTests) (p : Nat) : (s.testCore o p).1.top.stuck = s.top.stuck := by
  unfold State.testCore
  extract_lets half bad was banks u
  split
  · rw [State.failPhys_stuck]; rfl
  · rw [State.setPhys, State.setReg_top, State.passPhys_stuck]; rfl

/-- The self-tests of the cores fuse halves, and do not say whether bring-up can go on. -/
theorem State.testCores_stuck (o : SelfTests) (l : List Nat) (s : State) : (s.testCores o l).1.top.stuck = s.top.stuck := by
  induction l generalizing s with
  | nil => rfl
  | cons p l ih => exact (ih _).trans (s.testCore_stuck o p)

theorem State.enterTraining_top (s : State) :
    s.enterTraining.top.dev = .training ∧ s.enterTraining.top.stuck = s.top.stuck := by
  unfold State.enterTraining
  dsimp only
  split <;> exact ⟨rfl, rfl⟩

/-- SELFTEST_COMPLETE_ALL as Table 2 of 15 gives it. -/
theorem execSelftestCompleteAll_outcome {s : State} {o : SelfTests} (hd : s.top.dev = .selftest) (hs : s.top.stuck = false) :
    ∃ v : State, v.top.dev = .selftest ∧ v.top.stuck = false
      ∧ execSelftestCompleteAll o s = .next (if o.block = 0 then v.enterTraining else v.stick) := by
  have fields := Sub.refl 3670984
  obtain ⟨u, hu⟩ : ∃ u, u = s.setReg 0x4800 4 ((List.range 72).foldl (fun n p => n + (s.badBanks o p).length) 0) := ⟨_, rfl⟩
  rcases tested : u.testCores o (List.range 72) with ⟨w, n, h⟩
  have stuck : w.top.stuck = s.top.stuck := by
    have := u.testCores_stuck o (List.range 72)
    rwa [tested, hu, State.setReg_top] at this
  have keptCores : Keeps 3670984 s w := by
    have : KeepsP 3670984 s (u.testCores o (List.range 72)) := Keeps.testCores (hu ▸ Keeps.setReg (Keeps.refl s))
    rwa [tested] at this
  obtain ⟨v, hv⟩ : ∃ v, v = (w.setReg 0x1200 9 (put 7 0 n + put 15 8 h + put 23 16 o.spareSlices + put 31 24 o.block)).judgeSpares.judgeCores := ⟨_, rfl⟩
  have judged : Keeps 64 w v := hv ▸ Keeps.judgeCores (Keeps.judgeSpares (Keeps.setReg (Keeps.refl w) (Sub.refl _)) (Sub.refl _)) (Sub.refl _)
  have top : v.top = w.top := judged.frame .top rfl
  have dev : v.top.dev = .selftest := by
    rcases keptCores.dev with same | ⟨up, -⟩
    · rw [top, same, hd]
    · rw [hd] at up
      rcases up with up | up <;> cases up
  refine ⟨v, dev, by rw [top, stuck, hs], ?_⟩
  unfold execSelftestCompleteAll
  have go : ¬((s.top.dev ≠ .selftest || s.top.stuck) = true) := by simp [hd, hs]
  rw [if_neg go]
  simp only [← hu, tested, ← hv]

/-- RANGE_TRAINED leaves the pins but for the mark of its range, and where no channel is missing or failing writes nothing else. -/
theorem execRangeTrained_outcome {s : State} {u failed : Nat} (hm : s.mayTrain = true) (hu : maskBit s.top.trained u = false) :
    ∃ t, execRangeTrained u failed s = .next t ∧ t.top = { s.top with trained := maskSet s.top.trained u }
      ∧ ((activeList (s.active u)).length = rangeChans u → (∀ c ∈ activeList (s.active u), maskBit failed c = false) →
          t = { s with top := { s.top with trained := maskSet s.top.trained u } }) := by
  have go : ¬((!s.mayTrain || maskBit s.top.trained u) = true) := by simp [hm, hu]
  unfold execRangeTrained
  rw [if_neg go]
  extract_lets _ v bad w
  have fields := Sub.refl 3670464
  have marked : Keeps 3670464 v w := Keeps.foldl (Keeps.refl v) bad fun x c hx => Keeps.suspect (Keeps.setBlobBit hx)
  refine ⟨_, rfl, ?_, fun whole good => ?_⟩
  · have top : w.top = v.top := marked.frame .top rfl
    split
    · exact (State.setCause_top ..).trans top
    · exact top
  · have none : bad = [] := by
      rw [List.filter_eq_nil_iff]
      intro c hc
      simp [good c hc]
    have same : w = v := by simp only [w, none, List.foldl_nil]
    have enough : ¬(activeList (w.active u)).length < rangeChans u := by
      rw [same]
      exact Nat.not_lt.2 (Nat.le_of_eq whole.symm)
    rw [if_neg enough, same]

/-- Calibrating the lanes of an engine writes scalar entries alone. -/
theorem execOpticsCalibrated_outcome {s : State} {e tx rx : Nat} (hm : s.mayTrain = true) (he : maskBit s.top.calibrated e = false) :
    ∃ v : State, Keeps 64 s v
      ∧ execOpticsCalibrated e tx rx s = .next { v with top := { v.top with calibrated := maskSet v.top.calibrated e } } := by
  have go : ¬((!s.mayTrain || maskBit s.top.calibrated e) = true) := by simp [hm, he]
  unfold execOpticsCalibrated
  rw [if_neg go]
  have fields := Sub.refl 64
  refine ⟨_, ?_, rfl⟩
  split
  · exact Keeps.calibrateLanes (Keeps.calibrateLanes (Keeps.setEng (Keeps.refl s)))
  · exact Keeps.setReg (Keeps.calibrateLanes (Keeps.calibrateLanes (Keeps.setEng (Keeps.refl s))))

/-- Posting the records held before READY leaves the record of a die stop where it is. -/
theorem State.postHeld_dieStop (s : State) (f : Nat) : (s.postHeld f).av.dieStop = s.av.dieStop := by
  unfold State.postHeld
  split
  · refine foldl_view (fun x => x.av.dieStop) _ (fun x r => ?_) _ _
    unfold State.postHeldOne
    split
    · simp [State.notePosted]
    · rfl
  · rfl

/-- READY_ENTRY past its hold point enters READY, and the record of a die stop that a reset has carried is let go (R463, R478). -/
theorem execReadyEntry_enters {s : State} (hm : s.mayTrain = true) (hd : s.trainingDone = true)
    (hp : s.reg 0x1200 5 ≠ 2 ∨ s.top.passed2 = true) :
    ∃ t, execReadyEntry s = .next t ∧ t.top = { s.top with dev := .ready } ∧ t.av.dieStop = none := by
  have go : ¬((!s.mayTrain || !s.trainingDone) = true) := by simp [hm, hd]
  have past : ¬((s.reg 0x1200 5 = 2 && !s.top.passed2) = true) := by
    rcases hp with h | h <;> simp [h]
  unfold execReadyEntry
  rw [if_neg go, if_neg past]
  extract_lets u _ v
  refine ⟨_, rfl, ?_, ?_⟩
  · refine (foldl_view (fun x => x.top) _ (fun x f => ?_) _ _).trans rfl
    exact (Keeps.postHeld (Keeps.refl x) (Sub.refl _)).frame .top rfl
  · refine (foldl_view (fun x => x.av.dieStop) _ (fun x f => ?_) _ _).trans rfl
    exact x.postHeld_dieStop f

/-- Settles O10. -/
theorem bringUpRunsThroughItsStates : Obligations.BringUpRunsThroughItsStates := by
  refine ⟨fun s o low stuck dmc pll slot valid => ?_, fun s dev done => ?_, fun s o dev stuck => ?_,
    fun s u failed may untrained => ?_, fun s may trained unfilled => ?_, fun s e tx rx may uncalibrated => ?_,
    fun s may done passed => ?_, fun s safe may done chosen unpassed => ?_⟩
  · have notHigh : ¬(s.top.sysResetN = true) := by simp [low]
    obtain ⟨now, top, fw, mem⟩ := State.startUp_completes
      (s := { s with top := { s.top with sysResetN := true, pwrGood := true },
                     tap := { s.tap with driving := false, released := false } }) stuck dmc pll slot valid
    exact ⟨_, congrArg Host.Outcome.next (if_neg notHigh), now, top, fw, mem⟩
  · have go : (s.top.dev = .reset && s.top.resetDone) = true := by simp [dev, done]
    have entered : exec .resetComplete s = .next (s.enterDev .selftest).judgeCores.judgeSpares :=
      congrArg Host.Outcome.next (if_pos go)
    have judged : Keeps 64 (s.enterDev .selftest) (s.enterDev .selftest).judgeCores.judgeSpares :=
      Keeps.judgeSpares (Keeps.judgeCores (Keeps.refl _) (Sub.refl _)) (Sub.refl _)
    exact ⟨_, entered, judged.frame .top rfl, (execResetComplete_safe entered).eq_topRegs⟩
  · obtain ⟨v, hdev, hstuck, ran⟩ := execSelftestCompleteAll_outcome (o := o) dev stuck
    refine ⟨_, ran, fun passed => ?_, fun failed => ?_⟩
    · rw [if_pos passed]
      exact ⟨v.enterTraining_top.1, v.enterTraining_top.2.trans hstuck⟩
    · rw [if_neg failed]
      exact ⟨hdev, rfl⟩
  · obtain ⟨t, ran, top, whole⟩ := execRangeTrained_outcome (failed := failed) may untrained
    exact ⟨t, ran, top, fun all good => by rw [whole all good]⟩
  · have go : ¬((!s.mayTrain || s.top.trained ≠ 255 || s.top.zeroFilled) = true) := by simp [may, trained, unfilled]
    have byte (a : Nat) : SMap.get (0 : Byte) (s.mem.filter fun c => decide (2 ^ 51 ≤ c.1)) a
        = if decide (2 ^ 51 ≤ a) then s.byteAt a else 0 := SMap.get_filter_key 0 s.mem (fun a => decide (2 ^ 51 ≤ a)) a
    exact ⟨_, congrArg Host.Outcome.next (if_neg go), rfl, fun a ha => (byte a).trans (if_neg (by simpa using ha)),
      fun a ha => (byte a).trans (if_pos (by simpa using ha)), rfl⟩
  · obtain ⟨v, kept, ran⟩ := execOpticsCalibrated_outcome (tx := tx) (rx := rx) may uncalibrated
    refine ⟨_, ran, ?_, ?_⟩
    · rw [show v.top = s.top from kept.frame .top rfl]
    · exact State.eq_of_agree kept.pending fun f => by
        have same := kept.frame f
        cases f
        case top => rfl
        case regs => rfl
        all_goals exact same rfl
  · exact execReadyEntry_enters may done passed
  · have go : ¬((!s.mayTrain || !s.trainingDone) = true) := by simp [may, done]
    have hold : (s.reg 0x1200 5 = 2 && !s.top.passed2) = true := by simp [chosen, unpassed]
    have training : s.top.dev = .training := by
      unfold State.mayTrain at may
      simp at may
      exact may.1
    exact ⟨_, congrArg Host.Outcome.next ((if_neg go).trans (if_pos hold)), training, State.reg_setReg_same safe.regs _ _ _⟩

end Sys2Proof.Machine
end

section
/-! Proofs of chapter 01: loans, returned permits, window ends and power samples (R28 to R34, R39). -/

set_option Elab.async false

namespace Sys2Proof.Machine

/-! ### Loans (R29) -/

theorem Alloc.allot_move_same (a : Alloc) (d : Nat) (x : Int) : (a.move d x).allot d = a.allot d - x := by
  unfold Alloc.move Alloc.allot
  split <;> rfl

theorem Alloc.allot_move_peer (a : Alloc) {d : Nat} (x : Int) (hd : d < 2) :
    (a.move d x).allot (1 - d) = a.allot (1 - d) + x := by
  obtain rfl | rfl : d = 0 ∨ d = 1 := by omega
  · rfl
  · rfl

@[simp] theorem Alloc.inForce_move (a : Alloc) (d : Nat) (x : Int) : (a.move d x).inForce = a.inForce := by
  unfold Alloc.move
  split <;> rfl

/-- A queue of one request, at or below headroom(d), is served by its grant. -/
theorem State.serveDie_grants_one {s : State} {d : Nat} {a : Ask} (hs : s.Granting d) (hq : (s.gov d).queue = [a])
    (hb : a.notBefore ≤ s.now) (hh : (s.permitSize a.permit.cls : Int) ≤ s.headroom d) :
    s.serveDie d = s.grant d (a.looked false) [] := by
  unfold State.serveDie
  rw [hq]
  exact (State.serveLoop_grants 1 hs hq hb hh).trans (State.serveLoop_nil 1 (by simp))

/-- The loan of a governor once it has been answered. -/
def State.endLoan (s : State) (d : Nat) : State := s.setGov d { s.gov d with loanAsk := none, loanAnswer := none }

@[simp] theorem State.gov_endLoan (s : State) (d : Nat) :
    (s.endLoan d).gov d = { s.gov d with loanAsk := none, loanAnswer := none } := State.gov_setGov_same ..

@[simp] theorem State.headroom_endLoan (s : State) (d : Nat) : (s.endLoan d).headroom d = s.headroom d :=
  State.headroom_setGov rfl rfl

theorem State.doLoanReply_some {s : State} {d : Nat} {ok : Bool} (h : (s.gov d).loanAnswer = some ok) :
    s.doLoanReply d = if ok then (s.endLoan d).serveDie d else s.endLoan d := by
  unfold State.doLoanReply
  simp only [h]
  rfl

/-- A grant leaves a loan of the die as it is. -/
@[simp] theorem State.loanAsk_gov_grant (s : State) (d : Nat) (a : Ask) (rest : List Ask) :
    ((s.grant d a rest).gov d).loanAsk = (s.gov d).loanAsk := by
  rw [State.gov_grant_same]
  unfold State.grantedGov Governor.sendBack State.setHeld
  split <;> simp

@[simp] theorem State.permitSize_endLoan (s : State) (d : Nat) (c : PClass) : (s.endLoan d).permitSize c = s.permitSize c := rfl

/-- Settles O13. -/
theorem loansMoveAllotment : Obligations.LoansMoveAllotment := by
  refine ⟨fun s d x hd asked unanswered => ⟨_, rfl, fun granting runs fits => ?_, fun refused => ?_⟩,
    fun s d hd refused => ?_, fun s d a grants granted queue free fits => ?_, fun s d none => ?_,
    fun s d a l grants queue free short noLoan peerRuns => ?_, fun s d a grants queue free fits => ?_, fun s d queue => ?_⟩
  · have moved : s.doLoanRequest d = (State.bump { s with alloc := s.alloc.move d x } (0x2001 + d) 8 1).setGov (1 - d)
        { s.gov (1 - d) with loanAnswer := some true } := by
      unfold State.doLoanRequest
      simp [asked, unanswered, granting, runs, fits]
    rw [moved]
    exact ⟨Alloc.allot_move_same .., Alloc.allot_move_peer _ _ hd, Alloc.inForce_move .., by simp⟩
  · have kept : s.doLoanRequest d = s.setGov (1 - d) { s.gov (1 - d) with loanAnswer := some false } := by
      unfold State.doLoanRequest
      rcases refused with halted | stopped | short
      · simp [asked, unanswered, halted]
      · simp [asked, unanswered, stopped]
      · simp [asked, unanswered, Int.not_le.2 short]
    rw [kept]
    exact ⟨rfl, by simp⟩
  · exact congrArg Host.Outcome.next (State.doLoanReply_some refused)
  · refine ⟨_, congrArg Host.Outcome.next (State.doLoanReply_some granted), ?_⟩
    have served : (s.endLoan d).serveDie d = (s.endLoan d).grant d (a.looked false) [] :=
      State.serveDie_grants_one (grants.granting.setGov d _) (by simp [queue]) free (by simpa using fits)
    rw [if_pos rfl, served]
    simp [Ask.looked]
  · exact congrArg Host.Outcome.next (by unfold State.doLoanReply; simp only [none])
  · have waits : s.serveDie d = _ := State.serveLoop_waits _ grants.granting queue free short
    refine ⟨_, congrArg Host.Outcome.next waits, ?_⟩
    simp [State.loanWanted, noLoan, peerRuns, queue, Ask.looked]
  · refine ⟨_, congrArg Host.Outcome.next (State.serveDie_grants_one grants.granting queue free fits), ?_⟩
    simp [Ask.looked]
  · exact congrArg Host.Outcome.next (State.serveLoop_nil _ queue)

/-! ### Returned permits (R34) -/

theorem State.held_eq_sum (s : State) (d : Nat) : s.held d = ((s.gov d).held.map fun p => s.permitSize p.cls).sum := by
  unfold State.held
  rw [List.sum_eq_foldl, List.foldl_map]

/-- One copy fewer of a held permit takes its size from held(d). -/
theorem State.held_erase {s t : State} {d : Nat} {p : Permit} (hp : p ∈ (s.gov d).held)
    (ht : (t.gov d).held = (s.gov d).held.erase p) (hs : ∀ c, t.permitSize c = s.permitSize c) :
    t.held d + s.permitSize p.cls = s.held d := by
  simp only [State.held_eq_sum, ht, hs]
  have swap := ((List.perm_cons_erase hp).map fun p => s.permitSize p.cls).sum_nat
  simp only [List.map_cons, List.sum_cons] at swap
  omega

/-- The state in which the one permit on its way back has left held(d), before any request is looked at again. -/
def State.takeBack (s : State) (d : Nat) (p : Permit) : State :=
  let u := s.setHeld d ((s.gov d).held.erase p)
  u.setGov d { u.gov d with returns := [] }

section TakeBack

variable (s : State) (d : Nat) (p : Permit)

@[simp] theorem State.held_gov_takeBack : ((s.takeBack d p).gov d).held = (s.gov d).held.erase p := by
  simp [State.takeBack, State.setHeld]
@[simp] theorem State.queue_gov_takeBack : ((s.takeBack d p).gov d).queue = (s.gov d).queue := by
  simp [State.takeBack, State.setHeld]
@[simp] theorem State.returns_gov_takeBack : ((s.takeBack d p).gov d).returns = [] := by
  simp [State.takeBack]
theorem State.floor_gov_takeBack : ((s.takeBack d p).gov d).floor = (s.gov d).floor := by
  simp [State.takeBack, State.setHeld]

theorem State.gov_takeBack_peer (hd : d < 2) : (s.takeBack d p).gov (1 - d) = s.gov (1 - d) :=
  (State.gov_setGov_peer _ _ hd).trans (State.gov_setGov_peer _ _ hd)

theorem State.headroom_takeBack {p : Permit} (hp : p ∈ (s.gov d).held) :
    (s.takeBack d p).headroom d = s.headroom d + s.permitSize p.cls := by
  have held := State.held_erase hp (s.held_gov_takeBack d p) fun _ => rfl
  have guard : (s.takeBack d p).guard = s.guard := rfl
  have alloc : (s.takeBack d p).alloc = s.alloc := rfl
  unfold State.headroom
  rw [guard, alloc, State.floor_gov_takeBack]
  omega

variable {s d p}

theorem State.doPermitReturn_one (h : (s.gov d).returns = [p]) :
    s.doPermitReturn d 1 = ((s.takeBack d p).serveDie d).serveDie (1 - d) := by
  unfold State.doPermitReturn
  simp only [h]
  rfl

end TakeBack

theorem State.serveDie_nil {s : State} {d : Nat} (h : (s.gov d).queue = []) : s.serveDie d = s := State.serveLoop_nil _ h

/-- Settles O14. -/
theorem returnedPermitsLeaveHeld : Obligations.ReturnedPermitsLeaveHeld := by
  refine ⟨fun s d p hd back held queue peer => ?_, fun s d p a grants back held queue peer free fits => ?_⟩
  · have peer' : ((s.takeBack d p).gov (1 - d)).queue = [] := by rw [s.gov_takeBack_peer d p hd, peer]
    have left : s.doPermitReturn d 1 = s.takeBack d p := by
      rw [State.doPermitReturn_one back, State.serveDie_nil (d := d) (by simp [queue]), State.serveDie_nil peer']
    refine ⟨_, congrArg Host.Outcome.next left, State.held_erase held (by simp) fun _ => rfl, by simp, by simp,
      s.gov_takeBack_peer d p hd, rfl, rfl⟩
  · have hd : d < 2 := grants.1
    have granted : (s.takeBack d p).serveDie d = (s.takeBack d p).grant d (a.looked false) [] :=
      State.serveDie_grants_one grants.granting (by simp [queue]) free (by rw [State.headroom_takeBack s d held]; exact fits)
    have peer' : (((s.takeBack d p).grant d (a.looked false) []).gov (1 - d)).queue = [] := by
      rw [State.gov_grant_peer _ _ _ _ hd, s.gov_takeBack_peer d p hd, peer]
    refine ⟨_, congrArg Host.Outcome.next (State.doPermitReturn_one back), ?_⟩
    rw [granted, State.serveDie_nil peer']
    simp [Ask.looked]

/-! ### Window ends (R28) -/

/-- A state whose present window begins later than now, with one permit held on die 0: no run reaches it. -/
def State.windowAhead : State :=
  { State.reset with
    regs := [(dkey 0x2100 1, 1)]
    pow := { Power.init with gov := { Power.init.gov with d0 := { Governor.init with held := [⟨.mxe, .csq 0⟩], windowStart := 1 } } } }

/-- A window end with a rail power of 10 W on die 0 and nothing else read. -/
def tenWatts : WindowEnd :=
  { rail0 := 10000000, rail1 := 0, junction0 := 0, junction1 := 0, sensor0 := 0, sensor1 := 0, cases := [], volt := 0, amp := 0,
    inlet := 0, outlet := 0 }

/-- No cycle lies between now and a later start of the window, so the window end takes held(0), 6 W, as its mean, where the
statement divides by the length 0 and takes a mean of 0. -/
theorem State.floor_windowAhead : ((State.windowAhead.doWindowEnd tenWatts).gov 0).floor = 4000000 := by
  decide

/-- Refutes O15: a window that begins later than now has no cycles, and the floor is then the rail power less held(d) itself. -/
theorem not_windowEndsAndSamples : ¬ Obligations.WindowEndsAndSamples := by
  rintro ⟨-, -, -, -, -, windowEnd⟩
  obtain ⟨t, ran, floor, -⟩ := windowEnd State.windowAhead tenWatts rfl rfl rfl
  have same : State.windowAhead.doWindowEnd tenWatts = t := Host.Outcome.next.inj ran
  have claimed := floor (by decide)
  rw [← same, State.floor_windowAhead] at claimed
  exact absurd claimed (by decide)

end Sys2Proof.Machine
end

section
/-! Proofs of chapter 05. -/

set_option Elab.async false

namespace Sys2Proof.Machine

/-- A handle entry whose count of random uses is at its greatest and whose other fields are 0: row 0 of the cistern. -/
def lastCount : Rec := BitVec.ofNat 256 ((2 ^ 48 - 1) * 2 ^ 104)

/-- A handle entry of one row, at row 1 of the cistern. -/
def rowOne : Rec := 1

/-- A core whose handle table lists handle 0 twice, which no operation leaves: with lastCount, whose count the end of the segment
raises to 0, and behind it with rowOne. The record of segment 0, in row 0, has neither a sync nor a weir point and names segment 5. -/
def Core.twiceListed : Core :=
  { Core.init with
    handles := [(0, lastCount), (0, rowOne)]
    tags := [(0, 1)]
    rows := [(0, BitVec.ofNat 4096 (5 * 2 ^ 144 + 0xFFFF * 2 ^ 112))]
    csq := { Csq.init with phase := .run, uses := [0] } }

/-- Core 0 at the end of segment 0. -/
def State.twiceListed : State := { State.reset with cores := [(0, Core.twiceListed)] }

/-- The raised count is the default of the handle table: the first listing goes, and the record is read from row 1, which reads 0
and so has a weir point. -/
theorem State.segmentEnd_twiceListed :
    (((State.twiceListed.segmentEnd 0).settleOps).core 0).csq.phase = .sync := by
  decide +kernel

/-- Refutes O17: with a handle listed twice, raising its count of random uses at the end of a segment may bring up the second
listing, and the segment's record is then read elsewhere. -/
theorem not_segmentsStartAndEndAsTheirRecordsSay : ¬ Obligations.SegmentsStartAndEndAsTheirRecordsSay := by
  rintro ⟨-, -, -, segmentEnd, -⟩
  obtain ⟨-, ends⟩ := segmentEnd State.twiceListed 0 rfl (by decide +kernel) (by decide +kernel) (by decide +kernel) rfl
  obtain ⟨t, ran, hold, -⟩ := (ends (fun l h => nomatch h) rfl rfl).2 (by decide +kernel) (by decide +kernel) (by decide +kernel)
  have same : (State.twiceListed.segmentEnd 0).settleOps = t := Host.Outcome.next.inj ran
  rw [← same, State.segmentEnd_twiceListed] at hold
  cases hold

end Sys2Proof.Machine
end

section
/-! Proofs of chapter 04: the threads of the GXE (R142 to R144, R258, R272). -/

set_option Elab.async false

namespace Sys2Proof.Machine

/-- The thread last put into a core is in its list, whatever the list of cores held: a core with a thread is listed. -/
theorem State.threads_putThread (s : State) (p : Nat) (t : Thread) :
    ((s.putThread p t).core p).threads = ((s.busyTick p).core p).threads.filter (fun x => x.id ≠ t.id) ++ [t] := by
  unfold State.putThread
  rw [State.core_modCore_same]
  intro h
  exact List.concat_ne_nil _ _ (congrArg Core.threads h)

theorem State.mem_putThread (s : State) (p : Nat) (t : Thread) : t ∈ ((s.putThread p t).core p).threads := by
  rw [State.threads_putThread]
  simp

/-- SCATTER_ACK of an addition on this module ends its thread. -/
theorem execScatterAck_local {s : State} {p k : Nat} {t : Thread} {g : GxeCmd} (up : Upsets) (found : (s.core p).thread? k = some (t, g))
    (kind : gxKind g.desc = 1) (order : t.st = .order) (here : ∀ m a, t.src ≠ .remote m a) :
    execScatterAck p k up s = .next ((((if t.flags = 0 then s else s.modCore p fun c => c.orFlags (gxData g.desc)
      (withSource t.flags flagSrcGxe)).dropThread p t.id).gxeFinish p g.id).gxeTurn p up) := by
  have done : s.scatterDone p k t.flags up = (((if t.flags = 0 then s else s.modCore p fun c => c.orFlags (gxData g.desc)
      (withSource t.flags flagSrcGxe)).dropThread p t.id).gxeFinish p g.id).gxeTurn p up := by
    unfold State.scatterDone
    simp only [found]
  unfold execScatterAck
  simp only [found]
  cases src : t.src with
  | remote m a => exact absurd src (here m a)
  | _ => simp [kind, order, done]

/-- An addition whose sum is new and finds room is made at once (R272). -/
theorem State.addGradient_room {u : State} {die grp t r : Nat} {d : Desc} (room : u.RoomForSum die grp t r d) (core tok was : Nat) (bs : List Byte) :
    ∃ v, u.addGradient die grp 0 t r d core tok bs was = (v, .done (gradSum d bs).flags) := by
  obtain ⟨fresh, limits, begins, area, quota⟩ := room
  have absent : (u.sl.accums.get die).find? (fun a => a.grp = grp && a.job = 0 && a.table = t && a.row = r) = none := by
    rw [List.find?_eq_none]
    intro a ha
    have := fresh a ha
    simp
    grind
  have single : ((u.sl.accums.get die).any fun a => a.grp = grp && a.table = t && a.row = r) = false := by
    rw [List.any_eq_false]
    intro a ha
    have := fresh a ha
    simp
    grind
  unfold State.addGradient
  simp only [absent, single]
  have free : ¬(2 ^ 20 * u.reg 0x6000 3 < u.updateUsed die + accSize d) := Nat.not_lt.2 area
  simp only [if_neg free]
  simp [limits, begins, quota]

/-- SCATTER_SEND of a row whose home is this module and whose sum finds room: its thread waits in order. -/
theorem State.sendThread_room {s u : State} {p grp : Nat} {t : Thread} {g : GxeCmd} {b : Job} (job : g.job.bind s.job? = some b)
    (home : tdHome g.table = s.me) (group : s.jobGroup b.id (gxSluice g.desc) (s.jobDie b.id) (some g.part) = (u, grp))
    (room : u.RoomForSum (u.homeDie g.table t.idx) grp (gxTable g.desc) t.idx g.table) :
    ∃ v : State, s.sendThread p g t = v.putThread p { t with st := .order, flags := (gradSum g.table t.data).flags } := by
  obtain ⟨v, added⟩ := State.addGradient_room room p g.tok t.wait t.data
  refine ⟨v, ?_⟩
  unfold State.sendThread
  simp only [job, home, group, added]
  simp

/-- The attempt of SCATTER_SEND_RESUME on one thread. -/
def State.trySend (s : State) (p : Nat) (t : Thread) : Option State :=
  if t.st ≠ .send then none
  else match (s.core p).gxe.find? fun g => g.id = t.cmd with
    | none => none
    | some g => if ((s.sendThread p g t).core p).threads.any fun x => x.id = t.id && x.st = .send then none else some (s.sendThread p g t)

theorem execScatterSendResume_eq (s : State) (p : Nat) :
    execScatterSendResume p s = .next (((s.core p).threads.findSome? (s.trySend p)).getD s) := rfl

theorem State.trySend_none {s : State} {p : Nat} {t : Thread} (h : t.st ≠ .send) : s.trySend p t = none := if_pos h

/-- Settles O20. -/
theorem gatherThreadsGoOn : Obligations.GatherThreadsGoOn := by
  refine ⟨fun s p k a up ue t g found fetch src => ?_, fun s p g t l => State.mem_putThread _ p _,
    fun s p k up t g found kind order here => ?_, fun s u p grp t l₁ l₂ g b list before send cmd job home group room => ?_,
    fun s p idle => ?_, fun s p k up ue => ⟨fun absent => ?_, fun t g found => ⟨fun other => ?_, fun other => ?_⟩⟩⟩
  · refine congrArg Host.Outcome.next ?_
    simp only [found, fetch, src]
    rfl
  · have acked := execScatterAck_local up found kind order here
    exact ⟨fun none => acked.trans (by rw [if_pos none]), fun some => acked.trans (by rw [if_neg some])⟩
  · obtain ⟨v, sent⟩ := State.sendThread_room (p := p) job home group room
    have gone : ((s.sendThread p g t).core p).threads.any (fun x => x.id = t.id && x.st = .send) = false := by
      rw [sent, State.threads_putThread, List.any_append, List.any_filter]
      simp +contextual
    have tried : s.trySend p t = some (s.sendThread p g t) := by
      unfold State.trySend
      simp only [send, cmd, gone]
      simp
    refine ⟨?_, by rw [sent]; exact State.mem_putThread ..⟩
    rw [show exec (.scatterSendResume p) s = execScatterSendResume p s from rfl, execScatterSendResume_eq, list, List.findSome?_append,
      List.findSome?_eq_none_iff.2 fun x hx => State.trySend_none (before x hx), List.findSome?_cons, tried]
    rfl
  · rw [show exec (.scatterSendResume p) s = execScatterSendResume p s from rfl, execScatterSendResume_eq,
      List.findSome?_eq_none_iff.2 fun x hx => State.trySend_none (idle x hx)]
    rfl
  · constructor
    · exact congrArg Host.Outcome.next (by simp only [absent])
    · exact congrArg Host.Outcome.next (by simp only [absent])
  · refine congrArg Host.Outcome.next ?_
    simp only [found]
    split
    · rename_i a fetch src
      rcases other with notFetch | notMem
      · exact absurd fetch notFetch
      · exact absurd src (notMem a)
    · rfl
  · refine congrArg Host.Outcome.next ?_
    simp only [found]
    split
    · rfl
    · rename_i here
      rcases other with notScatter | notOrder | ⟨m, a, remote⟩
      · simp [notScatter]
      · simp [notOrder]
      · exact absurd remote (here m a)

end Sys2Proof.Machine
end

section
/-! Groups that stage nothing in the write sets, and the accesses of the dictionary that they carry (R284, R285, R287, R303, R316). -/

set_option Elab.async false

namespace Sys2Proof.Machine

/-! ### Numbers of groups -/

theorem lt_foldl_max_succ (l : List Nat) (n : Nat) :
    n ≤ l.foldl (fun n g => max n (g + 1)) n ∧ ∀ i ∈ l, i < l.foldl (fun n g => max n (g + 1)) n := by
  induction l generalizing n with
  | nil => simp
  | cons a l ih =>
    obtain ⟨low, all⟩ := ih (max n (a + 1))
    refine ⟨by simp only [List.foldl_cons]; omega, fun i hi => ?_⟩
    rcases List.mem_cons.mp hi with rfl | hi
    · simp only [List.foldl_cons]; omega
    · exact all i hi

/-- Nothing of the sluice controllers carries the number of a new group. -/
theorem State.newGroup_fresh (s : State) : s.newGroup ∉ s.sl.groupIds :=
  fun h => Nat.lt_irrefl _ ((lt_foldl_max_succ s.sl.groupIds s.sl.nextGroup).2 _ h)

/-- A group stages nothing: no version, block, accumulator, window or row lock is its own. -/
structure Sluice.Bare (x : Sluice) (g : Nat) : Prop where
  versions0 : ∀ v ∈ x.versions.d0, v.grp ≠ g
  versions1 : ∀ v ∈ x.versions.d1, v.grp ≠ g
  blocks0 : ∀ b ∈ x.blocks.d0, b.grp ≠ g
  blocks1 : ∀ b ∈ x.blocks.d1, b.grp ≠ g
  waits : ∀ w ∈ x.waits.d0 ++ x.waits.d1, (∀ v ∈ w.versions, v.2.grp ≠ g) ∧ ∀ b ∈ w.blocks, b.2.grp ≠ g
  accums0 : ∀ a ∈ x.accums.d0, a.grp ≠ g
  accums1 : ∀ a ∈ x.accums.d1, a.grp ≠ g
  applies : ∀ a ∈ x.applies, a.grp ≠ g
  locks : ∀ l ∈ x.locks, l.2.2 ≠ g

theorem Sluice.bare_of_not_mem {x : Sluice} {g : Nat} (h : g ∉ x.groupIds) : x.Bare g ∧ ∀ y ∈ x.groups, y.id ≠ g := by
  simp only [Sluice.groupIds, List.mem_append, List.mem_map, List.mem_flatMap, not_or, not_exists, not_and] at h
  refine ⟨⟨?_, ?_, ?_, ?_, ?_, ?_, ?_, ?_, ?_⟩, ?_⟩ <;> grind

namespace Sluice.Bare

variable {s : State} {g : Nat} (h : s.sl.Bare g)
include h

theorem versionsOf : s.versionsOf g = [] := by
  simp only [State.versionsOf, List.filter_eq_nil_iff, List.mem_append, List.mem_map, List.mem_flatMap]
  have := h.versions0; have := h.versions1; have := h.waits
  grind

theorem blocksOf : s.blocksOf g = [] := by
  simp only [State.blocksOf, List.filter_eq_nil_iff, List.mem_append, List.mem_map, List.mem_flatMap]
  have := h.blocks0; have := h.blocks1; have := h.waits
  grind

theorem accumsOf : s.accumsOf g = [] := by
  simp only [State.accumsOf, List.filter_eq_nil_iff, List.mem_append, List.mem_map]
  have := h.accums0; have := h.accums1
  grind

theorem spread : s.spread g = s := by
  unfold State.spread
  rw [h.versionsOf]
  rfl

end Sluice.Bare

theorem lastVersions_of_other {g : Nat} {l : List Version} (h : ∀ v ∈ l, v.grp ≠ g) : lastVersions g l = l := by
  induction l with
  | nil => rfl
  | cons v l ih =>
    obtain ⟨first, rest⟩ := List.forall_mem_cons.mp h
    rw [lastVersions, ih rest, if_neg (by simp [first])]

/-- Dictionary entries of a group. -/
def Item.isDict : Item → Bool
  | .dict _ _ _ _ _ => true
  | _ => false

theorem State.takeItem_dict {s : State} {m : Nat} {i : Item} (h : i.isDict = true) : s.takeItem m i = s := by
  cases i <;> simp_all [Item.isDict, State.takeItem, Item.below, State.applyItem]

theorem State.takeItems_dict {m : Nat} {l : List Item} (h : ∀ i ∈ l, i.isDict = true) (s : State) :
    l.foldl (fun s i => s.takeItem m i) s = s := by
  induction l generalizing s with
  | nil => rfl
  | cons i l ih =>
    obtain ⟨first, rest⟩ := List.forall_mem_cons.mp h
    rw [List.foldl_cons, State.takeItem_dict first, ih rest]

/-- A mark is assigned and published on die 0, and the group g is no more (R284, R285). -/
def State.markedAt (s : State) (g : Nat) : State :=
  { s with sl := { s.sl with lastMark := (s.sl.lastMark + 1) % 2 ^ 48, p := { s.sl.p with d0 := (s.sl.lastMark + 1) % 2 ^ 48 },
                             groups := s.sl.groups.filter fun y => y.id ≠ g } }

/-- A group that stages nothing opens: its items take effect at the mark, and it is counted (R285, R319). -/
theorem State.openGroup_bare {s : State} {x : Group} (bare : s.sl.Bare x.id) (runs : s.top.stopped.d0 = false) (alone : x.after = none) :
    s.openGroup x = (((x.items.foldl (fun u i => u.takeItem ((s.sl.lastMark + 1) % 2 ^ 48) i) (s.markedAt x.id)).unlock x.id).countOpened
      x.part |>.rearm 0).rearm 1 := by
  have keeper : s.keeper = 0 := by simp [State.keeper, Two.get, runs]
  have dropped (l : List Version) (h : ∀ v ∈ l, v.grp ≠ x.id) : (l.filter fun v => !(v.grp = x.id && v.mark.isNone)) = l :=
    List.filter_eq_self.mpr fun v hv => by simp [h v hv]
  have freed (l : List Version) (h : ∀ v ∈ l, v.grp ≠ x.id) :
      (l.map fun v => if v.grp = x.id && v.mark.isNone then { v with span := none } else v) = l :=
    (List.map_congr_left fun v hv => if_neg (by simp [h v hv])).trans (List.map_id l)
  have tagged (l : List Version) (h : ∀ v ∈ l, v.grp ≠ x.id) (f : Version → Version) :
      ((lastVersions x.id (l.map fun v => if v.grp = x.id && v.mark.isNone then { v with span := none } else v)).map fun v =>
        if v.grp = x.id && v.mark.isNone then f v else v) = l := by
    rw [freed l h, lastVersions_of_other h]
    exact (List.map_congr_left fun v hv => if_neg (by simp [h v hv])).trans (List.map_id l)
  have others {α : Type} (f : α → Nat) (l : List α) (h : ∀ b ∈ l, f b ≠ x.id) : (l.filter fun b => f b ≠ x.id) = l :=
    List.filter_eq_self.mpr fun b hb => by simp [h b hb]
  have none' (l : List Block) (h : ∀ b ∈ l, b.grp ≠ x.id) : (l.filter fun b => b.grp = x.id) = [] :=
    List.filter_eq_nil_iff.mpr fun b hb => by simp [h b hb]
  unfold State.openGroup
  simp only [bare.spread, State.takeMark, keeper, alone]
  simp only [tagged _ bare.versions0, tagged _ bare.versions1, dropped _ bare.versions0, dropped _ bare.versions1, runs,
    others Accum.grp _ bare.accums0, others Accum.grp _ bare.accums1, others Apply.grp _ bare.applies, others Block.grp _ bare.blocks0,
    others Block.grp _ bare.blocks1, List.filter_append]
  have gone : ((if s.top.stopped.d1 then [] else s.sl.blocks.d1).filter fun b => b.grp = x.id) = [] := by
    split
    · rfl
    · exact none' _ bare.blocks1
  simp only [gone, ite_self, List.append_nil, Bool.false_eq_true, if_false]
  rw [none' _ bare.blocks0]
  simp only [List.foldl_nil, Two.set, if_pos, State.markedAt]

/-- Row writes and bytes of items that hold one each are their number and the sum of the bytes. -/
theorem State.groupCost_bare {s : State} {x : Group} (bare : s.sl.Bare x.id) (found : s.group? x.id = some x) :
    s.groupCost x.id = (itemCosts x.items).foldl (fun a c => (a.1 + c.1, a.2 + c.2)) (0, 0) := by
  unfold State.groupCost
  simp [bare.versionsOf, bare.blocksOf, bare.accumsOf, found, distinctRows, List.eraseDups]

theorem State.partsOf_bare {s : State} {x : Group} (bare : s.sl.Bare x.id) (dict : ∀ i ∈ x.items, i.isDict = true) :
    (s.partsOf x).contains 1 = false := by
  unfold State.partsOf
  simp only [bare.versionsOf, bare.blocksOf, bare.accumsOf, List.map_nil, List.nil_append, List.contains_eq_mem, List.mem_filter,
    List.mem_eraseDups, List.mem_flatMap, decide_eq_false_iff_not, not_and]
  rintro ⟨i, hi, at1⟩
  have := dict i hi
  cases i <;> simp_all [Item.isDict]

/-- A group that has begun and carries dictionary entries alone opens when it is decided, where a mark is to be had (R287, R303). -/
theorem State.decideGroup_dict {s : State} {x : Group} (bare : s.sl.Bare x.id) (found : s.group? x.id = some x)
    (good : x.failed = false) (whole : x.lost = false) (alone : x.after = none) (dict : ∀ i ∈ x.items, i.isDict = true)
    (die : x.die = 0) (begun : x.phase ≠ .queued) (room : s.mustQueue x = false) (runs : s.top.stopped.d0 = false)
    (marks : s.stalled (s.sl.lastMark + 1) = false) :
    s.decideGroup x.id = (((s.markedAt x.id).countOpened x.part).rearm 0).rearm 1 := by
  have keeper : s.keeper = 0 := by simp [State.keeper, Two.get, runs]
  have one : s.twoDie x = false := (congrArg (_ && ·) (State.partsOf_bare bare dict)).trans (Bool.and_false _)
  have free : (s.markedAt x.id).unlock x.id = s.markedAt x.id := by
    have : (s.sl.locks.filter fun l => l.2.2 ≠ x.id) = s.sl.locks :=
      List.filter_eq_self.mpr fun l hl => by simp [bare.locks l hl]
    simp only [State.unlock, State.markedAt, this]
  unfold State.decideGroup State.markGroup State.askMarks
  simp only [found, good, whole, die, Two.get, runs, room, one, keeper]
  simp [begun, marks, State.openGroup_bare bare runs alone, State.takeItems_dict dict, free]

/-- s with a further group. -/
def State.addGroup (s : State) (x : Group) : State :=
  { s with sl := { s.sl with nextGroup := x.id + 1, groups := s.sl.groups ++ [x] } }

/-- The group of an access of the dictionary, with its items (R316). -/
def Group.access (g acc : Nat) (items : List Item) : Group :=
  { id := g, issuer := .dict acc, die := 0, part := accPart acc, items := items, failed := false, lost := false, phase := .begun,
    stalled := false, after := none, locks := [] }

section AddGroup

variable {s : State} {x : Group} (fresh : x.id ∉ s.sl.groupIds)
include fresh

theorem State.addGroup_bare : (s.addGroup x).sl.Bare x.id := by
  obtain ⟨bare, -⟩ := Sluice.bare_of_not_mem fresh
  exact ⟨bare.versions0, bare.versions1, bare.blocks0, bare.blocks1, bare.waits, bare.accums0, bare.accums1, bare.applies, bare.locks⟩

theorem State.group?_addGroup : (s.addGroup x).group? x.id = some x := by
  have others := (Sluice.bare_of_not_mem fresh).2
  have none' : s.sl.groups.find? (fun y => y.id = x.id) = none :=
    List.find?_eq_none.mpr fun y hy => by simp [others y hy]
  simp [State.group?, State.addGroup, List.find?_append, none']

theorem State.modGroup_addGroup (f : Group → Group) (same : (f x).id = x.id) : (s.addGroup x).modGroup x.id f = s.addGroup (f x) := by
  have others := (Sluice.bare_of_not_mem fresh).2
  have kept : (s.sl.groups.map fun y => if y.id = x.id then f y else y) = s.sl.groups :=
    (List.map_congr_left fun y hy => if_neg (others y hy)).trans (List.map_id _)
  simp [State.modGroup, State.addGroup, kept, same]

theorem State.markedAt_addGroup : (s.addGroup x).markedAt x.id =
    { s with sl := { s.sl with nextGroup := x.id + 1, lastMark := (s.sl.lastMark + 1) % 2 ^ 48,
                               p := { s.sl.p with d0 := (s.sl.lastMark + 1) % 2 ^ 48 } } } := by
  have others := (Sluice.bare_of_not_mem fresh).2
  have kept : (s.sl.groups.filter fun y => y.id ≠ x.id) = s.sl.groups :=
    List.filter_eq_self.mpr fun y hy => by simp [others y hy]
  simp only [State.markedAt, State.addGroup, List.filter_append, kept]
  simp

theorem State.undecided_addGroup_le (d : Nat) : (s.addGroup x).undecided d ≤ s.undecided d + 1 := by
  have others := (Sluice.bare_of_not_mem fresh).2
  have same : (s.sl.groups.filter fun y => y.die = d && (s.addGroup x).begun y.id) = s.sl.groups.filter fun y => y.die = d && s.begun y.id := by
    refine List.filter_congr fun y hy => ?_
    have found : (s.addGroup x).group? y.id = s.group? y.id := by
      obtain ⟨z, hz⟩ : ∃ z, s.sl.groups.find? (fun z => z.id = y.id) = some z :=
        Option.isSome_iff_exists.mp (List.find?_isSome.mpr ⟨y, hy, by simp⟩)
      simp [State.group?, State.addGroup, List.find?_append, hz]
    simp only [State.begun, found]
    rfl
  unfold State.undecided
  have parts : (s.addGroup x).sl.groups = s.sl.groups ++ [x] := rfl
  rw [parts, List.filter_append, List.length_append, same]
  have := List.length_filter_le (fun y => y.die = d && (s.addGroup x).begun y.id) [x]
  simp only [List.length_singleton] at this
  omega

end AddGroup

theorem State.beginGroup_access (s : State) (acc : Nat) :
    s.beginGroup (.dict acc) 0 (accPart acc) = (s.addGroup (Group.access s.newGroup acc []), s.newGroup) := rfl

/-- An item joins the new group of an access, where it is within the limits (R291). -/
theorem State.addItem_access {s : State} {acc g : Nat} (fresh : g ∉ s.sl.groupIds) {i : Item} (rows : i.cost.1 ≤ 65536)
    (bytes : i.cost.2 ≤ 2 ^ 22) :
    (s.addGroup (Group.access g acc [])).addItem g i = s.addGroup (Group.access g acc [i]) := by
  have found : (s.addGroup (Group.access g acc [])).group? g = some (Group.access g acc []) :=
    State.group?_addGroup (x := Group.access g acc []) fresh
  have cost : (s.addGroup (Group.access g acc [])).groupCost g = (0, 0) :=
    State.groupCost_bare (x := Group.access g acc []) (State.addGroup_bare fresh) found
  have ok : (s.addGroup (Group.access g acc [])).fits g i.cost.1 i.cost.2 = true := by
    unfold State.fits
    simp only [found, cost]
    simpa [Group.access, rows] using bytes
  unfold State.addItem
  simp only [found]
  refine (if_pos ok).trans ?_
  exact State.modGroup_addGroup (x := Group.access g acc []) fresh _ rfl

/-- The group of a single item of an access. -/
theorem State.dictGroup_one {s : State} {acc : Nat} {i : Item} (rows : i.cost.1 ≤ 65536) (bytes : i.cost.2 ≤ 2 ^ 22) :
    s.dictGroup acc [i] = (s.addGroup (Group.access s.newGroup acc [i]), s.newGroup) := by
  unfold State.dictGroup
  rw [State.beginGroup_access]
  exact congrArg (·, s.newGroup) (State.addItem_access s.newGroup_fresh rows bytes)

theorem State.mustQueue_access {s : State} {acc : Nat} {l : List Item} (room : s.groupRoom 0 = true) :
    (s.addGroup (Group.access s.newGroup acc l)).mustQueue (Group.access s.newGroup acc l) = false := by
  have few := State.undecided_addGroup_le (x := Group.access s.newGroup acc l) s.newGroup_fresh 0
  have some' : s.undecided 0 < 4096 := of_decide_eq_true room
  refine Bool.and_eq_false_imp.mpr fun _ => decide_eq_false ?_
  exact Nat.not_lt.mpr (Nat.le_trans few some')

/-- The group of an access that carries dictionary entries alone opens at once (R303, R316). -/
theorem State.decideGroup_access {s : State} {acc : Nat} {l : List Item} (dict : ∀ i ∈ l, i.isDict = true) (room : s.groupRoom 0 = true)
    (runs : s.top.stopped.d0 = false) (marks : s.stalled (s.sl.lastMark + 1) = false) :
    (s.addGroup (Group.access s.newGroup acc l)).decideGroup s.newGroup = s.marked acc := by
  have opened := State.decideGroup_dict (s := s.addGroup (Group.access s.newGroup acc l)) (x := Group.access s.newGroup acc l)
    (State.addGroup_bare s.newGroup_fresh) (State.group?_addGroup s.newGroup_fresh) rfl rfl rfl dict rfl (by simp [Group.access])
    (State.mustQueue_access room) runs marks
  have at' : (s.addGroup (Group.access s.newGroup acc l)).markedAt s.newGroup = _ :=
    State.markedAt_addGroup (x := Group.access s.newGroup acc l) s.newGroup_fresh
  refine opened.trans ?_
  show ((((s.addGroup _).markedAt s.newGroup).countOpened (accPart acc)).rearm 0).rearm 1 = _
  rw [at']
  rfl

@[simp] theorem State.countOpened_sl (s : State) (p : Option Nat) : (s.countOpened p).sl = s.sl := by
  cases p <;> rfl

theorem State.rearm_groups (s : State) (d : Nat) : (s.rearm d).sl.groups = s.sl.groups := by
  unfold State.rearm
  split <;> rfl

theorem State.rearm_dicts (s : State) (d : Nat) : (s.rearm d).sl.dicts = s.sl.dicts := by
  unfold State.rearm
  split <;> rfl

@[simp] theorem State.marked_groups (s : State) (acc : Nat) : (s.marked acc).sl.groups = s.sl.groups := by
  simp [State.marked, State.rearm_groups]

@[simp] theorem State.marked_sluiceOpen (s : State) (acc a : Nat) : (s.marked acc).sluiceOpen a = s.sluiceOpen a := by
  simp [State.sluiceOpen, State.marked, State.rearm_dicts]

theorem State.storeEntry_sl (s : State) (acc idx sub offset : Nat) (bytes : List Byte) :
    (s.storeEntry acc idx sub offset bytes).sl = s.sl :=
  (Keeps.storeEntry (Keeps.refl s) (Sub.refl _)).frame .sl rfl

/-- The route table has one entry. -/
theorem dictFind_routes {sub : Nat} {r : DictRow} (found : dictFind 0x8040 sub = some r) : sub = 1 := by
  have table : dictRows.all (fun r => !(r.lo ≤ 0x8040 && 0x8040 ≤ r.hi) || (r.slo = 1 && r.shi = 1)) = true := by decide +kernel
  have row := List.all_eq_true.mp table r (List.mem_of_find?_eq_some found)
  have at' := List.find?_some found
  simp_all
  omega

/-- An entry without an action of its own is neither a route nor a trunk. -/
theorem routesOpened_noAction {acc idx sub offset : Nat} {bytes : List Byte} {r : DictRow} (found : dictFind idx sub = some r)
    (plain : hasAction idx sub = false) (s old : State) : s.routesOpened old [.dict acc idx sub offset bytes] = s := by
  have notTrunk : idx ≠ 0x8030 := by
    rintro rfl
    simp [hasAction] at plain
  have notRoute : idx ≠ 0x8040 := by
    rintro rfl
    obtain rfl := dictFind_routes found
    simp [hasAction] at plain
  simp [State.routesOpened, Item.trunk?, Item.routes, notTrunk, notRoute]

/-- What a group of one entry does at its mark, with the write's environment (R318, R377). -/
def State.written (s : State) (acc idx sub offset : Nat) (bytes : List Byte) (e : Env) : State :=
  if hasAction idx sub then (s.act acc idx sub offset bytes e).routesOpened s [.dict acc idx sub offset bytes]
  else s.storeEntry acc idx sub offset bytes

/-- A write of an entry that is accepted takes the next mark, and takes effect at it (R303, R316, R318). -/
theorem State.writeEntry_takes {s : State} {acc idx sub offset : Nat} {bytes : List Byte} (takes : s.Takes acc idx sub offset bytes)
    (items : s.writeItems acc idx sub offset bytes = some [.dict acc idx sub offset bytes]) (e : Env) :
    s.writeEntry acc idx sub offset bytes e = ((s.marked acc).written acc idx sub offset bytes e, drDone) := by
  obtain ⟨served, idle, ⟨r, found, writable, fits, quiet⟩, right, plain, alone, size, runs, room, marks⟩ := takes
  have opened := State.decideGroup_access (acc := acc) (l := [.dict acc idx sub offset bytes]) (by simp [Item.isDict]) room runs marks
  have gone : (s.marked acc).group? s.newGroup = none := by
    have others := (Sluice.bare_of_not_mem s.newGroup_fresh).2
    simp only [State.group?, State.marked_groups]
    exact List.find?_eq_none.mpr fun y hy => by simp [others y hy]
  have decided : (s.addGroup (Group.access s.newGroup acc [.dict acc idx sub offset bytes])).decideDict acc s.newGroup e =
      ((s.marked acc).finishDict acc [.dict acc idx sub offset bytes] e, drDone) := by
    have begun : (s.addGroup (Group.access s.newGroup acc [.dict acc idx sub offset bytes])).group? s.newGroup =
        some (Group.access s.newGroup acc [.dict acc idx sub offset bytes]) := State.group?_addGroup s.newGroup_fresh
    unfold State.decideDict
    simp only [begun, opened, gone]
    rfl
  have finished : (s.marked acc).finishDict acc [.dict acc idx sub offset bytes] e = (s.marked acc).written acc idx sub offset bytes e := by
    have closed : ((s.marked acc).storeEntry acc idx sub offset bytes).sluiceOpen acc = none := by
      simp only [State.sluiceOpen, State.storeEntry_sl]
      exact (s.marked_sluiceOpen acc acc).trans alone
    unfold State.finishDict State.written
    simp only [List.foldl_cons, List.foldl_nil, State.storeItem, closed, State.actItem]
    cases action : hasAction idx sub
    · simp [routesOpened_noAction found action]
    · have kept : (s.marked acc).storeEntry acc idx sub offset bytes = s.marked acc := by
        simp [State.storeEntry, found, action]
      simp [kept]
  unfold State.writeEntry
  simp only [found, writable, right, fits, alone, items]
  have free : (decide (r.acc = .rwq) && !s.quiet idx sub) = false := by
    cases h : decide (r.acc = .rwq)
    · rfl
    · simp [quiet (of_decide_eq_true h)]
  have one := State.dictGroup_one (s := s) (acc := acc) (i := .dict acc idx sub offset bytes) (by simp [Item.cost]) size
  simp [plain, free, one, decided, finished]

/-- A write that is taken shows in its accessor's mailbox that it is done. -/
theorem State.dictWrite_takes {s : State} {acc idx sub offset : Nat} {bytes : List Byte} (takes : s.Takes acc idx sub offset bytes)
    (items : s.writeItems acc idx sub offset bytes = some [.dict acc idx sub offset bytes]) (e : Env) :
    s.dictWrite acc idx sub offset bytes e = ((s.marked acc).written acc idx sub offset bytes e).saysDone acc idx sub := by
  unfold State.dictWrite
  simp only [takes.served, takes.idle, State.writeEntry_takes takes items e]
  rfl

/-- A key that is set to a value of its own reads as it, in whatever order the keys are listed. -/
theorem SMap.get_set_listed {α : Type} [DecidableEq α] (d : α) (m : SMap α) (k : Nat) {v : α} (own : v ≠ d) :
    SMap.get d (SMap.set d m k v) k = v := by
  rw [SMap.set, if_neg own, SMap.get_insert_same]

/-- A write that is served, with no access under way, is answered with what the write of the entry gives. -/
theorem State.dictWrite_writeEntry {s t : State} {acc idx sub offset res : Nat} {bytes : List Byte} {e : Env} (served : s.served = true)
    (idle : s.dictBusy acc = false) (wrote : s.writeEntry acc idx sub offset bytes e = (t, res)) :
    s.dictWrite acc idx sub offset bytes e = t.replied acc res idx sub := by
  unfold State.dictWrite
  simp only [served, idle, wrote]
  rfl

theorem badLength_iff {n most : Nat} : badLength n most = true ↔ n = 0 ∨ most < n := by simp [badLength]

theorem badLength_eq_false {n most : Nat} (some' : 1 ≤ n) (few : n ≤ most) : badLength n most = false := by
  simp [badLength]; omega

/-- The answer to an access with a length that nothing predicts (R9, R12). -/
theorem State.answerFree_served {s : State} {acc : Nat} (served : s.served = true) (idle : s.dictBusy acc = false) :
    s.answerFree acc = s.draw.1.answer acc (s.draw.2 % 256) (s.draw.2 / 256 % 2 ^ 32) [] :=
  if_neg (by simp [served, idle])

theorem State.setMailboxRegs_write {s : State} {fn : Nat} (idle : s.dictBusy fn = false) (idx sub offset : Nat) (bytes : List Byte) :
    s.setMailboxRegs fn idx sub offset (some bytes) =
      s.setMailbox fn { s.mailbox fn with addr := 256 * idx + sub, offset := offset, data := bytes } := by
  simp [State.setMailboxRegs, idle]

/-- How an entry without an action takes bytes, by its type and its place (R441, R442). -/
theorem State.storeEntry_cases {idx sub : Nat} {r : DictRow} (found : dictFind idx sub = some r) (plain : hasAction idx sub = false)
    (s : State) (acc offset : Nat) (bytes : List Byte) :
    (r.ty.bytes = 0 → ¬(0x7010 ≤ idx ∧ idx < 0x7020 ∧ sub = 4) →
        s.storeEntry acc idx sub offset bytes = s.setBlob idx sub (r.patch (s.blob idx sub) offset bytes))
    ∧ (0x7010 ≤ idx → idx < 0x7020 → sub = 4 →
        s.storeEntry acc idx sub offset bytes = s.setBlob idx sub (keepBits windowMask (r.patch (s.blob idx sub) offset bytes)))
    ∧ (r.ty.bytes ≠ 0 → ownCopy idx sub = true → s.storeEntry acc idx sub offset bytes = s.setAreg acc idx sub (leNat bytes))
    ∧ (r.ty.bytes ≠ 0 → ownCopy idx sub = false → idx < 0xB100 →
        s.storeEntry acc idx sub offset bytes = s.setReg idx sub (leNat bytes)) := by
  have windows : 0x7010 ≤ idx → idx < 0x7020 → sub = 4 → r.ty.bytes = 0 := by
    rintro low high rfl
    have table : dictRows.all (fun r => !(r.lo ≤ 0x701F && 0x7010 ≤ r.hi && r.slo ≤ 4 && 4 ≤ r.shi) || r.ty.bytes = 0) = true := by
      decide +kernel
    have row := List.all_eq_true.mp table r (List.mem_of_find?_eq_some found)
    have at' := List.find?_some found
    simp only [Bool.and_eq_true, decide_eq_true_eq] at at'
    simp only [Bool.or_eq_true, Bool.not_eq_true', Bool.and_eq_false_imp, Bool.and_eq_true, decide_eq_true_eq, decide_eq_false_iff_not] at row
    rcases row with away | string
    · omega
    · exact string
  unfold State.storeEntry
  simp only [found, plain]
  refine ⟨fun string away => ?_, fun low high at' => ?_, fun scalar own => ?_, fun scalar shared low => ?_⟩
  · have : (0x7010 ≤ idx && idx < 0x7020 && sub = 4) = false := by simpa using away
    simp [this, string]
  · simp [low, high, at']
  · have : (0x7010 ≤ idx && idx < 0x7020 && sub = 4) = false := by simpa using fun a b c => scalar (windows a b c)
    simp [this, scalar, own]
  · have : (0x7010 ≤ idx && idx < 0x7020 && sub = 4) = false := by simpa using fun a b c => scalar (windows a b c)
    simp [this, scalar, shared, show ¬0xB100 ≤ idx by omega]

/-- Settles O21: the writes that are accepted go by the group of a single item; the other outcomes are the branches of a write. -/
theorem dictionaryWritesTakeEffectAtAMark : Obligations.DictionaryWritesTakeEffectAtAMark := by
  refine ⟨fun s acc idx sub offset bytes takes items => ⟨fun plain => ?_, fun action => ?_⟩, ?_, ?_, ?_, ?_⟩
  · refine congrArg Host.Outcome.next ((State.dictWrite_takes takes items _).trans ?_)
    simp [State.written, plain]
  · refine congrArg Host.Outcome.next ((State.dictWrite_takes takes items _).trans ?_)
    simp [State.written, action]
  · rintro s u fn idx sub offset bytes idle rfl takes items plain some' few
    unfold exec execDictCtrlWrite
    simp only [State.setMailboxRegs_write idle, badLength_eq_false some' few]
    refine congrArg Host.Outcome.next ((State.dictWrite_takes takes items _).trans ?_)
    simp [State.written, plain]
  · rintro s u fn idx sub offset bytes served idle rfl length
    have bad : badLength bytes.length 4096 = true := badLength_iff.mpr (length.imp_left fun h => by simp [h])
    unfold exec execDictCtrlWrite
    simp only [State.setMailboxRegs_write idle, bad]
    exact congrArg Host.Outcome.next (State.answerFree_served served idle)
  · intro s acc idx sub offset bytes r found plain
    exact State.storeEntry_cases found plain s acc offset bytes
  · intro s acc idx sub offset bytes
    refine ⟨fun ignored => ?_, fun served idle => ⟨fun missing => ?_, fun r found => ⟨fun refused => ?_, fun writable right =>
      ⟨fun misfit => ?_, fun fits plain => ⟨fun rwq busy alone => ?_, fun d open' => ?_⟩⟩⟩⟩⟩
    · exact congrArg Host.Outcome.next (if_pos (by rcases ignored with h | h <;> simp [h]))
    · refine congrArg Host.Outcome.next (State.dictWrite_writeEntry served idle ?_)
      simp only [State.writeEntry, missing]
    · refine congrArg Host.Outcome.next (State.dictWrite_writeEntry served idle ?_)
      simp only [State.writeEntry, found]
      exact if_pos (by rcases refused with h | h <;> simp [h])
    · refine congrArg Host.Outcome.next (State.dictWrite_writeEntry served idle ?_)
      simp [State.writeEntry, found, writable, right, misfit]
    · refine congrArg Host.Outcome.next (State.dictWrite_writeEntry served idle ?_)
      simp [State.writeEntry, found, right, fits, plain, alone, rwq, busy, show Access.rwq.writable = true from rfl]
    · refine ⟨_, congrArg Host.Outcome.next (State.dictWrite_writeEntry served idle (t := s.stageWrite acc idx sub offset bytes) (res := drStaged) ?_),
        ?_, ?_, ?_, ?_⟩
      · simp [State.writeEntry, found, writable, right, fits, plain, open']
      all_goals unfold State.replied
      · have stored : (s.stageWrite acc idx sub offset bytes).sluiceOpen acc =
            some { d with staged := d.staged ++ [(idx, sub, offset, bytes)] } := by
          simp only [State.stageWrite, open']
          exact SMap.get_set_listed _ _ _ (Option.some_ne_none _)
        split <;> exact stored
      all_goals
        simp only [State.stageWrite, open']
        split <;> rfl

end Sys2Proof.Machine
end

section
/-! Proofs of chapter 13: reads of the object dictionary (R439 to R441). -/
set_option Elab.async false
namespace Sys2Proof.Machine

theorem State.setMailboxRegs_read {s : State} {fn : Nat} (idle : s.dictBusy fn = false) (idx sub offset : Nat) :
    s.setMailboxRegs fn idx sub offset none = s.setMailbox fn { s.mailbox fn with addr := 256 * idx + sub, offset := offset } := by
  simp [State.setMailboxRegs, idle]

/-- A read of a function that is served, with no access under way, is answered with what the read of the entry gives. -/
theorem State.dictRead_readEntry {s t : State} {fn idx sub offset len : Nat} {r : ReadReply} (function : fn ≤ 16) (served : s.served = true)
    (idle : s.dictBusy fn = false) (read : s.readEntry fn idx sub offset len = (t, r)) :
    s.dictRead fn idx sub offset len = t.answer fn r.res r.size r.data := by
  unfold State.dictRead
  simp [served, idle, read, function]

theorem length_leBytes (n v : Nat) : (leBytes n v).length = n := by
  induction n generalizing v with
  | zero => rfl
  | succ n ih => simp [leBytes, ih]

/-- No entry of an account's counters clears on reading. -/
theorem counters_keep {idx sub : Nat} {r : DictRow} (found : dictFind idx sub = some r) (clears : r.acc = .rc) :
    (0x7810 ≤ idx && idx ≤ 0x7820) = false := by
  have table : dictRows.all (fun r => r.acc ≠ .rc || !(r.lo ≤ 0x7820 && 0x7810 ≤ r.hi)) = true := by decide +kernel
  have row := List.all_eq_true.mp table r (List.mem_of_find?_eq_some found)
  have at' := List.find?_some found
  simp only [Bool.and_eq_true, decide_eq_true_eq] at at'
  simp only [clears, ne_eq, not_true_eq_false, decide_false, Bool.false_or, Bool.not_eq_true', Bool.and_eq_false_imp, decide_eq_true_eq,
    decide_eq_false_iff_not] at row
  simp only [Bool.and_eq_false_imp, decide_eq_true_eq, decide_eq_false_iff_not]
  omega

theorem State.mayRead_pf (s : State) (idx sub : Nat) : s.mayRead 0 idx sub = true := rfl

/-- The value of a scalar is as long as its type. -/
theorem State.valueBytes_scalar {idx sub : Nat} {r : DictRow} (found : dictFind idx sub = some r) (scalar : r.ty.bytes ≠ 0) (s : State) (acc : Nat) :
    s.valueBytes acc idx sub = leBytes r.ty.bytes (s.shownScalar acc idx sub) := by
  simp [State.valueBytes, found, scalar]

/-- A read of a whole scalar that clears on reading: its value, and what the read leaves (R440). -/
theorem State.readEntry_rc {idx sub : Nat} {r : DictRow} (found : dictFind idx sub = some r) (clears : r.acc = .rc) (scalar : r.ty.bytes ≠ 0)
    {s : State} {acc : Nat} (right : s.mayRead acc idx sub = true) :
    s.readEntry acc idx sub 0 r.ty.bytes = (if isOwner acc then s.clearRead acc idx sub else s,
      ⟨drDone, r.ty.bytes, leBytes r.ty.bytes (s.shownScalar acc idx sub)⟩) := by
  unfold State.readEntry
  simp [found, clears, right, counters_keep found clears, State.valueBytes_scalar found scalar, length_leBytes,
    List.take_of_length_le (Nat.le_of_eq (length_leBytes r.ty.bytes (s.shownScalar acc idx sub)))]

/-- A read that its accessor may make: the value is shown as of now, and read whole or in part (R439, R440). -/
theorem State.readEntry_shown {idx sub : Nat} {r : DictRow} (found : dictFind idx sub = some r) (readable : r.acc ≠ .wo) {s : State}
    {acc : Nat} (right : s.mayRead acc idx sub = true) (offset len : Nat) :
    s.readEntry acc idx sub offset len =
      let w := if 0x7810 ≤ idx && idx ≤ 0x7820 then s.busyAll else s
      if !(r.ty.bytes = 0 || (offset = 0 && len = r.ty.bytes)) || (w.valueBytes acc idx sub).length < offset + len then
        (w, ⟨drRange, (w.valueBytes acc idx sub).length, []⟩)
      else (if r.acc = .rc && isOwner acc then w.clearRead acc idx sub else w,
        ⟨drDone, (w.valueBytes acc idx sub).length, ((w.valueBytes acc idx sub).drop offset).take len⟩) := by
  unfold State.readEntry
  simp only [found]
  exact if_neg (by simp [readable, right])

/-- Settles O22: each read is a branch of the read of an entry, answered in the mailbox. -/
theorem dictionaryReadsAnswer : Obligations.DictionaryReadsAnswer := by
  refine ⟨fun s fn idx sub offset len function served idle => ?_, ?_, ?_, ?_⟩
  · intro u
    have mail : s.setMailboxRegs fn idx sub offset none = u := State.setMailboxRegs_read idle idx sub offset
    have run (some' : 1 ≤ len) (few : len ≤ 4096) {t : State} (read : u.dictRead fn idx sub offset len = t) :
        exec (.dictCtrlRead fn idx sub offset len) s = .next t := by
      unfold exec execDictCtrlRead
      simp only [mail, badLength_eq_false some' few]
      exact congrArg Host.Outcome.next read
    refine ⟨fun length => ?_, fun some' few => ⟨fun missing => ?_, fun r found => ⟨fun refused => ?_, fun readable right => ?_⟩⟩⟩
    · unfold exec execDictCtrlRead
      simp only [mail, badLength_iff.mpr length]
      exact congrArg Host.Outcome.next (State.answerFree_served served idle)
    · refine run some' few (State.dictRead_readEntry (s := u) (r := ⟨drNone, 0, []⟩) function served idle ?_)
      simp only [State.readEntry, missing]
    · refine run some' few (State.dictRead_readEntry (s := u) (r := ⟨drDenied, 0, List.replicate len 0⟩) function served idle ?_)
      simp only [State.readEntry, found]
      exact if_pos (by rcases refused with h | h <;> simp [h])
    · have read := State.readEntry_shown found readable right offset len
      generalize (if 0x7810 ≤ idx && idx ≤ 0x7820 then u.busyAll else u) = w at read ⊢
      refine ⟨fun misfit => ?_, fun whole within stays => ?_⟩
      · refine run some' few (State.dictRead_readEntry (r := ⟨drRange, (w.valueBytes fn idx sub).length, []⟩) function
          served idle (read.trans (if_pos ?_)))
        rcases misfit with ⟨scalar, other⟩ | long
        · simp only [scalar, decide_false, Bool.false_or, Bool.or_eq_true, Bool.not_eq_true', Bool.and_eq_false_imp, decide_eq_true_eq,
            decide_eq_false_iff_not]
          exact .inl fun zero => other.resolve_left (fun h => h zero)
        · simp [long]
      · refine run some' few (State.dictRead_readEntry
          (r := ⟨drDone, (w.valueBytes fn idx sub).length, ((w.valueBytes fn idx sub).drop offset).take len⟩) function served idle
          (read.trans ((if_neg ?_).trans (congrArg (·, _) (if_neg ?_)))))
        · simpa [Nat.not_lt.mpr within, Classical.or_iff_not_imp_left] using whole
        · rcases stays with h | h
          · simp [h]
          · simp [isOwner]; omega
  · intro s idx sub r served idle found clears scalar other
    refine congrArg Host.Outcome.next ?_
    have read := State.readEntry_rc found clears scalar (s.mayRead_pf idx sub)
    unfold State.wholeRead
    rw [State.valueBytes_scalar found scalar, length_leBytes]
    refine (State.dictRead_readEntry (by omega) served idle read).trans ?_
    simp [isOwner, State.clearRead, other]
  · intro s fn idx sub r some' function served idle found clears scalar right
    refine congrArg Host.Outcome.next ?_
    have read := State.readEntry_rc found clears scalar right
    unfold State.wholeRead
    rw [State.valueBytes_scalar found scalar, length_leBytes]
    refine (State.dictRead_readEntry function served idle read).trans ?_
    simp [isOwner, show fn ≠ 0 by omega, show fn ≠ 17 by omega]
  · intro s served idle length
    obtain ⟨r, found, clears, blob⟩ : ∃ r, dictFind 0x6002 2 = some r ∧ r.acc = .rc ∧ r.ty.bytes = 0 :=
      ⟨_, rfl, rfl, rfl⟩
    have value : s.valueBytes 0 0x6002 2 = s.hotBytes (s.areg 0 0x6002 1) := by
      simp [State.valueBytes, found, blob, State.shownBlob]
    have read : s.readEntry 0 0x6002 2 0 512 = (s.clearRead 0 0x6002 2, ⟨drDone, 512, s.hotBytes (s.areg 0 0x6002 1)⟩) := by
      refine (State.readEntry_shown found (by simp [clears]) (s.mayRead_pf _ _) 0 512).trans ?_
      simp [value, length, blob, clears, isOwner, List.take_of_length_le]
    have done := State.dictRead_readEntry (by omega) served idle read
    have whole : s.wholeRead 0 0x6002 2 = (s.clearRead 0 0x6002 2).answer 0 drDone 512 (s.hotBytes (s.areg 0 0x6002 1)) := by
      unfold State.wholeRead
      rw [value, length, done]
    have mail : (s.wholeRead 0 0x6002 2).mailbox 0 = { s.mailbox 0 with
        status := drDone, size := 512, data := s.hotBytes (s.areg 0 0x6002 1) } := by
      rw [whole]
      refine SMap.get_set_listed _ _ _ fun h => ?_
      have := congrArg Mailbox.size h
      simp [Mailbox.init] at this
    refine ⟨_, rfl, congrArg Mailbox.data mail, congrArg Mailbox.status mail, ?_, ?_, ?_⟩
    all_goals exact (congrArg _ whole).trans rfl

end Sys2Proof.Machine
end

section
/-! Proofs of chapters 06, 07, 11 and 13: writes of the configuration. -/
set_option Elab.async false
namespace Sys2Proof.Machine

/-- Queue pair 0 of the PF listed twice, which no operation leaves: ahead of the other one at its reset values but for a tail that is
not, and behind it with a fetched descriptor. -/
def State.pairTwice : State :=
  { State.reset with
    top := { State.reset.top with dev := .ready }
    host := { State.reset.host with pairs := [(0, { QPair.init with fetched := [0] }), (0, { QPair.init with fetched := [0] })] } }

theorem State.pairTwice_takes : State.pairTwice.TakesScalar 0 (pairIdx 0 0) 8 0 :=
  have line : dictFind (pairIdx 0 0) 8 = some ⟨0xB100, 0xB20F, 0x08, 0x08, .bool, .rw, 0, 0, true, "enable"⟩ := by decide +kernel
  ⟨_, line, by decide +kernel, by decide +kernel, by decide +kernel, by decide +kernel, ⟨_, line, by decide +kernel, by decide +kernel,
    fun h => nomatch h⟩, by decide +kernel, by decide +kernel, by decide +kernel, by decide +kernel, by decide +kernel,
    by decide +kernel, by decide +kernel⟩

theorem State.pairTwice_fetched :
    ((State.pairTwice.scalarWrite 0 (pairIdx 0 0) 8 0).pair 0 0).fetched = [0] := by
  decide +kernel

/-- Refutes O25: where a queue pair is listed twice, disabling it takes the first listing away and brings up the second one, with the
descriptors fetched in it. -/
theorem not_configurationWritesAct : ¬ Obligations.ConfigurationWritesAct := by
  rintro ⟨-, -, -, -, -, queueEnable, -⟩
  obtain ⟨-, disable⟩ := queueEnable State.pairTwice 0 0 0 0 (by decide) (by decide) State.pairTwice_takes
  obtain ⟨t, ran, dropped, -⟩ := disable rfl
  have same : State.pairTwice.scalarWrite 0 (pairIdx 0 0) 8 0 = t := Host.Outcome.next.inj ran
  rw [← same, State.pairTwice_fetched] at dropped
  cases dropped

end Sys2Proof.Machine
end

section
/-! Proofs of chapter 13: the host's queues and links. -/
set_option Elab.async false
namespace Sys2Proof.Machine

/-- A row command with op 0, which is reserved. -/
def reservedCommand : Desc := BitVec.ofNat 512 (3 * 2 ^ 448)

/-- Queue pair 0 of the PF, enabled, with a fetched descriptor of a reserved op and nothing outstanding. -/
def State.reservedFetched : State :=
  State.setPair { State.reset with regs := SMap.set 0 State.reset.regs (dkey (pairIdx 0 0) 8) 1 } 0 0
    { QPair.init with tail := 1, fetched := [reservedCommand] }

/-- The descriptor is outstanding once. -/
theorem State.settle_reservedFetched : (State.reservedFetched.settle 0 0).reg (pairIdx 0 0) 14 = 1 := by decide +kernel

/-- Refutes O28: a descriptor of a reserved op is counted as outstanding when it is taken off the queue, and not again before it ends. -/
theorem not_queuesCarryDescriptorsAndRecords : ¬ Obligations.QueuesCarryDescriptorsAndRecords := by
  rintro ⟨-, -, -, -, -, -, settles, reserved, -⟩
  have ends := reserved State.reservedFetched 0 0 reservedCommand (by decide +kernel) (by decide +kernel) (by decide +kernel)
    (by decide +kernel) (by decide +kernel) (by decide +kernel)
  have same : State.reservedFetched.settle 0 0 =
      ((State.reservedFetched.popDesc 0 0 reservedCommand).bump (pairIdx 0 0) 14 1).freeEnd 0 0 reservedCommand
        (((State.reservedFetched.popDesc 0 0 reservedCommand).bump (pairIdx 0 0) 14 1).qp 0 0 12) :=
    Host.Outcome.next.inj ((settles State.reservedFetched 0 0 (by decide +kernel)).symm.trans ends)
  have once := State.settle_reservedFetched
  rw [same] at once
  revert once
  decide +kernel

end Sys2Proof.Machine
end

section
/-! Proofs of chapters 01, 12 to 15: writes of the dictionary that act (R442). -/
set_option Elab.async false
namespace Sys2Proof.Machine

/-! ### What the mark of an access leaves -/

theorem State.rearm_with (s : State) (d : Nat) : s.rearm d = { s with sl := (s.rearm d).sl } := by
  unfold State.rearm
  split <;> rfl

/-- The mark of an access changes counters of groups and the sluice controllers alone. -/
theorem State.marked_with (s : State) (acc : Nat) : s.marked acc = { s.countOpened (accPart acc) with sl := (s.marked acc).sl } := by
  unfold State.marked
  rw [State.rearm_with, State.rearm_with]
  cases accPart acc <;> rfl

theorem Keeps.marked (s : State) (acc : Nat) : Keeps 32832 s (s.marked acc) := by
  have all := Sub.refl 32832
  unfold State.marked
  exact Keeps.rearm (Keeps.rearm (Keeps.countOpened (Keeps.update (Keeps.refl s))))

@[simp] theorem State.marked_pending (s : State) (acc : Nat) : (s.marked acc).pending = s.pending := by
  rw [State.marked_with]
  cases h : accPart acc <;> rfl

@[simp] theorem State.marked_now (s : State) (acc : Nat) : (s.marked acc).now = s.now := by
  rw [State.marked_with]
  cases h : accPart acc <;> rfl

@[simp] theorem State.marked_free (s : State) (acc : Nat) : (s.marked acc).free = s.free := by
  rw [State.marked_with]
  cases h : accPart acc <;> rfl

@[simp] theorem State.marked_top (s : State) (acc : Nat) : (s.marked acc).top = s.top := by
  rw [State.marked_with]
  cases h : accPart acc <;> rfl

@[simp] theorem State.marked_alloc (s : State) (acc : Nat) : (s.marked acc).alloc = s.alloc := by
  rw [State.marked_with]
  cases h : accPart acc <;> rfl

@[simp] theorem State.marked_pow (s : State) (acc : Nat) : (s.marked acc).pow = s.pow := by
  rw [State.marked_with]
  cases h : accPart acc <;> rfl

@[simp] theorem State.marked_blobs (s : State) (acc : Nat) : (s.marked acc).blobs = s.blobs := by
  rw [State.marked_with]
  cases h : accPart acc <;> rfl

@[simp] theorem State.marked_mem (s : State) (acc : Nat) : (s.marked acc).mem = s.mem := by
  rw [State.marked_with]
  cases h : accPart acc <;> rfl

@[simp] theorem State.marked_cores (s : State) (acc : Nat) : (s.marked acc).cores = s.cores := by
  rw [State.marked_with]
  cases h : accPart acc <;> rfl

@[simp] theorem State.marked_ctxs (s : State) (acc : Nat) : (s.marked acc).ctxs = s.ctxs := by
  rw [State.marked_with]
  cases h : accPart acc <;> rfl

@[simp] theorem State.marked_jobs (s : State) (acc : Nat) : (s.marked acc).jobs = s.jobs := by
  rw [State.marked_with]
  cases h : accPart acc <;> rfl

@[simp] theorem State.marked_nextJob (s : State) (acc : Nat) : (s.marked acc).nextJob = s.nextJob := by
  rw [State.marked_with]
  cases h : accPart acc <;> rfl

@[simp] theorem State.marked_ctxOps (s : State) (acc : Nat) : (s.marked acc).ctxOps = s.ctxOps := by
  rw [State.marked_with]
  cases h : accPart acc <;> rfl

@[simp] theorem State.marked_tiers (s : State) (acc : Nat) : (s.marked acc).tiers = s.tiers := by
  rw [State.marked_with]
  cases h : accPart acc <;> rfl

@[simp] theorem State.marked_tab (s : State) (acc : Nat) : (s.marked acc).tab = s.tab := by
  rw [State.marked_with]
  cases h : accPart acc <;> rfl

@[simp] theorem State.marked_fab (s : State) (acc : Nat) : (s.marked acc).fab = s.fab := by
  rw [State.marked_with]
  cases h : accPart acc <;> rfl

@[simp] theorem State.marked_strm (s : State) (acc : Nat) : (s.marked acc).strm = s.strm := by
  rw [State.marked_with]
  cases h : accPart acc <;> rfl

@[simp] theorem State.marked_host (s : State) (acc : Nat) : (s.marked acc).host = s.host := by
  rw [State.marked_with]
  cases h : accPart acc <;> rfl

@[simp] theorem State.marked_mgmt (s : State) (acc : Nat) : (s.marked acc).mgmt = s.mgmt := by
  rw [State.marked_with]
  cases h : accPart acc <;> rfl

@[simp] theorem State.marked_av (s : State) (acc : Nat) : (s.marked acc).av = s.av := by
  rw [State.marked_with]
  cases h : accPart acc <;> rfl

@[simp] theorem State.marked_fw (s : State) (acc : Nat) : (s.marked acc).fw = s.fw := by
  rw [State.marked_with]
  cases h : accPart acc <;> rfl

@[simp] theorem State.marked_tap (s : State) (acc : Nat) : (s.marked acc).tap = s.tap := by
  rw [State.marked_with]
  cases h : accPart acc <;> rfl

theorem State.marked_wf {s : State} (h : Regs.wf s.regs = true) (acc : Nat) : Regs.wf (s.marked acc).regs = true :=
  (Keeps.marked s acc).regs h

theorem State.marked_regs (s : State) (acc : Nat) : (s.marked acc).regs = (s.countOpened (accPart acc)).regs := by
  rw [State.marked_with]

/-- The mark of an access counts in 0x6800.08 and in .01 of its partition alone. -/
theorem State.marked_reg (s : State) (acc : Nat) {idx sub : Nat} (groups : dkey idx sub ≠ dkey 0x6800 8)
    (part : ∀ p, accPart acc = some p → dkey idx sub ≠ dkey (0x6820 + p) 1) : (s.marked acc).reg idx sub = s.reg idx sub := by
  unfold State.reg
  rw [State.marked_regs]
  unfold State.countOpened
  cases h : accPart acc with
  | none => exact State.reg_setReg_other _ groups
  | some p => exact (State.reg_setReg_other _ (part p h)).trans (State.reg_setReg_other _ groups)

/-- Subindices that the mark of an access does not count in. -/
theorem State.marked_reg_sub (s : State) (acc : Nat) {idx sub : Nat} (small : sub < 256) (not1 : sub ≠ 1) (not8 : sub ≠ 8) :
    (s.marked acc).reg idx sub = s.reg idx sub :=
  s.marked_reg acc (by unfold dkey; omega) fun p _ => by unfold dkey; omega

/-- The PF and the management endpoint belong to no partition. -/
theorem State.marked_reg_owner (s : State) {acc : Nat} (owner : isOwner acc = true) {idx sub : Nat}
    (groups : dkey idx sub ≠ dkey 0x6800 8) : (s.marked acc).reg idx sub = s.reg idx sub :=
  s.marked_reg acc groups fun p h => by simp [accPart, owner] at h

/-! ### Writes of whole scalars -/

theorem leNat_leBytes {n v : Nat} (fits : v < 2 ^ (8 * n)) : leNat (leBytes n v) = v := by
  induction n generalizing v with
  | zero => simp [leBytes, leNat]; omega
  | succ n ih =>
    have small : v / 256 < 2 ^ (8 * n) := by
      rw [Nat.div_lt_iff_lt_mul (by decide)]
      calc v < 2 ^ (8 * (n + 1)) := fits
        _ = 2 ^ (8 * n) * 256 := by rw [show 8 * (n + 1) = 8 * n + 8 by omega, Nat.pow_add]
    simp only [leBytes, leNat, ih small]
    simp
    omega

/-- A write to an entry that is not one of a table, a list or a shared size is one of the entry alone. -/
theorem State.writeItems_single (s : State) (acc offset : Nat) (bytes : List Byte) {idx sub : Nat} (table : idx ≠ 0x6001) (list : idx ≠ 0x6003)
    (size : sizeEntries.contains (idx, sub) = false) :
    s.writeItems acc idx sub offset bytes = some [.dict acc idx sub offset bytes] := by
  unfold State.writeItems
  simp only [table, list, size, decide_false, Bool.false_and, Bool.false_eq_true, if_false]

/-- An accepted write of a whole scalar with an action takes the next mark, and its action proceeds (R318, R442). -/
theorem State.scalarWrite_acts {s : State} {acc idx sub v : Nat} (takes : s.TakesScalar acc idx sub v) (action : hasAction idx sub = true)
    (plain : idx ≠ 0x6001 ∧ idx ≠ 0x6003 ∧ sizeEntries.contains (idx, sub) = false) (routes : idx ≠ 0x8030 ∧ idx ≠ 0x8040) (e : Env) :
    ∃ bytes, leNat bytes = v ∧ s.scalarWrite acc idx sub v e = ((s.marked acc).act acc idx sub 0 bytes e).saysDone acc idx sub := by
  obtain ⟨r, found, scalar, small, accepted⟩ := takes
  refine ⟨leBytes r.ty.bytes v, leNat_leBytes small, ?_⟩
  unfold State.scalarWrite
  simp only [found]
  rw [State.dictWrite_takes accepted (s.writeItems_single acc 0 _ plain.1 plain.2.1 plain.2.2)]
  simp [State.written, action, State.routesOpened, Item.trunk?, Item.routes, routes]

/-- An accepted write of a whole scalar without an action takes the next mark, and the entry takes the value. -/
theorem State.scalarWrite_stores {s : State} {acc idx sub v : Nat} (takes : s.TakesScalar acc idx sub v) (passive : hasAction idx sub = false)
    (plain : idx ≠ 0x6001 ∧ idx ≠ 0x6003 ∧ sizeEntries.contains (idx, sub) = false) (shared : ownCopy idx sub = false) (low : idx < 0xB100)
    (e : Env) : s.scalarWrite acc idx sub v e = ((s.marked acc).setReg idx sub v).saysDone acc idx sub := by
  obtain ⟨r, found, scalar, small, accepted⟩ := takes
  unfold State.scalarWrite
  simp only [found]
  rw [State.dictWrite_takes accepted (s.writeItems_single acc 0 _ plain.1 plain.2.1 plain.2.2)]
  obtain ⟨-, -, -, stores⟩ := State.storeEntry_cases found passive (s.marked acc) acc 0 (leBytes r.ty.bytes v)
  simp only [State.written, passive, Bool.false_eq_true, if_false, stores scalar shared low, leNat_leBytes small]

/-- An accessor that may write an entry that no virtual function may write is the PF or the management endpoint. -/
theorem State.TakesScalar.owner {s : State} {acc idx sub v : Nat} (takes : s.TakesScalar acc idx sub v)
    (barred : ∀ p, s.vfMayWrite p acc idx sub v = false) : isOwner acc = true := by
  obtain ⟨r, found, scalar, small, accepted⟩ := takes
  have right := accepted.right
  rw [leNat_leBytes small] at right
  unfold State.mayWrite accPart at right
  refine Classical.byContradiction fun other => ?_
  simp [other, barred] at right

@[simp] theorem State.saysDone_frame (s : State) (acc idx sub : Nat) : (s.saysDone acc idx sub).top = s.top
    ∧ (s.saysDone acc idx sub).mem = s.mem ∧ (s.saysDone acc idx sub).cores = s.cores ∧ (s.saysDone acc idx sub).regs = s.regs
    ∧ (s.saysDone acc idx sub).pow = s.pow ∧ (s.saysDone acc idx sub).alloc = s.alloc ∧ (s.saysDone acc idx sub).strm = s.strm
    ∧ (s.saysDone acc idx sub).tab = s.tab ∧ (s.saysDone acc idx sub).sl = s.sl ∧ (s.saysDone acc idx sub).tiers = s.tiers
    ∧ (s.saysDone acc idx sub).blobs = s.blobs := by
  unfold State.saysDone
  split <;> exact ⟨rfl, rfl, rfl, rfl, rfl, rfl, rfl, rfl, rfl, rfl, rfl⟩

theorem State.act_requestState (s : State) (acc : Nat) (bytes : List Byte) (e : Env) :
    s.act acc 0x1200 3 0 bytes e = s.requestState (leNat bytes) := rfl

theorem State.act_holdPoint (s : State) (acc : Nat) (bytes : List Byte) (e : Env) :
    s.act acc 0x1200 5 0 bytes e = s.writeHoldPoint (leNat bytes) := rfl

theorem State.act_budget (s : State) (acc : Nat) (bytes : List Byte) (e : Env) :
    s.act acc 0x2000 1 0 bytes e = (s.setReg 0x2000 1 (leNat bytes)).setBudget (leNat bytes) := rfl

theorem State.act_snapshot (s : State) (acc : Nat) (bytes : List Byte) (e : Env) :
    s.act acc 0x7800 1 0 bytes e = (s.setAreg acc 0x7800 1 (leNat bytes)).takeSnapshot acc (leNat bytes) := rfl

theorem State.serve_top (s : State) : s.serve.top = { s.top with dev := .serving } := by
  have all := Sub.refl 2097216
  have kept (b : State) (l : List Nat) : Keeps 2097216 b (l.foldl (fun (s : State) e =>
      State.startTraining { s with av := { s.av with linkFrom := SMap.set 0 s.av.linkFrom e (s.now + 1) } } e) b) :=
    Keeps.foldl (Keeps.refl b) _ fun x e hx => Keeps.startTraining (Keeps.update hx)
  exact (kept _ _).frame .top rfl

theorem State.enterShared_top (s : State) : s.enterShared.top = s.top := (Keeps.enterShared (Keeps.refl s) (Sub.refl _)).frame .top rfl

theorem State.judgeLinks_top (s : State) : s.judgeLinks.top = s.top := (Keeps.judgeLinks (Keeps.refl s) (Sub.refl _)).frame .top rfl

theorem State.dropLinks_top (s : State) (l : List Nat) : (l.foldl (fun (s : State) e => s.linkDrop e) s).top = s.top :=
  foldl_view (fun x => x.top) _ (fun x _ => (Keeps.linkDrop (Keeps.refl x) (Sub.refl _)).frame .top rfl) l s

theorem State.enterReady_top (d : State) : (((d.judgeLinks.enterDev .ready).enterShared).setReg 0x1200 4 1).top = { d.top with dev := .ready } := by
  rw [State.setReg_top, State.enterShared_top]
  exact congrArg (fun x : Top => { x with dev := .ready }) d.judgeLinks_top

theorem State.quiesce_top (s : State) : s.quiesce.top = { s.top with dev := .ready } := by
  have dropped := s.dropLinks_top (List.range 24)
  unfold State.quiesce
  generalize (List.range 24).foldl (fun (s : State) e => s.linkDrop e) s = d at dropped ⊢
  exact (State.enterReady_top _).trans (congrArg (fun x : Top => { x with dev := .ready }) dropped)

theorem State.marked_partState (s : State) {acc : Nat} (owner : isOwner acc = true) (p : Nat) : (s.marked acc).partState p = s.partState p :=
  s.marked_reg_owner owner (by unfold dkey; omega)

theorem State.marked_mayQuiesce (s : State) {acc : Nat} (owner : isOwner acc = true) : (s.marked acc).mayQuiesce = s.mayQuiesce := by
  have pairs (q : Nat) : (s.marked acc).qp 0 q 8 = s.qp 0 q 8 := s.marked_reg_owner owner (by unfold dkey pairIdx; omega)
  unfold State.mayQuiesce
  simp only [State.marked_top, s.marked_partState owner, pairs]

theorem State.act_arm (s : State) (acc : Nat) {det : Nat} (low : 0x9001 ≤ det) (high : det ≤ 0x901A) (bytes : List Byte) (e : Env) :
    s.act acc det 3 0 bytes e = s.arm det (leNat bytes) := by
  have stack : isStackIdx det = false := by simp [isStackIdx]; omega
  have domain : ¬det < 0x5830 := by omega
  have trunk : det ≠ 0x8030 := by omega
  unfold State.act
  split
  case h_15 => simp [stack, low, high, domain, trunk]
  all_goals omega

theorem State.act_eventEntries (s : State) (acc : Nat) {fn : Nat} (few : fn < 17) (bytes : List Byte) (e : Env) :
    s.act acc (0xB010 + fn) 2 0 bytes e = (s.setReg (0xB010 + fn) 2 (leNat bytes)).postHeld fn := by
  unfold State.act
  split
  case h_15 =>
    have stack : isStackIdx (0xB010 + fn) = false := by simp [isStackIdx]; omega
    have fn' : (0xB010 + fn) % 256 - 16 = fn := by omega
    simp [stack, fn', show ¬0xB010 + fn < 0x5830 by omega, show 0xB010 + fn ≠ 0x8030 by omega,
      show ¬0xB010 + fn ≤ 0x901A by omega, show 0xB010 + fn < 0xB021 by omega]
  all_goals omega

/-- Most injections wait for what they are armed for. -/
theorem State.fire_waits {det : Nat} (d0 : det ≠ 0x9010) (d1 : det ≠ 0x9015) (d2 : det ≠ 0x9016) (n : Nat) (s : State) : s.fire n det = s := by
  have one : s.fireOne det = s := by simp [State.fireOne, d0, d1, d2]
  induction n with
  | zero => rfl
  | succ n ih => rw [State.fire, one, ih]

theorem DType.bytes_le (ty : DType) : ty.bytes ≤ 8 := by cases ty <;> decide

/-- The fields of inject_arm, with its reserved bits 0. -/
theorem armWord {v : Nat} (fits : v < 2 ^ 64) : put 63 48 (v / 2 ^ 48) + put 47 40 (v / 2 ^ 40) + put 31 16 (v / 2 ^ 16) =
    v / 2 ^ 48 * 2 ^ 48 + v / 2 ^ 40 % 256 * 2 ^ 40 + v / 2 ^ 16 % 65536 * 2 ^ 16 := by
  have top : v / 2 ^ 48 % 2 ^ 16 = v / 2 ^ 48 := Nat.mod_eq_of_lt (by omega)
  simp only [put, Nat.shiftLeft_eq, Nat.reduceAdd, Nat.reduceSub, Nat.reducePow] at top ⊢
  omega

/-- A snapshot shows P and the cycle at which it is taken (R416). -/
theorem State.takeSnapshot_eq (s : State) (acc a : Nat) : s.takeSnapshot acc a =
    ((s.busyAll.setAblob acc 0x7800 2 ((s.busyAll.accountOf a).flatMap fun v => leBytes 8 v)).setAreg acc 0x7800 3 (s.p 0)).setAreg acc
      0x7800 4 s.now := by
  have kept := Keeps.busyAll (Keeps.refl s) (Sub.refl _)
  have mark : s.busyAll.p 0 = s.p 0 := congrArg (fun x : Sluice => x.p.get 0) (kept.frame .sl rfl)
  have time : s.busyAll.now = s.now := kept.frame .now rfl
  have shown (b : State) (l : List Byte) : (b.setAblob acc 0x7800 2 l).p 0 = b.p 0 ∧ (b.setAblob acc 0x7800 2 l).now = b.now := ⟨rfl, rfl⟩
  unfold State.takeSnapshot
  simp only [shown, mark, time]

/-- Settles O23. -/
theorem deviceRequestsTakeEffect : Obligations.DeviceRequestsTakeEffect := by
  refine ⟨fun s acc takes => ?_, fun s acc takes => ?_, fun s acc v takes => ?_, fun s acc v takes q0 q1 => ?_,
    fun s acc det v low high takes => ?_, fun s acc a takes => ?_, fun s acc fn v few takes => ?_⟩
  · obtain ⟨bytes, value, ran⟩ := State.scalarWrite_acts takes (by decide) (by decide) (by decide) Env.none
    rw [State.act_requestState, value] at ran
    refine ⟨fun ready => ?_, fun other => ?_⟩
    · have served : (s.marked acc).requestState 1 = (s.marked acc).serve := if_pos (by simp [ready])
      rw [served] at ran
      have kept := Keeps.serve (Keeps.refl (s.marked acc)) (by simp [ready]) (Sub.refl _)
      have mem : (s.marked acc).serve.mem = (s.marked acc).mem := kept.frame .mem rfl
      have cores : (s.marked acc).serve.cores = (s.marked acc).cores := kept.frame .cores rfl
      exact ⟨_, congrArg Host.Outcome.next ran, rfl, by simp [State.serve_top], by simp [mem], by simp [cores]⟩
    · have refused : (s.marked acc).requestState 1 = (s.marked acc).setReg 0x1200 4 2 := by simp [State.requestState, other]
      rw [refused] at ran
      exact ⟨_, congrArg Host.Outcome.next ran, rfl, by simp⟩
  · have owner := takes.owner fun p => rfl
    obtain ⟨bytes, value, ran⟩ := State.scalarWrite_acts takes (by decide) (by decide) (by decide) Env.none
    rw [State.act_requestState, value] at ran
    have way : (s.marked acc).requestState 2 = if s.mayQuiesce then (s.marked acc).quiesce else (s.marked acc).setReg 0x1200 4 2 := by
      simp [State.requestState, s.marked_mayQuiesce owner]
    rw [way] at ran
    refine ⟨fun may => ?_, fun may => ?_⟩
    · rw [may] at ran
      exact ⟨_, congrArg Host.Outcome.next ran, rfl, by simp [State.quiesce_top]⟩
    · rw [may] at ran
      exact congrArg Host.Outcome.next ran
  · have owner := takes.owner fun p => rfl
    obtain ⟨r, found, -, small, -⟩ := id takes
    obtain ⟨bytes, value, ran⟩ := State.scalarWrite_acts takes (by decide) (by decide) (by decide) Env.none
    rw [State.act_holdPoint, value] at ran
    have byte : v < 256 := by
      have line : dictFind 0x1200 5 = some ⟨0x1200, 0x1200, 0x05, 0x05, .u8, .rw, 0, 0, true, "hold_point"⟩ := by decide +kernel
      obtain rfl := Option.some.inj (line.symm.trans found)
      exact small
    have held : (s.marked acc).reg 0x1200 6 = s.reg 0x1200 6 := s.marked_reg_owner owner (by decide)
    refine ⟨fun point => ?_, fun zero waits => ?_⟩
    · have stored : (s.marked acc).writeHoldPoint v = (s.marked acc).setReg 0x1200 5 v := by
        simp [State.writeHoldPoint, Nat.mod_eq_of_lt byte, point]
      rw [stored] at ran
      exact congrArg Host.Outcome.next ran
    · subst zero
      have released : (s.marked acc).writeHoldPoint 0 = State.setReg { (s.marked acc).setReg 0x1200 5 0 with top := { s.top with
          heldCycles := s.top.heldCycles + (s.now - s.top.heldFrom), passed2 := s.top.passed2 || s.reg 0x1200 6 = 2 } } 0x1200 6 0 := by
        simp [State.writeHoldPoint, held, waits]
      rw [released] at ran
      refine ⟨_, congrArg Host.Outcome.next ran, ?_, ?_⟩
      · simp
        rfl
      · simp
  · obtain ⟨r, found, -, small, -⟩ := id takes
    obtain ⟨bytes, value, ran⟩ := State.scalarWrite_acts takes (by decide) (by decide) (by decide) Env.none
    rw [State.act_budget, value] at ran
    have word : v < 65536 := by
      have line : dictFind 0x2000 1 = some ⟨0x2000, 0x2000, 0x01, 0x01, .u16, .rw, 750, 0, true, "package_budget"⟩ := by decide +kernel
      obtain rfl := Option.some.inj (line.symm.trans found)
      exact small
    have split' : ((s.marked acc).setReg 0x2000 1 v).setBudget v =
        { (s.marked acc).setReg 0x2000 1 v with alloc := s.alloc.rebudget (1000000 * v : Nat) } := by
      unfold State.setBudget State.serveBoth
      simp only [State.setReg_alloc, State.marked_alloc, Nat.mod_eq_of_lt word]
      rw [State.serveDie_nil (d := 0), State.serveDie_nil (d := 1)]
      · simpa [State.gov] using q1
      · simpa [State.gov] using q0
    rw [split'] at ran
    refine ⟨_, congrArg Host.Outcome.next ran, ?_, ?_, ?_, ?_, ?_, ?_, ?_⟩ <;> simp [Alloc.rebudget]
    omega
  · obtain ⟨r, found, -, small, -⟩ := id takes
    have action : hasAction det 3 = true := by simp [hasAction, low, high]
    obtain ⟨bytes, value, ran⟩ := State.scalarWrite_acts takes action
      ⟨by omega, by omega, by simp [sizeEntries]; omega⟩ ⟨by omega, by omega⟩ Env.none
    rw [State.act_arm _ _ low high, value] at ran
    have up : (s.marked acc).isUp = s.isUp := by simp [State.isUp]
    refine ⟨fun serving d0 d1 d2 => ?_, fun down => ?_⟩
    · have armed : (s.marked acc).arm det v = (s.marked acc).setReg det 3
          (v / 2 ^ 48 * 2 ^ 48 + v / 2 ^ 40 % 256 * 2 ^ 40 + v / 2 ^ 16 % 65536 * 2 ^ 16) := by
        have fits : v < 2 ^ 64 := Nat.lt_of_lt_of_le small (Nat.pow_le_pow_right (by decide) (Nat.mul_le_mul_left 8 r.ty.bytes_le))
        unfold State.arm
        rw [up, serving]
        simp only [Bool.not_true, Bool.false_eq_true, if_false]
        rw [State.fire_waits d0 d1 d2, armWord fits]
      rw [armed] at ran
      exact congrArg Host.Outcome.next ran
    · have ignored : (s.marked acc).arm det v = s.marked acc := if_pos (by rw [up, down]; rfl)
      rw [ignored] at ran
      exact congrArg Host.Outcome.next ran
  · obtain ⟨bytes, value, ran⟩ := State.scalarWrite_acts takes (by decide) (by decide) (by decide) Env.none
    rw [State.act_snapshot, value] at ran
    rw [State.takeSnapshot_eq] at ran
    simp only [State.setAreg_now, State.marked_now] at ran
    exact congrArg Host.Outcome.next ran
  · obtain ⟨bytes, value, ran⟩ := State.scalarWrite_acts takes (by simp [hasAction]; omega)
      ⟨by omega, by omega, by simp [sizeEntries]; omega⟩ ⟨by omega, by omega⟩ Env.none
    rw [State.act_eventEntries _ _ few, value] at ran
    exact congrArg Host.Outcome.next ran

end Sys2Proof.Machine
end

section
/-! Proofs of chapter 14: what a raise of a detector leaves (R467, R469). -/
set_option Elab.async false
namespace Sys2Proof.Machine

/-! ### Entries that a raise leaves -/

theorem State.putFor_reg (s : State) (fn a : Nat) (bs : List Byte) {idx sub : Nat} (dropped : dkey idx sub ≠ dkey 0x3001 5) :
    (s.putFor fn a bs).reg idx sub = s.reg idx sub := by
  unfold State.putFor
  split
  · rfl
  · exact State.reg_setReg_other _ dropped

theorem State.putEvent_reg (s : State) (fn : Nat) (r : Rec) {idx sub : Nat} (dropped : dkey idx sub ≠ dkey 0x3001 5)
    (posted : dkey idx sub ≠ dkey 0x9000 4) (overflow : dkey idx sub ≠ dkey (0xB010 + fn) 5) :
    (s.putEvent fn r).reg idx sub = s.reg idx sub := by
  unfold State.putEvent
  extract_lets i n prod used u p v w
  split
  · exact State.reg_setReg_other _ overflow
  · have signalled (t : State) : (t.signal fn 0).reg idx sub = t.reg idx sub := by
      unfold State.signal
      split <;> rfl
    rw [signalled]
    refine (State.reg_setReg_other _ posted).trans ?_
    exact (State.putFor_reg _ _ _ _ dropped).trans (State.putFor_reg _ _ _ _ dropped)

theorem State.postEvent_reg (s : State) (fn : Nat) (r : Rec) {idx sub : Nat} (dropped : dkey idx sub ≠ dkey 0x3001 5)
    (posted : dkey idx sub ≠ dkey 0x9000 4) (overflow : dkey idx sub ≠ dkey (0xB010 + fn) 5) :
    (s.postEvent fn r).reg idx sub = s.reg idx sub := by
  unfold State.postEvent
  split
  · rfl
  · exact s.putEvent_reg fn r dropped posted overflow

/-- The record of a raise (R468). -/
def State.eventOf (s : State) (r : Raise) : Rec := r.record ((s.bump r.det 1 1).reg r.det 1) s.now

/-- s with a raise counted, kept as the last event, and shown in alert_pending, before anything is posted (R467, R469). -/
def State.noted (s : State) (r : Raise) : State :=
  let u := (s.bump r.det 1 1).setBlob r.det 2 (wordBytes (s.eventOf r))
  if 3 ≤ r.sev then u.setReg 0x9000 3 1 else u

/-- A raise is noted, and then held, left out, or posted (R469, R479). -/
theorem State.raise_eq (s : State) (r : Raise) : s.raise r =
    let w := s.noted r
    if !w.isUp then
      let w := w.holdRecord r (s.eventOf r)
      if w.eventMasked r.det then w else w.toManagement r.sev (s.eventOf r)
    else if w.eventMasked r.det || w.inHoldoff r.det then w
    else (w.postRecord r (s.eventOf r)).notePosted r.det := rfl

theorem State.noted_reg (s : State) (r : Raise) {idx sub : Nat} (count : dkey idx sub ≠ dkey r.det 1) (alert : dkey idx sub ≠ dkey 0x9000 3) :
    (s.noted r).reg idx sub = s.reg idx sub := by
  unfold State.noted
  split
  · exact (State.reg_setReg_other _ alert).trans (State.reg_setReg_other _ count)
  · exact State.reg_setReg_other _ count

/-- A scalar that is set to a value other than its default reads as it. -/
theorem State.reg_setReg_listed (s : State) {i j v : Nat} (own : v % 2 ^ regBits (dkey i j) ≠ regDefault (dkey i j)) :
    (s.setReg i j v).reg i j = v % 2 ^ regBits (dkey i j) := SMap.get_set_listed _ _ _ own

theorem State.noted_alert {s : State} {r : Raise} (severe : 3 ≤ r.sev) : (s.noted r).reg 0x9000 3 = 1 := by
  unfold State.noted
  rw [if_pos severe]
  exact (State.reg_setReg_listed _ (by decide +kernel)).trans (by decide +kernel)

/-- What is held or posted of a raise that is noted leaves its entries, but for the counts of the event queues. -/
theorem State.raise_reg_noted (s : State) (r : Raise) {idx sub : Nat} (dropped : dkey idx sub ≠ dkey 0x3001 5)
    (posted : dkey idx sub ≠ dkey 0x9000 4) (overflow : dkey idx sub ≠ dkey 0xB010 5)
    (part : ∀ p, r.part = some p → dkey idx sub ≠ dkey (0xB010 + (p + 1)) 5) : (s.raise r).reg idx sub = (s.noted r).reg idx sub := by
  have managed (t : State) (n : Nat) (e : Rec) : (t.toManagement n e).reg idx sub = t.reg idx sub := by
    unfold State.toManagement
    split <;> rfl
  have recorded (w : State) (e : Rec) : (w.postRecord r e).reg idx sub = w.reg idx sub := by
    unfold State.postRecord
    have first := (State.postEvent_reg (w.toManagement r.sev e) 0 e dropped posted overflow).trans (managed w r.sev e)
    cases h : r.part with
    | none => exact first
    | some p => exact (State.postEvent_reg _ _ _ dropped posted (part p h)).trans first
  rw [State.raise_eq]
  dsimp only
  split
  · split
    · rfl
    · exact managed _ _ _
  · split
    · rfl
    · exact recorded _ _

/-- The entries that a raise of a detector may write, for a function that an event record is posted to: its count, alert_pending,
events_posted, the overflows of the function, and the count of dropped writes. -/
def raiseKeys (det : Nat) (part : Option Nat) : List Nat :=
  [dkey det 1, dkey 0x9000 3, dkey 0x9000 4, dkey 0x3001 5, dkey 0xB010 5] ++ (part.map fun p => dkey (0xB010 + (p + 1)) 5).toList

/-- A raise leaves every other entry of the dictionary. -/
theorem State.raise_reg (s : State) (r : Raise) {idx sub : Nat} (other : dkey idx sub ∉ raiseKeys r.det r.part) :
    (s.raise r).reg idx sub = s.reg idx sub := by
  simp only [raiseKeys, List.mem_append, List.mem_cons, List.not_mem_nil, or_false, not_or] at other
  obtain ⟨⟨count, alert, posted, dropped, overflow⟩, part⟩ := other
  refine (s.raise_reg_noted r dropped posted overflow fun p h => ?_).trans (s.noted_reg r count alert)
  simpa [h] using part

/-! ### O56 -/

section Noted

variable (s : State) (r : Raise)

theorem State.noted_mem : (s.noted r).mem = s.mem := by unfold State.noted; split <;> rfl
theorem State.noted_host : (s.noted r).host = s.host := by unfold State.noted; split <;> rfl
theorem State.noted_mgmt : (s.noted r).mgmt = s.mgmt := by unfold State.noted; split <;> rfl
theorem State.noted_av : (s.noted r).av = s.av := by unfold State.noted; split <;> rfl
theorem State.noted_now : (s.noted r).now = s.now := by unfold State.noted; split <;> rfl
theorem State.noted_isUp : (s.noted r).isUp = s.isUp := by unfold State.noted; split <;> rfl

theorem State.noted_wf (wf : Regs.wf s.regs = true) : Regs.wf (s.noted r).regs = true := by
  unfold State.noted
  dsimp only
  split
  · exact State.wf_setReg (State.wf_setReg (s := s) wf _ _ _) 0x9000 3 1
  · exact State.wf_setReg (s := s) wf _ _ _

end Noted

/-- The entries that say whether a record is posted stand while it is noted. -/
theorem State.noted_gates (s : State) {r : Raise} (low : 0x9001 ≤ r.det) :
    (s.noted r).eventMasked r.det = s.eventMasked r.det ∧ (s.noted r).inHoldoff r.det = s.inHoldoff r.det := by
  unfold State.eventMasked State.inHoldoff
  rw [s.noted_reg r (by unfold dkey; omega) (by decide), s.noted_reg r (by unfold dkey; omega) (by decide), s.noted_av, s.noted_now]
  exact ⟨rfl, rfl⟩

theorem State.putFor_pf (s : State) (a : Nat) (bs : List Byte) : s.putFor 0 a bs = s.putBytesAt a bs := rfl

/-- A record for the queue of the PF is posted where it has room, and otherwise counted (R449, R469). -/
theorem State.putEvent_pf (s : State) (e : Rec) :
    let n := s.reg 0xB010 2
    let prod := SMap.get 0 s.host.eventProd 0
    let used := (prod + 2 ^ 32 - s.reg 0xB010 4) % 2 ^ 32
    (n ≤ used → s.putEvent 0 e = s.bump 0xB010 5 1)
    ∧ (used < n →
      (s.putEvent 0 e).host.eventProd = SMap.set 0 s.host.eventProd 0 ((prod + 1) % 2 ^ 32)
      ∧ (s.putEvent 0 e).mem = memPut (memPut s.mem (s.reg 0xB010 1 + 32 * (prod % n)) (wordBytes e)) (s.reg 0xB010 3)
          (leBytes 4 ((prod + 1) % 2 ^ 32))
      ∧ (s.putEvent 0 e).regs = (s.bump 0x9000 4 1).regs) := by
  intro n prod used
  have signalled (t : State) : (t.signal 0 0).host.eventProd = t.host.eventProd ∧ (t.signal 0 0).mem = t.mem ∧ (t.signal 0 0).regs = t.regs := by
    unfold State.signal
    split <;> exact ⟨rfl, rfl, rfl⟩
  unfold State.putEvent
  refine ⟨fun full => if_pos (show (decide (n = 0) || decide (n ≤ used)) = true by simp [full]), fun room => ?_⟩
  rw [if_neg (show ¬(decide (n = 0) || decide (n ≤ used)) = true by simp [room, Nat.ne_zero_of_lt room])]
  obtain ⟨producer, mem, regs⟩ := signalled
    (({ (s.putFor 0 (s.reg 0xB010 1 + 32 * (prod % n)) (wordBytes e)) with host := { s.host with
        eventProd := SMap.set 0 s.host.eventProd 0 ((prod + 1) % 2 ^ 32) } } : State).putFor 0 (s.reg 0xB010 3)
          (leBytes 4 ((prod + 1) % 2 ^ 32)) |>.bump 0x9000 4 1)
  exact ⟨producer, mem, regs⟩

/-- Settles O56. -/
theorem raisesAreCountedRecordedAndPosted : Obligations.RaisesAreCountedRecordedAndPosted := by
  intro s r wf blobs low high
  have wide : regBits (dkey r.det 1) = 64 := by
    have all : ∀ k < 26, regBits (dkey (0x9001 + k) 1) = 64 := by decide +kernel
    have := all (r.det - 0x9001) (by omega)
    rwa [show 0x9001 + (r.det - 0x9001) = r.det by omega] at this
  have counted : (s.bump r.det 1 1).reg r.det 1 = (s.reg r.det 1 + 1) % 2 ^ 64 := by
    rw [State.bump, State.reg_setReg_same wf, wide]
  have count : (s.noted r).reg r.det 1 = (s.reg r.det 1 + 1) % 2 ^ 64 := by
    refine Eq.trans ?_ counted
    unfold State.noted
    split
    · exact State.reg_setReg_other _ (by unfold dkey; omega)
    · rfl
  have event : s.eventOf r = r.record ((s.reg r.det 1 + 1) % 2 ^ 64) s.now := by rw [State.eventOf, counted]
  have last : (s.raise r).blob r.det 2 = wordBytes (s.eventOf r) := by
    have same : (s.raise r).blobs = (s.noted r).blobs := by
      rw [State.raise_eq]
      dsimp only
      split
      · split
        · rfl
        · simp [State.holdRecord]
      · split
        · rfl
        · simp [State.notePosted]
    have kept : (s.noted r).blobs = SMap.set (blobDefault (dkey r.det 2)) s.blobs (dkey r.det 2) (wordBytes (s.eventOf r)) := by
      unfold State.noted
      split <;> rfl
    rw [State.blob, same, kept]
    exact SMap.get_set_same _ blobs _ _
  obtain ⟨masked, holdoff⟩ := s.noted_gates low
  rw [event] at last
  refine ⟨?_, last, fun severe => ?_, fun up quiet => ?_, fun down => ?_, fun up open' clear free => ?_⟩
  · refine (s.raise_reg_noted r ?_ ?_ ?_ fun p _ => ?_).trans count <;> unfold dkey <;> omega
  · refine (s.raise_reg_noted r ?_ ?_ ?_ fun p _ => ?_).trans (State.noted_alert severe) <;> unfold dkey <;> omega
  · have silent : s.raise r = s.noted r := by
      rw [State.raise_eq]
      simp only [State.noted_isUp, up, masked, holdoff, Bool.not_true, Bool.false_eq_true, if_false]
      exact if_pos (by rcases quiet with h | h <;> simp [h])
    rw [silent]
    exact ⟨s.noted_mem r, s.noted_host r, s.noted_mgmt r, s.noted_av r⟩
  · have held : (s.raise r).mem = ((s.noted r).holdRecord r (s.eventOf r)).mem ∧ (s.raise r).host = ((s.noted r).holdRecord r (s.eventOf r)).host
        ∧ (s.raise r).av = ((s.noted r).holdRecord r (s.eventOf r)).av := by
      rw [State.raise_eq]
      simp only [State.noted_isUp, down, Bool.not_false, if_true]
      split <;> simp
    rw [held.1, held.2.1, held.2.2, event]
    refine ⟨s.noted_mem r, s.noted_host r, ?_⟩
    simp only [State.holdRecord, s.noted_av]
  · intro n prod used reach
    have posted : s.raise r = (((s.noted r).toManagement r.sev (s.eventOf r)).postEvent 0 (s.eventOf r)).notePosted r.det := by
      rw [State.raise_eq]
      simp only [State.noted_isUp, up, masked, holdoff, open', clear, Bool.not_true, Bool.or_self, Bool.false_eq_true, if_false,
        State.postRecord, free]
    have entry {idx sub : Nat} (above : 0xB000 ≤ idx := by decide) :
        ((s.noted r).toManagement r.sev (s.eventOf r)).reg idx sub = s.reg idx sub := by
      refine Eq.trans ?_ (s.noted_reg r (idx := idx) (sub := sub) (by unfold dkey; omega) (by unfold dkey; omega))
      simp only [State.reg, State.toManagement_regs]
    have posts : ((s.noted r).toManagement r.sev (s.eventOf r)).reg 0x9000 4 = s.reg 0x9000 4 := by
      refine Eq.trans ?_ (s.noted_reg r (by unfold dkey; omega) (by decide))
      simp only [State.reg, State.toManagement_regs]
    have wf' : Regs.wf ((s.noted r).toManagement r.sev (s.eventOf r)).regs = true := by
      rw [State.toManagement_regs]
      exact s.noted_wf r wf
    have host : ((s.noted r).toManagement r.sev (s.eventOf r)).host = s.host := by simp [s.noted_host]
    have mem : ((s.noted r).toManagement r.sev (s.eventOf r)).mem = s.mem := by simp [s.noted_mem]
    have av : ((s.noted r).toManagement r.sev (s.eventOf r)).av = s.av := by simp [s.noted_av]
    have now : ((s.noted r).toManagement r.sev (s.eventOf r)).now = s.now := by simp [s.noted_now]
    rw [posted, ← event]
    generalize (s.noted r).toManagement r.sev (s.eventOf r) = m at entry posts wf' host mem av now ⊢
    have link : m.eventLinkUp = s.eventLinkUp := by
      unfold State.eventLinkUp
      rw [host, entry]
    have direct (way : reach ∨ n = 0) : m.postEvent 0 (s.eventOf r) = m.putEvent 0 (s.eventOf r) := by
      refine if_neg ?_
      rw [Nat.add_zero, entry, entry, link]
      rcases way with (device | up') | none'
      · simp only [decide_eq_false (Nat.not_le.mpr device), Bool.false_and]
        decide
      · simp [up']
      · simp [show s.reg 0xB010 2 = 0 from none']
    obtain ⟨full, room⟩ := m.putEvent_pf (s.eventOf r)
    have e1 : m.reg 0xB010 1 = s.reg 0xB010 1 := entry
    have e2 : m.reg 0xB010 2 = s.reg 0xB010 2 := entry
    have e3 : m.reg 0xB010 3 = s.reg 0xB010 3 := entry
    have e4 : m.reg 0xB010 4 = s.reg 0xB010 4 := entry
    simp only [host, mem, e1, e2, e3, e4] at full room
    refine ⟨?_, fun barred some' => ?_, fun way lacks => ?_, fun way fits => ?_⟩
    · simp only [State.notePosted, State.postEvent_av, av]
      simp [now]
    · have waits : m.postEvent 0 (s.eventOf r) = { m with host := { m.host with events := m.host.events ++ [(0, s.eventOf r)] } } := by
        refine if_pos ?_
        rw [Nat.add_zero, entry, entry, link]
        simp only [reach, not_or, Nat.not_lt, Bool.not_eq_true] at barred
        simp only [decide_eq_true barred.1, barred.2, decide_eq_true (show s.reg 0xB010 2 ≠ 0 from some')]
        decide
      rw [waits]
      exact ⟨mem, by rw [← host]; rfl⟩
    · rw [direct way, full lacks]
      refine ⟨mem, host, ?_⟩
      refine (State.reg_setReg_same wf' _ _ _).trans ?_
      rw [entry, show regBits (dkey 0xB010 5) = 64 by decide +kernel]
    · rw [direct (.inl way)]
      obtain ⟨producer, stored, regs⟩ := room fits
      refine ⟨producer, stored, ?_⟩
      show SMap.get _ (m.putEvent 0 (s.eventOf r)).regs _ = _
      rw [regs]
      refine (State.reg_setReg_same wf' _ _ _).trans ?_
      rw [posts, show regBits (dkey 0x9000 4) = 64 by decide +kernel]

end Sys2Proof.Machine
end

section
/-! Proofs of chapter 14: firmware (R464 to R466). -/
set_option Elab.async false
namespace Sys2Proof.Machine

/-- A cleared bit is clear, and the others stand. -/
theorem maskBit_maskClear (m i j : Nat) : maskBit (maskClear m i) j = (maskBit m j && decide (i ≠ j)) := by
  unfold maskBit maskClear
  split
  case isTrue set =>
    have low : m % 2 ^ i < 2 ^ i := Nat.mod_lt _ (Nat.two_pow_pos i)
    have odd : m / 2 ^ i % 2 = 1 := by simpa [Nat.testBit_eq_decide_div_mod_eq] using set
    obtain ⟨q, hq⟩ : ∃ q, m / 2 ^ i = 2 * q + 1 := ⟨m / 2 ^ i / 2, by omega⟩
    have whole : m = 2 ^ i * (2 * q + 1) + m % 2 ^ i := by rw [← hq]; exact (Nat.div_add_mod m (2 ^ i)).symm
    have less : m - 1 <<< i = 2 ^ i * (2 * q) + m % 2 ^ i := by
      rw [Nat.shiftLeft_eq, Nat.one_mul]
      have : 2 ^ i * (2 * q + 1) = 2 ^ i * (2 * q) + 2 ^ i := by rw [Nat.mul_add, Nat.mul_one]
      omega
    rw [less]
    generalize m % 2 ^ i = r at low whole
    subst whole
    rw [Nat.testBit_two_pow_mul_add _ low, Nat.testBit_two_pow_mul_add _ low]
    rcases Nat.lt_trichotomy j i with before | rfl | after
    · simp [before, Nat.ne_of_gt before]
    · simp
    · obtain ⟨k, rfl⟩ : ∃ k, j = i + (k + 1) := ⟨j - i - 1, by omega⟩
      simp [Nat.testBit_succ, show ¬i + (k + 1) < i by omega, show (2 * q + 1) / 2 = q by omega]
  case isFalse clear =>
    by_cases h : i = j
    · subst h
      simpa using clear
    · simp [h]

theorem State.fwEvent_fw (s : State) (cause : Nat) (comp : Option Nat) (inj : Bool) : (s.fwEvent cause comp inj).fw = s.fw := by
  simp [State.fwEvent]

/-- A firmware event leaves the entries of the firmware. -/
theorem State.fwEvent_reg (s : State) (cause : Nat) (comp : Option Nat) (inj : Bool) {sub : Nat} (small : sub < 256) :
    (s.fwEvent cause comp inj).reg 0xA030 sub = s.reg 0xA030 sub := by
  refine (State.raise_reg _ _ ?_).trans rfl
  simp only [raiseKeys, dkey, Option.map_none, Option.toList_none, List.append_nil, List.mem_cons, List.not_mem_nil, or_false]
  omega

theorem State.fwState_reg (s : State) {v : Nat} (small : v < 256) (some' : v ≠ 0) : (s.fwState v).reg 0xA030 3 = v := by
  have bits : regBits (dkey 0xA030 3) = 8 := by decide +kernel
  have dflt : regDefault (dkey 0xA030 3) = 0 := by decide +kernel
  have kept : v % 2 ^ regBits (dkey 0xA030 3) = v := by rw [bits]; exact Nat.mod_eq_of_lt small
  exact (State.reg_setReg_listed s (by rwa [kept, dflt])).trans kept

/-- A DMC event leaves the entries of the DMCs and of the firmware. -/
theorem State.dmcEvent_reg (s : State) (sev cause : Nat) (inj : Bool) {idx sub : Nat} (own : idx = 0xA020 ∨ idx = 0xA030) (small : sub < 256) :
    (s.dmcEvent sev cause inj).reg idx sub = s.reg idx sub := by
  refine State.raise_reg _ _ ?_
  simp only [raiseKeys, dkey, Option.map_none, Option.toList_none, List.append_nil, List.mem_cons, List.not_mem_nil, or_false]
  omega

/-- The roles of the DMCs swap, and the one that was active takes a state (R460). -/
theorem State.swapDmcs_regs {s : State} (wf : Regs.wf s.regs = true) (dmc : s.activeDmc < 2) {old : Nat} (small : old < 256) :
    (s.swapDmcs old).activeDmc = 1 - s.activeDmc ∧ (s.swapDmcs old).dmcState (1 - s.activeDmc) = 0 ∧ (s.swapDmcs old).dmcState s.activeDmc = old := by
  have bits : ∀ j < 3, regBits (dkey 0xA020 (1 + j)) = 8 := by decide +kernel
  have wf1 := State.wf_setReg wf 0xA020 1 (1 - s.activeDmc)
  have wf2 := State.wf_setReg wf1 0xA020 (2 + (1 - s.activeDmc)) 0
  unfold State.swapDmcs State.activeDmc State.dmcState
  unfold State.activeDmc at dmc wf1 wf2
  generalize s.reg 0xA020 1 = a at *
  refine ⟨?_, ?_, ?_⟩
  · rw [State.reg_setReg_other _ (by unfold dkey; omega), State.reg_setReg_other _ (by unfold dkey; omega), State.reg_setReg_same wf,
      bits 0 (by decide), Nat.mod_eq_of_lt (by omega)]
  · rw [State.reg_setReg_other _ (by unfold dkey; omega), State.reg_setReg_same wf1, Nat.zero_mod]
  · rw [State.reg_setReg_same wf2, show 2 + a = 1 + (1 + a) by omega, bits (1 + a) (by omega)]
    exact Nat.mod_eq_of_lt small

/-- A component whose range is normal, where it has one, switches (R465). -/
theorem exec_componentSwitch {s : State} (active : s.fw.activating = true) (unarmed : s.armed 0x9019 0 0 = false)
    (normal : 2 ≤ s.reg 0xA030 4 → s.reg 0xA030 4 < 30 → s.reg (rangeIdx (componentRange (s.reg 0xA030 4))) 9 = 0) :
    exec .componentSwitch s = .next s.switched :=
  congrArg Host.Outcome.next ((if_neg (by simpa [active] using normal)).trans (if_neg (by simp [unarmed])))

/-- The standby DMC switches first, and takes over (R460, R465). -/
theorem State.switched_dmc {s : State} (first : s.fw.switched = 0) (healthy : s.dmcsHealthy = true) (turn : s.reg 0xA030 4 = 1 - s.activeDmc)
    (dmc : s.activeDmc < 2) (wf : Regs.wf s.regs = true) :
    s.switched.activeDmc = 1 - s.activeDmc ∧ s.switched.dmcState (1 - s.activeDmc) = 0 ∧ s.switched.dmcState s.activeDmc = 1
      ∧ s.switched.fw = { s.fw with switched := 1 } ∧ s.switched.reg 0xA030 4 = s.activeDmc := by
  have swapped := State.swapDmcs_regs wf dmc (old := 1) (by decide)
  have event := Keeps.dmcEvent (Keeps.refl (s.swapDmcs 1)) (sev := 0) (cause := 2) (inj := false) (hm := Sub.refl _)
  have swaps := Keeps.swapDmcs (Keeps.refl s) (old := 1) (hm := Sub.refl _)
  have fw : ((s.swapDmcs 1).dmcEvent 0 2).fw = s.fw := (event.frame .fw rfl : _ = (s.swapDmcs 1).fw).trans (swaps.frame .fw rfl)
  have wf' : Regs.wf ((s.swapDmcs 1).dmcEvent 0 2).regs = true := event.regs (swaps.regs wf)
  have switched : s.switched = State.setReg (((s.swapDmcs 1).dmcEvent 0 2).modFw fun f => { f with switched := 1 }) 0xA030 4
      (1 - (1 - s.activeDmc)) := by
    unfold State.switched
    simp [first, healthy, turn]
  have dmcs {sub : Nat} (small : sub < 256) : s.switched.reg 0xA020 sub = (s.swapDmcs 1).reg 0xA020 sub := by
    rw [switched, State.reg_setReg_other _ (by unfold dkey; omega)]
    exact State.dmcEvent_reg _ _ _ _ (.inl rfl) small
  refine ⟨(dmcs (by decide)).trans swapped.1, (dmcs (by omega)).trans swapped.2.1, (dmcs (by omega)).trans swapped.2.2, ?_, ?_⟩
  · rw [switched]
    exact congrArg (fun f : Firmware => { f with switched := 1 }) fw
  · rw [switched]
    refine (State.reg_setReg_same (s := ((s.swapDmcs 1).dmcEvent 0 2).modFw _) wf' 0xA030 4 _).trans ?_
    rw [show regBits (dkey 0xA030 4) = 8 by decide +kernel, Nat.mod_eq_of_lt (by omega)]
    omega

theorem State.flipSlot_fw {s : State} (own : s.fw.byService = false) :
    s.flipSlot.fw = { s.fw with slot := 1 - s.fw.slot, activating := false, byService := false } := by
  unfold State.flipSlot State.endActivation
  simp [State.modFw, State.fwEvent_fw, State.fwState, own]

theorem State.rollBack_own {s : State} (own : s.fw.byService = false) (inj : Bool) :
    (s.rollBack inj).fw = { s.fw with activating := false } ∧ (s.rollBack inj).reg 0xA030 3 = 4 := by
  have fw : ((s.fwState 4).fwEvent 3 (some (s.reg 0xA030 4)) inj).fw = s.fw := (State.fwEvent_fw _ _ _ _).trans rfl
  have back : s.rollBack inj = ((s.fwState 4).fwEvent 3 (some (s.reg 0xA030 4)) inj).modFw fun f =>
      { f with activating := false, byService := false } := by
    simp [State.rollBack, State.endActivation, fw, own]
  rw [back]
  constructor
  · show ({ ((s.fwState 4).fwEvent 3 (some (s.reg 0xA030 4)) inj).fw with activating := false, byService := false } : Firmware) = _
    rw [fw, ← own]
  · exact (State.fwEvent_reg _ _ _ _ (by decide)).trans (State.fwState_reg _ (by decide) (by decide))

/-- Settles O31. -/
theorem firmwareIsTransferredAndSwitched : Obligations.FirmwareIsTransferredAndSwitched := by
  refine ⟨fun s comps comp ok => ⟨fun idle => ?_, fun busy => ?_, fun h => ?_, fun h listed => ?_, fun h => ⟨?_, ?_⟩, fun h => ⟨?_, ?_⟩,
    fun h => ⟨?_, ?_⟩, fun h => ?_, fun h => ?_, fun h => ?_, fun h => ?_, fun h => ?_⟩, fun s => ⟨fun may => ⟨?_, ?_⟩, fun may => ⟨?_, ?_⟩⟩,
    fun s active unarmed => ⟨fun first healthy turn dmc wf => ?_, fun low high turn normal => ?_, fun last turn own => ?_, fun low high busy => ?_⟩,
    fun s => ⟨fun active own => ?_, fun idle => ?_⟩⟩
  · exact congrArg Host.Outcome.next (if_neg (by simp [idle]))
  · exact congrArg Host.Outcome.next (if_pos busy)
  · exact congrArg Host.Outcome.next (if_pos h)
  · refine ⟨_, congrArg Host.Outcome.next (if_pos (by simpa [h] using listed)), rfl, fun slot => ?_⟩
    show maskBit (maskClear s.fw.valid (1 - s.fw.slot)) s.fw.slot = _ ∧ maskBit (maskClear s.fw.valid (1 - s.fw.slot)) (1 - s.fw.slot) = false
    simp [maskBit_maskClear]
    omega
  · exact congrArg Host.Outcome.next ((if_neg (by simp [h])).trans rfl)
  · exact congrArg Host.Outcome.next ((if_neg (by simp [h])).trans rfl)
  · refine ⟨_, congrArg Host.Outcome.next ((if_neg (by simp [h])).trans (if_pos rfl)), ?_⟩
    rw [State.fwEvent_fw, State.fwEvent_reg _ _ _ _ (by decide)]
    exact ⟨rfl, rfl, rfl, State.fwState_reg _ (by decide) (by decide)⟩
  · refine ⟨_, congrArg Host.Outcome.next ((if_neg (by simp [h])).trans (if_neg Bool.false_ne_true)), ?_⟩
    rw [State.fwEvent_fw, State.fwEvent_reg _ _ _ _ (by decide)]
    exact ⟨rfl, State.fwState_reg _ (by decide) (by decide)⟩
  · exact congrArg Host.Outcome.next ((if_neg (by simp [h])).trans rfl)
  · exact congrArg Host.Outcome.next ((if_neg (by simp [h])).trans rfl)
  · exact congrArg Host.Outcome.next (if_neg h)
  · exact congrArg Host.Outcome.next (if_neg (by simp [h]))
  · exact congrArg Host.Outcome.next (if_pos h)
  · exact congrArg Host.Outcome.next (if_pos h)
  · exact congrArg Host.Outcome.next (if_pos h)
  · exact congrArg Host.Outcome.next (if_pos may)
  · refine ⟨_, congrArg Host.Outcome.next (if_pos may), ?_⟩
    show (State.fwEvent _ _ _ _).fw = _ ∧ (State.fwEvent _ _ _ _).reg _ _ = _
    rw [State.fwEvent_fw, State.fwEvent_reg _ _ _ _ (by decide)]
    exact ⟨rfl, State.fwState_reg _ (by decide) (by decide)⟩
  · exact congrArg Host.Outcome.next (if_neg (by simp [may]))
  · exact congrArg Host.Outcome.next (if_neg (by simp [may]))
  · exact ⟨_, exec_componentSwitch active unarmed (by omega), State.switched_dmc first healthy turn dmc wf⟩
  · refine (exec_componentSwitch active unarmed (by rwa [turn])).trans (congrArg Host.Outcome.next ?_)
    unfold State.switched
    simp [show s.fw.switched ≠ 0 by omega, show s.fw.switched ≠ 53 by omega]
    rfl
  · refine ⟨_, exec_componentSwitch active unarmed (by omega), ?_⟩
    have flips : s.switched = (s.modFw fun f => { f with switched := 54 }).flipSlot := by
      unfold State.switched
      simp [last]
    rw [flips]
    exact State.flipSlot_fw own
  · exact congrArg Host.Outcome.next (if_pos (by simp [low, high, busy]))
  · exact ⟨_, congrArg Host.Outcome.next (if_pos active), State.rollBack_own own false⟩
  · exact congrArg Host.Outcome.next (if_neg (by simp [idle]))

end Sys2Proof.Machine
end

section
/-! Proofs of chapter 14: service operations, spare cores and the management controllers (R455 to R461). -/
set_option Elab.async false
namespace Sys2Proof.Machine

/-! ### What a mark leaves of the cores and the controllers -/

section Marked

variable (s : State) {acc : Nat} (owner : isOwner acc = true)
include owner

theorem State.marked_physState (p : Nat) : (s.marked acc).physState p = s.physState p :=
  s.marked_reg_owner owner (by unfold dkey; omega)

theorem State.marked_physOf (l : Nat) : (s.marked acc).physOf l = s.physOf l :=
  congrArg codePhys (s.marked_reg_owner owner (by unfold dkey; omega))

theorem State.marked_spareOf (p : Nat) : (s.marked acc).spareOf p = s.spareOf p := by
  have logical (k : Nat) : (s.marked acc).logicalOf k = s.logicalOf k := s.marked_reg_owner owner (by unfold dkey; omega)
  unfold State.spareOf
  simp only [s.marked_physState owner, logical]

theorem State.marked_dmcsHealthy : (s.marked acc).dmcsHealthy = s.dmcsHealthy := by
  have active : (s.marked acc).activeDmc = s.activeDmc := s.marked_reg_owner owner (by decide)
  have dmc (d : Nat) : (s.marked acc).dmcState d = s.dmcState d := s.marked_reg_owner owner (by unfold dkey; omega)
  unfold State.dmcsHealthy
  rw [active, dmc, dmc]

end Marked

theorem State.marked_targetPhys (s : State) (acc : Nat) : (s.marked acc).targetPhys = s.targetPhys := by
  unfold State.targetPhys
  rw [s.marked_reg_sub acc (by decide) (by decide) (by decide)]

theorem State.marked_serviceRuns (s : State) (acc : Nat) : (s.marked acc).serviceRuns = s.serviceRuns := by simp [State.serviceRuns]

theorem State.marked_mayActivate (s : State) (acc : Nat) : (s.marked acc).mayActivate = s.mayActivate := by
  simp [State.mayActivate, State.spareSlot]

theorem State.TakesScalar.serviceOwner {s : State} {acc v : Nat} (takes : s.TakesScalar acc 0xA000 2 v) : isOwner acc = true :=
  takes.owner fun _ => rfl

/-- An accepted write of service_op takes the next mark, and the operation is given to the service controller (R455). -/
theorem State.scalarWrite_service {s : State} {acc v : Nat} (takes : s.TakesScalar acc 0xA000 2 v) (e : Env) :
    s.scalarWrite acc 0xA000 2 v e = ((s.marked acc).serviceOp v e).saysDone acc 0xA000 2 := by
  obtain ⟨bytes, value, ran⟩ := State.scalarWrite_acts takes (by decide) (by decide) (by decide) e
  exact ran.trans (congrArg (fun n => ((s.marked acc).serviceOp n e).saysDone acc 0xA000 2) value)

/-- While no operation runs, an accepted one begins. -/
theorem State.Serves.begins {s t : State} {acc v : Nat} (serves : s.Serves acc v) {e : Env}
    (begun : (s.marked acc).serviceRuns = false → (s.marked acc).serviceOp v e = t) :
    s.scalarWrite acc 0xA000 2 v e = t.saysDone acc 0xA000 2 :=
  (State.scalarWrite_service serves.takes e).trans
    (congrArg (fun u => State.saysDone u acc 0xA000 2) (begun ((s.marked_serviceRuns acc).trans serves.idle)))

/-! ### The hand-over (R456 to R458) -/

/-- A spare takes over for a core in the right state. -/
theorem State.beginHandover_runs {u : State} {t : Nat} {replace : Bool} (logical : u.reg 0xA000 3 < 64)
    (spare : u.spareOf (u.physOf (u.reg 0xA000 3)) = some t)
    (right : (if replace then u.physState (u.physOf (u.reg 0xA000 3)) ≠ 4 && u.physState (u.physOf (u.reg 0xA000 3)) ≠ 3
      else decide (u.physState (u.physOf (u.reg 0xA000 3)) ≠ 0)) = false) :
    u.beginHandover replace = (State.serviceStatus { u.modCore t fun c => { c with gated := 0, retained := 0 } with
      av := { u.av with handover := some ⟨u.reg 0xA000 3, t, replace, replace, replace⟩ } } 1).settleOps := by
  unfold State.beginHandover
  simp only [spare]
  exact (if_neg (Nat.not_le.mpr logical)).trans (if_neg (ne_true_of_eq_false right))

theorem State.beginHandover_refuses {u : State} {replace : Bool}
    (wrong : (if replace then u.physState (u.physOf (u.reg 0xA000 3)) ≠ 4 && u.physState (u.physOf (u.reg 0xA000 3)) ≠ 3
      else decide (u.physState (u.physOf (u.reg 0xA000 3)) ≠ 0)) = true) {t : Nat} (logical : u.reg 0xA000 3 < 64)
    (spare : u.spareOf (u.physOf (u.reg 0xA000 3)) = some t) : u.beginHandover replace = u.serviceStatus 5 := by
  unfold State.beginHandover
  simp only [spare]
  exact (if_neg (Nat.not_le.mpr logical)).trans (if_pos wrong)

/-! ### Self-tests (R459) -/

/-- Of what the servers know of cores, controllers and events, a raise changes the records that wait and the times of posting. -/
theorem State.raise_av (s : State) (r : Raise) :
    (s.raise r).av = { s.av with preReady := (s.raise r).av.preReady, lastPost := (s.raise r).av.lastPost } := by
  have same := s.noted_av r
  have fields : ∀ a b : Avail, a = b → ({ b with preReady := a.preReady, lastPost := a.lastPost } : Avail) = a := fun a b h => h ▸ rfl
  rw [State.raise_eq]
  dsimp only
  split
  · split
    · simp only [State.holdRecord, same]
    · simp only [State.holdRecord, State.toManagement_av, same]
  · split
    · exact (fields _ _ same).symm
    · have posted : ((s.noted r).postRecord r (s.eventOf r)).av = s.av :=
        (((Keeps.postRecord (Keeps.refl (s.noted r)) (Sub.refl _)).frame .av rfl :) : _ = (s.noted r).av).trans same
      simp only [State.notePosted, posted]

theorem Core.testBanks_ne_init (c : Core) (n : Nat) : c.testBanks n ≠ Core.init := by
  have tested : Bank.tested 16 ≠ Bank.init 16 := by decide +kernel
  exact fun h => tested (congrArg Core.gxeBank h)

/-- What a self-test that fails its core leaves, before the spares and the causes are judged anew. -/
def State.failedTest (s : State) (p cause : Nat) : State :=
  let s := (s.failPhys p cause).modCore p fun c => c.testBanks ((s.failPhys p cause).bankSize p 0)
  let s := if s.av.serviceTest = some p then State.serviceStatus { s with av := { s.av with serviceTest := none } } 2 else s
  { s with av := { s.av with testing := s.av.testing.erase p } }

/-- A result of 2, or a bank with other words, fails the core (R108, R459). -/
theorem execCoreSelftestComplete_fails {s : State} {p n : Nat} {words : List (Nat × List W64)} (testing : p ∈ s.av.testing)
    (fails : s.resultFails p n = true ∨ s.badWords p words ≠ []) : ∃ cause,
    execCoreSelftestComplete p n words s = .next ((s.failedTest p cause).judgeSpares.judgeCores) := by
  have real : (s.resultFails p n || !(s.badWords p words).isEmpty) = true := by
    rcases fails with h | h
    · simp [h]
    · simp [h]
  unfold execCoreSelftestComplete
  simp only [List.contains_iff_mem.mpr testing, real]
  exact ⟨_, rfl⟩

theorem State.setCause_reg (s : State) (bit : Nat) (on : Bool) {idx sub : Nat} (causes : dkey idx sub ≠ dkey 0xA000 1)
    (alert : dkey idx sub ≠ dkey 0x9000 3) : (s.setCause bit on).reg idx sub = s.reg idx sub := by
  unfold State.setCause
  extract_lets old new t
  split
  · exact (State.reg_setReg_other _ alert).trans (State.reg_setReg_other _ causes)
  · exact State.reg_setReg_other _ causes

/-- Judging the spares and the cores leaves the states of the cores. -/
theorem State.judged_physState (s : State) (p : Nat) : s.judgeSpares.judgeCores.physState p = s.physState p := by
  have spares : s.judgeSpares.physState p = s.physState p := State.reg_setReg_other _ (by unfold dkey; omega)
  refine Eq.trans ?_ spares
  unfold State.judgeCores State.physState
  dsimp only
  rw [State.setCause_reg _ _ _ (by unfold dkey; omega) (by unfold dkey; omega),
    State.setCause_reg _ _ _ (by unfold dkey; omega) (by unfold dkey; omega)]

/-- The core of a self-test that fails is FAILED, is no longer under test, and every row of every cistern stands (R459). -/
theorem State.failedTest_leaves (s : State) {p : Nat} (core : p < 72) (cause : Nat) :
    (s.failedTest p cause).judgeSpares.judgeCores.av.testing = s.av.testing.erase p
    ∧ (s.failedTest p cause).judgeSpares.judgeCores.physState p = 3
    ∧ ∀ k, ((s.failedTest p cause).judgeSpares.judgeCores.core k).rows = (s.core k).rows := by
  have judged := Keeps.judgeCores (Keeps.judgeSpares (Keeps.refl (s.failedTest p cause)) (hm := Sub.refl _)) (hm := Sub.refl _)
  have av : (s.failedTest p cause).judgeSpares.judgeCores.av = (s.failedTest p cause).av := judged.frame .av rfl
  have cores : (s.failedTest p cause).judgeSpares.judgeCores.cores = (s.failedTest p cause).cores := judged.frame .cores rfl
  have failed : (s.failPhys p cause).physState p = 3 := by
    have bits : ∀ p < 72, 3 % 2 ^ regBits (dkey (0xA100 + p) 1) = 3 ∧ regDefault (dkey (0xA100 + p) 1) ≠ 3 := by decide +kernel
    obtain ⟨kept, own⟩ := bits p core
    refine (State.raise_reg _ _ ?_).trans ?_
    · simp only [raiseKeys, dkey, Option.map_none, Option.toList_none, List.append_nil, List.mem_cons, List.not_mem_nil, or_false]
      omega
    · rw [State.reg_setReg_other _ (by unfold dkey; omega), State.reg_setReg_other _ (by unfold dkey; omega)]
      exact (State.reg_setReg_listed s (by rw [kept]; exact own.symm)).trans kept
  have tested : (s.failPhys p cause).av.testing = s.av.testing := (congrArg Avail.testing (State.raise_av _ _) :)
  have rows (k : Nat) : (((s.failPhys p cause).modCore p fun c => c.testBanks ((s.failPhys p cause).bankSize p 0)).core k).rows = (s.core k).rows := by
    have same : (s.failPhys p cause).core k = s.core k := by
      have := (Keeps.failPhys (Keeps.refl s) (p := p) (cause := cause) (inj := false) (hm := Sub.refl _)).frame .cores rfl
      exact congrArg (fun l => SMap.get Core.init l k) this
    by_cases h : k = p
    · subst h
      rw [State.core_modCore_same _ _ (Core.testBanks_ne_init _ _)]
      show ((s.failPhys k cause).core k).rows = (s.core k).rows
      rw [same]
    · rw [State.core_modCore_other _ _ h, same]
  have fields : ∀ w : State, w.av.testing = s.av.testing →
      let u := if w.av.serviceTest = some p then State.serviceStatus { w with av := { w.av with serviceTest := none } } 2 else w
      u.av.testing = s.av.testing ∧ u.physState p = w.physState p ∧ u.cores = w.cores := by
    intro w testing
    dsimp only
    split
    · exact ⟨testing, State.reg_setReg_other (i := 0xA000) (j := 5) _ (by unfold dkey; omega), rfl⟩
    · exact ⟨testing, rfl, rfl⟩
  obtain ⟨testing, state, same⟩ := fields ((s.failPhys p cause).modCore p fun c => c.testBanks ((s.failPhys p cause).bankSize p 0)) tested
  refine ⟨?_, ?_, fun k => ?_⟩
  · rw [av]
    exact congrArg (·.erase p) testing
  · rw [State.judged_physState]
    exact state.trans failed
  · refine Eq.trans ?_ (rows k)
    rw [State.core, cores]
    exact congrArg (fun l => (SMap.get Core.init l k).rows) same

/-- A self-test that passes makes its core SPARE, with the lanes of its fuse records (R459). -/
theorem execCoreSelftestComplete_passes {s : State} {p : Nat} {words : List (Nat × List W64)} (testing : p ∈ s.av.testing)
    (good : s.badWords p words = []) (unarmed : s.armed 0x9018 (physCode p) 0 = false) (other : s.av.serviceTest ≠ some p) :
    let v := ((s.passPhys p none).setPhys p 1).setCore p (if s.reg 0x2100 4 = 1 then Core.spare else Core.init)
    execCoreSelftestComplete p 0 words s = .next (State.judgeCores (State.judgeSpares
      { v.modCore p fun c => c.testBanks (v.bankSize p 0) with av := { s.av with testing := s.av.testing.erase p } })) := by
  intro v
  have whole : s.resultFails p 0 = false := rfl
  have untested : (v.modCore p fun c => c.testBanks (v.bankSize p 0)).av.serviceTest ≠ some p := other
  unfold execCoreSelftestComplete
  simp only [List.contains_iff_mem.mpr testing, whole, good, unarmed]
  refine congrArg Host.Outcome.next ((if_neg (by decide)).trans ?_)
  exact congrArg (fun u : State => State.judgeCores (State.judgeSpares { u with av := { u.av with testing := u.av.testing.erase p } }))
    (if_neg untested)

/-- Settles O32. -/
theorem serviceOperationsAct : Obligations.ServiceOperationsAct := by
  refine ⟨?_, ?_, ?_, ?_, ?_, ?_, ?_, ?_⟩
  · rintro s acc p t rfl logical spare
    have target : (s.marked acc).reg 0xA000 3 = s.reg 0xA000 3 := s.marked_reg_sub acc (by decide) (by decide) (by decide)
    intro w
    have runs {v : Nat} {replace : Bool} (serves : s.Serves acc v) (op : ∀ u : State, u.serviceRuns = false → u.serviceOp v Env.none = u.beginHandover replace)
        (right : (if replace then s.physState (s.physOf (s.reg 0xA000 3)) ≠ 4 && s.physState (s.physOf (s.reg 0xA000 3)) ≠ 3
          else decide (s.physState (s.physOf (s.reg 0xA000 3)) ≠ 0)) = false) : s.scalarWrite acc 0xA000 2 v = w replace := by
      have owner := serves.takes.serviceOwner
      refine serves.begins fun idle => (op _ idle).trans ?_
      have begun := State.beginHandover_runs (u := s.marked acc) (t := t) (replace := replace) (by rwa [target])
        (by rwa [target, s.marked_physOf owner, s.marked_spareOf owner])
        (by rwa [target, s.marked_physOf owner, s.marked_physState owner])
      rw [begun, target, State.marked_av]
    have refuses {v : Nat} {replace : Bool} (serves : s.Serves acc v) (op : ∀ u : State, u.serviceRuns = false → u.serviceOp v Env.none = u.beginHandover replace)
        (wrong : (if replace then s.physState (s.physOf (s.reg 0xA000 3)) ≠ 4 && s.physState (s.physOf (s.reg 0xA000 3)) ≠ 3
          else decide (s.physState (s.physOf (s.reg 0xA000 3)) ≠ 0)) = true) :
        s.scalarWrite acc 0xA000 2 v = ((s.marked acc).serviceStatus 5).saysDone acc 0xA000 2 := by
      have owner := serves.takes.serviceOwner
      refine serves.begins fun idle => (op _ idle).trans ?_
      exact State.beginHandover_refuses (t := t) (by rwa [target, s.marked_physOf owner, s.marked_physState owner]) (by rwa [target])
        (by rwa [target, s.marked_physOf owner, s.marked_spareOf owner])
    have rotate (u : State) (idle : u.serviceRuns = false) : u.serviceOp 1 Env.none = u.beginHandover false := by simp [State.serviceOp, idle]
    have replace (u : State) (idle : u.serviceRuns = false) : u.serviceOp 2 Env.none = u.beginHandover true := by simp [State.serviceOp, idle]
    refine ⟨fun serves active => ?_, fun serves broken => ?_, fun serves idle => ?_, fun serves not4 not3 => ?_⟩
    · exact congrArg Host.Outcome.next (runs serves rotate (by simp [active]))
    · exact congrArg Host.Outcome.next (runs serves replace (by rcases broken with h | h <;> simp [h]))
    · exact congrArg Host.Outcome.next (refuses serves rotate (by simp [idle]))
    · exact congrArg Host.Outcome.next (refuses serves replace (by simp [not4, not3]))
  · intro s acc
    have target : (s.marked acc).reg 0xA000 3 = s.reg 0xA000 3 := s.marked_reg_sub acc (by decide) (by decide) (by decide)
    refine ⟨fun logical none' serves => ?_, fun beyond serves => ?_⟩
    · have owner := serves.takes.serviceOwner
      refine congrArg Host.Outcome.next (serves.begins fun idle => ?_)
      have lacks : (s.marked acc).spareOf ((s.marked acc).physOf ((s.marked acc).reg 0xA000 3)) = none := by
        rwa [target, s.marked_physOf owner, s.marked_spareOf owner]
      have logical' : ¬64 ≤ (s.marked acc).reg 0xA000 3 := by omega
      simp only [State.serviceOp, idle, State.beginHandover, lacks, logical']
      rfl
    · refine congrArg Host.Outcome.next (serves.begins fun idle => ?_)
      simp [State.serviceOp, idle, State.beginHandover, target, beyond]
  · intro s acc p aim
    have aim' : (s.marked acc).targetPhys = some p := (s.marked_targetPhys acc).trans aim
    refine ⟨fun serves => ?_, fun serves => ?_, fun serves => ?_⟩
    all_goals have state := s.marked_physState serves.takes.serviceOwner p
    · refine ⟨fun fit => ?_, fun not1 not3 => ?_⟩
      · refine congrArg Host.Outcome.next (serves.begins fun idle => ?_)
        have ok : ((s.marked acc).physState p ≠ 1 && (s.marked acc).physState p ≠ 3) = false := by
          rw [state]
          rcases fit with h | h <;> simp [h]
        simp only [State.serviceOp, idle, State.beginSelftest, aim', ok]
        have av := s.marked_av acc
        show State.serviceStatus { ((s.marked acc).setPhys p 2).modCore p Core.blank with
          av := { (s.marked acc).av with testing := (s.marked acc).av.testing ++ [p], serviceTest := some p } } 1 = _
        rw [av]
      · refine congrArg Host.Outcome.next (serves.begins fun idle => ?_)
        simp [State.serviceOp, idle, State.beginSelftest, aim', state, not1, not3]
    · refine ⟨fun spare => ?_, fun other => ?_⟩
      all_goals
        refine congrArg Host.Outcome.next (serves.begins fun idle => ?_)
      · simp [State.serviceOp, idle, State.retireCore, aim', state, spare]
      · simp [State.serviceOp, idle, State.retireCore, aim', state, other]
    · refine ⟨fun spare => ?_, fun other => ?_⟩
      all_goals
        refine congrArg Host.Outcome.next (serves.begins fun idle => ?_)
      · simp [State.serviceOp, idle, State.clearFuses, aim', state, spare]
      · simp [State.serviceOp, idle, State.clearFuses, aim', state, other]
  · intro s acc
    refine ⟨fun serves => ⟨fun healthy => ?_, fun sick => ?_⟩, fun serves => ⟨fun may => ⟨?_, ?_⟩, fun may b => ?_⟩, fun runs takes => ?_⟩
    · refine congrArg Host.Outcome.next (serves.begins fun idle => ?_)
      simp [State.serviceOp, idle, State.switchDmcs, s.marked_dmcsHealthy serves.takes.serviceOwner, healthy]
    · refine congrArg Host.Outcome.next (serves.begins fun idle => ?_)
      simp [State.serviceOp, idle, State.switchDmcs, s.marked_dmcsHealthy serves.takes.serviceOwner, sick]
    · refine congrArg Host.Outcome.next (serves.begins fun idle => ?_)
      simp [State.serviceOp, idle, State.serviceActivate, s.marked_mayActivate, may]
    · refine congrArg Host.Outcome.next (serves.begins fun idle => ?_)
      simp [State.serviceOp, idle, State.serviceActivate, s.marked_mayActivate, may]
    · refine congrArg Host.Outcome.next (serves.begins fun idle => ?_)
      simp [State.serviceOp, idle, State.serviceActivate, s.marked_mayActivate, may]
    · refine congrArg Host.Outcome.next ((State.scalarWrite_service takes Env.none).trans ?_)
      simp [State.serviceOp, s.marked_serviceRuns, runs]
  · intro s up
    refine ⟨fun h found copying free => ?_, fun none' => ?_⟩
    · unfold exec execHandoverComplete
      simp [found, copying, free]
    · unfold exec execHandoverComplete
      simp [none']
  · intro s p words core testing
    refine ⟨fun good unarmed other => ?_, ?_, fun bad => ?_⟩
    · have lanes : (((s.passPhys p none).setPhys p 1)).reg 0x2100 4 = s.reg 0x2100 4 := by
        refine (State.reg_setReg_other (i := 0xA100 + p) (j := 1) _ (by unfold dkey; omega)).trans ?_
        refine (State.reg_setReg_other (i := 0xA100 + p) (j := 4) _ (by unfold dkey; omega)).trans ?_
        refine (State.reg_setReg_other (i := 0xA100 + p) (j := 5) _ (by unfold dkey; omega)).trans ?_
        exact State.reg_setReg_other (i := 0xA100 + p) (j := 3) _ (by unfold dkey; omega)
      have passed := execCoreSelftestComplete_passes testing good unarmed other
      rw [← lanes] at passed
      exact passed
    · obtain ⟨cause, ran⟩ := execCoreSelftestComplete_fails (n := 2) (words := words) testing (.inl rfl)
      exact ⟨_, ran, s.failedTest_leaves core cause⟩
    · obtain ⟨cause, ran⟩ := execCoreSelftestComplete_fails (n := 0) testing (.inr bad)
      exact ⟨_, ran, s.failedTest_leaves core cause⟩
  · intro s p n words idle
    exact congrArg Host.Outcome.next (if_pos (by simp [idle]))
  · intro s
    refine ⟨fun sends unarmed => ?_, fun muted => ?_, fun healthy sends => ⟨?_, ?_⟩, fun sick => ⟨?_, ?_⟩⟩
    · unfold exec execHeartbeat
      simp [sends, unarmed]
    · unfold exec execHeartbeat
      simp [muted]
    · refine congrArg Host.Outcome.next ((if_neg (by simp [healthy, sends])).trans ?_)
      have av : ({ s.av with muted := false, missed := 0 } : Avail) = { s.av with missed := 0 } := by rw [← sends]
      show (State.setCause { (s.swapDmcs 2).bump 0xA020 4 1 with
        av := { s.av with muted := false, missed := 0 }, mgmt := { s.mgmt with waiting := none, queue := [] } } 5 true).dmcEvent 3 0 s.av.muted = _
      rw [av, sends]
    · exact congrArg Host.Outcome.next (if_neg (by simp [healthy]))
    · exact congrArg Host.Outcome.next (if_pos (by simp [sick]))
    · exact congrArg Host.Outcome.next (if_pos (by simp [sick]))

end Sys2Proof.Machine
end

section
/-! Proofs of chapter 13: the host's links and configuration space (R420 to R422, R438, R450, R493). -/
set_option Elab.async false
namespace Sys2Proof.Machine

/-- An event of a host link leaves the entries of the links. -/
theorem State.linkEvent_reg (s : State) (cause link detail : Nat) (inj : Bool) {sub : Nat} (small : sub < 256) :
    (s.linkEvent cause link detail inj).reg 0xB000 sub = s.reg 0xB000 sub := by
  refine State.raise_reg _ _ ?_
  simp only [raiseKeys, dkey, Option.map_none, Option.toList_none, List.append_nil, List.mem_cons, List.not_mem_nil, or_false]
  omega

/-- The other link stands when one goes down. -/
theorem State.linkDown_other (s : State) {l : Nat} (link : l < 2) :
    (State.setCause ((((s.setReg 0xB000 (1 + l) 0).setReg 0xB000 (3 + l) 0).setReg 0xB000 (5 + l) 0).linkEvent 0 l) 4 true).hostLinkState (1 - l) =
      s.hostLinkState (1 - l) := by
  unfold State.hostLinkState
  rw [State.setCause_reg _ _ _ (by unfold dkey; omega) (by unfold dkey; omega), State.linkEvent_reg _ _ _ _ _ (by omega),
    State.reg_setReg_other _ (by unfold dkey; omega), State.reg_setReg_other _ (by unfold dkey; omega),
    State.reg_setReg_other _ (by unfold dkey; omega)]

/-- An error on a fetch stops the pair (R450). -/
theorem State.fetchError_eq (s : State) (f q : Nat) : s.fetchError f q =
    (((((s.setPair f q { s.pair f q with fetched := [], live := false }).setReg (pairIdx f q) 8 0).setReg (pairIdx f q) 16 3).bump
      0xB000 9 1).linkEvent 2 (s.qp f q 7) (f * 256 + q)) := by
  have home : (((s.setPair f q { s.pair f q with fetched := [], live := false }).setQp f q 8 0).setQp f q 16 3).qp f q 7 = s.qp f q 7 :=
    (State.reg_setReg_other _ (by unfold dkey; omega)).trans (State.reg_setReg_other _ (by unfold dkey; omega))
  unfold State.fetchError
  dsimp only
  rw [home]
  rfl

theorem maskBit_four (m : Nat) : maskBit m 4 = decide (m / 16 % 2 = 1) := by
  simp [maskBit, Nat.testBit_eq_decide_div_mod_eq]

/-! ### Pending messages (R438) -/

/-- One vector of sendPending: its pending message is sent where it may be. -/
def State.sendVector (fn : Nat) (s : State) (v : Nat) : State :=
  if maskBit (SMap.get 0 s.host.msixPending fn) v && s.vectorOpen fn v then
    State.signal { s with host := { s.host with msixPending := SMap.mod 0 s.host.msixPending fn fun m => maskClear m v } } fn v
  else s

/-- The messages of a list of vectors have been sent, where they were pending and might be. -/
structure State.SentPending (fn : Nat) (s t : State) (l : List Nat) : Prop where
  open' : ∀ v, t.vectorOpen fn v = s.vectorOpen fn v
  table : t.host.msixTable = s.host.msixTable
  bits : ∀ v, maskBit (SMap.get 0 t.host.msixPending fn) v =
    (maskBit (SMap.get 0 s.host.msixPending fn) v && !(decide (v ∈ l) && s.vectorOpen fn v))
  messages : t.host.messages = s.host.messages ++
    (l.filter fun k => maskBit (SMap.get 0 s.host.msixPending fn) k && s.vectorOpen fn k).map fun k => SMap.get (0, 0) s.host.msixTable (32 * fn + k)

theorem State.sendVector_sent {fn : Nat} {s : State} (rising : SMap.rising 0 s.host.msixPending = true) (v : Nat) :
    State.SentPending fn s (s.sendVector fn v) [v] ∧ SMap.rising 0 (s.sendVector fn v).host.msixPending = true := by
  unfold State.sendVector
  split
  case isTrue sends =>
    obtain ⟨pending, may⟩ := Bool.and_eq_true_iff.mp sends
    have cleared : SMap.get 0 (SMap.mod 0 s.host.msixPending fn fun m => maskClear m v) fn = maskClear (SMap.get 0 s.host.msixPending fn) v :=
      SMap.get_set_same _ rising _ _
    have sent : State.signal { s with host := { s.host with msixPending := SMap.mod 0 s.host.msixPending fn fun m => maskClear m v } } fn v =
        { s with host := { s.host with
            msixPending := SMap.mod 0 s.host.msixPending fn fun m => maskClear m v
            msixSent := SMap.mod 0 s.host.msixSent (32 * fn + v) fun n => n + 1
            messages := s.host.messages ++ [SMap.get (0, 0) s.host.msixTable (32 * fn + v)] } } := if_pos may
    rw [sent]
    refine ⟨⟨fun _ => rfl, rfl, fun w => ?_, ?_⟩, SMap.rising_mod rising _ _⟩
    · show maskBit (SMap.get 0 (SMap.mod 0 s.host.msixPending fn fun m => maskClear m v) fn) w = _
      rw [cleared, maskBit_maskClear]
      by_cases h : v = w
      · subst h
        simp [may]
      · simp [h, Ne.symm h]
    · simp [pending, may]
  case isFalse stays =>
    refine ⟨⟨fun _ => rfl, rfl, fun w => ?_, ?_⟩, rising⟩
    · by_cases h : w = v
      · subst h
        cases hb : maskBit (SMap.get 0 s.host.msixPending fn) w <;> simp_all
      · simp [h]
    · simp [stays]

/-- Sending for distinct vectors, one after the other. -/
theorem State.sendVectors_sent {fn : Nat} (l : List Nat) (distinct : l.Nodup) {s : State} (rising : SMap.rising 0 s.host.msixPending = true) :
    State.SentPending fn s (l.foldl (State.sendVector fn) s) l := by
  induction l generalizing s with
  | nil => exact ⟨fun _ => rfl, rfl, fun v => by simp, by simp⟩
  | cons v l ih =>
    obtain ⟨new, rest⟩ := List.nodup_cons.mp distinct
    obtain ⟨first, rising'⟩ := State.sendVector_sent (fn := fn) rising v
    have later := ih rest rising'
    have same : (l.filter fun k => maskBit (SMap.get 0 (s.sendVector fn v).host.msixPending fn) k && (s.sendVector fn v).vectorOpen fn k) =
        l.filter fun k => maskBit (SMap.get 0 s.host.msixPending fn) k && s.vectorOpen fn k := by
      refine List.filter_congr fun k hk => ?_
      have other : k ≠ v := fun h => new (h ▸ hk)
      simp [first.bits, first.open', other]
    refine ⟨fun w => (later.open' w).trans (first.open' w), later.table.trans first.table, fun w => ?_, ?_⟩
    · rw [List.foldl_cons, later.bits, first.bits, first.open']
      by_cases h : w = v
      · subst h
        simp [new]
      · simp [h]
    · rw [List.foldl_cons, later.messages, first.messages, same, first.table, List.filter_cons]
      split <;> simp_all

/-- Settles O29. -/
theorem hostLinksFailOverAndReturn : Obligations.HostLinksFailOverAndReturn := by
  refine ⟨?_, ?_, ?_, ?_, ?_, ?_, ?_, ?_⟩
  · intro s l n link up u
    have stands : u.hostLinkState (1 - l) = s.hostLinkState (1 - l) := s.linkDown_other link
    refine ⟨fun peer => congrArg Host.Outcome.next ((if_neg ?_).trans (if_pos (stands.trans peer))),
      fun peer => congrArg Host.Outcome.next ((if_neg ?_).trans (if_neg fun h => peer (stands.symm.trans h)))⟩
    all_goals simp [up, Nat.not_lt.mpr (Nat.le_of_lt_succ link)]
  · intro s l n down
    exact congrArg Host.Outcome.next (if_pos (by simp [down]))
  · intro s l w r link down running die u v t
    exact congrArg Host.Outcome.next (if_neg (by simp [down, running, die, Nat.not_lt.mpr (Nat.le_of_lt_succ link)]))
  · intro s l w r stays
    exact congrArg Host.Outcome.next (if_pos (by rcases stays with h | h <;> simp [h]))
  · intro s f q u t
    refine ⟨?_, fun allowed => ?_, fun barred => ?_⟩
    · exact congrArg Host.Outcome.next (s.fetchError_eq f q)
    · refine congrArg Host.Outcome.next ((if_neg ?_).trans (s.fetchError_eq f q))
      rw [maskBit_four] at allowed
      exact of_decide_eq_false allowed
    · rw [maskBit_four] at barred
      exact congrArg Host.Outcome.next (if_pos (of_decide_eq_true barred))
  · intro s o unserved
    exact congrArg Host.Outcome.next (if_pos (by simp [unserved]))
  · intro s on n fn v served
    refine ⟨?_, ?_, ?_, ?_, ?_, ?_, fun few vec => ⟨fun a => ?_, ?_, fun masked => ?_, ?_⟩⟩
    · exact congrArg Host.Outcome.next (if_neg (by simp [served]))
    · exact congrArg Host.Outcome.next (if_neg (by simp [served]))
    · exact congrArg Host.Outcome.next (if_neg (by simp [served]))
    · exact congrArg Host.Outcome.next (if_neg (by simp [served]))
    · exact congrArg Host.Outcome.next (if_neg (by simp [served]))
    · exact congrArg Host.Outcome.next (if_neg (by simp [served]))
    · refine congrArg Host.Outcome.next ((if_neg (by simp [served])).trans ?_)
      exact congrArg (fun h : HostIf => { s with host := h }) (if_pos (c := (decide (fn < 17) && decide (v < 17)) = true) (by simp [few, vec]))
    · refine congrArg Host.Outcome.next ((if_neg (by simp [served])).trans ?_)
      refine (if_pos (c := (decide (fn < 17) && decide (v < 17)) = true) (by simp [few, vec])).trans ?_
      cases on <;> rfl
    · refine congrArg Host.Outcome.next ((if_neg (by simp [served])).trans (if_pos few))
    · refine congrArg Host.Outcome.next ((if_neg (by simp [served])).trans ((if_pos few).trans ?_))
      cases on <;> rfl
  · intro s fn v rising vec t sent
    have all := State.sendVectors_sent (fn := fn) (List.range 17) List.nodup_range rising
    refine ⟨(all.bits v).trans ?_, all.messages⟩
    simp [vec]

end Sys2Proof.Machine
end

section
/-! Proofs of chapter 13: the management endpoint (R444 to R446). -/
set_option Elab.async false
namespace Sys2Proof.Machine

/-- A request that meets an empty queue is served at once where the endpoint is free, and waits otherwise. -/
theorem State.mctpTake_empty {s : State} (served : s.served = true) (empty : s.mgmt.queue = []) (r : MctpReq) :
    s.mctpTake r = if s.mgmt.waiting.isSome || s.dictBusy 17 then { s with mgmt := { s.mgmt with queue := [r] } } else s.mctpServe r := by
  unfold State.mctpTake
  simp only [served, if_true, empty, List.nil_append, State.mctpPump, List.foldl_cons, List.foldl_nil]
  have back : { s with mgmt := { s.mgmt with queue := ([] : List MctpReq) } } = s := by rw [← empty]
  rw [back]
  rfl

/-- While the dictionary is not served the endpoint takes no request. -/
theorem State.mctpTake_unserved {s : State} (unserved : s.served = false) (r : MctpReq) : s.mctpTake r = s :=
  if_neg (by simp [unserved])

theorem State.answerMgmt_served {s : State} (served : s.served = true) (l : List Byte) : s.answerMgmt l = s.respond l := if_pos served

theorem State.answerMgmt_unserved {s : State} (unserved : s.served = false) (l : List Byte) : s.answerMgmt l = s :=
  if_neg (by simp [unserved])

/-- Settles O30: each request is answered at once while the dictionary is served, and an access waits for the one before it. -/
theorem managementEndpointAnswers : Obligations.ManagementEndpointAnswers := by
  unfold Obligations.ManagementEndpointAnswers
  refine ⟨fun s served => ?_, fun s l => ⟨rfl, rfl⟩, fun s req idx sub offset len served empty => ?_, ?_, ?_⟩
  · have answer (l : List Byte) : Host.Outcome.next (s.answerMgmt l) = (.next (s.respond l) : Host.Outcome State Fault Refusal) :=
      congrArg Host.Outcome.next (State.answerMgmt_served served l)
    refine ⟨fun a few free => ?_, fun a taken => ?_, fun op eid few low high => ?_, fun op eid other => ?_, answer _, fun ty known => ?_,
      fun ty h0 h1 h7 hF => ?_, answer _, answer _, fun sel other => ?_, fun bytes fits types => ?_, fun bytes fits other => ?_,
      fun n low high => ?_, answer _, fun n out => ?_⟩
    · refine congrArg Host.Outcome.next ((if_pos (by simp [served, free])).trans ?_)
      rw [Nat.mod_eq_of_lt few]
    · exact congrArg Host.Outcome.next (if_neg (by simp [taken]))
    · refine congrArg Host.Outcome.next ((if_neg (by simp [served])).trans (if_pos ?_))
      simp [setsEid, few, low, Nat.lt_succ_of_le high]
    · refine congrArg Host.Outcome.next ((if_neg (by simp [served])).trans (if_neg ?_))
      simp only [setsEid, Bool.and_eq_true, decide_eq_true_eq]
      omega
    · refine .trans (congrArg Host.Outcome.next (congrArg s.answerMgmt (if_pos ?_))) (answer _)
      obtain rfl | rfl | rfl | rfl := known <;> decide
    · refine .trans (congrArg Host.Outcome.next (congrArg s.answerMgmt (if_neg ?_))) (answer _)
      simp [mctpTypes, h0, h1, h7, hF]
    · exact .trans (congrArg Host.Outcome.next (congrArg s.answerMgmt (if_neg other))) (answer _)
    · refine .trans (congrArg Host.Outcome.next ((if_neg (by omega)).trans (congrArg s.answerMgmt (if_pos types)))) (answer _)
    · refine .trans (congrArg Host.Outcome.next ((if_neg (by omega)).trans (congrArg s.answerMgmt (if_neg other)))) (answer _)
    · have sensor : s.sensorBytes n = some (s.valueBytes 17 0x2010 n) := by
        unfold State.sensorBytes
        rw [if_neg (by unfold stateSensor; omega), if_pos (by simp only [Bool.and_eq_true, decide_eq_true_eq]; exact ⟨low, Nat.lt_succ_of_le high⟩)]
      refine .trans ?_ (answer _)
      exact congrArg Host.Outcome.next (congrArg s.answerMgmt (by rw [sensor]))
    · have sensor : s.sensorBytes n = none := by
        unfold State.sensorBytes
        rw [if_neg (by unfold stateSensor; omega), if_neg (by simp only [Bool.and_eq_true, decide_eq_true_eq]; unfold stateSensor; omega)]
      refine .trans ?_ (answer _)
      exact congrArg Host.Outcome.next (congrArg s.answerMgmt (by rw [sensor]))
  · have taken := State.mctpTake_empty served empty ⟨req, idx, sub, offset, len, none⟩
    refine ⟨fun alone idle bad => ?_, fun alone idle low high => ?_, fun waits => ?_⟩
    · refine congrArg Host.Outcome.next ((taken.trans (if_neg (by simp [alone, idle]))).trans (if_pos ?_))
      exact (badLength_iff ..).mpr bad
    · refine congrArg Host.Outcome.next ((taken.trans (if_neg (by simp [alone, idle]))).trans (if_neg ?_))
      simp [badLength_eq_false low high]
    · exact congrArg Host.Outcome.next (taken.trans (if_pos (by simp [Option.isSome_iff_ne_none, waits])))
  · intro s req idx sub offset bytes low high empty alone takes items plain
    have taken := State.mctpTake_empty takes.served empty ⟨req, idx, sub, offset, bytes.length, some bytes⟩
    have wrote := State.writeEntry_takes takes items Env.none
    refine congrArg Host.Outcome.next ((if_neg (by omega)).trans ((taken.trans (if_neg (by simp [alone, takes.idle]))).trans ?_))
    unfold State.mctpServe
    refine (if_neg (by simp [badLength_eq_false low high])).trans ?_
    simp only [wrote, State.written, plain]
    rfl
  · intro s req idx sub offset len bytes
    refine ⟨fun long => congrArg Host.Outcome.next (if_pos long), fun long => congrArg Host.Outcome.next (if_pos long), fun unserved => ?_⟩
    have mute (l : List Byte) : Host.Outcome.next (s.answerMgmt l) = (.next s : Host.Outcome State Fault Refusal) :=
      congrArg Host.Outcome.next (State.answerMgmt_unserved unserved l)
    have deaf (r : MctpReq) := State.mctpTake_unserved unserved r
    refine ⟨congrArg Host.Outcome.next (deaf _), congrArg Host.Outcome.next ((congrArg (ite _ s) (deaf _)).trans (ite_self s)), mute _,
      congrArg Host.Outcome.next (if_neg (by simp [unserved])), congrArg Host.Outcome.next (if_pos (by simp [unserved])), mute _, mute _, mute _, mute _,
      congrArg Host.Outcome.next ((congrArg (ite _ s) (State.answerMgmt_unserved unserved _)).trans (ite_self s))⟩

end Sys2Proof.Machine
end

section
/-! Proofs of chapter 07: the rate domains (R228 to R232). -/
set_option Elab.async false
namespace Sys2Proof.Machine

@[simp] theorem State.modDomain_reg (s : State) (d : Nat) (f : Domain → Domain) (i j : Nat) : (s.modDomain d f).reg i j = s.reg i j := rfl

/-- What is done to a domain depends on it as it stands. -/
theorem State.modDomain_congr {s : State} {d : Nat} {f g : Domain → Domain} (same : f (s.domain d) = g (s.domain d)) : s.modDomain d f = s.modDomain d g :=
  congrArg (fun x => { s with strm := { s.strm with domains := SMap.set Domain.init s.strm.domains d x } }) same

@[simp] theorem State.setReg_domain (s : State) (i j v k : Nat) : (s.setReg i j v).domain k = s.domain k := rfl

@[simp] theorem State.setDm_domain (s : State) (d sub v k : Nat) : (s.setDm d sub v).domain k = s.domain k := rfl

/-- An entry of a domain is none of the entries that all domains share. -/
theorem State.setDm_shared (s : State) (d v : Nat) {sub other : Nat} (few : other < 4096) : (s.setDm d sub v).reg 0x5800 other = s.reg 0x5800 other :=
  State.reg_setReg_other _ (by unfold dkey; omega)

/-- A tick that falls leaves whether a stop of the domain is pending. -/
theorem State.passTick_stopping (s : State) (d : Nat) : ((s.passTick d).domain d).stopping = (s.domain d).stopping := by
  have moved : (s.passTick d).domain d = { s.domain d with next := (s.domain d).next + 1, at' := (s.domain d).at' + s.dm d 12 } :=
    SMap.get_set_listed Domain.init s.strm.domains d (v := { s.domain d with next := (s.domain d).next + 1, at' := (s.domain d).at' + s.dm d 12 })
      fun h => absurd (congrArg Domain.next h) (Nat.succ_ne_zero _)
  rw [moved]

/-- The count of a frame tick, where no stop of the domain is pending. -/
theorem State.countFrame_goesOn {s : State} {d : Nat} (t : Nat) (goes : (s.domain d).stopping = false) :
    s.countFrame d t = (s.setDm d 10 (s.dm d 10 + 1)).modDomain d fun x => { x with lastFrame := t, stopping := false, shared := 1 } :=
  if_neg (by simp [goes])

/-- The count of a frame tick at which the domain stops. -/
theorem State.countFrame_stops {s : State} {d : Nat} (t : Nat) (stops : (s.domain d).stopping = true) :
    s.countFrame d t =
      ((s.setDm d 10 (s.dm d 10 + 1)).modDomain d fun x => { x with lastFrame := t, stopping := false, shared := 1 }).setDm d 8 0 :=
  if_pos stops

/-- Counting a frame of a domain leaves whether shared-tick mode is in force, and what shared_tick asks for. -/
theorem State.countFrame_shared (s : State) (d t : Nat) {sub : Nat} (few : sub < 4096) : (s.countFrame d t).reg 0x5800 sub = s.reg 0x5800 sub := by
  cases stop : (s.domain d).stopping
  · rw [s.countFrame_goesOn t stop, State.modDomain_reg, State.setDm_shared _ _ _ few]
  · rw [s.countFrame_stops t stop, State.setDm_shared _ _ _ few, State.modDomain_reg, State.setDm_shared _ _ _ few]

theorem State.countFrame_sharedOn (s : State) (d t : Nat) : (s.countFrame d t).sharedOn = s.sharedOn :=
  congrArg (fun v : Nat => decide (v = 1)) (s.countFrame_shared d t (by omega))

theorem State.countFrame_dev (s : State) (d t : Nat) : (s.countFrame d t).top.dev = s.top.dev := by
  cases stop : (s.domain d).stopping
  · rw [s.countFrame_goesOn t stop]; rfl
  · rw [s.countFrame_stops t stop]; rfl

/-- A domain that ticks on its own is due where the PLL is locked and its cycle has come. -/
theorem State.tickDue_iff (s : State) (d : Nat) : s.tickDue d = true ↔ s.reg 0x2100 1 = 1 ∧ s.OwnTick d ∧ (s.domain d).at' / 2 ^ 24 ≤ s.now := by
  simp only [State.tickDue, State.ownTick, State.dmRuns, State.sharedOn, State.OwnTick, Bool.and_eq_true, Bool.or_eq_true,
    decide_eq_true_eq, Bool.not_eq_true', decide_eq_false_iff_not, and_assoc, ne_eq]
  exact Iff.rfl

/-- The period that a start takes is the configured one. -/
theorem State.dmPeriod_started (s : State) (d t : Nat) : (((s.setDm d 6 0).setDm d 8 1).setDm d 9 t).dmPeriod d =
    s.reg (0x5810 + d) 1 % 65536 * 2 ^ 24 + s.reg (0x5810 + d) 2 % 2 ^ 24 := by
  have entry {sub : Nat} (few : sub = 1 ∨ sub = 2) : (((s.setDm d 6 0).setDm d 8 1).setDm d 9 t).dm d sub = s.dm d sub := by
    unfold State.dm State.setDm
    rw [State.reg_setReg_other _ (by unfold dkey; omega), State.reg_setReg_other _ (by unfold dkey; omega),
      State.reg_setReg_other _ (by unfold dkey; omega)]
  unfold State.dmPeriod
  rw [entry (.inl rfl), entry (.inr rfl)]
  rfl

/-- What a start leaves of a domain is anchored where it follows an edge. -/
theorem State.modDomain_anchored {s : State} {d : Nat} (t : Nat) {anchored : Bool} (edge : (s.domain d).edgeAt.isSome = anchored) :
    (s.modDomain d fun x => { x with next := 0, at' := t * 2 ^ 24, armed := none, start := none, edgeAt := none, anchored := x.edgeAt.isSome,
                                     edges := 0, again := false }) =
      s.modDomain d fun x => { x with next := 0, at' := t * 2 ^ 24, armed := none, start := none, edgeAt := none, anchored := anchored,
                                      edges := 0, again := false } := by
  subst edge
  rfl

/-- A start of its own writes the entries of the domain and clears what brought it about. -/
theorem State.startDomain_own {s : State} {d : Nat} (t : Nat) {anchored : Bool}
    (own : ((s.domain d).edgeAt.isNone || (s.domain d).armed.isSome) = true) (edge : (s.domain d).edgeAt.isSome = anchored) :
    s.startDomain d t =
      ((((s.setReg (0x5810 + d) 6 0).setReg (0x5810 + d) 8 1).setReg (0x5810 + d) 9 t).setReg (0x5810 + d) 12
        (s.reg (0x5810 + d) 1 % 65536 * 2 ^ 24 + s.reg (0x5810 + d) 2 % 2 ^ 24)).modDomain d fun x =>
          { x with next := 0, at' := t * 2 ^ 24, armed := none, start := none, edgeAt := none, anchored := anchored, edges := 0, again := false } := by
  unfold State.startDomain
  simp only [own, if_true]
  rw [s.dmPeriod_started]
  unfold State.setDm
  exact State.modDomain_anchored t (by rw [State.setReg_domain, State.setReg_domain, State.setReg_domain, State.setReg_domain, edge])

/-- An interval between edges is 1 s within 100 ppm. -/
def goodInterval (c : Nat) : Bool := 400000000 - 40000 ≤ c && c ≤ 400000000 + 40000

/-- An edge after a good interval, with no injection and no loss to end, is stored and reaches the domains. -/
theorem State.detectEdge_good {s : State} {p : Nat} (since : s.strm.ppsEdge = some p) (good : goodInterval (s.now - p) = true)
    (quiet : s.armed 0x901A 0 0 = false) (held : s.strm.ppsLost = false) :
    s.detectEdge = (List.range 32).foldl (fun t d => t.edgeDomain s.now (s.now - p) d)
      (let u := ((State.setReg { s with strm := { s.strm with ppsEdge := some s.now } } 0x5800 3 s.now).setReg 0x5800 4 (s.now - p)).setReg 0x5800 5 1
       { u with strm := { u.strm with ppsInj := false } }) := by
  unfold goodInterval at good
  unfold State.detectEdge
  simp only [since, good, quiet, Bool.and_false, Bool.not_true, Bool.or_false, Bool.false_eq_true, if_false]
  simp [State.setReg, held]

/-- An edge after any other interval is not valid, and counted. -/
theorem State.detectEdge_bad {s : State} {p : Nat} (since : s.strm.ppsEdge = some p) (bad : goodInterval (s.now - p) = false) :
    s.detectEdge = (State.setReg { s with strm := { s.strm with ppsEdge := some s.now } } 0x5800 5 0).bump 0x5800 6 1 := by
  unfold goodInterval at bad
  unfold State.detectEdge
  simp only [since, bad, Bool.false_and, Bool.or_false, Bool.not_false, if_true, Bool.false_eq_true, if_false]

/-- The record of a loss carries the count of the edges that were not valid. -/
theorem State.timingEvent_lost {s : State} {n : Nat} (count : s.reg 0x5800 6 = n) {inj : Bool} :
    s.timingEvent 0 inj = s.raise { det := 0x901A, sev := 0, cause := 0, aux := n, injected := inj } := by
  subst count
  rfl

/-- A loss leaves the count of the edges that were not valid. -/
theorem State.lostCount (s : State) :
    State.reg { s.setReg 0x5800 5 0 with strm := { s.strm with ppsLost := true } } 0x5800 6 = s.reg 0x5800 6 :=
  State.reg_setReg_other (s := s) (i := 0x5800) (j := 5) (a := 0x5800) (b := 6) 0 (by unfold dkey; omega)

/-- A loss of the edges that no one has reported yet, with a domain that locks to them, is reported. -/
theorem State.ppsLoss_reported {s : State} {d : Nat} (few : d < 32) (held : s.strm.ppsLost = false) (locks : s.reg (0x5810 + d) 5 = 1)
    (late : s.reg 0x5800 3 + 440000000 ≤ s.now) : execPpsLoss s =
      .next (State.timingEvent { s.setReg 0x5800 5 0 with strm := { s.strm with ppsLost := true } } 0 s.strm.ppsInj) := by
  have stored : (s.setReg 0x5800 5 0).dm d 5 = 1 := (State.reg_setReg_other _ (by unfold dkey; omega)).trans locks
  have reports : (!(s.setReg 0x5800 5 0).strm.ppsLost && (List.range 32).any fun d => (s.setReg 0x5800 5 0).dm d 5 = 1) = true := by
    rw [Bool.and_eq_true, List.any_eq_true]
    exact ⟨by simp [State.setReg, held], d, List.mem_range.mpr few, decide_eq_true stored⟩
  exact (congrArg Host.Outcome.next (if_neg (Nat.not_lt.mpr late))).trans (congrArg Host.Outcome.next (if_pos reports))

/-- PPS_LOSS reports such a loss with the count of the edges that were not valid. -/
theorem State.execPpsLoss_reported {s : State} {d : Nat} (few : d < 32) (held : s.strm.ppsLost = false) (locks : s.reg (0x5810 + d) 5 = 1)
    (late : s.reg 0x5800 3 + 440000000 ≤ s.now) : exec .ppsLoss s = .next
      (State.raise { s.setReg 0x5800 5 0 with strm := { s.strm with ppsLost := true } }
        { det := 0x901A, sev := 0, cause := 0, aux := s.reg 0x5800 6, injected := s.strm.ppsInj }) :=
  (State.ppsLoss_reported few held locks late).trans (congrArg Host.Outcome.next (State.timingEvent_lost s.lostCount))

/-- Settles O35: a due tick moves its domain, a start and an edge write the entries that R229 and R230 name. -/
theorem domainsTickStartAndLock : Obligations.DomainsTickStartAndLock := by
  unfold Obligations.DomainsTickStartAndLock
  refine ⟨fun s d locked own due => ?_, fun s locked runs due whole shared stays => ?_, fun s d => ⟨fun early alone => ?_, ?_⟩,
    fun s d t => ⟨fun edge start come => ?_, fun edge armed come => ?_, fun pending early => ?_⟩, fun s p low long since => ⟨fun lo hi quiet held => ?_, fun bad => ?_⟩,
    fun s high => ⟨fun same => ?_, fun moved other => ?_⟩, fun s => ⟨fun early => ?_, fun late => ⟨fun lost => ?_, fun d few held locks => ?_⟩⟩⟩
  · have ticks := (s.tickDue_iff d).mpr ⟨locked, own, due⟩
    have off : (decide (d ≠ 0) && s.sharedOn) = false := by
      obtain ⟨-, rfl | off⟩ := own
      · rfl
      · simp [State.sharedOn, off]
    refine ⟨fun within => ⟨?_, ?_⟩, fun whole alone => ⟨?_, fun goes => ?_, fun stops => ?_⟩⟩
    · exact congrArg Host.Outcome.next ((if_neg (Bool.not_eq_true _ ▸ off)).trans (if_pos (by rw [Bool.and_eq_true]; exact ⟨ticks, decide_eq_true within⟩)))
    · exact congrArg Host.Outcome.next (if_pos (by rw [Bool.or_eq_true]; exact .inr (decide_eq_true within)))
    · exact congrArg Host.Outcome.next ((if_neg (Bool.not_eq_true _ ▸ off)).trans
        (if_neg (by rw [Bool.and_eq_true]; exact fun h => of_decide_eq_true h.2 whole)))
    · have kept : ((s.passTick d).domain d).stopping = false := (s.passTick_stopping d).trans goes
      refine congrArg Host.Outcome.next ((if_neg ?_).trans ((if_pos ?_).trans (State.countFrame_goesOn _ kept)))
      · simp [ticks, State.dmFrame, State.dm, whole]
      · rw [State.countFrame_sharedOn, Bool.or_eq_true, decide_eq_true_eq, Bool.not_eq_true']
        exact alone.imp id (decide_eq_false ·)
    · have kept : ((s.passTick d).domain d).stopping = true := (s.passTick_stopping d).trans stops
      refine congrArg Host.Outcome.next ((if_neg ?_).trans ((if_pos ?_).trans (State.countFrame_stops _ kept)))
      · simp [ticks, State.dmFrame, State.dm, whole]
      · rw [State.countFrame_sharedOn, Bool.or_eq_true, decide_eq_true_eq, Bool.not_eq_true']
        exact alone.imp id (decide_eq_false ·)
  · have ticks := (s.tickDue_iff 0).mpr ⟨locked, ⟨runs, .inl rfl⟩, due⟩
    have shares (t : Nat) : ((s.passTick 0).countFrame 0 t).sharedOn = true := (State.countFrame_sharedOn ..).trans (decide_eq_true shared)
    refine congrArg Host.Outcome.next ((if_neg ?_).trans ((if_neg ?_).trans (if_neg ?_)))
    · simp [ticks, State.dmFrame, State.dm, whole]
    · simp [shares]
    · rw [Bool.and_eq_true, decide_eq_true_eq, decide_eq_true_eq, State.countFrame_shared _ _ _ (by omega), State.countFrame_dev]
      exact fun h => stays.elim (· h.1) (· h.2)
  · have off : (decide (d ≠ 0) && s.sharedOn) = false := by
      obtain rfl | off := alone
      · rfl
      · simp [State.sharedOn, off]
    have idle : s.tickDue d = false := by
      rw [← Bool.not_eq_true, s.tickDue_iff]
      rintro ⟨locked, -, due⟩
      omega
    exact ⟨congrArg Host.Outcome.next ((if_neg (Bool.not_eq_true _ ▸ off)).trans (if_neg (by simp [idle]))),
      congrArg Host.Outcome.next (if_pos (by simp [idle]))⟩
  · intro other shared first within due
    refine congrArg Host.Outcome.next ((if_pos ?_).trans (if_pos ?_))
    · simp [State.sharedOn, other, shared]
    · rw [Bool.and_eq_true, Bool.and_eq_true]
      exact ⟨⟨decide_eq_true first, decide_eq_true within⟩, decide_eq_true due⟩
  · refine (congrArg Host.Outcome.next ?_).trans (congrArg Host.Outcome.next (State.startDomain_own t (by simp [edge]) (by simp [edge])))
    simp only [edge, start, come, if_true]
  · refine (congrArg Host.Outcome.next ?_).trans (congrArg Host.Outcome.next (State.startDomain_own t (by simp [armed]) (by simp [edge])))
    simp only [edge, come, if_true]
  · refine congrArg Host.Outcome.next ?_
    obtain edge | ⟨edge, start⟩ := pending
    · simp [edge, Nat.not_le.mpr early]
    · simp [edge, start, Nat.not_le.mpr early]
  · refine congrArg Host.Outcome.next ((if_neg (by simp [low])).trans ((if_pos (by simp [long])).trans ?_))
    exact State.detectEdge_good since (by simp only [goodInterval, Bool.and_eq_true, decide_eq_true_eq]; omega) quiet held
  · refine congrArg Host.Outcome.next ((if_neg (by simp [low])).trans ((if_pos (by simp [long])).trans ?_))
    refine State.detectEdge_bad since ?_
    simp only [goodInterval, Bool.and_eq_false_iff, decide_eq_false_iff_not]
    omega
  · exact congrArg Host.Outcome.next (if_pos same)
  · refine congrArg Host.Outcome.next ((if_neg moved).trans (if_neg ?_))
    obtain rfl | short := other
    · simp
    · simp [short]
  · exact congrArg Host.Outcome.next (if_pos early)
  · exact congrArg Host.Outcome.next ((if_neg (by omega)).trans (if_neg (by simp [State.setReg, lost])))
  · exact State.execPpsLoss_reported few held locks late

end Sys2Proof.Machine
end

section
/-! Proofs of chapter 07: the intake, its packets and its frames (R233 to R246). -/
set_option Elab.async false
namespace Sys2Proof.Machine

/-! ### What leaves the rings of the streams as they are -/

/-- What both branches of a condition have in common. -/
theorem ite_view {α β : Type} (g : α → β) {c : Prop} [Decidable c] {a b : α} {v : β} (yes : g a = v) (no : g b = v) :
    g (if c then a else b) = v := by
  split
  · exact yes
  · exact no

@[simp] theorem State.intakeWrite_strm (s : State) (part a : Nat) (bs : List Byte) : (s.intakeWrite part a bs).strm = s.strm :=
  (Keeps.intakeWrite (Keeps.refl s) (hm := Sub.refl _)).frame .strm rfl
@[simp] theorem State.readFrame_strm (s : State) (part : Nat) (x : Intake) (m nom : Nat) (ue : List Nat) :
    (s.readFrame part x m nom ue).1.strm = s.strm :=
  (Keeps.readFrame (Keeps.refl s) (hm := Sub.refl _)).frame .strm rfl
@[simp] theorem State.clearSlots_strm (s : State) (part : Nat) (c : Desc) (pos n : Nat) : (s.clearSlots part c pos n).strm = s.strm :=
  (Keeps.clearSlots (Keeps.refl s) (hm := Sub.refl _)).frame .strm rfl
@[simp] theorem State.writeMem_strm (s : State) (acct : Nat) (part : Option Nat) (a : Nat) (bs : List Byte) : (s.writeMem acct part a bs).1.strm = s.strm :=
  (Keeps.writeMem (Keeps.refl s) (hm := Sub.refl _)).frame .strm rfl
@[simp] theorem State.putResv_strm (s : State) (die off : Nat) (bs : List Byte) : (s.putResv die off bs).strm = s.strm :=
  (Keeps.putResv (Keeps.refl s) (hm := Sub.refl _)).frame .strm rfl

@[simp] theorem State.modIntake_rings (s : State) (n : Nat) (f : Intake → Intake) : (s.modIntake n f).strm.rings = s.strm.rings := rfl

@[simp] theorem State.writeIntake_rings (s : State) (n : Nat) : (s.writeIntake n).strm.rings = s.strm.rings := by
  unfold State.writeIntake
  rw [State.writeMem_strm, State.modIntake_rings]

@[simp] theorem State.stopIntake_rings (s : State) (n : Nat) : (s.stopIntake n).strm.rings = s.strm.rings := by
  unfold State.stopIntake
  refine (State.writeIntake_rings _ n).trans ((State.modIntake_rings _ n _).trans ?_)
  exact ite_view (fun v : State => v.strm.rings) (congrArg Streams.rings (State.clearSlots_strm ..)) rfl

@[simp] theorem State.endLeadOut_rings (s : State) (n : Nat) : (s.endLeadOut n).strm.rings = s.strm.rings := by
  unfold State.endLeadOut
  rw [apply_ite (fun t : State => t.strm.rings), State.stopIntake_rings, ite_self]

@[simp] theorem State.countSlip_rings (s : State) (n slip : Nat) : (s.countSlip n slip).strm.rings = s.strm.rings := by
  unfold State.countSlip
  dsimp only
  rw [State.modIntake_rings]
  simp only [apply_ite (fun t : State => t.strm.rings), State.slipEvent, State.raise_strm, State.bump_strm, ite_self]

/-- A write of an exchange row leaves the rings. -/
theorem State.xWrite_rings (s : State) (die row : Nat) (bs : List Byte) : (s.xWrite die row bs).strm.rings = s.strm.rings := by
  unfold State.xWrite
  split
  · rfl
  · split
    · rfl
    · have kept := congrArg Streams.rings (s.putResv_strm die (512 * row) bs)
      extract_lets t
      split <;> exact kept

theorem State.pushFrames_rings (s : State) : s.pushFrames.strm.rings = s.strm.rings := by
  have step (a : State × List (Nat × Nat × List Byte)) (w : Nat × Nat × List Byte) :
      (if a.1.xWaits w.1 w.2.1 true || a.2.any (fun v => v.1 = w.1 && v.2.1 = w.2.1) then (a.1, a.2 ++ [w])
        else (a.1.xWrite w.1 w.2.1 w.2.2, a.2)).1.strm.rings = a.1.strm.rings := by
    split
    · rfl
    · exact State.xWrite_rings ..
  have kept (l : List (Nat × Nat × List Byte)) : ∀ a : State × List (Nat × Nat × List Byte), (l.foldl (fun a w =>
      if a.1.xWaits w.1 w.2.1 true || a.2.any (fun v => v.1 = w.1 && v.2.1 = w.2.1) then (a.1, a.2 ++ [w])
      else (a.1.xWrite w.1 w.2.1 w.2.2, a.2)) a).1.strm.rings = a.1.strm.rings := by
    induction l with
    | nil => exact fun a => rfl
    | cons w l ih => exact fun a => (ih _).trans (step a w)
  exact kept s.strm.frameOut (s, [])

/-- A frame that is made: its rows wait for the exchange, its tick joins the ring, and the running state is written back in its turn. -/
def State.frameMade (s : State) (n : Nat) (info : FrameInfo) (chans : List (List W32)) : State :=
  let s := { s with strm := { s.strm with frameOut := s.strm.frameOut ++ s.frameRows n chans } }
  let s : State := (s.modRing n fun r => { r with ticks := r.ticks ++ [info] }).pushFrames
  if 100 ≤ (s.intake n).since then s.writeIntake n else s

theorem State.frameMade_ticks (s : State) (n : Nat) (info : FrameInfo) (chans : List (List W32)) :
    (((s.frameMade n info chans).endLeadOut n).ring n).ticks = (s.ring n).ticks ++ [info] := by
  unfold State.frameMade State.ring
  rw [State.endLeadOut_rings]
  dsimp only
  rw [apply_ite (fun t : State => t.strm.rings), State.writeIntake_rings, ite_self, State.pushFrames_rings]
  unfold State.modRing SMap.mod
  dsimp only
  rw [SMap.get_set_listed]
  intro same
  exact absurd (congrArg Ring.ticks same) (by simp [Ring.init])

/-- The frame of a tick carries it, and what is read and counted for it leaves the rings. -/
theorem State.makeFrame_made (s : State) (n tick : Nat) (ue : List Nat) :
    ∃ (u : State) (info : FrameInfo) (chans : List (List W32)), s.makeFrame n tick ue = u.frameMade n info chans ∧ u.strm.rings = s.strm.rings
      ∧ info.tick = tick := by
  unfold State.makeFrame
  extract_lets e d m nom part x wild x
  split
  next x clamp _ =>
  extract_lets w kind
  have base : w.strm = s.strm := by
    unfold w
    split <;> rfl
  split
  next v o read =>
  have kept : v.strm = s.strm := by
    rw [← base, ← State.readFrame_strm w part x m nom ue, read]
  extract_lets hit ends last info free chans w₁ w₂ w₃
  refine ⟨w₃, info, chans, rfl, ?_, rfl⟩
  have drawn : w₁.strm = s.strm := by
    unfold w₁
    split <;> exact kept
  have noted : w₂.strm.rings = s.strm.rings := by
    unfold w₂
    rw [State.modIntake_rings, State.bump_strm, drawn]
  unfold w₃
  split
  · rw [State.countSlip_rings, noted]
  · exact noted

/-- A store of the host beyond its own memory, or below it, changes no byte of the device's memory. -/
theorem hostStores_device (cs : Cells) : ∀ (m : List Host.Cell) {a : Nat}, a < 2 ^ 51 → SMap.get 0 (hostStores m cs) a = SMap.get 0 m a := by
  induction cs with
  | nil => exact fun m a _ => rfl
  | cons c cs ih =>
    intro m a device
    unfold hostStores
    rw [ih _ device]
    split
    · next host => exact SMap.get_set_other _ _ _ _ (by rw [Bool.and_eq_true, decide_eq_true_eq, decide_eq_true_eq] at host; omega)
    · rfl

@[simp] theorem State.modIntake_entry (s : State) (n k : Nat) (f : Intake → Intake) : (s.modIntake n f).entry k = s.entry k := rfl
@[simp] theorem State.modIntake_reg (s : State) (n i j : Nat) (f : Intake → Intake) : (s.modIntake n f).reg i j = s.reg i j := rfl

@[simp] theorem State.modIntake_armed (s : State) (n det target site : Nat) (f : Intake → Intake) :
    (s.modIntake n f).armed det target site = s.armed det target site := rfl

/-- A command that reads depends on what it does to the state as it stands. -/
theorem State.whenFetched_at (s : State) (run : State → State) : s.whenFetched run = s.whenFetched fun _ => run s := rfl

/-- What a tick of a stream's domain leaves, once it is noted in u: x is the stream's intake as it stands. -/
def State.afterTick (s u : State) (n : Nat) (x : Intake) : State :=
  let num := s.dm (seDomain (s.entry n)) 10 - 1
  let t := max (s.steps n) 1
  let boundary := (num + sePhase (s.entry n)) % t = 0
  if x.st = 0 then u
  else if x.st = 1 then
    (if x.later && boundary || !x.later && num % t = 0 then (u.alignIntake n).makeFrame n s.now [] else u)
  else if x.st = 4 && icLeadOut x.cfg ≤ x.leadOut && boundary then u.stopIntake n
  else (u.makeFrame n s.now []).endLeadOut n

/-- The tick of a stream is noted with the count of its domain. -/
def State.tickNoted (s : State) (n : Nat) : State := s.modIntake n fun x => { x with served := s.dm (seDomain (s.entry n)) 10 }

theorem State.streamTickDue_counted {s : State} {n : Nat} (due : s.streamTickDue n = true) : s.dm (seDomain (s.entry n)) 10 ≠ 0 := by
  simp only [State.streamTickDue, Bool.and_eq_true, decide_eq_true_eq] at due
  exact due.1.1.2

theorem State.tickNoted_intake {s : State} {n : Nat} (due : s.streamTickDue n = true) :
    (s.tickNoted n).intake n = { s.intake n with served := s.dm (seDomain (s.entry n)) 10 } :=
  SMap.get_set_listed _ _ _ fun same => State.streamTickDue_counted due (congrArg Intake.served same)

/-- A tick that is due, with no injection armed, is noted, and acts by the state of the stream's intake. -/
theorem State.streamFrameTick_due {s : State} {n : Nat} (due : s.streamTickDue n = true) (quiet : s.armed 0x9014 n 0 = false) :
    exec (.streamFrameTick n) s = .next (s.whenFetched fun _ => s.afterTick (s.tickNoted n) n (s.intake n)) := by
  have x := State.tickNoted_intake due
  refine (if_neg (by simp [due])).trans (congrArg Host.Outcome.next
    ((s.whenFetched_at _).trans (congrArg (fun t => s.whenFetched fun _ => t) ?_)))
  refine (if_neg (c := (_ && _) = true) ?_).trans ?_
  · rw [State.modIntake_armed, quiet, Bool.false_and]
    exact Bool.false_ne_true
  · unfold State.tickNoted at x ⊢
    rw [x, State.modIntake_now]
    rfl

/-- A tick after the last lead-out frame stops the stream at a chunk boundary. -/
def State.leadOutDone (s : State) (n : Nat) : Prop :=
  icLeadOut (s.intake n).cfg ≤ (s.intake n).leadOut ∧ (s.dm (seDomain (s.entry n)) 10 - 1 + sePhase (s.entry n)) % max (s.steps n) 1 = 0

theorem State.afterTick_makes {s u : State} {n : Nat} (st : 1 < (s.intake n).st) (goes : (s.intake n).st = 4 → ¬ s.leadOutDone n) :
    s.afterTick u n (s.intake n) = (u.makeFrame n s.now []).endLeadOut n := by
  unfold State.afterTick
  dsimp only
  rw [if_neg (by omega), if_neg (by omega), if_neg]
  simp only [Bool.and_eq_true, decide_eq_true_eq]
  exact fun h => goes h.1.1 ⟨h.1.2, h.2⟩

theorem State.afterTick_stops {s u : State} {n : Nat} (st : (s.intake n).st = 4) (done : s.leadOutDone n) :
    s.afterTick u n (s.intake n) = u.stopIntake n := by
  unfold State.afterTick
  dsimp only
  rw [if_neg (by omega), if_neg (by omega), if_pos]
  simp only [Bool.and_eq_true, decide_eq_true_eq]
  exact ⟨⟨st, done.1⟩, done.2⟩

/-- The frame number at which a stream that starts is aligned: its own chunk boundary where an activity has begun before. -/
def State.alignNumber (s : State) (n : Nat) : Nat :=
  if (s.intake n).later then s.dm (seDomain (s.entry n)) 10 - 1 + sePhase (s.entry n) else s.dm (seDomain (s.entry n)) 10 - 1

theorem State.aligned_iff (s : State) (n : Nat) :
    ((s.intake n).later && decide ((s.dm (seDomain (s.entry n)) 10 - 1 + sePhase (s.entry n)) % max (s.steps n) 1 = 0)
      || !(s.intake n).later && decide ((s.dm (seDomain (s.entry n)) 10 - 1) % max (s.steps n) 1 = 0)) = true ↔
    s.alignNumber n % max (s.steps n) 1 = 0 := by
  unfold State.alignNumber
  cases (s.intake n).later <;> simp

theorem State.afterTick_aligns {s u : State} {n : Nat} (st : (s.intake n).st = 1) (at' : s.alignNumber n % max (s.steps n) 1 = 0) :
    s.afterTick u n (s.intake n) = (u.alignIntake n).makeFrame n s.now [] := by
  unfold State.afterTick
  dsimp only
  rw [if_neg (by omega), if_pos st, if_pos ((s.aligned_iff n).mpr at')]

theorem State.afterTick_waits {s u : State} {n : Nat} (st : (s.intake n).st = 1) (off : s.alignNumber n % max (s.steps n) 1 ≠ 0) :
    s.afterTick u n (s.intake n) = u := by
  unfold State.afterTick
  dsimp only
  rw [if_neg (by omega), if_pos st, if_neg fun h => off ((s.aligned_iff n).mp h)]

/-- The next entry of a ring is taken, and reaches its stream where R234 accepts it. -/
theorem State.ingressEntry_taken {s u : State} {part die : Nat} {ue : List Nat} {bs : List Byte} (serving : s.top.dev = .serving)
    (ring : s.reg (0x5880 + 2 * part + die) 2 ≠ 0) (entry : SMap.get 0 s.strm.ingress (2 * part + die) ≠ s.reg (0x5880 + 2 * part + die) 3)
    (read : s.intakeRead part (s.reg (0x5880 + 2 * part + die) 1 + 64 * (s.reg (0x5880 + 2 * part + die) 3 % s.reg (0x5880 + 2 * part + die) 2)) 64 ue
      = (u, bs)) :
    execIngressEntry part die ue s = .next (s.whenFetched fun _ =>
      let e : Desc := BitVec.ofNat 512 (leNat bs)
      let k := fld e 263 248
      let v := u.setReg (0x5880 + 2 * part + die) 3 (u.reg (0x5880 + 2 * part + die) 3 + 1)
      if (!seValid (v.entry k) || decide (k / 32768 ≠ die) || decide (v.streamPart k ≠ part) || decide (seIntake (v.entry k) = 0xFFFF)) = true then
        v.bump 0x5801 2 1
      else v.takePacket part k e ue) := by
  unfold execIngressEntry ringIdx
  dsimp only
  rw [if_neg (by simp [serving, ring, entry]), State.whenFetched_at, read]
  rfl
/-- A packet that ends at or before the read position of a stream under way is counted as late, and changes no sample. -/
theorem State.takePacket_late {s : State} {part k : Nat} {e : Desc} {ue : List Nat} (started : (s.intake k).st ≠ 0)
    (late : posDiff 64 ((fld e 327 296 + fld e 295 280) % 2 ^ 32 * 2 ^ 32) (s.intake k).rp ≤ 0) :
    s.takePacket part k e ue =
      let x := s.intake k
      let at' := (fld e 327 296 + fld e 295 280) % 2 ^ 32
      let rx := if fld e 391 328 = 0 then s.now else fld e 391 328
      ((s.bump 0x5801 1 1).modIntake k fun _ =>
        { x with packets := (x.packets + 1) % 2 ^ 32, rx := max x.rx rx, rxEnd := if x.rx ≤ rx then at' else x.rxEnd,
                 late := satAdd 16 x.late 1 }).bump 0x5801 3 1 := by
  unfold State.takePacket
  dsimp only
  rw [if_pos started, if_pos late]
  rfl

/-- What is done to an intake depends on it as it stands. -/
theorem State.modIntake_congr {s : State} {n : Nat} {f g : Intake → Intake} (same : f (s.intake n) = g (s.intake n)) : s.modIntake n f = s.modIntake n g :=
  congrArg (fun x => { s with strm := { s.strm with intakes := SMap.set Intake.init s.strm.intakes n x } }) same

/-- A stream that runs without samples for stop_frames frames ends at its frontier. -/
theorem State.stopTimeout_ends {s : State} {n : Nat} (running : (s.intake n).st = 3) (on : icStopFrames (s.intake n).cfg ≠ 0)
    (idle : icStopFrames (s.intake n).cfg ≤ (s.intake n).idle) (open' : (s.intake n).stop = none) :
    execStopTimeout n s = .next ((s.modIntake n fun x => { x with
        stop := some x.frontier, st := if 0 ≤ posDiff 64 x.rp (x.frontier * 2 ^ 32) then 4 else 3 }).endLeadOut n) := by
  unfold execStopTimeout
  dsimp only
  rw [if_neg (by simp [running, on, idle, open'])]
  refine congrArg (fun t : State => Host.Outcome.next (t.endLeadOut n)) (State.modIntake_congr ?_)
  simp only [decide_eq_true_eq]

/-- Settles O36: a ring entry that R234 accepts reaches takePacket, and a due tick acts by the state of its intake. -/
theorem intakeTakesPacketsAndMakesFrames : Obligations.IntakeTakesPacketsAndMakesFrames := by
  unfold Obligations.IntakeTakesPacketsAndMakesFrames
  refine ⟨fun s part die v cells within => ?_, fun s part die v cells ring beyond => ?_, fun s part die v => rfl,
    fun s u part die ue bs serving ring entry read => ?_, fun s part k e ue started late => ?_, fun s part die ue none => ?_,
    fun s n due quiet => ?_, fun s n tick ue => ?_, fun s n => ⟨fun early => ?_, fun running on idle open' => ?_, fun early => ?_, fun valid own => rfl.trans ?_, fun invalid => ?_⟩⟩
  · refine ⟨_, if_neg ?_, rfl, fun a device => hostStores_device cells s.mem device, rfl⟩
    rw [Bool.and_eq_true, decide_eq_true_eq, decide_eq_true_eq]
    exact fun h => absurd (within h.1) (Nat.not_le.mpr h.2)
  · refine ⟨_, _, if_pos ?_, rfl, fun a device => hostStores_device cells s.mem device, rfl⟩
    rw [Bool.and_eq_true, decide_eq_true_eq, decide_eq_true_eq]
    exact ⟨ring, beyond⟩
  · have taken := State.ingressEntry_taken serving ring entry read
    refine ⟨fun refused => taken.trans ?_, fun valid die' part' own => taken.trans ?_⟩
    · refine congrArg (fun t => Host.Outcome.next (s.whenFetched fun _ => t)) (if_pos ?_)
      simpa only [Bool.or_eq_true, Bool.not_eq_true', decide_eq_true_eq, or_assoc] using refused
    · refine congrArg (fun t => Host.Outcome.next (s.whenFetched fun _ => t)) (if_neg ?_)
      simp only [Bool.or_eq_true, Bool.not_eq_true', decide_eq_true_eq, or_assoc]
      rintro (h | h | h | h)
      · exact absurd (valid.symm.trans h) (by decide)
      · exact h die'
      · exact h part'
      · exact own h
  · exact State.takePacket_late started late
  · refine if_pos ?_
    simp [ringIdx, none]
  · have tick := State.streamFrameTick_due due quiet
    have acts {t : State} (h : s.afterTick (s.tickNoted n) n (s.intake n) = t) : exec (.streamFrameTick n) s = .next (s.whenFetched fun _ => t) :=
      h ▸ tick
    refine ⟨fun st => acts (if_pos st), fun st => ⟨fun at' => acts (State.afterTick_aligns st at'), fun off => acts (State.afterTick_waits st off)⟩,
      fun st => acts (State.afterTick_makes ?_ ?_), fun st out edge => acts (State.afterTick_stops st ⟨out, edge⟩)⟩
    · omega
    · intro four done
      obtain h | h | ⟨-, h | h⟩ := st
      · omega
      · omega
      · exact absurd done.1 (by omega)
      · exact h done.2
  · obtain ⟨u, info, chans, made, rings, at'⟩ := s.makeFrame_made n tick ue
    refine ⟨info, ?_, at'⟩
    rw [made, State.frameMade_ticks]
    unfold State.ring
    rw [rings]
  · exact if_pos (by simp [early])
  · exact State.stopTimeout_ends running on idle open'
  · refine congrArg Host.Outcome.next (if_pos (c := (_ || _ || decide (_ < _) || _) = true) ?_)
    rw [decide_eq_true early, Bool.or_true, Bool.true_or]
  · exact congrArg Host.Outcome.next (if_pos (by simp [valid, own]))
  · exact congrArg Host.Outcome.next (if_neg (by simp [invalid]))

end Sys2Proof.Machine
end

section
/-! Proofs of chapters 08 and 09: row commands and sluice commands at the front of a pair (R266, R294). -/
set_option Elab.async false
namespace Sys2Proof.Machine

/-! ### Dispatch (R426) -/

/-- A front descriptor with an op of its kind is dispatched where it meets the test. -/
theorem State.take_front {s : State} {f q : Nat} {d : Desc} {ok : Desc → Bool} (front : s.Front f q d) (legal : reservedOp d = false)
    (meets : ok d = true) : s.take f q ok = (s.popDesc f q d, some (d, s.headAfter f q d)) := by
  obtain ⟨serving, enabled, ⟨l, first⟩, free, allowed⟩ := front
  have settled : s.settle f q = s := by
    unfold State.settle State.settleLoop
    simp [first, allowed, legal]
  unfold State.take
  simp only [settled, first, serving, enabled, free, allowed, meets]
  rfl

theorem State.popDesc_frame (s : State) (f q : Nat) (d : Desc) :
    (s.popDesc f q d).tab = s.tab ∧ (s.popDesc f q d).sl = s.sl ∧ (s.popDesc f q d).now = s.now ∧ (s.popDesc f q d).fab = s.fab := by
  unfold State.popDesc
  dsimp only
  split <;> exact ⟨rfl, rfl, rfl, rfl⟩

/-- Dispatch counts at the pair alone. -/
theorem State.popDesc_reg (s : State) (f q : Nat) (d : Desc) {i j : Nat} (below : i < 0xB100) (few : j < 256) : (s.popDesc f q d).reg i j = s.reg i j := by
  have pair {sub v : Nat} (w : State) : (w.setReg (pairIdx f q) sub v).reg i j = w.reg i j :=
    State.reg_setReg_other _ (by unfold dkey pairIdx; omega)
  unfold State.popDesc
  dsimp only
  split
  · exact (pair _).trans (pair _)
  · exact pair _

theorem State.popDesc_table (s : State) (f q : Nat) (d : Desc) (t : Nat) : (s.popDesc f q d).table t = s.table t := by
  unfold State.table
  rw [(s.popDesc_frame f q d).1]

theorem State.popDesc_me (s : State) (f q : Nat) (d : Desc) : (s.popDesc f q d).me = s.me := s.popDesc_reg f q d (by omega) (by omega)

/-! ### Row commands (R266, R268) -/

/-- No element is taken where none meets the test. -/
theorem takeFirst_none {α : Type} {p : α → Bool} {l : List α} (none : ∀ a ∈ l, p a = false) : takeFirst p l = .none := by
  induction l with
  | nil => rfl
  | cons a l ih =>
    unfold takeFirst
    rw [none a List.mem_cons_self, ih fun b hb => none b (List.mem_cons_of_mem _ hb)]
    rfl

/-- A row command that comes to the front is checked and runs. -/
theorem State.rowOp_front {s : State} {f q op : Nat} {d : Desc} {ue : List Nat} (front : s.RowFront f q d op) (legal : 1 ≤ op ∧ op ≤ 4) :
    s.rowOp f q op ue = s.whenFetched fun _ => (s.popDesc f q d).rowCommand f q (s.headAfter f q d) d ue := by
  obtain ⟨front, kind, code, first⟩ := front
  have none : takeFirst (fun x : Nat × Nat × Nat × Desc => x.1 = f && x.2.1 = q && descOp x.2.2.2 = op) s.tab.waiting = .none :=
    takeFirst_none fun w hw => by simpa [and_imp] using first w hw
  have taken := State.take_front (ok := isCmd 6 op) front (by simp [reservedOp, kind, code]; omega) (by simp [isCmd, kind, code])
  unfold State.rowOp
  rw [State.whenFetched_at, none]
  simp only [taken]

/-- What a row command at the front leaves is what its checks and its run leave. -/
theorem State.rowAnswers_of {s t : State} {f q : Nat} {d : Desc} {ue : List Nat}
    (runs : (s.popDesc f q d).rowCommand f q (s.headAfter f q d) d ue = t) : s.RowAnswers f q d ue t := by
  subst runs
  refine ⟨fun front => ?_, fun front none => ?_, fun front => ?_, fun front => ?_⟩
  · exact congrArg Host.Outcome.next (State.rowOp_front front (by omega))
  · subst none
    exact congrArg Host.Outcome.next (State.rowOp_front front (by omega))
  · exact congrArg Host.Outcome.next (State.rowOp_front front (by omega))
  · exact congrArg Host.Outcome.next (State.rowOp_front front (by omega))

theorem State.rowCommand_foreign {s : State} {f q h : Nat} {d : Desc} {ue : List Nat} (foreign : tdOwner (s.table (rcTable d)) ≠ f - 1) :
    s.rowCommand f q h d ue = s.complete f q d h stFault := if_pos foreign

theorem State.rowCommand_state {s : State} {f q h : Nat} {d : Desc} {ue : List Nat} (own : tdOwner (s.table (rcTable d)) = f - 1)
    (bad : tdValid (s.table (rcTable d)) = false ∨ tdHome (s.table (rcTable d)) ≠ s.me) :
    s.rowCommand f q h d ue = s.complete f q d h stState :=
  (if_neg (Classical.not_not.mpr own)).trans (if_pos (by simpa only [Bool.or_eq_true, Bool.not_eq_true', decide_eq_true_eq] using bad))

/-- A row command on a good table runs on the rows that its list names. -/
theorem State.rowCommand_listed {s v : State} {f q h : Nat} {d : Desc} {ue : List Nat} {o : ReadOut} (own : tdOwner (s.table (rcTable d)) = f - 1)
    (valid : tdValid (s.table (rcTable d)) = true) (home : tdHome (s.table (rcTable d)) = s.me)
    (read : s.readMem (f - 1) (some (f - 1)) (rcList d) (4 * rcCount d) false ue = (v, o)) :
    s.rowCommand f q h d ue =
      if o.refused then v.complete f q d h stFault
      else if !o.lost.isEmpty then v.complete f q d h stError
      else
        let rows := v.rowsNeeded d (rcTable d) (tdStride (s.table (rcTable d))) [] (rowList o.bytes 0 (rcCount d))
        if descOp d ≠ 2 && rows.any fun x => v.locked (rcTable d) x.2 then
          { v with tab := { v.tab with waiting := v.tab.waiting ++ [(f, q, h, d)] } }
        else v.runRows f q h d rows (rcCount d) ue := by
  unfold State.rowCommand
  dsimp only
  rw [if_neg (Classical.not_not.mpr own), if_neg (by simp [valid, home]), read]

theorem State.runRows_noSpace {s : State} {f q h total : Nat} {d : Desc} {rows : List (Nat × Nat)} {ue : List Nat}
    (full : s.rowSpace (f - 1) d (s.table (rcTable d)) rows = false) : s.runRows f q h d rows total ue = s.complete f q d h stNoSpace :=
  if_pos (by simp [full])

/-! ### Sluice commands (R294) -/

/-- The slot that a sluice command names holds a pin of another partition. -/
def State.foreignPin (s : State) (f : Nat) (d : Desc) : Bool :=
  match s.pin (scDie d) (scSlot d) with
  | some p => p.owner ≠ f - 1
  | none => false

theorem State.foreignPin_own {s : State} {f : Nat} {d : Desc} (own : ∀ p, s.pin (scDie d) (scSlot d) = some p → p.owner = f - 1) :
    s.foreignPin f d = false := by
  unfold State.foreignPin
  split
  · next p held => simp [own p held]
  · rfl

theorem State.foreignPin_other {s : State} {f : Nat} {d : Desc} {p : Pin} (held : s.pin (scDie d) (scSlot d) = some p) (other : p.owner ≠ f - 1) :
    s.foreignPin f d = true := by
  unfold State.foreignPin
  rw [held]
  exact decide_eq_true other

/-- A sluice command that comes to the front acts on the slot that it names. -/
theorem State.sluiceOp_front {s : State} {f q op : Nat} {d : Desc} (front : s.SluiceFront f q d op) (legal : 1 ≤ op ∧ op ≤ 3) :
    s.sluiceOp f q op =
      let u := s.popDesc f q d
      let h := s.headAfter f q d
      if decide (op ≠ 3) && s.foreignPin f d then u.complete f q d h stFault
      else if op = 1 then
        (u.setPin (scDie d) (scSlot d) (some
          { held := true, mark := s.p (scDie d), owner := f - 1, since := s.now, withQueue := if scWithJob d then some (16 * f + q) else none,
            withJob := none })).complete f q d h stCompleted (some (s.p (scDie d)))
      else if op = 2 then (u.letGo fun i _ => i = 4096 * scDie d + scSlot d).prune.complete f q d h stCompleted (some (s.p (scDie d)))
      else u.complete f q d h stCompleted (some (s.p (scDie d))) := by
  obtain ⟨front, kind, code⟩ := front
  have taken := State.take_front (ok := isCmd 7 op) front (by simp [reservedOp, kind, code]; omega) (by simp [isCmd, kind, code])
  obtain ⟨-, sl, now, -⟩ := s.popDesc_frame f q d
  have p : (s.popDesc f q d).p = s.p := by unfold State.p; rw [sl]
  have pin : (s.popDesc f q d).pin = s.pin := by unfold State.pin State.pinSlot; rw [sl]
  unfold State.sluiceOp State.foreignPin
  simp only [taken, p, pin, now] <;> rfl

/-- A pin that a slot is given is the one it holds, with its mark. -/
theorem State.pin_setPin (s : State) (die slot : Nat) {p : Pin} (held : p.held = true) : (s.setPin die slot (some p)).pin die slot = some p := by
  have stored : (s.setPin die slot (some p)).pinSlot die slot = some p := SMap.get_set_listed none s.sl.pins (4096 * die + slot) (Option.some_ne_none p)
  unfold State.pin
  rw [stored, Option.filter_some, if_pos held]

/-- A slot whose pin is let go keeps its mark and owner. -/
theorem State.pinSlot_letGo {s : State} {die slot : Nat} {p : Pin} (held : s.pin die slot = some p) :
    (s.letGo fun i _ => i = 4096 * die + slot).pinSlot die slot = some { p with held := false } := by
  have slotted : SMap.get none s.sl.pins (4096 * die + slot) = some p := by
    obtain ⟨stored, -⟩ := Option.filter_eq_some_iff.mp held
    exact stored
  have mapped : ∀ (m : SMap (Option Pin)) (k : Nat), SMap.get none m k = some p →
      SMap.get none (m.map fun x => (x.1, x.2.map fun p => if decide (x.1 = k) then { p with held := false } else p)) k = some { p with held := false } := by
    intro m k
    induction m with
    | nil => intro h; exact absurd h (by simp [SMap.get])
    | cons x m ih =>
      intro h
      unfold SMap.get at h
      simp only [List.map_cons, SMap.get]
      by_cases at' : x.1 = k
      · simp only [at', if_true] at h ⊢
        simp [h]
      · simp only [at', if_false] at h ⊢
        exact ih h
  exact mapped _ _ slotted

/-- UNPIN of a slot with no pin of another partition lets its pin go. -/
theorem State.unpin_own {s : State} {f q : Nat} {d : Desc} (own : ∀ p, s.pin (scDie d) (scSlot d) = some p → p.owner = f - 1)
    (front : s.SluiceFront f q d 2) : exec (.unpin f q) s =
      .next (((s.popDesc f q d).letGo fun i _ => i = 4096 * scDie d + scSlot d).prune.complete f q d (s.headAfter f q d) stCompleted (s.p (scDie d))) := by
  refine congrArg Host.Outcome.next ((State.sluiceOp_front front (by omega)).trans ?_)
  simp [State.foreignPin_own own]

/-- Settles O37: each row command is checked in the order of R266, and a sluice command acts on the slot that it names. -/
theorem rowCommandsAndPinsComplete : Obligations.RowCommandsAndPinsComplete := by
  unfold Obligations.RowCommandsAndPinsComplete
  refine ⟨fun s f q d ue => ⟨fun foreign => State.rowAnswers_of (State.rowCommand_foreign ?_), fun own bad => State.rowAnswers_of (State.rowCommand_state ?_ ?_),
    fun own valid home v o read => ?_⟩, fun s f q d => ⟨fun own => ⟨fun front => ?_, fun front => ?_, fun front p held => ?_⟩,
    fun ⟨p, held, other⟩ => ⟨fun front => ?_, fun front => ?_⟩, fun front => ?_⟩⟩
  · rwa [State.popDesc_table]
  · rwa [State.popDesc_table]
  · rwa [State.popDesc_table, State.popDesc_me]
  · have owned : tdOwner ((s.popDesc f q d).table (rcTable d)) = f - 1 :=
      (congrArg tdOwner (s.popDesc_table f q d _)).trans own
    have good : tdValid ((s.popDesc f q d).table (rcTable d)) = true :=
      (congrArg tdValid (s.popDesc_table f q d _)).trans valid
    have homed : tdHome ((s.popDesc f q d).table (rcTable d)) = (s.popDesc f q d).me :=
      (congrArg tdHome (s.popDesc_table f q d _)).trans (home.trans (s.popDesc_me f q d).symm)
    have listed := State.rowCommand_listed (q := q) (h := s.headAfter f q d) owned good homed read
    rw [State.popDesc_table] at listed
    refine ⟨fun refused => State.rowAnswers_of ?_, fun fine lost => State.rowAnswers_of ?_, fun fine whole => ⟨fun other locked => State.rowAnswers_of ?_,
      fun open' => ?_⟩⟩
    · rw [listed, if_pos refused]
    · rw [listed, if_neg (by simp [fine]), if_pos (by simpa using lost)]
    · rw [listed, if_neg (by simp [fine]), if_neg (by simp [whole])]
      exact if_pos (by simpa [other] using locked)
    · have runs : (s.popDesc f q d).rowCommand f q (s.headAfter f q d) d ue =
          v.runRows f q (s.headAfter f q d) d (v.rowsNeeded d (rcTable d) (tdStride (s.table (rcTable d))) [] (rowList o.bytes 0 (rcCount d))) (rcCount d) ue := by
        rw [listed, if_neg (by simp [fine]), if_neg (by simp [whole])]
        refine if_neg ?_
        obtain demotes | open' := open'
        · simp [demotes]
        · simpa using fun _ => open'
      exact ⟨fun full => State.rowAnswers_of (runs.trans (State.runRows_noSpace full)), fun fits => State.rowAnswers_of runs⟩
  · refine ⟨_, congrArg Host.Outcome.next ((State.sluiceOp_front front (by omega)).trans ?_), rfl, ?_⟩
    · simp [State.foreignPin_own own]
    · exact congrArg (Option.map _) (State.pin_setPin (s.popDesc f q d) (scDie d) (scSlot d) rfl)
  · exact State.unpin_own own front
  · have held' : (s.popDesc f q d).pin (scDie d) (scSlot d) = some p := by
      rw [← held]
      unfold State.pin State.pinSlot
      rw [(s.popDesc_frame f q d).2.1]
    have slot := State.pinSlot_letGo held'
    refine ⟨_, State.unpin_own own front, ?_, slot⟩
    exact congrArg (fun o : Option Pin => o.filter fun p => p.held) slot
  · refine congrArg Host.Outcome.next ((State.sluiceOp_front front (by omega)).trans ?_)
    simp [State.foreignPin_other held other]
  · refine congrArg Host.Outcome.next ((State.sluiceOp_front front (by omega)).trans ?_)
    simp [State.foreignPin_other held other]
  · refine congrArg Host.Outcome.next ((State.sluiceOp_front front (by omega)).trans ?_)
    simp

end Sys2Proof.Machine
end

section
/-! Proofs of chapters 08 and 09: applies, turns and parcels (R272 to R274, R303, R309 to R311, R380). -/
set_option Elab.async false
namespace Sys2Proof.Machine

/-! ### The pending turns (R311) -/

/-- The first of two turns. -/
def earlier (b : Option (Nat × Nat)) (t : Nat × Nat) : Option (Nat × Nat) :=
  match b with
  | some x => if turnLt t x then some t else b
  | none => some t

theorem turnLt_asymm {a b : Nat × Nat} (lt : turnLt a b = true) : turnLt b a = false := by
  simp only [turnLt, Bool.or_eq_true, Bool.and_eq_true, decide_eq_true_eq] at lt
  simp only [turnLt, Bool.or_eq_false_iff, Bool.and_eq_false_iff, decide_eq_false_iff_not]
  omega

/-- The turn before all others is the one that the search ends with. -/
theorem foldl_earlier {t : Nat × Nat} (l : List (Nat × Nat)) : ∀ b : Option (Nat × Nat), (∀ x ∈ l, x = t ∨ turnLt t x = true) →
    (∀ x ∈ b, x = t ∨ turnLt t x = true) → (t ∈ l ∨ b = some t) → l.foldl earlier b = some t := by
  induction l with
  | nil => exact fun b _ _ found => found.resolve_left List.not_mem_nil
  | cons x l ih =>
    intro b all start found
    have first := all x List.mem_cons_self
    have next : (∀ y ∈ earlier b x, y = t ∨ turnLt t y = true) ∧ (t ∈ l ∨ earlier b x = some t) := by
      cases b with
      | none =>
        refine ⟨fun y hy => Option.mem_some_iff.mp hy ▸ first, ?_⟩
        obtain found | absent := found
        · obtain rfl | later := List.mem_cons.mp found
          · exact .inr rfl
          · exact .inl later
        · exact absurd absent (by simp)
      | some y =>
        have held := start y rfl
        unfold earlier
        dsimp only
        split
        · next lt =>
          refine ⟨fun z hz => Option.mem_some_iff.mp hz ▸ first, ?_⟩
          obtain found | found := found
          · obtain rfl | later := List.mem_cons.mp found
            · exact .inr rfl
            · exact .inl later
          · obtain rfl := Option.some.inj found
            obtain rfl | lt' := first
            · exact .inr rfl
            · exact absurd (turnLt_asymm lt') (by simp [lt])
        · next ge =>
          refine ⟨fun z hz => Option.mem_some_iff.mp hz ▸ held, ?_⟩
          obtain found | found := found
          · obtain rfl | later := List.mem_cons.mp found
            · obtain rfl | lt := held
              · exact .inr rfl
              · exact absurd lt ge
            · exact .inl later
          · exact .inr found
    exact ih _ (fun y hy => all y (List.mem_cons_of_mem _ hy)) next.1 next.2

theorem State.firstTurn_of {s : State} {t : Nat × Nat} (first : s.FirstTurn t) : s.firstTurn = some t :=
  foldl_earlier s.pendingTurns none first.2 (fun x h => absurd h (by simp)) (.inl first.1)

/-- Erasing the repetitions of a list leaves none. -/
theorem nodup_eraseDups {α : Type} [DecidableEq α] (l : List α) : l.eraseDups.Nodup := by
  induction h : l.length using Nat.strongRecOn generalizing l with
  | ind n ih =>
    cases l with
    | nil => exact List.nodup_nil
    | cons a l =>
      rw [List.eraseDups_cons, List.nodup_cons]
      refine ⟨fun mem => ?_, ih _ ?_ _ rfl⟩
      · simpa using (List.mem_filter.mp (List.mem_eraseDups.mp mem)).2
      · subst h
        exact Nat.lt_succ_of_le (List.length_filter_le _ l)

/-- A list without repetitions of which one element alone meets a test. -/
theorem filter_eq_singleton {α : Type} {p : α → Bool} {l : List α} {a : α} (once : l.Nodup) (mem : a ∈ l) (meets : p a = true)
    (alone : ∀ b ∈ l, b ≠ a → p b = false) : l.filter p = [a] := by
  have perm : List.Perm (l.filter p) [a] := by
    refine (List.perm_ext_iff_of_nodup (once.filter p) (by simp)).mpr fun b => ?_
    rw [List.mem_filter, List.mem_singleton]
    constructor
    · rintro ⟨inside, met⟩
      refine Classical.byContradiction fun other => ?_
      exact absurd met (by simp [alone b inside other])
    · rintro rfl
      exact ⟨mem, meets⟩
  exact List.perm_singleton.mp perm

/-- The one module of update_set that is not closed for the step of the first pending turn is awaited. -/
theorem State.awaitedFor_alone {s : State} {t : Nat × Nat} {k : Nat} (first : s.FirstTurn t) (few : k < 64)
    (member : maskBit (s.reg 0x6810 1) k = true) (open' : s.closedFor k t.1 = false)
    (others : ∀ m ∈ (maskList 64 (s.reg 0x6810 1)) ++ [s.me], m ≠ k → s.closedFor m t.1 = true) : s.awaitedFor = some (t.1, k) := by
  have inside : k ∈ (((maskList 64 (s.reg 0x6810 1)) ++ [s.me]).eraseDups) := by
    rw [List.mem_eraseDups, List.mem_append]
    exact .inl (List.mem_filter.mpr ⟨List.mem_range.mpr few, member⟩)
  have one := filter_eq_singleton (p := fun k => !s.closedFor k t.1) (nodup_eraseDups _) inside (by simp [open'])
    fun m hm other => by simp [others m (List.mem_eraseDups.mp hm) other]
  unfold State.awaitedFor
  rw [State.firstTurn_of first, Option.bind_some, one]
  exact if_pos member

/-- A module that is closed for the step of the first pending turn is not awaited. -/
theorem State.awaitedFor_closed {s : State} {t : Nat × Nat} {k : Nat} (first : s.FirstTurn t) (closed : s.closedFor k t.1 = true) (n : Nat) :
    s.awaitedFor ≠ some (n, k) := by
  unfold State.awaitedFor
  rw [State.firstTurn_of first, Option.bind_some]
  split
  · next m one =>
    have open' := (List.mem_filter.mp (one ▸ List.mem_singleton_self m)).2
    split
    · intro same
      obtain ⟨-, rfl⟩ := Prod.mk.inj (Option.some.inj same)
      simp [closed] at open'
    · exact Option.some_ne_none _ ∘ Eq.symm
  · exact Option.some_ne_none _ ∘ Eq.symm

theorem State.awaitedFor_none {s : State} (idle : s.pendingTurns = []) : s.awaitedFor = none := by
  unfold State.awaitedFor State.firstTurn
  rw [idle]
  rfl

/-! ### The watch of the turn (R311) -/

theorem State.watchTurn_same {s : State} {n k since : Nat} (awaits : s.awaitedFor = some (n, k)) (noted : s.sl.awaited = some (n, k, since)) :
    s.watchTurn = s := by
  have same : { s.sl with awaited := some (n, k, since) } = s.sl := by rw [← noted]
  unfold State.watchTurn
  simp only [awaits, noted, Option.map_some, decide_true, if_true, Bool.and_self]
  rw [same]

theorem State.watchTurn_new {s : State} {n k : Nat} (awaits : s.awaitedFor = some (n, k)) (none : s.sl.awaited = none) :
    s.watchTurn = { s with sl := { s.sl with awaited := some (n, k, s.now) } } := by
  unfold State.watchTurn
  simp only [awaits, none, Option.map_some]

theorem State.watchTurn_idle {s : State} (idle : s.awaitedFor = none) : s.watchTurn = { s with sl := { s.sl with awaited := none } } := by
  unfold State.watchTurn
  simp only [idle, Option.map_none]

/-- The watch does not change what it watches. -/
theorem State.watchTurn_awaitedFor (s : State) : s.watchTurn.awaitedFor = s.awaitedFor := rfl

/-- A second watch notes nothing new. -/
theorem State.watchTurn_twice (s : State) : s.watchTurn.watchTurn = s.watchTurn := by
  cases awaits : s.awaitedFor with
  | none =>
    rw [State.watchTurn_idle (s := s.watchTurn) awaits, State.watchTurn_idle awaits]
  | some x =>
    refine State.watchTurn_same (n := x.1) (k := x.2) (since := ?_) awaits ?_
    · exact match s.sl.awaited with
        | some (st, k, since) => if st = x.1 && k = x.2 then since else s.now
        | none => s.now
    · simp only [State.watchTurn, awaits, Option.map_some] <;> rfl

/-- The window that TURN_APPLY runs of a table for a turn's group, where one may start, leaves it done. -/
def State.turnWindow (u : State) (t : Turn) (table : Nat) (ue : List Nat) : State :=
  match u.sl.applies.find? fun a => a.grp = t.grp && a.table = table && u.applyFree a with
  | some a => (u.runApply a ue).setApply { a with started := true } { a with started := true, done := true }
  | none => u

/-- TURN_APPLY of a served turn that is not late begins it, runs its window, and ends it once all is done and staged. -/
theorem State.turnApply_served {s : State} {table : Nat} {ue : List Nat} {t : Turn} (served : s.servedTurn = some t) (prompt : t.late = false) :
    exec (.turnApply table ue) s = .next (s.whenFetched fun _ =>
      let v := (s.beginTurn t.step t.src).turnWindow t table ue
      State.watchTurn (
        if (v.group? t.grp).isNone then { v with sl := { v.sl with turns := v.sl.turns.filter fun x => x ≠ t } }
        else if (v.sl.applies.all fun a => a.grp ≠ t.grp || a.done) && v.staged t.grp then v.endTurn t
        else v)) := by
  refine congrArg Host.Outcome.next ?_
  rw [served]
  simp only [State.whenFetched_at s, prompt, Bool.false_eq_true, if_false]
  rfl

/-- STEP_TIMEOUT of a module that is awaited since long enough counts it as closed. -/
theorem State.stepTimeout_late {s : State} {k n since : Nat} (awaits : s.awaitedFor = some (n, k)) (noted : s.sl.awaited = some (n, k, since))
    (late : usCycles (s.reg 0x6800 6) ≤ s.now - since) : s.doStepTimeout k =
      State.watchTurn (State.bump { s with sl := { s.sl with timedOut := s.sl.timedOut ++ [(k, n)] } } 0x6800 19 1) := by
  unfold State.doStepTimeout
  rw [State.watchTurn_same awaits noted]
  simp only [noted, late, decide_true, Bool.and_self, if_true]

/-- It times nothing out before. -/
theorem State.stepTimeout_early {s u : State} {k n m since : Nat} (watched : s.watchTurn = u) (noted : u.sl.awaited = some (n, m, since))
    (early : m = k → u.now - since < usCycles (u.reg 0x6800 6)) : s.doStepTimeout k = u := by
  unfold State.doStepTimeout
  rw [watched]
  simp only [noted]
  refine if_neg ?_
  rw [Bool.and_eq_true, decide_eq_true_eq, decide_eq_true_eq]
  exact fun h => absurd (early h.1) (Nat.not_lt.mpr h.2)

/-- The final commit of a job that is decided, that runs on, or whose turn has not come, decides nothing. -/
theorem State.finalCommit_waits {s : State} {j : Nat} {b : Job} (found : s.job? j = some b)
    (waits : b.decision.isSome = true ∨ (∃ i ∈ b.invs, i.finished = false) ∨ s.jobTurn b = false) : s.finalCommit j = s := by
  unfold State.finalCommit
  rw [found]
  refine if_pos ?_
  obtain decided | ⟨i, hi, runs⟩ | early := waits
  · simp [decided]
  · have all : b.invs.all (fun i => i.finished) = false := List.all_eq_false.mpr ⟨i, hi, by simp [runs]⟩
    simp [all]
  · simp [early]

/-- The final commit of a job whose turn has come asks for its applies, and goes on once they are done. -/
theorem State.finalCommit_turn {s : State} {j : Nat} {b : Job} (found : s.job? j = some b) (undecided : b.decision = none) (alone : b.stack = none)
    (ended : ∀ i ∈ b.invs, i.finished = true) (turn : s.jobTurn b = true) :
    s.finalCommit j =
      let u := if b.asked then s else s.askJobApplies j
      if !u.appliesDone j then u
      else if (u.jobGroups j).any fun g => g.broken then u.abortJob j (lossCause (u.jobGroups j))
      else (u.prepareJob j).decideJob j := by
  have all : b.invs.all (fun i => i.finished) = true := List.all_eq_true.mpr ended
  unfold State.finalCommit
  simp only [found, undecided, alone, all, turn]
  rfl

theorem State.watchTurn_jobTurn (s : State) (b : Job) : s.watchTurn.jobTurn b = s.jobTurn b := rfl

/-- The table takes gradients of its rows: it is valid, homed here, and has an optimiser and a format that rows are kept in. -/
def State.takesGradient (s : State) (d : Desc) (row : Nat) : Prop :=
  tdValid d = true ∧ tdHome d = s.me ∧ tdOptimiser d ≠ 0 ∧ (tdFormat d = 0 ∨ tdFormat d = 5) ∧ row < tdRows d

/-- A parcel of a table that takes no gradients is counted and acknowledged with status 1. -/
theorem State.parcel_refused {s : State} {m : FabMsg} (bad : ¬ (s.consumeMsg m).takesGradient ((s.consumeMsg m).table m.table) m.row) :
    exec (.parcel m) s = .next (let w := (s.consumeMsg m).bump 0x6010 11 1
        w.send { m.reply w.me 0x04 1 with flags := 0 } .none) := by
  refine congrArg Host.Outcome.next (if_pos (c := (_ || _ || _ || _ || _) = true) ?_)
  simp only [Bool.or_eq_true, Bool.and_eq_true, Bool.not_eq_true', decide_eq_true_eq]
  unfold State.takesGradient at bad
  refine Classical.byContradiction fun good => ?_
  simp only [not_or, Classical.not_and_iff_not_or_not, Classical.not_not, Bool.not_eq_false, Nat.not_le, ne_eq] at good
  obtain ⟨⟨⟨⟨valid, home⟩, opt⟩, format⟩, row⟩ := good
  exact bad ⟨valid, home, opt, format, row⟩

/-- A parcel of a table that takes gradients is charged once, and adds its gradient to the group of its turn. -/
theorem State.parcel_taken {s v : State} {m : FabMsg} {out : AddOut} (good : (s.consumeMsg m).takesGradient ((s.consumeMsg m).table m.table) m.row)
    (added : let u := s.consumeMsg m
      let d := u.table m.table
      let again := u.sl.parcelWaits.find? fun q => q.1 = m
      let c := if again.isSome then u else u.charge 16 11 m.data.length
      let x := c.parcelGroup m d (c.parcelLate m)
      x.1.addGradient (x.1.homeDie d m.row) x.2 (m.mark + 1) m.table m.row d (65536 + m.src) m.count m.data (again.elim 0 fun q => q.2) = (v, out)) :
    exec (.parcel m) s = .next (
      let u := s.consumeMsg m
      let c := if (u.sl.parcelWaits.find? fun q => q.1 = m).isSome then u else u.charge 16 11 m.data.length
      let rest := v.sl.parcelWaits.filter fun q => q.1 ≠ m
      match out with
      | .done fl =>
        let w := (v.bump 0x6800 17 1).bump 0x6800 18 (boolNat (c.parcelLate m && maskBit (v.reg 0x6810 1) m.src))
        let y : State := { w with sl := { w.sl with parcelWaits := rest } }
        (y.send { m.reply y.me 0x04 0 with flags := fl } .none).watchTurn
      | .waits why => { v with fab := s.fab, sl := { v.sl with parcelWaits := rest ++ [(m, why)] } }) := by
  obtain ⟨valid, home, opt, format, row⟩ := good
  dsimp only at added
  refine congrArg Host.Outcome.next ((if_neg (c := (_ || _ || _ || _ || _) = true) ?_).trans ?_)
  · simp only [Bool.or_eq_true, Bool.and_eq_true, Bool.not_eq_true', decide_eq_true_eq, not_or, Classical.not_and_iff_not_or_not, Classical.not_not, ne_eq, Bool.not_eq_false, Nat.not_le]
    exact ⟨⟨⟨⟨valid, home⟩, opt⟩, format⟩, row⟩
  · simp only [added]
    cases out <;> rfl

/-- Settles O38: the first pending turn is served, and a parcel joins the group of its turn. -/
theorem updatesAreAppliedInTurn : Obligations.UpdatesAreAppliedInTurn := by
  unfold Obligations.UpdatesAreAppliedInTurn
  refine ⟨fun s j ue => ⟨fun a found => ⟨?_, fun faulted => ?_⟩, fun none => ?_⟩, fun s j => ⟨fun a found => ?_, fun none => ?_⟩,
    fun s j b found => ⟨fun waits => ?_, fun undecided alone ended turn => ⟨fun applying => ?_, fun applied => ⟨fun broken => ?_, fun whole => ?_⟩⟩⟩,
    fun s table ue => ⟨fun none => ?_, fun t served prompt => ?_⟩, fun s m => ⟨fun bad => ?_, fun valid home opt format row v out added => ?_⟩,
    fun s m d late => ⟨fun t found => ?_, fun none => ⟨fun t joins => ?_, fun alone => ?_⟩⟩, fun s u m o p k answers use up => ?_,
    fun s m => ⟨fun t found => ⟨fun commit => ?_, fun discard => ?_⟩, fun none => ?_, rfl, rfl⟩,
    fun s k => ⟨fun t first few member open' others => State.awaitedFor_alone first few member open' others,
      fun t first closed n => State.awaitedFor_closed first closed n, fun idle => State.awaitedFor_none idle, fun n since awaits noted => ⟨fun late => ?_, fun early => ?_⟩,
      fun n awaits none timed => ?_, fun n m awaits other => ?_, fun idle => ?_⟩⟩
  · exact congrArg Host.Outcome.next (by rw [found])
  · have job : a.job = some j := by
      have meets := List.find?_some found
      rw [Bool.and_eq_true, decide_eq_true_eq] at meets
      exact meets.1
    unfold State.runApply
    simp only [faulted, if_true, job]
  · exact congrArg Host.Outcome.next (by rw [none])
  · exact congrArg Host.Outcome.next (by rw [found]; rfl)
  · exact congrArg Host.Outcome.next (by rw [none])
  · refine congrArg (fun t : State => Host.Outcome.next t.watchTurn.settleOps) (State.finalCommit_waits (s := s.watchTurn) found waits) |>.trans ?_
    rw [s.watchTurn_twice]
  · have commits := State.finalCommit_turn (s := s.watchTurn) found undecided alone ended turn
    refine congrArg (fun t : State => Host.Outcome.next t.watchTurn.settleOps) (commits.trans (if_pos ?_))
    simp [applying]
  · have commits := State.finalCommit_turn (s := s.watchTurn) found undecided alone ended turn
    refine congrArg (fun t : State => Host.Outcome.next t.watchTurn.settleOps) (commits.trans ((if_neg ?_).trans (if_pos ?_)))
    · simp [applied]
    · exact List.any_eq_true.mpr broken
  · have commits := State.finalCommit_turn (s := s.watchTurn) found undecided alone ended turn
    refine congrArg (fun t : State => Host.Outcome.next t.watchTurn.settleOps) (commits.trans ((if_neg ?_).trans (if_neg ?_)))
    · simp [applied]
    · rw [List.any_eq_true]
      exact fun ⟨g, hg, bad⟩ => absurd bad (by simp [whole g hg])
  · exact congrArg Host.Outcome.next (by rw [none])
  · have serves := State.turnApply_served (table := table) (ue := ue) served prompt
    refine ⟨fun gone => serves.trans ?_, fun kept done staged => serves.trans ?_, fun kept undone => serves.trans ?_⟩
    · refine congrArg (fun t => Host.Outcome.next (s.whenFetched fun _ => State.watchTurn t)) (if_pos ?_)
      exact Option.isNone_iff_eq_none.mpr gone
    · refine congrArg (fun t => Host.Outcome.next (s.whenFetched fun _ => State.watchTurn t)) ((if_neg ?_).trans (if_pos ?_))
      · exact fun h => kept (Option.isNone_iff_eq_none.mp h)
      · rw [Bool.and_eq_true, List.all_eq_true]
        refine ⟨fun a ha => ?_, staged⟩
        rw [Bool.or_eq_true, decide_eq_true_eq, Classical.or_iff_not_imp_left, Classical.not_not]
        exact done a ha
    · refine congrArg (fun t => Host.Outcome.next (s.whenFetched fun _ => State.watchTurn t)) ((if_neg ?_).trans (if_neg ?_))
      · exact fun h => kept (Option.isNone_iff_eq_none.mp h)
      · obtain ⟨a, ha, grp, runs⟩ := undone
        rw [Bool.and_eq_true, List.all_eq_true]
        exact fun h => absurd (h.1 a ha) (by simp [grp, runs])
  · refine State.parcel_refused fun good => ?_
    obtain ⟨valid, home, opt, format, row⟩ := good
    obtain h | h | h | h | h := bad
    · exact absurd (valid.symm.trans h) (by decide)
    · exact h home
    · exact opt h
    · exact format.elim h.1 h.2
    · exact absurd row (Nat.not_lt.mpr h)
  · have taken := State.parcel_taken ⟨valid, home, opt, format, row⟩ added
    refine ⟨fun fl done => ?_, fun why waits => ?_⟩
    · subst done
      exact taken
    · subst waits
      exact taken
  · unfold State.parcelGroup
    rw [found]
  · unfold State.parcelGroup
    simp only [none, joins]
  · unfold State.parcelGroup
    simp only [none, alone]
  · refine congrArg Host.Outcome.next ?_
    simp only [answers, Option.map_some, use]
  · exact congrArg Host.Outcome.next (by simp only [found, commit, if_true]; rfl)
  · exact congrArg Host.Outcome.next (by simp only [found, discard, if_false])
  · exact congrArg Host.Outcome.next (by simp only [none])
  · exact congrArg Host.Outcome.next (State.stepTimeout_late awaits noted late)
  · exact congrArg Host.Outcome.next (State.stepTimeout_early (State.watchTurn_same awaits noted) noted fun _ => early)
  · exact congrArg Host.Outcome.next (State.stepTimeout_early (State.watchTurn_new awaits none) rfl fun _ => by rw [Nat.sub_self]; exact timed)
  · have noted : s.watchTurn.sl.awaited = some (n, m, match s.sl.awaited with
        | some (st, k, since) => if st = n && k = m then since else s.now
        | none => s.now) := by
      unfold State.watchTurn
      rw [awaits]
      rfl
    exact congrArg Host.Outcome.next (State.stepTimeout_early rfl noted fun same => absurd same other)
  · have idle' := State.watchTurn_idle idle
    refine congrArg Host.Outcome.next ?_
    unfold State.doStepTimeout
    rw [idle']

end Sys2Proof.Machine
end

section
/-! Proofs of chapters 08, 09 and 11: replicas and their home (R264 to R269, R314, R379). -/
set_option Elab.async false
namespace Sys2Proof.Machine

/-! ### Replicas and their home (R264, R266, R269, R314) -/

/-- Two runs that agree on the state as it stands are one command. -/
theorem State.whenFetched_congr {s : State} {f g : State → State} (same : f s = g s) : s.whenFetched f = s.whenFetched g := by
  rw [s.whenFetched_at f, s.whenFetched_at g, same]

/-- Of two dies, one that has room is found where there is one. -/
theorem find_die {p : Nat → Bool} (first : Nat) (die : first < 2) (some' : p 0 = true ∨ p 1 = true) :
    ∃ d, d < 2 ∧ p d = true ∧ [first, 1 - first].find? p = some d := by
  cases met : p first with
  | true => exact ⟨first, die, met, by simp [met]⟩
  | false =>
    have second : p (1 - first) = true := by
      obtain rfl | rfl : first = 0 ∨ first = 1 := by omega
      · exact some'.resolve_left (by simp [met])
      · exact some'.resolve_right (by simp [met])
    exact ⟨1 - first, by omega, second, by simp [met, second]⟩

/-- What REPLICA_INSTALL does once its message is consumed: the dies are tried from the first given. -/
def State.installRow (s : State) (m : FabMsg) (first : Nat) : State :=
  match (s.ownReplica m.table m.row), ([first, 1 - first].find? fun d => s.replicaFits d m.table m.data.length) with
  | some _, _ => s.send (m.reply s.me 0x11 0) .none
  | none, none => s.send (m.reply s.me 0x11 1) .none
  | none, some d =>
    let g := s.beginGroup .refresh d none
    let w := (g.1.addItem g.2 (.replica d m.table m.row m.data m.mark)).openArrived
    w.send (m.reply w.me 0x11 0) .none

/-- REPLICA_INSTALL draws the die to be tried first. -/
theorem State.replicaInstall_eq (s : State) (m : FabMsg) : exec (.replicaInstall m) s =
    .next (State.installRow { (s.consumeMsg m).charge 16 11 m.data.length with free := s.free + 1 } m ((Config.freeValue s.free).toNat % 2)) := by
  have drawn : ((s.consumeMsg m).charge 16 11 m.data.length).free = s.free := State.charge_free ..
  exact congrArg (fun n => Host.Outcome.next (State.installRow { (s.consumeMsg m).charge 16 11 m.data.length with free := n + 1 } m
    ((Config.freeValue n).toNat % 2))) drawn

theorem State.installRow_present {s : State} {m : FabMsg} {first : Nat} {x : Nat × List Byte × Nat} (present : s.ownReplica m.table m.row = some x) :
    s.installRow m first = s.send (m.reply s.me 0x11 0) .none := by
  unfold State.installRow
  simp only [present]

theorem State.installRow_full {s : State} {m : FabMsg} {first : Nat} (die : first < 2) (absent : s.ownReplica m.table m.row = none)
    (full0 : s.replicaFits 0 m.table m.data.length = false) (full1 : s.replicaFits 1 m.table m.data.length = false) :
    s.installRow m first = s.send (m.reply s.me 0x11 1) .none := by
  have full {k : Nat} (die : k < 2) : s.replicaFits k m.table m.data.length = false := by
    obtain rfl | rfl : k = 0 ∨ k = 1 := by omega
    · exact full0
    · exact full1
  have none' : [first, 1 - first].find? (fun d => s.replicaFits d m.table m.data.length) = none := by
    rw [List.find?_eq_none]
    intro k hk
    rw [full (by simp only [List.mem_cons, List.not_mem_nil, or_false] at hk; omega)]
    exact Bool.false_ne_true
  unfold State.installRow
  simp only [absent, none']

theorem State.installRow_fits {s : State} {m : FabMsg} {first : Nat} (die : first < 2) (absent : s.ownReplica m.table m.row = none)
    (room : s.replicaFits 0 m.table m.data.length = true ∨ s.replicaFits 1 m.table m.data.length = true) :
    ∃ d, d < 2 ∧ s.replicaFits d m.table m.data.length = true ∧ s.installRow m first =
      (let g := s.beginGroup .refresh d none
       let w := (g.1.addItem g.2 (.replica d m.table m.row m.data m.mark)).openArrived
       w.send (m.reply w.me 0x11 0) .none) := by
  obtain ⟨d, few, fits, found⟩ := find_die (p := fun d => s.replicaFits d m.table m.data.length) first die room
  refine ⟨d, few, fits, ?_⟩
  unfold State.installRow
  simp only [absent, found]

/-- A table that is not valid here, or audits that are off: no audit. -/
theorem State.audit_off {s : State} {t r : Nat} (off : tdValid (s.table t) = false ∨ tdHome (s.table t) ≠ s.me ∨ s.reg 0x6800 7 = 0) :
    execAudit t r s = .next s := by
  unfold execAudit
  dsimp only
  rw [if_pos]
  simpa only [Bool.or_eq_true, Bool.not_eq_true', decide_eq_true_eq, or_assoc] using off

theorem State.audit_on {s : State} {t r : Nat} (valid : tdValid (s.table t) = true) (home : tdHome (s.table t) = s.me) (timed : s.reg 0x6800 7 ≠ 0) :
    execAudit t r s = .next (s.whenFetched fun s =>
        let u := (s.auditDie t r 0).auditDie t r 1
        (SMap.get [] u.tab.holders (2 ^ 32 * t + r)).foldl (fun w h => w.send { w.msgTo 0 0x01 h.1 with
          flags := 1, table := t, row := r, count := tdStride (s.table t),
          addr := tdBase (s.table t) + r * tdStride (s.table t) } .refresh) u) := by
  unfold execAudit
  dsimp only
  rw [if_neg (by simp [valid, home, timed])]
  exact congrArg Host.Outcome.next (State.whenFetched_congr rfl)

/-- What the comparison of a replica that is checked without error finds, with no injection armed. -/
theorem State.auditDie_checked {s u v : State} {t r die m : Nat} {bs home : List Byte} (found : (s.dirNow die t r).bind (fun e => e.replica) = some (bs, m))
    (read : s.rowRead 16 (s.homeAddr t r) (tdStride (s.table t)) [] = (v, some home)) (checked : v.resvCheck die 1 none [] = (u, false))
    (quiet : u.armed 0x9012 t 0 = false) :
    s.auditDie t r die =
      let hm := v.homeMarkOf t r
      if m = hm then (if bs = home then u else (u.fixAll t r home hm).auditFault t r u.me hm false)
      else if markLt m hm then (u.fixReplica die t r home hm).bump 0x6800 15 1
      else if markLe m u.sl.lastMark then u.fixHome t r bs m
      else (u.fixReplica die t r home hm).auditFault t r u.me m false := by
  unfold State.auditDie
  simp only [found, read, checked, quiet, Bool.and_false, Bool.false_eq_true, if_false]

/-- Settles O39: a message acts on the replica that the module has, and the audit of a die follows Table 9 of 09. -/
theorem replicasFollowTheirHome : Obligations.ReplicasFollowTheirHome := by
  unfold Obligations.ReplicasFollowTheirHome
  refine ⟨fun s m => ⟨fun none => ?_, fun d x found => ?_, fun x found => ?_, fun absent => ⟨fun full0 full1 => ?_, fun room => ?_⟩⟩,
    fun s m => ⟨fun none => ?_, fun d x found => ?_⟩, fun s t r => ⟨State.audit_off, fun valid home timed => ?_⟩,
    fun s u v t r die m bs => ⟨fun none => ?_, fun found => ⟨fun lost => ?_, fun home read checked quiet => ?_⟩⟩⟩
  · exact congrArg Host.Outcome.next (by simp only [none])
  · exact congrArg Host.Outcome.next (by simp only [found])
  · exact (s.replicaInstall_eq m).trans (congrArg Host.Outcome.next (State.installRow_present found))
  · exact (s.replicaInstall_eq m).trans (congrArg Host.Outcome.next (State.installRow_full (Nat.mod_lt _ (by decide)) absent full0 full1))
  · have first : (Config.freeValue s.free).toNat % 2 < 2 := Nat.mod_lt _ (by decide)
    obtain ⟨d, few, fits, done⟩ := State.installRow_fits (s := { (s.consumeMsg m).charge 16 11 m.data.length with free := s.free + 1 }) first absent room
    exact ⟨d, few, fits, (s.replicaInstall_eq m).trans (congrArg Host.Outcome.next done)⟩
  · exact congrArg Host.Outcome.next (by simp only [none])
  · exact congrArg Host.Outcome.next (by simp only [found])
  · exact State.audit_on valid home timed
  · unfold State.auditDie
    simp only [none]
  · unfold State.auditDie
    simp only [found, lost]
  · have finds := State.auditDie_checked found read checked quiet
    refine ⟨fun same equal => finds.trans ((if_pos same).trans (if_pos equal)), fun same differs => finds.trans ((if_pos same).trans ((if_neg differs).trans ?_)),
      fun other older => finds.trans ((if_neg other).trans (if_pos older))⟩
    rw [same]

end Sys2Proof.Machine
end

section
/-! Proofs of chapter 11: the requests of other modules (R312, R379, R382 to R385). -/
set_option Elab.async false
namespace Sys2Proof.Machine

/-- What ROW_READ does: the message is consumed, and a replica or the home's row is served. -/
def State.rowReadRun (u : State) (m : FabMsg) (lost : List Nat) : State :=
  let d := u.table m.table
  if m.flags % 2 = 1 then
    match rowOfAddr d m.addr with
    | some r => u.serveReplica m r lost
    | none => u.refuseMsg m 0x02 1
  else if !u.fabricAllows m.src m.addr (tdStride d) false then u.refuseMsg m 0x02 3
  else match rowOfAddr d m.addr with
    | some r => if tdHome d = u.me then u.serveRow m d r lost else u.refuseMsg m 0x02 1
    | none => u.refuseMsg m 0x02 1

/-- ROW_READ leaves what its run leaves. -/
theorem State.rowRead_runs {s t : State} {m : FabMsg} {lost : List Nat} (runs : (s.consumeMsg m).rowReadRun m lost = t) :
    exec (.rowRead m lost) s = .next (s.whenFetched fun _ => t) := by
  subst runs
  exact congrArg Host.Outcome.next (s.whenFetched_at _)

theorem State.serveReplica_none {s : State} {m : FabMsg} {r : Nat} {lost : List Nat} (absent : s.ownReplica m.table r = none) :
    s.serveReplica m r lost = s.refuseMsg m 0x02 1 := by
  unfold State.serveReplica
  rw [absent]

theorem State.serveReplica_some {s v : State} {m : FabMsg} {r k x : Nat} {bs : List Byte} {bad : Bool} {lost : List Nat}
    (present : s.ownReplica m.table r = some (k, bs, x)) (checked : s.resvCheck k 1 none lost = (v, bad)) :
    s.serveReplica m r lost = if bad then v.refuseMsg m 0x02 2 else v.serveData m 0x02 x bs := by
  unfold State.serveReplica
  simp only [present, checked]

theorem State.serveRow_staged {s v : State} {m : FabMsg} {d : Desc} {r : Nat} {x : Version} {bad : Bool} {lost : List Nat}
    (newest : s.newestVisible (s.homeDie d r) m.table r false s.sl.lastMark = some x) (checked : s.resvCheck (s.homeDie d r) 2 none lost = (v, bad)) :
    s.serveRow m d r lost = if bad then v.refuseMsg m 0x02 2 else v.serveData m 0x02 (x.mark.getD 0) x.data := by
  unfold State.serveRow
  simp only [newest, checked]

theorem State.serveRow_memory {s v : State} {m : FabMsg} {d : Desc} {r : Nat} {o : ReadOut} {lost : List Nat}
    (none' : s.newestVisible (s.homeDie d r) m.table r false s.sl.lastMark = none)
    (read : s.readMem 16 none (s.homeAddr m.table r) (tdStride d) true lost = (v, o)) :
    s.serveRow m d r lost =
      if o.refused then v.refuseMsg m 0x02 1
      else if !o.lost.isEmpty then v.refuseMsg m 0x02 2
      else v.serveData m 0x02 (v.homeMarkOf m.table r) o.bytes := by
  unfold State.serveRow
  simp only [none', read]

/-- A request for a replica is served by the row at its address. -/
theorem State.rowReadRun_replica {u : State} {m : FabMsg} {lost : List Nat} {r : Nat} (replica : m.flags % 2 = 1)
    (row : rowOfAddr (u.table m.table) m.addr = some r) : u.rowReadRun m lost = u.serveReplica m r lost := by
  unfold State.rowReadRun
  simp only [replica, if_true, row]

/-- A request that the windows allow is served by the row at its address, at its home. -/
theorem State.rowReadRun_home {u : State} {m : FabMsg} {lost : List Nat} {r : Nat} (home : m.flags % 2 = 0)
    (allowed : u.fabricAllows m.src m.addr (tdStride (u.table m.table)) false = true) (row : rowOfAddr (u.table m.table) m.addr = some r)
    (here : tdHome (u.table m.table) = u.me) : u.rowReadRun m lost = u.serveRow m (u.table m.table) r lost := by
  unfold State.rowReadRun
  simp [home, allowed, row, here]

/-- Settles O40: a request is checked in the order of R379 and R383, and what it names is served. -/
theorem peersAreServedAndAnswer : Obligations.PeersAreServedAndAnswer := by
  unfold Obligations.PeersAreServedAndAnswer
  refine ⟨fun s m lost => ⟨fun replica => ⟨fun none => State.rowRead_runs ?_, fun r row => ⟨fun absent => State.rowRead_runs ?_,
      fun k bs x v present => ⟨fun good => State.rowRead_runs ?_, fun bad => State.rowRead_runs ?_⟩⟩⟩,
      fun home => ⟨fun barred => State.rowRead_runs ?_, fun allowed => ⟨fun nowhere => State.rowRead_runs ?_, fun r row here =>
        ⟨fun x v newest => ⟨fun good => State.rowRead_runs ?_, fun bad => State.rowRead_runs ?_⟩,
          fun v o none read => ⟨fun refused => State.rowRead_runs ?_, fun fine lost' => State.rowRead_runs ?_, fun fine whole => State.rowRead_runs ?_⟩⟩⟩⟩⟩,
    fun s v m lost o => ⟨fun refused => ?_, fun served read => ⟨fun refused => ?_, fun fine whole => ?_, fun fine lost' => ?_⟩, fun refused => ?_, fun served => ?_,
      fun other => ?_, fun peer => ⟨fun none => ?_, fun r found => ⟨fun readable => ?_, fun wo => ?_⟩⟩⟩⟩
  · unfold State.rowReadRun
    simp only [replica, if_true, none]
  · rw [State.rowReadRun_replica replica row, State.serveReplica_none absent]
  · rw [State.rowReadRun_replica replica row, State.serveReplica_some present good]
    rfl
  · rw [State.rowReadRun_replica replica row, State.serveReplica_some present bad]
    rfl
  · unfold State.rowReadRun
    simp [home, barred]
  · unfold State.rowReadRun
    obtain none | away := nowhere
    · simp [home, allowed, none]
    · cases row : rowOfAddr ((s.consumeMsg m).table m.table) m.addr <;> simp [home, allowed, row, away]
  · rw [State.rowReadRun_home home allowed row here, State.serveRow_staged newest good]
    rfl
  · rw [State.rowReadRun_home home allowed row here, State.serveRow_staged newest bad]
    rfl
  · rw [State.rowReadRun_home home allowed row here, State.serveRow_memory none read, if_pos refused]
  · rw [State.rowReadRun_home home allowed row here, State.serveRow_memory none read, if_neg (by simp [fine]), if_pos (by simpa using lost')]
  · rw [State.rowReadRun_home home allowed row here, State.serveRow_memory none read, if_neg (by simp [fine]), if_neg (by simp [whole])]
  · exact congrArg Host.Outcome.next (if_pos refused)
  · refine congrArg Host.Outcome.next ((if_neg (Classical.not_not.mpr served)).trans ?_)
    simp only [read, refused, if_true]
  · refine congrArg Host.Outcome.next ((if_neg (Classical.not_not.mpr served)).trans ?_)
    simp [read, fine, whole]
  · refine congrArg Host.Outcome.next ((if_neg (Classical.not_not.mpr served)).trans ?_)
    simp [read, fine, lost']
  · exact congrArg Host.Outcome.next (if_pos refused)
  · exact congrArg Host.Outcome.next (if_neg (Classical.not_not.mpr served))
  · exact congrArg Host.Outcome.next (if_pos (by simp [other]))
  · refine congrArg Host.Outcome.next ((if_neg (by simp [peer])).trans ?_)
    simp only [none]
  · refine congrArg Host.Outcome.next ((if_neg (by simp [peer])).trans ?_)
    simp only [found, readable, if_false]
  · refine congrArg Host.Outcome.next ((if_neg (by simp [peer])).trans ?_)
    simp only [found, wo, if_true]

end Sys2Proof.Machine
end

section
/-! Proofs of chapter 11: the answers of other modules (R326, R378 to R385). -/
set_option Elab.async false
namespace Sys2Proof.Machine

theorem failureOf_unmapped {status : Nat} (some' : status ≠ 0) (other : status ≠ 2) : failureOf status = some .unmapped := by
  unfold failureOf
  rw [if_neg some', if_neg other]

/-- What ROW_DATA does once it has been matched with what it answers. -/
def State.rowAnswered (s : State) (m : FabMsg) (up : Upsets) : Option OutMsg → State
  | none => s
  | some o =>
    match o.use, failureOf m.status with
    | .row p k, none => s.rowArrives p k (some m.data) up
    | .row _ _, some f => s.failUse o f up
    | .refresh, _ => s.auditPeer o.msg.table o.msg.row m.src m
    | _, _ => s

theorem State.rowData_answered {s u t : State} {m : FabMsg} {up : Upsets} {o : Option OutMsg} (answers : s.takeResponse m = (u, o))
    (leaves : u.rowAnswered m up o = t) : exec (.rowData m up) s = .next (s.whenFetched fun _ => t) := by
  subst leaves
  refine congrArg Host.Outcome.next ((s.whenFetched_at _).trans (congrArg (fun t => s.whenFetched fun _ => t) ?_))
  simp only [answers]
  cases o <;> rfl

/-- What READ_DATA does where it answers a message. -/
theorem State.readData_answered {s u : State} {m : FabMsg} {up : Upsets} {ue : List Nat} {o : OutMsg} (answers : s.takeResponse m = (u, some o)) :
    exec (.readData m up ue) s = .next (State.dmvGoesOn (match failureOf m.status with
      | some f => u.failUse o f
      | none =>
        match o.use with
        | .dmv p k => u.dmvArrives p k o.msg.row m.data none
        | .load j x r => u.argArrives j x r m.data
        | .state n kind => u.stateArrives n kind o.msg.row m.data
        | .fetch a n => (u.fetchPart a n o.msg.row 0 m.data).settleOps
        | _ => u) o.use up ue) := by
  refine congrArg Host.Outcome.next ?_
  simp only [answers] <;> rfl

/-- What ACK does where it answers a message. -/
theorem State.ack_answered {s u : State} {m : FabMsg} {up : Upsets} {ue : List Nat} {o : OutMsg} (answers : s.takeResponse m = (u, some o)) :
    exec (.ack m up ue) s = .next (State.dmvGoesOn (match failureOf m.status with
      | some f => u.failUse o f
      | none =>
        match o.use with
        | .jobWrite j => (u.tryFinish j).settleOps
        | .result j => (u.tryFinish j).settleOps
        | .rowCmd g => if u.rowCmdWaits g then u else u.decideGroup g
        | _ => u) o.use up ue) := by
  refine congrArg Host.Outcome.next ?_
  simp only [answers] <;> rfl

/-- A message that waits has its way, or its time. -/
theorem State.fabricTimeout_found {s : State} {o : OutMsg} (waits : s.fab.waiting.find? (fun x => x.id = o.id) = some o) :
    exec (.fabricTimeout o.id) s = .next (
      if neverTimesOut o.msg || !s.noWay o || (!o.dead && decide (s.now < o.since + usCycles (s.reg 0x8000 3))) then s
      else
        let u := State.countUnreachable { s with fab := Fabric.leave { s.fab with waiting := s.fab.waiting.filter fun x => x.id ≠ o.id } o } o.msg
        (if o.own then u.failUse o .unreachable else u).releaseHolds) := by
  refine congrArg Host.Outcome.next ?_
  simp only [waits]

/-- Settles O59: what a response answers decides what it does. -/
theorem answersEndTheirExchanges : Obligations.AnswersEndTheirExchanges := by
  unfold Obligations.AnswersEndTheirExchanges
  refine ⟨fun s m => rfl, fun s u m up ue answers => ⟨State.rowData_answered answers rfl, ?_, ?_⟩, fun s u m o up ue answers => ⟨fun p k use =>
      ⟨fun good => ?_, fun lost => ?_, fun some' other => ?_⟩, fun use => ?_, fun some' other => ?_, fun lost => ?_, fun good => ?_⟩,
    fun s o waits => ⟨fun stuck late times => ⟨fun own => ?_, fun forwarded => ?_⟩, fun stays => ?_⟩⟩
  · exact congrArg Host.Outcome.next (by simp only [answers])
  · exact congrArg Host.Outcome.next (by simp only [answers])
  · exact State.rowData_answered answers (by simp [State.rowAnswered, use, failureOf, good])
  · exact State.rowData_answered answers (by simp [State.rowAnswered, use, failureOf, lost])
  · exact State.rowData_answered answers (by simp [State.rowAnswered, use, failureOf_unmapped some' other])
  · exact State.rowData_answered answers (by simp [State.rowAnswered, use])
  · have failed := failureOf_unmapped some' other
    exact ⟨(State.readData_answered answers).trans (by rw [failed]), (State.ack_answered answers).trans (by rw [failed])⟩
  · have failed : failureOf m.status = some .lost := by rw [lost]; rfl
    exact ⟨(State.readData_answered answers).trans (by rw [failed]), (State.ack_answered answers).trans (by rw [failed])⟩
  · have fine : failureOf m.status = none := if_pos good
    have reads := State.readData_answered (up := up) (ue := ue) answers
    have acks := State.ack_answered (up := up) (ue := ue) answers
    simp only [fine] at reads acks
    refine ⟨fun p k use => ⟨?_, ?_⟩, fun j x r use => ?_, fun n k use => ?_, fun a n use => ?_, fun j use => ?_, fun j use => ?_,
      fun g use => ⟨fun pending => ?_, fun done => ?_⟩⟩
    · exact reads.trans (by simp only [use]; rfl)
    · exact acks.trans (by simp only [use]; rfl)
    · exact reads.trans (by simp only [use]; rfl)
    · exact reads.trans (by simp only [use]; rfl)
    · exact reads.trans (by simp only [use]; rfl)
    · exact acks.trans (by simp only [use]; rfl)
    · exact acks.trans (by simp only [use]; rfl)
    · exact acks.trans (by simp only [use, pending, if_true]; rfl)
    · exact acks.trans (by simp only [use, done]; rfl)
  · refine (State.fabricTimeout_found waits).trans (congrArg Host.Outcome.next ((if_neg ?_).trans (congrArg State.releaseHolds (if_pos own))))
    obtain dead | due := late
    · simp [times, stuck, dead]
    · simp [times, stuck, due]
  · refine (State.fabricTimeout_found waits).trans (congrArg Host.Outcome.next ((if_neg ?_).trans (congrArg State.releaseHolds (if_neg ?_))))
    · obtain dead | due := late
      · simp [times, stuck, dead]
      · simp [times, stuck, due]
    · simp [forwarded]
  · refine (State.fabricTimeout_found waits).trans (congrArg Host.Outcome.next (if_pos ?_))
    obtain never | way := stays
    · simp [never]
    · simp [way]

end Sys2Proof.Machine
end

section
/-! Proofs of chapters 10 and 11: commands that read bytes of another module (R326; log entry 27). -/
set_option Elab.async false
namespace Sys2Proof.Machine

/-! ### What sending leaves of the bytes asked for -/

/-- What a module holds open of the bytes of other modules, and what it wants of them. -/
def Fabric.reading (f : Fabric) : List Fetch × List (Nat × Nat) := (f.fetched, f.wanted)

theorem Fabric.leave_reading (f : Fabric) (o : OutMsg) : (f.leave o).reading = f.reading := by
  unfold Fabric.leave
  split <;> rfl

theorem State.transmit_reading (s : State) (e vc : Nat) (o : OutMsg) : (s.transmit e vc o).fab.reading = s.fab.reading := by
  unfold State.transmit
  dsimp only
  split <;> exact Fabric.leave_reading ..

theorem State.pumpList_reading (l : List OutMsg) : ∀ (s : State) (kept : List OutMsg), (s.pumpList kept l).1.fab.reading = s.fab.reading := by
  induction l with
  | nil => exact fun s kept => rfl
  | cons o l ih =>
    intro s kept
    unfold State.pumpList
    split
    · exact (ih _ _).trans (State.transmit_reading ..)
    · exact ih _ _

theorem State.pumpTurns_reading (n : Nat) : ∀ (s : State) (l : List OutMsg), (State.pumpTurns n s l).1.fab.reading = s.fab.reading := by
  induction n with
  | zero => exact fun s l => rfl
  | succ n ih =>
    intro s l
    unfold State.pumpTurns
    split
    · rfl
    · exact (ih _ _).trans (State.transmit_reading ..)

theorem State.pump_reading (s : State) : s.pump.fab.reading = s.fab.reading :=
  (State.pumpTurns_reading ..).trans (State.pumpList_reading ..)

theorem State.send_reading (s : State) (m : FabMsg) (use : MsgFor) : (s.send m use).fab.reading = s.fab.reading := by
  unfold State.send
  exact (State.pump_reading _).trans (ite_view (fun t : State => t.fab.reading) rfl rfl)

theorem State.send_fetched (s : State) (m : FabMsg) (use : MsgFor) : (s.send m use).fab.fetched = s.fab.fetched :=
  congrArg Prod.fst (s.send_reading m use)

theorem State.send_wanted (s : State) (m : FabMsg) (use : MsgFor) : (s.send m use).fab.wanted = s.fab.wanted :=
  congrArg Prod.snd (s.send_reading m use)

/-! ### Bytes asked for -/

/-- Bytes of another module that are not asked for yet are held open and asked for. -/
theorem State.askBytes_new {s : State} {a n k l : Nat} (remote : s.place a = .remote k l) (new : s.fetchAt a n = none) :
    s.askBytes a n = (List.range (ceilDiv n 512)).foldl (fun s i =>
      s.send { s.msgTo 3 0x0B k with addr := l + 512 * i, count := min 512 (n - 512 * i), row := i } (.fetch a n))
      { s with fab := { s.fab with fetched := s.fab.fetched ++ [⟨a, n, [], false⟩] } } := by
  unfold State.askBytes
  simp only [new, remote]

theorem State.askBytes_fetchAt {s : State} {a n k l : Nat} (remote : s.place a = .remote k l) (new : s.fetchAt a n = none) :
    (s.askBytes a n).fetchAt a n = some ⟨a, n, [], false⟩ := by
  have kept := foldl_view (fun s : State => s.fab.fetched) (fun (s : State) (i : Nat) =>
      s.send { s.msgTo 3 0x0B k with addr := l + 512 * i, count := min 512 (n - 512 * i), row := i } (.fetch a n))
    (fun x b => State.send_fetched ..) (List.range (ceilDiv n 512)) { s with fab := { s.fab with fetched := s.fab.fetched ++ [⟨a, n, [], false⟩] } }
  unfold State.fetchAt at new ⊢
  rw [State.askBytes_new remote new, kept, List.find?_append, new]
  simp

/-- To ask for bytes is to want no others. -/
theorem State.askBytes_wanted (s : State) (a n : Nat) : (s.askBytes a n).fab.wanted = s.fab.wanted := by
  unfold State.askBytes
  split
  · exact (foldl_view (fun s : State => s.fab.wanted) _ (fun x b => State.send_wanted ..) _ _).trans rfl
  · rfl

/-- Up to 512 bytes are asked for by one message. -/
theorem State.askBytes_one {s : State} {a n k l : Nat} (remote : s.place a = .remote k l) (new : s.fetchAt a n = none) (some' : 0 < n) (few : n ≤ 512) :
    s.askBytes a n = State.send { s with fab := { s.fab with fetched := s.fab.fetched ++ [⟨a, n, [], false⟩] } }
      { s.msgTo 3 0x0B k with addr := l, count := n, row := 0 } (.fetch a n) := by
  have one : ceilDiv n 512 = 1 := by unfold ceilDiv; omega
  rw [State.askBytes_new remote new, one]
  have all : min 512 (n - 512 * 0) = n := by omega
  simp only [List.range_one, List.foldl_cons, List.foldl_nil, all]
  rfl

/-! ### Commands that wait -/

/-- Where nothing is lacking, the bytes used are forgotten. -/
theorem State.whenFetched_done {s : State} {run : State → State} (none' : (run s).fab.wanted = s.fab.wanted) :
    s.whenFetched run = if (run s).fab.fetched.any (fun x => x.used) then
      { run s with fab := { (run s).fab with fetched := (run s).fab.fetched.filter fun x => !x.used } } else run s :=
  if_neg (Classical.not_not.mpr none')

theorem State.whenFetched_lacks {s : State} {run : State → State} (some' : (run s).fab.wanted ≠ s.fab.wanted) :
    s.whenFetched run = ((run s).fab.wanted.drop s.fab.wanted.length).foldl (fun s x => s.askBytes x.1 x.2) s := if_pos some'

/-- Once it is known what a command lacks, it wants no bytes. -/
theorem State.whenFetched_wanted (s : State) (run : State → State) : (s.whenFetched run).fab.wanted = s.fab.wanted := by
  by_cases lacks : (run s).fab.wanted = s.fab.wanted
  · rw [State.whenFetched_done lacks]
    exact ite_view (fun t : State => t.fab.wanted) lacks lacks
  · rw [State.whenFetched_lacks lacks]
    exact foldl_view (fun s : State => s.fab.wanted) _ (fun x b => State.askBytes_wanted ..) _ _

/-- What a command lacks is asked for, whatever else it would have done. -/
theorem State.whenFetched_wanting {s t u : State} (same : t.fab.wanted = u.fab.wanted) (lacks : u.fab.wanted ≠ s.fab.wanted) :
    s.whenFetched (fun _ => t) = s.whenFetched fun _ => u := by
  have first : t.fab.wanted ≠ s.fab.wanted := same ▸ lacks
  rw [State.whenFetched_lacks first, State.whenFetched_lacks lacks, same]

/-- Asking for bytes changes the fabric and the counters alone. -/
theorem State.askBytes_writes (s : State) (l : List (Nat × Nat)) : s.OnlyWrites (l.foldl (fun s x => s.askBytes x.1 x.2) s) [.fab, .regs] := by
  have kept : Keeps (Field.mask [.fab, .regs]) s (l.foldl (fun s x => s.askBytes x.1 x.2) s) := by
    exact Keeps.foldl (Keeps.refl s) _ fun t x h => Keeps.askBytes h (hm := Sub.of (Sub.refl _) (by decide))
  exact Frame.onlyWrites kept.frame

/-- Settles O60: what a command lacks is asked for, and what it has used is forgotten. -/
theorem commandsWaitForBytesElsewhere : Obligations.CommandsWaitForBytesElsewhere := by
  unfold Obligations.CommandsWaitForBytesElsewhere
  refine ⟨fun s run => ⟨fun none => ⟨fun unused => ?_, ?_, ?_⟩, fun some' => ?_⟩, fun s a n k l remote new => ⟨State.askBytes_fetchAt remote new,
    fun some' few => State.askBytes_one remote new some' few⟩, fun s a n => ⟨fun x found whole => ?_, fun open' => ?_⟩⟩
  · rw [State.whenFetched_done none, if_neg]
    rw [List.any_eq_true]
    exact fun ⟨x, hx, used⟩ => absurd used (by simp [unused x hx])
  · rw [State.whenFetched_done none]
    intro f other
    split
    · cases f
      case fab => exact absurd List.mem_cons_self other
      all_goals rfl
    · cases f <;> rfl
  · rw [State.whenFetched_done none]
    split
    · exact fun x hx => by simpa using (List.mem_filter.mp hx).2
    · next unused =>
      rw [List.any_eq_true] at unused
      exact fun x hx => by simpa using fun used => unused ⟨x, hx, used⟩
  · rw [State.whenFetched_lacks some']
    exact s.askBytes_writes _
  · have found' : (s.fetchAt a n).filter Fetch.whole = some x := by rw [found, Option.filter_some, if_pos whole]
    unfold State.useFetch
    simp only [found', and_self]
  · have none' : (s.fetchAt a n).filter Fetch.whole = none := by
      obtain none | ⟨x, found, part⟩ := open'
      · rw [none]; rfl
      · rw [found, Option.filter_some, if_neg (by simp [part])]
    unfold State.useFetch
    simp only [none', and_self]

end Sys2Proof.Machine
end

section
/-! Proofs of chapters 10 and 11: the queues of memory channels (R331). -/
set_option Elab.async false
namespace Sys2Proof.Machine

/-! ### The queues of a memory channel (R331) -/

/-- How many requests of a width a channel's queue holds. -/
def Channel.held (c : Channel) (b : Bool) : Nat := (c.queue.filter fun x => x.narrow = b).length

/-- A request that finds room of its width, and none of it waiting, joins the queue. -/
theorem Channel.arrive_joins {c : Channel} {q : MemReq} (now : Nat) (room : c.held q.narrow < 64) (first : ∀ x ∈ c.waiting, x.narrow ≠ q.narrow) :
    c.arrive now q = { c with queue := c.queue ++ [{ q with arrived := now }] } :=
  if_pos (by
    rw [Bool.and_eq_true, decide_eq_true_eq, Bool.not_eq_true']
    exact ⟨room, List.any_eq_false.mpr fun x hx => by simpa using first x hx⟩)

/-- A request that finds its queue full, or one of its width waiting, waits. -/
theorem Channel.arrive_waits {c : Channel} {q : MemReq} (now : Nat) (full : 64 ≤ c.held q.narrow ∨ ∃ x ∈ c.waiting, x.narrow = q.narrow) :
    c.arrive now q = { c with waiting := c.waiting ++ [q] } :=
  if_neg (by
    rw [Bool.and_eq_true, decide_eq_true_eq, Bool.not_eq_true']
    rintro ⟨room, none⟩
    obtain full | ⟨x, hx, same⟩ := full
    · exact Nat.not_lt.mpr full room
    · exact absurd same (by simpa using List.any_eq_false.mp none x hx))

/-- A request joins the queue or waits. -/
theorem Channel.arrive_cases (now : Nat) (c : Channel) (q : MemReq) :
    (c.held q.narrow < 64 ∧ c.arrive now q = { c with queue := c.queue ++ [{ q with arrived := now }] })
      ∨ c.arrive now q = { c with waiting := c.waiting ++ [q] } := by
  by_cases busy : ∃ x ∈ c.waiting, x.narrow = q.narrow
  · exact .inr (Channel.arrive_waits now (.inr busy))
  · by_cases room : c.held q.narrow < 64
    · exact .inl ⟨room, Channel.arrive_joins now room fun x hx same => busy ⟨x, hx, same⟩⟩
    · exact .inr (Channel.arrive_waits now (.inl (Nat.not_lt.mp room)))

/-- An arrival keeps the bound of each width. -/
theorem Channel.arrive_held {c : Channel} {b : Bool} (now : Nat) (bound : c.held b ≤ 64) (q : MemReq) : (c.arrive now q).held b ≤ 64 := by
  obtain ⟨room, eq⟩ | eq := Channel.arrive_cases now c q
  · rw [eq]
    by_cases same : q.narrow = b
    · subst same
      simp [Channel.held] at room ⊢
      omega
    · simpa [Channel.held, same] using bound
  · rw [eq]
    exact bound

/-- An arrival adds one request to a channel. -/
theorem Channel.arrive_count (now : Nat) (c : Channel) (q : MemReq) :
    (c.arrive now q).queue.length + (c.arrive now q).waiting.length = c.queue.length + c.waiting.length + 1 := by
  obtain ⟨-, eq⟩ | eq := Channel.arrive_cases now c q <;> rw [eq] <;> simp <;> omega

/-- Arrivals one after the other keep the bound, and add their number. -/
theorem Channel.arrivals (now : Nat) (b : Bool) (l : List MemReq) : ∀ c : Channel, c.held b ≤ 64 →
    (l.foldl (Channel.arrive now) c).held b ≤ 64
      ∧ (l.foldl (Channel.arrive now) c).queue.length + (l.foldl (Channel.arrive now) c).waiting.length
        = c.queue.length + c.waiting.length + l.length := by
  induction l with
  | nil => exact fun c bound => ⟨bound, rfl⟩
  | cons q l ih =>
    intro c bound
    obtain ⟨held, count⟩ := ih (c.arrive now q) (Channel.arrive_held now bound q)
    refine ⟨held, ?_⟩
    rw [List.foldl_cons, count, Channel.arrive_count, List.length_cons]
    omega

/-- A channel at which a request has arrived is not the idle one. -/
theorem Channel.arrive_busy (now : Nat) (c : Channel) (q : MemReq) (asleep : Bool) (use : Nat) :
    { c.arrive now q with asleep := asleep, lastUse := use } ≠ Channel.init := by
  intro same
  have queue : (c.arrive now q).queue = [] := congrArg Channel.queue same
  have waiting : (c.arrive now q).waiting = [] := congrArg Channel.waiting same
  have count := Channel.arrive_count now c q
  rw [queue, waiting] at count
  exact absurd count (Nat.succ_ne_zero _).symm

/-- What a request leaves in the channel that serves its offset. -/
theorem State.request_chan (s : State) (u off units : Nat) (kind : ReqKind) (narrow : Bool) (lost : Nat) :
    let a := s.servedAt u off
    (s.request u off kind narrow units lost).chan a.1 (s.locate a.1 a.2).1 =
      { (s.chan a.1 (s.locate a.1 a.2).1).arrive s.now ⟨kind, narrow, u, off / 256, units, s.now, lost⟩ with asleep := false, lastUse := s.now } :=
  SMap.get_set_listed _ _ _ (Channel.arrive_busy _ _ _ _ _)

/-- Settles O51: an arrival joins the queue or waits, keeps the bound of each width, and adds one request; admission is a run of
arrivals. -/
theorem channelQueuesAreBounded : Obligations.ChannelQueuesAreBounded := by
  unfold Obligations.ChannelQueuesAreBounded
  refine ⟨fun now c q => ⟨Channel.arrive_joins now, Channel.arrive_waits now⟩, fun now c b bound => ⟨Channel.arrive_held now bound, ?_⟩, ?_⟩
  · obtain ⟨held, count⟩ := Channel.arrivals now b c.waiting { c with waiting := [] } bound
    exact ⟨held, count⟩
  · intro s u off units kind narrow a t ht
    rw [ht]
    exact State.request_chan s u off units kind narrow 0

end Sys2Proof.Machine
end

section
/-! Proofs of chapter 11: the turns of the classes of a link (R369). -/
set_option Elab.async false
namespace Sys2Proof.Machine

/-! ### Deficit round-robin (R369) -/

section
variable (weight : Nat → Nat) {head : Nat → Option Nat} (n : Nat) {t k : Nat} {d : SMap Nat}

/-- A class whose deficit covers its message sends it. -/
theorem drrPick_sends (some : head t = some k) (covered : k ≤ SMap.get 0 d t) :
    drrPick weight head (n + 1) t d = (t, SMap.set 0 d t (SMap.get 0 d t - k)) := by
  rw [drrPick, some]
  exact if_pos covered

/-- A class whose deficit does not cover its message gains its weight. -/
theorem drrPick_gains (some : head t = some k) (short : SMap.get 0 d t < k) :
    drrPick weight head (n + 1) t d = drrPick weight head n ((t + 1) % 6) (SMap.mod 0 d t fun c => c + max (weight t) 1) := by
  rw [drrPick, some]
  exact if_neg (Nat.not_le.mpr short)

/-- A class without a message drops its deficit. -/
theorem drrPick_skips (none : head t = none) :
    drrPick weight head (n + 1) t d = drrPick weight head n ((t + 1) % 6) (SMap.erase d t) := by
  rw [drrPick, none]

end

/-- With a class c that has a message, and fuel for its turns until its deficit covers it, a class with a message is picked. -/
theorem drrPick_serves (weight : Nat → Nat) {head : Nat → Option Nat} {c k : Nat} (hc : c < 6) (mine : head c = some k) :
    ∀ (n t : Nat) (d : SMap Nat), t < 6 → 6 * (k - SMap.get 0 d c) + (c + 6 - t) % 6 < n →
      (drrPick weight head n t d).1 < 6 ∧ head (drrPick weight head n t d).1 ≠ none := by
  intro n
  induction n with
  | zero => exact fun t d _ fuel => absurd fuel (Nat.not_lt_zero _)
  | succ n ih =>
    intro t d ht fuel
    have next : (t + 1) % 6 < 6 := Nat.mod_lt _ (by decide)
    cases now : head t with
    | none =>
      have other : c ≠ t := fun same => by rw [← same, mine] at now; cases now
      rw [drrPick_skips weight n now]
      refine ih _ _ next ?_
      rw [SMap.get_erase_other 0 d other]
      omega
    | some j =>
      by_cases covered : j ≤ SMap.get 0 d t
      · rw [drrPick_sends weight n now covered]
        exact ⟨ht, by rw [now]; exact Option.some_ne_none j⟩
      · rw [drrPick_gains weight n now (Nat.not_le.mp covered)]
        refine ih _ _ next ?_
        by_cases same : c = t
        · subst same
          obtain rfl : k = j := Option.some.inj (mine.symm.trans now)
          have gain : 1 ≤ max (weight c) 1 := Nat.le_max_right _ _
          rw [SMap.mod, SMap.get_set_listed 0 d c (by omega)]
          omega
        · rw [SMap.mod, SMap.get_set_other 0 0 d _ same]
          omega

/-- Settles O54: a message has at most 255 slots, so that 1,600 turns are enough for its class to be able to pay. -/
theorem classesTakeTurnsByDeficit : Obligations.ClassesTakeTurnsByDeficit := by
  unfold Obligations.ClassesTakeTurnsByDeficit
  refine ⟨fun weight head t d ht small ⟨c, hc, mine⟩ => ?_, fun weight head n t k d =>
    ⟨drrPick_sends weight n, fun some short heavy => ?_, drrPick_skips weight n⟩⟩
  · obtain ⟨k, mine⟩ := Option.ne_none_iff_exists'.mp mine
    have bound := small c k mine
    exact drrPick_serves weight hc mine 1600 t d ht (by omega)
  · rw [drrPick_gains weight n some short, Nat.max_eq_left heavy]

end Sys2Proof.Machine
end

section
/-! Proofs of chapter 11: the packing of messages into flits (Table 4 and Table 6). -/
set_option Elab.async false
namespace Sys2Proof.Machine

/-! ### Messages in flits (Table 6 of 11) -/

/-- The open flit of a link once it has taken the first slots of a message, which ends in it where no other flit follows. -/
def HeldFlit.fill (f : HeldFlit) (room : Nat) (ends : Bool) (o : OutMsg) : HeldFlit :=
  { f with used := f.used + min room o.msg.slots, firstSlot := min f.firstSlot f.used, content := f.content ++ o.msg.bytes.take (16 * room),
           msgs := if ends then f.msgs ++ [o] else f.msgs }

/-- The flits held before, once the open one has taken the first slots of a message. -/
def Link.opened (l : Link) (vc now : Nat) (o : OutMsg) : List HeldFlit :=
  if l.room vc now = 0 then l.held
  else l.held.dropLast ++ (l.held.getLast?.map fun f => f.fill (l.room vc now) (l.newFlits vc now o.msg.slots = 0) o).toList

/-- The i-th flit that a message adds. -/
def Link.freshFlit (l : Link) (vc now : Nat) (o : OutMsg) (i : Nat) : HeldFlit :=
  { seq := (l.nextSeq + i) % 4096, msgs := if i + 1 = l.newFlits vc now o.msg.slots then [o] else [], replays := 0, vc := vc,
    used := min 15 (o.msg.slots - l.room vc now - 15 * i), firstSlot := if i = 0 && l.room vc now = 0 then 0 else 15,
    head := l.head false false (l.returns.getD i (0, 0)),
    content := (o.msg.bytes.drop (16 * (l.room vc now + 15 * i))).take 240, cycle := now }

/-- The flits that a message adds. -/
def Link.fresh (l : Link) (vc now : Nat) (o : OutMsg) : List HeldFlit :=
  (List.range (l.newFlits vc now o.msg.slots)).map (l.freshFlit vc now o)

/-- A packed message fills the open flit and adds its further flits. -/
theorem Link.pack_held (l : Link) (vc now : Nat) (o : OutMsg) : (l.pack vc now o).held = l.opened vc now o ++ l.fresh vc now o := by
  simp [Link.pack, Link.opened, HeldFlit.fill, Link.fresh, Link.freshFlit]

/-- A message has at least its header's slot. -/
theorem FabMsg.slots_pos (m : FabMsg) : 0 < m.slots := by
  unfold FabMsg.slots
  omega

/-- Either no flit is open, or the last one is, of the VC and sent in this cycle. -/
theorem Link.room_cases (l : Link) (vc now : Nat) :
    l.room vc now = 0 ∨ ∃ init f, l.held = init ++ [f] ∧ f.vc = vc ∧ f.cycle = now ∧ l.room vc now = 15 - f.used := by
  obtain none | ⟨f, last⟩ := Option.eq_none_or_eq_some l.held.getLast?
  · exact .inl (by rw [Link.room, none])
  · by_cases fits : (f.vc = vc && f.cycle = now && f.replays = 0) = true
    · have shares : f.vc = vc ∧ f.cycle = now := by simp at fits; exact fits.1
      obtain ⟨init, eq⟩ := List.getLast?_eq_some_iff.mp last
      exact .inr ⟨init, f, eq, shares.1, shares.2, by rw [Link.room, last]; exact if_pos fits⟩
    · exact .inl (by rw [Link.room, last]; exact if_neg fits)

/-- What the flits held before are once the open one has taken its slots. -/
theorem Link.opened_cases (l : Link) (vc now : Nat) (o : OutMsg) :
    (l.room vc now = 0 ∧ l.opened vc now o = l.held)
      ∨ ∃ init f, l.held = init ++ [f] ∧ f.vc = vc ∧ f.cycle = now ∧ l.room vc now = 15 - f.used
        ∧ l.opened vc now o = init ++ [f.fill (15 - f.used) (l.newFlits vc now o.msg.slots = 0) o] := by
  by_cases full : l.room vc now = 0
  · exact .inl ⟨full, if_pos full⟩
  · obtain none | ⟨init, f, held, hvc, hnow, room⟩ := l.room_cases vc now
    · exact absurd none full
    · refine .inr ⟨init, f, held, hvc, hnow, room, ?_⟩
      rw [Link.opened, if_neg full, room, held]
      simp

/-- Filling keeps the number of the flits held. -/
theorem Link.opened_length (l : Link) (vc now : Nat) (o : OutMsg) : (l.opened vc now o).length = l.held.length := by
  obtain ⟨-, same⟩ | ⟨init, f, held, -, -, -, eq⟩ := l.opened_cases vc now o
  · rw [same]
  · rw [eq, held, List.length_append, List.length_append]
    rfl

/-- The flits of m slots hold them all. -/
theorem sum_flits (m k : Nat) : ((List.range k).map fun i => min 15 (m - 15 * i)).sum = min (15 * k) m := by
  induction k with
  | zero => simp
  | succ k ih =>
    rw [List.range_succ, List.map_append, List.sum_append, ih]
    simp only [List.map_cons, List.map_nil, List.sum_cons, List.sum_nil]
    omega

/-- The slots that a message's further flits use are those that the open flit has not taken. -/
theorem Link.fresh_used (l : Link) (vc now : Nat) (o : OutMsg) :
    ((l.fresh vc now o).map fun f => f.used).sum = o.msg.slots - l.room vc now := by
  have whole := sum_flits (o.msg.slots - l.room vc now) (l.newFlits vc now o.msg.slots)
  rw [Link.fresh, List.map_map]
  refine whole.trans (Nat.min_eq_right ?_)
  unfold Link.newFlits ceilDiv
  omega

/-- A message ends in the last of the flits that it adds. -/
theorem Link.fresh_msgs (l : Link) (vc now : Nat) (o : OutMsg) (adds : l.newFlits vc now o.msg.slots ≠ 0) :
    ((l.fresh vc now o).flatMap fun f => f.msgs) = [o] := by
  obtain ⟨k, eq⟩ := Nat.exists_eq_succ_of_ne_zero adds
  have before : ∀ i ∈ List.range k, (l.freshFlit vc now o i).msgs = [] := fun i hi =>
    if_neg (by rw [eq]; have := List.mem_range.mp hi; omega)
  have last : (l.freshFlit vc now o k).msgs = [o] := if_pos eq.symm
  rw [Link.fresh, eq, Nat.succ_eq_add_one, List.range_succ, List.map_append, List.flatMap_append, List.flatMap_map,
    List.flatMap_eq_nil_iff.mpr before]
  simpa using last

section
variable {l : Link} {vc now : Nat} {o : OutMsg}

/-- No flit held comes to hold more than 15 slots. -/
theorem Link.pack_bound (bound : ∀ f ∈ l.held, f.used ≤ 15) : ∀ f ∈ (l.pack vc now o).held, f.used ≤ 15 := by
  intro f hf
  rw [Link.pack_held, List.mem_append] at hf
  obtain hf | hf := hf
  · obtain ⟨-, same⟩ | ⟨init, g, held, -, -, -, eq⟩ := l.opened_cases vc now o
    · exact bound f (same ▸ hf)
    · rw [eq, List.mem_append, List.mem_singleton] at hf
      obtain hf | rfl := hf
      · exact bound f (by rw [held]; exact List.mem_append_left _ hf)
      · have room := bound g (by rw [held]; simp)
        simp only [HeldFlit.fill]
        omega
  · obtain ⟨i, -, rfl⟩ := List.mem_map.mp hf
    exact Nat.min_le_left _ _

/-- The slots in use rise by those of the message. -/
theorem Link.pack_used : ((l.pack vc now o).held.map fun f => f.used).sum = (l.held.map fun f => f.used).sum + o.msg.slots := by
  rw [Link.pack_held, List.map_append, List.sum_append, Link.fresh_used]
  obtain ⟨none, same⟩ | ⟨init, g, held, -, -, room, eq⟩ := l.opened_cases vc now o
  · rw [same, none, Nat.sub_zero]
  · rw [eq, held, room]
    simp only [List.map_append, List.map_cons, List.map_nil, List.sum_append, List.sum_cons, List.sum_nil, HeldFlit.fill]
    omega

/-- The message ends after every one before it. -/
theorem Link.pack_msgs : ((l.pack vc now o).held.flatMap fun f => f.msgs) = (l.held.flatMap fun f => f.msgs) ++ [o] := by
  rw [Link.pack_held, List.flatMap_append]
  by_cases adds : l.newFlits vc now o.msg.slots = 0
  · have none : l.fresh vc now o = [] := by rw [Link.fresh, adds]; rfl
    obtain ⟨full, -⟩ | ⟨init, g, held, -, -, -, eq⟩ := l.opened_cases vc now o
    · have some := FabMsg.slots_pos o.msg
      rw [Link.newFlits, full, ceilDiv] at adds
      omega
    · simp [none, eq, held, HeldFlit.fill, adds]
  · rw [Link.fresh_msgs l vc now o adds]
    congr 1
    obtain ⟨-, same⟩ | ⟨init, g, held, -, -, -, eq⟩ := l.opened_cases vc now o
    · rw [same]
    · simp [eq, held, HeldFlit.fill, adds]

/-- Every flit but the last one held stays as it was. -/
theorem Link.pack_before : (l.pack vc now o).held.take (l.held.length - 1) = l.held.dropLast := by
  rw [Link.pack_held, List.take_append_of_le_length (by rw [Link.opened_length]; omega)]
  obtain ⟨-, same⟩ | ⟨init, g, held, -, -, -, eq⟩ := l.opened_cases vc now o
  · rw [same, List.dropLast_eq_take]
  · rw [eq, held]
    simp

/-- Where no flit is open, all stay as they were. -/
theorem Link.pack_closed (closed : ∀ f ∈ l.held.getLast?, f.vc ≠ vc ∨ f.cycle ≠ now) :
    (l.pack vc now o).held.take l.held.length = l.held := by
  rw [Link.pack_held, List.take_append_of_le_length (Nat.le_of_eq (l.opened_length vc now o).symm)]
  obtain ⟨-, same⟩ | ⟨init, g, held, hvc, hnow, -, -⟩ := l.opened_cases vc now o
  · rw [same, List.take_length]
  · have last : g ∈ l.held.getLast? := by rw [held]; simp
    exact absurd hnow ((closed g last).resolve_left (not_not_intro hvc))

/-- A further flit of the message stands behind those held before. -/
theorem Link.pack_fresh {i : Nat} (after : l.held.length ≤ i) (held : i < (l.pack vc now o).held.length) :
    (l.pack vc now o).held[i]? = some (l.freshFlit vc now o (i - l.held.length)) := by
  have length : (l.pack vc now o).held.length = l.held.length + l.newFlits vc now o.msg.slots := by
    rw [Link.pack_held, List.length_append, Link.opened_length, Link.fresh, List.length_map, List.length_range]
  rw [Link.pack_held, List.getElem?_append_right (by rw [Link.opened_length]; exact after), Link.opened_length, Link.fresh,
    List.getElem?_map, List.getElem?_range (by omega)]
  rfl

end

/-- Settles O55: the open flit takes the slots that it has left, and the others go into new flits. -/
theorem messagesArePackedBackToBack : Obligations.MessagesArePackedBackToBack := by
  unfold Obligations.MessagesArePackedBackToBack
  intro l vc now o bound
  refine ⟨Link.pack_bound bound, Link.pack_used, Link.pack_msgs, ?_, rfl, Link.pack_before, Link.pack_closed, fun i after held => ?_⟩
  · rw [Link.pack_held, List.length_append, Link.opened_length, Link.fresh, List.length_map, List.length_range]
  · rw [Link.pack_fresh after held]
    exact ⟨rfl, rfl, rfl, rfl⟩

end Sys2Proof.Machine
end

section
/-! Proofs of chapter 03: the lane generators and their banks (R92 to R102). -/
set_option Elab.async false
namespace Sys2Proof.Machine

/-! ### The states of a generator (R92, R93) -/

/-- A word that is its own left shift is zero. -/
theorem BitVec.eq_zero_of_xor_shiftLeft {w n : Nat} (hn : 0 < n) {x : BitVec w} (h : x ^^^ (x <<< n) = 0#w) : x = 0#w := by
  have bit : ∀ i : Nat, x.getLsbD i = false := by
    intro i
    induction i using Nat.strongRecOn with
    | ind i ih =>
      have own := congrArg (fun y => y.getLsbD i) h
      simp only [BitVec.getLsbD_xor, BitVec.getLsbD_shiftLeft, BitVec.getLsbD_zero] at own
      by_cases low : i < n
      · simpa [low] using own
      · simpa [ih (i - n) (by omega)] using own
  exact BitVec.eq_of_getLsbD_eq fun i _ => (bit i).trans BitVec.getLsbD_zero.symm

/-- A word that is its own right shift is zero. -/
theorem BitVec.eq_zero_of_xor_shiftRight {w n : Nat} (hn : 0 < n) {x : BitVec w} (h : x ^^^ (x >>> n) = 0#w) : x = 0#w := by
  have bit : ∀ j i : Nat, w ≤ i + j → x.getLsbD i = false := by
    intro j
    induction j with
    | zero => exact fun i hi => BitVec.getLsbD_of_ge x i hi
    | succ j ih =>
      intro i hi
      have own := congrArg (fun y => y.getLsbD i) h
      simp only [BitVec.getLsbD_xor, BitVec.getLsbD_ushiftRight, BitVec.getLsbD_zero] at own
      simpa [ih (n + i) (by omega)] using own
  exact BitVec.eq_of_getLsbD_eq fun i _ => (bit w i (by omega)).trans BitVec.getLsbD_zero.symm

/-- Only the all-zero state steps to the all-zero state. -/
theorem genStep_ne_zero {w : W64 × W64} (some : w ≠ (0, 0)) : genStep w ≠ (0, 0) := by
  intro zero
  have second : w.2 = 0#64 := congrArg Prod.fst zero
  have first : w.1 ^^^ (w.1 <<< 23) ^^^ ((w.1 ^^^ (w.1 <<< 23)) >>> 17) ^^^ w.2 ^^^ (w.2 >>> 26) = 0#64 := congrArg Prod.snd zero
  rw [second, BitVec.zero_ushiftRight, BitVec.xor_zero, BitVec.xor_zero] at first
  have left := BitVec.eq_zero_of_xor_shiftRight (by decide) first
  exact some (Prod.ext (BitVec.eq_zero_of_xor_shiftLeft (by decide) left) second)

/-- No number of steps leads to the all-zero state. -/
theorem genIter_ne_zero (k : Nat) : ∀ {w : W64 × W64}, w ≠ (0, 0) → genIter k w ≠ (0, 0) := by
  induction k with
  | zero => exact id
  | succ k ih => exact fun some => ih (genStep_ne_zero some)

/-- A block never starts in the all-zero state. -/
theorem blockState_ne_zero (seed tid : W64) (b : Nat) : blockState seed tid b ≠ (0, 0) := by
  unfold blockState
  dsimp only
  split
  · exact fun zero => absurd (show (1 : W64) = 0 from congrArg Prod.fst zero) (by decide)
  · next some =>
    intro zero
    obtain ⟨first, second⟩ := Prod.mk.inj zero
    exact some (Bool.and_eq_true_iff.mpr ⟨decide_eq_true first, decide_eq_true second⟩)

/-! ### Jumps and windows (R95, R101, R102) -/

theorem genIter_add (j k : Nat) : ∀ w : W64 × W64, genIter k (genIter j w) = genIter (j + k) w := by
  induction j with
  | zero => exact fun w => by rw [Nat.zero_add]; rfl
  | succ j ih => exact fun w => by rw [Nat.succ_add]; exact ih (genStep w)

/-- The matrices of the first n bits of k make the steps of those bits. -/
theorem genJump_bits (k : Nat) (w : W64 × W64) (n : Nat) :
    (List.range n).foldl (fun w m => if k.testBit m then genIter (2 ^ m) w else w) w = genIter (k % 2 ^ n) w := by
  induction n with
  | zero => rw [Nat.pow_zero, Nat.mod_one]; rfl
  | succ n ih =>
    rw [List.range_succ, List.foldl_append, ih, List.foldl_cons, List.foldl_nil, Nat.mod_pow_succ, ← Nat.toNat_testBit]
    cases k.testBit n
    · simp
    · simp [genIter_add]

/-- Thirteen matrices reach 8,192 words. -/
theorem genJump_eq {k : Nat} (small : k < 8192) (w : W64 × W64) : genJump k w = genIter k w := by
  rw [genJump, genJump_bits, Nat.mod_eq_of_lt (by simpa using small)]

/-- A bank whose windows are a window apart keeps them so: after t windows each generator has made n t steps. -/
theorem Bank.run_cur (n t : Nat) : ∀ k : Bank, k.cur.length = n → k.nxt = k.cur.map (genIter n) →
    (Bank.run t k).cur = k.cur.map (genIter (n * t)) := by
  induction t with
  | zero => exact fun k _ _ => (List.map_id' k.cur).symm
  | succ t ih =>
    intro k length apart
    have length' : k.nxt.length = n := by rw [apart, List.length_map, length]
    refine (ih k.advance length' (congrArg (fun m => k.nxt.map (genIter m)) length')).trans ?_
    simp only [Bank.advance]
    rw [apart, List.map_map]
    refine List.map_congr_left fun w _ => ?_
    rw [Function.comp, genIter_add, Nat.mul_succ, Nat.add_comm]

/-- Settles O50: the steps of a generator add up, and a step never reaches the all-zero state. -/
theorem banksGiveTheWordsOfABlock : Obligations.BanksGiveTheWordsOfABlock := by
  unfold Obligations.BanksGiveTheWordsOfABlock
  refine ⟨fun seed tid b k => genIter_ne_zero k (blockState_ne_zero seed tid b), fun n t i k₀ b seed tid hi reach => ?_⟩
  rw [Bank.run_cur n t (Bank.place n seed tid b k₀) (by simp [Bank.place]) rfl, List.getElem?_map, List.getElem?_map]
  have lane : (Bank.place n seed tid b k₀).cur[i]? = some (genIter (k₀ + i) (blockState seed tid b)) := by
    rw [Bank.place, List.getElem?_map, List.getElem?_range hi, Option.map_some, genJump_eq (by omega)]
  rw [lane, Option.map_some, Option.map_some, genIter_add, Nat.add_right_comm]
  rfl

end Sys2Proof.Machine
end

section
/-! Proofs of chapter 11: the codewords of a lane and the bytes of a flit (R359). -/
set_option Elab.async false
namespace Sys2Proof.Machine

/-! ### Numbers written in digits and bytes -/

/-- A number of n digits is less than the n-th power of its base. -/
theorem sum_digits_lt {b : Nat} {f : Nat → Nat} (digit : ∀ i, f i < b) (n : Nat) : ((List.range n).map fun i => f i * b ^ i).sum < b ^ n := by
  induction n with
  | zero => simp
  | succ n ih =>
    have top : (f n + 1) * b ^ n ≤ b * b ^ n := Nat.mul_le_mul_right _ (digit n)
    rw [List.range_succ, List.map_append, List.sum_append, Nat.pow_succ']
    simp only [List.map_cons, List.map_nil, List.sum_cons, List.sum_nil]
    rw [Nat.succ_mul] at top
    omega

/-- The digit at a place of a number written in digits. -/
theorem sum_digits_digit {b : Nat} {f : Nat → Nat} (digit : ∀ i, f i < b) {n i : Nat} (hi : i < n) :
    ((List.range n).map fun i => f i * b ^ i).sum / b ^ i % b = f i := by
  have positive : 0 < b := Nat.zero_lt_of_lt (digit 0)
  induction n with
  | zero => exact absurd hi (Nat.not_lt_zero i)
  | succ n ih =>
    rw [List.range_succ, List.map_append, List.sum_append]
    simp only [List.map_cons, List.map_nil, List.sum_cons, List.sum_nil, Nat.add_zero]
    obtain below | rfl := Nat.lt_succ_iff_lt_or_eq.mp hi
    · obtain ⟨j, rfl⟩ := Nat.exists_eq_add_of_lt below
      have split : f (i + j + 1) * b ^ (i + j + 1) = b ^ i * (b * (b ^ j * f (i + j + 1))) := by
        rw [Nat.pow_succ, Nat.pow_add]
        ac_rfl
      rw [split, Nat.add_mul_div_left _ _ (Nat.pow_pos positive), Nat.add_mul_mod_self_left]
      exact ih below
    · rw [Nat.add_mul_div_right _ _ (Nat.pow_pos positive), Nat.div_eq_of_lt (sum_digits_lt digit i), Nat.zero_add,
        Nat.mod_eq_of_lt (digit i)]

/-- The low n bits of a number, put together again. -/
theorem sum_bits (x n : Nat) : ((List.range n).map fun i => boolNat (x.testBit i) * 2 ^ i).sum = x % 2 ^ n := by
  induction n with
  | zero => rw [Nat.pow_zero, Nat.mod_one]; rfl
  | succ n ih =>
    have bit : boolNat (x.testBit n) = (x.testBit n).toNat := by cases x.testBit n <;> rfl
    rw [List.range_succ, List.map_append, List.sum_append, ih, Nat.mod_pow_succ, ← Nat.toNat_testBit, ← bit]
    simp [Nat.mul_comm]

/-- Bytes are less than 256 to the power of their number. -/
theorem leNat_lt (l : List Byte) : leNat l < 2 ^ (8 * l.length) := by
  induction l with
  | nil => exact Nat.zero_lt_one
  | cons b l ih =>
    have small := b.isLt
    rw [leNat, List.length_cons, Nat.mul_succ, Nat.pow_add]
    omega

/-- Bytes read as a number and written again. -/
theorem leBytes_leNat (l : List Byte) : leBytes l.length (leNat l) = l := by
  induction l with
  | nil => rfl
  | cons b l ih =>
    have small : b.toNat < 256 := b.isLt
    have low : BitVec.ofNat 8 (b.toNat + 256 * leNat l) = b := BitVec.eq_of_toNat_eq (by rw [BitVec.toNat_ofNat]; omega)
    have high : (b.toNat + 256 * leNat l) / 256 = leNat l := by omega
    rw [List.length_cons, leNat, leBytes, low, high, ih]

/-! ### Codewords (R359) -/

/-- A block is 257 bits wide. -/
theorem laneBlock_lt (framing i : Nat) (stripe : List Byte) : laneBlock framing i stripe < 2 ^ 257 := by
  have data : leNat stripe % 2 ^ 256 < 2 ^ 256 := Nat.mod_lt _ (Nat.two_pow_pos 256)
  have bit : boolNat (framing.testBit i) ≤ 1 := by cases framing.testBit i <;> decide
  unfold laneBlock
  omega

/-- The framing bit of a block. -/
theorem laneBlock_framing (framing i : Nat) (stripe : List Byte) : laneBlock framing i stripe % 2 = boolNat (framing.testBit i) := by
  have bit : boolNat (framing.testBit i) ≤ 1 := by cases framing.testBit i <;> decide
  unfold laneBlock
  omega

/-- The stripe of a block. -/
theorem laneBlock_stripe (framing i : Nat) {stripe : List Byte} (length : stripe.length = 32) :
    leBytes 32 (laneBlock framing i stripe / 2) = stripe := by
  have small := leNat_lt stripe
  have bit : boolNat (framing.testBit i) ≤ 1 := by cases framing.testBit i <;> decide
  rw [length] at small
  have data : laneBlock framing i stripe / 2 = leNat stripe := by
    rw [laneBlock, Nat.mod_eq_of_lt small]
    omega
  rw [data, ← length, leBytes_leNat]

/-- Block i of a message. -/
theorem laneMessage_block (l k : Nat) (fs : List (List Byte)) {i : Nat} (hi : i < 20) :
    laneMessage l k fs / 2 ^ (257 * i) % 2 ^ 257 = laneBlock (framingWord l k) i (flitStripe (fs.getD i []) l) := by
  have blocks := sum_digits_digit (b := 2 ^ 257) (f := fun i => laneBlock (framingWord l k) i (flitStripe (fs.getD i []) l))
    (fun i => laneBlock_lt _ _ _) hi
  simp only [← Nat.pow_mul] at blocks
  exact blocks

/-- The framing word of a message is the one that it is made with. -/
theorem messageFraming_laneMessage (l k : Nat) (fs : List (List Byte)) : messageFraming (laneMessage l k fs) = framingWord l k := by
  have small : framingWord l k < 2 ^ 20 := by
    unfold framingWord
    omega
  have bits : ∀ i ∈ List.range 20, laneMessage l k fs / 2 ^ (257 * i) % 2 * 2 ^ i = boolNat ((framingWord l k).testBit i) * 2 ^ i := fun i hi => by
    rw [← laneBlock_framing (framingWord l k) i (flitStripe (fs.getD i []) l), ← laneMessage_block l k fs (List.mem_range.mp hi),
      Nat.mod_mod_of_dvd (laneMessage l k fs / 2 ^ (257 * i)) ⟨2 ^ 256, Nat.pow_succ'⟩]
  rw [messageFraming, List.map_congr_left bits, sum_bits, Nat.mod_eq_of_lt small]

/-- A stripe of a message is that of its flit. -/
theorem messageStripe_laneMessage {l i : Nat} (k : Nat) {fs : List (List Byte)} (hi : i < 20) (whole : (flitStripe (fs.getD i []) l).length = 32) :
    messageStripe (laneMessage l k fs) i = flitStripe (fs.getD i []) l := by
  have data : laneMessage l k fs / 2 ^ (257 * i + 1) % 2 ^ 256 = laneMessage l k fs / 2 ^ (257 * i) % 2 ^ 257 / 2 := by
    rw [Nat.pow_succ, ← Nat.div_div_eq_div_mul]
    generalize laneMessage l k fs / 2 ^ (257 * i) = x
    omega
  rw [messageStripe, data, laneMessage_block l k fs hi, laneBlock_stripe _ _ whole]

/-! ### The symbols of a codeword (R359) -/

/-- A number of m + 1 bits whose top bit is clear has m bits. -/
theorem lt_two_pow_of_top_clear {x m : Nat} (small : x < 2 ^ (m + 1)) (clear : x.testBit m = false) : x < 2 ^ m := by
  have even : x / 2 ^ m % 2 = 0 := by
    rw [Nat.testBit_eq_decide_div_mod_eq, decide_eq_false_iff_not] at clear
    omega
  have low : x / 2 ^ m < 2 := (Nat.div_lt_iff_lt_mul (Nat.two_pow_pos m)).mpr (by rw [Nat.pow_succ'] at small; exact small)
  have none : x / 2 ^ m = 0 := by
    generalize x / 2 ^ m = y at even low
    omega
  exact (Nat.div_eq_zero_iff.mp none).resolve_left (Nat.ne_of_gt (Nat.two_pow_pos m))

/-- A bit of the reduction is cleared with a multiple of the field's polynomial. -/
theorem symReduce_lt {x n : Nat} (hn : n < 9) (small : x < 2 ^ (19 - n)) :
    (if x.testBit (18 - n) then x ^^^ (0x409 * 2 ^ (8 - n)) else x) < 2 ^ (18 - n) := by
  have width : 19 - n = 18 - n + 1 := by omega
  rw [width] at small
  split
  case isTrue set =>
    have top : 0x409 * 2 ^ (8 - n) < 2 ^ (18 - n + 1) := by
      rw [show 18 - n + 1 = 11 + (8 - n) by omega, Nat.pow_add]
      exact Nat.mul_lt_mul_of_pos_right (by decide) (Nat.two_pow_pos _)
    have bit : (0x409 * 2 ^ (8 - n)).testBit (18 - n) = true := by
      rw [Nat.testBit_mul_two_pow, show 18 - n - (8 - n) = 10 by omega, decide_eq_true (by omega)]
      decide
    exact lt_two_pow_of_top_clear (Nat.xor_lt_two_pow small top) (by rw [Nat.testBit_xor, set, bit]; rfl)
  case isFalse clear => exact lt_two_pow_of_top_clear small (by simpa using clear)

/-- The reduction of a product leaves a symbol. -/
theorem symReduce_symbol {r : Nat} (small : r < 2 ^ 19) : ∀ n, n ≤ 9 →
    (List.range n).foldl (fun r i => if r.testBit (18 - i) then r ^^^ (0x409 * 2 ^ (8 - i)) else r) r < 2 ^ (19 - n) := by
  intro n
  induction n with
  | zero => exact fun _ => small
  | succ n ih =>
    intro hn
    rw [List.range_succ, List.foldl_append, List.foldl_cons, List.foldl_nil, show 19 - (n + 1) = 18 - n by omega]
    exact symReduce_lt hn (ih (by omega))

/-- The product before its reduction has 19 bits. -/
theorem symProduct_lt (a b : Nat) (n : Nat) (hn : n ≤ 10) :
    (List.range n).foldl (fun r i => if b.testBit i then r ^^^ (a % 1024 * 2 ^ i) else r) 0 < 2 ^ 19 := by
  induction n with
  | zero => exact Nat.two_pow_pos 19
  | succ n ih =>
    rw [List.range_succ, List.foldl_append, List.foldl_cons, List.foldl_nil]
    have factor : a % 1024 * 2 ^ n < 2 ^ 19 := by
      have place : 2 ^ n ≤ 2 ^ 9 := Nat.pow_le_pow_right (by decide) (by omega)
      have symbol : a % 1024 < 1024 := Nat.mod_lt _ (by decide)
      calc a % 1024 * 2 ^ n ≤ a % 1024 * 2 ^ 9 := Nat.mul_le_mul_left _ place
        _ < 2 ^ 19 := by omega
    split
    · exact Nat.xor_lt_two_pow (ih (by omega)) factor
    · exact ih (by omega)

/-- A product of symbols is a symbol. -/
theorem symMul_lt (a b : Nat) : symMul a b < 1024 := symReduce_symbol (symProduct_lt a b 10 (Nat.le_refl _)) 9 (Nat.le_refl _)

/-- A list of parity symbols. -/
def Symbols (r : List Nat) : Prop := r.length = 30 ∧ ∀ x ∈ r, x < 1024

/-- A step of the division leaves 30 symbols. -/
theorem Symbols.step {r : List Nat} (h : Symbols r) (f : Nat) :
    Symbols ((0 :: r.dropLast).zipWith (· ^^^ ·) (rsGenerator.map fun g => symMul g f)) := by
  obtain ⟨length, small⟩ := h
  have thirty : rsGenerator.length = 30 := by decide +kernel
  refine ⟨by simp [length, thirty], fun x hx => ?_⟩
  rw [← List.map_uncurry_zip_eq_zipWith] at hx
  obtain ⟨⟨a, b⟩, both, rfl⟩ := List.mem_map.mp hx
  obtain ⟨ha, hb⟩ := List.of_mem_zip both
  obtain ⟨g, -, rfl⟩ := List.mem_map.mp hb
  have shifted : a < 1024 := by
    obtain rfl | ha := List.mem_cons.mp ha
    · decide
    · exact small a ((List.dropLast_sublist r).subset ha)
  exact Nat.xor_lt_two_pow (n := 10) shifted (symMul_lt g f)

/-- The parity of a message is 30 symbols. -/
theorem rsParity_symbols (symbols : List Nat) : Symbols (rsParity symbols) := by
  have start : Symbols (List.replicate 30 0) := ⟨rfl, fun x hx => by rw [List.eq_of_mem_replicate hx]; decide⟩
  have rest : ∀ (l r : List Nat), Symbols r → Symbols (l.foldl (fun (r : List Nat) x =>
      let f := x ^^^ r.getLastD 0
      (0 :: r.dropLast).zipWith (· ^^^ ·) (rsGenerator.map fun g => symMul g f)) r) := by
    intro l
    induction l with
    | nil => exact fun _ h => h
    | cons x l ih => exact fun r h => ih _ (h.step _)
  obtain ⟨length, small⟩ := rest symbols _ start
  exact ⟨(List.length_reverse).trans length, fun x hx => small x (List.mem_reverse.mp hx)⟩

/-- A codeword is 544 symbols. -/
theorem laneCodeword_symbols (l k : Nat) (fs : List (List Byte)) : (laneCodeword l k fs).length = 544 ∧ ∀ x ∈ laneCodeword l k fs, x < 1024 := by
  obtain ⟨length, small⟩ := rsParity_symbols (messageSymbols (laneMessage l k fs))
  refine ⟨by rw [laneCodeword, List.length_append, length, messageSymbols, List.length_map, List.length_range], fun x hx => ?_⟩
  obtain hx | hx := List.mem_append.mp hx
  · obtain ⟨i, -, rfl⟩ := List.mem_map.mp hx
    exact Nat.mod_lt _ (by decide)
  · exact small x hx

/-! ### The bytes of a flit (Table 4 of 11) -/

/-- A flit of 240 bytes of content is its header, its content and its CRC. -/
theorem flitBytes_parts (header : Nat) {content : List Byte} (whole : content.length = 240) :
    (flitBytes header content).length = 256 ∧ (flitBytes header content).take 12 = leBytes 12 header
      ∧ ((flitBytes header content).drop 12).take 240 = content
      ∧ (flitBytes header content).drop 252 = leBytes 4 (crc32 ((flitBytes header content).take 252)) := by
  have filled : (content ++ List.replicate 240 0).take 240 = content := by rw [← whole, List.take_left]
  have body : (leBytes 12 header ++ content).length = 252 := by rw [List.length_append, length_leBytes, whole]
  have eq : flitBytes header content = (leBytes 12 header ++ content) ++ leBytes 4 (crc32 (leBytes 12 header ++ content)) := by
    rw [flitBytes, filled]
  have cut : (flitBytes header content).take 252 = leBytes 12 header ++ content := by rw [eq, ← body, List.take_left]
  refine ⟨by rw [eq, List.length_append, body, length_leBytes], ?_, ?_, ?_⟩
  · rw [eq, List.append_assoc]
    exact List.take_left' (length_leBytes 12 header)
  · rw [eq, List.append_assoc, List.drop_left' (length_leBytes 12 header)]
    exact List.take_left' whole
  · rw [cut, eq]
    exact List.drop_left' body

/-- Settles O53: a message is a number whose digits are its blocks, and the parity of the code is a list of symbols. -/
theorem codewordsCarryStripes : Obligations.CodewordsCarryStripes := by
  unfold Obligations.CodewordsCarryStripes
  refine ⟨fun l k hl => ?_, fun l k i fs hl hi whole count => ⟨messageFraming_laneMessage l k fs, messageStripe_laneMessage k hi ?_⟩,
    laneCodeword_symbols, fun f whole => flitBytes_parts _ whole, fun s e p fs => ⟨fun l hl carries => ?_, fun idle good unasked => ?_⟩⟩
  · rw [framingWord]
    omega
  · have flit : (fs.getD i []).length = 256 := by
      rw [List.getD_eq_getElem?_getD, List.getElem?_eq_getElem (by omega), Option.getD_some]
      exact whole _ (List.getElem_mem _)
    rw [flitStripe, List.length_take, List.length_drop, flit]
    omega
  · have used : l ≠ 0xF := by omega
    rw [State.txCodeword, State.txLane, carries, Option.map_some, if_neg used]
  · simp [State.txCodeword, State.txLane, idle, good, unasked]

end Sys2Proof.Machine
end

section
/-! Proofs of chapter 11: the decoders of the lanes (R359 to R361). -/
set_option Elab.async false
namespace Sys2Proof.Machine

/-! ### Codewords at their decoder (R360, R361) -/

/-- The codeword counter that follows at a lane. -/
def LaneRx.next (x : LaneRx) (w : Codeword) : Nat :=
  match x.counter with
  | some k => (k + 1) % 256
  | none => w.framing / 2 ^ 12 % 256

/-- The codewords with errors of the last 1 ms at a lane. -/
def LaneRx.logAfter (x : LaneRx) (now : Nat) (w : Codeword) : List (Nat × Nat) :=
  (x.log.filter fun r => now < r.1 + usCycles 1000) ++ (if w.errors = 0 then [] else [(now, w.errors)])

/-- What a corrected codeword leaves. -/
def State.corrected (s : State) (e : Nat) (w : Codeword) (lost : Bool) : State :=
  (s.setEng e 5 (s.eng e 5 + w.errors)).setLaneRx e w.lane
    { counter := some ((s.laneRx e w.lane).next w), bad := lost, log := (s.laneRx e w.lane).logAfter s.now w }

/-- What an uncorrectable codeword leaves. -/
def State.uncorrectable (s : State) (e : Nat) (w : Codeword) : State :=
  let x := s.laneRx e w.lane
  ((s.setLaneRx e w.lane { counter := x.counter.map fun _ => x.next w, bad := true, log := x.logAfter s.now w }).setEng e 6
    (s.eng e 6 + 1)).crcEvent 0 e w.lane false

/-- The counter of corrected symbols says nothing of how the lanes are aligned. -/
theorem State.skewed_setEng (s : State) (e v k : Nat) : (s.setEng e 5 v).skewed e k = s.skewed e k := by
  have map : (s.setEng e 5 v).eng e 3 = s.eng e 3 := State.reg_setReg_other v (by simp only [dkey]; omega)
  unfold State.skewed
  rw [map]
  rfl

@[simp] theorem State.setLaneRx_reg (s : State) (e p i j : Nat) (x : LaneRx) : (s.setLaneRx e p x).reg i j = s.reg i j := rfl

/-- The entries of an engine are not those of the links together. -/
theorem State.setEng_links (s : State) (e k v : Nat) {sub : Nat} (small : sub < 256) : (s.setEng e k v).reg 0x8000 sub = s.reg 0x8000 sub :=
  State.reg_setReg_other v (by simp only [dkey]; omega)

/-- The detector of codewords leaves the entries of the links together. -/
theorem State.crcEvent_links (s : State) (c e l : Nat) (inj : Bool) {sub : Nat} (small : sub < 256) :
    (s.crcEvent c e l inj).reg 0x8000 sub = s.reg 0x8000 sub :=
  State.raise_reg _ _ (by
    simp only [raiseKeys, dkey, Option.map_none, Option.toList_none, List.append_nil, List.mem_cons, List.not_mem_nil, or_false]
    omega)

section
variable {s : State} {e : Nat} {w : Codeword} (within : w.lane ≤ 8) (good : maskBit (s.failedLanes e 1) w.lane = false)
  (names : s.framedLanes e w.lane ≠ [])
include within good names

/-- A lane whose framing words name it, and that has not failed, takes its codewords. -/
theorem State.decodes : (decide (8 < w.lane) || maskBit (s.failedLanes e 1) w.lane || (s.framedLanes e w.lane).isEmpty) = false := by
  have named : (s.framedLanes e w.lane).isEmpty = false := by simpa using names
  rw [good, named, decide_eq_false (Nat.not_lt.mpr within)]
  rfl

/-- A codeword with up to 15 symbol errors is corrected; its lane fails where it is lost, or beyond the limit of symbol errors. -/
theorem State.takeCodeword_few (few : w.errors ≤ 15) (unarmed : s.armed 0x9008 e w.lane = false) :
    let x := s.laneRx e w.lane
    let lost := !(s.framedLanes e w.lane).any (fun l => w.framing = framingWord l (x.next w)) || s.skewed e (x.next w)
    s.takeCodeword e w =
      if (lost || ratioAbove (((x.logAfter s.now w).filter fun r => r.2 ≤ 15).map (·.2)).sum symbolsPerMs
          (dec32 (BitVec.ofNat 32 (s.reg 0x8000 5)))) = true then
        (s.corrected e w lost).failLane e w.lane
      else s.corrected e w lost := by
  dsimp only
  unfold State.takeCodeword
  simp only [State.decodes within good names, unarmed, Bool.and_false, Bool.false_eq_true, if_false, Nat.not_lt.mpr few, State.skewed_setEng,
    State.setLaneRx_reg, State.setEng_links s e 5 _ (show 5 < 256 by decide), State.corrected, LaneRx.next, LaneRx.logAfter]
  rfl

/-- A codeword with more than 15 symbol errors is not; its lane fails beyond the limit of such codewords. -/
theorem State.takeCodeword_many (many : 15 < w.errors) :
    s.takeCodeword e w =
      if s.reg 0x8000 4 < (((s.laneRx e w.lane).logAfter s.now w).filter fun r => 15 < r.2).length then
        (s.uncorrectable e w).failLane e w.lane
      else s.uncorrectable e w := by
  unfold State.takeCodeword
  simp only [State.decodes within good names, Nat.not_le.mpr many, decide_false, Bool.false_and, Bool.false_eq_true, if_false, many, if_true,
    State.crcEvent_links _ 0 e _ false (show 4 < 256 by decide), State.setEng_links _ e 6 _ (show 4 < 256 by decide), State.setLaneRx_reg, State.uncorrectable, LaneRx.next, LaneRx.logAfter]
  rfl

end

/-- A framing word that follows at a lane. -/
theorem framed_any {l : List Nat} {a k : Nat} : l.any (fun x => a = framingWord x k) = true ↔ ∃ x ∈ l, a = framingWord x k := by
  simp

theorem framed_none {l : List Nat} {a k : Nat} (none : ∀ x ∈ l, a ≠ framingWord x k) : l.any (fun x => a = framingWord x k) = false := by
  simpa using none

/-- A stripe of a bad lane is not good. -/
theorem State.stripeBad_of {s : State} {e l : Nat} (hl : l < 8) (bad : (s.laneRx e (s.eng e 3 / 2 ^ (32 + 4 * l) % 16)).bad = true) :
    s.stripeBad e = true :=
  List.any_eq_true.mpr ⟨l, List.mem_range.mpr hl, by rw [bad]; rfl⟩

/-- Without an injection on a lane in reach a flit acts as it comes. -/
theorem State.injectLane_none {s : State} {e : Nat} (unarmed : ∀ l, l < 9 → s.armed 0x9009 e l = false) : s.injectLane e = s := by
  have none : (List.range 8).find? (fun l => s.armed 0x9009 e l) = none :=
    List.find?_eq_none.mpr fun l hl => by
      have small := List.mem_range.mp hl
      rw [unarmed l (by omega)]
      exact Bool.false_ne_true
  rw [State.injectLane, none]

/-- Settles O52: the decoder's three outcomes, and what the flit that opens a period does with them. -/
theorem codewordsAreDecodedAndLanesFail : Obligations.CodewordsAreDecodedAndLanesFail := by
  unfold Obligations.CodewordsAreDecodedAndLanesFail
  refine ⟨fun s e w within good names => ⟨fun few unarmed => ?_, fun many => ?_⟩, fun s e w out => ?_, fun s e f up unarmed => ?_,
    fun s e l hl => State.stripeBad_of hl⟩
  · have taken := State.takeCodeword_few within good names few unarmed
    have kept (follows : ∃ l ∈ s.framedLanes e w.lane, w.framing = framingWord l ((s.laneRx e w.lane).next w))
        (aligned : s.skewed e ((s.laneRx e w.lane).next w) = false) :
        (!(s.framedLanes e w.lane).any (fun l => w.framing = framingWord l ((s.laneRx e w.lane).next w))
          || s.skewed e ((s.laneRx e w.lane).next w)) = false :=
      Bool.or_eq_false_iff.mpr ⟨congrArg not (framed_any.mpr follows), aligned⟩
    refine ⟨fun follows aligned quiet => ?_, fun follows aligned noisy => ?_, fun lost => ?_⟩
    · simp only [kept follows aligned] at taken
      exact taken.trans (if_neg (by rw [Bool.false_or]; exact Bool.eq_false_iff.mp quiet))
    · simp only [kept follows aligned] at taken
      exact taken.trans (if_pos (by rw [Bool.false_or]; exact noisy))
    · have gone : (!(s.framedLanes e w.lane).any (fun l => w.framing = framingWord l ((s.laneRx e w.lane).next w))
          || s.skewed e ((s.laneRx e w.lane).next w)) = true :=
        Bool.or_eq_true_iff.mpr (lost.imp_left fun none => congrArg not (framed_none none))
      simp only [gone] at taken
      exact taken.trans (if_pos (Bool.true_or _))
  · have taken := State.takeCodeword_many within good names many
    exact ⟨fun rare => taken.trans (if_neg (Nat.not_lt.mpr rare)), fun often => taken.trans (if_pos often)⟩
  · refine if_pos ?_
    obtain far | failed := out
    · rw [decide_eq_true far]
      rfl
    · rw [failed, Bool.or_true]
      rfl
  · refine ⟨fun down => ?_, fun up' bad => ?_⟩
    · refine congrArg Host.Outcome.next ?_
      simp only [up, State.injectLane_none unarmed, down, Bool.not_true, Bool.not_false, Bool.false_eq_true, if_false, if_true]
    · refine congrArg Host.Outcome.next ?_
      simp only [up, State.injectLane_none unarmed, up', bad, Bool.not_true, Bool.false_eq_true, if_false, Bool.or_true, if_true]
      rfl

end Sys2Proof.Machine
end

section
/-! Proofs of chapters 11 and 14: the lanes of a link (R361 to R363). -/
set_option Elab.async false
namespace Sys2Proof.Machine

/-- Link 0 listed twice, which no operation leaves: ahead of the other one at its reset values but for the decoder of the spare, and
behind it with a lane that waits for the spare. -/
def State.linkTwice : State :=
  { State.reset with
    fab := { State.reset.fab with
      links := [(0, { Link.init with lanes := [(8, { LaneRx.init with bad := true })] }), (0, { Link.init with rxSpare := some 3 })] } }

theorem State.linkTwice_raises : (State.linkTwice.failLane 0 8).reg 0x9009 1 = 0 := by
  decide +kernel

/-- Refutes O58: where a link is listed twice, the reset of a decoder takes the first listing away and brings up the second one, with a
lane that waits for the spare; the link then goes DOWN, and the spare's failure is not reported. -/
theorem not_lanesFailAndAreSpared : ¬ Obligations.LanesFailAndAreSpared := by
  rintro ⟨laneFail, -⟩
  obtain ⟨-, fails⟩ := laneFail State.linkTwice 0 8
  obtain ⟨idle, -⟩ := fails (by decide) (by decide +kernel)
  obtain ⟨-, reported, -⟩ := idle (by decide +kernel)
  have same := Host.Outcome.next.inj (reported rfl (by decide +kernel))
  have counted := (congrArg (fun t => t.reg 0x9009 1) same).symm.trans State.linkTwice_raises
  exact absurd counted (by decide +kernel)

end Sys2Proof.Machine
end

section
/-! Proofs of chapter 11: the training of links, and reports (R367, R376, R453). -/
set_option Elab.async false
namespace Sys2Proof.Machine

/-! ### Links that come UP (R358, R366, R367) -/

/-- With no message waiting none leaves. -/
theorem State.pump_idle {s : State} (idle : s.fab.waiting = []) : s.pump = s := by
  have same : { s with fab := { s.fab with waiting := [] } } = s := by rw [← idle]
  unfold State.pump
  simpa only [idle, List.filter_nil, List.length_nil, State.pumpList, State.pumpTurns, List.append_nil] using same

/-- A link in training, once it has given up the flits of another neighbour. -/
def State.relinked (s : State) (e peer : Nat) : State := if s.eng e 2 / 256 = peer / 256 then s else s.loseHeld e

/-- The count of framings of a link that comes UP is free. -/
def State.framing (s : State) (e : Nat) : State := { s.setEng e 8 (Config.freeValue s.free).toNat with free := s.free + 1 }

/-- A link that comes UP, with its neighbour. -/
def State.withNeighbour (s : State) (e peer : Nat) : State :=
  ((((s.freshLink e).setEng e 1 2).setEng e 2 peer).mapLanes e).framing e

/-- A link that comes UP is not late, owes nothing for the messages that came before, and has no lane that an injection holds. -/
def State.cleared (s : State) (e : Nat) : State :=
  let old (o : OutMsg) : OutMsg := if o.inBuf.any fun b => b.1 = e then { o with inBuf := none } else o
  { s with fab := { s.fab with late := maskClear s.fab.late e, waiting := s.fab.waiting.map old,
                               buffers := s.fab.buffers.filter fun b => b.2.1 ≠ e },
           av := { s.av with injectedLanes := s.av.injectedLanes.filter fun q => q.1 / 16 ≠ e } }

/-- A link that has come UP, before its messages leave. -/
def State.trained (s : State) (e peer : Nat) : State := (((s.relinked e peer).withNeighbour e peer).cleared e).judgeLinks

theorem State.linkUp_trained {s : State} {e : Nat} (training : s.eng e 1 = 1) (peer : Nat) :
    exec (.linkUp e peer true) s = .next (s.trained e peer).pump :=
  congrArg Host.Outcome.next ((if_neg (not_not_intro training)).trans (if_neg Bool.false_ne_true))

/-- With no flit held, a link that loses its flits only stops to await a report. -/
theorem State.loseHeld_none {s : State} {e : Nat} (held : (s.link e).held = []) (past : (s.link e).past = []) :
    s.loseHeld e = s.modLink e fun l => { l with held := [], past := [], awaiting := false } := by
  have whole {α : Type} (l : List α) : l.filter (fun _ => true) = l := List.filter_eq_self.mpr fun _ _ => rfl
  unfold State.loseHeld
  simp only [held, past, List.append_nil, List.flatMap_nil, List.any_nil, Bool.not_false, whole, List.filter_nil,
    List.map_nil, List.nil_append, List.foldl_nil]

section
variable {s : State} {e peer : Nat} (quiet : s.eng e 2 / 256 = peer / 256 ∨ ((s.link e).held = [] ∧ (s.link e).past = []))
include quiet

/-- What a link gives up leaves everything but the link. -/
theorem State.relinked_cases : s.relinked e peer = s ∨
    s.relinked e peer = s.modLink e fun l => { l with held := [], past := [], awaiting := false } := by
  unfold State.relinked
  split
  case isTrue => exact .inl rfl
  case isFalse other =>
    obtain ⟨held, past⟩ := quiet.resolve_left other
    exact .inr (State.loseHeld_none held past)

theorem State.relinked_frame : (s.relinked e peer).regs = s.regs ∧ (s.relinked e peer).fab.waiting = s.fab.waiting
    ∧ (s.relinked e peer).fab.late = s.fab.late ∧ (s.relinked e peer).free = s.free ∧ (s.relinked e peer).av = s.av
    ∧ (s.relinked e peer).now = s.now := by
  obtain eq | eq := State.relinked_cases quiet
  · rw [eq]
    exact ⟨rfl, rfl, rfl, rfl, rfl, rfl⟩
  · rw [eq]
    exact ⟨rfl, rfl, rfl, rfl, rfl, rfl⟩

/-- The other links stand. -/
theorem State.relinked_other {k : Nat} (hk : k ≠ e) : (s.relinked e peer).link k = s.link k := by
  obtain eq | eq := State.relinked_cases quiet
  · rw [eq]
  · rw [eq]
    exact SMap.get_set_other _ _ _ _ hk

/-- The flits that wait for a report wait on, and with the same neighbour the report is awaited. -/
theorem State.relinked_link (rising : SMap.rising 0 s.fab.links = true) : SMap.rising 0 (s.relinked e peer).fab.links = true
    ∧ ((s.relinked e peer).link e).past = (s.link e).past
    ∧ ((s.relinked e peer).link e).awaiting = (decide (s.eng e 2 / 256 = peer / 256) && (s.link e).awaiting) := by
  by_cases same : s.eng e 2 / 256 = peer / 256
  · rw [State.relinked, if_pos same, decide_eq_true same]
    exact ⟨rising, rfl, rfl⟩
  · obtain ⟨held, past⟩ := quiet.resolve_left same
    have link : (s.loseHeld e).link e = { s.link e with held := [], past := [], awaiting := false } := by
      rw [State.loseHeld_none held past]
      exact SMap.get_set_same _ rising _ _
    rw [State.relinked, if_neg same, decide_eq_false same, link, past]
    refine ⟨?_, rfl, rfl⟩
    rw [State.loseHeld_none held past]
    exact SMap.rising_mod rising e fun l => { l with held := [], past := [], awaiting := false }

end

section
variable (s : State) (e peer : Nat)

theorem State.framing_reg {i j : Nat} (framing : dkey i j ≠ dkey (0x8010 + e) 8) : (s.framing e).reg i j = s.reg i j :=
  State.reg_setReg_other (s := s) (Config.freeValue s.free).toNat framing

theorem State.mapLanes_reg {i j : Nat} (map : dkey i j ≠ dkey (0x8010 + e) 3) : (s.mapLanes e).reg i j = s.reg i j :=
  State.reg_setReg_other (s := s) (s.eng e 3 % 2 ^ 32 + s.trainedLanes e * 2 ^ 32) map

/-- The entries that a link coming UP leaves. -/
theorem State.withNeighbour_reg {i j : Nat} (peers : dkey i j ≠ dkey (0x8010 + e) 2) (map : dkey i j ≠ dkey (0x8010 + e) 3)
    (framing : dkey i j ≠ dkey (0x8010 + e) 8) : (s.withNeighbour e peer).reg i j = ((s.freshLink e).setEng e 1 2).reg i j := by
  unfold State.withNeighbour
  rw [State.framing_reg _ _ framing, State.mapLanes_reg _ _ map]
  exact State.reg_setReg_other peer peers

theorem State.withNeighbour_frame : (s.withNeighbour e peer).fab = (s.freshLink e).fab ∧ (s.withNeighbour e peer).free = s.free + 1
    ∧ (s.withNeighbour e peer).av = s.av := by
  have framing (t : State) : (t.framing e).fab = t.fab ∧ (t.framing e).free = t.free + 1 ∧ (t.framing e).av = t.av := ⟨rfl, rfl, rfl⟩
  have engine (t : State) (k v : Nat) : (t.setEng e k v).fab = t.fab ∧ (t.setEng e k v).free = t.free ∧ (t.setEng e k v).av = t.av :=
    ⟨rfl, rfl, rfl⟩
  have fresh (t : State) : (t.freshLink e).free = t.free ∧ (t.freshLink e).av = t.av := ⟨rfl, rfl⟩
  simp only [State.withNeighbour, State.mapLanes, framing, engine, fresh, and_self]

theorem State.cleared_reg (i j : Nat) : (s.cleared e).reg i j = s.reg i j := rfl

theorem State.cleared_link (k : Nat) : (s.cleared e).link k = s.link k := rfl

theorem State.cleared_frame : (s.cleared e).fab.late = maskClear s.fab.late e ∧ (s.cleared e).free = s.free
    ∧ (s.cleared e).av.injectedLanes = s.av.injectedLanes.filter (fun q => q.1 / 16 ≠ e) ∧ (s.fab.waiting = [] → (s.cleared e).fab.waiting = []) :=
  ⟨rfl, rfl, rfl, fun none => (congrArg (List.map _) none).trans List.map_nil⟩

theorem State.judgeLinks_frame : s.judgeLinks.fab = s.fab ∧ s.judgeLinks.free = s.free ∧ s.judgeLinks.av = s.av := by
  unfold State.judgeLinks
  exact ⟨State.setCause_fab _ _ _, State.setCause_free _ _ _, State.setCause_av _ _ _⟩

theorem State.trained_reg {i j : Nat} (peers : dkey i j ≠ dkey (0x8010 + e) 2) (map : dkey i j ≠ dkey (0x8010 + e) 3)
    (framing : dkey i j ≠ dkey (0x8010 + e) 8) (causes : dkey i j ≠ dkey 0xA000 1) (alert : dkey i j ≠ dkey 0x9000 3) :
    (s.trained e peer).reg i j = (((s.relinked e peer).freshLink e).setEng e 1 2).reg i j := by
  unfold State.trained State.judgeLinks
  rw [State.setCause_reg _ _ _ causes alert, State.cleared_reg, State.withNeighbour_reg _ _ _ peers map framing]

/-- The links of a link that comes UP. -/
theorem State.trained_link (k : Nat) : (s.trained e peer).link k = ((s.relinked e peer).freshLink e).link k := by
  unfold State.trained State.link
  rw [(State.judgeLinks_frame _).1]
  exact (State.cleared_link _ _ _).trans (congrArg (fun f : Fabric => SMap.get Link.init f.links k) (State.withNeighbour_frame _ _ _).1)

end

/-- A link that comes UP is UP. -/
theorem State.trained_up (s : State) {e : Nat} (known : e < 24) (peer : Nat) : (s.trained e peer).linkIsUp e = true := by
  have listed : ∀ k, k < 24 → 2 % 2 ^ regBits (dkey (0x8010 + k) 1) = 2 ∧ regDefault (dkey (0x8010 + k) 1) ≠ 2 := by
    decide +kernel
  obtain ⟨fits, other⟩ := listed e known
  have state : (s.trained e peer).reg (0x8010 + e) 1 = 2 := by
    refine (State.trained_reg s e peer ?_ ?_ ?_ ?_ ?_).trans ?_
    iterate 5 · simp only [dkey]; omega
    · exact (State.reg_setReg_listed ((s.relinked e peer).freshLink e) (by rw [fits]; exact other.symm)).trans fits
  exact decide_eq_true state

/-- What is left of s once the link is UP, for a link with nothing waiting. -/
theorem State.trained_quiet {s : State} {e peer : Nat} (idle : s.fab.waiting = [])
    (quiet : s.eng e 2 / 256 = peer / 256 ∨ ((s.link e).held = [] ∧ (s.link e).past = [])) :
    (s.trained e peer).pump = s.trained e peer ∧ (s.trained e peer).fab.late = maskClear s.fab.late e
      ∧ (s.trained e peer).free = s.free + 1 ∧ (s.trained e peer).av.injectedLanes = s.av.injectedLanes.filter fun q => q.1 / 16 ≠ e := by
  obtain ⟨-, waiting, late, free, av, -⟩ := State.relinked_frame quiet
  obtain ⟨fab₁, free₁, av₁⟩ := (s.relinked e peer).withNeighbour_frame e peer
  obtain ⟨late₂, free₂, lanes₂, waiting₂⟩ := ((s.relinked e peer).withNeighbour e peer).cleared_frame e
  obtain ⟨fab₃, free₃, av₃⟩ := (((s.relinked e peer).withNeighbour e peer).cleared e).judgeLinks_frame
  have waiting₁ : ((s.relinked e peer).withNeighbour e peer).fab.waiting = [] := by
    rw [fab₁]
    exact waiting.trans idle
  have late₁ : ((s.relinked e peer).withNeighbour e peer).fab.late = s.fab.late := by
    rw [fab₁]
    exact late
  unfold State.trained
  exact ⟨State.pump_idle (by rw [fab₃]; exact waiting₂ waiting₁), by rw [fab₃, late₂, late₁], by rw [free₃, free₂, free₁, free],
    by rw [av₃, lanes₂, av₁, av]⟩

/-- Another engine's link keeps its state. -/
theorem State.trained_otherState {s : State} {e peer k : Nat}
    (quiet : s.eng e 2 / 256 = peer / 256 ∨ ((s.link e).held = [] ∧ (s.link e).past = [])) (hk : k ≠ e) (known : k < 24) :
    (s.trained e peer).linkIsUp k = s.linkIsUp k ∧ (s.trained e peer).link k = s.link k := by
  obtain ⟨regs, -⟩ := State.relinked_frame quiet
  constructor
  · unfold State.linkIsUp State.eng
    rw [State.trained_reg s e peer (by simp only [dkey]; omega) (by simp only [dkey]; omega) (by simp only [dkey]; omega)
      (by simp only [dkey]; omega) (by simp only [dkey]; omega)]
    have kept : (((s.relinked e peer).freshLink e).setEng e 1 2).reg (0x8010 + k) 1 = s.reg (0x8010 + k) 1 := by
      refine (State.reg_setReg_other (s := (s.relinked e peer).freshLink e) 2 (by simp only [dkey]; omega)).trans ?_
      unfold State.reg
      rw [← regs]
      rfl
    rw [kept]
  · rw [State.trained_link]
    exact (SMap.get_set_other _ _ _ _ hk).trans (State.relinked_other quiet hk)

/-- The link that comes UP has fresh sequence numbers and credits. -/
theorem State.trained_own {s : State} {e peer : Nat}
    (quiet : s.eng e 2 / 256 = peer / 256 ∨ ((s.link e).held = [] ∧ (s.link e).past = [])) (rising : SMap.rising 0 s.fab.links = true) :
    (s.trained e peer).link e = { Link.init with
      credits := (List.range 16).foldl (fun m v => SMap.set 0 m v (s.reg 0x8050 (v + 1))) [],
      progress := s.now, replayAt := s.now, upAt := s.now, past := (s.link e).past,
      awaiting := decide (s.eng e 2 / 256 = peer / 256) && (s.link e).awaiting } := by
  obtain ⟨regs, -, -, -, -, now⟩ := State.relinked_frame quiet
  obtain ⟨rising', past, awaiting⟩ := State.relinked_link quiet rising
  have credit (v : Nat) : (s.relinked e peer).reg 0x8050 (v + 1) = s.reg 0x8050 (v + 1) := by
    unfold State.reg
    rw [regs]
  rw [State.trained_link]
  refine (SMap.get_set_same _ rising' _ _).trans ?_
  simp only [credit, now, past, awaiting]

/-! ### Reports (R376) -/

/-- Slots to be returned leave how a link awaits its report. -/
theorem Fabric.owe_awaiting {f : Fabric} {e vc n : Nat} (some : 0 < n) (k : Nat) :
    (SMap.get Link.init (f.owe e vc n).links k).awaiting = (SMap.get Link.init f.links k).awaiting := by
  by_cases same : k = e
  · subst same
    have owed : SMap.mod 0 (SMap.get Link.init f.links k).owed vc (fun c => c + n) ≠ [] := by
      intro none
      have slots := SMap.get_set_listed 0 (SMap.get Link.init f.links k).owed vc
        (v := SMap.get 0 (SMap.get Link.init f.links k).owed vc + n) (by omega)
      rw [SMap.mod] at none
      rw [none] at slots
      exact absurd slots (by simp only [SMap.get]; omega)
    have new := SMap.get_set_listed Link.init f.links k
      (v := { SMap.get Link.init f.links k with owed := SMap.mod 0 (SMap.get Link.init f.links k).owed vc fun c => c + n })
      fun init => owed (congrArg Link.owed init)
    have awaiting := congrArg Link.awaiting new
    exact awaiting
  · exact congrArg Link.awaiting (SMap.get_set_other _ _ _ _ same)

theorem Fabric.consume_awaiting (f : Fabric) (m : FabMsg) (k : Nat) :
    (SMap.get Link.init (f.consume m).links k).awaiting = (SMap.get Link.init f.links k).awaiting := by
  unfold Fabric.consume
  dsimp only
  split
  · exact Fabric.owe_awaiting (FabMsg.slots_pos m) k
  · rfl

/-- The message of a report says nothing of whether the link is UP or awaits one. -/
theorem State.takeReport_link (s : State) (e seq : Nat) :
    (s.takeReport e seq).linkIsUp e = s.linkIsUp e ∧ ((s.takeReport e seq).link e).awaiting = (s.link e).awaiting := by
  unfold State.takeReport
  split
  · exact ⟨rfl, Fabric.consume_awaiting _ _ _⟩
  · exact ⟨rfl, rfl⟩

/-- The state of the link once a report has been taken. -/
def State.reported (s : State) (e seq : Nat) : State :=
  if s.linkIsUp e && !(s.link e).awaiting then (s.takeReport e seq).linkDown e else s.takeReport e seq

/-- The messages of the flits after the one that a report names. -/
def State.unreported (r : State) (e seq : Nat) : List OutMsg :=
  ((r.link e).past.filter fun f => (f.seq + 4096 - seq) % 4096 ≠ 0 && (f.seq + 4096 - seq) % 4096 ≤ 2048).flatMap fun f => f.msgs

/-- The messages after the one that a report names wait again, ahead of the others. -/
def State.waitAgain (r : State) (e seq : Nat) : State :=
  let u := r.modLink e fun l => { l with past := [], awaiting := false }
  { u with fab := { u.fab with
    sent := u.fab.sent.filter fun o => !(r.unreported e seq).any fun x => x.id = o.id,
    waiting := (r.unreported e seq).map (fun o : OutMsg => { o with since := u.now }) ++ u.fab.waiting } }

theorem State.linkReport_waits (s : State) (e seq : Nat) : exec (.linkReport e seq) s =
    .next (if (s.reported e seq).unreported e seq |>.any fun o => classOrdered o.msg.cls then
      ((s.reported e seq).waitAgain e seq).laneEvent 3 e 0 else (s.reported e seq).waitAgain e seq).pump := by
  obtain ⟨up, awaiting⟩ := s.takeReport_link e seq
  have first : (if (s.takeReport e seq).linkIsUp e && !((s.takeReport e seq).link e).awaiting then (s.takeReport e seq).linkDown e
      else s.takeReport e seq) = s.reported e seq := by
    rw [up, awaiting]
    rfl
  refine congrArg Host.Outcome.next ?_
  simp only [first]
  rfl

/-- What is reported of a link: it goes DOWN first where it is UP and awaits no report. -/
theorem State.reported_eq {s r : State} {e seq : Nat}
    (drops : s.linkIsUp e = true → (s.link e).awaiting = false → r = (s.takeReport e seq).linkDown e)
    (stays : s.linkIsUp e = false ∨ (s.link e).awaiting = true → r = s.takeReport e seq) : r = s.reported e seq := by
  unfold State.reported
  split
  case isTrue both =>
    obtain ⟨up, quiet⟩ := Bool.and_eq_true_iff.mp both
    exact drops up (by simpa using quiet)
  case isFalse neither =>
    refine stays ?_
    rw [Bool.and_eq_true_iff, Classical.not_and_iff_not_or_not, Bool.not_eq_true, Bool.not_eq_true, Bool.not_eq_false'] at neither
    exact neither

/-! ### Training (R367, R453, R463) -/

/-- A link that may train does so. -/
theorem State.linkRetrain_trains {s : State} {e : Nat} (serving : s.top.dev = .serving) (enabled : maskBit (s.reg 0x8000 2) e = true)
    (down : s.eng e 1 = 0) (free : s.laneBlocked e = false) (calibrated : maskBit (s.reg 0x1200 11) e = true)
    (runs : s.top.stopped.get (e / 12) = false) (waited : usCycles 1000000 ≤ s.now - (s.link e).downAt) :
    exec (.linkRetrain e) s = .next (s.setEng e 1 1) :=
  congrArg Host.Outcome.next ((if_pos waited).trans (if_pos (by simp [serving, enabled, down, free, calibrated, runs])))

/-- A link that may not train stands. -/
theorem State.linkRetrain_stands {s : State} {e : Nat} (held : s.top.dev ≠ .serving ∨ maskBit (s.reg 0x8000 2) e = false ∨ s.eng e 1 ≠ 0
      ∨ s.laneBlocked e = true ∨ s.top.stopped.get (e / 12) = true ∨ s.now - (s.link e).downAt < usCycles 1000000) :
    exec (.linkRetrain e) s = .next s := by
  refine congrArg Host.Outcome.next (ite_eq_right_iff.mpr fun waited => if_neg fun may => ?_)
  simp only [Bool.and_eq_true, decide_eq_true_eq, Bool.not_eq_true'] at may
  obtain ⟨⟨⟨⟨⟨serving, runs⟩, enabled⟩, down⟩, free⟩, -⟩ := may
  rw [enabled, free, runs] at held
  obtain h | h | h | h | h | h := held
  · exact h serving
  · cases h
  · exact h down
  · cases h
  · cases h
  · exact absurd waited (Nat.not_le.mpr h)

/-- Settles O44: a link that comes UP is trained, and a report puts the flits after the one that it names back to waiting. -/
theorem linksTrainAndReport : Obligations.LinksTrainAndReport := by
  unfold Obligations.LinksTrainAndReport
  refine ⟨fun s e => ⟨State.linkRetrain_trains, State.linkRetrain_stands⟩, fun s e peer => ⟨fun idle b => ?_, fun training => ⟨?_, ?_⟩⟩,
    fun s e => ⟨fun serving enabled down noted late => ?_, fun early => ?_⟩, fun s r e seq drops stays => ?_⟩
  · exact congrArg Host.Outcome.next (if_pos idle)
  · exact congrArg Host.Outcome.next ((if_neg (not_not_intro training)).trans (if_pos rfl))
  · intro known idle quiet
    obtain ⟨still, late, free, lanes⟩ := State.trained_quiet idle quiet
    refine ⟨s.trained e peer, (State.linkUp_trained training peer).trans (congrArg Host.Outcome.next still), s.trained_up known peer,
      fun k hk hk' => State.trained_otherState quiet hk hk', late, free, fun q hq => ?_, State.trained_own quiet⟩
    rw [lanes] at hq
    exact of_decide_eq_true (List.mem_filter.mp hq).2
  · exact congrArg Host.Outcome.next (if_pos (by simp [serving, enabled, down, noted, late]))
  · refine congrArg Host.Outcome.next (if_neg fun both => ?_)
    simp only [Bool.and_eq_true, decide_eq_true_eq, Bool.not_eq_true'] at both
    obtain ⟨⟨⟨-, down⟩, -⟩, late⟩ := both
    obtain up | early := early
    · rw [up] at down
      cases down
    · exact absurd late (Nat.not_le.mpr early)
  · rw [State.reported_eq drops stays]
    have waits := s.linkReport_waits e seq
    refine ⟨fun ⟨o, ho, ordered⟩ => waits.trans (congrArg (fun t : State => Host.Outcome.next t.pump) (if_pos ?_)),
      fun none => waits.trans (congrArg (fun t : State => Host.Outcome.next t.pump) (if_neg ?_))⟩
    · exact List.any_eq_true.mpr ⟨o, ho, ordered⟩
    · rw [List.any_eq_true]
      rintro ⟨o, ho, ordered⟩
      rw [none o ho] at ordered
      cases ordered

end Sys2Proof.Machine
end

section
/-! Proofs of chapter 11: flits, their acknowledgements and their replay (R364 to R367). -/
set_option Elab.async false
namespace Sys2Proof.Machine

/-- An answer of two bytes whose class is no class of Table 7, so large that its counter is the state of engine 0. -/
def outOfClass : OutMsg :=
  { id := 0, msg := { State.reset.msgTo (256 * 15) 0x02 0 with data := [0, 0] }, use := .report 0, own := false, inTrunk := none,
    inBit := false, inBuf := none, since := 0, dead := false }

/-- A flit that is held, with no message in it. -/
def heldFlit : HeldFlit :=
  { seq := 0, msgs := [], replays := 0, vc := 0, used := 0, firstSlot := 15, head := Link.init.head false false (0, 0), content := [], cycle := 0 }

/-- Links 0 and 1 UP to one neighbour, a flit held on link 0 without progress for 100 µs, and the message above, which waits for link 1. -/
def State.waitsOutOfClass : State :=
  { State.reset with
    now := usCycles 100
    regs := [(dkey 0x8010 1, 2), (dkey 0x8011 1, 2)]
    fab := { State.reset.fab with
      waiting := [outOfClass], links := [(0, { Link.init with held := [heldFlit] }), (1, { Link.init with credits := [(14, 9)] })] } }

theorem State.waitsOutOfClass_up : (State.waitsOutOfClass.linkDown 0).linkIsUp 0 = true := by decide +kernel

/-- Refutes O45: the link that goes DOWN lets a message leave over the other one, and the bytes of a message are counted at the entry
of its class; of a class beyond those of Table 7 this may be the state of the engine itself, which then reads UP again. -/
theorem not_flitsAreAcceptedAndReplayed : ¬ Obligations.FlitsAreAcceptedAndReplayed := by
  rintro ⟨-, -, -, timeouts, -⟩
  obtain ⟨held, -⟩ := timeouts State.waitsOutOfClass 0 (by decide +kernel)
  obtain ⟨-, -, progress, -⟩ := held (by decide +kernel)
  obtain ⟨t, -, eq, down⟩ := progress (by decide +kernel)
  have claimed := down (by decide) (by decide +kernel)
  rw [eq, State.waitsOutOfClass_up] at claimed
  cases claimed

end Sys2Proof.Machine
end

section
/-! Proofs of chapters 12 and 13: partitions and function-level resets (R389, R390, R423). -/
set_option Elab.async false
namespace Sys2Proof.Machine

/-- A record of queue pair 15 of the PF that has not been written. -/
def unwritten : CRec :=
  { fn := 0, queue := 15, irq := false, mark := 0, tag := 0, result := 0, ctx := 0, sqHead := 0, flags := 0, bits := 0, cause := 0,
    status := 0, kind := 0, needMark := none, flush := false, held := false, raw := none, chunk := none, counts := false, unit := 0 }

/-- Such a record, of a pair whose producer index lies in another module, and an answer of two bytes that waits for link 1, whose class is
no class of Table 7, so large that its counter is an entry of queue pair 0. -/
def State.writesElsewhere : State :=
  { State.reset with
    regs := [(dkey 0x8011 1, 2), (dkey (pairIdx 0 15) 5, 65 * 2 ^ 42)]
    host := { State.reset.host with made := ⟨[unwritten], []⟩ }
    fab := { State.reset.fab with
      waiting := [{ outOfClass with msg := { outOfClass.msg with cls := 256 * 0x30FF } }]
      links := [(1, { Link.init with credits := [(14, 9)] })] } }

theorem State.writesElsewhere_reset : (State.writesElsewhere.resetFn 0).qp 0 0 1 ≠ State.reset.qp 0 0 1 := by decide +kernel

/-- Refutes O46: the reset of a function writes the records of its pair 15, in another module, after the entries of its pair 0 have
returned to their defaults; the message that then leaves is counted at the entry of its class, and of a class beyond those of Table 7
this may be an entry of pair 0. -/
theorem not_partitionsBeginAndEnd : ¬ Obligations.PartitionsBeginAndEnd := by
  rintro ⟨-, -, -, -, -, defaults, -⟩
  exact State.writesElsewhere_reset (defaults State.writesElsewhere 0 0 1 (by decide) (by decide) (by decide) (by decide) (by decide +kernel))

end Sys2Proof.Machine
end

section
/-! Proofs of chapters 12 and 13: jobs, their arguments and their results (R431 to R433). -/
set_option Elab.async false
namespace Sys2Proof.Machine

/-! ### Dispatch of a job (R431) -/

theorem State.popDesc_jobs (s : State) (f q : Nat) (d : Desc) : (s.popDesc f q d).jobs = s.jobs := by
  unfold State.popDesc
  dsimp only
  split <;> rfl

/-- A front descriptor of another kind than those with op codes is no reserved one. -/
theorem State.settle_front {s : State} {f q : Nat} {d : Desc} (front : s.Front f q d) (legal : reservedOp d = false) : s.settle f q = s := by
  obtain ⟨-, -, ⟨l, first⟩, -, allowed⟩ := front
  unfold State.settle State.settleLoop
  simp [first, allowed, legal]

/-- A pair with nothing fetched is settled. -/
theorem State.settle_empty {s : State} {f q : Nat} (empty : (s.pair f q).fetched = []) : s.settle f q = s := by
  unfold State.settle State.settleLoop
  simp [empty]

section
variable {s : State} {f q : Nat} {d : Desc} (front : s.Front f q d) (kind : descKind d = 1)
include front kind

/-- A run that is not allowed ends its first descriptor freely. -/
theorem State.job_bad (bad : jobRun 16 [] (s.pair f q).fetched = .bad) :
    exec (.job f q) s = .next (((s.popDesc f q d).freeEnd f q d (s.headAfter f q d)).settle f q) := by
  have legal : reservedOp d = false := by simp [reservedOp, kind]
  have taken := State.take_front (ok := fun d => descKind d = 1) front legal (decide_eq_true kind)
  have settled := State.settle_front front legal
  obtain ⟨-, -, ⟨l, first⟩, -, -⟩ := front
  show execJob f q s = _
  unfold execJob
  simp only [settled, bad, taken]
  rw [first]
  simp only [kind, ne_eq, not_true_eq_false, if_false]

/-- Part of a run waits for the rest. -/
theorem State.job_part (part : jobRun 16 [] (s.pair f q).fetched = .part) : exec (.job f q) s = .next s := by
  have legal : reservedOp d = false := by simp [reservedOp, kind]
  have settled := State.settle_front front legal
  obtain ⟨-, -, ⟨l, first⟩, -, -⟩ := front
  show execJob f q s = _
  unfold execJob
  simp only [settled, part]
  rw [first]
  simp only [kind, ne_eq, not_true_eq_false, if_false]

/-- A whole run is taken off the pair, and its job begins. -/
theorem State.job_whole {ds : List Desc} (whole : jobRun 16 [] (s.pair f q).fetched = .whole ds) :
    let u := s.popDesc f q d
    let v := u.setPair f q { u.pair f q with fetched := (u.pair f q).fetched.drop (ds.length - 1) }
    let w := v.setQp f q 12 ((v.qp f q 12 + (ds.length - 1)) % 2 ^ 32)
    exec (.job f q) s = .next ((w.takeJob f q (w.qp f q 12) ds).settle f q) := by
  have legal : reservedOp d = false := by simp [reservedOp, kind]
  have taken := State.take_front (ok := fun d => descKind d = 1) front legal (decide_eq_true kind)
  have settled := State.settle_front front legal
  obtain ⟨-, -, ⟨l, first⟩, -, -⟩ := front
  show execJob f q s = _
  unfold execJob
  simp only [settled, whole, taken]
  rw [first]
  simp only [kind, ne_eq, not_true_eq_false, if_false]

end

/-! ### What becomes of a run (R395, R431) -/

/-- The contexts that a run names meet a test somewhere, or nowhere. -/
theorem State.runCtxs (s : State) (ok : Ctx → Bool) (j : Nat) (ds : List Desc) :
    (((ds.map (invOf j)).map fun i => s.ctx i.ctx).any ok = true ↔ ∃ e ∈ ds, ok (s.ctx (jbCtx e)) = true)
      ∧ (((ds.map (invOf j)).map fun i => s.ctx i.ctx).any ok = false ↔ ∀ e ∈ ds, ok (s.ctx (jbCtx e)) = false) := by
  simp [invOf]

section
variable {s : State} {f q h : Nat} {d : Desc} {l : List Desc}

theorem State.takeJob_foreign (foreign : ∃ e ∈ d :: l, (s.ctx (jbCtx e)).st ≠ .free ∧ (s.ctx (jbCtx e)).part ≠ f - 1) :
    s.takeJob f q h (d :: l) = s.complete f q d h stFault :=
  if_pos (((s.runCtxs (fun x => x.st ≠ .free && x.part ≠ f - 1) s.nextJob (d :: l)).1).mpr (by simpa using foreign))

variable (own : ∀ e ∈ d :: l, (s.ctx (jbCtx e)).st = .free ∨ (s.ctx (jbCtx e)).part = f - 1)
include own

theorem State.runOwn : (((d :: l).map (invOf s.nextJob)).map fun i => s.ctx i.ctx).any (fun x => x.st ≠ .free && x.part ≠ f - 1) = false :=
  ((s.runCtxs (fun x => x.st ≠ .free && x.part ≠ f - 1) s.nextJob (d :: l)).2).mpr fun e he => by
    obtain free | mine := own e he
    · simp [free]
    · simp [mine]

theorem State.takeJob_dead (dead : ∃ e ∈ d :: l, (s.ctx (jbCtx e)).st = .free ∨ (s.ctx (jbCtx e)).st = .killing ∨ (s.ctx (jbCtx e)).st = .faulted) :
    s.takeJob f q h (d :: l) =
      let b := newJob s.nextJob f q h (f - 1) (jbStep d) (descTag d) (descIrq d) ((d :: l).map (invOf s.nextJob)) none
      let v : State := { s with free := s.free + 1 }
      ((v.pinsToJob f q s.nextJob).releasePins s.nextJob).produce (v.jobRecord b stAborted ((Config.freeValue s.free).toNat % 9)) := by
  refine (if_neg (Bool.eq_false_iff.mp (State.runOwn own))).trans (if_pos ?_)
  refine ((s.runCtxs (fun x => x.st = .free || x.st = .killing || x.st = .faulted) s.nextJob (d :: l)).1).mpr ?_
  simpa [or_assoc] using dead

variable (alive : ∀ e ∈ d :: l, (s.ctx (jbCtx e)).st ≠ .free ∧ (s.ctx (jbCtx e)).st ≠ .killing ∧ (s.ctx (jbCtx e)).st ≠ .faulted)
include alive

omit own in
theorem State.runAlive : (((d :: l).map (invOf s.nextJob)).map fun i => s.ctx i.ctx).any
    (fun x => x.st = .free || x.st = .killing || x.st = .faulted) = false :=
  ((s.runCtxs (fun x => x.st = .free || x.st = .killing || x.st = .faulted) s.nextJob (d :: l)).2).mpr fun e he => by
    obtain ⟨used, kept, good⟩ := alive e he
    simp [used, kept, good]

theorem State.takeJob_stopped (stopped : ∃ e ∈ d :: l, s.top.stopped.get ((s.ctx (jbCtx e)).core / 32) = true) :
    s.takeJob f q h (d :: l) = ((s.pinsToJob f q s.nextJob).releasePins s.nextJob).produce
      (s.jobRecord (newJob s.nextJob f q h (f - 1) (jbStep d) (descTag d) (descIrq d) ((d :: l).map (invOf s.nextJob)) none) stAborted 5) :=
  (if_neg (Bool.eq_false_iff.mp (State.runOwn own))).trans ((if_neg (Bool.eq_false_iff.mp (State.runAlive alive))).trans
    (if_pos (((s.runCtxs (fun x => s.top.stopped.get (x.core / 32)) s.nextJob (d :: l)).1).mpr stopped)))

theorem State.takeJob_starts (runs : ∀ e ∈ d :: l, s.top.stopped.get ((s.ctx (jbCtx e)).core / 32) = false) :
    s.takeJob f q h (d :: l) = (s.pinsToJob f q s.nextJob).startJob
      (newJob s.nextJob f q h (f - 1) (jbStep d) (descTag d) (descIrq d) ((d :: l).map (invOf s.nextJob)) none) :=
  (if_neg (Bool.eq_false_iff.mp (State.runOwn own))).trans ((if_neg (Bool.eq_false_iff.mp (State.runAlive alive))).trans
    (if_neg (Bool.eq_false_iff.mp (((s.runCtxs (fun x => s.top.stopped.get (x.core / 32)) s.nextJob (d :: l)).2).mpr runs))))

end

/-! ### Arguments and results (R431, R432) -/

section
variable {s : State} {p x : Nat} {ue : List Nat} {i : Invocation} (wanted : s.argsWanted p = some (x, i))
include wanted

/-- More rows than the handle has. -/
theorem State.argumentLoad_many (many : hRows ((s.core p).handle ((s.ctx x).hnd i.argHandle)) < i.argRows) :
    exec (.argumentLoad p ue) s = .next ((s.unruly p).argsDone i.job x) := by
  show execArgumentLoad p ue s = _
  unfold execArgumentLoad
  simp only [wanted]
  exact if_pos many

variable (fits : i.argRows ≤ hRows ((s.core p).handle ((s.ctx x).hnd i.argHandle)))
include fits

/-- A row that may not be read ends the job. -/
theorem State.argumentLoad_refused (refused : ∃ n, n < i.argRows ∧ s.allows (some (s.ctx x).part) (i.argAddr + 512 * n) 512 false = false) :
    exec (.argumentLoad p ue) s = .next (s.unmapped.abortJob i.job 8).settleOps := by
  show execArgumentLoad p ue s = _
  unfold execArgumentLoad
  simp only [wanted]
  refine (if_neg (Nat.not_lt.mpr fits)).trans (if_pos ?_)
  simpa using refused

variable (allowed : ∀ n, n < i.argRows → s.allows (some (s.ctx x).part) (i.argAddr + 512 * n) 512 false = true)
include allowed

omit wanted fits in
theorem State.argRows_allowed : (!(List.range i.argRows).all fun n => s.allows (some (s.ctx x).part) (i.argAddr + 512 * n) 512 false) = false := by
  simpa using allowed

/-- Rows in another module are asked for. -/
theorem State.argumentLoad_remote {k a : Nat} (there : s.place i.argAddr = .remote k a) :
    exec (.argumentLoad p ue) s = .next ((List.range i.argRows).foldl (fun t n =>
      t.send { t.msgTo 3 0x0B k with addr := a + 512 * n, count := 512, row := n }
        (.load i.job x ((hBase ((s.core p).handle ((s.ctx x).hnd i.argHandle)) + n) % cisternRows))) s) := by
  show execArgumentLoad p ue s = _
  unfold execArgumentLoad
  simp only [wanted, there, Nat.not_lt.mpr fits, State.argRows_allowed allowed, Bool.false_eq_true, if_false]

/-- Rows in this module are loaded. -/
theorem State.argumentLoad_here (here : ∀ k a, s.place i.argAddr ≠ .remote k a) {u : State} {ok : Bool}
    (loaded : s.loadArgs x (s.ctx x).part i.argAddr (hBase ((s.core p).handle ((s.ctx x).hnd i.argHandle))) 0 ue i.argRows = (u, ok)) :
    exec (.argumentLoad p ue) s = .next (if ok then u.argsDone i.job x else (u.abortJob i.job 8).settleOps) := by
  show execArgumentLoad p ue s = _
  unfold execArgumentLoad
  simp only [wanted, Nat.not_lt.mpr fits, State.argRows_allowed allowed, Bool.false_eq_true, if_false]
  cases place : s.place i.argAddr with
  | remote k a => exact absurd place (here k a)
  | range _ _ | host _ | none => simp only [loaded]; cases ok <;> rfl

end

/-! ### Aborts (R433) -/

/-- An abort names jobs of its pair, and their number stands when it is dispatched. -/
theorem State.jobAbort_takes {s : State} {f q : Nat} {d : Desc} (front : s.Front f q d) (kind : descKind d = 2) :
    let named (b : Job) : Bool := b.fn = f && b.queue = fld d 3 0 && b.tag = fld d 31 16 && b.stack.isNone
    let u := s.popDesc f q d
    (∀ b, s.jobs.find? (fun b => named b && b.decision.isNone) = some b → exec (.jobAbort f q) s =
      .next (((u.abortJob b.id 3).complete f q d (s.headAfter f q d) stCompleted).settleOps))
    ∧ (s.jobs.find? (fun b => named b && b.decision.isNone) = none → exec (.jobAbort f q) s =
      .next ((if s.jobs.any named then u.bump 0x6800 12 1 else u).complete f q d (s.headAfter f q d) stState)) := by
  have taken := State.take_front (ok := fun d => descKind d = 2) front (by simp [reservedOp, kind]) (decide_eq_true kind)
  have jobs := s.popDesc_jobs f q d
  refine ⟨fun b found => congrArg Host.Outcome.next ?_, fun none => congrArg Host.Outcome.next ?_⟩
  · simp only [taken, jobs, found]
  · simp only [taken, jobs, none]

/-- Settles O49: the dispatch, the checks and the ends of a job, case by case. -/
theorem jobsRunAndStoreResults : Obligations.JobsRunAndStoreResults := by
  unfold Obligations.JobsRunAndStoreResults
  refine ⟨fun s f q d front kind => ⟨State.job_bad front kind, State.job_part front kind, fun ds => State.job_whole front kind⟩,
    fun s f q empty => ?_, fun s f q h d l => ⟨State.takeJob_foreign, fun own => ⟨State.takeJob_dead own, fun alive =>
      ⟨State.takeJob_stopped own alive, State.takeJob_starts own alive⟩⟩⟩,
    fun s p ue => ⟨fun none => ?_, fun x i wanted => ⟨State.argumentLoad_many wanted, fun fits => ⟨State.argumentLoad_refused wanted fits,
      fun allowed => ⟨fun k a => State.argumentLoad_remote wanted fits allowed, fun here u ok loaded => ⟨fun yes => ?_, fun no => ?_⟩⟩⟩⟩⟩,
    fun s j up => ⟨fun none => ?_, fun b found => ⟨fun wait => ?_, fun due => ?_⟩⟩, fun s f q d front kind => ?_⟩
  · show execJob f q s = _
    unfold execJob
    simp only [State.settle_empty empty, empty]
  · show execArgumentLoad p ue s = _
    unfold execArgumentLoad
    simp only [none]
  · rw [State.argumentLoad_here wanted fits allowed here loaded, if_pos yes]
  · rw [State.argumentLoad_here wanted fits allowed here loaded, no, if_neg Bool.false_ne_true]
  · show execResultStore j up s = _
    unfold execResultStore
    simp only [none]
  · show execResultStore j up s = _
    unfold execResultStore
    simp only [found, wait, Bool.not_false, if_true]
  · show execResultStore j up s = _
    unfold execResultStore
    simp only [found, due, Bool.not_true, Bool.false_eq_true, if_false]
  · obtain ⟨aborts, ends⟩ := State.jobAbort_takes front kind
    refine ⟨aborts, fun none => ?_, fun some latched => ?_⟩
    · have unnamed : (s.jobs.any fun b : Job => b.fn = f && b.queue = fld d 3 0 && b.tag = fld d 31 16 && b.stack.isNone) = false :=
        List.any_eq_false.mpr fun b hb => Bool.eq_false_iff.mp (none b hb)
      rw [ends (List.find?_eq_none.mpr fun b hb => by rw [none b hb]; exact Bool.false_ne_true), unnamed, if_neg Bool.false_ne_true]
    · have named : (s.jobs.any fun b : Job => b.fn = f && b.queue = fld d 3 0 && b.tag = fld d 31 16 && b.stack.isNone) = true :=
        List.any_eq_true.mpr some
      rw [ends ?_, named, if_pos rfl]
      refine List.find?_eq_none.mpr fun b hb both => ?_
      obtain ⟨mine, undecided⟩ := Bool.and_eq_true_iff.mp both
      have decided := latched b hb mine
      rw [Option.isNone_iff_eq_none.mp undecided] at decided
      cases decided

end Sys2Proof.Machine
end

section
/-! Proofs of chapters 05 and 12: the ends of context commands, and blocked cores (R172, R188, R404, R413). -/
set_option Elab.async false
namespace Sys2Proof.Machine

/-! ### A core that takes up a context leaves the FREE ones (R400) -/

/-- The schedule of a core that is not idle stands where its engines and banks are woken. -/
theorem State.csq_modCore {s : State} {p : Nat} {g : Core → Core} (same : ∀ c, (g c).csq = c.csq) (busy : (s.core p).csq.phase ≠ .idle) :
    ((s.modCore p g).core p).csq = (s.core p).csq := by
  have used : g (s.core p) ≠ Core.init := fun idle => busy (by rw [← same, idle]; rfl)
  have new : (s.modCore p g).core p = g (s.core p) := SMap.get_set_listed _ _ _ used
  rw [new, same]

/-- Core p is held for context x, before its segment. -/
def State.HoldsFor (s : State) (p x : Nat) : Prop := (s.core p).csq.phase = .hold ∧ (s.core p).csq.ctx = x

section
variable {s : State} {p x : Nat}

theorem State.HoldsFor.modCore (holds : s.HoldsFor p x) {g : Core → Core} (same : ∀ c, (g c).csq = c.csq) : (s.modCore p g).HoldsFor p x := by
  obtain ⟨phase, ctx⟩ := holds
  unfold State.HoldsFor
  rw [State.csq_modCore same (by rw [phase]; decide)]
  exact ⟨phase, ctx⟩

theorem State.HoldsFor.foldl {β : Type} {f : State → β → State} (step : ∀ t b, t.HoldsFor p x → (f t b).HoldsFor p x) :
    ∀ (l : List β) (t : State), t.HoldsFor p x → (l.foldl f t).HoldsFor p x := by
  intro l
  induction l with
  | nil => exact fun _ h => h
  | cons b l ih => exact fun t h => ih _ (step t b h)

theorem State.HoldsFor.wakeFor (holds : s.HoldsFor p x) (seg : Nat) : (s.wakeFor p seg).HoldsFor p x := by
  unfold State.wakeFor
  refine State.HoldsFor.foldl (fun t b h => ?_) _ _ (State.HoldsFor.foldl (fun t e h => ?_) _ _ holds)
  · split
    · exact h.modCore fun _ => rfl
    · exact h
  · split
    · exact h.modCore fun _ => rfl
    · exact h

theorem State.HoldsFor.of_cores (holds : s.HoldsFor p x) {t : State} (cores : t.cores = s.cores) : t.HoldsFor p x := by
  unfold State.HoldsFor State.core at holds ⊢
  rw [cores]
  exact holds

theorem State.HoldsFor.segPermit (holds : s.HoldsFor p x) (y seg : Nat) : (s.segPermit p y seg).HoldsFor p x := by
  have asked : (s.askPermit (Issuer.csqPermit p)).HoldsFor p x :=
    holds.of_cores ((Keeps.askPermit (Keeps.refl s) (hm := Sub.refl _)).frame .cores rfl)
  have returned : (s.returnPermit (Issuer.csqPermit p)).HoldsFor p x :=
    holds.of_cores ((Keeps.returnPermit (Keeps.refl s) (hm := Sub.refl _)).frame .cores rfl)
  unfold State.segPermit
  dsimp only
  split <;> split
  · exact asked
  · exact returned
  · exact asked.wakeFor _
  · exact returned.wakeFor _

end

/-- The core of a state and its contexts stand where the fields that hold them do. -/
theorem State.ctx_of_ctxs {s t : State} (ctxs : t.ctxs = s.ctxs) (x : Nat) : t.ctx x = s.ctx x := congrArg (fun m => SMap.get Ctx.init m x) ctxs

theorem State.modCtx_other (s : State) {x y : Nat} (g : Ctx → Ctx) (other : x ≠ y) : (s.modCtx y g).ctx x = s.ctx x :=
  SMap.get_set_other _ _ _ _ other

theorem State.setBlocked_other (s : State) {x y : Nat} (on : Bool) (other : x ≠ y) : (s.setBlocked y on).ctx x = s.ctx x := by
  unfold State.setBlocked
  dsimp only
  split
  · split
    · rfl
    · exact State.modCtx_other s _ other
  · split
    · refine Eq.trans ?_ (State.modCtx_other s (fun c => { c with blocked := false }) other)
      rfl
    · rfl

/-- A core that takes up a context is held for it. -/
theorem State.modCsq_holds (s : State) {p y : Nat} {g : Csq → Csq} (phase : ∀ q, (g q).phase = .hold) (ctx : ∀ q, (g q).ctx = y) :
    (s.modCsq p g).HoldsFor p y := by
  have used : { s.core p with csq := g (s.core p).csq } ≠ Core.init := fun idle => by
    have held := phase (s.core p).csq
    rw [show g (s.core p).csq = Core.init.csq from congrArg Core.csq idle] at held
    cases held
  have new : (s.modCsq p g).core p = { s.core p with csq := g (s.core p).csq } := SMap.get_set_listed _ _ _ used
  unfold State.HoldsFor
  rw [new]
  exact ⟨phase _, ctx _⟩

theorem State.startCtx_holds (s : State) (p y : Nat) : (s.startCtx p y).HoldsFor p y := by
  unfold State.startCtx
  dsimp only
  refine (State.HoldsFor.of_cores ?_ ((Keeps.switchDone (Keeps.refl _) (hm := Sub.refl _)).frame .cores rfl)).segPermit _ _
  exact State.modCsq_holds _ (fun _ => rfl) (fun _ => rfl)

theorem State.startCtx_other (s : State) (p : Nat) {x y : Nat} (other : x ≠ y) : (s.startCtx p y).ctx x = s.ctx x := by
  have span (t : State) (j : Option Nat) : Keeps 2048 t (t.takeSpan j).1 := Keeps.takeSpan (Keeps.refl t) (hm := Sub.refl _)
  unfold State.startCtx
  dsimp only
  refine (State.ctx_of_ctxs ((Keeps.segPermit (Keeps.refl _) (hm := Sub.refl _)).frame .ctxs rfl) x).trans ?_
  refine (State.ctx_of_ctxs ((Keeps.switchDone (Keeps.refl _) (hm := Sub.refl _)).frame .ctxs rfl) x).trans ?_
  refine (State.ctx_of_ctxs ((Keeps.modCsq (Keeps.refl _) (hm := Sub.refl _)).frame .ctxs rfl) x).trans ?_
  refine (State.ctx_of_ctxs ((span _ _).frame .ctxs rfl) x).trans ?_
  exact (State.setBlocked_other _ _ other).trans (State.modCtx_other s _ other)

theorem State.judgeBlocked_other {s : State} {p x y : Nat} (holds : s.HoldsFor p y) (other : x ≠ y) : (s.judgeBlocked p).ctx x = s.ctx x := by
  obtain ⟨phase, ctx⟩ := holds
  unfold State.judgeBlocked
  simp only [phase, ctx]
  exact State.setBlocked_other s _ other

/-- The context that has been READY longest is one that may run. -/
theorem State.longestReady_mem {s : State} {p y : Nat} (longest : s.longestReady p = some y) : ∃ c, (y, c) ∈ s.ctxs ∧ c.canRun = true := by
  have pick : ∀ (l : List (Nat × Ctx)) (best : Option Nat), l.foldl (fun (best : Option Nat) q =>
      match best with
      | some b => if q.2.readyFrom < (s.ctx b).readyFrom then some q.1 else best
      | none => some q.1) best = some y → best = some y ∨ ∃ c, (y, c) ∈ l := by
    intro l
    induction l with
    | nil => exact fun _ h => .inl h
    | cons q l ih =>
      intro best h
      obtain now | ⟨c, hc⟩ := ih _ h
      · have new : best = some y ∨ q.1 = y := by
          dsimp only at now
          split at now
          · split at now
            · exact .inr (Option.some.inj now)
            · exact .inl now
          · exact .inr (Option.some.inj now)
        exact new.imp_right fun eq => ⟨q.2, by rw [← eq]; exact List.mem_cons_self⟩
      · exact .inr ⟨c, List.mem_cons_of_mem _ hc⟩
  obtain none | ⟨c, hc⟩ := pick _ _ longest
  · cases none
  · obtain ⟨on, runs⟩ := List.mem_filter.mp hc
    exact ⟨c, (List.mem_filter.mp on).1, runs⟩

/-- A listed entry of a map in canonical form is what its key reads as. -/
theorem SMap.get_mem {α : Type} (d : α) {m : SMap α} {lo : Nat} (rising : SMap.rising lo m = true) {k : Nat} {v : α} (mem : (k, v) ∈ m) :
    SMap.get d m k = v := by
  induction m generalizing lo with
  | nil => cases mem
  | cons e m ih =>
    obtain ⟨j, a⟩ := e
    obtain ⟨-, rest⟩ := Bool.and_eq_true_iff.mp rising
    obtain same | later := List.mem_cons.mp mem
    · obtain ⟨rfl, rfl⟩ := Prod.mk.inj same
      exact if_pos rfl
    · by_cases hj : j = k
      · subst hj
        have above : ∀ {n : Nat} {l : SMap α}, SMap.rising n l = true → ∀ q ∈ l, n ≤ q.1 := by
          intro n l
          induction l generalizing n with
          | nil => exact fun _ q hq => absurd hq List.not_mem_nil
          | cons b l ih =>
            intro h q hq
            obtain ⟨first, rest⟩ := Bool.and_eq_true_iff.mp h
            obtain rfl | hq := List.mem_cons.mp hq
            · exact of_decide_eq_true first
            · exact Nat.le_trans (Nat.le_succ_of_le (of_decide_eq_true first)) (ih rest q hq)
        exact absurd (above rest _ later) (Nat.not_succ_le_self j)
      · exact (if_neg hj).trans (ih rest later)

/-- The context that a core starts is one that may run. -/
theorem State.chooseNext_canRun {s : State} {p y : Nat} (rising : SMap.rising 0 s.ctxs = true) (chosen : s.chooseNext p = some y) :
    (s.ctx y).canRun = true := by
  unfold State.chooseNext at chosen
  split at chosen
  · next found =>
    obtain rfl := Option.some.inj chosen
    exact List.find?_some (p := fun x => (s.ctx x).canRun) found
  · obtain ⟨c, mem, runs⟩ := State.longestReady_mem chosen
    rw [State.ctx, SMap.get_mem Ctx.init rising mem]
    exact runs

/-- A core that takes up work leaves a context that may not run. -/
theorem State.kick_other {s : State} (rising : SMap.rising 0 s.ctxs = true) (p : Nat) {x : Nat} (idle : (s.ctx x).canRun = false) :
    (s.kick p).ctx x = s.ctx x := by
  unfold State.kick
  split
  · split
    · next y chosen =>
      have other : x ≠ y := fun same => by
        rw [same, State.chooseNext_canRun rising chosen] at idle
        cases idle
      exact (State.judgeBlocked_other (s.startCtx_holds p y) other).trans (s.startCtx_other p other)
    · rfl
  · rfl

/-! ### The release of a context (R188) -/

theorem State.setCtx_rising {s : State} (rising : SMap.rising 0 s.ctxs = true) (x : Nat) (c : Ctx) : SMap.rising 0 (s.setCtx x c).ctxs = true :=
  SMap.rising_mod (d := Ctx.init) rising x fun _ => c

theorem State.ctx_setCtx_same {s : State} (rising : SMap.rising 0 s.ctxs = true) (x : Nat) (c : Ctx) : (s.setCtx x c).ctx x = c :=
  SMap.get_set_same Ctx.init rising x c

/-- Contexts that lose their rows keep the list of contexts in order. -/
theorem State.loseIntact_rising {s : State} (rising : SMap.rising 0 s.ctxs = true) (p x rb n hb k : Nat) :
    SMap.rising 0 (s.loseIntact p x rb n hb k).ctxs = true := by
  have step : ∀ (l : List (Nat × Ctx)) (t : State), SMap.rising 0 t.ctxs = true → SMap.rising 0 (l.foldl (fun s q => s.modCtx q.1 fun c =>
      { c with intact := false, gone := (c.gone ++ c.window.filter fun r => inRows rb n r).eraseDups }) t).ctxs = true := by
    intro l
    induction l with
    | nil => exact fun _ h => h
    | cons q l ih => exact fun t h => ih _ (State.setCtx_rising h q.1 _)
  exact step _ s rising

/-- A released context is in its reset state. -/
theorem State.releaseCtx_free {s : State} (rising : SMap.rising 0 s.ctxs = true) (x : Nat) : (s.releaseCtx x).ctx x = Ctx.init := by
  unfold State.releaseCtx
  extract_lets c p others own cleared lost freed done
  have rising₁ : SMap.rising 0 lost.ctxs = true := by
    refine State.loseIntact_rising ?_ _ _ _ _ _ _
    have kept : cleared.ctxs = s.ctxs := (Keeps.releaseHandles (Keeps.zeroRowsOf (Keeps.refl s) (hm := Sub.refl _)) (hm := Sub.refl _)).frame .ctxs rfl
    rw [kept]
    exact rising
  have ended (l : List CtxOp) (t : State) : (l.foldl (fun s o => s.endOp o stCompleted) t).ctxs = t.ctxs :=
    foldl_view State.ctxs _ (fun u o => (Keeps.endOp (Keeps.refl u) (hm := Sub.refl _)).frame .ctxs rfl) l t
  have free : (done.foldl (fun s o => s.endOp o stCompleted) freed).ctx x = Ctx.init :=
    (State.ctx_of_ctxs (ended done freed) x).trans (State.ctx_setCtx_same rising₁ x Ctx.init)
  refine (State.kick_other ?_ p ?_).trans free
  · rw [ended]
    exact State.setCtx_rising rising₁ x Ctx.init
  · rw [free]
    rfl

/-! ### Ends of commands (R172, R188, R404, R413) -/

section
variable {s : State} {x : Nat} {ue : List Nat} {up : Upsets} {o : CtxOp}

theorem State.bindingComplete_ends (found : (s.opIn .bind fun o => coCtx o.desc = x) = some o) : exec (.bindingComplete x ue) s =
    .next (s.whenFetched fun _ => ((((s.loadAll x ue).restCtx x).endOp o stCompleted).kick (s.physOf (s.ctx x).core)).settleOps) := by
  show execBindingComplete x ue s = _
  unfold execBindingComplete
  simp only [found]
  exact congrArg Host.Outcome.next (State.whenFetched_at s _)

theorem State.restoreComplete_found (found : (s.opIn .restore fun o => coCtx o.desc = x) = some o) : exec (.restoreComplete x ue) s =
    .next (if s.fillPending (s.physOf (s.ctx x).core) x (s.ctx x).rowBase (hdRowSpan (s.ctx x).header) (s.ctx x).handleBase
        (hdHandleCount (s.ctx x).header) then s
      else s.whenFetched fun _ => (s.finishRestore o ue).settleOps) := by
  show execRestoreComplete x ue s = _
  unfold execRestoreComplete
  simp only [found]
  rw [State.whenFetched_at]

theorem State.spillComplete_found (found : (s.opIn .spill fun o => coOut o.desc = x) = some o) : exec (.spillComplete x up) s =
    .next (if (decide (1024 * s.reg 0x2000 5 < s.imageSize x) && !s.holdsPermit ⟨.hbm, .spill x⟩) = true then s
      else (s.finishSpill o up).settleOps) := by
  show execSpillComplete x up s = _
  unfold execSpillComplete
  simp only [found]

end

/-- A core all of whose resident contexts have been blocked for blocked_time has not said so. -/
theorem State.allBlocked_due {s : State} {p : Nat} (some : s.residents p ≠ []) (unsaid : (s.core p).csq.said = false)
    (blocked : ∀ q ∈ s.residents p, q.2.blocked = true)
    (long : usCycles (s.reg 0x7000 2) ≤ (s.residents p).foldl (fun m q => min m (s.now - q.2.blockedFrom)) s.now) :
    ((s.residents p).isEmpty || (s.core p).csq.said || (s.residents p).any (fun q => !q.2.blocked)
      || decide ((s.residents p).foldl (fun m q => min m (s.now - q.2.blockedFrom)) s.now < usCycles (s.reg 0x7000 2))) = false := by
  have one : (s.residents p).isEmpty = false := by simpa using some
  have all : (s.residents p).any (fun q => !q.2.blocked) = false :=
    List.any_eq_false.mpr fun q hq => by rw [blocked q hq]; exact Bool.false_ne_true
  rw [one, unsaid, all, decide_eq_false (Nat.not_lt.mpr long)]
  rfl

/-- Settles O48: an event of no command changes nothing, and a released context is not the one that its core then takes up. -/
theorem contextEventsComplete : Obligations.ContextEventsComplete := by
  unfold Obligations.ContextEventsComplete
  refine ⟨fun s x ue => ⟨fun none => ?_, fun none => ?_, fun o => ⟨State.bindingComplete_ends, fun found => ⟨fun waits => ?_, fun waits => ?_⟩⟩⟩,
    fun s x up => ⟨fun none => ?_, fun o found => ⟨fun held => ?_, fun large lacks => ?_⟩⟩,
    fun s x => ⟨fun dying => congrArg Host.Outcome.next (if_pos dying), fun alive => congrArg Host.Outcome.next (if_neg alive),
      fun rising => State.releaseCtx_free rising x⟩,
    fun s p => ⟨fun some unsaid blocked long => ⟨fun x c waiting => ?_, fun none => ?_⟩, fun quiet => congrArg Host.Outcome.next (if_pos ?_)⟩⟩
  · refine congrArg Host.Outcome.next ?_
    simp only [none]
  · refine congrArg Host.Outcome.next ?_
    simp only [none]
  · rw [State.restoreComplete_found found, waits, if_pos rfl]
  · rw [State.restoreComplete_found found, waits, if_neg Bool.false_ne_true]
  · refine congrArg Host.Outcome.next ?_
    simp only [none]
  · rw [State.spillComplete_found found, if_neg]
    rw [Bool.and_eq_true, decide_eq_true_eq, Bool.not_eq_true']
    rintro ⟨large, lacks⟩
    obtain small | holds := held
    · exact absurd large (Nat.not_lt.mpr small)
    · rw [holds] at lacks
      cases lacks
  · rw [State.spillComplete_found found, if_pos]
    rw [lacks, decide_eq_true large]
    rfl
  · refine congrArg Host.Outcome.next ((if_neg (Bool.eq_false_iff.mp (State.allBlocked_due some unsaid blocked long))).trans ?_)
    simp only [waiting]
  · refine congrArg Host.Outcome.next ((if_neg (Bool.eq_false_iff.mp (State.allBlocked_due some unsaid blocked long))).trans ?_)
    simp only [none]
  · obtain none | said | ⟨q, hq, runs⟩ | short := quiet
    · simp [none]
    · simp [said]
    · have any : (s.residents p).any (fun q => !q.2.blocked) = true := List.any_eq_true.mpr ⟨q, hq, by rw [runs]; rfl⟩
      simp [any]
    · rw [decide_eq_true short, Bool.or_true]

end Sys2Proof.Machine
end

section
/-! Proofs of chapter 10: row repairs and page remaps (R338 to R346). -/
set_option Elab.async false
namespace Sys2Proof.Machine

/-! ### What a mark leaves of a range (R343) -/

theorem State.act_repair (s : State) (acc : Nat) (bytes : List Byte) (e : Env) : s.act acc 0x3100 2 0 bytes e = s.repairOp (leNat bytes) := rfl

/-- An accepted write of repair_op takes the next mark, and the operation begins. -/
theorem State.scalarWrite_repair {s : State} {acc v : Nat} (takes : s.TakesScalar acc 0x3100 2 v) (e : Env) :
    s.scalarWrite acc 0x3100 2 v e = ((s.marked acc).repairOp v).saysDone acc 0x3100 2 := by
  obtain ⟨bytes, value, ran⟩ := State.scalarWrite_acts takes (by decide) (by decide) (by decide) e
  exact ran.trans (congrArg (fun n => ((s.marked acc).repairOp n).saysDone acc 0x3100 2) value)

/-- A mark counts at no entry of chapter 10. -/
theorem State.marked_memory (s : State) (acc : Nat) {i j : Nat} (memory : i < 0x6800) (small : j < 256) : (s.marked acc).reg i j = s.reg i j :=
  s.marked_reg acc (by unfold dkey; omega) fun p _ => by unfold dkey; omega

theorem rangeIdx_lt (w : Nat) : rangeIdx (locRange w) < 0x6800 := by
  unfold rangeIdx locRange
  split <;> omega

@[simp] theorem State.marked_range (s : State) (acc u : Nat) : (s.marked acc).range u = s.range u := by
  unfold State.range
  rw [State.marked_tiers]

@[simp] theorem State.marked_sparesLeft (s : State) (acc w : Nat) : (s.marked acc).sparesLeft w = s.sparesLeft w := by
  unfold State.sparesLeft
  rw [State.marked_range]

@[simp] theorem State.marked_rangeSize (s : State) (acc w : Nat) : (s.marked acc).rangeSize (locRange w) = s.rangeSize (locRange w) :=
  State.marked_memory s acc (rangeIdx_lt w) (by decide)

section
variable {s : State} {acc : Nat} {f : State → Nat → Nat → State}

/-- A range in another state than normal is busy. -/
theorem State.beginRepair_busy (busy : s.reg (rangeIdx (locRange (s.reg 0x3100 1))) 9 ≠ 0) :
    (s.marked acc).beginRepair f = (s.marked acc).setReg 0x3100 3 5 := by
  unfold State.beginRepair
  dsimp only
  rw [State.marked_memory s acc (by decide : 0x3100 < 0x6800) (by decide), State.marked_memory s acc (rangeIdx_lt _) (by decide), if_pos busy]

/-- A normal range is repaired. -/
theorem State.beginRepair_normal (normal : s.reg (rangeIdx (locRange (s.reg 0x3100 1))) 9 = 0) :
    (s.marked acc).beginRepair f = f (s.marked acc) (s.reg 0x3100 1) (locRange (s.reg 0x3100 1)) := by
  unfold State.beginRepair
  dsimp only
  rw [State.marked_memory s acc (by decide : 0x3100 < 0x6800) (by decide), State.marked_memory s acc (rangeIdx_lt _) (by decide),
    if_neg (not_not_intro normal)]

end

/-- Each operation begins on a range that is normal. -/
theorem State.repairOp_begins {v : Nat} (one : v = 1 ∨ v = 2 ∨ v = 3 ∨ v = 4) : ∃ f, ∀ t : State, t.repairOp v = t.beginRepair f := by
  obtain rfl | rfl | rfl | rfl := one
  · exact ⟨_, State.rowRepair.eq_1⟩
  · exact ⟨_, State.pageRemap.eq_1⟩
  · exact ⟨_, State.querySpares.eq_1⟩
  · exact ⟨_, State.clearSuspect.eq_1⟩

section
variable {s : State} {acc v : Nat} (takes : s.TakesScalar acc 0x3100 2 v)
include takes

theorem State.repair_busy (some : v = 1 ∨ v = 2 ∨ v = 3 ∨ v = 4) (busy : s.reg (rangeIdx (locRange (s.reg 0x3100 1))) 9 ≠ 0) :
    s.scalarWrite acc 0x3100 2 v = ((s.marked acc).setReg 0x3100 3 5).saysDone acc 0x3100 2 := by
  obtain ⟨f, op⟩ := State.repairOp_begins some
  rw [State.scalarWrite_repair takes, op, State.beginRepair_busy busy]

theorem State.repair_normal {f : State → Nat → Nat → State} (op : ∀ t : State, t.repairOp v = t.beginRepair f) (normal : s.reg (rangeIdx (locRange (s.reg 0x3100 1))) 9 = 0) :
    s.scalarWrite acc 0x3100 2 v = (f (s.marked acc) (s.reg 0x3100 1) (locRange (s.reg 0x3100 1))).saysDone acc 0x3100 2 := by
  rw [State.scalarWrite_repair takes, op, State.beginRepair_normal normal]

end

/-- The pages that hold a row's data begin with the one that its location word names. -/
theorem locPages_cons (w : Nat) : ∃ ps, locPages w = locPage w :: ps := ⟨_, rfl⟩

/-- The first page of a repair that needs a copy waits for it. -/
theorem State.retireNext_copies {s : State} {u w p : Nat} {l ps : List Nat} (first : l = p :: ps) (other : p ≠ s.rangeSize u / pageSize - 1) :
    s.retireNext u w l = s.modRange u fun r => { r with repair := some ⟨2, BitVec.ofNat 64 w, l, false, []⟩ } := by
  rw [first, State.retireNext, if_neg other]

/-- A repair that begins leaves the size of its range. -/
theorem State.begun_rangeSize (s : State) (w : Nat) :
    (((s.setRangeState (locRange w) 1).setReg 0x3100 3 1).rangeSize (locRange w)) = s.rangeSize (locRange w) := by
  refine (State.reg_setReg_other (s := s.setRangeState (locRange w) 1) 1 ?_).trans (State.reg_setReg_other (s := s) 1 ?_)
  · unfold dkey
    omega
  · unfold dkey
    omega

/-! ### Copies (R344, R345) -/

/-- The reads of a copy change the queues of channels alone. -/
theorem State.copyReads_frame (s : State) (u : Nat) (l : List Nat) :
    (s.copyTraffic u false l).tiers.ranges = s.tiers.ranges ∧ (s.copyTraffic u false l).regs = s.regs :=
  ⟨foldl_view (fun t : State => t.tiers.ranges) (fun t o => t.request u o .read false 255 (unitMask u o (t.range u).poison))
      (fun _ _ => rfl) l s,
    foldl_view State.regs (fun t o => t.request u o .read false 255 (unitMask u o (t.range u).poison)) (fun _ _ => rfl) l s⟩

/-- The granules of a row are those of its range and layout. -/
theorem State.rowGranules_congr {s t : State} (ranges : t.tiers.ranges = s.tiers.ranges) (regs : t.regs = s.regs) (u w : Nat) :
    t.rowGranules u w = s.rowGranules u w := by
  unfold State.rowGranules State.active State.rangeSize State.range State.reg
  rw [ranges, regs]

/-! ### Retired pages (R345, R346) -/

/-- A page's data that lie at no other place are its own. -/
theorem pageHeld_direct (size p : Nat) : (pageHeld [] size p).getD p = p := by
  unfold pageHeld
  simp only [List.find?_nil, List.any_nil, Bool.or_false]
  split <;> rfl

/-- What the retirement of one page leaves of the remap table and the size. -/
theorem retirePages_one (m : SMap Nat) (size p : Nat) :
    let t := size / pageSize - 1
    let q := (pageHeld m size p).getD p
    retirePages [p] m size =
      (if q = t then SMap.erase m t else if t < q then m else SMap.insert (SMap.erase m t) q (SMap.get t m t),
        if q ≤ t then size - pageSize else size) := by
  dsimp only
  rw [retirePages]
  by_cases last : (pageHeld m size p).getD p = size / pageSize - 1
  · rw [if_pos last, if_pos last, if_pos (Nat.le_of_eq last)]
    rfl
  · by_cases beyond : size / pageSize - 1 < (pageHeld m size p).getD p
    · rw [if_neg last, if_neg last, if_pos beyond, if_pos beyond, if_neg (Nat.not_le.mpr beyond)]
      rfl
    · rw [if_neg last, if_neg last, if_neg beyond, if_neg beyond, if_pos (Nat.not_lt.mp beyond)]
      rfl

/-- An entry in canonical form is no wider than its type. -/
theorem Regs.reg_lt {s : State} (wf : Regs.wf s.regs = true) (i j : Nat) (default : regDefault (dkey i j) < 2 ^ regBits (dkey i j)) :
    s.reg i j < 2 ^ regBits (dkey i j) := by
  obtain ⟨-, all⟩ := Bool.and_eq_true_iff.mp wf
  have listed : ∀ {m : SMap Nat}, (m.all fun q => decide (q.2 ≠ regDefault q.1) && decide (q.2 < 2 ^ regBits q.1)) = true →
      SMap.get (regDefault (dkey i j)) m (dkey i j) < 2 ^ regBits (dkey i j) := by
    intro m
    induction m with
    | nil => exact fun _ => default
    | cons e m ih =>
      intro h
      obtain ⟨first, rest⟩ := Bool.and_eq_true_iff.mp h
      rw [SMap.get]
      split
      · next same =>
        rw [← same]
        exact of_decide_eq_true (Bool.and_eq_true_iff.mp first).2
      · exact ih rest
  exact listed all

/-- A range takes a remap table and a size. -/
def State.takesTable (s : State) (u : Nat) (m : SMap Nat) (size : Nat) : State :=
  (((s.modRange u fun r => { r with remap := m }).setReg (rangeIdx u) 1 size).bump (rangeIdx u) 4 1).setReg (rangeIdx u) 5 m.length

/-- A retirement gives a range its table and size, and drops the poison beyond it. -/
theorem State.retirePage_eq (s : State) (u p : Nat) :
    let x := retirePages [p] (s.range u).remap (s.rangeSize u)
    let t := s.takesTable u x.1 x.2
    s.retirePage u p = t.setPoison u ((t.range u).poison.filter fun a => 32 * a - rangeBase u < x.2) := rfl

theorem State.takesTable_size {s : State} (wf : Regs.wf s.regs = true) (u : Nat) (m : SMap Nat) (size : Nat) :
    (s.takesTable u m size).reg (rangeIdx u) 1 = size % 2 ^ regBits (dkey (rangeIdx u) 1) := by
  unfold State.takesTable
  rw [State.reg_setReg_other _ (by unfold dkey; omega), State.bump, State.reg_setReg_other _ (by unfold dkey; omega)]
  exact State.reg_setReg_same (s := s.modRange u fun r => { r with remap := m }) wf _ _ _

theorem State.setPoison_size (s : State) (u : Nat) (l : List Nat) : (s.setPoison u l).rangeSize u = s.reg (rangeIdx u) 1 :=
  State.reg_setReg_other (s := s.modRange u fun r => { r with poison := l }) l.length (by unfold dkey; omega)

/-- The table of a range that has been given one. -/
theorem State.takesTable_remap {s : State} (rising : SMap.rising 0 s.tiers.ranges = true) (u : Nat) (m : SMap Nat) (size : Nat) (l : List Nat) :
    (((s.takesTable u m size).setPoison u l).range u).remap = m := by
  have first : (s.takesTable u m size).range u = { s.range u with remap := m } := SMap.get_set_same Range.init rising u _
  have rising' : SMap.rising 0 (s.takesTable u m size).tiers.ranges = true := SMap.rising_mod rising u fun r => { r with remap := m }
  have second : ((s.takesTable u m size).setPoison u l).range u = { (s.takesTable u m size).range u with poison := l } :=
    SMap.get_set_same Range.init rising' u _
  rw [second, first]

/-- A retired page leaves a range of normal form with the table and the size that the retirement gives. -/
theorem State.retirePage_leaves {s : State} {u : Nat} (known : u < 8) (wf : Regs.wf s.regs = true)
    (rising : SMap.rising 0 s.tiers.ranges = true) (p : Nat) :
    ((s.retirePage u p).range u).remap = (retirePages [p] (s.range u).remap (s.rangeSize u)).1
      ∧ (s.retirePage u p).rangeSize u = (retirePages [p] (s.range u).remap (s.rangeSize u)).2 := by
  rw [s.retirePage_eq]
  refine ⟨State.takesTable_remap rising _ _ _ _, ?_⟩
  rw [State.setPoison_size, State.takesTable_size wf]
  have defaults : ∀ k, k < 8 → regDefault (dkey (rangeIdx k) 1) < 2 ^ regBits (dkey (rangeIdx k) 1) := by decide +kernel
  have default := defaults u known
  have small : s.rangeSize u < 2 ^ regBits (dkey (rangeIdx u) 1) := Regs.reg_lt wf _ _ default
  refine Nat.mod_eq_of_lt ?_
  rw [retirePages_one]
  dsimp only
  split
  · exact Nat.lt_of_le_of_lt (Nat.sub_le _ _) small
  · exact small

/-! ### O42 -/

/-- The end of a row repair: the row is written back, and has taken a spare one. -/
theorem State.rowRepairComplete_found {s : State} {lost : List Nat} {u : Nat} {r : Repair} (found : s.repairing 1 = some (u, r)) :
    let w := r.loc.toNat
    let bad := (s.unitsIn u lost).filter fun o => s.locWord u o / 2 ^ 30 = w / 2 ^ 30 && !r.seen.contains ((rangeBase u + o) / 32)
    let t := bad.foldl (fun s o => (s.countLost u o true).poisonUnit u o) s
    let v := ((t.copyTraffic u false (t.rowGranules u w)).copyTraffic u true
      ((t.copyTraffic u false (t.rowGranules u w)).rowGranules u w)).modChan u (locChan w) fun c => { c with repaired := c.repaired + 1 }
    exec (.rowRepairComplete lost) s = .next ((v.modRange u fun x => { x with
      failing := x.failing.filter (· ≠ w >>> 30), spares := SMap.mod 0 x.spares (w / 2 ^ 49) (· + 1) }).repairDone w 2) := by
  intro w bad t v
  have rows : (t.copyTraffic u false (t.rowGranules u w)).rowGranules u w = t.rowGranules u w :=
    State.rowGranules_congr (t.copyReads_frame u _).1 (t.copyReads_frame u _).2 u w
  refine congrArg Host.Outcome.next ?_
  simp only [found]
  simp only [v, rows]
  rfl

/-- The end of a page's copy: the page is retired, and the next one is taken up. -/
theorem State.pageRemapComplete_found {s : State} {lost : List Nat} {u p : Nat} {r : Repair} {ps : List Nat}
    (found : s.repairing 2 = some (u, r)) (pages : r.pages = p :: ps) :
    let own := (s.unitsIn u lost).filter fun o => o / pageSize = p
    let bad := (s.lostInPage u p).filter fun o => !own.contains o
    let t := bad.foldl (fun s o => (s.countLost u o false).poisonUnit u o)
      (own.foldl (fun s o => (s.countLost u o true).poisonUnit u o) s)
    let v := ((((t.chargeMove u u pageSize).copyTraffic u false (pageGranules p)).retirePage u p).copyTraffic u true (pageGranules p))
    (ps = [] → exec (.pageRemapComplete lost) s = .next ((v.modRange u fun x =>
      { x with retired := (x.retired ++ [r.loc]).take 128 }).repairDone r.loc.toNat 2))
    ∧ (∀ q qs, ps = q :: qs → q ≠ v.rangeSize u / pageSize - 1 → exec (.pageRemapComplete lost) s =
      .next (v.modRange u fun x => { x with repair := some ⟨2, r.loc, ps, false, []⟩ })) := by
  intro own bad t v
  have word : BitVec.ofNat 64 r.loc.toNat = r.loc := BitVec.eq_of_toNat_eq (by rw [BitVec.toNat_ofNat, Nat.mod_eq_of_lt r.loc.isLt])
  have ran : exec (.pageRemapComplete lost) s = .next (v.retireNext u r.loc.toNat ps) := by
    refine congrArg Host.Outcome.next ?_
    simp only [found, pages]
    rfl
  refine ⟨fun last => ?_, fun q qs next other => ?_⟩
  · rw [ran, last, State.retireNext, word]
  · rw [ran, State.retireNext_copies next other, word]

/-- Settles O42: the operations on a range that is normal, their ends, and the retirement of one page. -/
theorem repairsRetireRowsAndPages : Obligations.RepairsRetireRowsAndPages := by
  unfold Obligations.RepairsRetireRowsAndPages
  refine ⟨fun s acc => ⟨fun takes => ?_, fun takes => ?_, fun takes => ?_, fun takes => ?_⟩, fun s lost => ⟨fun none => ?_, fun u r found => ?_⟩,
    fun s lost => ⟨fun none => ?_, fun u r p ps found pages => ?_⟩, fun s u p known wf rising => ?_⟩
  · refine ⟨fun normal spare => ?_, fun normal none => ?_, fun busy => congrArg Host.Outcome.next (State.repair_busy takes (by decide) busy)⟩
    · refine congrArg Host.Outcome.next ((State.repair_normal takes State.rowRepair.eq_1 normal).trans ?_)
      rw [State.marked_sparesLeft, if_neg spare]
    · refine congrArg Host.Outcome.next ((State.repair_normal takes State.rowRepair.eq_1 normal).trans ?_)
      rw [State.marked_sparesLeft, if_pos none]
  · refine ⟨fun busy => congrArg Host.Outcome.next (State.repair_busy takes (by decide) busy), fun normal => ⟨fun long => ?_, fun short other => ?_⟩⟩
    · refine congrArg Host.Outcome.next ((State.repair_normal takes State.pageRemap.eq_1 normal).trans ?_)
      dsimp only
      rw [State.marked_range, State.marked_rangeSize, if_pos long]
    · refine congrArg Host.Outcome.next ((State.repair_normal takes State.pageRemap.eq_1 normal).trans ?_)
      dsimp only
      rw [State.marked_range, State.marked_rangeSize, if_neg (Nat.not_lt.mpr short)]
      obtain ⟨ps, first⟩ := locPages_cons (s.reg 0x3100 1)
      rw [State.retireNext_copies first (by rw [State.begun_rangeSize, State.marked_rangeSize]; exact other)]
  · refine ⟨fun normal => ?_, fun busy => congrArg Host.Outcome.next (State.repair_busy takes (by decide) busy)⟩
    refine congrArg Host.Outcome.next ((State.repair_normal takes State.querySpares.eq_1 normal).trans ?_)
    rw [State.marked_sparesLeft]
  · refine ⟨fun normal => ?_, fun busy => congrArg Host.Outcome.next (State.repair_busy takes (by decide) busy)⟩
    refine congrArg Host.Outcome.next ((State.repair_normal takes State.clearSuspect.eq_1 normal).trans ?_)
    dsimp only
    rw [State.marked_memory s acc (rangeIdx_lt _) (by decide)]
  · exact congrArg Host.Outcome.next (by simp only [none])
  · exact State.rowRepairComplete_found found
  · exact congrArg Host.Outcome.next (by simp only [none])
  · obtain ⟨last, next⟩ := State.pageRemapComplete_found (lost := lost) found pages
    exact ⟨last, next⟩
  · obtain ⟨remap, size⟩ := State.retirePage_leaves known wf rising p
    rw [retirePages_one] at remap size
    refine ⟨fun inside => size.trans (if_pos inside), remap, fun none first => ?_⟩
    rw [remap, none, pageHeld_direct, if_neg (Nat.ne_of_lt first), if_neg (Nat.lt_asymm first)]
    rfl

end Sys2Proof.Machine
end

section
/-! Proofs of chapter 10: map-out, reflows and the test port of a stack (R347 to R354). -/
set_option Elab.async false
namespace Sys2Proof.Machine

/-! ### Plans, starts and cancels (R347, R349) -/

theorem State.act_mapout (s : State) (acc : Nat) (bytes : List Byte) (e : Env) : s.act acc 0x3200 4 0 bytes e = s.mapoutOp (leNat bytes) := rfl

/-- An accepted write of mapout_op takes the next mark, and the operation begins. -/
theorem State.scalarWrite_mapout {s : State} {acc v : Nat} (takes : s.TakesScalar acc 0x3200 4 v) :
    s.scalarWrite acc 0x3200 4 v = ((s.marked acc).mapoutOp v).saysDone acc 0x3200 4 := by
  obtain ⟨bytes, value, ran⟩ := State.scalarWrite_acts takes (by decide) (by decide) (by decide) Env.none
  exact ran.trans (congrArg (fun n => ((s.marked acc).mapoutOp n).saysDone acc 0x3200 4) value)

theorem rangeIdx_small {u : Nat} (known : u < 8) : 0x3010 ≤ rangeIdx u ∧ rangeIdx u < 0x3020 := by
  unfold rangeIdx
  split <;> omega

@[simp] theorem State.marked_mapoutRange (s : State) (acc : Nat) : (s.marked acc).mapoutRange = s.mapoutRange := by
  unfold State.mapoutRange
  rw [State.marked_memory s acc (by decide) (by decide)]

theorem State.mapoutRange_lt (s : State) : s.mapoutRange < 8 := Nat.mod_lt _ (by decide)

@[simp] theorem State.marked_planOf (s : State) (acc mask : Nat) : (s.marked acc).planOf s.mapoutRange mask = s.planOf s.mapoutRange mask := by
  have small := rangeIdx_small s.mapoutRange_lt
  unfold State.planOf State.active
  rw [State.marked_memory s acc (by omega) (by decide), State.marked_range]

section
variable (s : State) (acc : Nat)

theorem State.marked_state : (s.marked acc).reg (rangeIdx s.mapoutRange) 9 = s.reg (rangeIdx s.mapoutRange) 9 := by
  have small := rangeIdx_small s.mapoutRange_lt
  exact State.marked_memory s acc (by omega) (by decide)

theorem State.planReflow_busy (busy : s.reg (rangeIdx s.mapoutRange) 9 ≠ 0) :
    (s.marked acc).planReflow = (s.marked acc).setReg 0x3200 5 5 := by
  unfold State.planReflow
  simp only [State.marked_mapoutRange, State.marked_state]
  exact if_pos busy

theorem State.planReflow_none (normal : s.reg (rangeIdx s.mapoutRange) 9 = 0) (none : s.planOf s.mapoutRange (s.reg 0x3200 2) = none) :
    (s.marked acc).planReflow = (s.marked acc).setReg 0x3200 5 4 := by
  unfold State.planReflow
  simp only [State.marked_mapoutRange, State.marked_state, State.marked_memory s acc (show 0x3200 < 0x6800 by decide) (show 2 < 256 by decide),
    State.marked_planOf, none]
  exact if_neg (not_not_intro normal)

theorem State.planReflow_some (normal : s.reg (rangeIdx s.mapoutRange) 9 = 0) {p : Plan} (plan : s.planOf s.mapoutRange (s.reg 0x3200 2) = some p) :
    (s.marked acc).planReflow = if 64 < p.remap.length then (s.marked acc).setReg 0x3200 5 4
      else (((((s.marked acc).modRange s.mapoutRange fun r => { r with plan := some p }).setReg 0x3200 6 p.size).setReg 0x3200 5 1).setRangeState
        s.mapoutRange 2) := by
  unfold State.planReflow
  simp only [State.marked_mapoutRange, State.marked_state, State.marked_memory s acc (show 0x3200 < 0x6800 by decide) (show 2 < 256 by decide),
    State.marked_planOf, plan]
  exact if_neg (not_not_intro normal)

theorem State.startReflow_busy (busy : s.reg (rangeIdx s.mapoutRange) 9 ≠ 2) :
    (s.marked acc).startReflow = (s.marked acc).setReg 0x3200 5 5 := by
  unfold State.startReflow
  simp only [State.marked_mapoutRange, State.marked_state]
  exact if_pos busy

/-- What the start of a reflow reads stands while its range takes it. -/
theorem State.startReflow_planned (planned : s.reg (rangeIdx s.mapoutRange) 9 = 2) : (s.marked acc).startReflow =
    ((((s.marked acc).modRange s.mapoutRange fun x =>
      { x with reflow := some ⟨(s.range s.mapoutRange).remap.map (·.1), chanBytes s.mapoutRange / 256, s.now, s.reg 0x3200 3, []⟩ }).setReg
        0x3200 5 2).setReg 0x3200 7 (chanBytes s.mapoutRange / 256)).setRangeState s.mapoutRange 3 := by
  unfold State.startReflow
  simp only [State.marked_mapoutRange, State.marked_state, State.marked_range, State.marked_now,
    State.marked_memory s acc (show 0x3200 < 0x6800 by decide) (show 3 < 256 by decide)]
  exact if_neg (not_not_intro planned)

theorem State.cancelPlan_busy (busy : s.reg (rangeIdx s.mapoutRange) 9 ≠ 2) :
    (s.marked acc).cancelPlan = (s.marked acc).setReg 0x3200 5 5 := by
  unfold State.cancelPlan
  simp only [State.marked_mapoutRange, State.marked_state]
  exact if_pos busy

theorem State.cancelPlan_planned (planned : s.reg (rangeIdx s.mapoutRange) 9 = 2) : (s.marked acc).cancelPlan =
    (((s.marked acc).modRange s.mapoutRange fun r => { r with plan := none }).setReg 0x3200 5 0).setRangeState s.mapoutRange 0 := by
  unfold State.cancelPlan
  simp only [State.marked_mapoutRange, State.marked_state]
  exact if_neg (not_not_intro planned)

end

/-! ### What a parked page leaves of the active channels (R349) -/

/-- A state with the same entries has the same active channels. -/
theorem State.active_of_regs {s t : State} (regs : t.regs = s.regs) (u : Nat) : t.active u = s.active u := by
  unfold State.active State.reg
  rw [regs]

section
variable {u : Nat} (known : u < 8)
include known

omit known in
/-- A store of another entry leaves the active channels of a range. -/
theorem State.active_setReg (s : State) {i j : Nat} (v : Nat) (other : dkey (rangeIdx u) 2 ≠ dkey i j) : (s.setReg i j v).active u = s.active u :=
  State.reg_setReg_other v other

omit known in
theorem State.active_setPoison (s : State) (v : Nat) (l : List Nat) : (s.setPoison v l).active u = s.active u :=
  State.active_setReg (s.modRange v fun r => { r with poison := l }) l.length (by unfold dkey; omega)

theorem State.active_memEvent (s : State) (cause loc aux : Nat) (inj ovf degrades : Bool) :
    (s.memEvent cause loc aux inj ovf degrades).active u = s.active u := by
  have small := rangeIdx_small known
  refine State.raise_reg _ _ ?_
  simp only [raiseKeys, dkey, Option.map_none, Option.toList_none, List.append_nil, List.mem_cons, List.not_mem_nil, or_false]
  omega

theorem State.active_failRow (s : State) (v o : Nat) : (s.failRow v o).active u = s.active u := by
  unfold State.failRow
  dsimp only
  split
  · rfl
  · exact State.active_memEvent known _ _ _ _ _ _ _

theorem State.active_countLost (s : State) (v o : Nat) (own : Bool) : (s.countLost v o own).active u = s.active u := by
  have small := rangeIdx_small known
  have counted : ((s.bump 0x3001 2 1).modChan v ((s.bump 0x3001 2 1).locate v o).1 fun c =>
      { c with uncorrectable := c.uncorrectable + 1 }).active u = s.active u :=
    State.active_setReg s _ (by unfold dkey; omega)
  unfold State.countLost
  dsimp only
  split
  · exact (State.active_failRow known _ _ _).trans counted
  · exact counted

theorem State.active_poisonUnit (s : State) (v o : Nat) : (s.poisonUnit v o).active u = s.active u := by
  have small := rangeIdx_small known
  have counted : (s.bump 0x3001 6 1).active u = s.active u := State.active_setReg s _ (by unfold dkey; omega)
  unfold State.poisonUnit
  dsimp only
  split
  · rfl
  · split
    · exact (State.active_memEvent known _ _ _ _ _ _ _).trans ((State.active_of_regs (State.putBytesAt_regs _ _ _) u).trans counted)
    · exact (State.active_setPoison _ _ _).trans counted

theorem State.active_charge (s : State) (a sub n : Nat) (few : sub < 256) : (s.charge a sub n).active u = s.active u := by
  have small := rangeIdx_small known
  unfold State.charge
  split
  · rfl
  · exact State.active_setReg s _ (by unfold dkey; omega)

omit known in
theorem chargeSub_range (v : Nat) (b : Bool) : chargeSub (.range v 0) b < 256 := by
  cases b
  all_goals
    simp only [chargeSub, boolNat]
    split <;> decide

theorem State.active_chargeMove (s : State) (v w n : Nat) : (s.chargeMove v w n).active u = s.active u :=
  (State.active_charge known _ _ _ _ (chargeSub_range _ _)).trans
    (State.active_charge known _ _ _ _ (chargeSub_range _ _))

omit known in
theorem State.active_writeUnit (s : State) (v o : Nat) (bs : List Byte) : (s.writeUnit v o bs).active u = s.active u := by
  have covered : (s.coverUnit v o).active u = s.active u := rfl
  have combined (t : State) (w a n : Nat) : (t.combine w a n).active u = t.active u :=
    State.active_of_regs ((Keeps.combine (Keeps.refl t) (hm := Sub.refl _)).frame .regs rfl) u
  unfold State.writeUnit
  dsimp only
  split
  · rfl
  split
  · rfl
  split
  · refine (State.active_of_regs (State.putBytesAt_regs _ _ _) u).trans ?_
    split
    · exact (State.active_setPoison _ _ _).trans ((combined _ _ _ _).trans covered)
    · exact (combined _ _ _ _).trans covered
  split
  · exact (State.active_of_regs (State.putBytesAt_regs _ _ _) u).trans ((combined _ _ _ _).trans covered)
  split
  · exact (State.active_of_regs (State.putBytesAt_regs _ _ _) u).trans ((combined _ _ _ _).trans covered)
  · exact covered

theorem State.active_parkUnit (s : State) (v off w o : Nat) (lost : List Nat) : (s.parkUnit v off w o lost).active u = s.active u := by
  unfold State.parkUnit
  dsimp only
  split
  · exact State.active_writeUnit _ _ _ _
  split
  · exact (State.active_setPoison _ _ _).trans
      ((State.active_poisonUnit known _ _ _).trans (State.active_countLost known _ _ _ _))
  · exact State.active_writeUnit _ _ _ _

omit known in
theorem State.active_modRange (s : State) (v : Nat) (g : Range → Range) : (s.modRange v g).active u = s.active u := rfl

omit known in
theorem Range.reflow_mod (s : State) (f : Reflow) :
    ((s.modRange u fun r => { r with reflow := some f }).range u).reflow = some f :=
  congrArg Range.reflow (SMap.get_set_listed Range.init s.tiers.ranges u fun h => Option.some_ne_none f (congrArg Range.reflow h))

/-- A parked page is one more page parked, and no channel's change. -/
theorem State.parkPage_parked (s : State) (p : Nat) (f : Reflow) (lost : List Nat) :
    ((s.parkPage u p f lost).range u).reflow = some { f with park := f.park.drop 1, parked := f.parked ++ [p] }
    ∧ (s.parkPage u p f lost).active u = s.active u := by
  unfold State.parkPage
  extract_lets base t v w
  have copied : t.active u = s.active u := State.active_of_regs (s.copyReads_frame u _).2 u
  have parked : v.active u = t.active u := by
    refine foldl_view (fun t : State => t.active u) _ (fun t i => ?_) _ _
    split
    · exact State.active_parkUnit known _ _ _ _ _ _
    · rfl
  have charged : w.active u = v.active u := by
    simp only [w]
    split
    · exact State.active_chargeMove known _ _ _ _
    · rfl
  clear_value w
  exact ⟨Range.reflow_mod w _, (State.active_modRange w u _).trans <| charged.trans (parked.trans copied)⟩

end

/-! ### The steps and the end of a reflow (R349, R350, R353) -/

/-- The range whose reflow runs has a plan and the reflow. -/
theorem State.reflowing_some {s : State} {u : Nat} {p : Plan} {f : Reflow} (found : s.reflowing = some (u, p, f)) :
    u < 8 ∧ (s.range u).plan = some p ∧ (s.range u).reflow = some f := by
  obtain ⟨v, listed, at_v⟩ := List.exists_of_findSome?_eq_some found
  rw [List.mem_range] at listed
  split at at_v
  · next plan reflow =>
    obtain ⟨rfl, rfl, rfl⟩ : v = u ∧ _ = p ∧ _ = f := by simpa using at_v
    exact ⟨listed, plan, reflow⟩
  · nomatch at_v

theorem State.servedAt_parked {s : State} {u o v b : Nat} {p : Plan} {f : Reflow} (plan : (s.range u).plan = some p)
    (reflow : (s.range u).reflow = some f) (parked : f.parked.idxOf (o / pageSize) < f.parked.length)
    (waits : (locateIn p.active p.remap o).2 / 256 < f.next)
    (place : s.localPlace (f.area + f.parked.idxOf (o / pageSize) * pageSize + o % pageSize) = .range v b) : s.servedAt u o = (v, b) := by
  unfold State.servedAt
  simp only [plan, reflow, place]
  exact if_neg (by rw [Bool.or_eq_true]; simp only [decide_eq_true_eq]; omega)

theorem State.reflowStep_page {s : State} {lost : List Nat} {u q : Nat} {p : Plan} {f : Reflow} {l : List Nat}
    (found : s.reflowing = some (u, p, f)) (park : f.park = q :: l) :
    exec (.reflowStep lost) s = .next (s.parkPage u q f lost) := by
  refine congrArg Host.Outcome.next ?_
  simp only [found, park]

theorem State.reflowStep_over {s : State} {lost : List Nat} {u : Nat} {p : Plan} {f : Reflow}
    (found : s.reflowing = some (u, p, f)) (park : f.park = []) (done : f.next = 0) : exec (.reflowStep lost) s = .next s := by
  refine congrArg Host.Outcome.next ?_
  simp only [found, park]
  exact if_pos done

theorem State.reflowStep_units {s : State} {lost : List Nat} {u n : Nat} {p : Plan} {f : Reflow}
    (found : s.reflowing = some (u, p, f)) (park : f.park = []) (left : f.next = n + 1) :
    let k := (activeList p.active).length
    let offs := (List.range k).filterMap fun i => planOffset p (n * k + i)
    let v := (offs.flatMap fun o => (List.range 8).map fun i => o + 32 * i).foldl (fun s o => s.reflowUnit p u o lost)
      (s.copyTraffic u false offs)
    exec (.reflowStep lost) s = .next ((((v.chargeMove u u (256 * offs.length)).modRange u fun r =>
      { r with reflow := some { f with next := n } }).setReg 0x3200 7 n).copyTraffic u true offs) := by
  intro k offs v
  refine congrArg Host.Outcome.next ?_
  simp only [found, park, left, Nat.add_sub_cancel]
  exact if_neg (Nat.succ_ne_zero n)

theorem State.reflowDone_busy {s : State} {u : Nat} {p : Plan} {f : Reflow} (found : s.reflowing = some (u, p, f))
    (busy : f.next ≠ 0 ∨ f.park ≠ []) : exec .reflowDone s = .next s := by
  refine congrArg Host.Outcome.next ?_
  simp only [found]
  refine if_pos ?_
  simpa using busy

/-- The state in which the plan of a range has taken effect, before the degraded causes are judged. -/
def State.planTaken (s : State) (u : Nat) (p : Plan) (n : Nat) : State :=
  (((s.installPlan u p).setReg 0x3200 5 3).setReg 0x3200 9 n).setRangeState u 0

theorem State.reflowDone_over {s : State} {u : Nat} {p : Plan} {f : Reflow} (found : s.reflowing = some (u, p, f))
    (next : f.next = 0) (park : f.park = []) : ∃ n degrades, exec .reflowDone s =
      .next ((s.planTaken u p n).judgeRanges.memEvent 5 (chanWord u 0) 3 false false degrades) := by
  refine ⟨(s.now - f.since) / usCycles 1000, !maskBit (s.reg 0xA000 1) 2
    && maskBit ((s.planTaken u p ((s.now - f.since) / usCycles 1000)).judgeRanges.reg 0xA000 1) 2, congrArg Host.Outcome.next ?_⟩
  simp only [found]
  exact if_neg (by simp [next, park])

/-- A range whose planned layout serves. -/
def Range.laidOut (p : Plan) (r : Range) : Range :=
  { r with plan := none, reflow := none, remap := p.remap, retired := p.retired, failing := [], rowCe := [] }

/-- The plan that has taken effect keeps its range's remap table and neither plan nor reflow. -/
theorem State.planTaken_range {s : State} (rising : SMap.rising 0 s.tiers.ranges = true) (u : Nat) (p : Plan) (n : Nat) :
    ((s.planTaken u p n).range u).remap = p.remap ∧ ((s.planTaken u p n).range u).plan = none
    ∧ ((s.planTaken u p n).range u).reflow = none := by
  obtain ⟨l, kept⟩ : ∃ l, (s.planTaken u p n).tiers.ranges =
      SMap.mod Range.init (SMap.mod Range.init s.tiers.ranges u (Range.laidOut p)) u fun r => { r with poison := l } := ⟨_, rfl⟩
  have shown : (s.planTaken u p n).range u = { Range.laidOut p (s.range u) with poison := l } := by
    unfold State.range
    rw [kept, SMap.mod, SMap.get_set_same Range.init (SMap.rising_mod rising u (Range.laidOut p)), SMap.mod, SMap.get_set_same Range.init rising]
  rw [shown]
  exact ⟨rfl, rfl, rfl⟩

theorem rangeIdx_bits {u : Nat} (known : u < 8) :
    regBits (dkey (rangeIdx u) 1) = 64 ∧ regBits (dkey (rangeIdx u) 2) = 32 := by
  revert u
  decide

theorem State.planTaken_reg {s : State} {u : Nat} {p : Plan} (known : u < 8) (wf : Regs.wf s.regs = true) (size : p.size < 2 ^ 64)
    (active : p.active < 2 ^ 32) (n : Nat) : (s.planTaken u p n).reg (rangeIdx u) 1 = p.size
    ∧ (s.planTaken u p n).reg (rangeIdx u) 2 = p.active ∧ (s.planTaken u p n).reg (rangeIdx u) 9 = 0
    ∧ (s.planTaken u p n).reg 0x3200 5 = 3 := by
  have small := rangeIdx_small known
  obtain ⟨wide, narrow⟩ := rangeIdx_bits known
  have installed : Regs.wf (s.installPlan u p).regs = true := (Keeps.installPlan (Keeps.refl s) (hm := Sub.refl _)).regs wf
  have early (sub : Nat) (few : sub ≤ 2) :
      (s.planTaken u p n).reg (rangeIdx u) sub =
        (((s.modRange u (Range.laidOut p)).setReg (rangeIdx u) 1 p.size).setReg (rangeIdx u) 2 p.active).reg (rangeIdx u) sub := by
    unfold State.planTaken State.setRangeState State.installPlan State.setPoison
    dsimp only
    iterate 6 refine (State.reg_setReg_other _ (by unfold dkey; omega)).trans ?_
    exact State.reg_setReg_other _ (by unfold dkey; omega)
  refine ⟨?_, ?_, ?_, ?_⟩
  · rw [early 1 (by decide), State.reg_setReg_other _ (by unfold dkey; omega), State.reg_setReg_same (s := s.modRange u (Range.laidOut p)) wf, wide, Nat.mod_eq_of_lt size]
  · rw [early 2 (by decide), State.reg_setReg_same (State.wf_setReg (s := s.modRange u (Range.laidOut p)) wf _ _ _), narrow, Nat.mod_eq_of_lt active]
  · exact State.reg_setReg_same (State.wf_setReg (State.wf_setReg installed _ _ _) _ _ _) _ _ _
  · exact (State.reg_setReg_other _ (by unfold dkey; omega)).trans
      ((State.reg_setReg_other _ (by decide)).trans (State.reg_setReg_same installed _ _ _))

/-- The judgement of the ranges and the report change neither a range nor the entries of ranges and reflows. -/
theorem State.reported_frame (s : State) (cause loc aux : Nat) (degrades : Bool) :
    (s.judgeRanges.memEvent cause loc aux false false degrades).tiers = s.tiers
    ∧ ∀ i j, 0x3010 ≤ i → i ≤ 0x3200 → j < 256 → (s.judgeRanges.memEvent cause loc aux false false degrades).reg i j = s.reg i j := by
  refine ⟨((Keeps.memEvent (Keeps.refl s.judgeRanges) (hm := Sub.refl _)).frame .tiers rfl).trans
      ((Keeps.judgeRanges (Keeps.refl s) (hm := Sub.refl _)).frame .tiers rfl),
    fun i j low high few => ?_⟩
  refine (State.raise_reg _ _ ?_).trans (State.setCause_reg s 2 _ (by unfold dkey; omega) (by unfold dkey; omega))
  simp only [raiseKeys, dkey, Option.map_none, Option.toList_none, List.append_nil, List.mem_cons, List.not_mem_nil, or_false]
  omega

/-! ### The test port (R354) -/

theorem State.portShift_blob {s : State} (rising : SMap.rising 0 s.blobs = true) (bytes : List Byte) :
    let len := max (s.reg 0x3300 3) 1
    let n := min (8 * bytes.length) len
    let old := SMap.get (Config.portReg (s.reg 0x3300 1 % 4) (s.reg 0x3300 2)) s.tiers.ports (4 * s.reg 0x3300 2 + s.reg 0x3300 1 % 4) % 2 ^ len
    (s.portShift bytes).blob 0x3300 4 = leBytes (ceilDiv n 8) (old % 2 ^ n) := by
  intro len n old
  refine (SMap.get_set_same _ rising _ _).trans ?_
  have divides : 2 ^ n ∣ leNat bytes % 2 ^ n * 2 ^ len :=
    Nat.dvd_mul_left_of_dvd (Nat.pow_dvd_pow 2 (Nat.min_le_right _ _)) _
  refine congrArg (leBytes (ceilDiv n 8)) ?_
  rw [Nat.add_mod, Nat.mod_eq_zero_of_dvd divides, Nat.add_zero, Nat.mod_mod]

/-- The register keeps the bits not shifted out, and above them those shifted in. -/
theorem State.portShift_port (s : State) (bytes : List Byte) :
    let len := max (s.reg 0x3300 3) 1
    let n := min (8 * bytes.length) len
    let k := 4 * s.reg 0x3300 2 + s.reg 0x3300 1 % 4
    let free := Config.portReg (s.reg 0x3300 1 % 4) (s.reg 0x3300 2)
    let old := SMap.get free s.tiers.ports k % 2 ^ len
    SMap.get free (s.portShift bytes).tiers.ports k = old / 2 ^ n + leNat bytes % 2 ^ n * 2 ^ (len - n) := by
  intro len n k free old
  refine (SMap.get_insert_same free s.tiers.ports k _).trans ?_
  have split : leNat bytes % 2 ^ n * 2 ^ len = 2 ^ n * (leNat bytes % 2 ^ n * 2 ^ (len - n)) := by
    rw [Nat.mul_left_comm, ← Nat.pow_add, Nat.add_sub_cancel' (Nat.min_le_right _ _)]
  calc (old + leNat bytes % 2 ^ n * 2 ^ len) / 2 ^ n
      = (old + 2 ^ n * (leNat bytes % 2 ^ n * 2 ^ (len - n))) / 2 ^ n := by rw [split]
    _ = old / 2 ^ n + leNat bytes % 2 ^ n * 2 ^ (len - n) := Nat.add_mul_div_left _ _ (Nat.two_pow_pos n)

theorem State.portDrWrite_takes {s : State} {acc offset : Nat} {bytes : List Byte} (takes : s.Takes acc 0x3300 4 offset bytes) :
    exec (.portDrWrite acc offset bytes) s = .next (((s.marked acc).portShift bytes).saysDone acc 0x3300 4) := by
  refine congrArg Host.Outcome.next ((State.dictWrite_takes takes
    (s.writeItems_single acc offset bytes (by decide) (by decide) (by decide)) Env.none).trans ?_)
  have action : hasAction 0x3300 4 = true := by decide
  have acts : (s.marked acc).act acc 0x3300 4 offset bytes Env.none = (s.marked acc).portShift bytes := rfl
  simp [State.written, action, acts, State.routesOpened, Item.trunk?, Item.routes]

/-! ### The obligation -/

/-- Settles O43: an accepted operation meets the range's state; a step of a reflow parks a page or moves units, and leaves the active
channels; the end installs the plan, which later stores do not touch; the bits of the test port are those of a sum of two shifts. -/
theorem reflowMovesARange : Obligations.ReflowMovesARange := by
  unfold Obligations.ReflowMovesARange
  refine ⟨fun s acc => ⟨fun takes => ⟨fun busy => ?_, fun normal => ⟨fun none => ?_, fun p plan => ⟨fun long => ?_, fun fits => ?_⟩⟩⟩,
      fun takes => ⟨fun busy => ?_, fun planned => ?_⟩, fun takes => ⟨fun busy => ?_, fun planned => ?_⟩⟩,
    fun s lost => ⟨fun none => ⟨?_, ?_⟩, fun u p f found => ?_⟩, fun _ _ _ _ takes => State.portDrWrite_takes takes,
    fun s bytes => ⟨fun rising => State.portShift_blob rising bytes, s.portShift_port bytes, rfl, rfl⟩⟩
  · refine congrArg Host.Outcome.next ((State.scalarWrite_mapout takes).trans ?_)
    exact congrArg (fun t : State => t.saysDone acc 0x3200 4) (s.planReflow_busy acc busy)
  · refine congrArg Host.Outcome.next ((State.scalarWrite_mapout takes).trans ?_)
    exact congrArg (fun t : State => t.saysDone acc 0x3200 4) (s.planReflow_none acc normal none)
  · refine congrArg Host.Outcome.next ((State.scalarWrite_mapout takes).trans ?_)
    exact congrArg (fun t : State => t.saysDone acc 0x3200 4) ((s.planReflow_some acc normal plan).trans (if_pos long))
  · refine congrArg Host.Outcome.next ((State.scalarWrite_mapout takes).trans ?_)
    exact congrArg (fun t : State => t.saysDone acc 0x3200 4) ((s.planReflow_some acc normal plan).trans (if_neg (Nat.not_lt.mpr fits)))
  · refine congrArg Host.Outcome.next ((State.scalarWrite_mapout takes).trans ?_)
    exact congrArg (fun t : State => t.saysDone acc 0x3200 4) (s.startReflow_busy acc busy)
  · refine congrArg Host.Outcome.next ((State.scalarWrite_mapout takes).trans ?_)
    exact congrArg (fun t : State => t.saysDone acc 0x3200 4) (s.startReflow_planned acc planned)
  · refine congrArg Host.Outcome.next ((State.scalarWrite_mapout takes).trans ?_)
    exact congrArg (fun t : State => t.saysDone acc 0x3200 4) (s.cancelPlan_busy acc busy)
  · refine congrArg Host.Outcome.next ((State.scalarWrite_mapout takes).trans ?_)
    exact congrArg (fun t : State => t.saysDone acc 0x3200 4) (s.cancelPlan_planned acc planned)
  · refine congrArg Host.Outcome.next ?_
    simp only [none]
  · refine congrArg Host.Outcome.next ?_
    simp only [none]
  · obtain ⟨known, plan, reflow⟩ := State.reflowing_some found
    refine ⟨fun q l park => ?_, fun o v b parked waits place => State.servedAt_parked plan reflow parked waits place,
      State.reflowStep_over found, fun n park left => State.reflowStep_units found park left, State.reflowDone_busy found,
      fun next park wf rising size active => ?_⟩
    · obtain ⟨kept, channels⟩ := s.parkPage_parked known q f lost
      rw [park] at kept
      exact ⟨_, State.reflowStep_page found park, kept, channels⟩
    · obtain ⟨n, degrades, ran⟩ := State.reflowDone_over found next park
      obtain ⟨tiers, regs⟩ := (s.planTaken u p n).reported_frame 5 (chanWord u 0) 3 degrades
      obtain ⟨remap, noPlan, noReflow⟩ := State.planTaken_range rising u p n
      obtain ⟨sized, channels, normal, done⟩ := State.planTaken_reg known wf size active n
      have small := rangeIdx_small known
      have same := congrArg (fun t : Tiers => SMap.get Range.init t.ranges u) tiers
      exact ⟨_, ran, (regs _ 1 (by omega) (by omega) (by decide)).trans sized, (regs _ 2 (by omega) (by omega) (by decide)).trans channels,
        (congrArg Range.remap same).trans remap, (congrArg Range.plan same).trans noPlan, (congrArg Range.reflow same).trans noReflow,
        (regs _ 9 (by omega) (by omega) (by decide)).trans normal, (regs 0x3200 5 (by decide) (by decide) (by decide)).trans done⟩

end Sys2Proof.Machine
end

section
/-! Proofs of chapters 05 and 10: scrubs, patrols and the requests of memory channels (R154 to R157, R323, R332 to R341). -/
set_option Elab.async false
namespace Sys2Proof.Machine

/-! ### The patrol of a cistern (R156, R157) -/

/-- The patrol of a bank goes on to its next row. -/
def State.patrolled (s : State) (p b : Nat) : State :=
  s.modCore p fun c => { c with patrol := SMap.set 0 c.patrol b ((SMap.get 0 c.patrol b + 1) % 2048) }

@[simp] theorem State.patrolled_regs (s : State) (p b : Nat) : (s.patrolled p b).regs = s.regs := rfl
@[simp] theorem State.patrolled_fab (s : State) (p b : Nat) : (s.patrolled p b).fab = s.fab := rfl
@[simp] theorem State.patrolled_logicalOf (s : State) (p b q : Nat) : (s.patrolled p b).logicalOf q = s.logicalOf q := rfl
@[simp] theorem State.patrolled_armed (s : State) (p b det t i : Nat) : (s.patrolled p b).armed det t i = s.armed det t i := rfl
@[simp] theorem State.patrolled_rowOwners (s : State) (p b r : Nat) : (s.patrolled p b).rowOwners p r = s.rowOwners p r := rfl

/-- A row without an upset, with no injection armed, is passed. -/
theorem State.patrol_clean {s : State} {p : Nat} (fix : s.armed 0x9001 (s.logicalOf p) 0 = false) (lose : s.armed 0x9002 (s.logicalOf p) 4 = false)
    (b : Nat) : s.patrol p b ⟨[], []⟩ = s.patrolled p b := by
  have fix' : (s.patrolled p b).armed 0x9001 ((s.patrolled p b).logicalOf p) 0 = false := by simpa using fix
  have lose' : (s.patrolled p b).armed 0x9002 ((s.patrolled p b).logicalOf p) 4 = false := by simpa using lose
  unfold State.patrolled at fix' lose' ⊢
  unfold State.patrol
  simp [fix', lose']

/-- A patrol leaves the core with the position of its bank advanced. -/
theorem State.patrolled_core {s : State} (rising : SMap.rising 0 s.cores = true) (p b : Nat) :
    (s.patrolled p b).core p =
      { s.core p with patrol := SMap.set 0 (s.core p).patrol b ((SMap.get 0 (s.core p).patrol b + 1) % 2048) } :=
  SMap.get_set_same _ rising _ _

/-- What the patrol of some banks leaves. -/
theorem State.patrolled_banks {p : Nat} (l : List Nat) : ∀ s : State, l.Nodup → SMap.rising 0 s.cores = true → SMap.rising 0 (s.core p).patrol = true →
    let t := l.foldl (fun s b => s.patrolled p b) s
    (∀ b, SMap.get 0 (t.core p).patrol b = if b ∈ l then (SMap.get 0 (s.core p).patrol b + 1) % 2048 else SMap.get 0 (s.core p).patrol b)
      ∧ (t.core p).rows = (s.core p).rows ∧ (t.core p).writeBack = (s.core p).writeBack ∧ t.regs = s.regs ∧ t.fab = s.fab := by
  induction l with
  | nil => exact fun s _ _ _ => ⟨fun b => rfl, rfl, rfl, rfl, rfl⟩
  | cons a l ih =>
    intro s nodup rising rising'
    obtain ⟨fresh, nodup⟩ := List.nodup_cons.mp nodup
    have core := State.patrolled_core rising p a
    have kept : SMap.rising 0 ((s.patrolled p a).core p).patrol = true := by
      rw [core]
      exact SMap.rising_mod rising' a fun n => (n + 1) % 2048
    obtain ⟨patrol, rows, back, regs, fab⟩ := ih (s.patrolled p a) nodup (SMap.rising_mod (d := Core.init) rising p fun c =>
      { c with patrol := SMap.set 0 c.patrol a ((SMap.get 0 c.patrol a + 1) % 2048) }) kept
    refine ⟨fun b => (patrol b).trans ?_, rows.trans (by rw [core]), back.trans (by rw [core]), regs, fab⟩
    rw [core]
    dsimp only
    by_cases same : b = a
    · subst same
      rw [if_neg fresh, if_pos List.mem_cons_self, SMap.get_set_same _ rising']
    · rw [SMap.get_set_other _ _ _ _ same]
      simp [same]

/-- A patrol without upsets or injections passes a row of each bank. -/
theorem State.patrol_banks {s : State} {p : Nat} (fix : s.armed 0x9001 (s.logicalOf p) 0 = false) (lose : s.armed 0x9002 (s.logicalOf p) 4 = false)
    (l : List Nat) : l.foldl (fun s b => s.patrol p b ⟨[], []⟩) s = l.foldl (fun s b => s.patrolled p b) s := by
  induction l generalizing s with
  | nil => rfl
  | cons b l ih =>
    rw [List.foldl_cons, List.foldl_cons, State.patrol_clean fix lose]
    exact ih fix lose

/-- A run that lacks nothing leaves all but the fabric as its effect leaves it. -/
theorem State.whenFetched_keeps {s : State} {run : State → State} (fab : (run s).fab.wanted = s.fab.wanted) :
    (s.whenFetched run).cores = (run s).cores ∧ (s.whenFetched run).regs = (run s).regs := by
  rw [State.whenFetched_done fab]
  split <;> exact ⟨rfl, rfl⟩

/-! ### The patrol of one bank with an upset -/

/-- What the patrol of bank 0 finds, with its owner's context and partition. -/
theorem State.patrolScrub_first {s : State} {p : Nat} {up : Upsets} (one : (s.core p).retained = 14) :
    exec (.patrolScrub p up) s = .next (s.whenFetched fun _ => s.patrol p 0 up) := by
  refine congrArg Host.Outcome.next (State.whenFetched_congr ?_)
  rw [one]
  rfl

/-- A corrected row's report arms and disarms no injection of uncorrectable rows. -/
theorem State.armed_correctRow (s : State) (p r : Nat) (own : Option (Nat × Nat)) (inj : Bool) (i : Nat) :
    (s.correctRow p r own inj).armed 0x9002 ((s.correctRow p r own inj).logicalOf p) i = s.armed 0x9002 (s.logicalOf p) i := by
  have reg {idx sub : Nat} (low : dkey idx sub ∉ raiseKeys 0x9001 (own.map (·.2))) : (s.correctRow p r own inj).reg idx sub = s.reg idx sub :=
    State.raise_reg s _ low
  have up : (s.correctRow p r own inj).isUp = s.isUp :=
    congrArg (fun t : Top => decide (t.dev = .ready) || decide (t.dev = .serving))
      ((Keeps.correctRow (Keeps.refl s) (hm := Sub.refl _)).frame .top rfl)
  have word : (s.correctRow p r own inj).reg 0x9002 3 = s.reg 0x9002 3 := reg (by
    cases own
    all_goals simp [raiseKeys, dkey]
    all_goals omega)
  have logical : (s.correctRow p r own inj).logicalOf p = s.logicalOf p := reg (by
    cases own
    all_goals simp [raiseKeys, dkey]
    all_goals omega)
  unfold State.armed
  rw [up, word, logical]

section
variable {s : State} {p b : Nat} {up : Upsets}

theorem State.patrol_corrected
    (corrected : up.corrected.contains ((4 * SMap.get 0 (s.core p).patrol b + b) % cisternRows) = true)
    (found : up.lost.contains ((4 * SMap.get 0 (s.core p).patrol b + b) % cisternRows) = false)
    (lose : s.armed 0x9002 (s.logicalOf p) 4 = false) :
    let r := (4 * SMap.get 0 (s.core p).patrol b + b) % cisternRows
    let own := (s.rowOwners p r).find? fun q => (s.core p).owns q.2.part r
    s.patrol p b up = (s.patrolled p b).correctRow p r (own.map fun q => (q.1, q.2.part)) false := by
  intro r own
  unfold State.patrol
  extract_lets c r' t who fixInj t1 t2 inj t3
  have noFix : fixInj = false := by simp only [fixInj, r', c, corrected]; rfl
  have unfixed : t1 = t := if_neg (by rw [noFix]; decide)
  have fixed : t2 = t.correctRow p r who false := by
    simp only [t2, unfixed, noFix]
    exact if_pos (by rw [Bool.or_false]; exact corrected)
  have armed : t2.armed 0x9002 (t2.logicalOf p) 4 = false := by
    rw [fixed, State.armed_correctRow]
    exact lose
  have passed : inj = false := by simp only [inj, armed, Bool.and_false]
  have kept : t3 = t2 := if_neg (by rw [passed]; decide)
  refine (if_neg ?_).trans (kept.trans fixed)
  rw [passed, Bool.or_false]
  exact ne_true_of_eq_false found

theorem State.patrol_lost
    (corrected : up.corrected.contains ((4 * SMap.get 0 (s.core p).patrol b + b) % cisternRows) = false)
    (found : up.lost.contains ((4 * SMap.get 0 (s.core p).patrol b + b) % cisternRows) = true)
    (fix : s.armed 0x9001 (s.logicalOf p) 0 = false) :
    let r := (4 * SMap.get 0 (s.core p).patrol b + b) % cisternRows
    let own := (s.rowOwners p r).find? fun q => (s.core p).owns q.2.part r
    (own = none → s.patrol p b up = (s.patrolled p b).loseRow p r 4 none false)
    ∧ (∀ q, own = some q →
      s.patrol p b up = if (s.core p).reloadable q.2 r then ((s.patrolled p b).loseRow p r 4 (some (q.1, q.2.part)) false).reloadRow p q.1 r
        else (s.patrolled p b).loseRow p r 4 (some (q.1, q.2.part)) false) := by
  intro r own
  unfold State.patrol
  extract_lets c r' t who fixInj t1 t2 inj t3 owner t4
  have noFix : fixInj = false := by
    have armed : t.armed 0x9001 (t.logicalOf p) 0 = false := fix
    simp only [fixInj, armed, Bool.and_false]
  have unfixed : t1 = t := if_neg (by rw [noFix]; decide)
  have fixed : t2 = t := by
    simp only [t2, unfixed, noFix]
    exact if_neg (by rw [Bool.or_false]; exact ne_true_of_eq_false corrected)
  have passed : inj = false := by simp only [inj, r', c, found]; rfl
  have kept : t3 = t := (if_neg (by rw [passed]; decide)).trans fixed
  have lost : (up.lost.contains r || inj) = true := by rw [found]; rfl
  have owned : owner = own := by simp only [owner, kept]; rfl
  have lose : t4 = t.loseRow p r 4 who false := by simp only [t4, kept, passed]; rfl
  refine ⟨fun none => (if_pos lost).trans ?_, fun q some => (if_pos lost).trans ?_⟩
  · have noOne : who = Option.none := congrArg (Option.map fun q : Nat × Ctx => (q.1, q.2.part)) none
    simp only [owned, none, lose, noOne]
    rfl
  · have one : who = Option.some (q.1, q.2.part) := congrArg (Option.map fun q : Nat × Ctx => (q.1, q.2.part)) some
    simp only [owned, some, lose, one]
    rfl

end

/-! ### Requests of a memory channel (R332 to R341) -/

section
variable {s : State} {u : Nat}

theorem State.pickRequest_ready {q : MemReq} {l : List MemReq} (ready : s.bankBlocked u q = false) : s.pickRequest u (q :: l) = some (q, l) := by
  rw [State.pickRequest, ready]
  rfl

theorem State.pickRequest_aged {q : MemReq} {l : List MemReq} (blocked : s.bankBlocked u q = true)
    (aged : s.reg 0x3000 4 ≤ cyclesNs (s.now - q.arrived)) : s.pickRequest u (q :: l) = none := by
  rw [State.pickRequest, blocked]
  exact if_pos aged

theorem State.pickRequest_passes {q : MemReq} {l : List MemReq} (blocked : s.bankBlocked u q = true)
    (young : cyclesNs (s.now - q.arrived) < s.reg 0x3000 4) :
    s.pickRequest u (q :: l) = (s.pickRequest u l).map fun r => (r.1, q :: r.2) := by
  rw [State.pickRequest, blocked]
  exact if_neg (Nat.not_le.mpr young)

/-- The state in which a channel has issued a request and kept others. -/
def State.issued (s : State) (u c : Nat) (l : List MemReq) : State :=
  s.modChan u c fun x => { Channel.refill s.now { x with queue := l } with asleep := false, lastUse := s.now }

theorem State.memoryRequest_picks {c : Nat} {k : TransferCheck} {q : MemReq} {l : List MemReq}
    (picks : s.pickRequest u (s.chan u c).queue = some (q, l)) :
    exec (.memoryRequest u c k) s = .next ((s.issued u c l).transfer u c q k) := by
  refine congrArg Host.Outcome.next ?_
  simp only [picks]
  rfl

theorem State.memoryRequest_none {c : Nat} {k : TransferCheck} (none : s.pickRequest u (s.chan u c).queue = none) :
    exec (.memoryRequest u c k) s = .next s := by
  refine congrArg Host.Outcome.next ?_
  simp only [none]

variable {c : Nat} {q : MemReq} {k : TransferCheck}

/-- A transfer without failed checks and without an injection has no reissue. -/
theorem State.retried_clean (clean : k.failures = 0) (unarmed : ∀ n, 1 ≤ n → n ≤ 8 → s.armedParity u c n = false) :
    s.retried u c q k = s := by
  unfold State.retried
  have none : ((List.range 8).map (· + 1)).find? (fun n => s.armedParity u c n) = none := by
    rw [List.find?_eq_none]
    intro n listed
    obtain ⟨m, small, rfl⟩ := List.mem_map.mp listed
    have := List.mem_range.mp small
    rw [unarmed (m + 1) (by omega) (by omega)]
    decide
  simp only [clean, none]
  rfl

theorem State.retried_failed (some : k.failures ≠ 0) :
    let a := s.servedAt q.range (256 * q.granule)
    s.retried u c q k = (s.raise { det := 0x9007, sev := 1, detail := s.locWord a.1 a.2, aux := min k.failures 8 }).reissue u c
      (min k.failures 8) := by
  unfold State.retried
  exact if_pos (by omega)

/-- Each unit of a transfer that succeeds, by its kind. -/
theorem State.transfer_write (succeeds : q.fails k = false) (write : q.kind = .write) :
    s.transfer u c q k = q.offs.foldl (fun t o => t.writtenUnit q o) (s.retried u c q k) := by
  unfold State.transfer
  simp only [succeeds, write]
  rfl

theorem State.transfer_read (succeeds : q.fails k = false) (read : q.kind = .read) : s.transfer u c q k =
    q.offs.foldl (fun t o => if q.lost.testBit (o % 256 / 32) then t else t.readUnit q k o) (s.retried u c q k) := by
  unfold State.transfer
  simp only [succeeds, read]
  rfl

theorem State.transfer_own (succeeds : q.fails k = false) (own : q.kind = .scrub ∨ q.kind = .rmw) : s.transfer u c q k =
    q.offs.foldl (fun t o => t.ownRead q k o) (s.retried u c q k) := by
  unfold State.transfer
  rcases own with own | own
  all_goals
    simp only [succeeds, own]
    rfl

/-- The count of a transfer whose reissues all failed. -/
def State.transferFailed (s : State) (u c : Nat) : State :=
  ((s.bump 0x3001 4 1).modChan u c fun x => { x with failures := x.failures + 1 }).suspect u c

theorem State.transfer_fails_write (fails : q.fails k = true) (write : q.kind = .write) : s.transfer u c q k =
    q.offs.foldl (fun t o => t.poisonUnit (t.servedAt q.range o).1 (t.servedAt q.range o).2) ((s.retried u c q k).transferFailed u c) := by
  unfold State.transfer
  simp only [fails, write]
  rfl

theorem State.failUnit_read (read : q.kind = .read) (o : Nat) (own : Bool) : s.failUnit q o own = s := by
  unfold State.failUnit
  simp only [read]

theorem State.transfer_fails_read (fails : q.fails k = true) (read : q.kind = .read) :
    s.transfer u c q k = (s.retried u c q k).transferFailed u c := by
  unfold State.transfer
  simp only [fails, read, State.failUnit_read read]
  exact foldl_view id _ (fun _ _ => rfl) _ _

/-- A read in which no check finds anything leaves its unit. -/
theorem State.readUnit_good (ondie : k.ondie = 0) (second : k.second = 0) (corrected : k.corrected = 0) (uncorrectable : k.uncorrectable = 0)
    (o : Nat) : s.readUnit q k o = s := by
  unfold State.readUnit
  simp only [ondie, second, corrected, uncorrectable, Nat.zero_testBit, Bool.false_eq_true, if_false, Bool.and_false]

theorem State.readUnits_good (ondie : k.ondie = 0) (second : k.second = 0) (corrected : k.corrected = 0) (uncorrectable : k.uncorrectable = 0)
    (l : List Nat) : l.foldl (fun t o => if q.lost.testBit (o % 256 / 32) then t else t.readUnit q k o) s = s := by
  refine foldl_view id _ (fun t o => ?_) l s
  split
  · rfl
  · exact State.readUnit_good ondie second corrected uncorrectable o

variable {o : Nat}

/-- A unit that a stack's controller corrects is written back. -/
theorem State.readUnit_corrected (ondie : k.ondie = 0) (second : k.second = 0) (good : k.uncorrectable.testBit (o % 256 / 32) = false)
    (corrected : k.corrected.testBit (o % 256 / 32) = true) (stack : (s.servedAt q.range o).1 < 4) :
    s.readUnit q k o = (s.countCorrected (s.servedAt q.range o).1 (s.servedAt q.range o).2).combine q.range (o / 256 * 256)
      (1 <<< (o % 256 / 32)) := by
  unfold State.readUnit
  simp only [ondie, second, good, corrected, stack, Nat.zero_testBit, Bool.false_eq_true, if_false, Bool.and_true, decide_true, if_true]

theorem State.readUnit_uncorrectable (ondie : k.ondie = 0) (second : k.second = 0) (bad : k.uncorrectable.testBit (o % 256 / 32) = true) :
    s.readUnit q k o = s.failUnit q o true := by
  unfold State.readUnit
  simp only [ondie, second, bad, Nat.zero_testBit, Bool.false_eq_true, if_false, if_true]

theorem State.ownRead_uncorrectable (ondie : k.ondie = 0) (second : k.second = 0) (bad : k.uncorrectable.testBit (o % 256 / 32) = true)
    (stored : s.unitLost (s.servedAt q.range o).1 (s.servedAt q.range o).2 = false) : s.ownRead q k o = s.failUnit q o true := by
  unfold State.ownRead
  simp only [stored, bad, Bool.true_or, Bool.false_eq_true, if_false, if_true]
  exact State.readUnit_uncorrectable ondie second bad

theorem State.failUnit_scrub (scrub : q.kind = .scrub) (own : Bool) : s.failUnit q o own =
    (s.countLost (s.servedAt q.range o).1 (s.servedAt q.range o).2 own).memEvent 6
      (s.unitWord (s.servedAt q.range o).1 (s.servedAt q.range o).2) ((s.servedAt q.range o).2 % pageSize) := by
  unfold State.failUnit
  simp only [scrub]

theorem State.failUnit_rmw (rmw : q.kind = .rmw) (own : Bool) : s.failUnit q o own =
    ((s.countLost (s.servedAt q.range o).1 (s.servedAt q.range o).2 own).dropFromLine q.range o).poisonUnit (s.servedAt q.range o).1
      (s.servedAt q.range o).2 := by
  unfold State.failUnit
  simp only [rmw]

end

/-- What the first request of a channel does, when its bank is ready. -/
theorem State.memoryRequest_first {s : State} {u c : Nat} {q : MemReq} {l : List MemReq} {k : TransferCheck}
    (first : (s.chan u c).queue = q :: l) (ready : s.bankBlocked u q = false) :
    exec (.memoryRequest u c k) s = .next ((s.issued u c l).transfer u c q k) :=
  State.memoryRequest_picks (by rw [first, State.pickRequest_ready ready])

theorem MemReq.fails_of_clean {k : TransferCheck} (q : MemReq) (clean : k.failures = 0) : q.fails k = false := by
  unfold MemReq.fails
  rw [clean]
  rfl

theorem MemReq.fails_of_answered {q : MemReq} (k : TransferCheck) (read : q.kind = .read) (answered : q.lost ≠ q.units) : q.fails k = false := by
  simp [MemReq.fails, read, answered]

/-! ### The obligation -/

/-- What a request does that its channel issues. -/
theorem State.memoryRequest_ready {s : State} {u c : Nat} {q : MemReq} {l : List MemReq} (k : TransferCheck)
    (first : (s.chan u c).queue = q :: l) (unarmed : ∀ n, 1 ≤ n → n ≤ 8 → s.armedParity u c n = false) (ready : s.bankBlocked u q = false) :
    let v := s.issued u c l
    (k.failures = 0 → q.kind = .write → exec (.memoryRequest u c k) s = .next (q.offs.foldl (fun t o => t.writtenUnit q o) v))
    ∧ (k = ⟨0, 0, 0, 0, 0⟩ → q.kind = .read → exec (.memoryRequest u c k) s = .next v)
    ∧ (8 < k.failures →
      let a := v.servedAt q.range (256 * q.granule)
      let w := ((v.raise { det := 0x9007, sev := 1, detail := v.locWord a.1 a.2, aux := 8 }).reissue u c 8).transferFailed u c
      (q.kind = .write → exec (.memoryRequest u c k) s =
        .next (q.offs.foldl (fun t o => t.poisonUnit (t.servedAt q.range o).1 (t.servedAt q.range o).2) w))
      ∧ (q.kind = .read → q.lost = q.units → exec (.memoryRequest u c k) s = .next w))
    ∧ ∀ n, 0 < n → k = ⟨n, 0, 0, 0, 0⟩ → q.kind = .read → q.lost ≠ q.units →
      let a := v.servedAt q.range (256 * q.granule)
      exec (.memoryRequest u c k) s =
        .next ((v.raise { det := 0x9007, sev := 1, detail := v.locWord a.1 a.2, aux := min n 8 }).reissue u c (min n 8)) := by
  intro v
  have issues (t : State) (transfers : v.transfer u c q k = t) : exec (.memoryRequest u c k) s = .next t :=
    (State.memoryRequest_first first ready).trans (congrArg Host.Outcome.next transfers)
  refine ⟨fun clean write => issues _ ?_, fun none read => issues _ ?_, fun failed => ⟨fun write => issues _ ?_, fun read lost => issues _ ?_⟩,
    fun n some reissued read answered => issues _ ?_⟩
  · rw [State.transfer_write (q.fails_of_clean clean) write, State.retried_clean (s := v) clean unarmed]
  · subst none
    rw [State.transfer_read (q.fails_of_clean rfl) read, State.retried_clean (s := v) (k := ⟨0, 0, 0, 0, 0⟩) rfl unarmed]
    exact State.readUnits_good rfl rfl rfl rfl _
  · rw [State.transfer_fails_write (by simp [MemReq.fails, failed, write]) write, State.retried_failed (by omega),
      Nat.min_eq_right (Nat.le_of_lt failed)]
  · rw [State.transfer_fails_read (by simp [MemReq.fails, failed, lost]) read, State.retried_failed (by omega), Nat.min_eq_right (Nat.le_of_lt failed)]
  · subst reissued
    rw [State.transfer_read (q.fails_of_answered _ read answered), State.retried_failed (Nat.ne_of_gt some), State.readUnits_good rfl rfl rfl rfl]
    exact read

/-- What the checks find at the one unit of a request that its channel issues. -/
theorem State.memoryRequest_unit {s : State} {u c o : Nat} {q : MemReq} {l : List MemReq} {k : TransferCheck}
    (first : (s.chan u c).queue = q :: l) (unarmed : ∀ n, 1 ≤ n → n ≤ 8 → s.armedParity u c n = false) (ready : s.bankBlocked u q = false)
    (one : q.offs = [o]) (clean : k.failures = 0) (ondie : k.ondie = 0) (second : k.second = 0) :
    let v := s.issued u c l
    let b := v.servedAt q.range o
    let i := o % 256 / 32
    (q.kind = .read → q.lost.testBit i = false → k.uncorrectable.testBit i = false → k.corrected.testBit i = true → b.1 < 4 →
      exec (.memoryRequest u c k) s = .next ((v.countCorrected b.1 b.2).combine q.range (o / 256 * 256) (1 <<< i)))
    ∧ (k.uncorrectable.testBit i = true → v.unitLost b.1 b.2 = false →
      (q.kind = .scrub → exec (.memoryRequest u c k) s =
        .next ((v.countLost b.1 b.2 true).memEvent 6 (v.unitWord b.1 b.2) (b.2 % pageSize)))
      ∧ (q.kind = .rmw → exec (.memoryRequest u c k) s =
        .next (((v.countLost b.1 b.2 true).dropFromLine q.range o).poisonUnit b.1 b.2))) := by
  intro v b i
  have issues (t : State) (transfers : v.transfer u c q k = t) : exec (.memoryRequest u c k) s = .next t :=
    (State.memoryRequest_first first ready).trans (congrArg Host.Outcome.next transfers)
  have retried : v.retried u c q k = v := State.retried_clean clean unarmed
  have alone (g : State → Nat → State) : q.offs.foldl g v = g v o := by rw [one]; rfl
  refine ⟨fun read answered good corrected stack => issues _ ?_,
    fun bad stored => ⟨fun scrub => issues _ ?_, fun rmw => issues _ ?_⟩⟩
  · rw [State.transfer_read (q.fails_of_clean clean) read, retried, alone, answered]
    exact State.readUnit_corrected ondie second good corrected stack
  · rw [State.transfer_own (q.fails_of_clean clean) (.inl scrub), retried, alone, State.ownRead_uncorrectable ondie second bad stored]
    exact State.failUnit_scrub scrub true
  · rw [State.transfer_own (q.fails_of_clean clean) (.inr rmw), retried, alone, State.ownRead_uncorrectable ondie second bad stored]
    exact State.failUnit_rmw rmw true

/-- A row that is written back leaves its queue. -/
theorem State.scrubWriteBack_row {s : State} (rising : SMap.rising 0 s.cores = true) (p : Nat) : ∃ t, exec (.scrubWriteBack p) s = .next t
    ∧ (t.core p).writeBack = (s.core p).writeBack.drop 1 ∧ (t.core p).rows = (s.core p).rows
    ∧ (∀ q, q ≠ p → t.core q = s.core q) ∧ t.regs = s.regs ∧ t.mem = s.mem
    ∧ (∀ r l, (s.core p).writeBack = r :: l →
      t = (s.modCore p fun c => { c with writeBack := l }).useBank p (r % 4)) := by
  cases queue : (s.core p).writeBack with
  | nil =>
    refine ⟨s, congrArg Host.Outcome.next (by simp only [queue]), queue, rfl, fun _ _ => rfl, rfl, rfl, nofun⟩
  | cons r l =>
    let v := s.modCore p fun c => { c with writeBack := l }
    have shown : (v.useBank p (r % 4)).core p =
        { s.core p with writeBack := l, retained := maskClear (s.core p).retained (r % 4),
                        lastUse := SMap.set 0 (s.core p).lastUse (4 + r % 4) v.cc } := by
      refine (SMap.get_set_same Core.init (SMap.rising_mod (d := Core.init) rising p fun c => { c with writeBack := l }) _ _).trans ?_
      have took : v.core p = { s.core p with writeBack := l } := SMap.get_set_same Core.init rising _ _
      rw [took]
    refine ⟨v.useBank p (r % 4), congrArg Host.Outcome.next (by simp only [queue]; rfl), by rw [shown]; rfl, by rw [shown], fun q other => ?_, rfl, rfl,
      fun r' l' same => ?_⟩
    · exact (State.core_modCore_other _ _ other).trans (State.core_modCore_other _ _ other)
    · obtain ⟨rfl, rfl⟩ := List.cons.inj same
      rfl

/-- The patrol without upsets and injections reads a row of each bank that is not in retention. -/
theorem State.patrolScrub_clean {s : State} {p : Nat} (rising : SMap.rising 0 s.cores = true) (banks : SMap.rising 0 (s.core p).patrol = true)
    (fix : s.armed 0x9001 (s.logicalOf p) 0 = false) (lose : s.armed 0x9002 (s.logicalOf p) 4 = false) :
    ∃ t, exec (.patrolScrub p ⟨[], []⟩) s = .next t
      ∧ (∀ b, b < 4 → SMap.get 0 (t.core p).patrol b = if maskBit (s.core p).retained b then SMap.get 0 (s.core p).patrol b
          else (SMap.get 0 (s.core p).patrol b + 1) % 2048)
      ∧ (t.core p).rows = (s.core p).rows ∧ (t.core p).writeBack = (s.core p).writeBack ∧ t.regs = s.regs := by
  let l := (List.range 4).filter fun b => !maskBit (s.core p).retained b
  obtain ⟨patrol, rows, back, regs, fab⟩ := State.patrolled_banks l s (List.nodup_range.filter _) rising banks
  obtain ⟨kept, stored⟩ := State.whenFetched_keeps (s := s) (run := fun s => l.foldl (fun s b => s.patrolled p b) s) (congrArg (·.wanted) fab)
  have core : ∀ q, (s.whenFetched fun s => l.foldl (fun s b => s.patrolled p b) s).core q = (l.foldl (fun s b => s.patrolled p b) s).core q :=
    fun q => congrArg (fun m => SMap.get Core.init m q) kept
  refine ⟨s.whenFetched fun s => l.foldl (fun s b => s.patrolled p b) s,
    congrArg Host.Outcome.next (State.whenFetched_congr (State.patrol_banks fix lose l)), fun b small => ?_,
    (congrArg Core.rows (core p)).trans rows, (congrArg Core.writeBack (core p)).trans back, stored.trans regs⟩
  rw [core, patrol b]
  have listed : b ∈ l ↔ maskBit (s.core p).retained b = false := by simp [l, small]
  by_cases retained : maskBit (s.core p).retained b = true
  · rw [if_neg (by rw [listed, retained]; decide), if_pos retained]
  · rw [if_pos (listed.mpr (eq_false_of_ne_true retained)), if_neg retained]

/-- Settles O41: the patrol passes the banks one by one; a channel issues the first request whose bank is ready, and what its transfer
does follows from its kind and from what the checks find at its units. -/
theorem memoryIsRequestedAndPatrolled : Obligations.MemoryIsRequestedAndPatrolled := by
  unfold Obligations.MemoryIsRequestedAndPatrolled
  refine ⟨fun s p rising => State.scrubWriteBack_row rising p,
    fun s p rising banks fix lose => State.patrolScrub_clean rising banks fix lose,
    fun s p up one => ⟨fun corrected found lose => ?_, fun corrected found fix => ⟨fun none => ?_, fun q some => ⟨fun ro => ?_, fun rw' => ?_⟩⟩⟩,
    fun s u c => ⟨fun queue waiting idle active => ?_, fun busy => ?_⟩,
    fun s u c q l k first unarmed => ⟨fun ready => ?_, fun blocked aged => ?_, fun r m rest blocked young ready clean write => ?_⟩,
    fun s q o => ⟨fun failed => ?_, fun trained => ⟨fun poisoned => ?_, fun good => ?_⟩⟩, fun s u c k empty => ?_,
    fun s u g => ⟨fun k x line => ⟨fun aged => ?_, fun young => ?_⟩, fun none => ?_⟩,
    fun s u n => ⟨fun passed => ?_, fun inside up free => ?_⟩⟩
  · exact (State.patrolScrub_first one).trans (congrArg Host.Outcome.next (State.whenFetched_congr (State.patrol_corrected corrected found lose)))
  · exact (State.patrolScrub_first one).trans
      (congrArg Host.Outcome.next (State.whenFetched_congr ((State.patrol_lost corrected found fix).1 none)))
  · exact (State.patrolScrub_first one).trans
      (congrArg Host.Outcome.next (State.whenFetched_congr (((State.patrol_lost corrected found fix).2 q some).trans (if_pos ro))))
  · exact (State.patrolScrub_first one).trans
      (congrArg Host.Outcome.next (State.whenFetched_congr (((State.patrol_lost corrected found fix).2 q some).trans
        (if_neg (ne_true_of_eq_false rw')))))
  · exact congrArg Host.Outcome.next (if_pos (by simp [queue, waiting, idle, active]))
  · refine congrArg Host.Outcome.next (if_neg ?_)
    simp only [Bool.and_eq_true, List.isEmpty_iff, decide_eq_true_eq]
    rintro ⟨⟨⟨queue, waiting⟩, idle⟩, -⟩
    rcases busy with busy | busy | busy
    · exact busy queue
    · exact busy waiting
    · omega
  · obtain ⟨write, read, failed, reissued⟩ := State.memoryRequest_ready k first unarmed ready
    exact ⟨write, read, failed, reissued,
      fun o single clean ondie second => State.memoryRequest_unit first unarmed ready single clean ondie second⟩
  · exact State.memoryRequest_none (by rw [first, State.pickRequest_aged blocked aged])
  · subst rest
    refine (State.memoryRequest_picks (q := r) (l := q :: m) ?_).trans (congrArg Host.Outcome.next ?_)
    · rw [first, State.pickRequest_passes blocked young, State.pickRequest_ready ready]
      rfl
    · rw [State.transfer_write (r.fails_of_clean clean) write, State.retried_clean (s := s.issued u c (q :: m)) clean unarmed]
      rfl
  · exact if_pos failed
  · exact (if_neg (ne_true_of_eq_false trained)).trans (if_pos poisoned)
  · exact (if_neg (ne_true_of_eq_false trained)).trans (if_neg (ne_true_of_eq_false good))
  · exact State.memoryRequest_none (by rw [empty]; rfl)
  · refine congrArg Host.Outcome.next ?_
    simp only [line]
    exact if_pos aged
  · refine congrArg Host.Outcome.next ?_
    simp only [line]
    exact if_neg (Nat.not_le.mpr young)
  · refine congrArg Host.Outcome.next ?_
    simp only [none]
  · refine congrArg Host.Outcome.next (if_pos ?_)
    rcases passed with h | h | h
    all_goals simp [h]
  · refine congrArg Host.Outcome.next (if_neg ?_)
    simp [free, up, inside]

end Sys2Proof.Machine
end

section
/-! Proofs of chapter 09: dictionary sluices (R317, R42). -/
set_option Elab.async false
namespace Sys2Proof.Machine

/-- The group of a sluice of the PF that has begun, and of which a part was lost on a die that has stopped since. -/
def lostGroup : Group :=
  { id := 0, issuer := .sluice 0, die := 0, part := some 0, items := [], failed := false, lost := true, phase := .begun, stalled := false,
    after := none, locks := [] }

/-- READY with that sluice open and two entries staged in it. -/
def State.losesSluice : State :=
  { State.reset with
    top := { State.reset.top with dev := .ready }
    sl := { State.reset.sl with
      dicts := [(0, some ⟨0, [(0x3000, 2, 0, [5, 0]), (0x7001, 1, 0, [9])], 0⟩)]
      groups := [lostGroup]
      nextGroup := 1 } }

/-- The commit finds the group broken, and ends with FAILED_LIMIT. -/
theorem State.losesSluice_status : (State.losesSluice.scalarWrite 0 0x1110 2 1).areg 0 0x1110 4 = 3 := by decide +kernel

/-- What the clause asks of the two entries. -/
theorem State.losesSluice_rows : ∃ q r, dictFind 0x3000 2 = some q ∧ dictFind 0x7001 1 = some r ∧ [5, 0].length = q.ty.bytes
    ∧ [9].length = r.ty.bytes ∧ q.ty.bytes ≠ 0 ∧ r.ty.bytes ≠ 0 :=
  ⟨(dictFind 0x3000 2).get (by decide +kernel), (dictFind 0x7001 1).get (by decide +kernel), by decide +kernel⟩

/-- Refutes O24: a group that has begun may have lost a part on a die that has stopped (R42); the commit of its sluice then ends with
FAILED_LIMIT, though neither entry has a limit and the group has not failed. -/
theorem not_dictionarySluicesBeginCommitAndEnd : ¬ Obligations.DictionarySluicesBeginCommitAndEnd := by
  rintro ⟨-, commits, -⟩
  obtain ⟨q, r, first, second, two, one, scalar, scalar'⟩ := State.losesSluice_rows
  obtain ⟨t, ran, -, -, status, -⟩ := commits State.losesSluice 0 0x3000 0x7001 2 1 0 [5, 0] [9] q r lostGroup (by decide +kernel)
    (by decide) (by decide) (by decide) rfl (by decide) (by decide) rfl rfl rfl rfl rfl rfl (by decide) (by decide) (by decide) (by decide)
    (by decide +kernel) first second two one scalar scalar' (by decide +kernel) (by decide +kernel) (by decide +kernel) (by decide)
    (by decide) (by decide) (by decide) (by decide +kernel)
  obtain rfl : State.losesSluice.scalarWrite 0 0x1110 2 1 = t := Host.Outcome.next.inj ran
  rw [State.losesSluice_status] at status
  exact absurd status (by decide)

end Sys2Proof.Machine
end

section
/-! Proofs of chapters 08 and 09: the accesses of the dictionary whose items concern both dies (R257, R303, R304, R308, R309). -/
set_option Elab.async false
namespace Sys2Proof.Machine

/-! ### What the opening of a group leaves (R284, R285) -/

/-- The order of marks: the last one, P on each die, the groups, and the dictionary sluices. -/
def State.order (s : State) : Nat × Two Nat × List Group × SMap (Option DictSluice) :=
  (s.sl.lastMark, s.sl.p, s.sl.groups, s.sl.dicts)

theorem State.order_of_sl {s t : State} (same : t.sl = s.sl) : t.order = s.order ∧ t.sl.locks = s.sl.locks := by
  unfold State.order
  rw [same]
  exact ⟨rfl, rfl⟩

theorem State.order_copyVersions (s : State) (t r d : Nat) :
    (s.copyVersions t r d).order = s.order ∧ (s.copyVersions t r d).sl.locks = s.sl.locks := by
  unfold State.copyVersions
  dsimp only
  split <;> exact ⟨rfl, rfl⟩

/-- An item that takes effect neither opens a group nor moves a mark. -/
theorem State.order_applyItem (s : State) (m : Nat) (i : Item) :
    (s.applyItem m i).order = s.order ∧ (s.applyItem m i).sl.locks = s.sl.locks := by
  cases i with
  | stream n mask value =>
    unfold State.applyItem
    exact State.order_of_sl rfl
  | table t d =>
    refine State.order_of_sl ?_
    have set : (s.setTable t m (setFld d 511 464 (tdUpdateCount (s.table t)))).sl = s.sl :=
      (Keeps.setTable (Keeps.refl s) (hm := Sub.refl _)).frame .sl rfl
    unfold State.applyItem
    dsimp only
    split
    · exact ((Keeps.dropPeers (Keeps.refl _) (hm := Sub.refl _)).frame .sl rfl).trans set
    · exact set
  | count t =>
    have set (d : Desc) : (s.setTable t m d).sl = s.sl := (Keeps.setTable (Keeps.refl s) (hm := Sub.refl _)).frame .sl rfl
    exact State.order_of_sl (set (setFld (s.table t) 511 464 (tdUpdateCount (s.table t) + 1)))
  | replica d t r data mark => exact (State.order_copyVersions _ t r d)
  | dropReplica d t r =>
    refine State.order_of_sl ?_
    unfold State.applyItem
    dsimp only
    split <;> rfl
  | reloc t r dest k => exact ⟨rfl, rfl⟩
  | holder t r k nm => exact ⟨rfl, rfl⟩
  | mapAdd t p => exact ⟨rfl, rfl⟩
  | mapRemove t p => exact ⟨rfl, rfl⟩
  | swap p x a b =>
    refine State.order_of_sl ?_
    unfold State.applyItem
    dsimp only
    split <;> rfl
  | dict acc idx sub offset bytes => exact ⟨rfl, rfl⟩

theorem State.order_takeItem (s : State) (m : Nat) (i : Item) :
    (s.takeItem m i).order = s.order ∧ (s.takeItem m i).sl.locks = s.sl.locks := by
  unfold State.takeItem
  split
  · exact ⟨rfl, rfl⟩
  split
  · exact ⟨rfl, rfl⟩
  · exact State.order_applyItem s m i

theorem State.order_spread (s : State) (g : Nat) : (s.spread g).order = s.order ∧ (s.spread g).sl.locks = s.sl.locks := by
  refine ⟨foldl_view State.order _ (fun t q => ?_) _ s, foldl_view (fun t : State => t.sl.locks) _ (fun t q => ?_) _ s⟩
  all_goals
    dsimp only
    split <;> rfl

theorem State.order_rearm (s : State) (d : Nat) : (s.rearm d).order = s.order ∧ (s.rearm d).sl.locks = s.sl.locks := by
  unfold State.rearm
  split <;> exact ⟨rfl, rfl⟩

theorem State.writeBlock_sl (s : State) (job : Option Nat) (b : Block) : (s.writeBlock job b).sl = s.sl :=
  (Keeps.writeBlock (Keeps.refl s) (hm := Sub.refl _)).frame .sl rfl

/-- An opened group has the next mark, published on the keeper's die, and is one of the groups no more. -/
theorem State.openGroup_order (s : State) (x : Group) :
    (s.openGroup x).order = ((s.sl.lastMark + 1) % 2 ^ 48, s.sl.p.set s.keeper ((s.sl.lastMark + 1) % 2 ^ 48),
      s.sl.groups.filter (fun y => y.id ≠ x.id), s.sl.dicts) ∧ ∀ l ∈ (s.openGroup x).sl.locks, l.2.2 ≠ x.id := by
  have top : (s.spread x.id).top = s.top := (Keeps.spread (Keeps.refl s) (hm := Sub.refl _)).frame .top rfl
  have keeper : (s.spread x.id).keeper = s.keeper := by
    unfold State.keeper
    rw [top]
  have order := (s.order_spread x.id).1
  simp only [State.order, Prod.mk.injEq] at order
  obtain ⟨last, published, groups, dicts⟩ := order
  unfold State.openGroup
  extract_lets m t0 x0 t1 mine free tag blocks x1 t2 t3 t4 t5
  have marked : t1.order = (m, s.sl.p.set s.keeper m, s.sl.groups.filter (fun y => y.id ≠ x.id), s.sl.dicts) := by
    simp only [t1, x0, t0, State.order, State.takeMark, last, published, groups, dicts, keeper, m]
  have written : t3.order = t2.order := (foldl_view State.order _ (fun t b => (State.order_of_sl (t.writeBlock_sl x.job? b)).1) blocks t2)
  have taken : t4.order = t3.order := foldl_view State.order _ (fun t i => (t.order_takeItem m i).1) x.items t3
  have rearmed : t5.order = t4.order ∧ ∀ l ∈ t5.sl.locks, l.2.2 ≠ x.id := by
    have unlocked (t : State) : ((((t.unlock x.id).countOpened x.part).rearm 0).rearm 1).order = t.order ∧
        ((((t.unlock x.id).countOpened x.part).rearm 0).rearm 1).sl.locks = t.sl.locks.filter fun l => l.2.2 ≠ x.id := by
      obtain ⟨order1, locks1⟩ := (((t.unlock x.id).countOpened x.part).rearm 0).order_rearm 1
      obtain ⟨order0, locks0⟩ := ((t.unlock x.id).countOpened x.part).order_rearm 0
      obtain ⟨order, locks⟩ := State.order_of_sl (State.countOpened_sl (t.unlock x.id) x.part)
      exact ⟨order1.trans (order0.trans order), locks1.trans (locks0.trans locks)⟩
    refine ⟨(unlocked t4).1, fun l listed => ?_⟩
    rw [(unlocked t4).2] at listed
    simpa using (List.mem_filter.mp listed).2
  have result : t5.order = _ := rearmed.1.trans (taken.trans (written.trans marked))
  split
  · exact ⟨result, rearmed.2⟩
  · exact ⟨result, rearmed.2⟩

theorem State.openGroup_opened (s : State) (x : Group) : s.Opened (s.openGroup x) x := by
  obtain ⟨order, locks⟩ := s.openGroup_order x
  simp only [State.order, Prod.mk.injEq] at order
  obtain ⟨last, published, groups, -⟩ := order
  refine ⟨last, ?_, ?_, locks⟩
  · rw [published]
    unfold State.keeper
    split <;> rfl
  · unfold State.group?
    rw [groups]
    exact List.find?_eq_none.mpr fun y listed => by simpa using (List.mem_filter.mp listed).2

/-! ### Accesses of both dies -/

/-- An item whose readers are on both dies: a descriptor, or a change of the mapped-out list. -/
def Item.wide : Item → Bool
  | .table _ _ => true
  | .mapAdd _ _ => true
  | .mapRemove _ _ => true
  | _ => false

section
variable {s : State} {acc idx sub offset : Nat} {bytes : List Byte} {l : List Item}

/-- A write that is accepted begins a group with its items, which is then decided. -/
theorem State.writeEntry_items (takes : s.Takes acc idx sub offset bytes) (items : s.writeItems acc idx sub offset bytes = some l)
    (group : s.dictGroup acc l = (s.addGroup (Group.access s.newGroup acc l), s.newGroup)) (e : Env) :
    s.writeEntry acc idx sub offset bytes e = (s.addGroup (Group.access s.newGroup acc l)).decideDict acc s.newGroup e := by
  obtain ⟨served, idle, ⟨r, found, writable, fits, quiet⟩, right, plain, alone, size, runs, room, marks⟩ := takes
  have free : (decide (r.acc = .rwq) && !s.quiet idx sub) = false := by
    cases h : decide (r.acc = .rwq)
    · rfl
    · simp [quiet (of_decide_eq_true h)]
  unfold State.writeEntry
  simp only [found, writable, right, fits, alone, items]
  simp [plain, free, group]

theorem State.dictGroup_wide {i : Item} (wide : i.wide = true) :
    s.dictGroup acc [i] = (s.addGroup (Group.access s.newGroup acc [i]), s.newGroup) := by
  refine State.dictGroup_one ?_ ?_
  all_goals
    cases i with
    | table => simp [Item.cost]
    | mapAdd => simp [Item.cost]
    | mapRemove => simp [Item.cost]
    | _ => nomatch wide

/-- The dies of a wide item's group are those that run. -/
theorem State.partsOf_wide {x : Group} {i : Item} (bare : s.sl.Bare x.id) (wide : i.wide = true) (one : x.items = [i]) :
    s.partsOf x = ([0, 1] : List Nat).filter fun d => !s.top.stopped.get d := by
  unfold State.partsOf
  rw [bare.versionsOf, bare.blocksOf, bare.accumsOf, one]
  cases i with
  | table => rfl
  | mapAdd => rfl
  | mapRemove => rfl
  | _ => nomatch wide

end

/-! ### With both dies running -/

section
variable {s : State} {acc idx sub offset : Nat} {bytes : List Byte} {i : Item}

/-- The group of a wide item is prepared on the other die first. -/
theorem State.decideGroup_wide (wide : i.wide = true) (room : s.groupRoom 0 = true) (runs : s.top.stopped.d0 = false)
    (runs' : s.top.stopped.d1 = false) : (s.addGroup (Group.access s.newGroup acc [i])).decideGroup s.newGroup =
      (s.addGroup { Group.access s.newGroup acc [i] with phase := .prepare }).bump 0x6800 10 1 := by
  have found : (s.addGroup (Group.access s.newGroup acc [i])).group? s.newGroup = some (Group.access s.newGroup acc [i]) :=
    State.group?_addGroup s.newGroup_fresh
  have both : (s.addGroup (Group.access s.newGroup acc [i])).twoDie (Group.access s.newGroup acc [i]) = true := by
    unfold State.twoDie
    rw [State.partsOf_wide (State.addGroup_bare s.newGroup_fresh) wide rfl]
    simp [State.addGroup, Two.get, runs, runs']
  have runs0 : (s.addGroup (Group.access s.newGroup acc [i])).top.stopped.get 0 = false := runs
  have prepared := State.modGroup_addGroup (x := Group.access s.newGroup acc [i]) s.newGroup_fresh (fun y => { y with phase := .prepare }) rfl
  unfold State.decideGroup
  simp only [found, State.mustQueue_access room, both]
  refine (if_neg ?_).trans ((if_neg Bool.false_ne_true).trans ((if_neg ?_).trans ((if_pos trivial).trans ?_)))
  · rw [show (Group.access s.newGroup acc [i]).die = 0 from rfl, runs0]
    exact Bool.false_ne_true
  · exact GPhase.noConfusion
  · exact congrArg (fun t : State => t.bump 0x6800 10 1) prepared

/-- What a write of a wide item leaves where both dies run. -/
theorem State.dictWrite_prepares (takes : s.Takes acc idx sub offset bytes) (items : s.writeItems acc idx sub offset bytes = some [i])
    (wide : i.wide = true) (runs' : s.top.stopped.d1 = false) (e : Env) :
    s.PreparedWith (s.dictWrite acc idx sub offset bytes e) acc [i] := by
  let x : Group := { Group.access s.newGroup acc [i] with phase := .prepare }
  let t := (s.addGroup x).bump 0x6800 10 1
  have shown : t.group? s.newGroup = some x := State.group?_addGroup (x := x) s.newGroup_fresh
  have wrote : s.writeEntry acc idx sub offset bytes e = (t, drPending) := by
    have found : (s.addGroup (Group.access s.newGroup acc [i])).group? s.newGroup = some (Group.access s.newGroup acc [i]) :=
      State.group?_addGroup s.newGroup_fresh
    rw [State.writeEntry_items takes items (State.dictGroup_wide wide)]
    unfold State.decideDict
    simp only [found, State.decideGroup_wide wide takes.room takes.runs runs']
    exact if_pos (by rw [Option.isSome_iff_exists]; exact ⟨x, shown⟩)
  rw [State.dictWrite_writeEntry takes.served takes.idle wrote]
  have busy : t.dictBusy acc = true := by
    refine List.any_eq_true.mpr ⟨x, List.mem_append_right _ List.mem_cons_self, decide_eq_true rfl⟩
  have answered : acc ≤ 16 → ((t.answer acc drPending (t.valueBytes acc idx sub).length []).mailbox acc).status = drPending := by
    intro _
    exact congrArg Mailbox.status (SMap.get_set_listed Mailbox.init _ acc fun h =>
      absurd (show drPending = Mailbox.init.status from congrArg Mailbox.status h) (by decide))
  unfold State.replied
  split
  · next listed => exact ⟨⟨x, shown, rfl, rfl, rfl, rfl, rfl⟩, rfl, busy, rfl, answered⟩
  · next unlisted => exact ⟨⟨x, shown, rfl, rfl, rfl, rfl, rfl⟩, rfl, busy, rfl, fun listed => absurd listed unlisted⟩

end

/-! ### With die 1 stopped -/

/-- A group of one die that is the keeper's opens when it is decided (R287, R303). -/
theorem State.decideGroup_keeper {s : State} {x : Group} (found : s.group? x.id = some x) (good : x.failed = false) (whole : x.lost = false)
    (die : x.die = 0) (begun : x.phase ≠ .queued) (room : s.mustQueue x = false) (runs : s.top.stopped.d0 = false)
    (marks : s.stalled (s.sl.lastMark + 1) = false) (one : s.twoDie x = false) : s.decideGroup x.id = s.openGroup x := by
  have keeper : s.keeper = 0 := by simp [State.keeper, Two.get, runs]
  unfold State.decideGroup State.markGroup State.askMarks
  simp only [found, good, whole, die, Two.get, runs, room, one, keeper]
  simp [begun, marks]

section
variable {s : State} {acc idx sub offset : Nat} {bytes : List Byte} {l : List Item}

/-- The next mark is assigned, and published on die 0, with the number of a new group used. -/
def State.nextMark (s : State) : State :=
  { s with sl := { s.sl with nextGroup := s.newGroup + 1, lastMark := (s.sl.lastMark + 1) % 2 ^ 48,
                             p := { s.sl.p with d0 := (s.sl.lastMark + 1) % 2 ^ 48 } } }

/-- What a group that has opened is counted as, and what it locks no more (R268, R301, R319). -/
def State.closesGroup (s : State) (g : Nat) (part : Option Nat) : State := (((s.unlock g).countOpened part).rearm 0).rearm 1

/-- What the opening of an access's group leaves. -/
def State.accessOpened (s : State) (acc : Nat) (l : List Item) : State :=
  (l.foldl (fun (u : State) i => u.takeItem ((s.sl.lastMark + 1) % 2 ^ 48) i) s.nextMark).closesGroup s.newGroup (accPart acc)

theorem State.closesGroup_order (s : State) (g : Nat) (part : Option Nat) : (s.closesGroup g part).order = s.order :=
  ((((s.unlock g).countOpened part).rearm 0).order_rearm 1).1.trans
    ((((s.unlock g).countOpened part).order_rearm 0).1.trans (State.order_of_sl (State.countOpened_sl (s.unlock g) part)).1)

theorem State.closesGroup_frame (s : State) (g : Nat) (part : Option Nat) :
    (s.closesGroup g part).tab = s.tab ∧ (s.closesGroup g part).mem = s.mem := by
  have kept : Keeps (64 ||| 32768) s (s.closesGroup g part) :=
    Keeps.rearm (Keeps.rearm (Keeps.countOpened (Keeps.unlock (Keeps.refl s) (hm := Sub.of (Sub.refl _) (by decide)))
      (hm := Sub.of (Sub.refl _) (by decide))) (hm := Sub.of (Sub.refl _) (by decide))) (hm := Sub.of (Sub.refl _) (by decide))
  exact ⟨kept.frame .tab rfl, kept.frame .mem rfl⟩

theorem State.decideGroup_access_one (room : s.groupRoom 0 = true) (runs : s.top.stopped.d0 = false)
    (marks : s.stalled (s.sl.lastMark + 1) = false)
    (one : (s.addGroup (Group.access s.newGroup acc l)).twoDie (Group.access s.newGroup acc l) = false) :
    (s.addGroup (Group.access s.newGroup acc l)).decideGroup s.newGroup = s.accessOpened acc l := by
  have opened := State.decideGroup_keeper (s := s.addGroup (Group.access s.newGroup acc l)) (x := Group.access s.newGroup acc l)
    (State.group?_addGroup s.newGroup_fresh) rfl rfl rfl GPhase.noConfusion (State.mustQueue_access room) runs marks one
  have bare := State.openGroup_bare (s := s.addGroup (Group.access s.newGroup acc l)) (x := Group.access s.newGroup acc l)
    (State.addGroup_bare s.newGroup_fresh) runs rfl
  have at' : (s.addGroup (Group.access s.newGroup acc l)).markedAt s.newGroup = s.nextMark :=
    State.markedAt_addGroup (x := Group.access s.newGroup acc l) s.newGroup_fresh
  refine (opened.trans bare).trans ?_
  unfold State.accessOpened
  rw [← at']
  rfl

theorem State.accessOpened_order (s : State) (acc : Nat) (l : List Item) : (s.accessOpened acc l).order = s.nextMark.order :=
  (State.closesGroup_order _ _ _).trans (foldl_view State.order _ (fun t i => (t.order_takeItem _ i).1) l s.nextMark)

theorem State.storeItem_wide {i : Item} (wide : i.wide = true) (s : State) : s.storeItem i = s := by
  cases i with
  | dict => nomatch wide
  | _ => rfl

theorem State.actItem_wide {i : Item} (wide : i.wide = true) (s : State) (e : Env) : s.actItem e i = s := by
  cases i with
  | dict => nomatch wide
  | _ => rfl

theorem Item.plain_of_wide {i : Item} (wide : i.wide = true) : i.trunk? = none ∧ i.routes = false := by
  cases i with
  | dict => nomatch wide
  | _ => exact ⟨rfl, rfl⟩

/-- An item that is no entry of the dictionary leaves nothing to be done once it has opened. -/
theorem State.finishDict_wide {t : State} (wide : ∀ i ∈ l, i.wide = true) (closed : t.sluiceOpen acc = none) (e : Env) :
    t.finishDict acc l e = t := by
  have stored : l.foldl State.storeItem t = t := by
    refine List.foldlRecOn l State.storeItem (motive := fun u => u = t) rfl fun u same i listed => ?_
    rw [State.storeItem_wide (wide i listed), same]
  have acted : l.foldl (fun (s : State) i => s.actItem e i) t = t := by
    refine List.foldlRecOn l (fun (s : State) i => s.actItem e i) (motive := fun u => u = t) rfl fun u same i listed => ?_
    rw [State.actItem_wide (wide i listed), same]
  have trunks : l.filterMap Item.trunk? = [] := List.filterMap_eq_nil_iff.mpr fun i listed => (Item.plain_of_wide (wide i listed)).1
  have routes : l.any Item.routes = false := List.any_eq_false.mpr fun i listed => by rw [(Item.plain_of_wide (wide i listed)).2]; decide
  unfold State.finishDict State.routesOpened
  simp only [stored, closed, trunks, routes]
  exact acted

/-- What a write leaves whose group opens at once. -/
theorem State.dictWrite_opens (takes : s.Takes acc idx sub offset bytes) (items : s.writeItems acc idx sub offset bytes = some l)
    (group : s.dictGroup acc l = (s.addGroup (Group.access s.newGroup acc l), s.newGroup)) (wide : ∀ i ∈ l, i.wide = true)
    (one : (s.addGroup (Group.access s.newGroup acc l)).twoDie (Group.access s.newGroup acc l) = false) (e : Env) :
    s.dictWrite acc idx sub offset bytes e = (s.accessOpened acc l).replied acc drDone idx sub := by
  have order := s.accessOpened_order acc l
  simp only [State.order, Prod.mk.injEq] at order
  obtain ⟨-, -, groups, dicts⟩ := order
  have closed : (s.accessOpened acc l).sluiceOpen acc = none :=
    (congrArg (fun m => SMap.get none m acc) dicts).trans takes.alone
  have gone : (s.accessOpened acc l).group? s.newGroup = none := by
    have others := (Sluice.bare_of_not_mem s.newGroup_fresh).2
    unfold State.group?
    rw [groups]
    exact List.find?_eq_none.mpr fun y listed => by simpa using others y listed
  refine State.dictWrite_writeEntry takes.served takes.idle ?_
  rw [State.writeEntry_items takes items group]
  have found : (s.addGroup (Group.access s.newGroup acc l)).group? s.newGroup = some (Group.access s.newGroup acc l) :=
    State.group?_addGroup s.newGroup_fresh
  unfold State.decideDict
  simp only [found, State.decideGroup_access_one takes.room takes.runs takes.marks one, gone]
  exact congrArg (·, drDone) (State.finishDict_wide wide closed e)

/-- With die 1 stopped a wide item has parts on die 0 alone. -/
theorem State.twoDie_wide {i : Item} (wide : i.wide = true) (stopped : s.top.stopped.d1 = true) :
    (s.addGroup (Group.access s.newGroup acc [i])).twoDie (Group.access s.newGroup acc [i]) = false := by
  unfold State.twoDie
  rw [State.partsOf_wide (State.addGroup_bare s.newGroup_fresh) wide rfl]
  simp [State.addGroup, Two.get, stopped]

/-- A group without items has no parts. -/
theorem State.twoDie_nil : (s.addGroup (Group.access s.newGroup acc [])).twoDie (Group.access s.newGroup acc []) = false := by
  have parts : ((s.addGroup (Group.access s.newGroup acc [])).partsOf (Group.access s.newGroup acc [])).contains 1 = false :=
    State.partsOf_bare (State.addGroup_bare s.newGroup_fresh) fun _ listed => absurd listed List.not_mem_nil
  exact (congrArg (_ && ·) parts).trans (Bool.and_false _)

/-- A wide item takes effect at the mark, for every reader. -/
theorem State.takeItem_wide {i : Item} (wide : i.wide = true) (t : State) (m : Nat) : t.takeItem m i = t.applyItem m i := by
  cases i with
  | table => rfl
  | mapAdd => rfl
  | mapRemove => rfl
  | _ => nomatch wide

@[simp] theorem State.replied_tab (t : State) (res : Nat) : (t.replied acc res idx sub).tab = t.tab :=
  ite_view State.tab rfl rfl

@[simp] theorem State.replied_sl (t : State) (res : Nat) : (t.replied acc res idx sub).sl = t.sl :=
  ite_view State.sl rfl rfl

@[simp] theorem State.replied_mem (t : State) (res : Nat) : (t.replied acc res idx sub).mem = t.mem :=
  ite_view State.mem rfl rfl

end

/-! ### Descriptors and the mapped-out list (R249, R257) -/

/-- A descriptor that takes effect is the newest of its table, with the table's own update count, and no other table's. -/
theorem State.applyItem_table (s : State) (m n : Nat) (d : Desc) :
    (s.applyItem m (.table n d)).table n = setFld d 511 464 (tdUpdateCount (s.table n))
    ∧ ∀ k, k ≠ n → (s.applyItem m (.table n d)).table k = s.table k := by
  let d' := setFld d 511 464 (tdUpdateCount (s.table n))
  have dropped (t : State) : (t.dropPeers n).tab = t.tab := (Keeps.dropPeers (Keeps.refl t) (hm := Sub.refl _)).frame .tab rfl
  have desc : (s.applyItem m (.table n d)).tab.desc = SMap.mod [] s.tab.desc n fun l => (m, d') :: l := by
    unfold State.applyItem
    dsimp only
    split
    · exact congrArg Tables.desc (dropped _)
    · rfl
  refine ⟨?_, fun k other => ?_⟩
  · unfold State.table
    rw [desc, SMap.mod, SMap.get_set_listed _ _ _ (List.cons_ne_nil _ _)]
    rfl
  · unfold State.table
    rw [desc, SMap.mod, SMap.get_set_other _ _ _ _ other]

section
variable {s : State} {acc idx sub offset : Nat} {bytes : List Byte}

/-- A write of one wide item with die 1 stopped. -/
theorem State.dictWrite_wide {i : Item} (takes : s.Takes acc idx sub offset bytes)
    (items : s.writeItems acc idx sub offset bytes = some [i]) (wide : i.wide = true) (stopped : s.top.stopped.d1 = true) (e : Env) :
    let t := s.dictWrite acc idx sub offset bytes e
    t.tab = (s.nextMark.applyItem ((s.sl.lastMark + 1) % 2 ^ 48) i).tab ∧ t.mem = s.mem
      ∧ t.sl.lastMark = (s.sl.lastMark + 1) % 2 ^ 48 := by
  intro t
  have wrote : t = (s.accessOpened acc [i]).replied acc drDone idx sub := State.dictWrite_opens takes items (State.dictGroup_wide wide)
    (fun j listed => by rw [List.mem_singleton.mp listed]; exact wide) (State.twoDie_wide wide stopped) e
  obtain ⟨tab, mem⟩ := State.closesGroup_frame (s.nextMark.takeItem ((s.sl.lastMark + 1) % 2 ^ 48) i) s.newGroup (accPart acc)
  have order := s.accessOpened_order acc [i]
  simp only [State.order, Prod.mk.injEq] at order
  have applied := State.takeItem_wide wide s.nextMark ((s.sl.lastMark + 1) % 2 ^ 48)
  rw [wrote, State.replied_tab, State.replied_mem, State.replied_sl]
  refine ⟨tab.trans (congrArg State.tab applied), mem.trans ?_, order.1⟩
  exact (Keeps.takeItem (Keeps.refl s.nextMark) (hm := Sub.refl _)).frame .mem rfl

/-- A write without an item opens a group that changes nothing of the tables. -/
theorem State.dictWrite_nothing (takes : s.Takes acc idx sub offset bytes) (items : s.writeItems acc idx sub offset bytes = some [])
    (e : Env) : (s.dictWrite acc idx sub offset bytes e).tab = s.tab ∧ (s.dictWrite acc idx sub offset bytes e).dictBusy acc = false := by
  have order := s.accessOpened_order acc []
  simp only [State.order, Prod.mk.injEq] at order
  obtain ⟨-, -, groups, -⟩ := order
  rw [State.dictWrite_opens takes items rfl (fun _ listed => absurd listed List.not_mem_nil) State.twoDie_nil e]
  refine ⟨(State.replied_tab _ _).trans (State.closesGroup_frame s.nextMark s.newGroup (accPart acc)).1, ?_⟩
  unfold State.dictBusy
  rw [State.replied_sl, groups]
  exact takes.idle

theorem State.dictWrite_range (takes : s.Takes acc idx sub offset bytes) (items : s.writeItems acc idx sub offset bytes = none) (e : Env) :
    s.dictWrite acc idx sub offset bytes e = s.replied acc drRange idx sub := by
  refine State.dictWrite_writeEntry takes.served takes.idle ?_
  obtain ⟨served, idle, ⟨r, found, writable, fits, quiet⟩, right, plain, alone, size, runs, room, marks⟩ := takes
  have free : (decide (r.acc = .rwq) && !s.quiet idx sub) = false := by
    cases h : decide (r.acc = .rwq)
    · rfl
    · simp [quiet (of_decide_eq_true h)]
  unfold State.writeEntry
  simp only [found, writable, right, fits, alone, items]
  simp [plain, free]

end

/-- The items of a write to the mapped-out list. -/
theorem State.writeItems_mapout (s : State) (acc sub offset v n p : Nat) (bytes : List Byte) (value : leNat bytes = v)
    (arg : mapoutArg v = (n, p)) : s.writeItems acc 0x6003 sub offset bytes =
      if sub = 3 then some (if s.mapouts.contains (n, p) then [.mapRemove n p] else [])
      else if s.mapouts.contains (n, p) then some []
      else if 1024 ≤ s.mapouts.length then none
      else some [.mapAdd n p] := by
  unfold State.writeItems
  simp [value, arg]

/-- The write of a whole scalar, as the write of its bytes. -/
theorem State.TakesScalar.writes {s : State} {acc idx sub v : Nat} (takes : s.TakesScalar acc idx sub v) :
    ∃ bytes, leNat bytes = v ∧ s.Takes acc idx sub 0 bytes ∧ ∀ e, s.scalarWrite acc idx sub v e = s.dictWrite acc idx sub 0 bytes e := by
  obtain ⟨r, found, scalar, small, accepted⟩ := takes
  refine ⟨_, leNat_leBytes small, accepted, fun e => ?_⟩
  unfold State.scalarWrite
  simp only [found]

/-! ### The closed step, the sketch, and the obligation (R260, R308, R309) -/

theorem State.act_stepClose (s : State) (acc : Nat) (bytes : List Byte) (e : Env) : s.act acc 0x6810 2 0 bytes e = s.writeStepClose (leNat bytes) := rfl

theorem dictFind_stepClose : (dictFind 0x6810 2).map (fun r => r.ty.bytes) = some 4 := by decide +kernel

/-- An accepted write of step_close takes the next mark; a value below the present one is ignored. -/
theorem State.scalarWrite_stepClose {s : State} {acc v : Nat} (takes : s.TakesScalar acc 0x6810 2 v) :
    s.scalarWrite acc 0x6810 2 v =
      (if s.reg 0x6810 2 ≤ v then (((s.marked acc).setReg 0x6810 2 v).announce.watchTurn) else s.marked acc).saysDone acc 0x6810 2 := by
  obtain ⟨bytes, value, ran⟩ := State.scalarWrite_acts takes (by decide) (by decide) (by decide) Env.none
  obtain ⟨r, found, -, small, -⟩ := takes
  have wide := dictFind_stepClose
  rw [found] at wide
  have four : r.ty.bytes = 4 := Option.some.inj wide
  rw [four] at small
  have kept : (s.marked acc).reg 0x6810 2 = s.reg 0x6810 2 := State.marked_reg_sub s acc (by decide) (by decide) (by decide)
  rw [ran, State.act_stepClose, value, State.writeStepClose, kept, Nat.mod_eq_of_lt small]

/-- Halving the counters of a sketch, and dropping those that come to 0, halves what each key reads as. -/
theorem SMap.get_halved {lo : Nat} {m : SMap Nat} (rising : SMap.rising lo m = true) (k : Nat) :
    SMap.get 0 ((m.map fun c => (c.1, c.2 / 2)).filter fun c => c.2 ≠ 0) k = SMap.get 0 m k / 2 := by
  induction m generalizing lo with
  | nil => exact (Nat.zero_div 2).symm
  | cons q m ih =>
    obtain ⟨j, a⟩ := q
    obtain ⟨-, above⟩ := Bool.and_eq_true_iff.mp rising
    rw [List.map_cons, List.filter_cons, SMap.get]
    by_cases zero : a / 2 = 0
    · rw [if_neg (by simpa using zero), ih above]
      split
      · next same => rw [SMap.get_of_rising 0 above (by omega), zero]
      · rfl
    · rw [if_pos (by simpa using zero), SMap.get, ih above]
      split <;> rfl

/-- Settles O26: with both dies running the group of a wide item is prepared; with die 1 stopped it opens, and its item takes effect. -/
theorem tableWritesAreTwoDieGroups : Obligations.TableWritesAreTwoDieGroups := by
  unfold Obligations.TableWritesAreTwoDieGroups
  refine ⟨fun s acc offset bytes takes => ?_, fun s acc v n p arg => ?_, fun s acc v takes => ⟨fun above => ?_, fun below => ?_⟩, fun s => ?_⟩
  · have items : s.writeItems acc 0x6001 2 offset bytes = some [.table (s.areg acc 0x6001 1 % 4096)
        (Desc.patch (s.table (s.areg acc 0x6001 1 % 4096)) acc offset bytes)] := rfl
    refine ⟨fun runs => ⟨_, rfl, State.dictWrite_prepares takes items rfl runs Env.none⟩, fun stopped => ⟨_, rfl, ?_⟩⟩
    obtain ⟨tab, mem, mark⟩ := State.dictWrite_wide takes items rfl stopped Env.none
    obtain ⟨own, others⟩ := s.nextMark.applyItem_table ((s.sl.lastMark + 1) % 2 ^ 48) (s.areg acc 0x6001 1 % 4096)
      (Desc.patch (s.table (s.areg acc 0x6001 1 % 4096)) acc offset bytes)
    have table {t u : State} (same : t.tab = u.tab) (k : Nat) : t.table k = u.table k := by
      unfold State.table
      rw [same]
    exact ⟨(table tab _).trans own, fun k other => (table tab k).trans (others k other), mark, mem⟩
  · have listed (sub : Nat) (bytes : List Byte) (value : leNat bytes = v) := s.writeItems_mapout acc sub 0 v n p bytes value arg
    refine ⟨fun takes absent few => ?_, fun takes present => ?_, fun takes absent full => ?_, fun takes present => ?_, fun takes absent => ?_⟩
    · obtain ⟨bytes, value, accepted, ran⟩ := takes.writes
      have items : s.writeItems acc 0x6003 2 0 bytes = some [.mapAdd n p] := by
        rw [listed 2 bytes value, absent]
        exact if_neg (Nat.not_le.mpr few)
      refine ⟨fun runs => ⟨_, congrArg Host.Outcome.next (ran Env.none), State.dictWrite_prepares accepted items rfl runs Env.none⟩,
        fun stopped => ⟨_, congrArg Host.Outcome.next (ran Env.none), (State.dictWrite_wide accepted items rfl stopped Env.none).1⟩⟩
    · obtain ⟨bytes, value, accepted, ran⟩ := takes.writes
      have items : s.writeItems acc 0x6003 2 0 bytes = some [] := by
        rw [listed 2 bytes value, present]
        rfl
      exact ⟨_, congrArg Host.Outcome.next (ran Env.none), State.dictWrite_nothing accepted items Env.none⟩
    · obtain ⟨bytes, value, accepted, ran⟩ := takes.writes
      have items : s.writeItems acc 0x6003 2 0 bytes = none := by
        rw [listed 2 bytes value, absent]
        exact if_pos full
      exact congrArg Host.Outcome.next ((ran Env.none).trans (State.dictWrite_range accepted items Env.none))
    · obtain ⟨bytes, value, accepted, ran⟩ := takes.writes
      have items : s.writeItems acc 0x6003 3 0 bytes = some [.mapRemove n p] := by
        rw [listed 3 bytes value, present]
        rfl
      refine ⟨fun runs => ⟨_, congrArg Host.Outcome.next (ran Env.none), State.dictWrite_prepares accepted items rfl runs Env.none⟩,
        fun stopped => ⟨_, congrArg Host.Outcome.next (ran Env.none), (State.dictWrite_wide accepted items rfl stopped Env.none).1⟩⟩
    · obtain ⟨bytes, value, accepted, ran⟩ := takes.writes
      have items : s.writeItems acc 0x6003 3 0 bytes = some [] := by
        rw [listed 3 bytes value, absent]
        rfl
      exact ⟨_, congrArg Host.Outcome.next (ran Env.none), State.dictWrite_nothing accepted items Env.none⟩
  · exact congrArg Host.Outcome.next ((State.scalarWrite_stepClose takes).trans
      (congrArg (fun t : State => t.saysDone acc 0x6810 2) (if_pos above)))
  · exact congrArg Host.Outcome.next ((State.scalarWrite_stepClose takes).trans
      (congrArg (fun t : State => t.saysDone acc 0x6810 2) (if_neg (Nat.not_le.mpr below))))
  · exact ⟨_, rfl, rfl, rfl, fun rising k => SMap.get_halved rising k⟩

end Sys2Proof.Machine
end

section
/-! Proofs of chapter 09: how groups are decided, and what P, pins, drains and stagings do (R285, R286, R296, R299, R301, R304). -/
set_option Elab.async false
namespace Sys2Proof.Machine

/-! ### Decisions (R286, R303, R304) -/

section
variable {s : State} {x : Group}

theorem State.prepare_staged {g : Nat} (found : s.group? g = some x) (phase : x.phase = .prepare)
    (staged : ∀ w ∈ s.sl.waits.get (1 - x.die), (∀ v ∈ w.versions, v.2.grp ≠ g) ∧ ∀ b ∈ w.blocks, b.2.grp ≠ g) :
    exec (.prepare g) s = .next (s.modGroup g fun y => { y with phase := .answered (!y.failed && !y.lost) }) := by
  have none : ((s.sl.waits.get (1 - x.die)).any fun w =>
      (w.versions.any fun v => v.2.grp = g) || w.blocks.any fun b => b.2.grp = g) = false := by
    refine List.any_eq_false.mpr fun w listed => ?_
    obtain ⟨versions, blocks⟩ := staged w listed
    simp only [Bool.or_eq_true, List.any_eq_true, decide_eq_true_eq]
    rintro (⟨v, listed, same⟩ | ⟨b, listed, same⟩)
    · exact versions v listed same
    · exact blocks b listed same
  refine congrArg Host.Outcome.next ?_
  simp only [found, none, phase]
  rfl

/-- A group that asks for a mark is one of those that wait for one. -/
theorem State.group?_modGroup (found : s.group? x.id = some x) (f : Group → Group) (same : ∀ y, (f y).id = y.id) :
    (s.modGroup x.id f).group? x.id ≠ none := by
  obtain ⟨listed, own⟩ : x ∈ s.sl.groups ∧ x.id = x.id := ⟨List.mem_of_find?_eq_some found, rfl⟩
  unfold State.group? State.modGroup
  intro none
  refine List.find?_eq_none.mp none (f x) (List.mem_map.mpr ⟨x, listed, if_pos own⟩) ?_
  simpa using same x

/-- The keeper's group opens when its mark is asked for. -/
theorem State.markAndFollow_opens (free : s.stalled (s.sl.lastMark + 1) = false) (atKeeper : x.die = s.keeper ∨ x.phase = .marking) :
    s.markAndFollow x = (s.openGroup x).afterGroup x true := by
  have asked : s.askMarks [x] (x.die = s.keeper || x.phase = .marking) = (s, true) := by
    unfold State.askMarks
    simp [free, atKeeper]
  have marked : s.markGroup x = s.openGroup x := by
    unfold State.markGroup
    simp only [asked]
  unfold State.markAndFollow
  simp only [marked, (s.openGroup_opened x).removed]
  rfl

/-- A group of one that asks for marks waits for its own. -/
theorem State.asked_groups (s : State) (x : Group) (stall : Bool) (f : Group → Group)
    (same : ∀ y, f y = { y with phase := .marking, stalled := y.stalled || stall }) (ask : Group → Group)
    (asks : ∀ y, ask y = if [x].any (fun x => x.id = y.id) then { y with phase := .marking, stalled := y.stalled || stall } else y) :
    { s with sl := { s.sl with groups := s.sl.groups.map ask } } = s.modGroup x.id f := by
  have groups : s.sl.groups.map ask = s.sl.groups.map fun y => if y.id = x.id then f y else y :=
    List.map_congr_left fun y _ => by simp [same, asks, eq_comm]
  unfold State.modGroup
  rw [groups]

theorem State.markAndFollow_asks (found : s.group? x.id = some x) (free : s.stalled (s.sl.lastMark + 1) = false)
    (other : x.die ≠ s.keeper) (phase : x.phase ≠ .marking) :
    s.markAndFollow x = s.modGroup x.id fun y => { y with phase := .marking } := by
  have asked : s.askMarks [x] (x.die = s.keeper || x.phase = .marking) = (s.modGroup x.id fun y => { y with phase := .marking }, false) := by
    unfold State.askMarks
    simp only [List.isEmpty_cons, List.length_singleton, free, other, phase]
    exact congrArg (·, false) (s.asked_groups x false _ (fun y => by rw [Bool.or_false]) _ fun _ => rfl)
  have kept : (s.modGroup x.id fun y => { y with phase := .marking }).group? x.id ≠ none := State.group?_modGroup found _ fun _ => rfl
  have marked : s.markGroup x = s.modGroup x.id fun y => { y with phase := .marking } := by
    unfold State.markGroup
    simp only [asked]
  unfold State.markAndFollow
  simp only [marked]
  exact if_pos (Option.isSome_iff_ne_none.mpr kept)

theorem State.markAndFollow_waits (found : s.group? x.id = some x) (far : s.stalled (s.sl.lastMark + 1) = true) :
    let w := s.modGroup x.id fun y => { y with phase := .marking, stalled := true }
    s.markAndFollow x = if x.stalled then w else w.bump 0x6800 4 1 := by
  intro w
  have kept : w.group? x.id ≠ none := State.group?_modGroup found _ fun _ => rfl
  have waits : { s with sl := { s.sl with groups := s.sl.groups.map _ } } = w :=
    s.asked_groups x true (fun y => { y with phase := .marking, stalled := true }) (fun y => by rw [Bool.or_true]) _ fun _ => rfl
  have asked (b : Bool) : s.askMarks [x] b = (if x.stalled then w else w.bump 0x6800 4 1, false) := by
    unfold State.askMarks
    simp only [List.isEmpty_cons, List.length_singleton, far, waits]
    simp only [List.any_cons, List.any_nil, Bool.or_false]
    rfl
  have marked : s.markGroup x = if x.stalled then w else w.bump 0x6800 4 1 := by
    unfold State.markGroup
    simp only [asked]
  unfold State.markAndFollow
  simp only [marked]
  refine if_pos (Option.isSome_iff_ne_none.mpr ?_)
  split
  · exact kept
  · exact kept

/-- What an answer to a prepare does of a group that no job and no batch owns. -/
theorem State.prepareAnswer_ready {t : State} (found : s.group? x.id = some x) (job : x.job? = none) (batch : s.batchOf x = none)
    (phase : x.phase = .answered true) (marks : s.markAndFollow x = t) :
    exec (.prepareAnswer x.id) s = .next t.settleOps.tearSettle.mctpPump := by
  refine congrArg Host.Outcome.next ?_
  simp only [found, phase, job, batch, if_true, marks]

theorem State.prepareAnswer_failed (found : s.group? x.id = some x) (job : x.job? = none) (batch : s.batchOf x = none)
    (phase : x.phase = .answered false) : exec (.prepareAnswer x.id) s = .next (s.failPrepared x).settleOps.tearSettle.mctpPump := by
  refine congrArg Host.Outcome.next ?_
  simp only [found, phase, job, batch, Bool.false_eq_true, if_false]

theorem State.markRequest_own {t : State} (found : s.group? x.id = some x) (job : x.job? = none) (batch : s.batchOf x = none)
    (phase : x.phase = .marking) (marks : s.markAndFollow x = t) :
    exec (.markRequest x.id) s = .next t.settleOps.tearSettle.mctpPump := by
  refine congrArg Host.Outcome.next ?_
  simp only [found, phase, job, batch, marks]
  exact if_neg (not_not_intro rfl)

end

/-! ### Drains (R299) -/

/-- A drain that begins asks for its permit. -/
theorem State.drain_begins {s : State} {d : Nat} (runs : s.top.stopped.get d = false) (idle : (s.sl.drain.get d).isNone = true)
    (rows : drainRows (s.eligible d) [] ≠ []) : ∃ t, exec (.drain d) s = .next t
      ∧ t.sl.drain.get d = some ⟨drainRows (s.eligible d) [], s.now⟩ ∧ t.sl.versions = s.sl.versions ∧ t.mem = s.mem
      ∧ ((s.gov d).held = [] → (s.gov d).asks = [] → (s.gov d).queue = [] → (t.gov d).asks = [⟨.drain, .sluice d⟩]) := by
  let u : State := { s with sl := { s.sl with drain := s.sl.drain.set d (some ⟨drainRows (s.eligible d) [], s.now⟩) } }
  have two {α : Type} (t : Two α) (a : α) : (t.set d a).get d = a := by
    unfold Two.set Two.get
    split <;> rfl
  have kept : Keeps 32 u (u.askPermit ⟨.drain, .sluice d⟩) := Keeps.askPermit (Keeps.refl u) (hm := Sub.refl _)
  have sl : (u.askPermit ⟨.drain, .sluice d⟩).sl = u.sl := kept.frame .sl rfl
  refine ⟨u.askPermit ⟨.drain, .sluice d⟩, congrArg Host.Outcome.next (if_neg ?_), ?_, (congrArg Sluice.versions sl).trans rfl, kept.frame .mem rfl,
    fun held asks queue => ?_⟩
  · simp [Option.isNone_iff_eq_none.mp idle, rows, runs]
  · rw [sl]
    exact two _ _
  · have free : (s.gov d).grants ⟨.drain, .sluice d⟩ = false := by simp [Governor.grants, held]
    have fresh : (s.gov d).asked ⟨.drain, .sluice d⟩ = false := by simp [Governor.asked, asks, queue]
    have asked : u.askPermit ⟨.drain, .sluice d⟩ = u.setGov d { s.gov d with asks := (s.gov d).asks ++ [⟨.drain, .sluice d⟩] } :=
      (if_neg (ne_true_of_eq_false free)).trans (if_neg (ne_true_of_eq_false fresh))
    rw [asked]
    refine (congrArg Governor.asks (two u.pow.gov _)).trans ?_
    rw [asks]
    rfl

theorem State.drainBatchComplete_runs {s : State} {d : Nat} {b : Drain} (batch : s.sl.drain.get d = some b)
    (holds : s.holdsPermit ⟨.drain, .sluice d⟩ = true) (free : ∀ x ∈ b.rows, s.locked x.1 x.2.1 = false) :
    let u := b.rows.foldl (fun s x => s.drainRow d x) s
    exec (.drainBatchComplete d) s = .next ((((({ u with sl := { u.sl with drain := u.sl.drain.set d none } } : State).bump
      (0x6801 + d) 8 1).rearm 0).rearm 1).returnPermit ⟨.drain, .sluice d⟩) := by
  intro u
  have unlocked : (b.rows.any fun x => s.locked x.1 x.2.1) = false :=
    List.any_eq_false.mpr fun x listed => ne_true_of_eq_false (free x listed)
  refine congrArg Host.Outcome.next ?_
  simp only [batch, holds, unlocked]
  rfl

/-! ### Stagings that wait (R292, R301) -/

/-- The staging that finds space is put, and its wait is counted. -/
theorem State.resumeStaging_picks {s : State} {d : Nat} {w : StageWait} {l : List StageWait}
    (picks : pickWait (fun w => w.notBefore ≤ s.now && s.hasSpace w) [] (s.sl.waits.get d) = some (w, l)) :
    s.resumeStaging d = w.full.foldl (fun t k => t.bump (0x6801 + k) 10 (cyclesNs (s.now - w.since)))
      (({ s with sl := { s.sl with waits := s.sl.waits.set d l } } : State).putStaged w) := by
  unfold State.resumeStaging
  simp only [picks]

theorem State.putStaged_groups (s : State) (w : StageWait) : (s.putStaged w).sl.groups = s.sl.groups := by
  unfold State.putStaged
  refine (foldl_view (fun t : State => t.sl.groups) _ (fun _ _ => ?_) w.blocks _).trans
    (foldl_view (fun t : State => t.sl.groups) _ (fun _ _ => ?_) w.versions s)
  all_goals rfl

theorem State.resumeStaging_groups (s : State) (d : Nat) : (s.resumeStaging d).sl.groups = s.sl.groups := by
  unfold State.resumeStaging
  split
  · next w l _ =>
    refine (foldl_view (fun t : State => t.sl.groups) _ (fun _ _ => ?_) w.full _).trans (State.putStaged_groups _ w)
    rfl
  · rfl

/-- A group that waits to begin, and that its issuer begins early, begins where there is room. -/
theorem State.beginQueued_early {s : State} {d : Nat} {x : Group} (first : s.sl.groups.find? (fun x => x.phase = .queued && x.die = d) = some x)
    (early : x.issuer.early = true) :
    s.beginQueued d = if s.groupRoom d then s.modGroup x.id fun y => { y with phase := .begun } else s := by
  unfold State.beginQueued
  simp only [first, early, Bool.true_or, if_true]
  cases s.groupRoom d <;> rfl

theorem State.beginQueued_none {s : State} {d : Nat} (none : ∀ x ∈ s.sl.groups, x.phase = .queued → x.die ≠ d) : s.beginQueued d = s := by
  have found : s.sl.groups.find? (fun x => x.phase = .queued && x.die = d) = .none := by
    refine List.find?_eq_none.mpr fun x listed => ?_
    simp only [Bool.and_eq_true, decide_eq_true_eq]
    exact fun waits => none x listed waits.1 waits.2
  unfold State.beginQueued
  simp only [found]

theorem State.stagingResume_begins {s v w : State} {d : Nat} (resumed : s.resumeStaging d = v) (begins : v.beginQueued d = w) :
    exec (.stagingResume d) s = .next w.openArrived.settleOps.tearSettle.mctpPump := by
  subst resumed begins
  rfl

theorem State.stagingResume_goes {s v : State} {d : Nat} (resumed : s.resumeStaging d = v)
    (idle : (s.resumeStaging d).beginQueued d = s.resumeStaging d) :
    exec (.stagingResume d) s = .next v.openArrived.settleOps.tearSettle.mctpPump :=
  State.stagingResume_begins rfl (idle.trans resumed)

/-! ### The obligation -/

/-- Settles O27: a group is decided by its phase, its die and whether its mark would stall; opening it leaves no group of its number. -/
theorem groupsAreDecidedAndOpen : Obligations.GroupsAreDecidedAndOpen := by
  unfold Obligations.GroupsAreDecidedAndOpen
  refine ⟨fun s g x found phase staged => State.prepare_staged found phase staged, State.openGroup_opened,
    fun s x found job batch => ⟨fun phase free => ⟨fun keeper => ?_, fun other => ?_⟩, fun phase far => ?_, fun phase => ?_, fun phase free => ?_⟩,
    fun s => ⟨fun runs0 runs1 => ⟨?_, fun m p x a b later idle => ?_⟩, rfl⟩,
    fun s d die runs => ⟨fun idle rows => State.drain_begins runs idle rows, fun none => ?_⟩,
    fun s d b batch => ⟨fun holds free => State.drainBatchComplete_runs batch holds free, fun lacks => ?_⟩,
    fun s d w l picks => ⟨fun none => ?_, fun x first early => ⟨fun room => ?_, fun full => ?_⟩⟩⟩
  · exact State.prepareAnswer_ready found job batch phase (State.markAndFollow_opens free (.inl keeper))
  · exact State.prepareAnswer_ready found job batch phase
      (State.markAndFollow_asks found free other (by rw [phase]; exact GPhase.noConfusion))
  · exact State.prepareAnswer_ready found job batch phase (State.markAndFollow_waits found far)
  · exact State.prepareAnswer_failed found job batch phase
  · exact State.markRequest_own found job batch phase (State.markAndFollow_opens free (.inr phase))
  · refine congrArg Host.Outcome.next (if_neg ?_)
    rw [runs0, runs1]
    decide
  · refine (congrArg Host.Outcome.next (if_neg ?_)).trans (congrArg Host.Outcome.next ?_)
    · rw [runs0, runs1]
      decide
    · unfold State.takeLater
      rw [later]
      exact if_neg (ne_true_of_eq_false (congrArg Option.isSome idle))
  · exact congrArg Host.Outcome.next (if_pos (by simp [none]))
  · refine congrArg Host.Outcome.next ?_
    simp only [batch, lacks]
    rfl
  · exact State.stagingResume_goes (State.resumeStaging_picks picks) (State.beginQueued_none (by rw [s.resumeStaging_groups]; exact none))
  · have begins := State.beginQueued_early (s := s.resumeStaging d) (by rw [s.resumeStaging_groups]; exact first) early
    rw [State.resumeStaging_picks picks] at begins
    exact State.stagingResume_begins (State.resumeStaging_picks picks) (begins.trans (if_pos room))
  · have begins := State.beginQueued_early (s := s.resumeStaging d) (by rw [s.resumeStaging_groups]; exact first) early
    rw [State.resumeStaging_picks picks] at begins
    exact State.stagingResume_begins (State.resumeStaging_picks picks) (begins.trans (if_neg (ne_true_of_eq_false full)))

end Sys2Proof.Machine
end

section
/-! Proofs of chapter 06: stream commands (R200 to R202, R218 to R222). -/
set_option Elab.async false
namespace Sys2Proof.Machine

/-! ### What dispatch leaves of streams -/

section
variable (s : State) (f q : Nat) (d : Desc)

theorem State.popDesc_strm : (s.popDesc f q d).strm = s.strm ∧ (s.popDesc f q d).free = s.free := by
  unfold State.popDesc
  dsimp only
  split <;> exact ⟨rfl, rfl⟩

@[simp] theorem State.popDesc_entry (n : Nat) : (s.popDesc f q d).entry n = s.entry n := by
  unfold State.entry
  rw [(s.popDesc_strm f q d).1]

@[simp] theorem State.popDesc_chunksOf (n : Nat) : (s.popDesc f q d).chunksOf n = s.chunksOf n := by
  unfold State.chunksOf
  rw [(s.popDesc_strm f q d).1]

theorem State.popDesc_stk {n : Nat} (small : n < 32) : (s.popDesc f q d).stk n 2 = s.stk n 2 :=
  s.popDesc_reg f q d (by omega) (by decide)

theorem scStack_lt (d : Desc) : scStack d < 32 := Nat.mod_lt _ (by decide)

theorem seStack_lt (d : Desc) : seStack d < 32 := Nat.mod_lt _ (by decide)

@[simp] theorem State.popDesc_scStack (e : Desc) : (s.popDesc f q d).stk (scStack e) 2 = s.stk (scStack e) 2 :=
  s.popDesc_stk f q d (scStack_lt e)

@[simp] theorem State.popDesc_streamPart (n : Nat) : (s.popDesc f q d).streamPart n = s.streamPart n := by
  unfold State.streamPart
  rw [State.popDesc_entry]
  exact s.popDesc_stk f q d (seStack_lt _)

@[simp] theorem State.popDesc_streamForeign (e : Desc) : (s.popDesc f q d).streamForeign f e = s.streamForeign f e := by
  simp [State.streamForeign]

@[simp] theorem State.popDesc_streamHeld (n : Nat) : (s.popDesc f q d).streamHeld n = s.streamHeld n := by
  unfold State.streamHeld
  rw [(s.popDesc_strm f q d).1, (s.popDesc_frame f q d).2.1]

@[simp] theorem State.popDesc_streamBlocked (e : Desc) : (s.popDesc f q d).streamBlocked e = s.streamBlocked e := by
  simp [State.streamBlocked]

omit f q d in
/-- Where an address lies is said by the entries of the dictionary. -/
theorem State.place_of_regs {s t : State} (regs : t.regs = s.regs) (a : Nat) : t.place a = s.place a := by
  unfold State.place State.localPlace State.me State.rangeSize State.reg
  rw [regs]

omit f q d in
theorem State.place_setBusy (x : Streams) (n b a : Nat) : (State.setBusy { s with strm := x } n b).place a = s.place a :=
  State.place_of_regs (by unfold State.setBusy State.modEntry; rfl) a

theorem State.popDesc_place (a : Nat) : (s.popDesc f q d).place a = s.place a := by
  have size {u : Nat} (known : u < 8) : (s.popDesc f q d).rangeSize u = s.rangeSize u :=
    s.popDesc_reg f q d (by have := rangeIdx_small known; omega) (by decide)
  have me : (s.popDesc f q d).me = s.me := s.popDesc_reg f q d (by decide) (by decide)
  have localPlace (b : Nat) : (s.popDesc f q d).localPlace b = s.localPlace b := by
    unfold State.localPlace
    split
    · rw [size (by omega)]
    · split
      · next within =>
        simp only [Bool.and_eq_true, decide_eq_true_eq] at within
        simp only [size (show 2 + b / 2 ^ 39 < 8 by omega)]
      · rfl
  unfold State.place
  simp only [me, localPlace]

end

/-! ### Dispatch and effect (R202, R451) -/

section
variable {s : State} {f q op : Nat} {d : Desc}

/-- The dispatch of a stream command, by what holds in the state before it. -/
theorem State.streamCommand_front (front : s.Front f q d) (kind : descKind d = 4) (op' : descOp d = op) (legal : 1 ≤ op ∧ op ≤ 6) :
    s.streamCommand f q op =
      if s.streamForeign f d then .next ((s.popDesc f q d).complete f q d (s.headAfter f q d) stFault)
      else if s.streamHeld (scStream d) || s.streamBlocked d || s.strm.waiting.any (fun w => scStream w.2.2.2 = scStream d) then
        .next { s.popDesc f q d with strm := { s.strm with waiting := s.strm.waiting ++ [(f, q, s.headAfter f q d, d)] } }
      else .next ((s.popDesc f q d).streamRun f q (s.headAfter f q d) d) := by
  have own : isCmd 4 op d = true := by simp [isCmd, kind, op']
  have open' : reservedOp d = false := by
    simp only [reservedOp, kind, op']
    simp
    omega
  have taken := State.take_front front open' own
  have strm := (s.popDesc_strm f q d).1
  unfold State.streamCommand
  simp only [taken, State.popDesc_streamForeign, State.popDesc_streamHeld, State.popDesc_streamBlocked, strm]

/-- A command of the function's own streams that nothing holds back takes effect. -/
theorem State.streamCommand_runs (clear : s.StreamFront f q d op) (legal : 1 ≤ op ∧ op ≤ 6) (own : s.streamForeign f d = false) :
    s.streamCommand f q op = .next ((s.popDesc f q d).streamRun f q (s.headAfter f q d) d) := by
  obtain ⟨front, kind, op', free, unblocked, first⟩ := clear
  have alone : s.strm.waiting.any (fun w => scStream w.2.2.2 = scStream d) = false :=
    List.any_eq_false.mpr fun w listed => by simpa using first w listed
  rw [State.streamCommand_front front kind op' legal]
  simp [own, free, unblocked, alone]

theorem State.streamForeign_own (own : s.ownStream f (scStream d)) (notCreate : descOp d ≠ 1) : s.streamForeign f d = false := by
  simp [State.streamForeign, own.2, notCreate]

theorem State.streamForeign_invalid (invalid : seValid (s.entry (scStream d)) = false) (notCreate : descOp d ≠ 1) :
    s.streamForeign f d = false := by
  simp [State.streamForeign, invalid, notCreate]

/-- An op other than CREATE on an invalid entry ends with a free status. -/
theorem State.streamCommand_invalid (clear : s.StreamFront f q d op) (legal : 2 ≤ op ∧ op ≤ 6)
    (invalid : seValid (s.entry (scStream d)) = false) :
    s.streamCommand f q op = .next ((s.popDesc f q d).freeEnd f q d (s.headAfter f q d)) := by
  have notCreate : descOp d ≠ 1 := by rw [clear.op]; omega
  rw [State.streamCommand_runs clear ⟨by omega, legal.2⟩ (State.streamForeign_invalid invalid notCreate)]
  unfold State.streamRun
  simp [notCreate, invalid]

/-- An op other than CREATE on the function's own stream. -/
theorem State.streamCommand_own (clear : s.StreamFront f q d op) (legal : 2 ≤ op ∧ op ≤ 6) (own : s.ownStream f (scStream d)) {t : State}
    (runs : (s.popDesc f q d).streamRun f q (s.headAfter f q d) d = t) : s.streamCommand f q op = .next t := by
  have notCreate : descOp d ≠ 1 := by rw [clear.op]; omega
  rw [State.streamCommand_runs clear ⟨by omega, legal.2⟩ (State.streamForeign_own own notCreate), runs]

/-- What an op other than CREATE does on a valid stream of the function. -/
theorem State.streamRun_own {h : Nat} (own : s.ownStream f (scStream d)) (notCreate : descOp d ≠ 1) : s.streamRun f q h d =
    if descOp d = 2 then s.resetStream f q h d
    else if descOp d = 3 then s.beginMove f q h d
    else if descOp d = 4 then s.streamGroup f q h d [(311, 292, scDeadline d)]
    else if descOp d = 5 then if seBusy (s.entry (scStream d)) ≠ busyHeld then s.complete f q d h stState else s.resumeStream f q h d
    else (s.clearStream (scStream d) 0).streamGroup f q h d [(254, 254, 0)] := by
  unfold State.streamRun
  simp only [notCreate, own.1, own.2]
  simp only [if_false, Bool.not_true, Bool.false_eq_true, decide_true]
  split <;> simp_all

theorem State.popDesc_ownStream {n : Nat} (own : s.ownStream f n) : (s.popDesc f q d).ownStream f n :=
  ⟨by rw [State.popDesc_entry]; exact own.1, by rw [State.popDesc_streamPart]; exact own.2⟩

/-- CREATE on a stack of the function's partition, by the entry before it (R200, R201). -/
theorem State.streamCreate_runs (clear : s.StreamFront f q d 1) (stack : s.stk (scStack d) 2 = f - 1) :
    (seValid (s.entry (scStream d)) = false →
      exec (.streamCreate f q) s = .next ((s.popDesc f q d).createStream f q (s.headAfter f q d) d))
    ∧ (s.ownStream f (scStream d) →
      let w : State := { s.popDesc f q d with free := s.free + 1 }
      exec (.streamCreate f q) s = .next (w.createStream f q (s.headAfter f q d) d)
      ∨ exec (.streamCreate f q) s = .next (w.freeEnd f q d (s.headAfter f q d))) := by
  have free := (s.popDesc_strm f q d).2
  refine ⟨fun invalid => ?_, fun own => ?_⟩
  · have foreign : s.streamForeign f d = false := by simp [State.streamForeign, invalid, stack]
    refine (State.streamCommand_runs clear (by decide) foreign).trans (congrArg Host.Outcome.next ?_)
    simp [State.streamRun, clear.op, stack, invalid]
  · have foreign : s.streamForeign f d = false := by simp [State.streamForeign, own.2, stack]
    have runs := State.streamCommand_runs clear (by decide) foreign
    have effect : (s.popDesc f q d).streamRun f q (s.headAfter f q d) d =
        if (Config.freeValue s.free).toNat % 2 = 1 then
          State.createStream { s.popDesc f q d with free := s.free + 1 } f q (s.headAfter f q d) d
        else State.freeEnd { s.popDesc f q d with free := s.free + 1 } f q d (s.headAfter f q d) := by
      unfold State.streamRun
      simp [clear.op, stack, own.1, own.2, free]
    rw [effect] at runs
    by_cases odd : (Config.freeValue s.free).toNat % 2 = 1
    · exact .inl (runs.trans (congrArg Host.Outcome.next (if_pos odd)))
    · exact .inr (runs.trans (congrArg Host.Outcome.next (if_neg odd)))

/-- RESET where no batch of the stream runs (R193). -/
theorem State.streamReset_runs (clear : s.StreamFront f q d 2) (own : s.ownStream f (scStream d))
    (idle : seBusy (s.entry (scStream d)) ≠ busyRunning) :
    exec (.streamReset f q) s = .next (if seReq (s.entry (scStream d)) = seAck (s.entry (scStream d)) then
        (s.popDesc f q d).streamGroup f q (s.headAfter f q d) d [(267, 264, seReq (s.entry (scStream d)) + 1)]
      else (s.popDesc f q d).complete f q d (s.headAfter f q d) stCompleted) := by
  refine State.streamCommand_own clear (by decide) own ?_
  rw [State.streamRun_own (State.popDesc_ownStream own) (by rw [clear.op]; decide), if_pos clear.op]
  unfold State.resetStream
  simp [idle]

/-- MOVE between places of the module (R221). -/
theorem State.move_runs (clear : s.StreamFront f q d 3) (own : s.ownStream f (scStream d)) :
    let e := s.entry (scStream d)
    (seRes e = 1 ∨ scRes d = 1 → exec (.move f q) s = .next ((s.popDesc f q d).freeEnd f q d (s.headAfter f q d)))
    ∧ (seRes e ≠ 1 → scRes d ≠ 1 → (∀ m a, s.place (scPtr d) ≠ .remote m a) →
      (∀ m a, s.place (blockAddr (sePtr e) (seRows e) (seCur e)) ≠ .remote m a) →
      exec (.move f q) s = .next (State.setBusy { s.popDesc f q d with strm := { s.strm with moves := s.strm.moves ++
        [⟨scStream d, f, q, s.headAfter f q d, d, seBusy e = busyHeld, false, false⟩] } } (scStream d) busyMoving)) := by
  intro e
  have begins : ∀ t, (s.popDesc f q d).beginMove f q (s.headAfter f q d) d = t → exec (.move f q) s = .next t := by
    intro t effect
    refine State.streamCommand_own clear (by decide) own ?_
    rw [State.streamRun_own (State.popDesc_ownStream own) (by rw [clear.op]; decide), if_neg (by rw [clear.op]; decide), if_pos clear.op,
      effect]
  refine ⟨fun cistern => begins _ ?_, fun tier tier' near near' => begins _ ?_⟩
  · unfold State.beginMove
    refine if_pos ?_
    rw [State.popDesc_entry]
    rcases cistern with h | h
    all_goals simp [h, e]
  · have strm := (s.popDesc_strm f q d).1
    unfold State.beginMove
    simp only [State.popDesc_entry, strm]
    refine (if_neg ?_).trans ?_
    · split
      · next m a far => exact absurd far (by rw [State.popDesc_place]; exact near m a)
      · simp [e, tier, tier']
    · split
      · next m a far =>
        rw [State.place_setBusy, State.popDesc_place] at far
        exact absurd far (near' m a)
      · rfl

/-- RESUME of a HELD stream that has a held chunk (R218). -/
theorem State.resume_runs (clear : s.StreamFront f q d 5) (own : s.ownStream f (scStream d)) {t : State}
    (effect : (if seBusy (s.entry (scStream d)) ≠ busyHeld then (s.popDesc f q d).complete f q d (s.headAfter f q d) stState
      else (s.popDesc f q d).resumeStream f q (s.headAfter f q d) d) = t) : exec (.resume f q) s = .next t := by
  refine State.streamCommand_own clear (by decide) own ?_
  rw [State.streamRun_own (State.popDesc_ownStream own) (by rw [clear.op]; decide), State.popDesc_entry]
  simp only [clear.op]
  exact effect

/-- A RESUME of a HELD stream, by its action: 0 requeues the held chunk, 1 discards it, another one does either (R9, R218). -/
theorem State.resumeStream_held {h now free : Nat} {c : Chunk} (now' : s.now = now) (free' : s.free = free) (held : (s.chunksOf (scStream d)).find? (fun c => c.st = .held) = some c) :
    let back (w : State) : State := (w.modChunk c.id fun x => { x with st := .queued, missed := x.missed || x.due ≤ now }).streamGroup
      f q h d [(256, 255, busyIdle)]
    let drop (w : State) : State := (w.discardChunk c 2).streamGroup f q h d [(256, 255, busyIdle)]
    (scAction d = 0 → s.resumeStream f q h d = back s) ∧ (scAction d = 1 → s.resumeStream f q h d = drop s)
    ∧ (1 < scAction d → s.resumeStream f q h d = back { s with free := free + 1 } ∨ s.resumeStream f q h d = drop { s with free := free + 1 }) := by
  subst now' free'
  intro back drop
  refine ⟨fun requeue => ?_, fun discard => ?_, fun reserved => ?_⟩
  · unfold State.resumeStream
    simp [held, requeue, back]
  · unfold State.resumeStream
    simp [held, discard, drop]
  · by_cases even : (Config.freeValue s.free).toNat % 2 = 0
    · refine .inl ?_
      unfold State.resumeStream
      simp [held, reserved, even, back]
    · refine .inr ?_
      unfold State.resumeStream
      simp [held, reserved, even, drop]

theorem State.popDesc_now : (s.popDesc f q d).now = s.now := (s.popDesc_frame f q d).2.2.1

/-! ### Waiting commands and copies -/

theorem State.moveCopyComplete_near {n : Nat} {ue : List Nat} {m : MoveOp} (found : s.strm.moves.find? (fun m => m.stream = n) = some m)
    (answered : s.stateWaits n 1 = false) (whole : m.failed = false) (near : ∀ k a, s.place (scPtr m.desc) ≠ .remote k a) :
    exec (.moveCopyComplete n ue) s = .next (s.whenFetched fun s => (s.copyState m ue).1.endMove m (s.copyState m ue).2) := by
  refine congrArg Host.Outcome.next ?_
  simp only [found, answered, whole]
  cases place : s.place (scPtr m.desc) with
  | remote k a => exact absurd place (near k a)
  | _ =>
    simp only [Bool.false_and, Bool.false_eq_true, if_false]
    refine congrArg s.whenFetched (funext fun t => ?_)
    split
    · next copied => rw [copied]
    · next copied => rw [copied]

theorem State.stSet_runs (clear : s.StreamFront f q d 4) (own : s.ownStream f (scStream d)) :
    exec (.stSet f q) s = .next ((s.popDesc f q d).streamGroup f q (s.headAfter f q d) d [(311, 292, scDeadline d)]) := by
  refine State.streamCommand_own clear (by decide) own ?_
  rw [State.streamRun_own (State.popDesc_ownStream own) (by rw [clear.op]; decide)]
  simp only [clear.op]
  rfl

theorem State.delete_runs (clear : s.StreamFront f q d 6) (own : s.ownStream f (scStream d)) :
    exec (.delete f q) s = .next ((State.modIntake (((s.chunksOf (scStream d)).foldl (fun s c => s.discardChunk c 0)
      (s.popDesc f q d)).modRing (scStream d) fun _ => Ring.init) (scStream d) fun _ => Intake.init).streamGroup f q (s.headAfter f q d) d
        [(254, 254, 0)]) := by
  refine State.streamCommand_own clear (by decide) own ?_
  rw [State.streamRun_own (State.popDesc_ownStream own) (by rw [clear.op]; decide)]
  simp only [clear.op]
  unfold State.clearStream
  rw [State.popDesc_chunksOf]
  rfl

/-- A command that is dispatched and names another partition's stream. -/
theorem State.streamCommand_foreign (front : s.Front f q d) (kind : descKind d = 4) (valid : seValid (s.entry (scStream d)) = true)
    (other : s.streamPart (scStream d) ≠ f - 1) (legal : 1 ≤ op ∧ op ≤ 6) (op' : descOp d = op) :
    s.streamCommand f q op = .next ((s.popDesc f q d).complete f q d (s.headAfter f q d) stFault) := by
  have foreign : s.streamForeign f d = true := by simp [State.streamForeign, valid, other]
  rw [State.streamCommand_front front kind op' legal]
  exact if_pos foreign

/-- A command that is dispatched and held back. -/
theorem State.streamCommand_waits (front : s.Front f q d) (kind : descKind d = 4) (own : s.streamForeign f d = false)
    (back : s.streamHeld (scStream d) = true ∨ s.streamBlocked d = true) (legal : 1 ≤ op ∧ op ≤ 6) (op' : descOp d = op) :
    s.streamCommand f q op = .next { s.popDesc f q d with strm := { s.strm with waiting := s.strm.waiting ++
      [(f, q, s.headAfter f q d, d)] } } := by
  rw [State.streamCommand_front front kind op' legal]
  refine (if_neg (ne_true_of_eq_false own)).trans (if_pos ?_)
  rcases back with h | h
  all_goals simp [h]

end

/-- Settles O33: the dispatch looks at the state before it; the effect is that of the op, on the state with the descriptor taken off. -/
theorem streamCommandsTakeEffect : Obligations.StreamCommandsTakeEffect := by
  unfold Obligations.StreamCommandsTakeEffect
  refine ⟨fun s f q d => ⟨fun clear stack => State.streamCreate_runs clear stack,
      fun clear own idle => ⟨fun none => ?_, fun pending => ?_⟩, fun clear own => State.move_runs clear own,
      fun clear own => State.stSet_runs clear own, fun clear own => ⟨fun idle => ?_, fun held c found => ?_⟩,
      fun clear own => State.delete_runs clear own⟩,
    fun s f q d front kind valid other => ?_, fun s f q d invalid => ?_, fun s f q d front kind own back => ?_,
    fun s n f q h d l first => ⟨fun back => ?_, fun free clear => ?_⟩,
    fun s n ue m found => ⟨fun waits => ?_, fun answered failed => ?_, fun answered whole near =>
      State.moveCopyComplete_near found answered whole near⟩⟩
  · exact (State.streamReset_runs clear own idle).trans (congrArg Host.Outcome.next (if_pos none))
  · exact (State.streamReset_runs clear own idle).trans (congrArg Host.Outcome.next (if_neg pending))
  · exact State.resume_runs clear own (if_pos idle)
  · intro back drop
    have resumes {t : State} (effect : (s.popDesc f q d).resumeStream f q (s.headAfter f q d) d = t) : exec (.resume f q) s = .next t :=
      State.resume_runs clear own ((if_neg (not_not_intro held)).trans effect)
    have now : (s.popDesc f q d).now = s.now := State.popDesc_now
    have free := (s.popDesc_strm f q d).2
    obtain ⟨requeue, discard, reserved⟩ := State.resumeStream_held (f := f) (q := q) (h := s.headAfter f q d) now free
      (by rw [State.popDesc_chunksOf]; exact found)
    exact ⟨fun action => resumes (requeue action), fun action => resumes (discard action),
      fun action => (reserved action).imp resumes resumes⟩
  · have names {op : Nat} (legal : 1 ≤ op ∧ op ≤ 6) := State.streamCommand_foreign front kind valid other legal
    exact ⟨names (by decide), names (by decide), names (by decide), names (by decide), names (by decide), names (by decide)⟩
  · exact ⟨fun clear => State.streamCommand_invalid clear (by decide) invalid, fun clear => State.streamCommand_invalid clear (by decide) invalid,
      fun clear => State.streamCommand_invalid clear (by decide) invalid, fun clear => State.streamCommand_invalid clear (by decide) invalid,
      fun clear => State.streamCommand_invalid clear (by decide) invalid⟩
  · have waits {op : Nat} (legal : 1 ≤ op ∧ op ≤ 6) := State.streamCommand_waits front kind own back legal
    exact ⟨waits (by decide), waits (by decide), waits (by decide), waits (by decide), waits (by decide), waits (by decide)⟩
  · show execStreamCommandResume n s = .next s
    unfold execStreamCommandResume
    simp only [first]
    refine if_pos ?_
    rcases back with h | h
    all_goals simp [h]
  · show execStreamCommandResume n s = _
    unfold execStreamCommandResume
    simp only [first]
    refine if_neg ?_
    simp [free, clear]
  · refine congrArg Host.Outcome.next ?_
    simp only [found, waits]
    rfl
  · refine congrArg Host.Outcome.next ?_
    simp only [found, answered, failed]
    rfl

end Sys2Proof.Machine
end

section
/-! Proofs of chapter 06: chunks (R219). -/
set_option Elab.async false
namespace Sys2Proof.Machine

/-- A chunk of stream 0 whose due time has come. -/
def lateChunk : Chunk :=
  { id := 0, stream := 0, st := .queued, ready := 0, due := 0, resets := 0, inc := 0, first := 0, idle := 0, slots := 0, frames := [],
    host := false, missed := false, inj := false, waited := false }

/-- READY with that chunk and a range of one page; the entry that names the partition of its stack holds a number beyond any
partition's, whose counter of misses is the entry of the size of the PF's event queue. -/
def State.missesBeyond : State :=
  { State.reset with
    top := { State.reset.top with dev := .ready }
    regs := [(dkey 0x3010 1, pageSize), (dkey 0x3010 2, 1), (dkey 0x5100 2, 0x6000)]
    strm := { State.reset.strm with chunks := [lateChunk] } }

theorem State.missesBeyond_mem : (State.missesBeyond.missChunk 0).mem ≠
    (State.missesBeyond.raise { det := 0x9013, sev := 0, detail := 0, aux := 0, part := some 0x6000, injected := false }).mem := by
  decide +kernel

theorem State.missesBeyond_part : State.missesBeyond.streamPart 0 = 0x6000 := by decide +kernel

/-- Refutes O34: the miss is counted for the partition of the stream before its detector is raised; the number of a partition is
an entry of the dictionary, and of one beyond those of the module the counter may be the entry of the size of the PF's event queue, so
that the record finds a slot there that it did not have before the miss was counted. -/
theorem not_chunksAreBatchedAndCommitted : ¬ Obligations.ChunksAreBatchedAndCommitted := by
  rintro ⟨-, -, misses, -⟩
  obtain ⟨t, ran, -, mem, -⟩ := (misses State.missesBeyond 0).1 lateChunk (by decide +kernel)
  obtain rfl : State.missesBeyond.missChunk 0 = t := Host.Outcome.next.inj ran
  rw [State.missesBeyond_part] at mem
  exact State.missesBeyond_mem mem

end Sys2Proof.Machine
end

section
/-! Proofs of chapters 04 and 05: the chains of the DMV (R27, R145 to R148). -/
set_option Elab.async false
namespace Sys2Proof.Machine

/-! ### The start of chains (R145, R146) -/

section
variable {s : State} {p : Nat} {up : Upsets} {ue : List Nat} {it : DmvItem} (fuel : Nat)

theorem State.dmvStart_none (none : (s.core p).dmv.find? (fun i => !i.started) = .none) : State.dmvStart fuel s p up ue = s := by
  cases fuel with
  | zero => rfl
  | succ fuel =>
    unfold State.dmvStart
    simp only [none]

variable (first : (s.core p).dmv.find? (fun i => !i.started) = some it)
include first

theorem State.dmvStart_waits (back : (s.dmvItems p it.chain).any (fun i => i.last) = false ∨
    32 ≤ ((s.core p).dmv.filter fun i => i.started).length) : State.dmvStart (fuel + 1) s p up ue = s := by
  rw [State.dmvStart]
  simp only [first]
  refine if_pos ?_
  rcases back with h | h
  all_goals simp [h]

section
variable (whole : (s.dmvItems p it.chain).any (fun i => i.last) = true) (few : ((s.core p).dmv.filter fun i => i.started).length < 32)
include whole few

/-- A descriptor of a chain that has its permits starts, and moves what it can. -/
theorem State.dmvStart_permitted (permitted : it.permits.isSome = true) : State.dmvStart (fuel + 1) s p up ue =
    State.dmvStart fuel ((s.modItem p it.id fun x => { x with started := true }).dmvMove p it.id up ue) p up ue := by
  rw [State.dmvStart]
  simp only [first]
  refine (if_neg ?_).trans (if_pos permitted)
  simp [whole, few]

/-- A chain without recorded permits waits, asks for them, or records them. -/
theorem State.dmvStart_unpermitted (unpermitted : it.permits = none) : State.dmvStart (fuel + 1) s p up ue =
    if (s.chainPermits p (s.dmvItems p it.chain)).any (fun q => (s.core p).dmv.any fun i => (i.permits.getD []).contains q) then s
    else if (s.chainPermits p (s.dmvItems p it.chain)).any (fun q => !s.holdsPermit q) then
      (s.chainPermits p (s.dmvItems p it.chain)).foldl (fun s q => s.askPermit q) s
    else State.dmvStart fuel ((s.dmvItems p it.chain).foldl (fun u i => u.modItem p i.id fun x =>
      { x with permits := some (s.chainPermits p (s.dmvItems p it.chain)) }) s) p up ue := by
  rw [State.dmvStart]
  simp only [first]
  refine (if_neg ?_).trans (if_neg ?_)
  · simp [whole, few]
  · simp [unpermitted]

end
end

/-! ### A copy of one row (R145, R159) -/

/-- The state of core p is c, in a state whose cores are listed in order. -/
def State.CoreIs (s : State) (p : Nat) (c : Core) : Prop := SMap.rising 0 s.cores = true ∧ s.core p = c

theorem State.CoreIs.mod {s : State} {p : Nat} {c : Core} (is : s.CoreIs p c) (f : Core → Core) : (s.modCore p f).CoreIs p (f c) := by
  obtain ⟨rising, rfl⟩ := is
  exact ⟨SMap.rising_mod (d := Core.init) rising p f, SMap.get_set_same Core.init rising _ _⟩

/-- A bank's use is dated, and the bank is awake. -/
def Core.used (c : Core) (b cc : Nat) : Core := { c with retained := maskClear c.retained b, lastUse := SMap.set 0 c.lastUse (4 + b) cc }

theorem State.CoreIs.use {s : State} {p : Nat} {c : Core} (is : s.CoreIs p c) (b : Nat) : (s.useBank p b).CoreIs p (c.used b s.cc) :=
  is.mod fun c => c.used b s.cc

theorem Core.view_used (c : Core) (b cc part r : Nat) : (c.used b cc).view part r = c.view part r := rfl

/-- A row that its owner writes reads as written. -/
theorem Core.view_write {c : Core} {part r : Nat} (rising : SMap.rising 0 c.rows = true) (own : c.owns part r = true) (v : Row) :
    (c.write part r v).view part r = v := by
  have wrote : c.write part r v = { c with rows := SMap.set 0 c.rows r v, writeBack := c.writeBack.filter (· ≠ r) } := if_pos own
  have own' : (c.write part r v).owns part r = true := by rw [wrote]; exact own
  unfold Core.view
  rw [own', wrote]
  exact SMap.get_set_same 0 rising r v

theorem Core.write_dmv (c : Core) (part r : Nat) (v : Row) : (c.write part r v).dmv = c.dmv := by
  unfold Core.write
  split <;> rfl

theorem leNat_wordBytes {n : Nat} (w : BitVec n) (whole : 8 ∣ n) : leNat (wordBytes w) = w.toNat :=
  leNat_leBytes (by rw [Nat.mul_div_cancel' whole]; exact w.isLt)

theorem ofNat_leNat_wordBytes (v : Row) : BitVec.ofNat 4096 (leNat (wordBytes v)) = v := by
  rw [leNat_wordBytes v (by decide), BitVec.ofNat_toNat, BitVec.setWidth_eq]

section
variable {s : State} {p : Nat} {it : DmvItem} (op : dvOp it.desc = 0) (src : dvSrcKind it.desc = 0) (dst : dvDstKind it.desc = 0)
include op src dst

/-- A copy within the cistern needs no permit. -/
theorem State.chainPermits_rows : s.chainPermits p [it] = [] := by
  have source (k : Nat) : dvFrom it.desc k = .cistern ((dvSrc it.desc + k * dvSrcStride it.desc) % cisternRows) := by
    rw [dvFrom, src]
    rfl
  have target (k : Nat) : dvTo it.desc k = .cistern ((dvDst it.desc + k * dvDstStride it.desc) % cisternRows) := by
    rw [dvTo, dst]
    rfl
  have none : s.chainBytes [it] = (0, 0) := by
    unfold State.chainBytes
    simp only [List.foldl_cons, List.foldl_nil, source, target, op]
    exact List.foldlRecOn (motive := fun t => t = ((0, 0) : Nat × Nat)) _ _ rfl fun t same _ _ => by rw [same]; rfl
  unfold State.chainPermits
  simp only [none, Nat.not_lt_zero, if_false, List.append_nil]

theorem State.dmvRow_copy {c : Core} (is : s.CoreIs p c) (fix : s.reg 0x9001 3 = 0) (lose : s.reg 0x9002 3 = 0)
    (own : c.owns it.part (dvSrc it.desc % cisternRows) = true) (own' : c.owns it.part (dvDst it.desc % cisternRows) = true) :
    s.dmvRow p it ⟨[], []⟩ [] 0 = ((((s.useBank p (dvSrc it.desc % cisternRows % 4)).modCore p fun x =>
      x.write it.part (dvDst it.desc % cisternRows) (c.view it.part (dvSrc it.desc % cisternRows))).useBank p
        (dvDst it.desc % cisternRows % 4)).modItem p it.id fun x => { x with left := x.left.filter (· ≠ 0) }) := by
  have source : dvFrom it.desc 0 = .cistern (dvSrc it.desc % cisternRows) := by
    rw [dvFrom, src, spotOf, Nat.zero_mul, Nat.add_zero]
    rfl
  have target : dvTo it.desc 0 = .cistern (dvDst it.desc % cisternRows) := by
    rw [dvTo, dst, spotOf, Nat.zero_mul, Nat.add_zero]
    rfl
  have used := is.use (dvSrc it.desc % cisternRows % 4)
  have read : s.dmvRead p it 0 ⟨[], []⟩ [] =
      (s.useBank p (dvSrc it.desc % cisternRows % 4), .bytes (wordBytes (c.view it.part (dvSrc it.desc % cisternRows)))) := by
    unfold State.dmvRead
    simp only [source, op, is.2, own, State.readRows_clean fix lose]
    have bank : [dvSrc it.desc % cisternRows].eraseDups.foldl (fun s r => s.useBank p (r % 4)) s =
        s.useBank p (dvSrc it.desc % cisternRows % 4) := by
      rfl
    simp only [bank, used.2, Core.view_used]
    rfl
  have wrote : (s.useBank p (dvSrc it.desc % cisternRows % 4)).dmvWrite p it 0
      (wordBytes (c.view it.part (dvSrc it.desc % cisternRows))) [] =
      ((s.useBank p (dvSrc it.desc % cisternRows % 4)).modCore p fun x =>
        x.write it.part (dvDst it.desc % cisternRows) (c.view it.part (dvSrc it.desc % cisternRows))).useBank p
          (dvDst it.desc % cisternRows % 4) := by
    unfold State.dmvWrite
    simp only [target, used.2, ofNat_leNat_wordBytes]
    exact if_pos own'
  have goes : (s.readWaits it 0 || s.writeWaits it 0 || (s.dmvFar it 0 && 128 ≤ s.dmvFlight p)) = false := by
    simp [State.readWaits, State.writeWaits, State.dmvFar, source, target]
  unfold State.dmvRow
  simp only [goes, read, State.dmvConvert, op]
  simp [wrote]

end

theorem State.modItem_mem (s : State) (p k : Nat) (f : DmvItem → DmvItem) : (s.modItem p k f).mem = s.mem := rfl

theorem State.useBank_mem (s : State) (p b : Nat) : (s.useBank p b).mem = s.mem := rfl

theorem State.CoreIs.item {s : State} {p : Nat} {c : Core} {it : DmvItem} (is : s.CoreIs p c) (one : c.dmv = [it]) (f : DmvItem → DmvItem) :
    (s.modItem p it.id f).CoreIs p { c with dmv := [f it] } := by
  have changed := is.mod fun c : Core => { c with dmv := c.dmv.map fun i => if i.id = it.id then f i else i }
  rw [one, List.map_singleton, if_pos rfl] at changed
  exact changed

theorem State.CoreIs.first {s : State} {p : Nat} {c : Core} {it : DmvItem} (is : s.CoreIs p c) (one : c.dmv = [it]) :
    (s.core p).dmv.find? (fun i => !i.started) = (if it.started then none else some it) ∧ s.dmvItems p it.chain = [it]
    ∧ (s.core p).dmv.find? (fun i => i.id = it.id) = some it ∧ (s.core p).dmv.filter (fun i => i.started) = (if it.started then [it] else []) := by
  unfold State.dmvItems
  rw [is.2, one]
  cases begun : it.started
  all_goals simp [begun]

/-- A chain of one descriptor that copies a row within the cistern begins, starts, and has moved its row (R145, R146). -/
theorem State.dmvChainStart_copy {s : State} {p : Nat} {it : DmvItem} (rising : SMap.rising 0 s.cores = true)
    (rows : SMap.rising 0 (s.core p).rows = true) (one : (s.core p).dmv = [it]) (unstarted : it.started = false) (fresh : it.permits = none)
    (last : it.last = true) (left : it.left = [0]) (op : dvOp it.desc = 0) (src : dvSrcKind it.desc = 0) (dst : dvDstKind it.desc = 0)
    (fix : s.reg 0x9001 3 = 0) (lose : s.reg 0x9002 3 = 0)
    (own : (s.core p).owns it.part (dvSrc it.desc % cisternRows) = true) (own' : (s.core p).owns it.part (dvDst it.desc % cisternRows) = true) :
    ∃ t, exec (.dmvChainStart p ⟨[], []⟩ []) s = .next t
      ∧ (t.core p).view it.part (dvDst it.desc % cisternRows) = (s.core p).view it.part (dvSrc it.desc % cisternRows)
      ∧ (t.core p).dmv = [{ it with started := true, permits := some [], left := [] }] ∧ t.mem = s.mem := by
  let it1 : DmvItem := { it with permits := some [] }
  let it2 : DmvItem := { it1 with started := true }
  let s1 := s.modItem p it.id fun x => { x with permits := some [] }
  let s2 := s1.modItem p it.id fun x => { x with started := true }
  have is : s.CoreIs p (s.core p) := ⟨rising, rfl⟩
  have is1 : s1.CoreIs p { s.core p with dmv := [it1] } := is.item one _
  have is2 : s2.CoreIs p { s.core p with dmv := [it2] } := is1.item (it := it1) rfl _
  have recorded : State.dmvStart 3 s p ⟨[], []⟩ [] = State.dmvStart 2 s1 p ⟨[], []⟩ [] := by
    obtain ⟨first, items, -, running⟩ := is.first one
    rw [unstarted] at first running
    have begun := State.dmvStart_unpermitted (up := ⟨[], []⟩) (ue := []) 2 first (by rw [items]; simp [last]) (by rw [running]; exact Nat.zero_lt_succ _) fresh
    rw [items, State.chainPermits_rows op src dst] at begun
    exact begun
  have started : State.dmvStart 2 s1 p ⟨[], []⟩ [] = State.dmvStart 1 (s2.dmvMove p it.id ⟨[], []⟩ []) p ⟨[], []⟩ [] := by
    obtain ⟨first, items, -, running⟩ := is1.first (it := it1) rfl
    rw [show it1.started = false from unstarted] at first running
    exact State.dmvStart_permitted (it := it1) (up := ⟨[], []⟩) (ue := []) 1 first (by rw [items]; simp [it1, last])
      (by rw [running]; exact Nat.zero_lt_succ _) rfl
  have moved : s2.dmvMove p it.id ⟨[], []⟩ [] = s2.dmvRow p it2 ⟨[], []⟩ [] 0 := by
    obtain ⟨-, -, found, -⟩ := is2.first (it := it2) rfl
    unfold State.dmvMove
    simp only [show it.id = it2.id from rfl, found, show it2.left = [0] from left]
    rfl
  have copied := State.dmvRow_copy (it := it2) op src dst is2 fix lose own own'
  have written := (is2.use (dvSrc it.desc % cisternRows % 4)).mod fun x =>
    x.write it.part (dvDst it.desc % cisternRows) ((s.core p).view it.part (dvSrc it.desc % cisternRows))
  have used := written.use (dvDst it.desc % cisternRows % 4)
  have kept := Core.write_dmv (Core.used { s.core p with dmv := [it2] } (dvSrc it.desc % cisternRows % 4) s2.cc) it.part
    (dvDst it.desc % cisternRows) ((s.core p).view it.part (dvSrc it.desc % cisternRows))
  have done := used.item (it := it2) kept fun x => { x with left := x.left.filter (· ≠ 0) }
  have empty : it2.left.filter (· ≠ 0) = [] := by rw [show it2.left = [0] from left]; rfl
  have ends : State.dmvStart 1 (s2.dmvRow p it2 ⟨[], []⟩ [] 0) p ⟨[], []⟩ [] = s2.dmvRow p it2 ⟨[], []⟩ [] 0 := by
    refine State.dmvStart_none 1 ?_
    rw [copied]
    exact (done.first (it := { it2 with left := it2.left.filter (· ≠ 0) }) rfl).1
  refine ⟨s2.dmvRow p it2 ⟨[], []⟩ [] 0, congrArg Host.Outcome.next ?_, ?_, ?_, ?_⟩
  · rw [one]
    exact recorded.trans (started.trans ((congrArg (fun t => State.dmvStart 1 t p ⟨[], []⟩ []) moved).trans ends))
  · rw [copied]
    refine (congrArg (fun c : Core => c.view it.part (dvDst it.desc % cisternRows)) done.2).trans ?_
    exact Core.view_write (c := Core.used { s.core p with dmv := [it2] } (dvSrc it.desc % cisternRows % 4) s2.cc) rows own' _
  · rw [copied]
    refine (congrArg Core.dmv done.2).trans ?_
    show [{ it2 with left := it2.left.filter (· ≠ 0) }] = _
    rw [empty]
  · rw [copied, State.modItem_mem, State.useBank_mem, State.modCore_mem, State.useBank_mem]
    exact (State.modItem_mem s1 p it.id _).trans (State.modItem_mem s p it.id _)

/-! ### The obligation -/

/-- Settles O57: a chain's first descriptor is looked at by what it and its chain hold; the copy is followed through the banks it uses. -/
theorem moverDescriptorsMove : Obligations.MoverDescriptorsMove := by
  unfold Obligations.MoverDescriptorsMove
  refine ⟨fun s p up ue => ⟨fun all => ?_, fun it first => ⟨fun back => ?_, fun whole few => ⟨fun permitted => ?_, fun fresh =>
      ⟨fun ⟨q, needed, i, listed, used⟩ => ?_, fun free ⟨q, needed, lacks⟩ => ?_, fun held => ?_⟩⟩⟩⟩,
    fun s p it rising rows one unstarted fresh last left op src dst _ fix lose own own' =>
      State.dmvChainStart_copy rising rows one unstarted fresh last left op src dst fix lose own own',
    fun s p it found => ⟨fun more => ?_, fun done => ?_⟩, fun _ _ _ _ => rfl⟩
  · exact congrArg Host.Outcome.next (State.dmvStart_none _ (List.find?_eq_none.mpr fun i listed => by simp [all i listed]))
  · exact congrArg Host.Outcome.next (State.dmvStart_waits (2 * (s.core p).dmv.length) first back)
  · exact congrArg Host.Outcome.next (State.dmvStart_permitted (2 * (s.core p).dmv.length) first whole few permitted)
  · refine congrArg Host.Outcome.next ((State.dmvStart_unpermitted (2 * (s.core p).dmv.length) first whole few fresh).trans (if_pos ?_))
    exact List.any_eq_true.mpr ⟨q, needed, List.any_eq_true.mpr ⟨i, listed, List.contains_iff_mem.mpr used⟩⟩
  · refine congrArg Host.Outcome.next ((State.dmvStart_unpermitted (2 * (s.core p).dmv.length) first whole few fresh).trans ((if_neg ?_).trans (if_pos ?_)))
    · simp only [List.any_eq_true, List.contains_iff_mem]
      rintro ⟨q, needed, i, listed, used⟩
      exact free q needed i listed used
    · exact List.any_eq_true.mpr ⟨q, needed, by rw [lacks]; rfl⟩
  · refine congrArg Host.Outcome.next ((State.dmvStart_unpermitted (2 * (s.core p).dmv.length) first whole few fresh).trans ((if_neg ?_).trans (if_neg ?_)))
    · simp only [List.any_eq_true, List.contains_iff_mem]
      rintro ⟨q, needed, i, listed, used⟩
      exact (held q needed).2 i listed used
    · simp only [List.any_eq_true, not_exists, not_and]
      intro q needed
      rw [(held q needed).1]
      decide
  · refine congrArg Host.Outcome.next ?_
    simp only [found, more]
    rfl
  · refine congrArg Host.Outcome.next ?_
    simp only [found, done]
    rfl

end Sys2Proof.Machine
end

section

/-!
The entries of a schedule: what each engine's command comes to once the CSQ has issued its entry, and that it comes to nothing where
no entry of its unit is due. Each command's equation is stated for the outcome of `State.issue`, or of `State.gtuIssue`.
-/

set_option Elab.async false

namespace Sys2Proof.Machine

/-! ### A wild run -/

/-- The charge of the cycles is a count of the account, so only the engine's own core changes. -/
theorem State.core_engineBusy_other {s : State} {p e n q : Nat} (other : q ≠ p) :
    (s.engineBusy p e n).core q = s.core q := by
  have cores : (s.engineBusy p e n).cores = (s.useEngine p e).cores :=
    (Keeps.charge (Keeps.refl (s.useEngine p e)) (hm := Sub.refl _)).frame .cores rfl
  exact (congrArg (SMap.get Core.init · q) cores).trans (State.core_modCore_other _ _ other)

theorem State.core_unruly_other {s : State} {p q : Nat} (other : q ≠ p) : (s.unruly p).core q = s.core q :=
  State.core_modCore_other _ _ other

theorem State.core_wildRun_other {s : State} {p e n q : Nat} (other : q ≠ p) : (s.wildRun p e n).core q = s.core q :=
  (State.core_engineBusy_other other).trans (State.core_unruly_other other)

/-- A wild run stays within its core: memory, contexts and the other cores stand. -/
theorem State.wildRun_within (s : State) (p e n q : Nat) : (s.wildRun p e n).mem = s.mem ∧ (s.wildRun p e n).ctxs = s.ctxs
    ∧ (q ≠ p → (s.wildRun p e n).core q = s.core q) :=
  have keeps := (Keeps.wildRun (Keeps.refl s) (p := p) (e := e) (cycles := n) (hm := Sub.refl _)).frame
  ⟨keeps .mem rfl, keeps .ctxs rfl, State.core_wildRun_other⟩

/-! ### Tiles of the MXE -/

theorem mxeTile_stores {s u v : State} {p : Nat} {up : Upsets} {x : Ctx} {d : Nat} {a b : Operand} {c : Core}
    (issued : s.issue p 0 32 up = .go u x d) (legal : txLegal d = true) (operands : tileOperands x d = (a, b))
    (read : u.engineRead p ((a.rows (txK d) (txM d) ++ b.rows (txK d) (txN d)).eraseDups) up = (v, false))
    (tile : (v.core p).runTile x d = some c) :
    exec (.mxeTile p up) s =
      .next (((v.setCore p c).bump 0x4001 12 (c.t2Count x.part a (txK d) (txM d) + c.t2Count x.part b (txK d) (txN d))).engineBusy
        p 0 (txIssue d)) := by
  show execMxeTile p up s = _
  simp only [execMxeTile, issued, legal, operands, read, tile, Bool.not_true, Bool.false_eq_true, if_false]

theorem mxeTile_wild {s u v : State} {p : Nat} {up : Upsets} {x : Ctx} {d : Nat} {a b : Operand}
    (issued : s.issue p 0 32 up = .go u x d) (legal : txLegal d = true) (operands : tileOperands x d = (a, b))
    (read : u.engineRead p ((a.rows (txK d) (txM d) ++ b.rows (txK d) (txN d)).eraseDups) up = (v, false))
    (tile : (v.core p).runTile x d = none) : exec (.mxeTile p up) s = .next (v.wildRun p 0 (txIssue d)) := by
  show execMxeTile p up s = _
  simp only [execMxeTile, issued, legal, operands, read, tile, Bool.not_true, Bool.false_eq_true, if_false]

theorem mxeTile_reserved {s u : State} {p : Nat} {up : Upsets} {x : Ctx} {d : Nat}
    (issued : s.issue p 0 32 up = .go u x d) (reserved : txLegal d = false) :
    exec (.mxeTile p up) s = .next (u.wildRun p 0 (txIssue d)) := by
  show execMxeTile p up s = _
  simp only [execMxeTile, issued, reserved, Bool.not_false, if_true]

/-! ### Cells of the GTU -/

section Cell

variable {s u : State} {p template : Nat} {up : Upsets} {x : Ctx} {d : Nat} {cell : Core → Ctx → Nat → CellIn → Nat → CellOut}
  {ok draws : Core → Ctx → Nat → Bool} (issued : s.gtuIssue p template up = .go u x d)

include issued

/-- A cell on a slot for the GTU that is READY or DRAINING runs on its tile. -/
theorem State.gtuCell_ready (slot : u.gtuSlot p (gdSlot d) = true) (legal : ok (u.core p) x d = true) :
    s.gtuCell p template up cell ok draws =
      .next (u.gtuResult p x d (cell (u.core p) x d) (draws (u.core p) x d)) := by
  obtain ⟨ready, gtu⟩ := Bool.and_eq_true_iff.mp slot
  unfold State.gtuCell
  simp only [issued, ready, gtu, legal, Bool.not_true, Bool.or_false, Bool.false_eq_true, if_false]
  rfl

/-- On any other slot it runs wild. -/
theorem State.gtuCell_wild (slot : u.gtuSlot p (gdSlot d) = false) :
    s.gtuCell p template up cell ok draws = .next (u.wildRun p 1 ((u.core p).gtuIssue x d)) := by
  have wrong : (!(u.core p).slotReady (gdSlot d) || !(SMap.get Slot.init (u.core p).rill (gdSlot d)).gtu) = true := by
    rw [← Bool.not_and]
    exact congrArg (!·) slot
  unfold State.gtuCell
  simp only [issued, wrong, Bool.true_or, if_true]

end Cell

theorem exec_gtuLstm (s : State) (p : Nat) (up : Upsets) : exec (.gtuLstm p up) s =
    s.gtuCell p 0 up (fun _ _ _ i _ => lstmCell i) (fun _ _ _ => true) fun _ _ _ => false := rfl

theorem exec_gtuGru (s : State) (p : Nat) (up : Upsets) : exec (.gtuGru p up) s =
    s.gtuCell p 1 up (fun _ _ _ i _ => gruCell i) (fun _ _ _ => true) fun _ _ _ => false := rfl

theorem exec_gtuMguPhaseA (s : State) (p : Nat) (up : Upsets) : exec (.gtuMguPhaseA p up) s =
    s.gtuCell p 2 up (fun _ _ _ i _ => mguACell i) (fun _ _ _ => true) fun _ _ _ => false := rfl

theorem exec_gtuMguPhaseB (s : State) (p : Nat) (up : Upsets) : exec (.gtuMguPhaseB p up) s =
    s.gtuCell p 3 up (fun _ _ _ i _ => mguBCell i) (fun _ _ _ => true) fun _ _ _ => false := rfl

theorem exec_gtuSru (s : State) (p : Nat) (up : Upsets) : exec (.gtuSru p up) s =
    s.gtuCell p 4 up (fun _ _ _ i _ => sruCell i) (fun _ _ _ => true) fun _ _ _ => false := rfl

theorem exec_gtuGateProgram (s : State) (p : Nat) (up : Upsets) : exec (.gtuGateProgram p up) s =
    s.gtuCell p 5 up (fun c x d i k => gateCell (c.gateWords x d) d x.seed (c.gtuTensor x d) i k)
      (fun c x d => gateLegal (c.gateWords x d)) fun c x d => (c.gateWords x d).any fun w => wfld w 31 27 = 12 := rfl

theorem gtuIntake_stores {s u : State} {p : Nat} {up : Upsets} {x : Ctx} {d : Nat} (issued : s.gtuIssue p 6 up = .go u x d) :
    exec (.gtuIntake p up) s =
      .next (let v := u.engineWrite p ((u.core p).gtuOutRows x d (hRows ((u.core p).handle (x.hnd (gdStateIn d))) / 4))
        (v.setCore p ((v.core p).gtuIntakeRun x d)).engineBusy p 1 ((u.core p).gtuIssue x d)) := by
  show execGtuIntake p up s = _
  simp only [execGtuIntake, issued]

/-! ### Passes of the VXE -/

theorem vxePass_stores {s u v : State} {p : Nat} {up : Upsets} {x : Ctx} {d : Nat} (issued : s.issue p 2 64 up = .go u x d)
    (legal : vdLegal d = true)
    (slots : ∀ k ∈ vxSlots d, (u.core p).slotReady k = true ∧ (SMap.get Slot.init (u.core p).rill k).gtu = false)
    (read : u.engineRead p ((u.core p).vxReadRows x d ((u.core p).vxWords x d) ((u.core p).vxRun x d u.free)) up = (v, false)) :
    exec (.vxePass p up) s = .next (v.vxEnd p x d ((u.core p).vxRun x d u.free) ((u.core p).vxWords x d)) := by
  have all : ((vxSlots d).all fun k => (u.core p).slotReady k && !(SMap.get Slot.init (u.core p).rill k).gtu) = true :=
    List.all_eq_true.mpr fun k hk => by simp only [slots k hk, Bool.not_false, Bool.and_self]
  show execVxePass p up s = _
  simp only [execVxePass, issued, legal, all, read, Bool.not_true, Bool.or_self, Bool.false_eq_true, if_false]

/-! ### Commands of the GXE and the DMV -/

/-- A legal descriptor of the command's own kind runs for the context of the CSQ. -/
theorem State.asyncIssue_runs {s u : State} {p unit n : Nat} {up : Upsets} {x : Ctx} {legal mine : Rec → Bool}
    {run : State → Nat → Rec → State} (due : s.dueDesc p unit 32 = some n) (ok : legal (BitVec.ofNat 256 n) = true)
    (own : mine (BitVec.ofNat 256 n) = true) (issued : s.issue p unit 32 up = .go u x n) :
    s.asyncIssue p unit up legal mine run = run u (u.core p).csq.ctx (BitVec.ofNat 256 n) := by
  unfold State.asyncIssue
  simp only [due, ok, own, issued, Bool.not_true, Bool.and_false, Bool.false_eq_true, if_false, if_true]

theorem State.gxeGo_issues {s t : State} {p x : Nat} {d : Rec} {up : Upsets} (issues : s.gxeIssue p x d up = some t) :
    s.gxeGo p x d up = t := by
  unfold State.gxeGo
  simp only [issues]

/-! ### No entry due -/

section Idle

variable {s : State} {p : Nat} (none_due : ∀ k, s.entryDue p k = none)

include none_due

theorem State.issue_idle (unit n : Nat) (up : Upsets) : s.issue p unit n up = .idle := by
  unfold State.issue
  simp only [none_due]

theorem State.dueDesc_none (unit n : Nat) : s.dueDesc p unit n = none :=
  congrArg (Option.map _) (none_due unit)

theorem State.gtuIssue_stop (template : Nat) (up : Upsets) : s.gtuIssue p template up = .stop s := by
  unfold State.gtuIssue
  simp only [State.dueDesc_none none_due]

theorem State.gtuCell_idle {template : Nat} {up : Upsets} {cell : Core → Ctx → Nat → CellIn → Nat → CellOut}
    {ok draws : Core → Ctx → Nat → Bool} : s.gtuCell p template up cell ok draws = .next s := by
  unfold State.gtuCell
  simp only [State.gtuIssue_stop none_due]

theorem State.asyncIssue_idle {unit : Nat} {up : Upsets} {legal mine : Rec → Bool} {run : State → Nat → Rec → State} :
    s.asyncIssue p unit up legal mine run = s := by
  unfold State.asyncIssue
  simp only [State.dueDesc_none none_due]

theorem mxeTile_idle {up : Upsets} : exec (.mxeTile p up) s = .next s := by
  show execMxeTile p up s = _
  simp only [execMxeTile, State.issue_idle none_due]

theorem gtuIntake_idle {up : Upsets} : exec (.gtuIntake p up) s = .next s := by
  show execGtuIntake p up s = _
  simp only [execGtuIntake, State.gtuIssue_stop none_due]

theorem vxePass_idle {up : Upsets} : exec (.vxePass p up) s = .next s := by
  show execVxePass p up s = _
  simp only [execVxePass, State.issue_idle none_due]

end Idle

/-! ### The obligation -/

/-- Settles O19: every command is the equation of its unit's issue, and stops where `State.entryDue` names no entry. -/
theorem engineEntriesRun : Obligations.EngineEntriesRun := by
  refine ⟨fun s u v p up x d a b issued legal operands read => ⟨?_, ?_⟩, ?_, State.wildRun_within, ?_, ?_, ?_, ?_⟩
  · exact fun c tile => mxeTile_stores issued legal operands read tile
  · exact mxeTile_wild issued legal operands read
  · exact fun s u p up x d => mxeTile_reserved
  · refine fun s u p up x d => ⟨fun slot => ?_, fun slot => ?_, gtuIntake_stores⟩
    · exact ⟨fun issued => (exec_gtuLstm s p up).trans (State.gtuCell_ready issued slot rfl),
        fun issued => (exec_gtuGru s p up).trans (State.gtuCell_ready issued slot rfl),
        fun issued => (exec_gtuMguPhaseA s p up).trans (State.gtuCell_ready issued slot rfl),
        fun issued => (exec_gtuMguPhaseB s p up).trans (State.gtuCell_ready issued slot rfl),
        fun issued => (exec_gtuSru s p up).trans (State.gtuCell_ready issued slot rfl),
        fun issued legal => (exec_gtuGateProgram s p up).trans (State.gtuCell_ready issued slot legal)⟩
    · exact ⟨fun issued => (exec_gtuLstm s p up).trans (State.gtuCell_wild issued slot),
        fun issued => (exec_gtuGru s p up).trans (State.gtuCell_wild issued slot),
        fun issued => (exec_gtuMguPhaseA s p up).trans (State.gtuCell_wild issued slot),
        fun issued => (exec_gtuMguPhaseB s p up).trans (State.gtuCell_wild issued slot),
        fun issued => (exec_gtuSru s p up).trans (State.gtuCell_wild issued slot),
        fun issued => (exec_gtuGateProgram s p up).trans (State.gtuCell_wild issued slot)⟩
  · exact fun s u v p up x d => vxePass_stores
  · intro s u p n up ue x r
    refine ⟨fun due legal issued t issues => ?_, fun due legal issued => ?_⟩
    · have runs {mine : Rec → Bool} (own : mine r = true) :
          s.asyncIssue p 3 up gxLegal mine (fun s x d => s.gxeGo p x d up) = t :=
        (State.asyncIssue_runs due legal own issued).trans (State.gxeGo_issues issues)
      exact ⟨fun kind => congrArg Host.Outcome.next (runs (decide_eq_true kind)),
        fun kind => congrArg Host.Outcome.next (runs (decide_eq_true kind))⟩
    · have runs {mine : Rec → Bool} (own : mine r = true) :
          s.asyncIssue p 4 up dvLegal mine (fun s x d => s.dmvIssue p x d up ue) = u.dmvIssue p (u.core p).csq.ctx r up ue :=
        State.asyncIssue_runs due legal own issued
      exact ⟨fun op => congrArg Host.Outcome.next (runs (decide_eq_true op)),
        fun op => congrArg Host.Outcome.next (runs (decide_eq_true op)),
        fun op => congrArg Host.Outcome.next (runs (decide_eq_true op))⟩
  · intro s p up ue idle
    have async {unit : Nat} {legal mine : Rec → Bool} {run : State → Nat → Rec → State} :
        (Host.Outcome.next (s.asyncIssue p unit up legal mine run) : Host.Outcome State Fault Refusal) = .next s :=
      congrArg Host.Outcome.next (State.asyncIssue_idle idle)
    exact ⟨mxeTile_idle idle, 
      (exec_gtuLstm s p up).trans (State.gtuCell_idle idle), (exec_gtuGru s p up).trans (State.gtuCell_idle idle),
      (exec_gtuMguPhaseA s p up).trans (State.gtuCell_idle idle), (exec_gtuMguPhaseB s p up).trans (State.gtuCell_idle idle),
      (exec_gtuSru s p up).trans (State.gtuCell_idle idle), (exec_gtuGateProgram s p up).trans (State.gtuCell_idle idle),
      gtuIntake_idle idle, vxePass_idle idle, async, async, async, async, async⟩

end Sys2Proof.Machine
end

section

/-!
Context commands: how one at the front of its pair is accepted and taken up when no other waits, and what CREATE, SWAP, IMPORT and KILL
leave of the context they name (R172, R188, R398 to R411).
-/

set_option Elab.async false

namespace Sys2Proof.Machine

/-! ### Contexts that are in use -/

/-- What stays with a context while its rows, its handles and its place in a segment change. -/
def Ctx.ident (c : Ctx) : CtxState × Nat × Nat × W64 := (c.st, c.part, c.core, c.seed)

section Ident

variable {s : State} {x : Nat} {i : CtxState × Nat × Nat × W64}

theorem State.setCtx_used {c : Ctx} (used : c.st ≠ .free) : (s.setCtx x c).ctx x = c :=
  SMap.get_set_listed _ _ _ fun reset => used (congrArg Ctx.st reset)

theorem State.modCtx_ident {g : Ctx → Ctx} {y : Nat} (is : (s.ctx x).ident = i) (used : i.1 ≠ .free) (same : ∀ c, (g c).ident = c.ident) :
    ((s.modCtx y g).ctx x).ident = i := by
  by_cases own : x = y
  · subst own
    have now : (g (s.ctx x)).ident = i := (same _).trans is
    have stays : (g (s.ctx x)).st ≠ .free := fun free => used ((congrArg Prod.fst now).symm.trans free)
    exact (congrArg Ctx.ident (State.setCtx_used stays)).trans now
  · exact (congrArg Ctx.ident (State.modCtx_other s g own)).trans is

theorem State.ident_of_ctxs {t : State} (is : (s.ctx x).ident = i) (ctxs : t.ctxs = s.ctxs) : (t.ctx x).ident = i :=
  (congrArg Ctx.ident (State.ctx_of_ctxs ctxs x)).trans is

theorem State.setBlocked_ident {y : Nat} {on : Bool} (is : (s.ctx x).ident = i) (used : i.1 ≠ .free) :
    ((s.setBlocked y on).ctx x).ident = i := by
  unfold State.setBlocked
  dsimp only
  split
  · split
    · exact is
    · exact State.modCtx_ident is used fun _ => rfl
  · split
    · have unblocked := State.modCtx_ident (g := fun c => { c with blocked := false }) (y := y) is used fun _ => rfl
      exact State.ident_of_ctxs unblocked rfl
    · exact is

/-- A context that enters a state keeps its partition, core and seed. -/
theorem State.setCtxState_ident {st : CtxState} (used : st ≠ .free) :
    ((s.setCtxState x st).ctx x).ident = (st, (s.ctx x).part, (s.ctx x).core, (s.ctx x).seed) := by
  unfold State.setCtxState
  exact State.setBlocked_ident (congrArg Ctx.ident (State.setCtx_used used)) used

theorem State.loseIntact_ident {p y rb n hb k : Nat} (is : (s.ctx x).ident = i) (used : i.1 ≠ .free) :
    ((s.loseIntact p y rb n hb k).ctx x).ident = i := by
  have step : ∀ (l : List (Nat × Ctx)) (t : State), (t.ctx x).ident = i → ((l.foldl (fun s q => s.modCtx q.1 fun c =>
      { c with intact := false, gone := (c.gone ++ c.window.filter fun r => inRows rb n r).eraseDups }) t).ctx x).ident = i := by
    intro l
    induction l with
    | nil => exact fun _ h => h
    | cons q l ih => exact fun t h => ih _ (State.modCtx_ident h used fun _ => rfl)
  exact step _ s is

theorem State.clearWindow_ident {p y : Nat} (is : (s.ctx x).ident = i) (used : i.1 ≠ .free) : ((s.clearWindow p y).ctx x).ident = i := by
  unfold State.clearWindow
  extract_lets c others rows hs cleared
  refine State.loseIntact_ident (State.ident_of_ctxs is ?_) used
  exact (Keeps.modCore (Keeps.zeroRowsOf (Keeps.refl s) (hm := Sub.refl _)) (hm := Sub.refl _)).frame .ctxs rfl

theorem State.bindRead_ctxs (s : State) (part a n : Nat) : (s.bindRead part a n).1.ctxs = s.ctxs :=
  (Keeps.bindRead (Keeps.refl s) (hm := Sub.refl _)).frame .ctxs rfl

/-- Binding reads the image and fills the window; it leaves who the context is. -/
theorem State.bindImage_ident {y : Nat} (is : (s.ctx x).ident = i) (used : i.1 ≠ .free) : ((s.bindImage y).ctx x).ident = i := by
  unfold State.bindImage
  dsimp only
  refine State.ident_of_ctxs (s := State.clearWindow _ _ _) ?_ rfl
  refine State.clearWindow_ident (State.modCtx_ident (State.ident_of_ctxs is ?_) used fun _ => rfl) used
  exact (State.bindRead_ctxs ..).trans ((State.bindRead_ctxs ..).trans (State.bindRead_ctxs ..))

end Ident

/-! ### The dispatch of a command that no other precedes (R398, R399) -/

/-- The headers that a command's checks read are looked at. -/
def State.looked (s : State) (o : CtxOp) : State := (s.opReads o).foldl (fun r x => r.peekAsk x.1 x.2) s

/-- The context command at the front of a pair, as it is accepted. -/
def State.opAt (s : State) (f q : Nat) (d : Desc) : CtxOp := ⟨f, q, s.headAfter f q d, d, .blocked, s.now⟩

/-- What the dispatch of a context command comes to where no other waits. -/
def State.opTaken (s : State) (f q : Nat) (d : Desc) : State :=
  let a := (s.popDesc f q d).looked (s.opAt f q d)
  if a.opDenied (s.opAt f q d) then a.complete f q d (s.headAfter f q d) stFault else State.settleOps { a with ctxOps := [s.opAt f q d] }

theorem Keeps.looked (s : State) (o : CtxOp) : Keeps 131072 s (s.looked o) :=
  Keeps.foldl (Keeps.refl s) _ fun _ _ h => Keeps.peekAsk h (hm := Sub.refl _)

theorem Keeps.popped (s : State) (f q : Nat) (d : Desc) : Keeps 524352 s (s.popDesc f q d) := Keeps.popDesc (Keeps.refl s) (hm := Sub.refl _)

section Dispatch

variable {s : State} {f q op : Nat} {d : Desc}

/-- A command with a legal op at the front of its pair is dispatched. -/
theorem State.take_command (front : s.Front f q d) (kind : descKind d = 3) (code : descOp d = op) (legal : 1 ≤ op ∧ op ≤ 6) :
    s.take f q (isCmd 3 op) = (s.popDesc f q d, some (d, s.headAfter f q d)) := by
  refine State.take_front front ?_ (by simp [isCmd, kind, code])
  simp only [reservedOp, kind, code]
  simp
  omega

theorem State.ctxCommand_front (front : s.CtxFront f q d op) (legal : 1 ≤ op ∧ op ≤ 6) :
    s.ctxCommand f q op = s.whenFetched fun _ => s.opTaken f q d := by
  obtain ⟨front, kind, code, alone, -⟩ := front
  have joined : ((s.popDesc f q d).looked (s.opAt f q d)).ctxOps ++ [s.opAt f q d] = [s.opAt f q d] :=
    congrArg (· ++ [s.opAt f q d]) (((Keeps.looked _ _).frame .ctxOps rfl).trans (((Keeps.popped s f q d).frame .ctxOps rfl).trans alone))
  unfold State.ctxCommand
  rw [State.whenFetched_at]
  simp only [State.take_command front kind code legal, (s.popDesc_frame f q d).2.2.1]
  unfold State.opTaken
  dsimp only
  rw [← joined]
  exact congrArg (fun t => s.whenFetched fun _ => t) (ite_congr rfl (fun _ => rfl) fun _ => rfl)

/-- A command that is not KILL answers what its dispatch gives. -/
theorem State.ctxAnswers_of {t : State}
    (answer : s.ctxOps = [] → s.av.handover = none → (s.whenFetched fun _ => s.opTaken f q d) = t) : s.CtxAnswers f q d t := by
  have takes {k : Nat} (front : s.CtxFront f q d k) (legal : 1 ≤ k ∧ k ≤ 6) : s.ctxCommand f q k = t :=
    (State.ctxCommand_front front legal).trans (answer front.alone front.here)
  exact ⟨fun front => congrArg Host.Outcome.next (takes front (by decide)), fun front => congrArg Host.Outcome.next (takes front (by decide)),
    fun front => congrArg Host.Outcome.next (takes front (by decide)), fun front => congrArg Host.Outcome.next (takes front (by decide)),
    fun front => congrArg Host.Outcome.next (takes front (by decide))⟩

end Dispatch

/-! ### Taking up the one command that waits (R397, R399) -/

section Settle

variable {s : State} {o : CtxOp}

theorem State.pumpOp_wanted (s : State) (o : CtxOp) : (s.pumpOp o).fab.wanted = s.fab.wanted :=
  ite_view (fun t : State => t.fab.wanted) (State.whenFetched_wanted ..) rfl

theorem State.pumpOps_wanted (n : Nat) : ∀ s : State, (State.pumpOps n s).fab.wanted = s.fab.wanted := by
  induction n with
  | zero => exact fun _ => rfl
  | succ n ih => exact fun s => (ih _).trans (foldl_view (fun t : State => t.fab.wanted) _ State.pumpOp_wanted s.ctxOps s)

/-- Commands that are taken up have what they read, or ask for it. -/
theorem State.settleOps_wanted (s : State) : s.settleOps.fab.wanted = s.fab.wanted :=
  (congrArg Fabric.wanted ((Keeps.beginCopy (Keeps.refl _) (hm := Sub.refl _)).frame .fab rfl)).trans (State.pumpOps_wanted ..)

theorem State.beginCopy_none (here : s.av.handover = none) : s.beginCopy = s := by
  unfold State.beginCopy
  simp only [here]

theorem State.settleOps_one (ops : s.ctxOps = [o]) : s.settleOps = (s.pumpOp o).beginCopy := by
  unfold State.settleOps
  rw [ops]
  show (State.pumpOps 0 (s.ctxOps.foldl State.pumpOp s)).beginCopy = _
  rw [ops]
  rfl

theorem State.pumpOp_blocked (held : s.opBlocked o = true) : s.pumpOp o = s := by
  unfold State.pumpOp
  simp only [held, Bool.not_true, Bool.and_false, Bool.false_eq_true, if_false]

theorem State.pumpOp_runs (ops : s.ctxOps = [o]) (waits : o.phase = .blocked) (free : s.opBlocked o = false) :
    s.pumpOp o = s.whenFetched fun _ => (s.looked o).runOp o := by
  unfold State.pumpOp
  rw [if_pos (by simp [ops, waits, free]), State.whenFetched_at]
  rfl

theorem State.pumpOp_cleared (clears : o.phase = .clear) : s.pumpOp o = s := by
  unfold State.pumpOp
  rw [if_neg (by simp [clears])]

theorem State.runOp_fails {st : Nat} (fails : s.opFails o = some st) : s.runOp o = s.endOp o st := by
  unfold State.runOp
  simp only [fails]

section Passes

variable (passes : s.opFails o = none)

include passes

theorem State.opDenied_passes : s.opDenied o = false := by
  unfold State.opFails at passes
  split at passes
  · cases passes
  · next allowed => simpa using allowed

theorem State.runOp_create (code : descOp o.desc = 1) : s.runOp o = s.createCtx o := by
  unfold State.runOp
  simp only [passes, code]

theorem State.runOp_swap (code : descOp o.desc = 3) : s.runOp o = s.swapCtx o := by
  unfold State.runOp
  simp only [passes, code]

theorem State.runOp_switch (code : descOp o.desc = 4) : s.runOp o = s.modOp (fun q => q = o) fun q => { q with phase := .weir } := by
  unfold State.runOp
  simp only [passes, code]

theorem State.runOp_export (code : descOp o.desc = 5) : s.runOp o = s.exportCtx o := by
  unfold State.runOp
  simp only [passes, code]

theorem State.runOp_import (code : descOp o.desc = 6) : s.runOp o = s.importCtx o := by
  unfold State.runOp
  simp only [passes, code]

end Passes

/-- The one command under way enters a phase. -/
theorem State.modOp_one (ops : s.ctxOps = [o]) (ph : OpPhase) :
    s.modOp (fun q => q = o) (fun q => { q with phase := ph }) = { s with ctxOps := [{ o with phase := ph }] } := by
  unfold State.modOp
  rw [ops]
  simp

end Settle

/-! ### What the commands leave of their contexts (R172, R406, R411) -/

section Effects

variable {s : State} {o : CtxOp}

theorem State.createCtx_ident (s : State) (o : CtxOp) : ((s.createCtx o).ctx (coCtx o.desc)).ident = (.binding, o.part, coCore o.desc,
    BitVec.ofNat 64 (if coSeed o.desc = 0 then s.reg (0x4810 + o.part) 1 else coSeed o.desc)) := by
  unfold State.createCtx
  dsimp only
  refine State.ident_of_ctxs (State.bindImage_ident (congrArg Ctx.ident (State.setCtx_used ?_)) ?_) rfl <;> exact CtxState.noConfusion

theorem State.createCtx_ctx (s : State) (o : CtxOp) :
    ((s.createCtx o).ctx (coCtx o.desc)).st = .binding ∧ ((s.createCtx o).ctx (coCtx o.desc)).part = o.part
      ∧ ((s.createCtx o).ctx (coCtx o.desc)).core = coCore o.desc ∧ ((s.createCtx o).ctx (coCtx o.desc)).seed =
        BitVec.ofNat 64 (if coSeed o.desc = 0 then s.reg (0x4810 + o.part) 1 else coSeed o.desc) := by
  have ident := s.createCtx_ident o
  simp only [Ctx.ident, Prod.mk.injEq] at ident
  exact ident

theorem State.createCtx_ops (ops : s.ctxOps = [o]) : (s.createCtx o).ctxOps = [{ o with phase := .bind }] := by
  unfold State.createCtx
  dsimp only
  refine congrArg State.ctxOps (State.modOp_one ?_ .bind)
  exact ((Keeps.bindImage (Keeps.refl _) (hm := Sub.refl _)).frame .ctxOps rfl).trans ops

theorem State.swapCtx_out (out : coOut o.desc ≠ noCtx) : s.swapCtx o =
    if (s.ctx (coOut o.desc)).st = .running then s.modOp (fun q => q = o) fun q => { q with phase := .weir }
    else s.beginSpill (coOut o.desc) o := if_neg out

theorem State.swapCtx_in (none : coOut o.desc = noCtx) : s.swapCtx o = s.beginRestore o := if_pos none

/-- A SWAPPED context that is not intact in its place, and whose core takes it, is RESTORING. -/
theorem State.beginRestore_starts (n : coCtx o.desc ≠ noCtx) (swapped : (s.ctx (coCtx o.desc)).st = .swapped)
    (takes : s.coreTakes (s.restoreAt o).1 = true)
    (die : (s.ctx (coCtx o.desc)).mid = true → (s.ctx (coCtx o.desc)).core / 32 = (s.restoreAt o).1 / 32)
    (apart : s.overlapsOther (s.physOf (s.restoreAt o).1) (s.ctx (coCtx o.desc)).part (s.restoreAt o).2.1
      (hdRowSpan (s.ctx (coCtx o.desc)).header) (s.restoreAt o).2.2 (hdHandleCount (s.ctx (coCtx o.desc)).header) = false)
    (lost : (s.ctx (coCtx o.desc)).intact = false ∨ coSame o.desc = false) :
    s.beginRestore o = ((s.setCtxState (coCtx o.desc) .restoring).modCtx (coCtx o.desc) fun c =>
      { c with core := (s.restoreAt o).1, rowBase := (s.restoreAt o).2.1, handleBase := (s.restoreAt o).2.2 }).modOp
        (fun q => q = o) fun q => { q with phase := .restore } := by
  have gone : ¬(((s.ctx (coCtx o.desc)).intact && coSame o.desc) = true) := by
    obtain no | no := lost <;> simp [no]
  have fits : ¬((decide ((s.ctx (coCtx o.desc)).st ≠ .swapped) || !s.coreTakes (s.restoreAt o).1
      || ((s.ctx (coCtx o.desc)).mid && decide ((s.ctx (coCtx o.desc)).core / 32 ≠ (s.restoreAt o).1 / 32))) = true) := by
    simpa [swapped, takes] using die
  unfold State.beginRestore
  dsimp only
  rw [if_neg n, if_neg (by simp [swapped]), if_neg fits, if_neg (by simp [apart]), if_neg gone]

/-- The place that a restore takes is the context's from then on. -/
theorem State.beginRestore_ctx {core rb hb : Nat} (starts : s.beginRestore o =
      ((s.setCtxState (coCtx o.desc) .restoring).modCtx (coCtx o.desc) fun c => { c with core := core, rowBase := rb, handleBase := hb }).modOp
        (fun q => q = o) fun q => { q with phase := .restore }) :
    ((s.beginRestore o).ctx (coCtx o.desc)).st = .restoring ∧ ((s.beginRestore o).ctx (coCtx o.desc)).core = core := by
  have restoring := State.setCtxState_ident (s := s) (x := coCtx o.desc) (st := .restoring) CtxState.noConfusion
  simp only [Ctx.ident, Prod.mk.injEq] at restoring
  have used : ((s.setCtxState (coCtx o.desc) .restoring).ctx (coCtx o.desc)).st ≠ .free := by
    rw [restoring.1]
    exact CtxState.noConfusion
  have ctx : (s.beginRestore o).ctx (coCtx o.desc) =
      { (s.setCtxState (coCtx o.desc) .restoring).ctx (coCtx o.desc) with core := core, rowBase := rb, handleBase := hb } := by
    rw [starts]
    exact State.setCtx_used used
  rw [ctx]
  exact ⟨restoring.1, rfl⟩

theorem State.beginRestore_ops {core rb hb : Nat} (starts : s.beginRestore o =
      ((s.setCtxState (coCtx o.desc) .restoring).modCtx (coCtx o.desc) fun c => { c with core := core, rowBase := rb, handleBase := hb }).modOp
        (fun q => q = o) fun q => { q with phase := .restore }) (ops : s.ctxOps = [o]) :
    (s.beginRestore o).ctxOps = [{ o with phase := .restore }] := by
  rw [starts]
  refine congrArg State.ctxOps (State.modOp_one ?_ .restore)
  exact ((Keeps.setCtxState (Keeps.refl s) (hm := Sub.refl _)).frame .ctxOps rfl).trans ops

theorem State.bindRead_ops (s : State) (part a n : Nat) : (s.bindRead part a n).1.ctxOps = s.ctxOps :=
  (Keeps.bindRead (Keeps.refl s) (hm := Sub.refl _)).frame .ctxOps rfl

theorem State.readMem_ops (s : State) (acct : Nat) (part : Option Nat) (a n : Nat) (narrow : Bool) (lost : List Nat) :
    (s.readMem acct part a n narrow lost).1.ctxOps = s.ctxOps :=
  (Keeps.readMem (Keeps.refl s) (hm := Sub.refl _)).frame .ctxOps rfl

theorem State.endOp_ctx (s : State) (o : CtxOp) (st x : Nat) : (s.endOp o st).ctx x = s.ctx x :=
  State.ctx_of_ctxs ((Keeps.endOp (Keeps.refl s) (hm := Sub.refl _)).frame .ctxs rfl) x

/-- The context that IMPORT makes of an image with a header, of a program with another. -/
def CtxOp.imported (o : CtxOp) (image program : Desc) : Ctx :=
  { Ctx.init with
    st := .swapped, part := o.part, core := coCore o.desc, rowBase := coRow o.desc, handleBase := coHandle o.desc, image := coProg o.desc,
    weightBase := coWeight o.desc, seed := imSeed image, weir := imWeir image, tagFault := imTag image, save := coImage o.desc,
    header := program }

theorem State.importCtx_lost (lost : (s.readMem o.part (some o.part) (coImage o.desc) 64 false []).2.lost ≠ []) :
    s.importCtx o = ((s.readMem o.part (some o.part) (coImage o.desc) 64 false []).1.bindRead o.part (coProg o.desc) 64).1.endOp o stError := by
  have some' : (!(s.readMem o.part (some o.part) (coImage o.desc) 64 false []).2.lost.isEmpty) = true := by simpa using lost
  unfold State.importCtx
  exact if_pos some'

theorem State.importCtx_reads (whole : (s.readMem o.part (some o.part) (coImage o.desc) 64 false []).2.lost = []) :
    let r := s.readMem o.part (some o.part) (coImage o.desc) 64 false []
    let b := r.1.bindRead o.part (coProg o.desc) 64
    s.importCtx o = State.endOp (b.1.setCtx (coCtx o.desc)
      (o.imported (BitVec.ofNat 512 (leNat r.2.bytes)) (BitVec.ofNat 512 (leNat b.2)))) o stCompleted := by
  have none' : ¬((!(s.readMem o.part (some o.part) (coImage o.desc) 64 false []).2.lost.isEmpty) = true) := by simp [whole]
  unfold State.importCtx
  exact if_neg none'

theorem State.importCtx_ctx (whole : (s.readMem o.part (some o.part) (coImage o.desc) 64 false []).2.lost = []) :
    ∃ program, (s.importCtx o).ctx (coCtx o.desc) =
      o.imported (BitVec.ofNat 512 (leNat (s.readMem o.part (some o.part) (coImage o.desc) 64 false []).2.bytes)) program := by
  rw [State.importCtx_reads whole]
  exact ⟨_, (State.endOp_ctx ..).trans (State.setCtx_used CtxState.noConfusion)⟩

theorem State.importCtx_ops (ops : s.ctxOps = [o]) (whole : (s.readMem o.part (some o.part) (coImage o.desc) 64 false []).2.lost = []) :
    (s.importCtx o).ctxOps = [] := by
  rw [State.importCtx_reads whole]
  unfold State.endOp
  refine ((Keeps.complete (Keeps.refl _) (hm := Sub.refl _)).frame .ctxOps rfl).trans ?_
  show (State.ctxOps (State.bindRead ..).1).erase o = []
  rw [State.bindRead_ops, State.readMem_ops, ops, List.erase_cons_head]

end Effects

/-! ### KILL (R399) -/

section Kill

variable {s : State} {f q : Nat} {d : Desc}

/-- The KILL at the front of a pair, as it is accepted. -/
def State.killAt (s : State) (f q : Nat) (d : Desc) : CtxOp := ⟨f, q, s.headAfter f q d, d, .clear, s.now⟩

/-- An accepted KILL is checked, and takes effect at once. -/
def State.killRun (s : State) (o : CtxOp) : State := (s.opFails o).elim (s.killCtx (coCtx o.desc)).settleOps (s.endOp o)

theorem State.kill_front (front : s.Front f q d) (kind : descKind d = 3) (code : descOp d = 2) : exec (.kill f q) s =
    .next (State.killRun { s.popDesc f q d with ctxOps := s.ctxOps ++ [s.killAt f q d] } (s.killAt f q d)) := by
  have ops : (s.popDesc f q d).ctxOps = s.ctxOps := (Keeps.popped s f q d).frame .ctxOps rfl
  have accepted : ∀ l n, l = s.ctxOps → n = s.now → State.killRun
      { s.popDesc f q d with ctxOps := l ++ [⟨f, q, s.headAfter f q d, d, .clear, n⟩] } ⟨f, q, s.headAfter f q d, d, .clear, n⟩ =
        State.killRun { s.popDesc f q d with ctxOps := s.ctxOps ++ [s.killAt f q d] } (s.killAt f q d) := by
    rintro _ _ rfl rfl
    rfl
  refine Eq.trans ?_ (congrArg Host.Outcome.next (accepted _ _ ops (s.popDesc_frame f q d).2.2.1))
  show execKill f q s = _
  unfold execKill State.killRun
  simp only [State.take_command front kind code (by decide)]
  refine congrArg Host.Outcome.next ?_
  split
  · next st fails => rw [fails, Option.elim_some]
  · next passes => rw [passes, Option.elim_none]

/-- What KILL makes of a context with no invocation, no job and no batch: its rows are cleared. -/
def State.killQuiet (s : State) (x : Nat) : State :=
  ((s.returnPermit ⟨.hbm, .spill x⟩).modCtx x fun c => { c with queue := [] }).beginClear x

theorem State.killNow_idle {x : Nat} (ends : ∀ o ∈ s.ctxOps, o.endsBy x = false) (idle : (s.ctx x).st = .idle) (unused : (s.ctx x).job = none)
    (empty : (s.ctx x).queue = []) (none' : ∀ k, s.batches k = []) : s.killNow x = s.killQuiet x := by
  have returned : (s.returnPermit ⟨.hbm, .spill x⟩).ctx x = s.ctx x :=
    State.ctx_of_ctxs ((Keeps.returnPermit (Keeps.refl s) (hm := Sub.refl _)).frame .ctxs rfl) x
  have ctx : ((s.returnPermit ⟨.hbm, .spill x⟩).modCtx x fun c => { c with queue := [] }).ctx x = { s.ctx x with queue := [] } := by
    unfold State.modCtx
    rw [returned]
    exact State.setCtx_used (by rw [idle]; exact CtxState.noConfusion)
  have batches (k : Nat) : ((s.returnPermit ⟨.hbm, .spill x⟩).modCtx x fun c => { c with queue := [] }).batches k = [] :=
    (congrArg (fun m : Streams => SMap.get [] m.batches k)
      ((Keeps.returnPermit (Keeps.refl s) (hm := Sub.refl _)).frame .strm rfl)).trans (none' k)
  have old : s.ctxOps.filter (fun o => o.endsBy x) = [] := List.filter_eq_nil_iff.mpr fun o ho => by simp [ends o ho]
  have quiet : ∀ l : List Nat, l.foldl (fun s n => (s.batches n).foldl (fun s b => s.abortJob b.job 2) s)
      ((s.returnPermit ⟨.hbm, .spill x⟩).modCtx x fun c => { c with queue := [] }) =
        (s.returnPermit ⟨.hbm, .spill x⟩).modCtx x fun c => { c with queue := [] } := by
    intro l
    induction l with
    | nil => rfl
    | cons n l ih =>
      rw [List.foldl_cons, batches]
      exact ih
  unfold State.killNow
  simp only [old, List.foldl_nil, empty, List.filter_nil, quiet, ctx, unused, idle]
  rfl

theorem Keeps.killQuiet (s : State) (x : Nat) : Keeps 1568 s (s.killQuiet x) :=
  Keeps.beginClear (Keeps.modCtx (Keeps.returnPermit (Keeps.refl s) (hm := Sub.of (Sub.refl _) (by decide)))
    (hm := Sub.of (Sub.refl _) (by decide))) (hm := Sub.of (Sub.refl _) (by decide))

theorem State.beginClear_st (s : State) (x : Nat) : ((s.beginClear x).ctx x).st = .killing := by
  have killing := State.setCtxState_ident (s := s) (x := x) (st := .killing) CtxState.noConfusion
  have cleared := State.modCtx_ident (g := fun c => { c with mid := false, job := none, queue := [], dying := false }) (y := x) killing
    CtxState.noConfusion fun _ => rfl
  simp only [Ctx.ident, Prod.mk.injEq] at cleared
  exact cleared.1

/-- A KILL that is the only command, of a context that no job and no batch uses. -/
theorem State.killRun_idle {o : CtxOp} (passes : s.opFails o = none) (ops : s.ctxOps = [o]) (clears : o.phase = .clear)
    (here : s.av.handover = none) (idle : (s.ctx (coCtx o.desc)).st = .idle) (unused : (s.ctx (coCtx o.desc)).job = none)
    (empty : (s.ctx (coCtx o.desc)).queue = []) (none' : ∀ k, s.batches k = []) : s.killRun o = s.killQuiet (coCtx o.desc) := by
  have keeps := (Keeps.killQuiet s (coCtx o.desc)).frame
  have alone : ∀ p ∈ s.ctxOps, p.endsBy (coCtx o.desc) = false := by
    intro p listed
    obtain rfl : p = o := List.mem_singleton.mp (ops ▸ listed)
    simp only [CtxOp.endsBy, clears]
  have kills : s.killCtx (coCtx o.desc) = s.killQuiet (coCtx o.desc) := by
    have apart : s.killHeld (coCtx o.desc) = false := by simp only [State.killHeld, here]
    unfold State.killCtx
    rw [apart, if_neg Bool.false_ne_true, State.killNow_idle alone idle unused empty none']
  have settled : (s.killQuiet (coCtx o.desc)).settleOps = s.killQuiet (coCtx o.desc) := by
    rw [State.settleOps_one ((keeps .ctxOps rfl).trans ops), State.pumpOp_cleared clears]
    exact State.beginCopy_none ((congrArg Avail.handover (keeps .av rfl)).trans here)
  unfold State.killRun
  rw [passes, Option.elim_none, kills, settled]

end Kill

/-! ### What a dispatch comes to -/

section Taken

variable {s : State} {f q : Nat} {d : Desc}

theorem State.opTaken_wanted (s : State) (f q : Nat) (d : Desc) :
    (s.opTaken f q d).fab.wanted = ((s.popDesc f q d).looked (s.opAt f q d)).fab.wanted := by
  unfold State.opTaken
  refine ite_view (fun t : State => t.fab.wanted) ?_ (State.settleOps_wanted _)
  exact congrArg Fabric.wanted ((Keeps.complete (Keeps.refl _) (hm := Sub.refl _)).frame .fab rfl)

theorem State.ctxAnswers_taken {t : State} (takes : s.av.handover = none → s.opTaken f q d = t) :
    s.CtxAnswers f q d (s.whenFetched fun _ => t) :=
  State.ctxAnswers_of fun _ here => by rw [takes here]

theorem State.opTaken_denied (denied : ((s.popDesc f q d).looked (s.opAt f q d)).opDenied (s.opAt f q d) = true) :
    s.opTaken f q d = ((s.popDesc f q d).looked (s.opAt f q d)).complete f q d (s.headAfter f q d) stFault := if_pos denied

/-- The command has been accepted, and nothing else waits. -/
def State.opAccepted (s : State) (f q : Nat) (d : Desc) : State :=
  { (s.popDesc f q d).looked (s.opAt f q d) with ctxOps := [s.opAt f q d] }

variable (allowed : ((s.popDesc f q d).looked (s.opAt f q d)).opDenied (s.opAt f q d) = false)

include allowed

theorem State.opTaken_accepted : s.opTaken f q d = ((s.opAccepted f q d).pumpOp (s.opAt f q d)).beginCopy := by
  unfold State.opTaken
  exact (if_neg (by rw [allowed]; exact Bool.false_ne_true)).trans (State.settleOps_one rfl)

theorem State.opTaken_held (here : s.av.handover = none) (held : (s.opAccepted f q d).opBlocked (s.opAt f q d) = true) :
    s.opTaken f q d = s.opAccepted f q d := by
  rw [State.opTaken_accepted allowed, State.pumpOp_blocked held]
  refine State.beginCopy_none ((congrArg Avail.handover ?_).trans here)
  exact ((Keeps.looked _ _).frame .av rfl).trans ((Keeps.popped s f q d).frame .av rfl)

theorem State.opTaken_runs {r : State} (free : (s.opAccepted f q d).opBlocked (s.opAt f q d) = false)
    (does : ((s.opAccepted f q d).looked (s.opAt f q d)).runOp (s.opAt f q d) = r) :
    s.opTaken f q d = ((s.opAccepted f q d).whenFetched fun _ => r).beginCopy := by
  rw [State.opTaken_accepted allowed, State.pumpOp_runs rfl rfl free, does]

end Taken

/-- Dispatch changes the entries of the pair alone, and no entry of its sub 1. -/
theorem State.opAccepted_seed (s : State) (f q : Nat) (d : Desc) (i : Nat) :
    ((s.opAccepted f q d).looked (s.opAt f q d)).reg i 1 = s.reg i 1 := by
  have pair {sub v : Nat} (w : State) (other : sub % 256 ≠ 1) : (w.setReg (pairIdx f q) sub v).reg i 1 = w.reg i 1 :=
    State.reg_setReg_other _ (by unfold dkey; omega)
  have popped : (s.popDesc f q d).reg i 1 = s.reg i 1 := by
    unfold State.popDesc
    dsimp only
    split
    · exact (pair _ (by decide)).trans (pair _ (by decide))
    · exact pair _ (by decide)
  have regs : ((s.opAccepted f q d).looked (s.opAt f q d)).regs = (s.popDesc f q d).regs :=
    ((Keeps.looked _ _).frame .regs rfl).trans ((Keeps.looked _ _).frame .regs rfl)
  refine Eq.trans ?_ popped
  unfold State.reg
  rw [regs]

theorem State.switchFor_one {s : State} {o : CtxOp} (code : descOp o.desc = 4) :
    State.switchFor { s with ctxOps := [{ o with phase := .weir }] } (s.physOf (s.ctx (coCtx o.desc)).core) = some (coCtx o.desc) := by
  unfold State.switchFor
  rw [List.find?_cons_of_pos]
  · rfl
  · simp only [code, decide_true, Bool.true_and]
    exact decide_eq_true rfl

/-- A SWAP that passes its checks has room for the context that comes in. -/
theorem State.restores_apart {s : State} {o : CtxOp} (passes : s.opFails o = none) (code : descOp o.desc = 3) (n : coCtx o.desc ≠ noCtx) :
    s.overlapsOther (s.physOf (s.restoreAt o).1) (s.ctx (coCtx o.desc)).part (s.restoreAt o).2.1
      (hdRowSpan (s.ctx (coCtx o.desc)).header) (s.restoreAt o).2.2 (hdHandleCount (s.ctx (coCtx o.desc)).header) = false := by
  have allowed := State.opDenied_passes passes
  unfold State.opDenied at allowed
  simp only [code] at allowed
  simp [n] at allowed
  obtain ⟨-, -, ⟨⟨-, own⟩, -⟩, apart⟩ := allowed
  rw [own]
  exact apart

/-- Settles O47: a command that no other precedes is taken up at once, and what it makes of its context stays so while it binds, restores
or completes. -/
theorem contextCommandsRun : Obligations.ContextCommandsRun := by
  unfold Obligations.ContextCommandsRun
  refine ⟨fun s f q d => ?_, fun s f q d front kind code => ?_⟩
  · intro o v looked a w u n x runs
    refine ⟨fun lacks => ?_, fun denied => ?_, fun allowed => ⟨fun held => ?_, fun free => ?_⟩⟩
    · exact State.ctxAnswers_of fun _ _ => State.whenFetched_wanting (s.opTaken_wanted f q d) lacks
    · exact State.ctxAnswers_taken (t := a.complete f q d (s.headAfter f q d) stFault) fun _ => State.opTaken_denied denied
    · exact State.ctxAnswers_taken (t := w) fun here => State.opTaken_held allowed here held
    have run {r : State} (does : u.runOp o = r) : runs r :=
      State.ctxAnswers_taken (t := (w.whenFetched fun _ => r).beginCopy) fun _ => State.opTaken_runs allowed free does
    have ops : u.ctxOps = [o] := (Keeps.looked w o).frame .ctxOps rfl
    refine ⟨fun st fails => run (State.runOp_fails fails), fun passes => ⟨fun create => ?_, fun swap => ?_, fun switch => ?_, fun copies => ?_,
      fun makes => ?_⟩⟩
    · obtain ⟨st, part, core, seed⟩ := u.createCtx_ctx o
      refine ⟨run (State.runOp_create passes create), st, part, core, ?_, State.createCtx_ops ops⟩
      rw [← s.opAccepted_seed f q d]
      exact seed
    · have goes {r : State} (does : u.swapCtx o = r) : runs r := run ((State.runOp_swap passes swap).trans does)
      refine ⟨fun out running => goes ?_, fun out parked => goes ?_, fun none => goes (State.swapCtx_in (o := o) none),
        fun _ n swapped takes die lost => ?_⟩
      · rw [State.swapCtx_out (o := o) out, if_pos running, State.modOp_one ops]
      · rw [State.swapCtx_out (o := o) out, if_neg parked]
      · have starts := State.beginRestore_starts (o := o) n swapped takes die (State.restores_apart (o := o) passes swap n) lost
        obtain ⟨st, core⟩ := State.beginRestore_ctx starts
        exact ⟨st, core, State.beginRestore_ops starts ops⟩
    · exact ⟨run ((State.runOp_switch passes switch).trans (State.modOp_one ops .weir)), State.switchFor_one switch⟩
    · exact run (State.runOp_export passes copies)
    · intro r
      have goes {t : State} (does : u.importCtx o = t) : runs t := run ((State.runOp_import passes makes).trans does)
      refine ⟨fun lost => goes (State.importCtx_lost lost), fun whole => ?_⟩
      obtain ⟨program, made⟩ := State.importCtx_ctx whole
      exact ⟨goes rfl, congrArg Ctx.st made, congrArg Ctx.part made, congrArg Ctx.core made, congrArg Ctx.save made, congrArg Ctx.weir made,
        State.importCtx_ops ops whole⟩
  · intro o u
    have runs : exec (.kill f q) s = .next (u.killRun o) := State.kill_front front kind code
    have passing (passes : u.opFails o = none) : u.killRun o = (u.killCtx (coCtx d)).settleOps := by
      unfold State.killRun
      rw [passes]
      rfl
    refine ⟨fun st fails => ?_, fun passes => ?_, fun passes alone here idle unused empty none => ?_⟩
    · rw [runs]
      unfold State.killRun
      rw [fails]
      rfl
    · rw [runs, passing passes]
    · have one : u.ctxOps = [o] := congrArg (· ++ [o]) alone
      have ctx : u.ctx (coCtx d) = s.ctx (coCtx d) := State.ctx_of_ctxs ((Keeps.popped s f q d).frame .ctxs rfl) _
      have quiet : u.killRun o = u.killQuiet (coCtx d) := by
        refine State.killRun_idle passes one rfl ?_ ?_ ?_ ?_ ?_
        · exact (congrArg Avail.handover ((Keeps.popped s f q d).frame .av rfl)).trans here
        · exact (congrArg Ctx.st ctx).trans idle
        · exact (congrArg Ctx.job ctx).trans unused
        · exact (congrArg Ctx.queue ctx).trans empty
        · exact fun k => (congrArg (fun m : Streams => SMap.get [] m.batches k) ((Keeps.popped s f q d).frame .strm rfl)).trans (none k)
      have keeps := (Keeps.killQuiet u (coCtx d)).frame
      exact ⟨_, runs.trans (congrArg Host.Outcome.next quiet), State.beginClear_st _ _, (keeps .ctxOps rfl).trans one,
        (keeps .jobs rfl).trans (s.popDesc_jobs f q d)⟩

end Sys2Proof.Machine
end
